-- ==== Sys2Proof/Word.lean ====
section
/-!
DEFINITION. The words of the NZ-3280: a register is 32 bits (R16), a stroke 128 bits (R189),
a byte of memory 8 bits, a granule of memory 64 bytes (R225).
-/
namespace Sys2Proof

/-- A 32-bit register of the window (R16). -/
abbrev Word := BitVec 32
/-- One byte of memory. -/
abbrev Byte := BitVec 8
/-- A 64-bit S-core register (Table 7.1). -/
abbrev DWord := BitVec 64
/-- A 128-bit stroke (R189). -/
abbrev StrokeWord := BitVec 128
/-- A 2048-bit V-core or NMU vector register. -/
abbrev VWord := BitVec 2048

end Sys2Proof
end

