-- ==== Sys2Proof/Syntax.lean ====
section
/-!
DEFINITION. The commands of the block: one constructor of `Instr` per row of the spec's table of
operations and events. An operand is what the outside world or the physics of the part decides: which
unit, which data word, which packet, which reading, which errors a read meets.
-/
namespace Sys2Proof

/-- Who makes a register access (2.4, R69): the AF through BAR0, VIn through its BAR0, JTAG, or
hub firmware. -/
inductive Requester where
  | af
  | vi (n : Fin 64)
  | jtag
  | hub
  deriving DecidableEq, Repr

/-- Core kinds, coded as the spec codes them (Table 5.3): M, V, S. -/
inductive CoreKind where
  | m
  | v
  | s
  deriving DecidableEq, Repr

/-- A runner: physical cluster, core kind, logical core and runner number (Table 5.8), and for how many MCLK cycles the stroke that it issues was
its head and not ready, in runs with their CAUSE of Table 18.5. -/
structure RunnerRef where
  cluster : Fin 64
  kind : CoreKind
  core : Fin 16
  runner : Fin 8
  waited : List (Fin 8 × Nat)
  deriving DecidableEq, Repr

/-- What Scribe keeps of a command header (Table 4.8): the issuing function (0 the AF), the queue
pair, TAG, NO_REPLY and the hurdle of ARRIVE. -/
structure CmdHdr where
  fn : Fin 65
  pair : Fin 8
  tag : BitVec 32
  noReply : Bool
  arrive : Option (Fin 8192)
  deriving DecidableEq, Repr

/-- The tick header fields that a receiver uses (Table 3.4). -/
structure TickHeader where
  hold : Bool
  discord : Bool
  forwarded : Bool
  leave : Bool
  hops : Nat
  pace : Nat
  lapIndex : Nat
  periodUs : Nat
  digest : Nat
  sender : Nat
  origin : Option Nat
  deriving DecidableEq, Repr

/-- One operation presented to a hurdle in one NCLK cycle (R211). A read returns the named
register (0 COUNT, 1 GEN, 2 TARGET). -/
inductive HurdleOp where
  | setTarget (v : BitVec 32)
  | setMode (mode : Nat) (lapReset : Bool)
  | reset
  | arrive (n : Nat)
  deriving DecidableEq, Repr

/-- The parameters of CREATE_QUEUE (Table 4.10). -/
structure QueueArgs where
  sqBase : Nat
  cqBase : Nat
  sqSlots : Nat
  cqEntries : Nat
  pair : Nat
  loc : Nat
  vector : Nat
  coalCount : Nat
  coalTime : Nat
  deriving DecidableEq, Repr

/-- What a port asks of a cache-die bank (8.4, 8.6): a granule read, a granule write of some of its bytes,
word atomics (code 1 to 4 of Table 8.5) on the words a mask names, or a row repair copy. -/
inductive BankOp where
  | read
  | write (bytes : List (Option (BitVec 8))) (blot : Bool)
  | rowRead
  | rowWrite (granules : List (List (BitVec 8) × Bool))
  | atomic (code : Nat) (words : List (Option (BitVec 32))) (blot : Bool)
  | repair
  deriving DecidableEq, Repr

/-- A request that a port presents to a bank: the bank, port 0 to 10 (R342), the master that counts it (R377, R378), the bank row and
granule, the bit errors that the read of the granule meets, whether the requester holds the secure bit, its function, and, for
a bank of the stack cache, the line that the row holds. -/
structure BankReq where
  bank : Fin 1536
  port : Fin 11
  master : Nat
  row : Fin 1024
  granule : Fin 8
  op : BankOp
  errs : Nat
  secure : Bool
  fn : Fin 65
  line : Option Nat
  deriving DecidableEq, Repr

/-- A request that reaches a home in an NCLK cycle (Table 8.7, R365): a write-back, a tower's read or write miss (of a whole line or of a part), and
a read or a write from outside the towers. -/
inductive HomeArrival where
  | writeBack (tower : Fin 16) (line : Nat)
  | gets (tower : Fin 16) (line : Nat)
  | getx (tower : Fin 16) (line : Nat) (whole : Bool)
  | read (fn : Fin 65) (addr : Nat)
  | write (fn : Fin 65) (addr : Nat) (data : List (BitVec 8)) (blot : Bool)
  deriving DecidableEq, Repr

/-- What a stack source asks of a page (9.1, 9.2, 9.5): a read of it, a write of some bytes of some of its 32 granules each with a
blot bit, the patrol scrubber's read, and the scrubber's write back. -/
inductive PageOp where
  | read
  | write (granules : List (List (Option (BitVec 8)) × Bool))
  | scrub
  | scrubWrite
  deriving DecidableEq, Repr

/-- A request of one source to a stack channel (9.6): the bank, the page of the bank (65,536 on are its spare pages), and what it asks. -/
structure PageReq where
  source : Fin 69
  bank : Fin 16
  page : Fin 65600
  op : PageOp
  deriving DecidableEq, Repr

/-- What one channel's decoder gave in a case of the page code's self-test (Table 9.4, case 0 to 2 for A to C): the symbols that it
corrected with the data unchanged, or none for a page reported uncorrectable. -/
structure SelfTest where
  stack : Fin 8
  channel : Fin 32
  strength : Fin 4
  case_ : Fin 3
  found : Option Nat
  deriving DecidableEq, Repr

/-- What a bring-up stage finds (Tables 16.1 and 16.3), with its length: the rails within range ([0] VIO18, [1] VPHY12, [2] REFCLK,
[3] VPKG), firmware slots that do not verify ([0] A, [1] B), cores (cluster, kind, physical number), and
rows (tower, bank, row) that fail, what the sweep of R337 finds where not all 64 delay codes pass (tower, key of the trim as m, lane and group,
mask of the codes that pass), lost towers and stacks, whether a unit fell back from the
fast path, expanders found (port, CXL_STATUS[30:23], GiB of expander 0 and of expander 1), whether TAMPER_N is asserted, and whether the stored life-cycle state fails its check (R692). -/
structure StageFindings where
  ms : Nat
  rails : Nat
  badSlots : Nat
  failedCores : List (Nat × Nat × Nat)
  failingRows : List (Nat × Nat × Nat)
  trims : List (Nat × Nat × Nat)
  lostTowers : List Nat
  lostStacks : List Nat
  selfTests : List SelfTest
  fellBack : Bool
  expanders : List (Nat × Nat × Nat × Nat)
  tamper : Bool
  stateFails : Bool
  deriving DecidableEq, Repr


/-- What one word of a near-memory unit meets: bit errors of the program-store word and the register whose parity fails (R460; n for VRn,
64 + n for SRn, 80 and 81 for RES0 and RES1, 82 + k for result slot k), the DCLK cycles that it takes with its waits, those that it waited
for entry to NMU mode (R442), and the compute slots refused to it (R446). -/
structure NmuErr where
  store : Nat
  parity : Option Nat
  cycles : Nat
  entryWait : Nat
  denied : Nat
  deriving DecidableEq, Repr

/-- A flit as it reaches a port's decoders (13.2): the 5,140 bytes that the far end sent, and the symbols that the link made wrong, by logical lane,
symbol of the lane and value XORed (R539). -/
structure FlitIn where
  bytes : List (BitVec 8)
  errors : List (Fin 8 × Fin 544 × Nat)
  deriving DecidableEq, Repr

/-- What a training state of a port finds (Table 13.5): lanes that detect a signal in each direction, lanes that fail equalisation, the
latency timed in 10 ps, the corrected bits of the transmit direction's worst lane that the far end counts, and whether the far end's other
counts keep R555. -/
structure PortFindings where
  detectTx : Nat
  detectRx : Nat
  failedTx : List Nat
  failedRx : List Nat
  latency : Nat
  farBits : Nat
  farOk : Bool
  deriving DecidableEq, Repr


/-- What the converters measure over a control window (R592, R607): the 96 input powers in mW and their output voltages in mV, input and
output currents in 10 mA, and the power of VAUX and the I/O rails in mW as the last PMBus readings give it; and by cluster, the window's bubble
cycles (R608) and the held cycles of R248 of its M-cores other than those for weight rows. -/
structure PowerWindow where
  domains : List Nat
  aux : Nat
  volts : List Nat
  iin : List Nat
  iout : List Nat
  bubbles : List Nat
  held : List Nat
  deriving DecidableEq, Repr

/-- What an hour gives for R_th (R626): the means of T_j and T_in in mK above 0 °C, of P_pkg in mW, whether the inlet sensor was valid
throughout, and for how much of the hour P_pkg was at least 1,200 W, in 1/1,000. -/
structure RthHour where
  tj : Int
  tin : Int
  mw : Nat
  inletValid : Bool
  loadPermille : Nat
  deriving DecidableEq, Repr
/-- The commands: one constructor per row of the table, its rule in brackets. -/
inductive Instr where
  /-- [R85] The pace timer expires every P × 100 reference cycles and the device emits a tick. -/
  | tick
  /-- [R88] WINDOW after a tick the start line passes and laps may start unless the pace is held. -/
  | startLine
  /-- [R111] A cluster issues its first stroke 32 ns × (c mod 16) after the start line. -/
  | clusterFirstIssue (c : Fin 64)
  /-- [R112] Each t_r / 8 interval raises the number of permitted weight-stream cycles by three. -/
  | rampInterval (c : Fin 64)
  /-- [R114] After 1,024 MCLK cycles without weight data a cluster's M-cores ramp again. -/
  | rampRestart (c : Fin 64)
  /-- [R100] The pace unit latches the lap's done state and its slack after the last completion. -/
  | lapDone (job : Nat) (t : Nat)
  /-- [R98] A device takes a tick header and treats differing pace number or period as discord. -/
  | tickHeaderReceive (port : Fin 12)
  /-- [R94] With WIRED set a rising PACE_IN edge ticks the device, or is counted when early. -/
  | paceInEdge (t : Nat)
  /-- [R94] With no PACE_IN edge by P + 1 µs the device ticks by itself and records PACE_MISSING. -/
  | paceMissing
  /-- [R110] A write clears the pace counters and sets PACE_SLACK_MIN to its maximum. -/
  | paceCountClear (d : BitVec 32)
  /-- [R66] A write to a register with no row of its own acts by its access code. -/
  | registerWrite (q : Requester) (addr size : Nat) (data : BitVec 64)
  /-- [R68] Writing LOCK locks the RWL fields of the block until reset. -/
  | blkLock (q : Requester) (block : Nat) (d : BitVec 32)
  /-- [R65] A read of a _LO register latches its _HI partner for the same requester. -/
  | loReadLatch (q : Requester) (off size : Nat)
  /-- [R79] A write of AF_BAR2_BASE_HI applies the new BAR2 base with the last _LO value. -/
  | afBar2BaseApply (d : BitVec 32)
  /-- [R676] A PCIe fundamental or hot reset ends all jobs and VIs and starts a warm bring-up. -/
  | warmReset
  /-- [R148] Scribe accepts a new SQ tail when its epoch matches and the advance fits, else counts it. -/
  | sqDoorbell (fn : Fin 65) (pair : Fin 8) (d : BitVec 32)
  /-- [R155] The host reports consumed completion entries, freeing CQ room. -/
  | cqHeadDoorbell (fn : Fin 65) (pair : Fin 8) (d : BitVec 32)
  /-- [R168] Scribe takes the next fully published command of an SQ in round-robin order and checks its header. -/
  | commandDispatch
  /-- [R214] A command with WAIT starts once the named hurdle releases. -/
  | commandWaitRelease
  /-- [R169] Hub firmware takes the next inbox entry in arrival order. -/
  | firmwareInboxServe
  /-- [R155] Scribe writes a held or new status reply into a free CQ entry with its phase. -/
  | statusReplyWrite
  /-- [R172] A CQ signals its vector COAL_TIME µs after the oldest unsignalled reply. -/
  | cqCoalTimeout (fn : Fin 65) (pair : Fin 8) (t : Nat)
  /-- [R161] Command NOP completes without effect. -/
  | nop (h : CmdHdr)
  /-- [R150] Creates a queue pair with epoch 0x0001. -/
  | createQueue (h : CmdHdr) (q : QueueArgs)
  /-- [R161] Deletes a queue pair. -/
  | deleteQueue (h : CmdHdr) (pair : Nat)
  /-- [R151] Discards unconsumed commands of an SQ, sets H to T and advances the epoch. -/
  | flushQueue (h : CmdHdr) (pair : Nat)
  /-- [R142] Assigns clusters, memory, hurdles and rank to a VI. -/
  | viCreate (h : CmdHdr) (vi : Nat) (payload : List (BitVec 8))
  /-- [R174] Resets a VI and returns its resources to the free pool. -/
  | viDestroy (h : CmdHdr) (vi : Nat)
  /-- [R174] Resets and scrubs a VI while keeping its resources. -/
  | viReset (h : CmdHdr) (vi : Nat)
  /-- [R161] Writes a VI's resource record and status to DST. -/
  | viQuery (h : CmdHdr) (dst vi : Nat)
  /-- [R162] Checks and loads a schedule image and returns its ID. -/
  | loadSchedule (h : CmdHdr) (image len : Nat)
  /-- [R166] Unloads a schedule that no job runs and lifts its write protection. -/
  | unloadSchedule (h : CmdHdr) (sched : Nat)
  /-- [R184] Applies HURDLE_INIT and starts a job of a loaded schedule. -/
  | startJob (h : CmdHdr) (sched laps mode kind : Nat)
  /-- [R163] Launches COUNT laps of a stepped or halted job at the next start line. -/
  | launchLap (h : CmdHdr) (sched count : Nat)
  /-- [R161] Ends a job at the next lap boundary, or at once when halted. -/
  | stopJob (h : CmdHdr) (sched : Nat)
  /-- [R746] Sets or releases a halt of a job at a lap index. -/
  | haltAtLap (h : CmdHdr) (sched lap : Nat)
  /-- [R214] Performs ARRIVE(COUNT) on a hurdle. -/
  | hurdleArrive (h : CmdHdr) (count hurdle : Nat)
  /-- [R214] Replies once a WAIT on the hurdle completes. -/
  | hurdleWait (h : CmdHdr) (hurdle : Nat)
  /-- [R161] Copies LEN bytes between device or bus addresses. -/
  | copy (h : CmdHdr) (src dst len host : Nat)
  /-- [R161] Fills LEN bytes with an 8-byte pattern. -/
  | fill (h : CmdHdr) (dst len pattern : Nat)
  /-- [R404] Writes retired-page list entries in order of retirement. -/
  | retiredPagesRead (h : CmdHdr) (dst max : Nat)
  /-- [R465] Sets the function's KV pool and initialises its control area and free stacks. -/
  | kvPoolSet (h : CmdHdr) (base pages pageBytes : Nat)
  /-- [R474] Creates a sequence and allocates its table pages. -/
  | kvSeqCreate (h : CmdHdr) (seq layers : Nat)
  /-- [R474] Shares a source sequence's blocks with an empty destination sequence. -/
  | kvSeqFork (h : CmdHdr) (src dst tokens : Nat)
  /-- [R474] Drops a sequence's page references and clears its directory entry. -/
  | kvSeqFree (h : CmdHdr) (seq : Nat)
  /-- [R500] Sets the far area and watermarks for KV spill. -/
  | kvSpillPolicy (h : CmdHdr) (farBase farPages high low : Nat)
  /-- [R529] Writes shard records of a range of tensors. -/
  | shardExport (h : CmdHdr) (dst len first count : Nat)
  /-- [R531] Checks and applies shard records in order. -/
  | shardImport (h : CmdHdr) (src len : Nat)
  /-- [R510] Replaces the function's SEED and STEP. -/
  | seedSet (h : CmdHdr) (seed step : Nat)
  /-- [R683] Stages a new base configuration for a target pace. -/
  | configBaseLoad (h : CmdHdr) (src len target : Nat)
  /-- [R683] Stages an overlay into a slot for a target pace. -/
  | overlayApply (h : CmdHdr) (src len target slot : Nat)
  /-- [R683] Stages removal of an overlay slot for a target pace. -/
  | overlayRemove (h : CmdHdr) (target slot : Nat)
  /-- [R687] Writes the stored base and overlay images. -/
  | configRead (h : CmdHdr) (dst len : Nat)
  /-- [R749] Writes a snapshot header and the requested sets, or coalesces into a pending one. -/
  | telemetrySnapshot (h : CmdHdr) (dst sets : Nat)
  /-- [R744] Writes the 384-byte counter record of one logical cluster. -/
  | countersRead (h : CmdHdr) (dst cluster : Nat)
  /-- [R638] Writes unread closed records of the function and marks them read. -/
  | blotterRead (h : CmdHdr) (dst max : Nat)
  /-- [R657] Writes the life record summary, firmware history and event log. -/
  | lifeRecordRead (h : CmdHdr) (dst len : Nat)
  /-- [R605] Stages a new power cap for a target pace. -/
  | powerCapSet (h : CmdHdr) (target watts : Nat)
  /-- [R606] Sets a job's power fractions and floor step. -/
  | powerPlanSet (h : CmdHdr) (sched compute memory link floorStep : Nat)
  /-- [R629] Gates the cluster domains and places cache-die banks in retention. -/
  | park (h : CmdHdr)
  /-- [R630] Powers the clusters up in 16 groups at PF and restores bank states. -/
  | unpark (h : CmdHdr)
  /-- [R645] Stages taking a cluster, tower or port out of service. -/
  | unitOut (h : CmdHdr) (target unit : Nat)
  /-- [R647] Stages testing and returning a unit to service. -/
  | unitIn (h : CmdHdr) (target unit : Nat)
  /-- [R647] A UNIT_IN test ends, the unit returns or is retired or lost, and the reply is written. -/
  | unitTestDone (kind index : Nat) (failed : List Nat) (sweep : List (Nat × Nat))
  /-- [R372] Starts a march test on a range of banks of a tower. -/
  | marchRun (h : CmdHdr) (first banks tower mode : Nat)
  /-- [R647] Retrains a Fjarlink port. -/
  | portRetrain (h : CmdHdr) (port : Nat)
  /-- [R653] Writes and verifies a firmware image in the inactive slot. -/
  | fwStage (h : CmdHdr) (src len : Nat)
  /-- [R654] Stages a hub firmware switch for a target pace. -/
  | fwSwitch (h : CmdHdr) (target : Nat)
  /-- [R644] Sets the calendar offset and shifts every event-history time. -/
  | timeSet (h : CmdHdr) (utc : Nat)
  /-- [R174] An FLR of a VF starts the VI reset sequence. -/
  | viFlr (n : Fin 64)
  /-- [R174] An FLR of the AF or clearing VF Enable resets every VI and aborts the AF's jobs. -/
  | afFlr
  /-- [R174] After the drain hub firmware ends the VI's jobs, queues and pools and starts the scrub. -/
  | viResetDrainDone (n : Fin 64)
  /-- [R175] The scrub of the VI's memory ends and hub firmware completes the reset. -/
  | viScrubDone (n : Fin 64)
  /-- [R173] Writing ENABLE creates or deletes queue pair 0. -/
  | viQ0Enable (fn : Fin 65) (d : BitVec 32)
  /-- [R173] A write clears the VI counters and resets VI_JOB_SLACK_MIN. -/
  | viCountClear (fn : Fin 65) (d : BitVec 32)
  /-- [R194] The quill fetches a 512-byte row of strokes for a runner whose queue holds 16 or fewer. -/
  | quillFetch (c : Fin 64)
  /-- [R191] A stroke completes and signals its mark. -/
  | strokeComplete (r : RunnerRef) (n : Nat)
  /-- [R190] Common stroke NOP honours its fence and marks only. -/
  | commonNop (r : RunnerRef) (w : BitVec 128)
  /-- [R186] Ends the runner's part of the lap. -/
  | lapEnd (r : RunnerRef) (w : BitVec 128)
  /-- [R190] Completes CYCLES MCLK cycles after issue. -/
  | delay (r : RunnerRef) (w : BitVec 128)
  /-- [R222] When every stage is head and ready, all stages of a relay issue in one cycle. `waits`: what each stage's runner waited for. -/
  | relayFire (c : Fin 64) (id : Fin 16) (waits : List (List (Fin 8 × Nat)))
  /-- [R223] A relay completes when all stages complete; leftover granules are discarded. -/
  | relayComplete (c : Fin 64) (id : Fin 16)
  /-- [R283] Sets or adds to an M-core address base. -/
  | msetb (r : RunnerRef) (w : BitVec 128)
  /-- [R242] Loads activation tiles into a stationary set. -/
  | mlda (r : RunnerRef) (w : BitVec 128)
  /-- [R257] Loads activation row scales into a stationary set. -/
  | mlds (r : RunnerRef) (w : BitVec 128)
  /-- [R249] Streams weight columns through the named arrays into the accumulator. -/
  | mpass (r : RunnerRef) (w : BitVec 128) (faulty : List (Nat × Nat))
  /-- [R283] Loads or zeroes accumulator entries. -/
  | macl (r : RunnerRef) (w : BitVec 128)
  /-- [R267] Converts accumulator entries and writes them by KIND. -/
  | mwb (r : RunnerRef) (w : BitVec 128)
  /-- [R246] The stream unit requests weight rows ahead of need, up to 8 in flight. -/
  | weightRowRequest (c : Fin 64) (core : Fin 16)
  /-- [R246] A requested weight row reaches the weight row buffer; `stall` counts the MCLK cycles for which the core held for it (Table 6.16). -/
  | weightRowArrive (c : Fin 64) (core : Fin 16) (stall : Nat)
  /-- [R286] A write clears the M-core counters. -/
  | mcCountClear (c : Fin 64) (core : Fin 18) (d : BitVec 32)
  /-- [R299] V-core lane add. -/
  | vadd (r : RunnerRef) (w : BitVec 128) (parity : Option (Nat × Nat))
  /-- [R299] V-core lane subtract. -/
  | vsub (r : RunnerRef) (w : BitVec 128) (parity : Option (Nat × Nat))
  /-- [R299] V-core lane multiply. -/
  | vmul (r : RunnerRef) (w : BitVec 128) (parity : Option (Nat × Nat))
  /-- [R299] V-core fused multiply-add with one rounding. -/
  | vfma (r : RunnerRef) (w : BitVec 128) (parity : Option (Nat × Nat))
  /-- [R300] V-core lane maximum. -/
  | vmax (r : RunnerRef) (w : BitVec 128) (parity : Option (Nat × Nat))
  /-- [R300] V-core lane minimum. -/
  | vmin (r : RunnerRef) (w : BitVec 128) (parity : Option (Nat × Nat))
  /-- [R300] V-core lane absolute value. -/
  | vabs (r : RunnerRef) (w : BitVec 128) (parity : Option (Nat × Nat))
  /-- [R300] V-core lane negation. -/
  | vneg (r : RunnerRef) (w : BitVec 128) (parity : Option (Nat × Nat))
  /-- [R756] V-core bitwise AND. -/
  | vand (r : RunnerRef) (w : BitVec 128) (parity : Option (Nat × Nat))
  /-- [R756] V-core bitwise OR. -/
  | vor (r : RunnerRef) (w : BitVec 128) (parity : Option (Nat × Nat))
  /-- [R756] V-core bitwise XOR. -/
  | vxor (r : RunnerRef) (w : BitVec 128) (parity : Option (Nat × Nat))
  /-- [R297] V-core integer shift by FUNC. -/
  | vshift (r : RunnerRef) (w : BitVec 128) (parity : Option (Nat × Nat))
  /-- [R300] V-core compare into a mask register. -/
  | vcmp (r : RunnerRef) (w : BitVec 128) (parity : Option (Nat × Nat))
  /-- [R297] V-core per-lane select by mask. -/
  | vsel (r : RunnerRef) (w : BitVec 128) (parity : Option (Nat × Nat))
  /-- [R304] V-core rotation of lane pairs. -/
  | vrot (r : RunnerRef) (w : BitVec 128) (parity : Option (Nat × Nat))
  /-- [R302] V-core format conversion with the chosen rounding. -/
  | vcvt (r : RunnerRef) (w : BitVec 128) (parity : Option (Nat × Nat))
  /-- [R313] V-core writes RGEN values into lanes. -/
  | vrgen (r : RunnerRef) (w : BitVec 128) (parity : Option (Nat × Nat))
  /-- [R307] V-core exponential by the table procedure. -/
  | vexp (r : RunnerRef) (w : BitVec 128) (parity : Option (Nat × Nat))
  /-- [R307] V-core natural logarithm. -/
  | vlog (r : RunnerRef) (w : BitVec 128) (parity : Option (Nat × Nat))
  /-- [R307] V-core reciprocal square root. -/
  | vrsq (r : RunnerRef) (w : BitVec 128) (parity : Option (Nat × Nat))
  /-- [R307] V-core reciprocal. -/
  | vrcp (r : RunnerRef) (w : BitVec 128) (parity : Option (Nat × Nat))
  /-- [R307] V-core hyperbolic tangent. -/
  | vtanh (r : RunnerRef) (w : BitVec 128) (parity : Option (Nat × Nat))
  /-- [R303] V-core pairwise-tree sum over lanes. -/
  | vrsum (r : RunnerRef) (w : BitVec 128) (parity : Option (Nat × Nat))
  /-- [R303] V-core maximum over lanes. -/
  | vrmax (r : RunnerRef) (w : BitVec 128) (parity : Option (Nat × Nat))
  /-- [R303] V-core minimum over lanes. -/
  | vrmin (r : RunnerRef) (w : BitVec 128) (parity : Option (Nat × Nat))
  /-- [R297] V-core lane permute. -/
  | vperm (r : RunnerRef) (w : BitVec 128) (parity : Option (Nat × Nat))
  /-- [R297] V-core lane broadcast. -/
  | vbcast (r : RunnerRef) (w : BitVec 128) (parity : Option (Nat × Nat))
  /-- [R754] V-core load of granules into register quarters. -/
  | vld (r : RunnerRef) (w : BitVec 128) (parity : Option (Nat × Nat))
  /-- [R306] V-core store or bank atomic by AOP. -/
  | vst (r : RunnerRef) (w : BitVec 128) (parity : Option (Nat × Nat))
  /-- [R305] V-core gather of 64 indexed elements. -/
  | vgath (r : RunnerRef) (w : BitVec 128) (parity : Option (Nat × Nat))
  /-- [R305] V-core scatter of 64 indexed elements. -/
  | vscat (r : RunnerRef) (w : BitVec 128) (parity : Option (Nat × Nat))
  /-- [R297] Sets or adds to a V-core address base. -/
  | vsetb (r : RunnerRef) (w : BitVec 128)
  /-- [R310] Sets an RGEN key register. -/
  | vsetk (r : RunnerRef) (w : BitVec 128)
  /-- [R297] Sets or adds to the RGEN counter base. -/
  | vsetc (r : RunnerRef) (w : BitVec 128)
  /-- [R297] Sets a mask register to a run of bits. -/
  | vsetm (r : RunnerRef) (w : BitVec 128)
  /-- [R521] Fused AdamW update of 64 parameters. -/
  | vadamw (r : RunnerRef) (w : BitVec 128) (parity : Option (Nat × Nat))
  /-- [R522] Fused SGD-momentum update of 64 parameters. -/
  | vsgdm (r : RunnerRef) (w : BitVec 128) (parity : Option (Nat × Nat))
  /-- [R325] A write clears the V-core counters. -/
  | vcCountClear (c : Fin 64) (core : Fin 9) (d : BitVec 32)
  /-- [R325] A write clears the S-core counters. -/
  | scCountClear (c : Fin 64) (core : Fin 4) (d : BitVec 32)
  /-- [R316] S-core ALU operation by FUNC. -/
  | salu (r : RunnerRef) (w : BitVec 128) (parity : Option Nat)
  /-- [R316] S-core load immediate. -/
  | sli (r : RunnerRef) (w : BitVec 128)
  /-- [R316] S-core reads a quill value. -/
  | sget (r : RunnerRef) (w : BitVec 128)
  /-- [R316] S-core memory load. -/
  | sld (r : RunnerRef) (w : BitVec 128) (parity : Option Nat)
  /-- [R316] S-core memory store. -/
  | sst (r : RunnerRef) (w : BitVec 128) (parity : Option Nat)
  /-- [R317] S-core writes eight registers as one granule into a baton channel. -/
  | spush (r : RunnerRef) (w : BitVec 128) (parity : Option Nat)
  /-- [R317] S-core writes index granules into a baton channel. -/
  | sidx (r : RunnerRef) (w : BitVec 128) (parity : Option Nat)
  /-- [R320] S-core writes an address base of another core's runner. -/
  | ssetb (r : RunnerRef) (w : BitVec 128) (parity : Option Nat)
  /-- [R207] S-core skips following strokes when its condition holds. -/
  | sskip (r : RunnerRef) (w : BitVec 128) (parity : Option Nat)
  /-- [R318] S-core repeats a loop body COUNT times. -/
  | sloop (r : RunnerRef) (w : BitVec 128) (parity : Option Nat)
  /-- [R316] S-core ARRIVE on a hurdle. -/
  | sarrive (r : RunnerRef) (w : BitVec 128) (parity : Option Nat)
  /-- [R316] S-core WAIT on a hurdle. -/
  | swait (r : RunnerRef) (w : BitVec 128) (parity : Option Nat)
  /-- [R316] S-core RESET of a hurdle. -/
  | sreset (r : RunnerRef) (w : BitVec 128)
  /-- [R316] S-core reads COUNT, GEN or TARGET of a hurdle. -/
  | shread (r : RunnerRef) (w : BitVec 128)
  /-- [R316] S-core sets a hurdle's TARGET. -/
  | shtarget (r : RunnerRef) (w : BitVec 128) (parity : Option Nat)
  /-- [R321] S-core issues a transfer or attention descriptor. -/
  | sxfer (r : RunnerRef) (w : BitVec 128) (parity : Option Nat)
  /-- [R323] A descriptor completes after its writes and performs its ARRIVE. -/
  | transferComplete (c : Fin 64)
  /-- [R211] A hurdle applies writes, RESET, ARRIVEs, release, WAIT checks and reads in one NCLK cycle. -/
  | hurdleOpApply (n : Fin 8192) (ops : List HurdleOp)
  /-- [R217] Writing RESET of HDL_CTRL resets the hurdle. -/
  | hdlCtrlReset (n : Fin 8192) (d : BitVec 32)
  /-- [R217] Writing a nonzero ARRIVE of HDL_CTRL arrives at the hurdle. -/
  | hdlCtrlArrive (n : Fin 8192) (d : BitVec 32)
  /-- [R572] A received HURDLE packet is applied to both copies and forwarded on other tree ports. -/
  | hurdlePacket (port : Fin 12)
  /-- [R342] A cache-die bank serves one request in rotating port order. -/
  | bankAccess (t : Fin 16) (lane : Fin 8) (cycle : Nat) (reqs : List BankReq)
  /-- [R352] Every 64 µs the patrol scrubber reads one row of every ON bank. -/
  | sramPatrolRow (t : Fin 16) (errs : List (Nat × Nat × Nat × Option Nat))
  /-- [R345] A bank power transition completes after its stated time. -/
  | bankWakeDone (t : Fin 16) (bank : Fin 1536)
  /-- [R363] The home serves a tower read miss by the directory state. -/
  | gets (m : Fin 8) (tower : Fin 16) (line : Nat) (along : List HomeArrival)
  /-- [R363] The home serves a tower write miss or upgrade. -/
  | getx (m : Fin 8) (tower : Fin 16) (line : Nat) (whole : Bool) (along : List HomeArrival)
  /-- [R363] The home takes a write-back of a Modified line. -/
  | writeBack (m : Fin 8) (tower : Fin 16) (line : Nat) (along : List HomeArrival)
  /-- [R363] The home serves a stack read from outside the towers. -/
  | homeExternalRead (m : Fin 8) (fn : Fin 65) (addr : Nat) (along : List HomeArrival)
  /-- [R363] The home serves a stack write from outside the towers. -/
  | homeExternalWrite (m : Fin 8) (fn : Fin 65) (addr : Nat) (data : List (BitVec 8)) (blot : Bool) (along : List HomeArrival)
  /-- [R367] A tower returns a recalled line and keeps it Shared after its pending access. -/
  | recallS (m : Fin 8) (tower : Fin 16) (line : Nat)
  /-- [R367] A tower returns and invalidates a recalled line after its pending access. -/
  | recallInv (m : Fin 8) (tower : Fin 16) (line : Nat)
  /-- [R363] A tower invalidates a Shared line and acknowledges. -/
  | invLine (m : Fin 8) (tower : Fin 16) (line : Nat)
  /-- [R368] The home discards a NACK for a recall served by a write-back. -/
  | recallNack (m : Fin 8) (tower : Fin 16) (line : Nat)
  /-- [R363] A tower frees a written-back line on its acknowledgement. -/
  | wbAck (m : Fin 8) (tower : Fin 16) (line : Nat)
  /-- [R364] Granted line data reaches a tower and its write is acknowledged. -/
  | lineGrantArrive (m : Fin 8) (tower : Fin 16) (line : Nat)
  /-- [R371] Writing START of TWR_MARCH_CTRL starts a march in the given mode. -/
  | marchStart (q : Requester) (t : Fin 16) (d : BitVec 32)
  /-- [R374] A march ends, failing rows are repaired and results reported. -/
  | marchDone (t : Fin 16) (failing : List (Nat × Nat))
  /-- [R377] A write clears the cluster's bank request and wait counters. -/
  | cluBankClear (c : Fin 64) (d : BitVec 32)
  /-- [R378] A write clears the tower protection counters. -/
  | twrProtClear (t : Fin 16) (d : BitVec 32)
  /-- [R378] A write clears the tower master conflict counters. -/
  | twrConfClear (t : Fin 16) (d : BitVec 32)
  /-- [R378] A write clears the directory counters. -/
  | dirCountClear (m : Fin 8) (d : BitVec 32)
  /-- [R379] A granted channel access moves and decodes a whole stack page. The requests that have newly come to the channel enter their
  sources' queues; what the decode of the page meets is given as wrong symbols of its codeword (position, value XORed); and for how many
  NCLK cycles the requests have waited since the last access. -/
  | pageAccess (m : Fin 8) (ch : Fin 32) (arrivals : List PageReq) (errors : List (Nat × Nat)) (cycles t : Nat)
  /-- [R393] Hub firmware converts the next changed region to its new code strength. Pages whose reads meet wrong symbols are given with
  them, by stack and logical page index. -/
  | regionConvert (found : List (Fin 8 × Fin 33554432 × List (Nat × Nat)))
  /-- [R405] The stack patrol scrubber starts a pass over every page once per interval. -/
  | stackPatrolPass (m : Fin 8) (t : Nat)
  /-- [R424] A write clears the stack ECC counters. -/
  | mscEccClear (m : Fin 8) (d : BitVec 32)
  /-- [R424] A write clears the stack source counters. -/
  | mscSrcClear (m : Fin 8) (d : BitVec 32)
  /-- [R419] A far-memory read or write is served over CXL in issue order. -/
  | farAccess (fn : Fin 65) (by_ : Option (Fin 64)) (addr : Nat) (write : Option (List (BitVec 8) × Bool)) (poison fail : Bool)
  /-- [R420] A far read that times out after 50 µs is a bus error. -/
  | cxlCompletionTimeout (fn : Fin 65) (by_ : Option (Fin 64)) (addr : Nat)
  /-- [R422] A CXL port goes down; its far memory becomes bus errors until retrained. -/
  | cxlDown (p : Fin 2) (powerLost : List Nat)
  /-- [R418] An expander event record passes to the blotter. -/
  | cxlEvent (p : Fin 2) (expander : Fin 2) (kind : Nat)
  /-- [R425] A write clears the CXL port counters. -/
  | cxlCountClear (p : Fin 2) (d : BitVec 32)
  /-- [R451] A unit takes an arriving launch: starts, queues, rejects or fails it. -/
  | nmuLaunch (st : Fin 4) (u : Fin 256)
  /-- [R435] NMU word NOP. -/
  | nmuNop (st : Fin 4) (u : Fin 256) (e : NmuErr)
  /-- [R455] Ends the launch, releases banks and sends completion and results. -/
  | nmuEnd (st : Fin 4) (u : Fin 256) (e : NmuErr)
  /-- [R443] Releases banks for which a request waits. -/
  | nmuYield (st : Fin 4) (u : Fin 256) (e : NmuErr) (waitEven waitOdd : Bool)
  /-- [R435] Runs the following body an immediate or register count of times. -/
  | nmuLoop (st : Fin 4) (u : Fin 256) (e : NmuErr)
  /-- [R435] NMU scalar add immediate. -/
  | saddi (st : Fin 4) (u : Fin 256) (e : NmuErr)
  /-- [R435] NMU scalar add. -/
  | sadd (st : Fin 4) (u : Fin 256) (e : NmuErr)
  /-- [R435] NMU scalar shift left. -/
  | sshl (st : Fin 4) (u : Fin 256) (e : NmuErr)
  /-- [R440] Opens a page into a latch in the background. -/
  | nopen (st : Fin 4) (u : Fin 256) (e : NmuErr)
  /-- [R440] Makes a latch zeros for a page and marks it dirty. -/
  | nclr (st : Fin 4) (u : Fin 256) (e : NmuErr)
  /-- [R439] Writes a latch back to its page in the background. -/
  | nwb (st : Fin 4) (u : Fin 256) (e : NmuErr)
  /-- [R435] Loads a latch operand into a register. -/
  | nld (st : Fin 4) (u : Fin 256) (e : NmuErr)
  /-- [R435] Loads a granule of the input buffer as widened BF16. -/
  | nldi (st : Fin 4) (u : Fin 256) (e : NmuErr)
  /-- [R436] Stores a register into a latch in BF16 or FP32. -/
  | nst (st : Fin 4) (u : Fin 256) (e : NmuErr)
  /-- [R435] Writes a register to a result slot. -/
  | nres (st : Fin 4) (u : Fin 256) (e : NmuErr)
  /-- [R435] Writes one lane to a result register. -/
  | nress (st : Fin 4) (u : Fin 256) (e : NmuErr)
  /-- [R436] NMU lane add. -/
  | nmuVadd (st : Fin 4) (u : Fin 256) (e : NmuErr)
  /-- [R436] NMU lane subtract. -/
  | nmuVsub (st : Fin 4) (u : Fin 256) (e : NmuErr)
  /-- [R436] NMU lane multiply. -/
  | nmuVmul (st : Fin 4) (u : Fin 256) (e : NmuErr)
  /-- [R436] NMU lane fused multiply-add. -/
  | nmuVfma (st : Fin 4) (u : Fin 256) (e : NmuErr)
  /-- [R436] NMU lane maximum. -/
  | nmuVmax (st : Fin 4) (u : Fin 256) (e : NmuErr)
  /-- [R435] NMU scalar-times-vector fused add, skipping zero scalars. -/
  | vfmas (st : Fin 4) (u : Fin 256) (e : NmuErr)
  /-- [R435] NMU scalar-times-vector multiply. -/
  | vmuls (st : Fin 4) (u : Fin 256) (e : NmuErr)
  /-- [R435] NMU sets every lane to an immediate. -/
  | vimm (st : Fin 4) (u : Fin 256) (e : NmuErr)
  /-- [R435] NMU sets lanes at or above a count to an immediate. -/
  | vtail (st : Fin 4) (u : Fin 256) (e : NmuErr)
  /-- [R436] NMU sum tree over 32 lanes. -/
  | hsum (st : Fin 4) (u : Fin 256) (e : NmuErr)
  /-- [R436] NMU max tree over 32 lanes. -/
  | hmax (st : Fin 4) (u : Fin 256) (e : NmuErr)
  /-- [R436] NMU exponential of lane minus scalar. -/
  | hexp (st : Fin 4) (u : Fin 256) (e : NmuErr)
  /-- [R438] A background NOPEN or NWB finishes and frees its latch: what a page's decode meets, the DCLK cycles that a program at END has
  waited for it, and those for which it waited for tNAW. -/
  | nmuTransferDone (st : Fin 4) (u : Fin 256) (errors : List (Nat × Nat)) (cycles naw : Nat)
  /-- [R462] A write clears the stack's near-memory counters. -/
  | nmuStackClear (m : Fin 8) (d : BitVec 32)
  /-- [R462] A write clears one unit's counters. -/
  | nmuCountClear (m : Fin 8) (u : Fin 256) (d : BitVec 32)
  /-- [R492] The controller sends the next decode launch to a unit without a queued launch. -/
  | attLaunch (d : Fin 2) (waited : Nat)
  /-- [R455] The controller takes a unit's completion record and results. -/
  | nmuCompletion (st : Fin 4) (u : Fin 256)
  /-- [R482] The home walker places an append descriptor's rows into pages. -/
  | kvAppend (d : Fin 2)
  /-- [R469] A walker serves another walker's request to allocate, prepare or free a page of its die. -/
  | pageRequest (d : Fin 2)
  /-- [R486] Copies K, V or both of one head for a run of blocks. -/
  | kvFetch (d : Fin 2)
  /-- [R488] Runs decode attention over a sequence's pages on near-memory units. -/
  | kvDecode (d : Fin 2)
  /-- [R503] A request meeting a spilled entry waits while the sequence is filled back. -/
  | kvFill (d : Fin 2)
  /-- [R504] A write clears the attention controller counters. -/
  | attCountClear (d : Fin 2) (w : BitVec 32)
  /-- [R504] A write invalidates every look-aside entry. -/
  | attLabFlush (d : Fin 2) (w : BitVec 32)
  /-- [R575] A firing starts when its trigger's GEN reaches G0 + n + 1. -/
  | collectiveFire
  /-- [R553] An engine takes a COLL packet, ignoring duplicates. -/
  | collPacket (port : Fin 12)
  /-- [R578] A firing completes and arrives at its DONE hurdle. -/
  | collectiveComplete
  /-- [R589] A write clears the collective engine counters. -/
  | colCountClear (e : Fin 2) (d : BitVec 32)
  /-- [R549] A receiver checks a flit, accepts it in order or sets NAK. -/
  | flitReceive (port : Fin 12) (f : FlitIn) (t : Nat)
  /-- [R552] No good flit for 1 µs makes the port leave service. -/
  | portNoFlitTimeout (port : Fin 12) (t : Nat)
  /-- [R554] A training state meets its criteria and the port moves on. -/
  | portStateDone (port : Fin 12) (f : PortFindings)
  /-- [R554] A training state exceeds its limit and returns to EQUALIZE or FAILED. -/
  | portStateTimeout (port : Fin 12)
  /-- [R556] Each 1 s window checks lane and port bounds and retrains when broken. -/
  | berWindow (port : Fin 12)
  /-- [R554] An IDENT message is checked against the topology; a mismatch fails the port. -/
  | ident (port : Fin 12)
  /-- [R567] A TOPO message updates ROOT, DIST, the follower choice and pace master. -/
  | topo (port : Fin 12)
  /-- [R568] A follower request is granted or, on conflict, the higher coordinate is cancelled. -/
  | roleReq (port : Fin 12)
  /-- [R568] The device follows on the port that granted its request. -/
  | roleGrant (port : Fin 12)
  /-- [R568] A cancelled follower request is counted and recorded. -/
  | roleCancel (port : Fin 12)
  /-- [R582] A PEER_LOST message reports a departure and is passed on once. -/
  | peerLost (port : Fin 12)
  /-- [R564] A marker on the follower port steers the pace timer's phase and frequency. -/
  | tickMarker (port : Fin 12) (phase : Int)
  /-- [R570] Without markers the device holds over and after 16 ticks clears ALIGNED. -/
  | markerMissing
  /-- [R587] A write clears the port counters. -/
  | fjlCountClear (port : Fin 12) (d : BitVec 32)
  /-- [R588] A write clears FJS_LOST_COUNT. -/
  | fjsCountClear (d : BitVec 32)
  /-- [R607] Every 10 µs the cap loop updates bubbles and cap steps per tower. -/
  | controlWindow (w : PowerWindow)
  /-- [R595] A cluster starts a change of V/F step. -/
  | vfTransition (c : Fin 64)
  /-- [R591] A converter reports its output settled and the transition proceeds. -/
  | voltageSettled (n : Fin 96) (mv : Nat)
  /-- [R597] A droop crossing stretches the cluster's MCLK by suppressing every second edge. -/
  | droopCrossing (c : Fin 64)
  /-- [R598] After 64 good edge positions the stretch ends. -/
  | droopRelease (c : Fin 64) (positions : Nat)
  /-- [R601] Every 1 ms hub firmware reads the board regulators. -/
  | pmbusPoll (readings : List (Option (List Nat)))
  /-- [R602] Every 1 s hub firmware forms the PMBus gain. -/
  | pmbusGain (pmbus converters : Nat)
  /-- [R603] Every 1 s each converter quadrant's input resistance is estimated. -/
  | rinWindow (n : Fin 96) (estimates : List (Option Nat))
  /-- [R612] An asserted VR_ALERT_N forces every cluster to PF in hardware. -/
  | vrAlert (input : Fin 4) (asserted : Bool) (t : Nat)
  /-- [R612] 1 ms after the last input deasserts the forced PF ends. -/
  | vrAlertRelease (t : Nat)
  /-- [R615] A sensor converts on its timer and thresholds are evaluated. -/
  | sensorConversion (n : Fin 428) (reading : Int) (toggle : Bool)
  /-- [R616] A write starts a conversion of a named sensor, or is counted as overrun. -/
  | thmTrigger (d : BitVec 32)
  /-- [R622] Every 5 µs the trip comparators are sampled. -/
  | tripSample (hot : List Nat)
  /-- [R623] After cooling and 10 s the device restarts with a cold bring-up. -/
  | tripRestart (t : Nat)
  /-- [R625] Every 1 s the coolant sensors are read. -/
  | coolantPoll (readings : List (Option Nat))
  /-- [R626] Each hour the thermal resistance is formed and compared with its baseline. -/
  | rthHour (x : RthHour)
  /-- [R628] Each second a tower's thermal half-cycles are counted. -/
  | thermalCycleSecond (t : Fin 16) (x : Int)
  /-- [R626] A write starts a new R_th baseline. -/
  | thmRthReset (d : BitVec 32)
  /-- [R631] A write clears THM_OVERRUN. -/
  | thmCountClear (d : BitVec 32)
  /-- [R631] A write clears the supervisor counters. -/
  | pwrCountClear (d : BitVec 32)
  /-- [R632] A write clears the cluster power counters. -/
  | cluPwrClear (c : Fin 64) (d : BitVec 32)
  /-- [R636] The blotter accepts a report, merging or opening a record and signalling vectors. -/
  | blotterAccept
  /-- [R636] A record closes WINDOW_MS after opening and is copied and reported. -/
  | recordClose (t : Nat)
  /-- [R665] A write clears the blotter counters. -/
  | bltCountClear (d : BitVec 32)
  /-- [R648] At the next tick after a cause the device leaves, gates clusters and refuses commands. -/
  | outOfService
  /-- [R649] Writing 0x0000_5A5A restarts the watchdog count. -/
  | hubWdtKick (d : BitVec 32) (t : Nat)
  /-- [R650] The watchdog expires, the device leaves and the hub controller reboots. -/
  | watchdog (t : Nat)
  /-- [R654] The new image resumes from the handover record and replies to FW_SWITCH. -/
  | fwReady
  /-- [R656] Without FW_READY by S + 1 s the previous image is started again. -/
  | fwSwitchTimeout
  /-- [R661] Each hour of life clock the summary and TJ_HOURS are written. -/
  | lifeHour (tj : Int) (poweredSeconds joules : Nat)
  /-- [R659] Each 24 h of life clock LIFE_T and LIFE_C are computed. -/
  | lifeDay
  /-- [R667] VAUX becoming stable starts a cold bring-up. -/
  | coldBringup
  /-- [R667] A bring-up stage starts once the previous one has ended. -/
  | bringupStage (f : StageFindings)
  /-- [R672] The background scrub covers a far-memory piece and it becomes free. -/
  | farScrubDone (p : Fin 2) (piece : Nat)
  /-- [R690] In recovery the boot ROM verifies the buffer and writes it to slot A. -/
  | brgRecGo (d : BitVec 32)
  /-- [R693] Submits a life-cycle token, which is accepted or refused. -/
  | secLcCtrl (d : BitVec 32)
  /-- [R696] A filtered TAMPER_N assertion wipes secrets and may move the device to SUSPENDED. -/
  | tamper (asserted : Bool)
  /-- [R699] SPDM request answered with supported versions. -/
  | getVersion (body : List (BitVec 8))
  /-- [R699] SPDM request answered with capabilities. -/
  | getCapabilities (body : List (BitVec 8))
  /-- [R699] SPDM algorithm negotiation. -/
  | negotiateAlgorithms (body : List (BitVec 8))
  /-- [R699] SPDM request for certificate digests. -/
  | getDigests (body : List (BitVec 8))
  /-- [R699] SPDM request for the slot 0 certificate chain. -/
  | getCertificate (body : List (BitVec 8))
  /-- [R699] SPDM challenge signed by the device identity key. -/
  | challenge (body : List (BitVec 8))
  /-- [R700] SPDM request for measurement indices 1 to 8. -/
  | getMeasurements (body : List (BitVec 8))
  /-- [R698] An MCTP control message such as endpoint ID assignment. -/
  | mctpControl (body : List (BitVec 8))
  /-- [R702] PLDM request that sets the receiver of platform events. -/
  | setEventReceiver (receiver : Nat)
  /-- [R701] PLDM Type 2 request for a numeric or state sensor. -/
  | pldmSensorRead (sensor : Nat)
  /-- [R717] Low converter input for 10 µs switches off converters and drops VPKG_EN. -/
  | vpkgUndervoltage
  /-- [R717] 100 ms after an undervoltage VPKG_EN is reasserted and bring-up resumes. -/
  | vpkgRestart (t : Nat)
  /-- [R718] VAUX below 2.95 V switches off the converters and outputs. -/
  | vauxLoss
  /-- [R726] Every 1 µs a push-pull output is read back; three mismatches three-state it. -/
  | pinReadback (output : Fin 2) (level : Bool)
  /-- [R726] Writing an OFF field of PIN_STATUS drives or three-states an output. -/
  | pinOffWrite (d : BitVec 32)
  /-- [R735] A write clears PIN_MISMATCH_COUNT. -/
  | pinCountClear (d : BitVec 32)
  /-- [R739] Update-DR of DBG_TOKEN checks a debug token and refreshes the nonce. -/
  | dbgToken (token : List (BitVec 8))
  /-- [R737] Update of DBG_ACCESS starts one debug read or write. -/
  | dbgAccess (update : BitVec 96)
  /-- [R737] A debug access completes with its status. -/
  | dbgAccessDone
  /-- [R740] DBG_HUB HALT stops the hub controller while no system job is loaded. -/
  | dbgHalt
  /-- [R740] DBG_HUB RESUME restarts the hub controller and watchdog. -/
  | dbgResume
  /-- [R736] Boundary-scan EXTEST drives and captures the pins. -/
  | extest (chain : List Bool)
  /-- [R736] Boundary-scan SAMPLE/PRELOAD captures and preloads the scan chain. -/
  | samplePreload (chain : List Bool)
  /-- [R743] A write empties every trace buffer of the cluster. -/
  | cluTrcClear (c : Fin 64) (d : BitVec 32)
  /-- [R743] A write clears the cluster performance counters. -/
  | cluPerfClear (c : Fin 64) (d : BitVec 32)
  /-- [R80] A host or peer read or write through the BAR2 aperture of the AF or a VI reaches device memory, translated for a VI, or meets a bus error. -/
  | bar2Access (fn : Fin 65) (off : Nat) (size : Nat) (write : Option (List (BitVec 8)))
  /-- [R78] The host selects a new BAR2 size through the Resizable BAR or VF Resizable BAR capability. -/
  | resizableBarSelect (fn : Fin 65) (gib : Nat)
  /-- [R136] Setting VF Enable with NumVFs enables VFs whose VIs read CREATED = 0 and ignore doorbells until VI_CREATE. -/
  | vfEnableSet (numVfs : Fin 65)
  /-- [R422] A CXL port finishes link training and enters service, so its far memory is reachable again. -/
  | cxlLinkTrained (p : Fin 2) (flit256 : Bool) (speed width : Nat)
  /-- [R414] A DRAM bank's refresh comes due and holds the bank for up to 260 ns, or waits until the bank leaves NMU mode. -/
  | refresh (m : Fin 8) (ch : Fin 32) (bank : Fin 16) (t : Nat)
  /-- [R656] The boot ROM's verification of the staged image fails at step 4 of a switch and the previous image is started from the handover record. -/
  | verificationFail
  deriving DecidableEq, Repr

end Sys2Proof
end

