-- ==== Sys2Proof/Machine/Sparse.lean ====
section
/-!
DEFINITION. Sparse maps from numbers to values: lists of pairs in one canonical form, keys
strictly rising and no entry equal to what an unlisted key reads as.
-/
namespace Sys2Proof.Machine

/-- The entry listed for a key, if any. -/
def kvFind {α : Type} : List (Nat × α) → Nat → Option α
  | [], _ => none
  | (k', v) :: r, k => if k' = k then some v else kvFind r k

/-- What a key reads as: its entry, or the default of that key. -/
def kvGet {α : Type} (d : Nat → α) (m : List (Nat × α)) (k : Nat) : α :=
  (kvFind m k).getD (d k)

/-- List a value for a key, keeping the keys in rising order. -/
def kvInsert {α : Type} : List (Nat × α) → Nat → α → List (Nat × α)
  | [], k, v => [(k, v)]
  | (k', v') :: r, k, v =>
    if k < k' then (k, v) :: (k', v') :: r
    else if k = k' then (k, v) :: r
    else (k', v') :: kvInsert r k v

/-- Drop every entry of a key. -/
def kvErase {α : Type} (m : List (Nat × α)) (k : Nat) : List (Nat × α) :=
  m.filter (fun e => !(decide (e.1 = k)))

/-- Write a key: the default value takes the entry out, any other value is listed. -/
def kvPut {α : Type} [DecidableEq α] (d : Nat → α) (m : List (Nat × α)) (k : Nat) (v : α) :
    List (Nat × α) :=
  if v = d k then kvErase m k else kvInsert m k v

/-- Every key from `lo` up to, but not including, `hi` back to its default. -/
def kvClear {α : Type} (m : List (Nat × α)) (lo hi : Nat) : List (Nat × α) :=
  m.filter (fun e => !(decide (lo ≤ e.1) && decide (e.1 < hi)))

/-- Keep only the keys that a test accepts. -/
def kvKeep {α : Type} (m : List (Nat × α)) (p : Nat → Bool) : List (Nat × α) :=
  m.filter (fun e => p e.1)

/-- Keys strictly rising, each above the bound. -/
def kvAbove {α : Type} : Nat → List (Nat × α) → Bool
  | _, [] => true
  | b, (k, _) :: r => decide (b < k) && kvAbove k r

/-- Keys strictly rising. -/
def kvSorted {α : Type} : List (Nat × α) → Bool
  | [] => true
  | (k, _) :: r => kvAbove k r

/-- The canonical form: keys strictly rising, and no entry equal to its default. -/
def kvWf {α : Type} [DecidableEq α] (d : Nat → α) (m : List (Nat × α)) : Bool :=
  kvSorted m && m.all (fun e => !(decide (e.2 = d e.1)))

/-- Apply a function to what a key reads as. -/
def kvMod {α : Type} [DecidableEq α] (d : Nat → α) (m : List (Nat × α)) (k : Nat) (f : α → α) :
    List (Nat × α) :=
  kvPut d m k (f (kvGet d m k))

/-- Apply a function to every listed entry; an entry that becomes its default is taken out. -/
def kvMapAll {α : Type} [DecidableEq α] (d : Nat → α) (m : List (Nat × α)) (f : α → α) : List (Nat × α) :=
  (m.map (fun e => (e.1, f e.2))).filter (fun e => !(decide (e.2 = d e.1)))

/-- The element of a list at a place, with a default past the end. -/
def nth {α : Type} (d : α) (l : List α) (i : Nat) : α := (l[i]?).getD d

/-- A list with one element replaced (unchanged past the end). -/
def setNth {α : Type} (l : List α) (i : Nat) (v : α) : List α := l.set i v

/-- Repeat a step a number of times over 0, 1, …, n − 1. -/
def iter {σ : Type} : Nat → (Nat → σ → σ) → σ → σ
  | 0, _, x => x
  | n + 1, f, x => f n (iter n f x)

/-- The first number below `n` that a test accepts. -/
def firstBelow (n : Nat) (p : Nat → Bool) : Option Nat := (List.range n).find? p

end Sys2Proof.Machine
end

