-- ==== Sys2Proof/Machine/Bits.lean ====
section
/-!
DEFINITION. Bit fields, sign extension and byte order (R15: bit 0 is the least significant
bit, a field is written [msb:lsb], and multi-byte fields are little-endian).
-/
namespace Sys2Proof.Machine

/-- The field of `w` bits of a number that starts at bit `lo`. -/
def bits (x lo w : Nat) : Nat := (x >>> lo) % 2 ^ w

/-- One bit of a number. -/
def bit (x i : Nat) : Bool := x.testBit i

/-- A number with the field of `w` bits at `lo` replaced. -/
def setBits (x lo w v : Nat) : Nat :=
  x - bits x lo w * 2 ^ lo + (v % 2 ^ w) * 2 ^ lo

/-- A field of a register. -/
def fld (r : Word) (lo w : Nat) : Nat := bits r.toNat lo w

/-- A register with one field replaced. -/
def setFld (r : Word) (lo w v : Nat) : Word := BitVec.ofNat 32 (setBits r.toNat lo w v)

/-- 1 for true, 0 for false. -/
def b2n (b : Bool) : Nat := if b then 1 else 0

/-- Two's complement reading of the low `w` bits. -/
def sext (w x : Nat) : Int :=
  let y := x % 2 ^ w
  if 2 ^ (w - 1) ≤ y then (y : Int) - 2 ^ w else y

/-- The low `w` bits of an integer, in two's complement. -/
def wrapInt (w : Nat) (x : Int) : Nat := (x % (2 ^ w : Int)).toNat

/-- Little-endian number of a list of bytes (R15). -/
def leNat : List Byte → Nat
  | [] => 0
  | b :: r => b.toNat + 256 * leNat r

/-- The `n` little-endian bytes of a number (R15). -/
def leBytes : Nat → Nat → List Byte
  | 0, _ => []
  | n + 1, x => BitVec.ofNat 8 x :: leBytes n (x / 256)

/-- The little-endian field of `n` bytes at byte `off` of a record. -/
def field (l : List Byte) (off n : Nat) : Nat := leNat ((l.drop off).take n)

/-- A list of bytes cut or filled with zeros to `n` bytes. -/
def padTo (n : Nat) (l : List Byte) : List Byte :=
  l.take n ++ List.replicate (n - l.length) 0#8

/-- A record with the bytes from `off` on replaced. -/
def putBytes (l : List Byte) (off : Nat) (b : List Byte) : List Byte :=
  l.take off ++ b ++ l.drop (off + b.length)

/-- The `w`-bit reversal of a number (R26, R113). -/
def bitRev : Nat → Nat → Nat
  | 0, _ => 0
  | w + 1, x => (x % 2) * 2 ^ w + bitRev w (x / 2)

/-- Number of ones among the low `w` bits. -/
def popCount : Nat → Nat → Nat
  | 0, _ => 0
  | w + 1, x => x % 2 + popCount w (x / 2)

/-- Saturating addition on a 32-bit counter. -/
def sat32 (x n : Nat) : Nat := min (x + n) 0xFFFFFFFF

/-- Integer division rounded up. -/
def ceilDiv (a b : Nat) : Nat := (b - 1 + a) / b

/-- Cut a list into pieces of `n` elements, at most `k` of them. -/
def pieces {α : Type} : Nat → Nat → List α → List (List α)
  | 0, _, _ => []
  | k + 1, n, l => if l.isEmpty then [] else l.take n :: pieces k n (l.drop n)

end Sys2Proof.Machine
end

