-- ==== Sys2Proof/Machine/Float.lean ====
section
/-!
DEFINITION. The number formats of Table 6.4 and the exact arithmetic with one rounding of 6.5, 7.4 and 7.7: values are exact
dyadic numbers; a result is rounded once and judged for overflow under R268.
-/
namespace Sys2Proof.Machine

/-- A floating-point value: NaN, an infinity, or the exact number (−1)^neg × m × 2^e. -/
inductive FV where
  | nan
  | inf (neg : Bool)
  | fin (neg : Bool) (m : Nat) (e : Int)
  deriving DecidableEq, Repr

/-- A binary format: exponent and mantissa widths, bias, and what its top exponent holds (0 infinities
and NaNs, 1 one NaN and no infinity, 2 neither). -/
structure FFmt where
  eb : Nat
  mb : Nat
  bias : Nat
  top : Nat
  deriving DecidableEq, Repr

def fmtF32 : FFmt := { eb := 8, mb := 23, bias := 127, top := 0 }
def fmtBF16 : FFmt := { eb := 8, mb := 7, bias := 127, top := 0 }
def fmtF16 : FFmt := { eb := 5, mb := 10, bias := 15, top := 0 }
def fmtE4M3 : FFmt := { eb := 4, mb := 3, bias := 7, top := 1 }
def fmtE5M2 : FFmt := { eb := 5, mb := 2, bias := 15, top := 0 }
def fmtE2M3 : FFmt := { eb := 2, mb := 3, bias := 1, top := 2 }
def fmtE3M2 : FFmt := { eb := 3, mb := 2, bias := 3, top := 2 }
def fmtE2M1 : FFmt := { eb := 2, mb := 1, bias := 1, top := 2 }

/-- The exponent of a format's smallest step. -/
def FFmt.qmin (f : FFmt) : Int := 1 - (f.bias : Int) - f.mb

/-- The value of an encoding (R252). -/
def fpDec (f : FFmt) (x : Nat) : FV :=
  let neg := x.testBit (f.eb + f.mb)
  let ex := bits x f.mb f.eb
  let man := bits x 0 f.mb
  if f.top = 0 ∧ ex = 2 ^ f.eb - 1 then (if man = 0 then .inf neg else .nan)
  else if f.top = 1 ∧ ex = 2 ^ f.eb - 1 ∧ man = 2 ^ f.mb - 1 then .nan
  else if ex = 0 then .fin neg man f.qmin
  else .fin neg (man + 2 ^ f.mb) (f.qmin + ((ex : Int) - 1))

/-- Rounding modes: nearest even, toward zero, stochastic with 32 random bits (R302, R312). -/
inductive RMode where
  | rne
  | rtz
  | sr (u : Nat)
  deriving DecidableEq, Repr

/-- Round m × 2^(−d) to an integer by the mode. -/
def roundShift (r : RMode) (m d : Nat) : Nat :=
  let lo := m >>> d
  let rem := m - lo <<< d
  match r with
  | .rtz => lo
  | .rne => if 2 * rem > 2 ^ d ∨ (2 * rem = 2 ^ d ∧ lo % 2 = 1) then lo + 1 else lo
  | .sr u => if u < 2 ^ 32 * rem / 2 ^ d then lo + 1 else lo

/-- Round a magnitude to `mb` + 1 bits with steps no smaller than 2^qmin, exponent unbounded above: the number of steps
and the step's exponent. -/
def roundMag (r : RMode) (mb : Nat) (qmin : Int) (m : Nat) (e : Int) : Nat × Int :=
  let q := max (e + Nat.log2 m - mb) qmin
  let n := if q ≤ e then m <<< (e - q).toNat else roundShift r m (q - e).toNat
  if n = 2 ^ (mb + 1) then (2 ^ mb, q + 1) else (n, q)

/-- The largest finite encoding of a format, without sign. -/
def FFmt.maxEnc (f : FFmt) : Nat :=
  if f.top = 0 then (2 ^ f.eb - 1) * 2 ^ f.mb - 1
  else if f.top = 1 then 2 ^ (f.eb + f.mb) - 2
  else 2 ^ (f.eb + f.mb) - 1

/-- The NaN that a format writes (R268, R299); a format without NaN is never rounded to. -/
def FFmt.nanEnc (f : FFmt) : Nat :=
  if f.eb = 8 then (if f.mb = 23 then 0x7FC00000 else 0x7FC0)
  else if f.mb = 10 then 0x7E00 else if f.top = 1 then 0x7F else 0x7E

/-- The infinity of a format without sign; E4M3 gives its NaN (R268). -/
def FFmt.infEnc (f : FFmt) : Nat :=
  if f.top = 0 then (2 ^ f.eb - 1) * 2 ^ f.mb else f.nanEnc

/-- Round a value to a format (R260, R268). -/
def fpEnc (f : FFmt) (r : RMode) (sat : Bool) (v : FV) : Nat :=
  let sgn := fun (neg : Bool) (x : Nat) => if neg then x + 2 ^ (f.eb + f.mb) else x
  let infOf := fun (neg : Bool) => if f.top = 0 then sgn neg f.infEnc else f.nanEnc
  match v with
  | .nan => f.nanEnc
  | .inf neg => if sat then sgn neg f.maxEnc else infOf neg
  | .fin neg m e =>
    if m = 0 then sgn neg 0
    else
      let nq := roundMag r f.mb f.qmin m e
      let enc :=
        if nq.1 < 2 ^ f.mb then nq.1
        else nq.1 - 2 ^ f.mb + (nq.2 - f.qmin + 1).toNat * 2 ^ f.mb
      if enc ≤ f.maxEnc then sgn neg enc
      else if sat || decide (r = .rtz) then sgn neg f.maxEnc
      else infOf neg

def dec32 (x : Nat) : FV := fpDec fmtF32 x
def enc32 (v : FV) : Nat := fpEnc fmtF32 .rne false v

/-- The signed mantissa of a finite value at an exponent not above its own. -/
def fvAt (neg : Bool) (m : Nat) (e e0 : Int) : Int :=
  let x : Int := (m <<< (e - e0).toNat : Nat)
  if neg then -x else x

/-- Exact sum (R261: opposite zeros and exact cancellation give +0, −0 plus −0 is −0, opposite infinities NaN). -/
def fvAdd : FV → FV → FV
  | .nan, _ => .nan
  | _, .nan => .nan
  | .inf a, .inf b => if a = b then .inf a else .nan
  | .inf a, .fin _ _ _ => .inf a
  | .fin _ _ _, .inf b => .inf b
  | .fin n1 m1 e1, .fin n2 m2 e2 =>
    let e := min e1 e2
    let x := fvAt n1 m1 e1 e + fvAt n2 m2 e2 e
    if x = 0 then .fin (n1 && n2 && decide (m1 = 0)) 0 e else .fin (decide (x < 0)) x.natAbs e

/-- Exact product (R259). -/
def fvMul : FV → FV → FV
  | .nan, _ => .nan
  | _, .nan => .nan
  | .inf a, .inf b => .inf (a != b)
  | .inf a, .fin n m _ => if m = 0 then .nan else .inf (a != n)
  | .fin n m _, .inf b => if m = 0 then .nan else .inf (n != b)
  | .fin n1 m1 e1, .fin n2 m2 e2 => .fin (n1 != n2) (m1 * m2) (e1 + e2)

/-- Change of sign; a NaN stays. -/
def fvNeg : FV → FV
  | .nan => .nan
  | .inf a => .inf (!a)
  | .fin n m e => .fin (!n) m e

/-- Magnitude. -/
def fvAbs : FV → FV
  | .nan => .nan
  | .inf _ => .inf false
  | .fin _ m e => .fin false m e

/-- Value times 2^k. -/
def fvScale (v : FV) (k : Int) : FV :=
  match v with
  | .fin n m e => .fin n m (e + k)
  | x => x

/-- Strictly less, for values that are no NaN; −0 equals +0. -/
def fvLt : FV → FV → Bool
  | .nan, _ => false
  | _, .nan => false
  | .inf a, .inf b => a && !b
  | .inf a, .fin _ _ _ => a
  | .fin _ _ _, .inf b => !b
  | .fin n1 m1 e1, .fin n2 m2 e2 =>
    let e := min e1 e2
    decide (fvAt n1 m1 e1 e < fvAt n2 m2 e2 e)

def fvIsNan : FV → Bool
  | .nan => true
  | _ => false
def fvIsZero : FV → Bool
  | .fin _ m _ => decide (m = 0)
  | _ => false
def fvNegative : FV → Bool
  | .nan => false
  | .inf a => a
  | .fin n _ _ => n
def fvFinite : FV → Bool
  | .fin _ _ _ => true
  | _ => false

/-- Maximum and minimum of R300. -/
def fvMax (a b : FV) : FV :=
  if fvIsNan a || fvIsNan b then .nan
  else if fvIsZero a && fvIsZero b then .fin (fvNegative a && fvNegative b) 0 0
  else if fvLt a b then b else a
def fvMin (a b : FV) : FV :=
  if fvIsNan a || fvIsNan b then .nan
  else if fvIsZero a && fvIsZero b then .fin (fvNegative a || fvNegative b) 0 0
  else if fvLt b a then b else a

/-- The integer value of a number, for a finite value, by the rounding mode. -/
def fvToInt (r : RMode) : FV → Int
  | .fin n m e =>
    let x : Nat := if 0 ≤ e then m <<< e.toNat else roundShift r m (-e).toNat
    if n then -(x : Int) else x
  | _ => 0

/-- The exact value of an integer; zero is +0. -/
def fvOfInt (x : Int) : FV := .fin (decide (x < 0)) x.natAbs 0

/-! ### binary32 operations on encodings (R260, R261) -/

def f32add (x y : Nat) : Nat := enc32 (fvAdd (dec32 x) (dec32 y))
def f32sub (x y : Nat) : Nat := enc32 (fvAdd (dec32 x) (fvNeg (dec32 y)))
def f32mul (x y : Nat) : Nat := enc32 (fvMul (dec32 x) (dec32 y))
def f32fma (x y z : Nat) : Nat := enc32 (fvAdd (fvMul (dec32 x) (dec32 y)) (dec32 z))
/-- scale(y, e) of R307. -/
def f32scale (y : Nat) (e : Int) : Nat := enc32 (fvScale (dec32 y) e)
/-- An encoding with its sign bit replaced. -/
def f32sign (neg : Bool) (x : Nat) : Nat := x % 2 ^ 31 + (if neg then 2 ^ 31 else 0)
def f32nan : Nat := 0x7FC00000

/-- Split a positive finite value exactly as m × 2^e with 1 ≤ m < 2: m as binary32, and e. -/
def f32split (x : Nat) : Nat × Int :=
  match dec32 x with
  | .fin _ m e =>
    let k := Nat.log2 m
    (enc32 (.fin false m (-(k : Int))), e + k)
  | _ => (0, 0)

/-- The fraction (m − 1) × 2^n rounded down, for a binary32 m with 1 ≤ m < 2. -/
def f32frac (m n : Nat) : Nat := (m % 2 ^ 23) >>> (23 - n)

/-- Entries 0 to 31 of T_EXP, 2^(j/64). -/
def tExpPart0 : List Nat :=
  [ 0x3F800000, 0x3F8164D2, 0x3F82CD87, 0x3F843A29, 0x3F85AAC3, 0x3F871F62, 0x3F88980F, 0x3F8A14D5,
    0x3F8B95C2, 0x3F8D1ADF, 0x3F8EA43A, 0x3F9031DC, 0x3F91C3D3, 0x3F935A2B, 0x3F94F4F0, 0x3F96942D,
    0x3F9837F0, 0x3F99E046, 0x3F9B8D3A, 0x3F9D3EDA, 0x3F9EF532, 0x3FA0B051, 0x3FA27043, 0x3FA43516,
    0x3FA5FED7, 0x3FA7CD94, 0x3FA9A15B, 0x3FAB7A3A, 0x3FAD583F, 0x3FAF3B79, 0x3FB123F6, 0x3FB311C4 ]
/-- Entries 32 to 63 of T_EXP, 2^(j/64). -/
def tExpPart1 : List Nat :=
  [ 0x3FB504F3, 0x3FB6FD92, 0x3FB8FBAF, 0x3FBAFF5B, 0x3FBD08A4, 0x3FBF179A, 0x3FC12C4D, 0x3FC346CD,
    0x3FC5672A, 0x3FC78D75, 0x3FC9B9BE, 0x3FCBEC15, 0x3FCE248C, 0x3FD06334, 0x3FD2A81E, 0x3FD4F35B,
    0x3FD744FD, 0x3FD99D16, 0x3FDBFBB8, 0x3FDE60F5, 0x3FE0CCDF, 0x3FE33F89, 0x3FE5B907, 0x3FE8396A,
    0x3FEAC0C7, 0x3FED4F30, 0x3FEFE4BA, 0x3FF28177, 0x3FF5257D, 0x3FF7D0DF, 0x3FFA83B3, 0x3FFD3E0C ]
/-- T_EXP, 2^(j/64) (R308). -/
def tExp : List Nat := tExpPart0 ++ tExpPart1
/-- Entries 0 to 31 of T_LOG, ln(1 + j/64). -/
def tLogPart0 : List Nat :=
  [ 0x00000000, 0x3C7E0546, 0x3CFC14D8, 0x3D3BA2C8, 0x3D785186, 0x3D9A0EBD, 0x3DB78694, 0x3DD4936A,
    0x3DF1383B, 0x3E06BBF4, 0x3E14AA98, 0x3E22695B, 0x3E2FF984, 0x3E3D5C48, 0x3E4A92D5, 0x3E579E4A,
    0x3E647FBE, 0x3E71383B, 0x3E7DC8C3, 0x3E851927, 0x3E8B3AE5, 0x3E914A10, 0x3E974716, 0x3E9D3263,
    0x3EA30C5E, 0x3EA8D56C, 0x3EAE8DEE, 0x3EB43641, 0x3EB9CEC0, 0x3EBF57C2, 0x3EC4D19C, 0x3ECA3CA1 ]
/-- Entries 32 to 63 of T_LOG, ln(1 + j/64). -/
def tLogPart1 : List Nat :=
  [ 0x3ECF991F, 0x3ED4E765, 0x3EDA27BC, 0x3EDF5A6D, 0x3EE47FBE, 0x3EE997F4, 0x3EEEA350, 0x3EF3A213,
    0x3EF8947B, 0x3EFD7AC4, 0x3F012A95, 0x3F0391F3, 0x3F05F397, 0x3F084F9D, 0x3F0AA61F, 0x3F0CF736,
    0x3F0F42FB, 0x3F118987, 0x3F13CAF1, 0x3F16074F, 0x3F183EBA, 0x3F1A7145, 0x3F1C9F07, 0x3F1EC813,
    0x3F20EC7F, 0x3F230C5E, 0x3F2527C3, 0x3F273EC1, 0x3F295169, 0x3F2B5FCF, 0x3F2D6A02, 0x3F2F7015 ]
/-- T_LOG, ln(1 + j/64) (R308). -/
def tLog : List Nat := tLogPart0 ++ tLogPart1
/-- Entries 0 to 31 of T_LR, 1 / (1 + j/64). -/
def tLrPart0 : List Nat :=
  [ 0x3F800000, 0x3F7C0FC1, 0x3F783E10, 0x3F74898D, 0x3F70F0F1, 0x3F6D7304, 0x3F6A0EA1, 0x3F66C2B4,
    0x3F638E39, 0x3F607038, 0x3F5D67C9, 0x3F5A740E, 0x3F579436, 0x3F54C77B, 0x3F520D21, 0x3F4F6475,
    0x3F4CCCCD, 0x3F4A4588, 0x3F47CE0C, 0x3F4565C8, 0x3F430C31, 0x3F40C0C1, 0x3F3E82FA, 0x3F3C5264,
    0x3F3A2E8C, 0x3F381703, 0x3F360B61, 0x3F340B41, 0x3F321643, 0x3F302C0B, 0x3F2E4C41, 0x3F2C7692 ]
/-- Entries 32 to 63 of T_LR, 1 / (1 + j/64). -/
def tLrPart1 : List Nat :=
  [ 0x3F2AAAAB, 0x3F28E83F, 0x3F272F05, 0x3F257EB5, 0x3F23D70A, 0x3F2237C3, 0x3F20A0A1, 0x3F1F1166,
    0x3F1D89D9, 0x3F1C09C1, 0x3F1A90E8, 0x3F191F1A, 0x3F17B426, 0x3F164FDA, 0x3F14F209, 0x3F139A86,
    0x3F124925, 0x3F10FDBC, 0x3F0FB824, 0x3F0E7835, 0x3F0D3DCB, 0x3F0C08C1, 0x3F0AD8F3, 0x3F09AE41,
    0x3F088889, 0x3F0767AB, 0x3F064B8A, 0x3F053408, 0x3F042108, 0x3F03126F, 0x3F020821, 0x3F010204 ]
/-- T_LR, 1 / (1 + j/64) (R308). -/
def tLr : List Nat := tLrPart0 ++ tLrPart1
/-- Entries 0 to 31 of T_RCP, 1 / (1 + j/64 + 1/128). -/
def tRcpPart0 : List Nat :=
  [ 0x3F7E03F8, 0x3F7A232D, 0x3F76603E, 0x3F72B9D6, 0x3F6F2EB7, 0x3F6BBDB3, 0x3F6865AC, 0x3F652598,
    0x3F61FC78, 0x3F5EE95C, 0x3F5BEB62, 0x3F5901B2, 0x3F562B81, 0x3F53680D, 0x3F50B6A0, 0x3F4E168A,
    0x3F4B8728, 0x3F4907DA, 0x3F46980C, 0x3F443730, 0x3F41E4BC, 0x3F3FA030, 0x3F3D6910, 0x3F3B3EE7,
    0x3F392144, 0x3F370FBB, 0x3F3509E7, 0x3F330F63, 0x3F311FD4, 0x3F2F3ADE, 0x3F2D602B, 0x3F2B8F6A ]
/-- Entries 32 to 63 of T_RCP, 1 / (1 + j/64 + 1/128). -/
def tRcpPart1 : List Nat :=
  [ 0x3F29C84A, 0x3F280A81, 0x3F2655C4, 0x3F24A9CF, 0x3F23065E, 0x3F216B31, 0x3F1FD80A, 0x3F1E4CAD,
    0x3F1CC8E1, 0x3F1B4C70, 0x3F19D723, 0x3F1868C8, 0x3F17012E, 0x3F15A025, 0x3F144581, 0x3F12F114,
    0x3F11A2B4, 0x3F105A38, 0x3F0F177A, 0x3F0DDA52, 0x3F0CA29C, 0x3F0B7034, 0x3F0A42F8, 0x3F091AC7,
    0x3F07F781, 0x3F06D905, 0x3F05BF37, 0x3F04A9FA, 0x3F039930, 0x3F028CC0, 0x3F01848E, 0x3F008081 ]
/-- T_RCP, 1 / (1 + j/64 + 1/128) (R308). -/
def tRcp : List Nat := tRcpPart0 ++ tRcpPart1
/-- Entries 0 to 31 of T_RSQ, 1 / sqrt(1 + j/64 + 1/128), then 1 / sqrt(2 + (j - 64)/32 + 1/64). -/
def tRsqPart0 : List Nat :=
  [ 0x3F7F017E, 0x3F7D0D3E, 0x3F7B2452, 0x3F79464E, 0x3F7772CB, 0x3F75A969, 0x3F73E9CB, 0x3F723399,
    0x3F708681, 0x3F6EE232, 0x3F6D4660, 0x3F6BB2C5, 0x3F6A271A, 0x3F68A31D, 0x3F672691, 0x3F65B139,
    0x3F6442DB, 0x3F62DB41, 0x3F617A36, 0x3F601F87, 0x3F5ECB04, 0x3F5D7C7F, 0x3F5C33CC, 0x3F5AF0BF,
    0x3F59B330, 0x3F587AF7, 0x3F5747EE, 0x3F5619F2, 0x3F54F0DF, 0x3F53CC93, 0x3F52ACEE, 0x3F5191D1 ]
/-- Entries 32 to 63 of T_RSQ, 1 / sqrt(1 + j/64 + 1/128), then 1 / sqrt(2 + (j - 64)/32 + 1/64). -/
def tRsqPart1 : List Nat :=
  [ 0x3F507B1D, 0x3F4F68B6, 0x3F4E5A7F, 0x3F4D505E, 0x3F4C4A38, 0x3F4B47F4, 0x3F4A497A, 0x3F494EB3,
    0x3F485787, 0x3F4763E2, 0x3F4673AC, 0x3F4586D3, 0x3F449D42, 0x3F43B6E6, 0x3F42D3AD, 0x3F41F383,
    0x3F411659, 0x3F403C1C, 0x3F3F64BD, 0x3F3E902C, 0x3F3DBE58, 0x3F3CEF34, 0x3F3C22B1, 0x3F3B58C0,
    0x3F3A9154, 0x3F39CC60, 0x3F3909D6, 0x3F3849AA, 0x3F378BD0, 0x3F36D03D, 0x3F3616E4, 0x3F355FBA ]
/-- Entries 64 to 95 of T_RSQ, 1 / sqrt(1 + j/64 + 1/128), then 1 / sqrt(2 + (j - 64)/32 + 1/64). -/
def tRsqPart2 : List Nat :=
  [ 0x3F3450FC, 0x3F32EF41, 0x3F319589, 0x3F304387, 0x3F2EF8F2, 0x3F2DB587, 0x3F2C7904, 0x3F2B432A,
    0x3F2A13C0, 0x3F28EA8C, 0x3F27C759, 0x3F26A9F4, 0x3F25922C, 0x3F247FD3, 0x3F2372BD, 0x3F226ABE,
    0x3F2167AF, 0x3F206968, 0x3F1F6FC4, 0x3F1E7AA0, 0x3F1D89D9, 0x3F1C9D4E, 0x3F1BB4E1, 0x3F1AD073,
    0x3F19EFE6, 0x3F191320, 0x3F183A05, 0x3F17647C, 0x3F16926C, 0x3F15C3BC, 0x3F14F857, 0x3F143026 ]
/-- Entries 96 to 127 of T_RSQ, 1 / sqrt(1 + j/64 + 1/128), then 1 / sqrt(2 + (j - 64)/32 + 1/64). -/
def tRsqPart3 : List Nat :=
  [ 0x3F136B13, 0x3F12A90B, 0x3F11E9F9, 0x3F112DCA, 0x3F10746D, 0x3F0FBDCE, 0x3F0F09DD, 0x3F0E5889,
    0x3F0DA9C2, 0x3F0CFD79, 0x3F0C539F, 0x3F0BAC25, 0x3F0B06FD, 0x3F0A641A, 0x3F09C36D, 0x3F0924EC,
    0x3F088889, 0x3F07EE37, 0x3F0755ED, 0x3F06BF9E, 0x3F062B40, 0x3F0598C7, 0x3F05082A, 0x3F04795F,
    0x3F03EC5C, 0x3F036117, 0x3F02D788, 0x3F024FA6, 0x3F01C967, 0x3F0144C4, 0x3F00C1B4, 0x3F004030 ]
/-- T_RSQ, 1 / sqrt(1 + j/64 + 1/128), then 1 / sqrt(2 + (j - 64)/32 + 1/64) (R308). -/
def tRsq : List Nat := tRsqPart0 ++ tRsqPart1 ++ tRsqPart2 ++ tRsqPart3

/-- vexp of R307. -/
def vexp (x : Nat) : Nat :=
  let v := dec32 x
  if fvIsNan v then f32nan
  else if fvLt (dec32 0x42B17217) v then 0x7F800000
  else if fvLt v (dec32 0xC2CFF1B5) then 0
  else
    let n := fvToInt .rne (dec32 (f32mul x 0x42B8AA3B))
    let j := (n % 64).toNat
    let e := (n - j) / 64
    let nf := enc32 (fvOfInt n)
    let r := f32sub (f32sub x (f32mul nf 0x3C317200)) (f32mul nf 0x32BFBE8E)
    let q := f32add (f32mul r 0x3D2AAAAB) 0x3E2AAAAB
    let q := f32add (f32mul q r) 0x3F000000
    let q := f32add (f32mul q r) 0x3F800000
    let q := f32mul q r
    let t := nth 0 tExp j
    f32scale (f32add t (f32mul t q)) e

/-- vlog of R307. -/
def vlog (x : Nat) : Nat :=
  let v := dec32 x
  if fvIsNan v then f32nan
  else if fvIsZero v then 0xFF800000
  else if fvNegative v then f32nan
  else if v = .inf false then 0x7F800000
  else
    let me := f32split x
    let j := f32frac me.1 6
    let r := f32mul (f32sub me.1 (enc32 (.fin false (64 + j) (-6)))) (nth 0 tLr j)
    let q := f32add (f32mul r 0xBE800000) 0x3EAAAAAB
    let q := f32add (f32mul q r) 0xBF000000
    let q := f32add (f32mul q r) 0x3F800000
    let q := f32mul q r
    let ef := enc32 (fvOfInt me.2)
    f32add (f32add (f32mul ef 0x3F317200) (nth 0 tLog j)) (f32add (f32mul ef 0x35BFBE8E) q)

/-- vrcp of R307. -/
def vrcp (x : Nat) : Nat :=
  let v := dec32 x
  if fvIsNan v then f32nan
  else if fvIsZero v then f32sign (fvNegative v) 0x7F800000
  else if !fvFinite v then f32sign (fvNegative v) 0
  else
    let me := f32split (f32sign false x)
    let st := fun y => f32mul y (f32sub 0x40000000 (f32mul me.1 y))
    let y := st (st (nth 0 tRcp (f32frac me.1 6)))
    f32sign (fvNegative v) (f32scale y (-me.2))

/-- vrsq of R307. -/
def vrsq (x : Nat) : Nat :=
  let v := dec32 x
  if fvIsNan v then f32nan
  else if fvIsZero v then f32sign (fvNegative v) 0x7F800000
  else if fvNegative v then f32nan
  else if v = .inf false then 0
  else
    let me := f32split x
    let odd := decide (me.2 % 2 = 1)
    let k := me.2 / 2
    let m := if odd then f32scale me.1 1 else me.1
    let j := if odd then 64 + f32frac me.1 6 else f32frac me.1 6
    let st := fun y =>
      let t := f32mul (f32mul y y) m
      f32mul y (f32sub 0x3FC00000 (f32mul t 0x3F000000))
    f32scale (st (st (nth 0 tRsq j))) (-k)

/-- vtanh of R307. -/
def vtanh (x : Nat) : Nat :=
  let v := dec32 x
  if fvIsNan v then f32nan
  else
    let a := f32sign false x
    let y :=
      if !fvLt (dec32 a) (dec32 0x41100000) then 0x3F800000
      else if fvLt (dec32 a) (dec32 0x3D800000) then
        let sq := f32mul a a
        let q := f32mul (f32add (f32mul sq 0x3E088889) 0xBEAAAAAB) sq
        f32add a (f32mul a q)
      else
        let u := vrcp (f32add (vexp (f32add a a)) 0x3F800000)
        f32sub 0x3F800000 (f32add u u)
    f32sign (fvNegative v) y

/-! ### RGEN (R309) -/

/-- One round of RGEN on the pair of state and running key. -/
def rgenRound (x : BitVec 64 × BitVec 64) : BitVec 64 × BitVec 64 :=
  let k := x.2 + 0x9E3779B97F4A7C15#64
  let a := (x.1 ^^^ k) * 0xA7F35C2B9E61D48F#64
  let a := a ^^^ (a >>> 29)
  (a.rotateLeft 27, k)

/-- rgen(key, ctr). -/
def rgen (key ctr : BitVec 64) : BitVec 64 :=
  let r := iter 8 (fun _ x => rgenRound x) (ctr, key)
  r.1 ^^^ (r.1 >>> 32)

/-! ### Elements of Table 6.4 -/

/-- Bits of an element in memory (R253). -/
def elemBits (f : Nat) : Nat :=
  if f = 3 ∨ f = 10 then 4 else if f = 4 ∨ f = 5 then 16 else 8
/-- Does a format carry E8M0 scales? -/
def scaled (f : Nat) : Bool := decide (6 ≤ f ∧ f ≤ 11)
/-- Is a format code defined? -/
def fmtDefined (f : Nat) : Bool := decide (f < 12)
/-- Is a format an integer format of the INT class? -/
def isIntFmt (f : Nat) : Bool := decide (f = 2 ∨ f = 3)

/-- The exact value of an element. -/
def elemVal (f x : Nat) : FV :=
  match f with
  | 0 | 6 => fpDec fmtE4M3 (x % 256)
  | 1 | 7 => fpDec fmtE5M2 (x % 256)
  | 2 => fvOfInt (sext 8 x)
  | 3 => fvOfInt (sext 4 x)
  | 4 => fpDec fmtBF16 (x % 65536)
  | 5 => fpDec fmtF16 (x % 65536)
  | 8 => fpDec fmtE2M3 (x % 64)
  | 9 => fpDec fmtE3M2 (x % 64)
  | 10 => fpDec fmtE2M1 (x % 16)
  | 11 => fvScale (fvOfInt (sext 8 x)) (-6)
  | _ => .nan

/-- The integer value of an INT8 or INT4 element. -/
def elemInt (f x : Nat) : Int := if f = 3 then sext 4 x else sext 8 x

/-- The value of an E8M0 scale byte. -/
def scaleVal (v : Nat) : FV := if v = 255 then .nan else .fin false 1 ((v : Int) - 127)

end Sys2Proof.Machine
end

