-- ==== Sys2Proof/Config.lean ====
section
/-!
DEFINITION. What one device fixes and the spec leaves open: constants without a body. Nothing can evaluate
them, so a statement holds whatever they are.
-/
namespace Sys2Proof.Config

/-- The bytes that a read of a blotted granule returns (R232): a fresh value for each read and address. -/
opaque freeByte : Nat → Nat → BitVec 8
/-- A fresh word of the security block's random draws (R694): by draw count and word. -/
opaque nonceWord : Nat → Nat → BitVec 32
/-- The device serial (fused, Table 15.8). -/
opaque serial : BitVec 64
/-- The two Nelmisen firmware signing keys of the boot ROM (16.5), x and y. -/
opaque signingKey : Nat → Nat × Nat
/-- The signature and certificate bytes of an SPDM answer (R699), by draw and byte. -/
opaque spdmByte : Nat → Nat → BitVec 8
/-- The certificate chain of SPDM slot 0 (Table 16.11): the device's own. -/
opaque certChain : List (BitVec 8)
/-- The SHA-384 of the boot ROM (R700). -/
opaque bootRomHash : BitVec 384
/-- Bits 64 to 127 of the mask that a 32-bit VCMP writes, which the spec does not state: by bits 0 to 63. -/
opaque maskHigh : Nat → BitVec 64
/-- Element k of a result slot that a near-memory program did not write, which the spec does not state: by the slots that it wrote. -/
opaque slotFill : List Nat → Nat → BitVec 32
/-- The set of a stack cache that holds a line (R360), by the tower's scratch pieces and the line; and that of a directory (R369). -/
opaque cacheSet : Nat → Nat → Nat
opaque dirSet : Nat → Nat
/-- A result that the spec does not state for the operands: by draw. -/
opaque freeValue : Nat → BitVec 64

end Sys2Proof.Config
end

