-- ==== Sys2Proof/Machine/Regs.lean ====
section
/-!
DEFINITION. The register window of 2.3: the blocks of Table 2.2, and for every register of the
spec's register maps its place, reset value and access codes (Table 2.4).
-/
namespace Sys2Proof.Machine

/-! Base offsets of the blocks of Table 2.2. -/
def hubBlk : Nat := 0x00000000
def scribeBlk : Nat := 0x00010000
def bltBlk : Nat := 0x00020000
def pwrBlk : Nat := 0x00030000
def secBlk : Nat := 0x00040000
def fuseBlk : Nat := 0x00050000
def pcieBlk : Nat := 0x00060000
def cxlBlk (p : Nat) : Nat := 0x00080000 + 0x00010000 * p
def rtBlk : Nat := 0x000A0000
/-- The register page of a function: the Scribe block for the AF (R173). -/
def viPage (f : Nat) : Nat := if f = 0 then scribeBlk else 0x00100000 + 0x00010000 * (f - 1)
def hdlBlk : Nat := 0x01000000
def floorBlk (d : Nat) : Nat := 0x10000000 + 0x08000000 * d
def attBlk (d : Nat) : Nat := 0x10100000 + 0x08000000 * d
def colBlk (d : Nat) : Nat := 0x10200000 + 0x08000000 * d
def twrBlk (t : Nat) : Nat := 0x40000000 + 0x01000000 * t
def mscBlk (m : Nat) : Nat := 0x60000000 + 0x01000000 * m
def fjlBlk (l : Nat) : Nat := 0x70000000 + 0x00100000 * l
def cluBlk (c : Nat) : Nat := 0x80000000 + 0x00100000 * c
/-- Sub-blocks of a cluster block (R63), by physical core number. -/
def mcBlk (c n : Nat) : Nat := cluBlk c + 0x10000 + 0x1000 * n
def vcBlk (c n : Nat) : Nat := cluBlk c + 0x30000 + 0x1000 * n
def scBlk (c n : Nat) : Nat := cluBlk c + 0x40000 + 0x1000 * n
def vfBlk (c : Nat) : Nat := cluBlk c + 0x50000

/-- One register, or a run of like registers, of the spec's maps: the copies of its block,
its place in the block, its reset value, and which of its bits carry each access code. Bits
under no mask are read-only or reserved. -/
structure RegRow where
  base : Nat
  stride : Nat := 0
  inst : Nat := 1
  off : Nat
  step : Nat := 4
  cnt : Nat := 1
  reset : Nat := 0
  rw : Nat := 0
  rwl : Nat := 0
  rws : Nat := 0
  w1c : Nat := 0
  w1s : Nat := 0
  deriving DecidableEq, Repr

/-- Does a row hold this window offset? -/
def RegRow.hit (r : RegRow) (o : Nat) : Bool :=
  if o < r.base then false
  else
    let i := if r.stride = 0 then 0 else (o - r.base) / r.stride
    let q := o - r.base - i * r.stride
    decide (i < r.inst) && decide (r.off ≤ q) && decide ((q - r.off) % r.step = 0) &&
      decide ((q - r.off) / r.step < r.cnt)

/-- BLK_LOCK (Table 2.5). -/
def lockRow (base : Nat) (stride : Nat := 0) (inst : Nat := 1) : RegRow :=
  { base := base, stride := stride, inst := inst, off := 0xFFC, w1c := 2, w1s := 1 }

/-- Hub general block: Tables 1.9, 2.3, 2.7, 2.9, 3.1 to 3.6, 9.9, 9.10, 13.12, 15.12, 15.13,
17.11 and 17.12. -/
def hubRows : List RegRow :=
  [ { base := 0, off := 0x0010, rw := 0xFE000000 },
    { base := 0, off := 0x0018, rw := 0xC0000000 },
    { base := 0, off := 0x001C, rw := 0x0000FFFF },
    { base := 0, off := 0x0200, cnt := 5 },
    { base := 0, off := 0x0214, cnt := 3 },
    { base := 0, off := 0x0300, cnt := 6, rwl := 0xFFFFFFFF },
    { base := 0, off := 0x0400, reset := 0x00040000, rwl := 0x00FF0005 },
    { base := 0, off := 0x0404, reset := 0x32, rwl := 0x7FF },
    { base := 0, off := 0x0408, reset := 0x00040014, rwl := 0x003FFFFF },
    { base := 0, off := 0x040C, w1c := 0x02000000 },
    { base := 0, off := 0x0418, reset := 0xFFFFFFFF },
    { base := 0, off := 0x0434, reset := 0x7FFFFFFF },
    { base := 0, off := 0x0500, cnt := 28, rwl := 0xFFFFFFFF },
    { base := 0, off := 0x0600, rwl := 0xC003FFFF },
    { base := 0, off := 0x0604, rwl := 0x0003FFFF },
    { base := 0, off := 0x0608, reset := 0x3C000000 },
    { base := 0, off := 0x0708, reset := 0x40000000 },
    { base := 0, off := 0x0800, rws := 0x3 },
    lockRow 0 ]

/-- Scribe block and VI register pages: Tables 4.13 and 4.14, and the MSI-X vector control words
(masked at reset, the PCIe MSI-X rule that R172 names). -/
def viRows : List RegRow :=
  [ { base := scribeBlk, off := 0x000, reset := 0xC0000000, w1c := 0x02000000 },
    { base := 0x00100000, stride := 0x10000, inst := 64, off := 0x000, w1c := 0x02000000 },
    { base := scribeBlk, off := 0x024, reset := 0x7FFFFFFF },
    { base := 0x00100000, stride := 0x10000, inst := 64, off := 0x024, reset := 0x7FFFFFFF },
    { base := scribeBlk, off := 0x080, cnt := 4, rw := 0xFFFFFFFF },
    { base := scribeBlk, off := 0x090, rw := 0xFFC07FFF },
    { base := 0x00100000, stride := 0x10000, inst := 64, off := 0x080, cnt := 4, rw := 0xFFFFFFFF },
    { base := 0x00100000, stride := 0x10000, inst := 64, off := 0x090, rw := 0xFFC07FFF },
    { base := scribeBlk, off := 0x094, rw := 0x0000FF01 },
    { base := 0x00100000, stride := 0x10000, inst := 64, off := 0x094, rw := 0x0000FF01 },
    { base := pcieBlk, off := 0x8000, step := 16, cnt := 128, rw := 0xFFFFFFFC },
    { base := pcieBlk, off := 0x8004, step := 16, cnt := 128, rw := 0xFFFFFFFF },
    { base := pcieBlk, off := 0x8008, step := 16, cnt := 128, rw := 0xFFFFFFFF },
    { base := pcieBlk, off := 0x800C, step := 16, cnt := 128, reset := 1, rw := 1 },
    { base := 0x00100000, stride := 0x10000, inst := 64, off := 0xE000, step := 16, cnt := 30,
      rw := 0xFFFFFFFC },
    { base := 0x00100000, stride := 0x10000, inst := 64, off := 0xE004, step := 16, cnt := 30,
      rw := 0xFFFFFFFF },
    { base := 0x00100000, stride := 0x10000, inst := 64, off := 0xE008, step := 16, cnt := 30,
      rw := 0xFFFFFFFF },
    { base := 0x00100000, stride := 0x10000, inst := 64, off := 0xE00C, step := 16, cnt := 30,
      reset := 1, rw := 1 } ]

/-- Blotter, power and thermal supervisor, security, fuses and CXL blocks: Tables 15.10, 15.11,
14.10 to 14.13, 16.12, 16.13 and 9.14. The resistance models of PWR_RINn come from fuses: a
value named in assumption 3. -/
def hubDieRows : List RegRow :=
  [ { base := bltBlk, off := 0x0000, reset := 0x40000000 },
    { base := bltBlk, off := 0x0004, reset := 0x3E8, rwl := 0xFFFF },
    lockRow bltBlk,
    { base := pwrBlk, off := 0x0000, reset := 0x80FA2800 },
    { base := pwrBlk, off := 0x0004, reset := 0xA28, rwl := 0xFFF },
    { base := pwrBlk, off := 0x0008, reset := 0x00C00040, rwl := 0x07FF07FF },
    { base := pwrBlk, off := 0x000C, rwl := 0x1F },
    { base := pwrBlk, off := 0x001C, reset := 0x8000 },
    { base := pwrBlk, off := 0x0040, cnt := 8, reset := 0x00400040, rwl := 0x07FF07FF },
    lockRow pwrBlk,
    { base := pwrBlk, off := 0x1400, cnt := 96, reset := 0xFA0000 },
    { base := pwrBlk, off := 0x2000, reset := 0xC0000000 },
    { base := pwrBlk, off := 0x3000, cnt := 428, reset := 0x30000000 },
    { base := secBlk, off := 0x0004, cnt := 2, rw := 0xFFFFFFFF } ]

/-- Floor dies: attention controllers (Table 11.10) and collective engines (Table 13.13). -/
def floorRows : List RegRow :=
  [ { base := 0x10200000, stride := 0x08000000, inst := 2, off := 0x0018, rwl := 0xFFF },
    { base := 0x10200000, stride := 0x08000000, inst := 2, off := 0x10000, cnt := 2048,
      rwl := 0x8003FFFF },
    lockRow 0x10200000 0x08000000 2 ]

/-- Tower blocks: Tables 8.10 to 8.17. -/
def towerRows : List RegRow :=
  let r : RegRow := { base := 0x40000000, stride := 0x01000000, inst := 16, off := 0 }
  [ { r with off := 0x00004, reset := 8, rwl := 0xF },
    { r with off := 0x01000, cnt := 96, rw := 0xFFFFFFFF },
    { r with off := 0x10000, cnt := 8, reset := 0x1F },
    { r with off := 0x10040, reset := 0x001A0000, rw := 0x001F071F },
    { r with off := 0x20000, rwl := 0x80000003 },
    { r with off := 0x20004, reset := 0x600, rwl := 0x07FF0FFF },
    { r with off := 0x20008, w1c := 0x40000000 },
    lockRow 0x40000000 0x01000000 16 ]

/-- Stack controller blocks: Tables 9.11 to 9.13 (MSC_STATUS.PIM is set for MS4 to MS7). -/
def stackRows : List RegRow :=
  let r : RegRow := { base := 0x60000000, stride := 0x01000000, inst := 8, off := 0 }
  [ { base := 0x64000000, stride := 0x01000000, inst := 4, off := 0, reset := 0x08000000 },
    { r with off := 0x00004, reset := 0x10, rwl := 0x7F },
    { r with off := 0x00008, reset := 0x140C0804, rwl := 0x3F3F3F3F },
    { r with off := 0x0000C, reset := 0xC, rwl := 0xFF },
    { r with off := 0x00100, cnt := 8, rwl := 0xFFFFFFFF },
    { r with off := 0x00120, reset := 0xF8F0, rwl := 0x000F0F0F },
    lockRow 0x60000000 0x01000000 8 ]

/-- Fjarlink port blocks: Tables 13.10 and 13.11. -/
def portRows : List RegRow :=
  let r : RegRow := { base := 0x70000000, stride := 0x00100000, inst := 12, off := 0 }
  [ { r with off := 0x0000, reset := 0x00F00000 },
    { r with off := 0x0004, reset := 0x100, rwl := 0x101 },
    { r with off := 0x0010, reset := 0x0F000F00 },
    lockRow 0x70000000 0x00100000 12 ]

/-- Cluster blocks: Tables 1.6, 1.7, 6.17, 7.10, 14.14, 14.15 and 18.6. The maps come from
bring-up; before it they hold the maps of a cluster without a bad core (assumption 3). -/
def clusterRows : List RegRow :=
  let r : RegRow := { base := 0x80000000, stride := 0x00100000, inst := 64, off := 0 }
  [ { r with off := 0x00100, reset := 0x03020100 },
    { r with off := 0x00104, reset := 0x07060504 },
    { r with off := 0x00108, reset := 0x0B0A0908 },
    { r with off := 0x0010C, reset := 0x0F0E0D0C },
    { r with off := 0x00110, reset := 0x76543210 },
    { r with off := 0x50000, reset := 0x30800800 },
    { r with off := 0x50004, reset := 8, rwl := 0x1F },
    { r with off := 0x5000C, reset := 0x10 },
    { r with off := 0x80000, rw := 0xE0000000 },
    { r with off := 0x80004, rw := 0xFFFFFFFF },
    { r with off := 0x80230, reset := 0x7FFFFFFF },
    lockRow 0x80000000 0x00100000 64 ]

/-- Every register whose reset value is not 0 or that software can write. -/
def regRows : List RegRow :=
  hubRows ++ viRows ++ hubDieRows ++ floorRows ++ towerRows ++ stackRows ++ portRows ++ clusterRows

/-- The row of a window offset (a register with reset 0 and no writable bit where none is listed). -/
def regRow (o : Nat) : RegRow :=
  (regRows.find? (fun r => r.hit o)).getD { base := 0, off := 0 }

/-- The reset value of the register at a window offset. -/
def regReset (o : Nat) : Word := BitVec.ofNat 32 (regRow o).reset

/-- The blocks of Table 2.2 with their sizes, from each block's base to the next block's, or one
stride for repeated blocks. -/
def regBlocks : List (Nat × Nat × Nat × Nat) :=
  [ (0x00000000, 0, 1, 0x10000), (0x00010000, 0, 1, 0x10000), (0x00020000, 0, 1, 0x10000),
    (0x00030000, 0, 1, 0x10000), (0x00040000, 0, 1, 0x10000), (0x00050000, 0, 1, 0x10000),
    (0x00060000, 0, 1, 0x20000), (0x00080000, 0x10000, 2, 0x10000), (0x000A0000, 0, 1, 0x10000),
    (0x00100000, 0x10000, 64, 0x10000), (0x01000000, 0, 1, 0x20000),
    (0x10000000, 0x08000000, 2, 0x100000), (0x10100000, 0x08000000, 2, 0x100000),
    (0x10200000, 0x08000000, 2, 0x100000), (0x40000000, 0x01000000, 16, 0x01000000),
    (0x60000000, 0x01000000, 8, 0x01000000), (0x70000000, 0x00100000, 12, 0x00100000),
    (0x80000000, 0x00100000, 64, 0x00100000) ]

/-- The base of the block copy that holds a window offset; none is a hole (R62). -/
def blockOf (o : Nat) : Option Nat :=
  regBlocks.findSome? (fun (b, stride, n, size) =>
    if o < b then none
    else
      let i := if stride = 0 then 0 else (o - b) / stride
      let q := o - b - i * stride
      if i < n ∧ q < size then some (b + i * stride) else none)

/-- Registers staged to the next pace boundary (R72): MEM_PIM_MODE, PACE_PERIOD, PACE_TIMING,
MEM_STRENGTH, PWR_CAP, PWR_TOWER_FRAC, TWR_SPLIT and TWR_BANK_PWR. -/
def stagedReg (o : Nat) : Bool :=
  (decide (0x300 ≤ o) && decide (o < 0x318)) || decide (o = 0x404) || decide (o = 0x408) ||
  (decide (0x500 ≤ o) && decide (o < 0x570)) || decide (o = 0x30004) ||
  (decide (0x30040 ≤ o) && decide (o < 0x30060)) ||
  (decide (0x40000000 ≤ o) && decide (o < 0x50000000) &&
    (decide (o % 0x01000000 = 4) ||
      (decide (0x1000 ≤ o % 0x01000000) && decide (o % 0x01000000 < 0x1180))))

/-- Registers that a cluster's control counter block stages to its next lap boundary: CLU_TRC_CTRL
(Table 18.6). -/
def lapStagedReg (o : Nat) : Bool :=
  decide (0x80000000 ≤ o) && decide (o < 0x84000000) && decide (o % 0x100000 = 0x80000)

end Sys2Proof.Machine
end

