-- ==== Sys2Proof/Machine/State.lean ====
section
/-!
DEFINITION. The state of the block as plain data, and its value right after power-on. Registers live in one
register file keyed by window offset; `regs` lists those whose value differs from the reset value of the
register maps (Machine/Regs.lean). Numbers of units, counts and addresses are natural numbers; what the spec
treats as bits is a bit vector.
-/
namespace Sys2Proof.Machine

/-! ### Reports and fault records (15.1) -/

/-- A report that a unit holds for the blotter (R635): class, origin (Table 15.2), function,
count, DETAIL, and the pace and calendar time of the first occurrence. -/
structure Report where
  cls : Nat
  origin : Nat
  fn : Nat
  count : Nat
  detail : Nat
  pace : Nat
  utc : Nat
  deriving DecidableEq, Repr

/-- A record the blotter keeps (Table 15.1), with when it opened, whether it is closed, and who
has read it. -/
structure FaultRec where
  cls : Nat
  origin : Nat
  fn : Nat
  sev : Nat
  count : Nat
  detail : Nat
  pace : Nat
  utc : Nat
  opened : Nat
  closed : Bool
  readAf : Bool
  readVi : Bool
  deriving DecidableEq, Repr

/-! ### Fjarlink packets (13.3) -/

/-- A packet's body (Table 13.4). Data of a COLL packet is its data slots' bytes with a blot bit for each slot. -/
inductive PacketBody where
  | tick (h : TickHeader)
  | hurdle (index : Nat) (reset : Bool) (n org : Nat)
  | coll (entry firing phase chunk step offset dest : Nat) (data : List Byte) (blots : List Bool)
  | ident (coord port dir index serial : Nat)
  | topo (root dist : Nat) (follows : Bool)
  | roleReq
  | roleGrant
  | roleCancel
  | peerLost (coord : Nat)
  deriving DecidableEq, Repr

/-- A packet: NSEQ, SRC and its body (Table 13.3). -/
structure Packet where
  nseq : Nat
  src : Nat
  body : PacketBody
  deriving DecidableEq, Repr

/-! ### What leaves the device -/

/-- Messages, signals and packets that leave the device, in the order they leave. `busWrite` is a write to host memory with its relaxed
ordering attribute (Table 4.1); `configRetry` is the moment from which configuration requests are answered with Request Retry Status, or no
longer are (R135); `flit` is what a Fjarlink port puts on its physical lanes, as PAM4 symbols (R539); `streamData` is a granule that an engine stream reads, with its blot bit. -/
inductive Output where
  | msix (fn vector : Nat)
  | paceOut
  | flit (port : Nat) (lanes : List (Nat × List Nat))
  | unsupportedRequest (fn : Nat)
  | readData (fn : Nat) (data : List Byte)
  | streamData (fn : Nat) (data : List Byte) (blot : Bool)
  | management (kind : Nat) (payload : List Byte)
  | busWrite (addr len : Nat) (relaxed : Bool)
  | configRetry (on : Bool)
  deriving DecidableEq, Repr

/-! ### Scribe (chapter 4) -/

/-- A queue pair (4.4): rings, places, head and tail, the two epochs being registers VI_EPOCHq
and the head VI_SQ_HEADq. -/
structure QPair where
  sqBase : Nat
  cqBase : Nat
  slots : Nat
  entries : Nat
  sqDev : Bool
  cqDev : Bool
  vector : Nat
  coalCount : Nat
  coalTime : Nat
  head : Nat := 0
  tail : Nat := 0
  cqWrite : Nat := 0
  cqHead : Nat := 0
  phase : Bool := true
  unsig : Nat := 0
  unsigSince : Nat := 0
  deriving DecidableEq, Repr

/-- A command that Scribe has consumed and not completed: its header, opcode and raw bytes, and the GEN that its HURDLE_WAIT expects (R214). -/
structure Cmd where
  h : CmdHdr
  op : Nat
  raw : List Byte
  gen : Nat := 0
  deriving DecidableEq, Repr

/-- A consumed command that waits on a hurdle (R214), with the expected generation E, and whether its WAIT has completed. -/
structure CmdWait where
  cmd : Cmd
  hurdle : Nat
  expect : Nat
  released : Bool := false
  deriving DecidableEq, Repr

/-- A status reply that Scribe holds (Table 4.9), and the ARRIVE its command still owes (R214).
`silent` is a reply that NO_REPLY suppresses. -/
structure Reply where
  fn : Nat
  pair : Nat
  tag : Nat
  op : Nat
  status : Nat
  blots : Nat
  r0 : Nat
  r1 : Nat
  pace : Nat
  silent : Bool
  arrive : Option Nat
  deriving DecidableEq, Repr

/-- Scribe: queue pairs by 8 × function + pair, consumed commands, the firmware inbox, held
replies, and the round-robin pointer (R168). -/
structure Scribe where
  pairs : List (Nat × QPair) := []
  waits : List CmdWait := []
  started : List Cmd := []
  inbox : List Cmd := []
  replies : List Reply := []
  turn : Nat := 0
  consuming : Bool := false
  deriving DecidableEq, Repr

/-- The reset in progress of a VI (R174): whether it ends as VI_DESTROY does, and the commands
that reply at its end. -/
structure ViReset where
  destroy : Bool
  replies : List (CmdHdr × Nat)
  deriving DecidableEq, Repr

/-- What a function holds beside its registers: BAR2 size in GiB (R78), VF Enable (R136), the seed and
step (R510), the rank and quotas of VI_CREATE, its KV pool (R465; no page: none), its reset in progress. -/
structure Fn where
  barGiB : Nat := 1
  enabled : Bool := false
  seed : Nat := 0
  step : Nat := 0
  rank : Nat := 0
  kvPoolMax : Nat := 0
  plain : Nat := 0
  far0 : Nat := 0
  far1 : Nat := 0
  pim : Nat := 0
  scratch : List Nat := []
  kvBase : Nat := 0
  kvPages : Nat := 0
  kvPageBytes : Nat := 0
  reset : Option ViReset := none
  deriving DecidableEq, Repr

/-! ### Schedules and jobs (5.1, 5.2, 3.3) -/

/-- A STREAM section: logical cluster, core kind code, logical core, runner, where it is placed,
its offset there and its strokes. -/
structure Stream where
  lcluster : Nat
  kind : Nat
  core : Nat
  runner : Nat
  scratch : Bool
  dest : Nat
  strokes : List StrokeWord
  deriving DecidableEq, Repr

/-- A lap table entry (Table 5.4). -/
structure LapEntry where
  program : Nat
  ramps : Nat
  budget : Nat
  repeats : Nat
  deriving DecidableEq, Repr

/-- A BATON entry. -/
structure Baton where
  lcluster : Nat
  channel : Nat
  size : Nat
  offset : Nat
  deriving DecidableEq, Repr

/-- A RELAY entry: its stages as core byte and runner. -/
structure RelayEntry where
  program : Nat
  lcluster : Nat
  id : Nat
  stages : List (Nat × Nat)
  deriving DecidableEq, Repr

/-- A HURDLE_INIT entry. -/
structure HurdleInit where
  index : Nat
  mode : Nat
  target : Nat
  deriving DecidableEq, Repr

/-- A power plan: fractions of compute, memory and link in 1/1,024 and the floor step (R606). -/
structure Plan where
  compute : Nat
  memory : Nat
  link : Nat
  floorStep : Nat
  deriving DecidableEq, Repr

/-- A loaded schedule, with a halt asked for before its job started (R746). -/
structure Schedule where
  id : Nat
  fn : Nat
  sha : Nat
  shapeKind : Nat
  counts : List Nat
  det : Bool
  system : Bool
  lapCount : Nat
  floorStep : Nat
  stretch : Nat
  logical : Nat
  map : List Nat
  streams : List Stream
  laps : List LapEntry
  programs : List (List Nat)
  batons : List Baton
  relays : List RelayEntry
  inits : List HurdleInit
  tensors : List (List Byte)
  collectives : List (List Byte)
  plan : Option Plan
  haltAt : Option Nat := none
  haltBy : Option CmdHdr := none
  deriving DecidableEq, Repr

/-- The outcomes a run can meet, in the order in which R164 prefers them. -/
structure RunFlags where
  leftSystem : Bool := false
  lapStall : Bool := false
  clusterLost : Bool := false
  aborted : Bool := false
  kvNopage : Bool := false
  nmuBusy : Bool := false
  busError : Bool := false
  blots : Nat := 0
  deriving DecidableEq, Repr

/-- A LAUNCH_LAP in progress: its command, laps not yet started, what its laps met, and whether it came while the job was halted. -/
structure Launch where
  hdr : CmdHdr
  left : Nat
  flags : RunFlags
  inHalt : Bool := false
  deriving DecidableEq, Repr

/-- A started job (R90, R99, R109, R163, R746); `consec` counts the ticks in a row at which the lap of a local one was not done, `due` is the tick that followed the start of its lap, once it has come (R100). -/
structure Job where
  fn : Nat
  sched : Nat
  system : Bool
  stepped : Bool
  laps : Nat
  next : Nat := 0
  running : Bool := false
  holds : Nat := 0
  consec : Nat := 0
  flags : RunFlags := {}
  launch : Option Launch := none
  stopBy : Option CmdHdr := none
  endAtLap : Bool := false
  haltAt : Option Nat := none
  haltBy : Option CmdHdr := none
  halted : Bool := false
  hdr : CmdHdr
  due : Option Nat := none
  deriving DecidableEq, Repr

/-! ### Runners, marks, relays, hurdles (chapter 5) -/

/-- A stroke in flight: issued, not completed (R191). `waiting` is a hurdle wait not yet released,
`transfers` the transfers it started that have not completed, `rows` the weight rows that have not reached a pass (R241, R246), `landing` the
address base that an SSETB writes when it completes, as runner, base, value and blot (R320), `owed` the lines of stack memory that its tower's
stack cache does not hold as it needs, each with whether it is written (R361, R364). -/
structure Flight where
  word : StrokeWord
  waiting : Bool := false
  transfers : Nat := 0
  busErr : Bool := false
  chan : Option Nat := none
  wrote : Bool := false
  rows : Nat := 0
  landing : Option (Nat × Nat × Nat × Bool) := none
  owed : List (Nat × Bool) := []
  deriving DecidableEq, Repr

/-- An S-core loop in progress (R318): its body and the strokes of the current pass left, the passes left, and
the register that receives the iteration index. -/
structure LoopState where
  body : List StrokeWord
  rest : List StrokeWord
  passes : Nat
  sd : Nat
  index : Nat
  deriving DecidableEq, Repr

/-- One runner: the quill's queue of its strokes (R192), the next stroke to fetch, the end of its
lap segment, whether it has strokes left in this lap, its strokes in flight, its blot latch (R229),
its loop and its skip, whether it has issued LAP_END in this lap, whether its queue holds its segment of the next lap (R195),
and for how many MCLK cycles, by cause, the stroke now being issued was head and not ready (Table 18.5). -/
structure Runner where
  queue : List StrokeWord := []
  fetch : Nat := 0
  fetched : Bool := true
  busy : Bool := false
  flight : List Flight := []
  latch : Bool := false
  loop : Option LoopState := none
  skip : Nat := 0
  ended : Bool := false
  ahead : Bool := false
  waited : List (Nat × Nat) := []
  deriving DecidableEq, Repr

/-- A granule in a baton ring (R220): its bytes and blot bit, and the core that wrote it, as its number plus one. -/
structure Granule where
  data : List Byte
  blot : Bool
  maker : Nat := 0
  deriving DecidableEq, Repr

/-- A relay that has fired and not completed, with the channels its stages name. -/
structure Firing where
  id : Nat
  stages : List Nat
  channels : List Nat
  deriving DecidableEq, Repr

/-- What a cluster holds beside its registers and cores: 64 marks (R201), baton rings, relays in
flight, the blot of R205, whether it has issued in this lap, its ramp (R112), and the runner that issued last on each core, by core number, as its
number plus one (R199); the lines of stack memory that the stroke now being issued touches, each with whether it is written (R361); and whether a
bubble, a droop stretch or a held cycle has occurred in this lap (FREE of Table 18.5). -/
structure Cluster where
  marks : List (Nat × Nat) := []
  rings : List (Nat × List Granule) := []
  firings : List Firing := []
  blotAll : Bool := false
  started : Bool := false
  ramp : Nat := 8
  quillTurn : Nat := 0
  lastIssue : List (Nat × Nat) := []
  lines : List (Nat × Bool) := []
  traceOn : Bool := false
  traces : List (Nat × List (List Nat)) := []
  firstIssue : Nat := 0
  lastDone : Nat := 0
  free : Bool := false
  deriving DecidableEq, Repr

/-- A hurdle (R208): reset values of Tables 5.11 to 5.13. -/
structure Hurdle where
  count : Nat := 0
  target : Nat := 1
  gen : Nat := 0
  mode : Nat := 0
  lapReset : Bool := false
  overflow : Bool := false
  deriving DecidableEq, Repr

/-- A WAIT pending on a hurdle: of a runner by its number with its stroke, or of a command (numbered above every runner): of HURDLE_WAIT with
word 0, of a command's header with word 1. -/
structure HurdleWait where
  hurdle : Nat
  who : Nat
  expect : Nat
  word : StrokeWord
  cmd : Option CmdHdr
  deriving DecidableEq, Repr

/-! ### Tower memory (chapter 8) -/

/-- A march in progress (R371). -/
structure March where
  mode : Nat
  first : Nat
  banks : Nat
  reply : Option CmdHdr
  deriving DecidableEq, Repr

/-- What a bank access returns: granules, each as its bytes and its blot bit. -/
abbrev BankData := List (List Byte × Bool)

/-- What a tower holds beside its registers: S in effect, bank power in effect and in transition
(Table 8.4), spare rows in use by bank × 2048 + row, unusable spares, the port each bank served last,
the patrol's next row, the march in progress, the line states of its stack cache by line address
(1 Shared, 2 Exclusive, 3 Modified), the trim store (absent: all 64 codes pass), the KCLK cycle until which each bank is occupied (R342), the port that each row lane
served last in each direction (lane × 2, plus 1 towards the banks), what each port's last read returned, and the transmit registers of each lane
for each cluster port (lane × 4 + port, R341). -/
structure Tower where
  pieces : Nat := 8
  power : List (Nat × Nat) := []
  target : List (Nat × Nat) := []
  spares : List (Nat × Nat) := []
  badSpares : List (Nat × Bool) := []
  lastPort : List (Nat × Nat) := []
  patrolRow : Nat := 0
  march : Option March := none
  lines : List (Nat × Nat) := []
  trims : List (Nat × Nat) := []
  busy : List (Nat × Nat) := []
  lastLane : List (Nat × Nat) := []
  data : List (Nat × BankData) := []
  transmit : List (Nat × List BankData) := []
  deriving DecidableEq, Repr

/-! ### Stacks, directory and far memory (8.7, chapter 9) -/

/-- A directory entry (R362). -/
inductive DirEntry where
  | shared (towers : List Nat)
  | owned (tower : Nat)
  deriving DecidableEq, Repr

/-- A request that a home serves (R363): a tower's read or write miss, a write miss of a whole line being one without data (R361); a read or a
write from outside the towers; an MCAST_FILL for towers; and the eviction of a line from a full set of the directory, for another line (R369). -/
inductive HomeWant where
  | tower (t : Nat) (excl whole : Bool)
  | extRead (fn addr : Nat)
  | extWrite (fn addr : Nat) (data : List Byte) (blot : Bool)
  | mcast (towers : List Nat)
  | evict (next : Nat)
  deriving DecidableEq, Repr

/-- A request that waits at its home for towers to answer: its line, and the towers still to answer with what each was sent
(0 RECALL_S, 1 RECALL_INV, 2 INV). -/
structure Recall where
  line : Nat
  want : HomeWant
  left : List (Nat × Nat)
  deriving DecidableEq, Repr

/-- A line granted to a tower that has not reached it (R364), with the line's data or without. -/
structure Grant where
  line : Nat
  tower : Nat
  state : Nat
  data : Bool
  deriving DecidableEq, Repr

/-- A page event history entry (R398). -/
structure PageEvent where
  page : Nat
  utc : Nat
  deriving DecidableEq, Repr

/-- A retired-page list entry (Table 9.5) without the address, which is formed at the read. -/
structure Retired where
  stack : Nat
  channel : Nat
  bank : Nat
  cause : Nat
  page : Nat
  utc : Nat
  pace : Nat
  deriving DecidableEq, Repr

/-- What a stack holds beside its registers: the directory with its lines in order of use, the requests that wait at the home, outstanding
recalls and grants, lines written back and not acknowledged, recalls served by a write-back whose RECALL_NACK is still to come, the page
buffer of each channel (most recent first), uncorrectable pages by logical index, the event history, spare pages unusable (bank × 64 +
spare), the arbiter's last grants by channel and rank with its owners and the rows of their bursts, the scrub position, pages that the
scrubber has yet to write back, when the next pass is due, the banks in refresh, and the request queues (channel × 128 + source). -/
structure Stack where
  dir : List (Nat × DirEntry) := []
  dirOrder : List Nat := []
  queue : List (Nat × HomeWant) := []
  recalls : List Recall := []
  grants : List Grant := []
  writebacks : List (Nat × Nat) := []
  nacks : List (Nat × Nat) := []
  buffer : List (Nat × List Nat) := []
  bad : List (Nat × Bool) := []
  events : List PageEvent := []
  badSpares : List (Nat × Bool) := []
  lastGrant : List (Nat × Nat) := []
  owner : List (Nat × Nat) := []
  burstRows : List (Nat × Nat) := []
  scrubPos : Nat := 0
  scrubWrites : List Nat := []
  scrubDue : Nat := 0
  queues : List (Nat × List PageReq) := []
  refreshing : List (Nat × Nat) := []
  scrubAgain : Bool := false
  deriving DecidableEq, Repr

/-- The code strength in effect and GEN of a region (R384, R393). -/
structure Region where
  strength : Nat := 0
  gen : Nat := 0
  deriving DecidableEq, Repr

/-! ### Hub firmware, life record, bring-up, security, debug (chapters 15, 16, 18) -/

/-- A firmware image slot: verified, version and security version, and its bytes. -/
structure FwSlot where
  valid : Bool
  major : Nat
  minor : Nat
  build : Nat
  svn : Nat
  image : List Byte
  deriving DecidableEq, Repr

/-- A firmware history entry (15.6). -/
structure FwHist where
  utc : Nat
  pace : Nat
  slot : Nat
  kind : Nat
  version : Nat
  deriving DecidableEq, Repr

/-- A change staged for a target pace (R92), in order of arrival. -/
inductive StagedKind where
  | fwSwitch
  | base (image : List Byte)
  | overlay (slot : Nat) (image : List Byte)
  | overlayRemove (slot : Nat)
  | powerCap (watts : Nat)
  | unitOut (kind index : Nat)
  | unitIn (kind index : Nat)
  deriving DecidableEq, Repr

/-- A staged change with its target pace and its command. -/
structure Staged where
  what : StagedKind
  target : Nat
  hdr : CmdHdr
  deriving DecidableEq, Repr

/-- An event of Table 15.5 in a unit's history: the unit's key and the count of the real-time
clock at its last event. -/
structure UnitEvent where
  unit : Nat
  utc : Nat
  deriving DecidableEq, Repr

/-- The bring-up record (R677): what R678 compares, the rows that the march found, the trim sets with their margins by tower, and the lanes of every
port that failed equalisation or BER_GATE. -/
structure BringupRec where
  build : Nat
  digest : Nat
  utc : Nat
  trips : Nat
  march : List (Nat × Nat × Nat)
  trims : List (Nat × List (Nat × Nat))
  lanes : List (List Nat × List Nat)
  deriving DecidableEq, Repr

/-- What hub firmware has to do and holds while it does not run (R655): a page at its second event, a row at its second event, a cluster to be
retired, with the source of its soft fuse. -/
inductive HeldEvent where
  | page (m page : Nat)
  | row (t b row : Nat)
  | cluster (c source : Nat)
  deriving DecidableEq, Repr

/-- Hub firmware and the hub controller: image slots, the switch in progress,
watchdog, staged changes, configuration store, units under test, histories and logs of the life record, the units that the fuses name (R673), what
is held while firmware does not run and since when it runs (R655), what the march of this bring-up found, and the recovery buffer of R690. -/
structure Hub where
  running : Bool := false
  halted : Bool := false
  recovery : Bool := false
  slotA : FwSlot
  slotB : FwSlot
  active : Nat := 0
  booting : Option Nat := none
  previous : Nat := 0
  switchBy : Option CmdHdr := none
  switchAt : Nat := 0
  lastKick : Nat := 0
  expiries : List Nat := []
  leaveNext : Bool := false
  outCause : Nat := 0
  outPending : Bool := false
  staged : List Staged := []
  stagedRegs : List (Nat × Word) := []
  stagedLap : List (Nat × Word) := []
  base : List Byte := []
  overlays : List (Nat × List Byte) := []
  testing : List (Nat × Nat × Nat × CmdHdr) := []
  events : List UnitEvent := []
  soft : List Nat := []
  failed : List (Nat × Bool) := []
  fused : List Nat := []
  held : List HeldEvent := []
  readyAt : Nat := 0
  marched : List (Nat × Nat × Nat) := []
  fwHist : List FwHist := []
  eventLog : List (List Byte) := []
  retired : List Retired := []
  lifeClock : Nat := 0
  powerOn : Nat := 0
  energy : Nat := 0
  trips : Nat := 0
  watchdogs : Nat := 0
  vrAlerts : Nat := 0
  switches : Nat := 0
  mcoresFailed : Nat := 0
  vcoresFailed : Nat := 0
  nmusFailed : Nat := 0
  tjHours : List Nat := List.replicate 13 0
  cycles : List (Nat × Nat) := []
  lifeT : Nat := 0
  lifeC : Nat := 0
  thresholds : Nat := 0
  utcOffset : Nat := 0
  calendarStale : Bool := false
  summary : List Byte := []
  bringup : Option BringupRec := none
  stage : Option Nat := none
  fast : Bool := false
  vauxLost : Bool := true
  convert : List (Nat × Nat × Nat) := []
  retrains : List (Nat × Nat) := []
  tripped : Bool := false
  recBuf : List (Nat × Byte) := []
  deriving DecidableEq, Repr

/-- The security block and the management endpoints (16.6, 16.7): the owner keys, the tamper input,
what SPDM has agreed, the MCTP endpoint, the PLDM receiver and its queue, and the debug token in force. -/
structure Security where
  owners : List (List Byte) := []
  draws : Nat := 0
  spdmVersion : Nat := 0
  spdmState : Nat := 0
  eid : Nat := 0
  receiver : Option Nat := none
  events : List (List Byte) := []
  tokenScope : Option Nat := none
  fusedSvn : Nat := 0
  revoked : Nat := 0
  deriving DecidableEq, Repr

/-- The TAP's DBG_ACCESS register and its access in progress (Table 18.2), and the boundary-scan
chain. -/
structure Debug where
  addr : Nat := 0
  data : Nat := 0
  op : Nat := 0
  busy : Bool := false
  status : Nat := 0
  token : List Byte := []
  scan : List Bool := []
  extest : Bool := false
  deriving DecidableEq, Repr

/-! ### Pace unit (chapter 3) -/

/-- What the pace unit holds beside its registers: the last tick, whether this pace's start line has passed, the flags
raised, received and sent in this pace (R101 to R103), the lowest coordinate known (Table 3.4), the digest carried for
this pace (R128), LEAVE to be set at the next tick, LEAVE set in this pace, the lap after which the device leaves for a
late flag (R107), whether the discord in progress has its record (R131), whether a firmware switch takes place at
this start line if it is a boundary (R654), the configuration commands whose lists this pace's digest has counted in (R128), the time of the
last start line (R111), the lap of the system job that started in this pace (R107), and laps that are done whose tick has not come, as the
register of the slack, the register of its lap, the time of the latch and the lap (R100). -/
structure Pace where
  lastTick : Nat := 0
  startPassed : Bool := true
  raisedHold : Bool := false
  raisedDiscord : Bool := false
  gotHold : Bool := false
  gotDiscord : Bool := false
  sentHold : Bool := false
  sentDiscord : Bool := false
  origin : Option Nat := none
  digest : Nat := 0
  leave : Bool := false
  leaving : Bool := false
  late : Option Nat := none
  discordOn : Bool := false
  switching : Bool := false
  taking : List Staged := []
  lineAt : Nat := 0
  lapStarted : Option Nat := none
  slacks : List (Nat × Option Nat × Nat × Nat) := []
  deriving DecidableEq, Repr

/-! ### Cores (chapters 6 and 7) -/

/-- One logical M-core: accumulator words by (array × 32 + row) × 512 + column, accumulator tags by
(array × 32 + row) × 32 + column / 16, stationary elements by ((set × 4 + array) × 32 + row) × 32 + k
with the format of each set, row scales and row tags, and the addresses of weight rows requested and of rows in the weight row buffer
(R246). `fresh`
is a core that took its identifier in a move: tags not written since are set (R266). -/
structure MCore where
  acc : List (Nat × Word) := []
  accTag : List (Nat × Bool) := []
  elem : List (Nat × Nat) := []
  fmt : List (Nat × Nat) := []
  scale : List (Nat × Nat) := []
  rowTag : List (Nat × Bool) := []
  requested : List Nat := []
  held : List Nat := []
  fresh : Bool := false
  deriving DecidableEq, Repr

/-- One V-core runner's registers (R289): VX, VM (VM0 not held), KS, CB, and their tags (vector tags by
register × 4 + quarter); `bad` marks what a parity error has blotted and no write has replaced, by the same key, masks from 256 (R324). `fresh` as for an M-core (R290). -/
structure VRun where
  vx : List (Nat × VWord) := []
  vtag : List (Nat × Bool) := []
  vm : List (Nat × BitVec 128) := []
  mtag : List (Nat × Bool) := []
  ks : List (Nat × BitVec 64) := []
  cb : BitVec 64 := 0
  bad : List (Nat × Bool) := []
  fresh : Bool := false
  deriving DecidableEq, Repr

/-- One S-core runner's registers (R314), their blot bits, and those that a parity error has blotted and no write has replaced (R324). -/
structure SRun where
  sx : List (Nat × DWord) := []
  stag : List (Nat × Bool) := []
  bad : List (Nat × Bool) := []
  deriving DecidableEq, Repr

/-- A transfer descriptor in flight (7.9): its runner's number, its bytes, whether it is blotted
(R229), whether its movement is done, whether it met a bus error, and the lines that its tower does not hold as it needs (R364). -/
structure Xfer where
  runner : Nat
  word : StrokeWord
  desc : List Byte
  blot : Bool
  moved : Bool
  busErr : Bool
  owed : List (Nat × Bool) := []
  deriving DecidableEq, Repr
/-! ### Near-memory units (chapter 10) -/

/-- A launch (Table 10.8): the function, FLAGS[1], TAG, P0 to P13, the input block, the SHA-256 of its program, and the
first word of its slots. -/
structure NLaunch where
  fn : Nat
  entry : Nat
  pblot : Bool
  tag : Nat
  params : List Nat
  input : List Byte
  prog : Nat
  deriving DecidableEq, Repr

/-- A page latch: whether it holds anything, its page's λ, bytes, granule blots, dirty, whether a blotted address register blots all
of it (R459), and its background transfer (0 none, 1 opening, 2 writing back). -/
structure Latch where
  valid : Bool := false
  forced : Bool := false
  lam : Nat := 0
  data : List Byte := []
  blots : Nat := 0
  dirty : Bool := false
  busy : Nat := 0
  deriving DecidableEq, Repr

/-- A loop of a running program: its first and last word and the passes left. -/
structure NLoop where
  first : Nat
  last : Nat
  left : Nat
  deriving DecidableEq, Repr

/-- A running program (Table 10.1): its launch, the word it is at, its loops (innermost first), registers with their tags,
latches, background transfers in order of issue, result slots and registers, blot latch, and what it has met. `ended` is a
function reset that ends it at its next YIELD or END (R457); `ending` an END that waits for its background transfers. -/
structure NRun where
  launch : NLaunch
  pc : Nat := 0
  loops : List NLoop := []
  vr : List (Nat × BitVec 1024) := []
  vtag : List (Nat × Bool) := []
  sr : List (Nat × Word) := []
  stag : List (Nat × Bool) := []
  latch0 : Latch := {}
  latch1 : Latch := {}
  order : List Nat := []
  slots : List (Nat × BitVec 1024) := []
  slotTag : List (Nat × Bool) := []
  written : List (Nat × Bool) := []
  res0 : Word := 0
  res1 : Word := 0
  res0Tag : Bool := false
  res1Tag : Bool := false
  blotLatch : Bool := false
  busErr : Bool := false
  wblots : Nat := 0
  even : Bool := false
  odd : Bool := false
  ended : Bool := false
  ending : Bool := false
  deriving DecidableEq, Repr

/-- A completion with its results (Table 10.9): its launch's function, its result buffer, and the result slots written, each with
its blot. -/
structure NDone where
  fn : Nat
  rb : Nat
  tag : Nat
  status : Nat
  slots : List (Nat × BitVec 1024)
  slotBlots : List (Nat × Bool)
  res0 : Word
  res1 : Word
  resBlot : Nat
  wblots : Nat
  deriving DecidableEq, Repr

/-- A unit: what runs, what is queued, launches on the command bus, completions not yet taken, the result buffer that the next
start uses, and the four words of the last completion. -/
structure Nmu where
  rb : Nat := 0
  last : List Nat := []
  run : Option NRun := none
  queued : Option NLaunch := none
  arriving : List NLaunch := []
  done : List NDone := []
  deriving DecidableEq, Repr

/-- A program installed in a floor die's units (R431): first slot, words, SHA-256, the launch count at which it was last launched,
and whether its slots are valid (R460). -/
structure NProg where
  valid : Bool := true
  first : Nat
  words : List DWord
  sha : Nat
  used : Nat
  deriving DecidableEq, Repr

/-! ### Attention controllers (chapter 11) -/

/-- A row that an MWB of KIND KV hands over: its columns' bytes and tags. -/
structure KvRow where
  data : List Byte
  tags : List Bool
  deriving DecidableEq, Repr

/-- What a walker's queue holds beside the descriptor: an append's OFMT, NCOL and rows, an attention descriptor, or the place of a KV
command for some sequences. -/
inductive WalkKind where
  | append (ofmt ncol : Nat) (rows : List KvRow)
  | attention
  | command (h : CmdHdr) (op : Nat) (seqs : List Nat)
  deriving DecidableEq, Repr

/-- A request in a walker's queue: its function, runner and stroke, its 64-byte descriptor and whether it is blotted, the rows placed
so far, whether it has asked the other walker, that walker's answer (the page and whether its copy met a bus error, or none when
its stack was empty), and whether its sequence has been filled back (R503). -/
structure WalkReq where
  fn : Nat
  runner : Nat
  word : StrokeWord
  desc : List Byte
  blot : Bool
  kind : WalkKind
  placed : Nat := 0
  asked : Bool := false
  answer : Option (Option (Nat × Bool)) := none
  filled : Bool := false
  deriving DecidableEq, Repr

/-- A request of one walker to the other (R469): a new page, or a page prepared for writing. -/
inductive AskKind where
  | alloc
  | prepare (page : Nat)
  deriving DecidableEq, Repr

structure PageAsk where
  fn : Nat
  what : AskKind
  deriving DecidableEq, Repr

/-- A block that a decode visits: its number, page, FILL, whether its partial is blotted whatever the unit does, and whether its table entry
was read blotted. -/
structure DecBlock where
  j : Nat
  page : Nat
  fill : Nat
  blot : Bool
  pblot : Bool
  deriving DecidableEq, Repr

/-- A partial or a running state of one head: m, l, o and its blot (R491, R493). -/
structure Partial where
  m : Word
  l : Word
  o : List Word
  blot : Bool
  deriving DecidableEq, Repr

/-- A KV_DECODE in progress at its home controller: its request, what the sequence gives (P, element format, H, D), the blocks it
visits, how far each floor die has launched (over block × head), the launches out by their TAG with the partial that each brings and
whether its query was blotted, the partials not yet merged by block index × 256 + head index, how many blocks of each head are
merged, the heads' states, and the outcomes met. -/
structure Decode where
  req : WalkReq
  pos : Nat
  fmt : Nat
  hkv : Nat
  hdim : Nat
  blocks : List DecBlock
  sent0 : Nat := 0
  sent1 : Nat := 0
  flying : List (Nat × Nat × Bool) := []
  partials : List (Nat × Partial) := []
  merged : List (Nat × Nat) := []
  heads : List Partial
  busErr : Bool := false
  busy : Bool := false
  noPage : Bool := false
  wblots : Nat := 0
  deriving DecidableEq, Repr

/-- An attention controller and its page walker: the walker's queue, requests from the other walker, its look-aside buffer
(function, SEQ, LAYER, block; most recent first), the decodes it merges, the programs in its stacks' units, and the launches
it has counted. -/
structure Attention where
  queue : List WalkReq := []
  asks : List PageAsk := []
  lab : List (Nat × Nat × Nat × Nat) := []
  decodes : List Decode := []
  progs : List NProg := []
  launches : Nat := 0
  deriving DecidableEq, Repr


/-! ### Fjarlink ports and the system (chapter 13) -/

/-- What a Fjarlink port holds beside its registers: the receiver's last accepted SEQ, NAK, the slots of a packet in progress, packets
received and not yet taken on VC0 and VC1; the sender's last SEQ, the packets sent and not acknowledged with their SEQ, packets that wait
for credit, the credit held, the slots freed and not yet reported on VC0 and VC1, the flit last NAKed, how often in a row and when its last replay began; lanes marked failed in each direction; returns to EQUALIZE in a row, the time of the last good flit,
the counts of the window of R556, an unanswered ROLE_REQ, the far end's last TOPO and tick header, whether it trains in full, the IDENT received, and the command that waits on the
port's training. -/
structure Port where
  rxSeq : Nat := 1023
  nak : Bool := false
  building : List (List Byte × Bool) := []
  rx0 : List Packet := []
  rx1 : List Packet := []
  txSeq : Nat := 1023
  sent : List (Nat × Packet) := []
  waiting : List Packet := []
  credit0 : Nat := 256
  credit1 : Nat := 4096
  freed0 : Nat := 0
  freed1 : Nat := 0
  nakAt : Nat := 0
  nakRun : Nat := 0
  replayAt : Nat := 0
  failedTx : List Nat := []
  failedRx : List Nat := []
  returns : Nat := 0
  lastGood : Nat := 0
  laneBits : List Nat := List.replicate 9 0
  symbols : Nat := 0
  worst : Nat := 0
  uncorr : Nat := 0
  bad : Nat := 0
  roleReq : Bool := false
  topo : Option (Nat × Nat) := none
  follows : Bool := false
  farPace : Option Nat := none
  retrained : Bool := false
  ident : Option Packet := none
  reply : Option (CmdHdr × Nat) := none
  deriving DecidableEq, Repr

/-- What the device holds of its system: NSEQ sent to and expected from each neighbour, departures learned, consecutive markers within
the limit, ticks without a marker, whether a marker came since the last tick, and whether the device still takes its
pace number from its upstream (R566). -/
structure Links where
  nseqTx : List (Nat × Nat) := []
  nseqRx : List (Nat × Nat) := []
  lost : List Nat := []
  inPhase : Nat := 0
  missed : Nat := 0
  marked : Bool := false
  needPace : Bool := false
  deriving DecidableEq, Repr

/-- An armed collective (R575): its table entry, its trigger's hurdle, and the firings started. -/
structure CollEntry where
  raw : List Byte
  trigger : Nat
  fired : Nat := 0
  deriving DecidableEq, Repr

/-- A firing in progress: its entry and number, the packets it has taken (PHASE, CHUNK, STEP, OFFSET), and the pieces (chunk, offset)
whose result is written. -/
structure CollFiring where
  entry : Nat
  n : Nat
  taken : List (Nat × Nat × Nat × Nat) := []
  written : List (Nat × Nat) := []
  deriving DecidableEq, Repr

/-- The collective engines: the system job's function, its armed entries, triggers released and not yet started in order of release,
and firings in progress. -/
structure Coll where
  fn : Nat := 0
  entries : List CollEntry := []
  released : List Nat := []
  firings : List CollFiring := []
  deriving DecidableEq, Repr

/-! ### The power and thermal supervisor (chapter 14) -/

/-- A sensor: whether it has converted since its last test, and its runs of consecutive samples: at or beyond the throttle and critical
limits and their releases, failing its checks, at or above the trip comparator, and below the restart threshold. -/
structure Sensor where
  seen : Bool := false
  hot : Nat := 0
  cool : Nat := 0
  crit : Nat := 0
  uncrit : Nat := 0
  bad : Nat := 0
  trip : Nat := 0
  cold : Nat := 0
  deriving DecidableEq, Repr

/-- A V/F transition in progress: the step it goes to, whether it is a rise, whether a fall's voltage waits for a stretch to end, and
the set point before it in mV. -/
structure VfMove where
  step : Nat
  rise : Bool
  held : Bool := false
  back : Nat := 0
  deriving DecidableEq, Repr

/-- A cluster's step loop: cap_step, ceil, its transition, whether it rose in this control window, and its active trims. -/
structure CluPower where
  capStep : Nat := 0
  ceil : Nat := 56
  move : Option VfMove := none
  raised : Bool := false
  trims : List Nat := []
  deriving DecidableEq, Repr

/-- A tower's loop (R607, R610): b, windows in a row with b = 0, over its share at its floor, and not over its share; forcing; and
the half-cycle counter of R628 in 1/16 °C. -/
structure TowerPower where
  b : Nat := 0
  zero : Nat := 0
  above : Nat := 0
  below : Nat := 0
  forcing : Bool := false
  up : Bool := true
  peak : Int := 0
  valley : Int := 0
  deriving DecidableEq, Repr

/-- A board regulator (R601): its last READ_VIN, READ_VOUT, READ_IOUT, READ_TEMPERATURE_1 and STATUS_WORD, failed reads in a row, and
whether it is lost. -/
structure Regulator where
  words : List Nat := []
  fails : Nat := 0
  lost : Bool := false
  deriving DecidableEq, Repr

/-- What the supervisor holds beside its registers: sensors, cluster and tower loops, the package power of the windows of this
millisecond (mW), regulators, failed coolant reads, the hours of the R_th baseline and the runs of hours above and below its bounds,
when the last VR_ALERT_N input deasserted, bank power before PARK, the times of trips and the trip in force with its sensor and
reading, whether the trip monitor still holds from power-up, and the stacks' throttle levels. -/
structure Supervisor where
  sensors : List (Nat × Sensor) := []
  clu : List (Nat × CluPower) := []
  tow : List (Nat × TowerPower) := []
  windows : List Nat := []
  regs : List (Nat × Regulator) := []
  coolFails : List (Nat × Nat) := []
  rthHours : List Nat := []
  rthHigh : Nat := 0
  rthLow : Nat := 0
  alertEnd : Option Nat := none
  parkedBanks : List (Nat × List (Nat × Nat)) := []
  trips : List Nat := []
  tripAt : Nat := 0
  tripSensor : Nat := 0
  tripReading : Nat := 0
  tripHeld : Bool := true
  levels : List (Nat × Nat) := []
  deriving DecidableEq, Repr

/-- The pins: mismatched readbacks in a row of READY and VPKG_EN, whether THERMTRIP_N is asserted, when VPKG_EN fell under R717, and the
CXL_REFCLK pairs that are driven, 2p + e for expander e of port p (R720). -/
structure Pins where
  readyBad : Nat := 0
  enBad : Nat := 0
  thermtrip : Bool := false
  offAt : Option Nat := none
  cxlClk : List (Nat × Bool) := []
  deriving DecidableEq, Repr


/-! ### The whole machine -/

/-- Why a command stops the machine. No command of the table has a stop in the spec: none is raised. Safe. -/
inductive Fault where
  | noSuchUnit
  deriving DecidableEq, Repr

/-- Why a command has no meaning. -/
inductive Refusal where
  /-- A command whose meaning has not been written: raised by an arm of `exec` only. Safe. -/
  | notModelled (mnemonic : String)
  deriving DecidableEq, Repr

/-- The state of the block: every register, memory, queue and counter that the spec gives the device, and the model's
own three fields: the queue of waiting commands, the log of what left the device, and the counter of free values. -/
structure State where
  pending : List Instr
  now : Nat
  regs : List (Nat × Word)
  latches : List (Nat × Word)
  mem : List Host.Cell
  blots : List (Nat × Bool)
  uncorr : List (Nat × Bool)
  host : List Host.Cell
  pace : Pace
  scribe : Scribe
  fns : List (Nat × Fn)
  scheds : List Schedule
  jobs : List Job
  clusters : List (Nat × Cluster)
  runners : List (Nat × Runner)
  abase : List (Nat × Nat)
  abtag : List (Nat × Bool)
  mcores : List (Nat × MCore)
  vruns : List (Nat × VRun)
  sruns : List (Nat × SRun)
  xfers : List Xfer
  written : List (Nat × List Nat)
  nmus : List (Nat × Nmu)
  atts : List (Nat × Attention)
  hurdles : List (Nat × Hurdle)
  hwaits : List HurdleWait
  towers : List (Nat × Tower)
  stk : List (Nat × Stack)
  regions : List (Nat × Region)
  farReady : List (Nat × Bool)
  reports : List Report
  recs : List FaultRec
  hub : Hub
  ports : List (Nat × Port)
  links : Links
  coll : Coll
  sup : Supervisor
  pins : Pins
  sec : Security
  dbg : Debug
  out : List Output
  frees : Nat
  deriving DecidableEq, Repr

/-- A slot that holds no image. -/
def FwSlot.none : FwSlot :=
  { valid := false, major := 0, minor := 0, build := 0, svn := 0, image := [] }

/-- The state right after power-on, before any stage of bring-up: every register at its reset value
(regs lists none), memories with nothing listed, no queue, schedule, job or record. Values that the
spec leaves to fuses, flash or bring-up are those of assumption 3. -/
def State.reset : State :=
  { pending := [], now := 0, regs := [], latches := [], mem := [], blots := [], uncorr := [],
    host := [], pace := {}, scribe := {}, fns := [], scheds := [], jobs := [], clusters := [],
    runners := [], abase := [], abtag := [], mcores := [], vruns := [], sruns := [], xfers := [], written := [], nmus := [], atts := [],
    hurdles := [], hwaits := [], towers := [], stk := [], regions := [], farReady := [],
    reports := [], recs := [],
    hub := { slotA := { FwSlot.none with valid := true, major := 1 }, slotB := FwSlot.none },
    ports := [], links := {}, coll := {}, sup := {}, pins := {}, sec := {}, dbg := {}, out := [], frees := 0 }

end Sys2Proof.Machine
end

