-- ==== Sys2Proof/Machine/Ops.lean ====
section
/-!
DEFINITION. The named operations that the meanings share: registers, vectors, reports, outputs, and the memory map with its
bus errors and blots (chapters 2, 5.8, 5.9, 15.1).
-/
namespace Sys2Proof.Machine

/-- What a meaning answers. -/
abbrev Out := Host.Outcome State Fault Refusal

/-! ### Registers -/

/-- The register held at a window offset. -/
def rawReg (s : State) (o : Nat) : Word := kvGet regReset s.regs o
/-- Set the register at a window offset. -/
def setReg (o : Nat) (v : Word) (s : State) : State := { s with regs := kvPut regReset s.regs o v }
/-- A field of a register. -/
def getF (s : State) (o lo w : Nat) : Nat := fld (rawReg s o) lo w
/-- Set a field of a register. -/
def setF (o lo w v : Nat) (s : State) : State := setReg o (setFld (rawReg s o) lo w v) s
/-- Set a one-bit field of a register. -/
def setB (o lo : Nat) (b : Bool) (s : State) : State := setF o lo 1 (b2n b) s
/-- Is a one-bit field of a register set? -/
def getB (s : State) (o lo : Nat) : Bool := decide (getF s o lo 1 = 1)
/-- Add to a saturating 32-bit counter. -/
def addReg (o n : Nat) (s : State) : State :=
  setReg o (BitVec.ofNat 32 (sat32 (rawReg s o).toNat n)) s
/-- Set registers to zero. -/
def zeroRegs (l : List Nat) (s : State) : State := l.foldl (fun s o => setReg o 0#32 s) s
/-- Return registers to their reset values. -/
def resetRegs (p : Nat → Bool) (s : State) : State := { s with regs := kvKeep s.regs (fun o => !p o) }
/-- A 64-bit _LO and _HI pair. -/
def reg64 (s : State) (o : Nat) : Nat := (rawReg s o).toNat + 2 ^ 32 * (rawReg s (o + 4)).toNat
/-- Set a 64-bit _LO and _HI pair. -/
def setReg64 (o v : Nat) (s : State) : State :=
  setReg (o + 4) (BitVec.ofNat 32 (v >>> 32)) (setReg o (BitVec.ofNat 32 v) s)

/-! ### Counts that the device keeps -/

/-- The 48-bit pace number (R87). -/
def paceNumber (s : State) : Nat := (rawReg s 0x410).toNat + getF s 0x414 0 16 * 2 ^ 32
/-- The real-time clock count, in ns. -/
def rtcCount (s : State) : Nat := s.now
/-- The calendar, in ns since 1970 (R662). -/
def utcNow (s : State) : Nat := (s.hub.utcOffset + rtcCount s) % 2 ^ 64
/-- 30 days in ns (R643). -/
def thirtyDays : Nat := 30 * 24 * 3600 * 1000000000

/-! ### Access to keyed parts of the state -/

def getFn (s : State) (f : Nat) : Fn := kvGet (fun _ => {}) s.fns f
def modFn (f : Nat) (g : Fn → Fn) (s : State) : State := { s with fns := kvMod (fun _ => {}) s.fns f g }
def getCluster (s : State) (c : Nat) : Cluster := kvGet (fun _ => {}) s.clusters c
def modCluster (c : Nat) (g : Cluster → Cluster) (s : State) : State :=
  { s with clusters := kvMod (fun _ => {}) s.clusters c g }
def getRunner (s : State) (k : Nat) : Runner := kvGet (fun _ => {}) s.runners k
def modRunner (k : Nat) (g : Runner → Runner) (s : State) : State :=
  { s with runners := kvMod (fun _ => {}) s.runners k g }
def getHurdle (s : State) (n : Nat) : Hurdle := kvGet (fun _ => {}) s.hurdles n
def putHurdle (n : Nat) (h : Hurdle) (s : State) : State :=
  { s with hurdles := kvPut (fun _ => {}) s.hurdles n h }
def getTower (s : State) (t : Nat) : Tower := kvGet (fun _ => {}) s.towers t
def modTower (t : Nat) (g : Tower → Tower) (s : State) : State :=
  { s with towers := kvMod (fun _ => {}) s.towers t g }
def getStack (s : State) (m : Nat) : Stack := kvGet (fun _ => {}) s.stk m
def modStack (m : Nat) (g : Stack → Stack) (s : State) : State :=
  { s with stk := kvMod (fun _ => {}) s.stk m g }
def getRegion (s : State) (r : Nat) : Region := kvGet (fun _ => {}) s.regions r
def putRegion (r : Nat) (g : Region) (s : State) : State :=
  { s with regions := kvPut (fun _ => {}) s.regions r g }
def modHub (g : Hub → Hub) (s : State) : State := { s with hub := g s.hub }
def modSec (g : Security → Security) (s : State) : State := { s with sec := g s.sec }
def modScribe (g : Scribe → Scribe) (s : State) : State := { s with scribe := g s.scribe }
def modPace (g : Pace → Pace) (s : State) : State := { s with pace := g s.pace }
/-- A message leaves the device. -/
def emit (o : Output) (s : State) : State := { s with out := s.out ++ [o] }
/-- A free value has been used. -/
def bumpFree (s : State) : State := { s with frees := s.frees + 1 }

/-! ### Runners by number -/

/-- The code of a core kind (Table 5.3). -/
def kindCode : CoreKind → Nat
  | .m => 0
  | .v => 1
  | .s => 2

/-- The number of a runner: cluster, kind, logical core, runner. -/
def runnerNo (c kind core r : Nat) : Nat := ((c * 4 + kind) * 16 + core) * 8 + r
/-- The number of a named runner. -/
def refNo (r : RunnerRef) : Nat := runnerNo r.cluster (kindCode r.kind) r.core r.runner
def noCluster (k : Nat) : Nat := k / 512
def noKind (k : Nat) : Nat := k / 128 % 4
def noCore (k : Nat) : Nat := k / 8 % 16
def noRunner (k : Nat) : Nat := k % 8
/-- The number of the core of a runner. -/
def coreNo (k : Nat) : Nat := k / 8

/-- The physical core that bears a logical identifier (Tables 1.6 and 1.7). -/
def physCore (s : State) (c kind core : Nat) : Nat :=
  if kind = 0 then getF s (cluBlk c + 0x100 + 4 * (core / 4)) (8 * (core % 4)) 5
  else if kind = 1 then getF s (cluBlk c + 0x110) (4 * (core % 8)) 4
  else core

/-! ### MSI-X (R171, R172) -/

/-- Offset of the vector control word of a function's vector, and of its pending word. -/
def msixCtl (f v : Nat) : Nat :=
  if f = 0 then pcieBlk + 0x8000 + 16 * v + 12 else viPage f + 0xE000 + 16 * v + 12
def msixPba (f v : Nat) : Nat :=
  if f = 0 then pcieBlk + 0xC000 + 4 * (v / 32) else viPage f + 0xF000 + 4 * (v / 32)

/-- Signal a vector: a masked vector sets its pending bit, another sends its message. -/
def signal (f v : Nat) (s : State) : State :=
  if getB s (msixCtl f v) 0 then setB (msixPba f v) (v % 32) true s
  else emit (.msix f v) s

/-! ### Origins (Table 15.2) and reports (R635) -/

def origin (kind loc : Nat) : Nat := 2 ^ 40 * kind + loc
def oCore (c kind phys unit : Nat) : Nat :=
  origin 1 (2 ^ 32 * c + 2 ^ 30 * kind + 2 ^ 24 * phys + unit)
def oCluster (c : Nat) : Nat := origin 2 (2 ^ 32 * c)
def oTower (t lane bank row : Nat) : Nat := origin 3 (2 ^ 32 * t + 2 ^ 29 * lane + 2 ^ 16 * bank + row)
def oStack (m part idx : Nat) : Nat := origin 4 (2 ^ 37 * m + 2 ^ 34 * part + idx)
def oEngine (e i : Nat) : Nat := origin 5 (2 ^ 32 * e + 2 ^ 24 * i)
def oPort (p lane : Nat) : Nat := origin 6 (2 ^ 36 * p + 2 ^ 32 * lane)
def oPeer (coord : Nat) : Nat := origin 7 coord
def oCxl (p e : Nat) : Nat := origin 8 (2 ^ 36 * p + 2 ^ 32 * e)
def oDomain (d q : Nat) : Nat := origin 9 (2 ^ 32 * d + 2 ^ 30 * q)
def oSensor (n : Nat) : Nat := origin 10 n
def oHurdle (n : Nat) : Nat := origin 11 n
def oHub (part idx : Nat) : Nat := origin 12 (2 ^ 8 * idx + part)
def oDevice : Nat := origin 13 0

/-- The function value that a record carries for the device as a whole (Table 15.1). -/
def fnDevice : Nat := 0xFF

/-- Add an occurrence to the report a unit holds, or hold a new one. -/
def addReport (r : Report) : List Report → List Report
  | [] => [r]
  | x :: l =>
    if x.cls = r.cls ∧ x.origin = r.origin ∧ x.fn = r.fn then
      { x with count := sat32 x.count r.count } :: l
    else x :: addReport r l

/-- A unit reports a fault to the blotter (R635). -/
def report (cls org fn detail : Nat) (s : State) : State :=
  let r : Report := { cls := cls, origin := org, fn := fn, count := 1, detail := detail % 2 ^ 32,
                      pace := paceNumber s, utc := utcNow s }
  { s with reports := addReport r s.reports }

/-! ### The device address map (2.1, 2.2) -/

/-- Where a device address lies (Table 2.1). -/
inductive Place where
  | plain (off : Nat)
  | pim (off : Nat)
  | far (port off : Nat)
  | scratch (tower off : Nat)
  | buffer (cluster off : Nat)
  | window (off : Nat)
  | outside
  deriving DecidableEq, Repr

/-- The region of Table 2.1 that holds an address. -/
def place (a : Nat) : Place :=
  if a < 0x004000000000 then .plain a
  else if a < 0x007000000000 then .pim (a - 0x004000000000)
  else if a < 0x080000000000 then .outside
  else if a < 0x0A0000000000 then .far 0 (a - 0x080000000000)
  else if a < 0x0C0000000000 then .far 1 (a - 0x0A0000000000)
  else if a < 0x100000000000 then .outside
  else if a < 0x100400000000 then .scratch ((a - 0x100000000000) / 0x40000000) (a % 0x40000000)
  else if a < 0x110000000000 then .outside
  else if a < 0x110040000000 then .buffer ((a - 0x110000000000) / 0x1000000) (a % 0x1000000)
  else if a < 0x1F0000000000 then .outside
  else if a < 0x1F0100000000 then .window (a - 0x1F0000000000)
  else .outside

/-- First addresses of the regions. -/
def pimBase : Nat := 0x004000000000
def farBase (p : Nat) : Nat := 0x080000000000 + 0x020000000000 * p
def scratchBase (t : Nat) : Nat := 0x100000000000 + 0x40000000 * t
def bufferBase (c : Nat) : Nat := 0x110000000000 + 0x1000000 * c
def windowBase : Nat := 0x1F0000000000

/-- Is a PIM region PIM-local (Table 2.3)? -/
def pimLocal (s : State) (r : Nat) : Bool := getB s (0x300 + 4 * (r / 32)) (r % 32)

/-- A place in the DRAM: stack, channel, bank within the channel, page within the bank, byte. -/
structure DramLoc where
  stack : Nat
  channel : Nat
  bank : Nat
  page : Nat
  byte : Nat
  deriving DecidableEq, Repr

/-- The procedure of R59 for plain stack memory. -/
def plainLoc (a : Nat) : DramLoc :=
  let g := a >>> 11
  { stack := g % 4, channel := (g >>> 2) % 32, bank := (g >>> 7) % 16, page := g >>> 11,
    byte := a % 2048 }

/-- The procedure of R59 for PIM stack memory, by the region's mode. -/
def pimLoc (lcl : Bool) (o : Nat) : DramLoc :=
  let r := o >>> 30
  if lcl then
    let b := o >>> 18
    let p := (o >>> 11) % 128
    { stack := 4 + b % 4, channel := (b >>> 2) % 32, bank := 2 * ((b >>> 7) % 8) + p % 2,
      page := (b >>> 10) * 64 + (p >>> 1), byte := o % 2048 }
  else
    let h := (o % 2 ^ 30) >>> 11
    let p := (h >>> 10) % 128
    { stack := 4 + h % 4, channel := (h >>> 2) % 32, bank := 2 * ((h >>> 7) % 8) + p % 2,
      page := (4 * r + (h >>> 17)) * 64 + (p >>> 1), byte := o % 2048 }

/-- The logical page index (R386). -/
def DramLoc.lpi (l : DramLoc) : Nat := 65536 * (l.channel * 16 + l.bank) + l.page

/-- The near-memory unit under a location (R59). -/
def DramLoc.nmu (l : DramLoc) : Nat := l.channel * 8 + l.bank / 2

/-- The DRAM location of a device address in stack memory. -/
def dramOf (s : State) (a : Nat) : Option DramLoc :=
  match place a with
  | .plain o => some (plainLoc o)
  | .pim o => some (pimLoc (pimLocal s (o >>> 30)) o)
  | _ => none

/-- The device address of a logical page under the modes in effect: the inverse of R59. -/
def pageAddr (s : State) (m lpi : Nat) : Nat :=
  let cb := lpi / 65536
  let page := lpi % 65536
  let channel := cb / 16
  let bank := cb % 16
  if m < 4 then ((page * 16 + bank) * 32 + channel) * 4 * 2048 + 2048 * m
  else
    let slot := page / 64
    let p := 2 * (page % 64) + bank % 2
    let pair := bank / 2
    let r := slot / 4
    if pimLocal s r then
      pimBase + ((((slot * 8 + pair) * 32 + channel) * 4 + (m - 4)) * 128 + p) * 2048
    else
      pimBase + 2 ^ 30 * r + ((((slot % 4) * 128 + p) * 8 + pair) * 32 + channel) * 4 * 2048 +
        2048 * (m - 4)

/-- The strength region of a stack address (Table 9.9): plain region or 256 + PIM region. -/
def strengthRegion (a : Nat) : Nat :=
  match place a with
  | .plain o => o >>> 30
  | .pim o => 256 + (o >>> 30)
  | _ => 448

/-- Bank, bank row and granule of a byte of scratch (R326 to R328): offset in the tower's window. -/
def bankOf (o : Nat) : Nat := 128 * (o / 2 ^ 26) + ((o % 2 ^ 26) / 512) % 128
def bankRow (o : Nat) : Nat := ((o % 2 ^ 26) / 512) / 128

/-- The window offset of a granule of a bank row: the inverse of R327. -/
def bankOffset (bank row granule : Nat) : Nat :=
  2 ^ 26 * (bank / 128) + ((row * 128 + bank % 128) * 512) + granule * 64

/-! ### Translation of a VI's addresses (16.8) -/

/-- A valid extent of a region table (R703). -/
structure Extent where
  vi : Nat
  first : Nat
  count : Nat
  kind : Nat
  deriving DecidableEq, Repr

/-- Every valid extent, in table order. -/
def extents (s : State) : List Extent :=
  s.regs.filterMap (fun (o, v) =>
    if rtBlk ≤ o ∧ o < rtBlk + 0x10000 ∧ o % 8 = 4 ∧ v.toNat.testBit 24 then
      some { vi := (o - rtBlk) / 0x400 + 1, first := (rawReg s (o - 4)).toNat,
             count := fld v 0 16, kind := fld v 16 8 }
    else none)

/-- The device piece of piece i of a kind (R704). -/
def extentPiece : List Extent → Nat → Option Nat
  | [], _ => none
  | e :: r, i => if i < e.count then some (e.first + i) else extentPiece r (i - e.count)

/-- Bit c of a function's owned clusters (Table 4.13); the AF owns every mapped cluster in no VI, one that is neither retired nor fenced (R138). -/
def viClusters (s : State) (f : Nat) : Nat := reg64 s (viPage f + 8)
def ownedByVi (s : State) (c : Nat) : Bool :=
  (List.range 64).any (fun i => (viClusters s (i + 1)).testBit c)
def owns (s : State) (f c : Nat) : Bool :=
  if f = 0 then !ownedByVi s c && !(reg64 s 0x204).testBit c && !(reg64 s 0x20C).testBit c else (viClusters s f).testBit c
/-- The physical clusters and the towers that a function owns, ascending. -/
def ownedClusters (s : State) (f : Nat) : List Nat := (List.range 64).filter (owns s f)
def ownedTowers (s : State) (f : Nat) : List Nat :=
  (List.range 16).filter (fun t => (List.range 4).any (fun i => owns s f (4 * t + i)))

/-- Is a device piece assigned to a VI? -/
def pieceTaken (s : State) (kind i : Nat) : Bool :=
  (extents s).any (fun e => e.kind = kind && e.first ≤ i && decide (i < e.first + e.count))

/-- The piece kind and index of a device address (R703). -/
def pieceOf (a : Nat) : Option (Nat × Nat) :=
  match place a with
  | .plain o => some (0, o >>> 26)
  | .pim o => some (1, o >>> 30)
  | .far 0 o => some (2, o >>> 26)
  | .far _ o => some (3, o >>> 26)
  | .scratch t o => some (4, 12 * t + (o >>> 26))
  | _ => none

/-- Requesters whose addresses are not translated (R706): hub firmware and JTAG. -/
def fnHub : Nat := 65

/-- The device address of an address of a function (R81, R704, R706); none is a bus error. -/
def devAddr (s : State) (f a : Nat) : Option Nat :=
  if 2 ^ 48 ≤ a then none
  else if f = fnHub then some a
  else if f = 0 then
    match place a with
    | .buffer c _ => if ownedByVi s c then none else some a
    | _ =>
      match pieceOf a with
      | none => some a
      | some (k, i) => if pieceTaken s k i then none else some a
  else
    let ex := fun k => (extents s).filter (fun e => decide (e.vi = f ∧ e.kind = k))
    match place a with
    | .plain o => (extentPiece (ex 0) (o >>> 26)).map (fun p => 2 ^ 26 * p + o % 2 ^ 26)
    | .pim o => (extentPiece (ex 1) (o >>> 30)).map (fun p => pimBase + 2 ^ 30 * p + o % 2 ^ 30)
    | .far p o =>
      (extentPiece (ex (2 + p)) (o >>> 26)).map (fun q => farBase p + 2 ^ 26 * q + o % 2 ^ 26)
    | .scratch j o =>
      match (ownedTowers s f)[j]? with
      | none => none
      | some t =>
        match extentPiece ((ex 4).filter (fun e => decide (e.first / 12 = t))) (o >>> 26) with
        | none => none
        | some p =>
          -- R333: the top 8 MiB of piece S − 1 are not in the VI's view
          if p % 12 + 1 = (getTower s t).pieces ∧ 0x03800000 ≤ o % 2 ^ 26 then none
          else some (scratchBase t + 2 ^ 26 * (p % 12) + o % 2 ^ 26)
    | .buffer j o => ((ownedClusters s f)[j]?).map (fun c => bufferBase c + o)
    | _ => none

/-! ### Accesses (5.8, 5.9) -/

/-- Who makes a memory access: its function (`fnHub` for untranslated requesters), whether it is a walker, controller
or hub firmware (which may write pools and protected regions), whether it holds the secure bit of R54, and the origin that
its bus errors carry. -/
structure Acc where
  fn : Nat
  trusted : Bool := false
  secure : Bool := false
  org : Nat
  deriving DecidableEq, Repr

/-- Is the bank of a scratch offset ON (R346)? -/
def bankOn (s : State) (t b : Nat) : Bool := decide (kvGet (fun _ => 0) (getTower s t).power b = 0)

/-- Is a far-memory address inside an expander and behind a port that is up (R56, R422)? -/
def farBacked (s : State) (p o : Nat) : Bool :=
  getB s (cxlBlk p) 31 && decide (o < 2 ^ 30 * ((rawReg s (cxlBlk p + 4)).toNat + (rawReg s (cxlBlk p + 8)).toNat))

/-- Is a stack page retired (R402)? -/
def pageRetired (s : State) (l : DramLoc) : Bool :=
  s.hub.retired.any (fun r => decide (r.stack = l.stack ∧ r.channel = l.channel ∧ r.bank = l.bank ∧ r.page = l.page))

/-- The offset at which a function sees a scratch offset of a tower, if it sees it (R333, R704). -/
def scratchView (s : State) (f t o : Nat) : Option Nat :=
  if f = 0 then some o
  else
    let ex := (extents s).filter (fun e => decide (e.vi = f ∧ e.kind = 4 ∧ e.first / 12 = t))
    (firstBelow 12 (fun k => decide (extentPiece ex k = some (12 * t + o / 2 ^ 26)))).map (fun k => 2 ^ 26 * k + o % 2 ^ 26)

/-- The bytes of a granule that an access touches, by their offsets in it. -/
abbrev Touch := Nat → Bool

/-- All bytes of a granule. -/
def allBytes : Touch := fun _ => true
/-- The bytes that the span of n bytes at `a` has in the granule at `g`. -/
def spanBytes (a n g : Nat) : Touch := fun i => decide (a ≤ g + i ∧ g + i < a + n)
/-- The bytes that a list gives. -/
def givenBytes (l : List (Option Byte)) : Touch := fun i => ((nth none l i)).isSome
/-- The bytes of the words that a list gives. -/
def givenWords (l : List (Option Word)) : Touch := fun i => (nth none l (i / 4)).isSome

/-- Does an access that touches these bytes of the granule at o meet the region of n bytes at `lo`? -/
def meetsRegion (t : Touch) (o lo n : Nat) : Bool := (List.range 64).any (fun i => t i && decide (lo ≤ o + i ∧ o + i < lo + n))

/-- Does an access to a granule touch a write-protected byte of a loaded schedule's STREAM and BATON regions (R183)? -/
def schedProtected (s : State) (a : Nat) (t : Touch) : Bool :=
  match place (a / 64 * 64) with
  | .buffer c o =>
    s.scheds.any (fun sc =>
      sc.streams.any (fun x => !x.scratch && decide (nth 64 sc.map x.lcluster = c) && meetsRegion t o x.dest (16 * x.strokes.length)) ||
      sc.batons.any (fun b => decide (nth 64 sc.map b.lcluster = c) && meetsRegion t o b.offset (65536 * b.size)))
  | .scratch tw o =>
    s.scheds.any (fun sc =>
      sc.streams.any (fun x => x.scratch && decide (nth 64 sc.map x.lcluster / 4 = tw) &&
        match scratchView s sc.fn tw o with
        | none => false
        | some v => meetsRegion t v x.dest (16 * x.strokes.length)))
  | _ => false

/-- Bytes of a KV pool's control area, and the length of its area (R467). -/
def kvControl (pages : Nat) : Nat := 262144 * ceilDiv (0x81000 + 8 * pages) 262144
def kvAreaLen (pages pageBytes : Nat) : Nat :=
  if pages = 0 then 0 else kvControl pages + 262144 * ceilDiv pages (262144 / pageBytes)

/-- Does an address of a function lie in its KV pool area (R468)? -/
def inPool (s : State) (f a : Nat) : Bool :=
  let p := getFn s f
  decide (p.kvBase ≤ a ∧ a < p.kvBase + kvAreaLen p.kvPages p.kvPageBytes)

/-- Is a power domain of Table 14.1 on (PWR_DOM_Vn)? -/
def domainOn (s : State) (n : Nat) : Bool := getB s (pwrBlk + 0x1000 + 4 * n) 31

/-- Is a device address backed and reachable, whatever is stored there (R52 to R57, R73, R346, R402, R672)? R55 says that a cluster's 16 MiB are all
backed, and no rule says what an access meets while the cluster is power-gated. DESIGN CHOICE (log 12): a bus error, as its memory is off. -/
def backed (s : State) (k : Acc) (a : Nat) : Bool :=
  match place a with
  | .plain _ | .pim _ =>
    (match dramOf s a with
     | some l => !pageRetired s l && domainOn s (84 + l.stack)
     | none => false) &&
    !(decide ((getRegion s (strengthRegion a)).strength = 3) && decide (0x7C0 ≤ a % 2048))
  | .far p o => domainOn s (94 + p) && farBacked s p o && kvGet (fun _ => false) s.farReady (0x8000 * p + (o >>> 26))
  | .scratch t o =>
    let z := 2 ^ 26 * (getTower s t).pieces
    decide (o < z) && (k.secure || decide (o < z - 0x800000)) && bankOn s t (bankOf o) && domainOn s (64 + t)
  | .buffer c _ => domainOn s c && !(reg64 s 0x214).testBit c
  | .window _ => false
  | .outside => false

/-- The device address that an access to bytes of one granule reaches, or none where it is a bus error before the stored data is looked at. -/
def reach (s : State) (k : Acc) (write : Bool) (a : Nat) (t : Touch) : Option Nat :=
  match devAddr s k.fn a with
  | none => none
  | some d =>
    if !backed s k d then none
    else if !k.trusted && schedProtected s d t then none
    else if write && !k.trusted && decide (k.fn < 65) && inPool s k.fn a then none
    else some d

/-- The bad-page mark of a device address: stack and logical page. -/
def badPage (s : State) (d : Nat) : Bool :=
  match dramOf s d with
  | some l => kvGet (fun _ => false) (getStack s l.stack).bad l.lpi
  | none => false

/-- Does the stored granule fail to decode (R350, R391)? -/
def undecodable (s : State) (d : Nat) : Bool :=
  kvGet (fun _ => false) s.uncorr (d / 64) || badPage s d

/-- The blot bit stored for a granule. -/
def blotAt (s : State) (d : Nat) : Bool := kvGet (fun _ => false) s.blots (d / 64)

/-- One byte of device memory, as stored. -/
def memByte (s : State) (d : Nat) : Byte := kvGet (fun _ => 0#8) s.mem d

/-- The 64 stored bytes of a granule; a blotted granule's are free values (R232). -/
def granBytes (s : State) (d : Nat) : List Byte :=
  let g := d / 64 * 64
  if blotAt s d then (List.range 64).map (fun i => Config.freeByte s.frees (g + i))
  else (List.range 64).map (fun i => memByte s (g + i))

/-- What a granule read returns (R235): its 64 bytes, blot bit, and whether it met no bus error. -/
structure GranRead where
  data : List Byte
  blot : Bool
  ok : Bool
  deriving DecidableEq, Repr

/-- A read of bytes of a granule by an engine stream. -/
def readPart (s : State) (k : Acc) (a : Nat) (t : Touch) : GranRead :=
  match reach s k false a t with
  | none => { data := List.replicate 64 0#8, blot := true, ok := false }
  | some d =>
    if undecodable s d then { data := List.replicate 64 0#8, blot := true, ok := false }
    else { data := granBytes s d, blot := blotAt s d, ok := true }

/-- A granule read by an engine stream. -/
def readGran (s : State) (k : Acc) (a : Nat) : GranRead := readPart s k a allBytes

/-- Read `n` bytes from an address, granule by granule: the bytes, the OR of the blot bits, no bus error. -/
def readSpan (s : State) (k : Acc) (a n : Nat) : GranRead :=
  let first := a / 64
  let last := (a + n - 1) / 64
  let gs := (List.range (if n = 0 then 0 else last + 1 - first)).map (fun i =>
    readPart s k ((first + i) * 64) (spanBytes a n ((first + i) * 64)))
  { data := ((gs.flatMap (fun g => g.data)).drop (a % 64)).take n,
    blot := gs.any (fun g => g.blot), ok := gs.all (fun g => g.ok) }

/-- Store bytes into device memory. -/
def putMem (d : Nat) : List Byte → List Host.Cell → List Host.Cell
  | [], m => m
  | b :: r, m => putMem (d + 1) r (kvPut (fun _ => 0#8) m d b)

/-- Store the bytes of a granule that a mask names. -/
def putGran (d : Nat) : List (Option Byte) → List Host.Cell → List Host.Cell
  | [], m => m
  | none :: r, m => putGran (d + 1) r m
  | some b :: r, m => putGran (d + 1) r (kvPut (fun _ => 0#8) m d b)

/-- Zero the granule's unwritten bytes where the stored granule did not decode (R350). -/
def zeroFill (l : List (Option Byte)) : List (Option Byte) := l.map (fun b => some (b.getD 0#8))

/-- Make an uncorrectable stack page decode again before a partial write: every granule zero and blotted (R391). -/
def healPage (d : Nat) (s : State) : State :=
  if badPage s d then
    let g := d / 2048 * 2048
    let s1 := { s with
      mem := kvClear s.mem g (g + 2048)
      blots := (List.range 32).foldl (fun b i => kvPut (fun _ => false) b (g / 64 + i) true) s.blots }
    match dramOf s d with
    | some l => modStack l.stack (fun x => { x with bad := kvPut (fun _ => false) x.bad l.lpi false }) s1
    | none => s1
  else s

/-- Write the bytes of one granule that are given, with the blot bit of the data written (R228, R350, R391). -/
def storeGran (d : Nat) (bytes : List (Option Byte)) (blot : Bool) (s : State) : State :=
  let s := healPage d s
  let g := d / 64 * 64
  let whole := bytes.all (fun b => b.isSome)
  let bad := kvGet (fun _ => false) s.uncorr (g / 64)
  let b := if whole then blot else blot || bad || blotAt s d
  { s with
    mem := putGran g (if bad then zeroFill bytes else bytes) s.mem
    blots := kvPut (fun _ => false) s.blots (g / 64) b
    uncorr := kvPut (fun _ => false) s.uncorr (g / 64) false }

/-- Blot a granule. -/
def markBlot (d : Nat) (s : State) : State := { s with blots := kvPut (fun _ => false) s.blots (d / 64) true }
/-- Make a granule of scratch undecodable. -/
def markBad (d : Nat) (s : State) : State := { s with uncorr := kvPut (fun _ => false) s.uncorr (d / 64) true }

/-- The function that a bus error's record names: the requester's (R634). -/
def accFn (k : Acc) : Nat := if k.fn = fnHub then fnDevice else k.fn

/-- Does a function hold the system job's resources (Table 4.2, R138)? The AF holds them while no VI does. -/
def holdsSystem (s : State) (f : Nat) : Bool :=
  if f = 0 then !((List.range 64).any (fun i => getB s (viPage (i + 1)) 27)) else getB s (viPage f) 27

/-- Is a function's drain in progress: RESETTING (Table 4.14)? -/
def resetting (s : State) (f : Nat) : Bool := getB s (viPage f) 29

/-- The owner of a hurdle (R634). -/
def hurdleOwner (s : State) (n : Nat) : Nat :=
  if n < 7680 then
    ((List.range 64).find? (fun i =>
      let v := rawReg s (viPage (i + 1) + 0x10)
      decide (fld v 0 16 ≤ n ∧ n < fld v 0 16 + fld v 16 16))).map (fun i => i + 1) |>.getD 0
  else
    ((List.range 65).find? (fun f => holdsSystem s f)).getD 0

/-- The function that owns a device address's piece, or the device for shared places. -/
def pieceOwner (s : State) (d : Nat) : Nat :=
  match pieceOf d with
  | none => fnDevice
  | some (k, i) =>
    (((extents s).find? (fun e => e.kind = k && e.first ≤ i && decide (i < e.first + e.count))).map (fun e => e.vi)).getD 0

/-- A VI's access outside its address space counts as a violation (R82). -/
def countViolation (k : Acc) (a : Nat) (s : State) : State :=
  if 0 < k.fn ∧ k.fn < 65 ∧ (devAddr s k.fn a).isNone then addReg (viPage k.fn + 4) 1 s else s

/-- Report a bus error of a whole access, such as a misaligned one (R82, R237). -/
def accessError (k : Acc) (a : Nat) (s : State) : State := report 0x20A k.org (accFn k) a (countViolation k a s)

/-- Report a bus error by its origin (R52, R82, R237, R346, R634). -/
def busError (k : Acc) (a : Nat) (s : State) : State :=
  match devAddr s k.fn a with
  | none => accessError k a s
  | some d =>
    if undecodable s d && backed s k d then
      match place d with
      | .scratch t o =>
        report 0x201 (oTower t (bankOf o % 8) (bankOf o) (bankRow o)) (pieceOwner s d) (o / 64 % 8)
          (addReg (twrBlk t + 0x2008) 1 s)
      | .buffer c _ => report 0x201 (oCluster c) fnDevice 0 s
      | _ =>
        match dramOf s d with
        | some l => report 0x203 (oStack l.stack 0 l.lpi) (pieceOwner s d) 0xFFFFFFFF s
        | none => s
    else
      let s := match place d with
        | .scratch t o => if bankOn s t (bankOf o) then s else addReg (twrBlk t + 8) 1 s
        | .far p _ => addReg (cxlBlk p + 0x14) 1 s
        | _ => s
      report 0x20A k.org (accFn k) a s

/-- What a write leaves: the state, whether it met no bus error, and how many granules it wrote blotted (R233). -/
structure Wrote where
  s : State
  ok : Bool
  blots : Nat

/-- Write one granule's given bytes for a requester (R236). -/
def writeGran (k : Acc) (a : Nat) (bytes : List (Option Byte)) (blot : Bool) (w : Wrote) : Wrote :=
  if bytes.all (fun b => b.isNone) then w
  else
    match reach w.s k true a (givenBytes bytes) with
    | none => { w with s := busError k a w.s, ok := false }
    | some d =>
      let s := storeGran d bytes blot w.s
      let s := match place d with
        | .far p _ => if blotAt s d then addReg (cxlBlk p + 0x10) 1 s else s
        | _ => s
      { s := s, ok := w.ok, blots := w.blots + b2n (blotAt s d) }

/-- The bytes of a span that fall in granule i from its first, as a mask. -/
def spanPart (a : Nat) (bytes : List Byte) (i : Nat) : List (Option Byte) :=
  (List.range 64).map (fun j =>
    let p := i * 64 + j
    if p < a % 64 then none else bytes[p - a % 64]?)

/-- Write bytes from an address, granule by granule in ascending order, with one blot bit. -/
def writeSpan (k : Acc) (a : Nat) (bytes : List Byte) (blot : Bool) (w : Wrote) : Wrote :=
  (List.range (if bytes.isEmpty then 0 else (a + bytes.length - 1) / 64 + 1 - a / 64)).foldl
    (fun w i => writeGran k ((a / 64 + i) * 64) (spanPart a bytes i) blot w) w

/-- A write that starts from a state. -/
def Wrote.start (s : State) : Wrote := { s := s, ok := true, blots := 0 }

/-- Zero a range of device memory with clear blots, as scrubs and fills do. -/
def zeroRange (lo len : Nat) (s : State) : State :=
  { s with mem := kvClear s.mem lo (lo + len)
           blots := kvClear s.blots (lo / 64) ((lo + len) / 64)
           uncorr := kvClear s.uncorr (lo / 64) ((lo + len) / 64) }

/-- Host (bus) memory. A write leaves on the bus, a data write of COPY with relaxed ordering and a status reply without (Table 4.1, R134). -/
def hostRead (s : State) (a n : Nat) : List Byte :=
  (List.range n).map (fun i => kvGet (fun _ => 0#8) s.host (a + i))
def hostWrite (relaxed : Bool) (a : Nat) (l : List Byte) (s : State) : State :=
  emit (.busWrite a l.length relaxed) { s with host := putMem a l s.host }

end Sys2Proof.Machine
end

