-- ==== Sys2Proof/Machine/Operands.lean ====
section
/-!
DEFINITION. The operand forms of strokes: the common header (Table 5.7), the address operand of R282, and the field maps of
chapters 6 and 7.
-/
namespace Sys2Proof.Machine

/-- A field of a stroke. -/
def sf (w : StrokeWord) (lo n : Nat) : Nat := bits w.toNat lo n
/-- One bit of a stroke. -/
def sb (w : StrokeWord) (i : Nat) : Bool := w.toNat.testBit i

/-! ### Common header (Table 5.7) -/

def sOpcode (w : StrokeWord) : Nat := sf w 0 8
def sUnit (w : StrokeWord) : Nat := sf w 8 2
def sFence (w : StrokeWord) : Bool := sb w 10
def sTrace (w : StrokeWord) : Bool := sb w 11
def sSignalEn (w : StrokeWord) : Bool := sb w 12
def sSignal (w : StrokeWord) : Nat := sf w 13 6
def sWaitEn (w : StrokeWord) : Bool := sb w 19
def sWait (w : StrokeWord) : Nat := sf w 20 6
def sRelay (w : StrokeWord) : Bool := sb w 26
def sRelayId (w : StrokeWord) : Nat := sf w 27 4
/-- Is it LAP_END (Table 5.8)? -/
def isLapEnd (w : StrokeWord) : Bool := decide (sUnit w = 3 ∧ sOpcode w = 1)
/-- Is a stroke of this unit and opcode (Table 5.7)? -/
def isOp (w : StrokeWord) (unit op : Nat) : Bool := decide (sUnit w = unit ∧ sOpcode w = op)

/-! ### Address bases and addresses (R282) -/

def getAb (s : State) (k i : Nat) : Nat := kvGet (fun _ => 0) s.abase (k * 8 + i)
def getAbTag (s : State) (k i : Nat) : Bool := kvGet (fun _ => false) s.abtag (k * 8 + i)
def setAb (k i v : Nat) (tag : Bool) (s : State) : State :=
  { s with abase := kvPut (fun _ => 0) s.abase (k * 8 + i) (v % 2 ^ 48)
           abtag := kvPut (fun _ => false) s.abtag (k * 8 + i) tag }

/-- The address that an ADDR field encodes for a runner. -/
def addrOf (s : State) (k f : Nat) : Nat :=
  wrapInt 48 ((getAb s k (f % 8) : Int) + sext 45 (f / 8))

/-- The function of the job whose clusters include a physical cluster, and the job's place in the list. -/
def jobOf (s : State) (c : Nat) : Option Job :=
  s.jobs.find? (fun j => s.scheds.any (fun x => x.id = j.sched && x.fn = j.fn && x.map.contains c))

/-- The schedule of a job. -/
def schedOf (s : State) (j : Job) : Option Schedule :=
  s.scheds.find? (fun x => decide (x.id = j.sched ∧ x.fn = j.fn))

/-- The access context of a runner's strokes: its job's function, the core as the origin of its bus errors. -/
def accOf (s : State) (k : Nat) : Acc :=
  { fn := match jobOf s (noCluster k) with
      | some j => j.fn
      | none => 0
    org := oCore (noCluster k) (noKind k) (physCore s (noCluster k) (noKind k) (noCore k)) (noRunner k) }

/-- Does every granule that the runner's strokes write carry a blot (R205, R230)? -/
def writesBlotted (s : State) (k : Nat) : Bool :=
  (getRunner s k).latch || (getCluster s (noCluster k)).blotAll

/-! ### Baton rings (5.7) -/

def ring (s : State) (c ch : Nat) : List Granule := kvGet (fun _ => []) (getCluster s c).rings ch
def setRing (c ch : Nat) (l : List Granule) (s : State) : State :=
  modCluster c (fun x => { x with rings := kvPut (fun _ => []) x.rings ch l }) s

/-- Granules that a channel's ring holds, from its BATON entry (R219). -/
def ringSize (s : State) (c ch : Nat) : Nat :=
  match jobOf s c with
  | none => 0
  | some j =>
    match schedOf s j with
    | none => 0
    | some x =>
      ((x.batons.find? (fun b => decide (nth 64 x.map b.lcluster = c ∧ b.channel = ch))).map (fun b => 1024 * b.size)).getD 0

/-- Take `n` granules from a ring, or stall (R221). -/
def takeRing (c ch n : Nat) (s : State) : Option (List Granule × State) :=
  let l := ring s c ch
  if l.length < n then none else some (l.take n, setRing c ch (l.drop n) s)

/-- Put granules into a ring (R220). A producer outside a relay whose ring is already full stalls (R221). What goes in beyond
the ring's size stands for granules that the producer has not written yet: it completes once they fit. -/
def pushRing (c ch : Nat) (relay : Bool) (g : List Granule) (s : State) : Option State :=
  let l := ring s c ch
  if !relay && decide (ringSize s c ch ≤ l.length) then none
  else some (setRing c ch (l ++ g) s)

/-- What a stroke's effect leaves: the state, whether it met a bus error, how many granules it wrote blotted, whether it
waits on a hurdle, how many transfers it started, the ring it fills, the weight rows a pass still waits for, and the address base that an SSETB is
to write. -/
structure StrokeOut where
  s : State
  busErr : Bool := false
  blots : Nat := 0
  waiting : Bool := false
  transfers : Nat := 0
  chan : Option Nat := none
  rows : Nat := 0
  landing : Option (Nat × Nat × Nat × Bool) := none

/-! ### M-core fields (Tables 6.10 to 6.15) -/

/-- The address field of an M-core stroke. -/
def mAddr (w : StrokeWord) : Nat := sf w 32 48
/-- The arrays that a mask names. -/
def arraysOf (mask : Nat) : List Nat := (List.range 4).filter (fun a => mask.testBit a)

/-! ### V-core fields (Tables 7.3 and 7.4) -/

/-- The register layout. -/
structure VFields where
  vd : Nat
  va : Nat
  vb : Nat
  vc : Nat
  ty : Nat
  func : Nat
  bimm : Bool
  mask : Nat
  sat : Bool
  rmode : Nat
  key : Nat
  adv : Bool
  imm : Nat
  deriving DecidableEq, Repr

def vFields (w : StrokeWord) : VFields :=
  { vd := sf w 32 6, va := sf w 38 6, vb := sf w 44 6, vc := sf w 50 6, ty := sf w 56 3,
    func := sf w 59 4, bimm := sb w 63, mask := sf w 64 3, sat := sb w 67, rmode := sf w 68 2,
    key := sf w 70 2, adv := sb w 72, imm := sf w 96 32 }

/-- The memory layout. -/
structure VMem where
  vreg : Nat
  vidx : Nat
  mask : Nat
  chan : Bool
  len : Nat
  ichan : Nat
  idxChan : Bool
  esize : Nat
  aop : Nat
  addr : Nat
  deriving DecidableEq, Repr

def vMem (w : StrokeWord) : VMem :=
  { vreg := sf w 32 6, vidx := sf w 38 6, mask := sf w 44 3, chan := sb w 47, len := sf w 48 2,
    ichan := sf w 50 3, idxChan := sb w 53, esize := if sb w 54 then 2 else 4, aop := sf w 55 3,
    addr := sf w 80 48 }

/-- Bits of a lane in a view (R291): TYPE 0 and 3 are 32-bit, 5 to 7 are 8-bit, others 16-bit. -/
def laneBits (ty : Nat) : Nat := if ty = 0 ∨ ty = 3 then 32 else if 5 ≤ ty then 8 else 16
/-- Lanes of a view. -/
def laneCount (ty : Nat) : Nat := 2048 / laneBits ty

/-- Lane i of a vector register in a view of `w` bits. -/
def lane (v : VWord) (w i : Nat) : Nat := bits v.toNat (i * w) w
/-- A vector register from its lanes of `w` bits, lane 0 first. -/
def fromLanes (w : Nat) (l : List Nat) : VWord :=
  BitVec.ofNat 2048 (l.foldr (fun x acc => x % 2 ^ w + acc * 2 ^ w) 0)

/-! ### S-core fields (Table 7.6) -/

structure SFields where
  sd : Nat
  sa : Nat
  sb : Nat
  immb : Bool
  func : Nat
  imm : Nat
  deriving DecidableEq, Repr

def sFields (w : StrokeWord) : SFields :=
  { sd := sf w 32 5, sa := sf w 37 5, sb := sf w 42 5, immb := sb w 47, func := sf w 48 4,
    imm := sf w 64 64 }

/-! ### S-core registers -/

def getS (s : State) (k : Nat) : SRun := kvGet (fun _ => {}) s.sruns k
def modS (k : Nat) (g : SRun → SRun) (s : State) : State := { s with sruns := kvMod (fun _ => {}) s.sruns k g }
def sx (s : State) (k i : Nat) : DWord := kvGet (fun _ => 0#64) (getS s k).sx i
def sxTag (s : State) (k i : Nat) : Bool := kvGet (fun _ => false) (getS s k).stag i
def setSx (k i : Nat) (v : DWord) (tag : Bool) (s : State) : State :=
  modS k (fun r => { r with
    sx := kvPut (fun _ => 0#64) r.sx i v, stag := kvPut (fun _ => false) r.stag i tag, bad := kvPut (fun _ => false) r.bad i false }) s

/-! ### V-core registers -/

def getV (s : State) (k : Nat) : VRun := kvGet (fun _ => {}) s.vruns k
def modV (k : Nat) (g : VRun → VRun) (s : State) : State := { s with vruns := kvMod (fun _ => {}) s.vruns k g }
def vx (s : State) (k i : Nat) : VWord := kvGet (fun _ => 0#2048) (getV s k).vx i
def vTag (s : State) (k i q : Nat) : Bool := kvGet (fun _ => (getV s k).fresh) (getV s k).vtag (i * 4 + q)
/-- The quarters of a register that a write replaces whole lose their mark of a parity error (R324). -/
def healVx (k i : Nat) (whole : Nat → Bool) (s : State) : State :=
  modV k (fun r => { r with bad := (List.range 4).foldl (fun b q => if whole q then kvPut (fun _ => false) b (i * 4 + q) false else b) r.bad }) s
/-- A mask register; VM0 reads as all ones (R289). -/
def vMask (s : State) (k i : Nat) : BitVec 128 :=
  if i = 0 then BitVec.allOnes 128 else kvGet (fun _ => 0#128) (getV s k).vm i
def vMaskTag (s : State) (k i : Nat) : Bool := if i = 0 then false else kvGet (fun _ => (getV s k).fresh) (getV s k).mtag i
def vKey (s : State) (k i : Nat) : BitVec 64 := kvGet (fun _ => 0#64) (getV s k).ks i
def setVx (k i : Nat) (v : VWord) (tags : List Bool) (s : State) : State :=
  modV k (fun r =>
    { r with
      vx := kvPut (fun _ => 0#2048) r.vx i v
      vtag := (List.range 4).foldl (fun t q => kvPut (fun _ => r.fresh) t (i * 4 + q) (nth false tags q)) r.vtag }) s
/-- Write a mask register; a write of VM0 is ignored. -/
def setMask (k i : Nat) (v : BitVec 128) (tag : Bool) (s : State) : State :=
  if i = 0 then s
  else modV k (fun r =>
    { r with
      vm := kvPut (fun _ => 0#128) r.vm i v, mtag := kvPut (fun _ => r.fresh) r.mtag i tag
      bad := kvPut (fun _ => false) r.bad (256 + i) false }) s

end Sys2Proof.Machine
end

