-- ==== Sys2Proof/Machine/Flags.lean ====
section
/-!
DEFINITION. The flags that the block computes: status codes of replies (Table 4.11), the status a run replies with (R164), blot tags of
outputs (R227, R292), and the counts of Tables 1.9 and 4.14.
-/
namespace Sys2Proof.Machine

/-! ### Status codes (Table 4.11) -/

def stOk : Nat := 0x0000
def stBlotted : Nat := 0x0001
def stCoalesced : Nat := 0x0002
def stBadOpcode : Nat := 0x0101
def stBadLength : Nat := 0x0102
def stBadParam : Nat := 0x0103
def stBadVi : Nat := 0x0104
def stStaleEpoch : Nat := 0x0105
def stNotPermitted : Nat := 0x0106
def stNoQueue : Nat := 0x0107
def stQueueExists : Nat := 0x0108
def stQuota : Nat := 0x0201
def stBusy : Nat := 0x0202
def stNoClusters : Nat := 0x0203
def stBadImage : Nat := 0x0301
def stShape : Nat := 0x0302
def stNondet : Nat := 0x0303
def stLapBusy : Nat := 0x0304
def stLapStall : Nat := 0x0305
def stNoJob : Nat := 0x0306
def stJobActive : Nat := 0x0307
def stClusterLost : Nat := 0x0308
def stLeftSystem : Nat := 0x0309
def stBusError : Nat := 0x0401
def stKvNopage : Nat := 0x0402
def stNmuBusy : Nat := 0x0403
def stNoSeq : Nat := 0x0404
def stBadState : Nat := 0x0501
def stOutOfService : Nat := 0x0502
def stFwError : Nat := 0x0503
def stViResetting : Nat := 0x0504
def stAborted : Nat := 0x0601

/-- The status of a run: the first of R164's list that applies. -/
def runStatus (f : RunFlags) : Nat :=
  if f.leftSystem then stLeftSystem
  else if f.lapStall then stLapStall
  else if f.clusterLost then stClusterLost
  else if f.aborted then stAborted
  else if f.kvNopage then stKvNopage
  else if f.nmuBusy then stNmuBusy
  else if f.busError then stBusError
  else if 0 < f.blots then stBlotted
  else stOk

/-- The status of a command that moved data: BUS_ERROR, OK_BLOTTED or OK (R237, Table 4.11). -/
def dataStatus (ok : Bool) (blots : Nat) : Nat :=
  if !ok then stBusError else if 0 < blots then stBlotted else stOk

/-! ### What a run has met -/

/-- Put flags into every job that maps a cluster, and into its launch in progress. -/
def noteJob (c : Nat) (g : RunFlags → RunFlags) (s : State) : State :=
  { s with jobs := s.jobs.map (fun j =>
      if s.scheds.any (fun x => x.id = j.sched && x.fn = j.fn && x.map.contains c) then
        { j with flags := g j.flags, launch := j.launch.map (fun l => { l with flags := g l.flags }) }
      else j) }

/-- A stroke of a cluster met a bus error (R237). -/
def noteBusErr (c : Nat) (s : State) : State := noteJob c (fun f => { f with busError := true }) s
/-- Strokes of a cluster wrote blotted granules (R233). -/
def noteBlots (c n : Nat) (s : State) : State :=
  if n = 0 then s else noteJob c (fun f => { f with blots := sat32 f.blots n }) s

/-! ### Blot tags of a vector output (R292) -/

/-- Quarters that hold lane i of a view of `w` bits. -/
def quarterOf (w i : Nat) : Nat := i * w / 512

/-- Tags of the four output quarters of a lane-by-lane operation: source quarters, the mask's tag, and the old tag of a
quarter with a lane left unwritten. -/
def laneTags (s : State) (k : Nat) (f : VFields) (w : Nat) (srcs : List Nat) (enabled : Nat → Bool) : List Bool :=
  (List.range 4).map (fun q =>
    srcs.any (fun r => vTag s k r q) || (decide (f.mask ≠ 0) && vMaskTag s k f.mask) ||
    (((List.range (512 / w)).any (fun i => !enabled (q * (512 / w) + i))) && vTag s k f.vd q))

/-! ### Counts shown in registers -/

/-- Clusters that started jobs map (Table 1.9). -/
def mappedCount (s : State) : Nat :=
  (s.jobs.map (fun j => ((schedOf s j).map (fun x => x.map.length)).getD 0)).sum

/-- Retired and fenced clusters: DEV_RETIRED and DEV_FENCED. -/
def retired (s : State) (c : Nat) : Bool := (reg64 s 0x204).testBit c
def fenced (s : State) (c : Nat) : Bool := (reg64 s 0x20C).testBit c
/-- Clusters out of service under UNIT_OUT: DEV_OUT. -/
def clusterOut (s : State) (c : Nat) : Bool := (reg64 s 0x214).testBit c
/-- Towers, Fjarlink ports and CXL ports out of service: DEV_OUT_UNITS. -/
def towerOut (s : State) (t : Nat) : Bool := getB s 0x21C t
def portOut (s : State) (p : Nat) : Bool := getB s 0x21C (16 + p)
def cxlOut (s : State) (p : Nat) : Bool := getB s 0x21C (28 + p)

/-- DEV_SHAPE_STATUS with its counts (Table 1.9). -/
def shapeStatus (s : State) : Word :=
  let r := rawReg s 0x200
  let kind := (s.jobs.head?.bind (fun j => schedOf s j)).map (fun x => x.shapeKind)
  let r := setFld r 16 8 (mappedCount s)
  let r := setFld r 8 8 (popCount 64 (reg64 s 0x204))
  let r := setFld r 4 4 (popCount 64 (reg64 s 0x20C))
  setFld r 0 4 (kind.getD 0)

/-- VI_STATUS with its counts (Table 4.14). -/
def viStatus (s : State) (f : Nat) : Word :=
  let r := rawReg s (viPage f)
  let r := setFld r 27 1 (b2n (holdsSystem s f))
  let r := setFld r 26 1 (b2n (s.jobs.any (fun j => decide (j.fn = f))))
  let r := setFld r 16 8 (ownedClusters s f).length
  setFld r 8 8 (ownedTowers s f).length

/-- The pace number as a system job is loaded: PACE_STATUS.SYSTEM_JOB (Table 3.6). -/
def systemJob (s : State) : Option Job := s.jobs.find? (fun j => j.system)
/-- The schedules loaded for the system job: those of the function that holds the system resources, of full or reserve shape (R139),
that no local job runs. A loaded job is one whose schedule is loaded, started or not (R163, R746). DEDUCED (log 31). -/
def systemScheds (s : State) : List Schedule :=
  s.scheds.filter (fun x => decide (x.shapeKind ≤ 2) && holdsSystem s x.fn &&
    !s.jobs.any (fun j => decide (j.fn = x.fn ∧ j.sched = x.id) && !j.system))
/-- Is a system job loaded? -/
def systemLoaded (s : State) : Bool := !(systemScheds s).isEmpty
/-- Does a loaded job map this cluster? -/
def loadedMaps (s : State) (c : Nat) : Bool := s.scheds.any (fun x => x.map.contains c)

/-! ### Steps and temperatures (chapter 14) -/

/-- Register of a sensor (Table 14.13). -/
def sensorReg (n : Nat) : Nat := pwrBlk + 0x3000 + 4 * n
def sensorBroken (s : State) (n : Nat) : Bool := getB s (sensorReg n) 31
/-- Sensors that a cluster owns (Table 14.6): its own, two of its cache die, two of its floor die. -/
def sensorsOf (c : Nat) : List Nat :=
  let t := c / 4
  [4 * c, 4 * c + 1, 4 * c + 2, 4 * c + 3, 256 + 8 * t + 2 * (c % 4), 256 + 8 * t + 2 * (c % 4) + 1,
   384 + 16 * (t / 8) + 2 * (t % 8), 384 + 16 * (t / 8) + 2 * (t % 8) + 1]
/-- Is a cluster held at PF by a rank 2 or rank 4 action of Table 14.5 (R612, R619, R621)? -/
def forcedPf (s : State) (c : Nat) : Bool :=
  getB s pwrBlk 31 || getB s (pwrBlk + 0x2000) 31 || (sensorsOf c).any (sensorBroken s)
def getClu (s : State) (c : Nat) : CluPower := kvGet (fun _ => {}) s.sup.clu c
def getTow (s : State) (t : Nat) : TowerPower := kvGet (fun _ => {}) s.sup.tow t
/-- lowest of R607: the floor step of the cluster's job during a lap, as its plan overrides it, else PF; PF under cap forcing. -/
def lowestStep (s : State) (c : Nat) : Nat :=
  if (getTow s (c / 4)).forcing then 16
  else
    match jobOf s c with
    | none => 16
    | some j =>
      if !j.running then 16
      else
        ((schedOf s j).map (fun (x : Schedule) =>
          match x.plan with
          | some p => if p.floorStep = 0xFF then x.floorStep else p.floorStep
          | none => x.floorStep)).getD 16
/-- The step that R609 asks for: the slowest of PWR_CEIL, cap_step, the thermal limit step, and PF where a forced action holds or no
loaded job maps the cluster, or it is out of service. While a lap runs, PWR_CEIL and cap_step, which are no forced actions, do not go below
the floor step (R117). -/
def vfTarget (s : State) (c : Nat) : Nat :=
  if forcedPf s c || !loadedMaps s c || clusterOut s c || retired s c then 16
  else max (min (max (getF s (pwrBlk + 0xC) 0 5) (getClu s c).capStep) (lowestStep s c)) (getF s (cluBlk c + 0x50000) 14 5)
/-- CLU_VF_STATUS with FORCED_PF and TARGET (Table 14.15). -/
def vfStatus (s : State) (c : Nat) : Word :=
  setFld (setFld (rawReg s (cluBlk c + 0x50000)) 29 1 (b2n (forcedPf s c))) 19 5 (vfTarget s c)
/-- The power plan in force: that of a system job that has received one, a started one first (R606;
DESIGN CHOICE, log 11). -/
def systemPlan (s : State) : Option Plan :=
  ((systemJob s).bind (fun j => (schedOf s j).bind (fun x => x.plan))).orElse (fun _ => (systemScheds s).findSome? (fun x => x.plan))
/-- PWR_STATUS with CAP_PENDING, PLAN_SYSTEM and CAP_W (Table 14.11). -/
def pwrStatus (s : State) : Word :=
  let w := setFld (rawReg s pwrBlk) 8 12 (getF s (pwrBlk + 4) 0 12)
  let cap := s.hub.staged.any (fun x => match x.what with | .powerCap _ => true | _ => false)
  let reg := (kvFind s.hub.stagedRegs (pwrBlk + 4)).isSome
  setFld (setFld w 28 1 (b2n (cap || reg))) 27 1 (b2n (systemPlan s).isSome)
/-- A sensor's last reading, in 1/16 °C. -/
def sensorTemp (s : State) (n : Nat) : Int := sext 16 (getF s (sensorReg n) 0 16)
/-- The valid sensors. -/
def validSensors (s : State) : List Nat := (List.range 428).filter (fun n => !sensorBroken s n)
/-- The valid sensor with the highest last reading, the lowest of equals. -/
def hottest (s : State) : Nat :=
  match validSensors s with
  | [] => 0
  | n :: l => l.foldl (fun b n => if sensorTemp s b < sensorTemp s n then n else b) n
/-- Trips within the last 24 h (R623). -/
def trips24h (s : State) : Nat := (s.sup.trips.filter (fun t => decide (rtcCount s < t + 86400000000000))).length
/-- THM_STATUS with its counts (Table 14.12). -/
def thmStatus (s : State) : Word :=
  let w := setFld (rawReg s (pwrBlk + 0x2000)) 26 2 (min 3 (trips24h s))
  setFld (setFld w 9 9 (428 - (validSensors s).length)) 0 9 (hottest s)
/-- The throttle level of a stack: 4 while its sensor is broken (R619, R620). -/
def stackLevel (s : State) (m : Nat) : Nat := if sensorBroken s (420 + m) then 4 else kvGet (fun _ => 0) s.sup.levels m

end Sys2Proof.Machine
end

