-- ==== Sys2Proof/Machine/NmuRegs.lean ====
section
/-!
DEFINITION. What the registers of the near-memory units and of the attention controllers read as (Tables 10.10 to 10.12 and 11.11),
from the units, programs and controllers in the state.
-/
namespace Sys2Proof.Machine

/-- A unit by PIM stack 0 to 3 and number. -/
def nmuNo (st u : Nat) : Nat := st * 256 + u
def getNmu (s : State) (st u : Nat) : Nmu := kvGet (fun _ => {}) s.nmus (nmuNo st u)
def modNmu (st u : Nat) (g : Nmu → Nmu) (s : State) : State :=
  { s with nmus := kvMod (fun _ => {}) s.nmus (nmuNo st u) g }

/-- Offset of a unit's command area and of a stack's near-memory registers. -/
def nmuArea (st u : Nat) : Nat := mscBlk (4 + st) + 0x80000 + 0x100 * u
def nmuBlk (st : Nat) : Nat := mscBlk (4 + st) + 0x50000
/-- Is a unit failed (NMU_FAILEDn)? -/
def nmuBad (s : State) (st u : Nat) : Bool := getB s (nmuBlk st + 0x100 + 4 * (u / 32)) (u % 32)

/-- The FUNCTION byte of a launch record: 0xFF for hub firmware. -/
def launchFn (f : Nat) : Nat := if f = fnHub then 0xFF else f
/-- Word n of a launch record (Table 10.8). -/
def launchWord (l : NLaunch) (n : Nat) : Nat :=
  if n = 0 then l.entry + 2 ^ 8 * launchFn l.fn + 2 ^ 17 * b2n l.pblot
  else if n = 1 then l.tag
  else nth 0 l.params (n - 2)

/-- The four words of a completion record (Table 10.9). -/
def doneWords (d : NDone) : List Nat :=
  let slots := (d.slots.map (fun e => 2 ^ e.1)).sum
  let blots := (d.slotBlots.map (fun e => if e.2 then 2 ^ e.1 else 0)).sum
  [d.tag, d.status + 2 ^ 4 * slots + 2 ^ 8 * blots + 2 ^ 12 * d.resBlot + min d.wblots 0xFFFF * 2 ^ 16, d.res0.toNat, d.res1.toNat]

/-- Faults and parity errors of a unit within the last 30 days. -/
def nmuFaults (s : State) (st u : Nat) : Nat :=
  (s.hub.events.filter (fun e => decide (e.unit = oStack (4 + st) 1 u ∧ rtcCount s ≤ e.utc + thirtyDays))).length

/-- NMU_STATUS (Table 10.12). -/
def nmuStatus (s : State) (st u : Nat) : Nat :=
  let x := getNmu s st u
  let held := (x.done.map (fun d => 2 ^ d.rb)).sum
  let run := match x.run with
    | none => 0
    | some r => 2 ^ 31 + 2 ^ 28 * b2n r.blotLatch + 2 ^ 25 * b2n r.even + 2 ^ 24 * b2n r.odd + r.pc % 256 * 2 ^ 16 +
        2 ^ 8 * launchFn r.launch.fn
  run + 2 ^ 30 * b2n x.queued.isSome + 2 ^ 29 * b2n (nmuBad s st u) + held % 4 * 2 ^ 26 + nth 0 x.last 1 % 16 * 2 ^ 4 +
    min (nmuFaults s st u) 15

/-- The programs in a stack's units. -/
def progsOf (s : State) (st : Nat) : List NProg := (kvGet (fun _ => ({} : Attention)) s.atts (st / 2)).progs
/-- Slots that a program takes. -/
def NProg.slots (p : NProg) : Nat := ceilDiv p.words.length 64
/-- Does a unit run or queue a launch of a program? -/
def nmuUses (x : Nmu) (sha : Nat) : Nat :=
  (match x.run with
   | none => 0
   | some r => b2n (decide (r.launch.prog = sha))) +
  (match x.queued with
   | none => 0
   | some l => b2n (decide (l.prog = sha)))
/-- Launches running or queued with a program on a stack. -/
def progUses (s : State) (st sha : Nat) : Nat := ((List.range 256).map (fun u => nmuUses (getNmu s st u) sha)).sum
/-- NMU_SLOTk and NMU_SLOT_IDk. -/
def slotReg (s : State) (st k : Nat) : Nat :=
  match (progsOf s st).find? (fun p => decide (p.first ≤ k ∧ k < p.first + p.slots) && p.valid) with
  | none => 0
  | some p => 2 ^ 31 + (if p.first = k then 2 ^ 30 + 2 ^ 16 * (p.words.length - 1) else 0) + min (progUses s st p.sha) 0xFFFF
def slotId (s : State) (st k : Nat) : Nat :=
  match (progsOf s st).find? (fun p => decide (p.first ≤ k ∧ k < p.first + p.slots) && p.valid) with
  | none => 0
  | some p => p.sha % 2 ^ 32

/-- A register of Tables 10.10 and 10.11 at an offset of a PIM stack's block. -/
def nmuReg (s : State) (st q : Nat) : Word :=
  let raw := rawReg s (mscBlk (4 + st) + q)
  if q = 0x50000 then
    BitVec.ofNat 32 (2 ^ 16 * ((List.range 256).filter (fun u => (getNmu s st u).run.isSome)).length +
      ((List.range 256).filter (fun u => nmuBad s st u)).length)
  else if 0x50200 ≤ q ∧ q < 0x50220 then
    BitVec.ofNat 32 ((List.range 32).map (fun j => b2n (getNmu s st ((q - 0x50200) / 4 * 32 + j)).run.isSome * 2 ^ j)).sum
  else if 0x50300 ≤ q ∧ q < 0x50310 then BitVec.ofNat 32 (slotReg s st ((q - 0x50300) / 4))
  else if 0x50310 ≤ q ∧ q < 0x50320 then BitVec.ofNat 32 (slotId s st ((q - 0x50310) / 4))
  else if 0x80000 ≤ q ∧ q < 0x90000 then
    let u := (q - 0x80000) / 0x100
    let o := q % 0x100
    let x := getNmu s st u
    if o = 0 then BitVec.ofNat 32 (nmuStatus s st u)
    else if 0x40 ≤ o ∧ o < 0x80 then
      (match x.queued with
       | none => 0#32
       | some l => BitVec.ofNat 32 (launchWord l ((o - 0x40) / 4)))
    else if 0x80 ≤ o ∧ o < 0xC0 then
      (match x.run with
       | none => 0#32
       | some r => BitVec.ofNat 32 (launchWord r.launch ((o - 0x80) / 4)))
    else if 0xC0 ≤ o ∧ o < 0xD0 then BitVec.ofNat 32 (nth 0 x.last ((o - 0xC0) / 4))
    else raw
  else raw

/-- ATT_STATUS (Table 11.11): IN_SERVICE is kept in the register. -/
def attStatus (s : State) (d : Nat) : Word :=
  let a : Attention := kvGet (fun _ => ({} : Attention)) s.atts d
  let parts : Nat := (a.decodes.map (fun x => x.partials.length)).sum
  let spill := a.queue.any (fun x => x.filled)
  let r := rawReg s (attBlk d)
  let r := setFld (setFld r 30 1 (b2n (!a.queue.isEmpty))) 29 1 (b2n (decide (0 < parts)))
  setFld (setFld (setFld r 28 1 (b2n spill)) 13 11 (min a.queue.length 2047)) 0 13 (min parts 4096)

end Sys2Proof.Machine
end

