-- ==== Sys2Proof/Machine/Repair.lean ====
section
/-!
DEFINITION. Units declared failed, counted events (R643), lost towers and stacks (R47), and the spare rows of the banks (R353 to R355), with what
an engine's read of a granule that does not decode leaves (R237, R353).
-/
namespace Sys2Proof.Machine

/-- Does hub firmware run, so that what it does can be done (R655, R740)? DEDUCED (log 28): the retirements that wait for it include a cluster's. -/
def firmwareActs (s : State) : Bool := s.hub.running && !s.hub.halted

/-- Something that hub firmware does: now, or held until it runs again (R655). -/
def byFirmware (e : HeldEvent) (act : State → State) (s : State) : State :=
  if firmwareActs s then act s else modHub (fun h => { h with held := h.held ++ [e] }) s

/-! ### Counted events (R643) -/

/-- Count an event of a unit: true when it is the second within 30 days. Events less than 1 s apart count as one. -/
def noteEvent (u : Nat) (s : State) : Bool × State :=
  let t := rtcCount s
  let mine := s.hub.events.filter (fun e => e.unit = u)
  if mine.any (fun e => decide (t < e.utc + 1000000000)) then (false, s)
  else
    (mine.any (fun e => decide (t ≤ e.utc + thirtyDays)),
     modHub (fun h => { h with events := h.events ++ [{ unit := u, utc := t }] }) s)

/-- The key of a failed unit: its soft fuse without SOURCE (Table 16.2). -/
def fuseKey (kind loc : Nat) : Nat := 2 ^ 56 * kind + loc

/-- Declare a unit failed for life: a soft fuse of its kind, unless 1,024 are stored (R674, R675). -/
def softFuse (kind source loc : Nat) (s : State) : State :=
  modHub (fun h => { h with
    soft := if h.soft.length < 1024 then h.soft ++ [2 ^ 56 * kind + 2 ^ 48 * source + loc] else h.soft
    failed := kvPut (fun _ => false) h.failed (fuseKey kind loc) true }) s

/-- Does a fuse or a stored soft fuse name a unit (R673)? -/
def fuseNames (h : Hub) (kind loc : Nat) : Bool :=
  h.fused.contains (fuseKey kind loc) || h.soft.any (fun e => decide (e / 2 ^ 56 = kind ∧ e % 2 ^ 48 = loc))

/-- Is a unit failed for life? -/
def unitFailed (s : State) (kind loc : Nat) : Bool := kvGet (fun _ => false) s.hub.failed (fuseKey kind loc)

/-! ### Out of service and lost units (R47, R648) -/

/-- A cause of R648 arises: the declaration follows at the next tick. -/
def declareOut (cause : Nat) (s : State) : State :=
  if getB s 0x200 31 then s
  else modHub (fun h => if h.outPending then h else { h with outPending := true, outCause := cause }) s

/-- A tower is lost (R47): out of service, cause 2. -/
def towerLost (t : Nat) (s : State) : State :=
  if getB s (twrBlk t) 30 then s
  else declareOut 2 (setB (twrBlk t) 31 false (setB (twrBlk t) 30 true s))

/-- A stack is lost (R47): out of service, cause 3. -/
def stackLost (m : Nat) (s : State) : State :=
  if getB s (mscBlk m) 30 then s
  else declareOut 3 (setB (mscBlk m) 31 false (setB (mscBlk m) 30 true s))

/-! ### Banks (8.1, 8.2) -/

/-- Scratch pieces of a tower in effect. -/
def piecesOf (s : State) (t : Nat) : Nat := (getTower s t).pieces
/-- Is a bank scratch (R331)? -/
def scratchBank (s : State) (t b : Nat) : Bool := decide (b < 128 * piecesOf s t)
/-- Does a bank row lie in the secure region (R332)? -/
def secureRow (s : State) (t b row : Nat) : Bool :=
  decide (b / 128 + 1 = piecesOf s t) && decide (896 ≤ row ∧ row < 1024)
/-- The device address of a granule of a scratch bank row. -/
def bankAddr (t b row g : Nat) : Nat := scratchBase t + bankOffset b row g

/-! ### Spare rows (R353 to R355) -/

/-- The spare row that stands for a row, by its number from 0. -/
def spareOf (s : State) (t b row : Nat) : Option Nat := (kvFind (getTower s t).spares (2048 * b + row)).map (fun v => v - 1)
/-- The row that a spare row stands for. -/
def rowOnSpare (s : State) (t b i : Nat) : Option Nat :=
  ((getTower s t).spares.find? (fun e => decide (e.1 / 2048 = b ∧ e.2 = i + 1))).map (fun e => e.1 % 2048)
/-- Can a spare row of a bank be used: not in use and not unusable? -/
def spareGood (s : State) (t b i : Nat) : Bool :=
  (rowOnSpare s t b i).isNone && !kvGet (fun _ => false) (getTower s t).badSpares (b * 16 + i)
/-- The lowest unused spare row of a bank. -/
def lowestRow (s : State) (t b : Nat) : Option Nat := (List.range 16).find? (spareGood s t b)
/-- Unused spare rows of a bank. -/
def sparesLeft (s : State) (t b : Nat) : Nat := ((List.range 16).filter (spareGood s t b)).length

/-- TWR_REPAIR_COUNT and SPARES_MIN: only banks with a spare used or bad have fewer than 16 left. -/
def showSpares (t : Nat) (s : State) : State :=
  let x := getTower s t
  let banks := x.spares.map (fun e => e.1 / 2048) ++ x.badSpares.map (fun e => e.1 / 16)
  let least := banks.foldl (fun m b => min m (sparesLeft s t b)) 16
  setF (twrBlk t) 8 8 least (setReg (twrBlk t + 0x2010) (BitVec.ofNat 32 x.spares.length) s)

/-- Granules of a row that do not decode are carried into a copy as blotted zeros (R354). -/
def copyRow (t b row : Nat) (s : State) : State :=
  (List.range 8).foldl (fun s g =>
    let d := bankAddr t b row g
    if kvGet (fun _ => false) s.uncorr (d / 64) then
      storeGran d (List.replicate 64 (some 0#8)) true s
    else s) s

/-- A spare row of a bank is unusable from now on. -/
def spoilSpare (t b i : Nat) (s : State) : State :=
  modTower t (fun x => { x with badSpares := kvPut (fun _ => false) x.badSpares (b * 16 + i) true }) s

/-- A row needs a spare: the spare that stood for it is unusable, and the lowest unused one of its bank takes it. Without one the tower is lost. -/
def moveRow (t b row : Nat) (s : State) : State :=
  let s := (spareOf s t b row).elim s (fun i => spoilSpare t b i s)
  match lowestRow s t b with
  | none => showSpares t (towerLost t s)
  | some i =>
    let s := if scratchBank s t b then copyRow t b row s else s
    let s := modTower t (fun x => { x with spares := kvInsert x.spares (2048 * b + row) (i + 1) }) s
    let s := softFuse 4 1 (2 ^ 32 * t + 2 ^ 28 * i + 2 ^ 16 * b + row) s
    let fn := if scratchBank s t b then pieceOwner s (bankAddr t b row 0) else fnDevice
    showSpares t (report 0x202 (oTower t (b % 8) b row) fn (1024 + i) s)

/-- A row of a bank, or one of its spare rows from 1,024 on, is replaced: a spare row that fails is unusable, and the row that it stood for needs
another (R374). -/
def replaceRow (t b row : Nat) (s : State) : State :=
  if row < 1024 then moveRow t b row s
  else
    match rowOnSpare s t b (row - 1024) with
    | some r => moveRow t b r s
    | none => showSpares t (spoilSpare t b (row - 1024) s)

/-- A row event: noted, and at the second within 30 days the row is replaced (R353). -/
def rowEvent (t b row : Nat) (s : State) : State :=
  let s := setReg (twrBlk t + 0x200C) (BitVec.ofNat 32 (2 ^ 31 + 2 ^ 16 * b + row)) s
  let r := noteEvent (oTower t (b % 8) b row) s
  if r.1 then byFirmware (.row t b row) (replaceRow t b row) r.2 else r.2

/-- A read of an address met a bus error: its record, and the row event of a granule of scratch that does not decode (R237, R353). -/
def readError (k : Acc) (a : Nat) (s : State) : State :=
  let t := busError k a s
  match devAddr s k.fn a with
  | none => t
  | some d =>
    match place d with
    | .scratch w o => if undecodable s d && backed s k d then rowEvent w (bankOf o) (bankRow o) t else t
    | _ => t

end Sys2Proof.Machine
end

