-- ==== Sys2Proof/Machine/Crypto.lean ====
section
/-!
DEFINITION. The hash, checksum and signature functions that the spec names: SHA-256 and SHA-384 (FIPS 180-4; R126, R680),
CRC-32 with the IEEE 802.3 polynomial (Table 5.1), and ECDSA P-384 verification (16.5).
-/
namespace Sys2Proof.Machine

/-! ### Numbers as big-endian bytes -/

/-- The big-endian number of a list of bytes. -/
def beNat (l : List Byte) : Nat := l.foldl (fun x b => x * 256 + b.toNat) 0

/-- The `n` big-endian bytes of a number. -/
def beBytes (n x : Nat) : List Byte := (leBytes n x).reverse

/-! ### SHA-2 (FIPS 180-4)

Its constants are fractional bits of roots of the first primes, and are computed as that. -/

/-- The primes below 410: the first 80. -/
def smallPrimes : List Nat :=
  (List.range 410).foldl (fun l n => if n < 2 ∨ l.any (fun p => n % p = 0) = true then l else l ++ [n]) []

/-- The integer root of a degree, found from bit `n - 1` of the root down. -/
def intRoot (degree x : Nat) : Nat → Nat → Nat
  | 0, r => r
  | n + 1, r => intRoot degree x n (if (r + 2 ^ n) ^ degree ≤ x then r + 2 ^ n else r)

/-- The first `w` fractional bits of a prime's root; the roots that SHA-2 takes lie below 8. -/
def rootBits (degree w p : Nat) : Nat := intRoot degree (p * 2 ^ (degree * w)) (w + 3) 0 % 2 ^ w

/-- A member of the family: its rounds, and the amounts of its four mixing functions, the two of the state (rotations) and the two of the message
(rotations, then a shift). -/
structure ShaKind where
  rounds : Nat
  stateA : List Nat
  stateE : List Nat
  early : List Nat × Nat
  late : List Nat × Nat

/-- The exclusive or of some rotations of a word. -/
def rotations {w : Nat} (l : List Nat) (x : BitVec w) : BitVec w := l.foldl (fun y n => y ^^^ x.rotateRight n) 0#w

/-- A mixing function of the message. -/
def stir {w : Nat} (m : List Nat × Nat) (x : BitVec w) : BitVec w := rotations m.1 x ^^^ (x >>> m.2)

/-- What a block's rounds carry: the last four values of each half of the state, and the next sixteen words of the message, each list newest first
but the message, whose next word is first. -/
structure ShaRun (w : Nat) where
  upper : List (BitVec w)
  lower : List (BitVec w)
  words : List (BitVec w)

/-- A round: both halves take a new value, and the message the word that follows its sixteen. -/
def shaTurn {w : Nat} (m : ShaKind) (x : ShaRun w) (k : BitVec w) : ShaRun w :=
  let u := nth 0#w x.upper
  let v := nth 0#w x.lower
  let q := nth 0#w x.words
  let sum := q 0 + k + v 3 + rotations m.stateE (v 0) + (v 2 ^^^ (v 0 &&& (v 1 ^^^ v 2)))
  let fresh := rotations m.stateA (u 0) + ((u 0 &&& u 1) ||| (u 2 &&& (u 0 ||| u 1)))
  { upper := (sum + fresh) :: x.upper.take 3
    lower := (u 3 + sum) :: x.lower.take 3
    words := x.words.drop 1 ++ [q 0 + stir m.early (q 1) + q 9 + stir m.late (q 14)] }

/-- A block's effect on the eight words of a hash. -/
def shaCompress {w : Nat} (m : ShaKind) (hash words : List (BitVec w)) : List (BitVec w) :=
  let ks := (smallPrimes.take m.rounds).map (fun p => BitVec.ofNat w (rootBits 3 w p))
  let r := ks.foldl (shaTurn m) { upper := hash.take 4, lower := hash.drop 4, words := words }
  List.zipWith (fun a b => a + b) hash (r.upper ++ r.lower)

/-- A message with its padding for blocks of 16 words of `n` bytes: a one bit, zeros, and its length in bits in two words. -/
def shaPadded (n : Nat) (msg : List Byte) : List Byte :=
  let zeros := (14 * n - 1 + 16 * n - msg.length % (16 * n)) % (16 * n)
  msg ++ [0x80#8] ++ List.replicate zeros 0#8 ++ beBytes (2 * n) (8 * msg.length)

/-- The hash of a message from an initial hash, with words of `n` bytes. -/
def shaHash (m : ShaKind) (n : Nat) (start : List (BitVec (8 * n))) (msg : List Byte) : List Byte :=
  let body := shaPadded n msg
  let words := (pieces (body.length / n) n body).map (fun p => BitVec.ofNat (8 * n) (beNat p))
  let hash := (pieces (words.length / 16) 16 words).foldl (shaCompress m) start
  hash.flatMap (fun x => beBytes n x.toNat)

/-- SHA-256: 32 bytes; its initial hash comes from the square roots of the first eight primes. -/
def sha256 (msg : List Byte) : List Byte :=
  shaHash { rounds := 64, stateA := [2, 13, 22], stateE := [6, 11, 25], early := ([7, 18], 3), late := ([17, 19], 10) } 4
    ((smallPrimes.take 8).map (fun p => BitVec.ofNat 32 (rootBits 2 32 p))) msg

/-- SHA-384: 48 bytes; its initial hash comes from the square roots of the ninth to sixteenth primes. -/
def sha384 (msg : List Byte) : List Byte :=
  (shaHash { rounds := 80, stateA := [28, 34, 39], stateE := [14, 18, 41], early := ([1, 8], 7), late := ([19, 61], 6) } 8
    (((smallPrimes.drop 8).take 8).map (fun p => BitVec.ofNat 64 (rootBits 2 64 p))) msg).take 48

/-- One bit of CRC-32 with the IEEE 802.3 polynomial, reflected. -/
def crcBit : Nat → BitVec 32 → BitVec 32
  | 0, c => c
  | n + 1, c => crcBit n (if c.toNat % 2 = 1 then (c >>> 1) ^^^ 0xEDB88320#32 else c >>> 1)

/-- CRC-32 of a list of bytes. -/
def crc32 (l : List Byte) : Nat :=
  (~~~ (l.foldl (fun c b => crcBit 8 (c ^^^ BitVec.ofNat 32 b.toNat)) 0xFFFFFFFF#32)).toNat

/-! ### ECDSA over P-384 -/

def p384 : Nat := 2 ^ 384 - 2 ^ 128 - 2 ^ 96 + 2 ^ 32 - 1
def p384N : Nat :=
  0xffffffffffffffffffffffffffffffffffffffffffffffffc7634d81f4372ddf581a0db248b0a77aecec196accc52973
def p384B : Nat :=
  0xb3312fa7e23ee7e4988e056be3f82d19181d9c6efe8141120314088f5013875ac656398d8a2ed19d2a85c8edd3ec2aef
def p384G : Nat × Nat :=
  (0xaa87ca22be8b05378eb1c71ef320ad746e1d3b628ba79b9859f741e082542a385502f25dbf55296c3a545e3872760ab7,
   0x3617de4a96262c6f5d9e98bf9292dc29f8f41dbd289a147ce9da3113b5f0b8c00a60b1ce1d7e819d7a431d7c90ea0e5f)

/-- Modular power over the low `f` bits of the exponent. -/
def powMod : Nat → Nat → Nat → Nat → Nat
  | 0, _, _, m => 1 % m
  | f + 1, x, e, m =>
    let h := powMod f (x * x % m) (e / 2) m
    if e % 2 = 1 then x * h % m else h

/-- Modular inverse by Fermat. -/
def invMod (x m : Nat) : Nat := powMod 384 (x % m) (m - 2) m

/-- Point addition on P-384; none is the point at infinity. -/
def ecAdd : Option (Nat × Nat) → Option (Nat × Nat) → Option (Nat × Nat)
  | none, q => q
  | p, none => p
  | some (x1, y1), some (x2, y2) =>
    if x1 = x2 ∧ (y1 + y2) % p384 = 0 then none
    else
      let l := if x1 = x2 then (3 * x1 * x1 + (p384 - 3)) * invMod (2 * y1) p384 % p384
        else (y2 + p384 - y1) * invMod (x2 + p384 - x1) p384 % p384
      let x := (l * l + 2 * p384 - x1 - x2) % p384
      some (x, (l * (x1 + p384 - x) + p384 - y1) % p384)

/-- Scalar multiplication over the low `f` bits. -/
def ecMul : Nat → Nat → Option (Nat × Nat) → Option (Nat × Nat)
  | 0, _, _ => none
  | f + 1, k, q =>
    let r := ecMul f (k / 2) (ecAdd q q)
    if k % 2 = 1 then ecAdd q r else r

/-- Does the signature (r, s), 48 bytes each and big-endian, verify over the SHA-384 of the message under the public key? -/
def ecdsaVerify (key : Nat × Nat) (msg sig : List Byte) : Bool :=
  let r := beNat (sig.take 48)
  let t := beNat ((sig.drop 48).take 48)
  let onCurve := decide (key.1 < p384) && decide (key.2 < p384) &&
    decide ((key.2 * key.2) % p384 = (key.1 * key.1 * key.1 + (p384 - 3) * key.1 + p384B) % p384)
  if !onCurve || r = 0 || t = 0 || decide (p384N ≤ r) || decide (p384N ≤ t) then false
  else
    let w := invMod t p384N
    let z := beNat (sha384 msg)
    match ecAdd (ecMul 384 (z * w % p384N) (some p384G)) (ecMul 384 (r * w % p384N) (some key)) with
    | none => false
    | some (x, _) => decide (x % p384N = r)

end Sys2Proof.Machine
end

