-- ==== Sys2Proof/Machine/ReedSolomon.lean ====
section
/-!
DEFINITION. Reed-Solomon codes over the fields GF(2^b): arithmetic, the encoder as a division, and a decoder that works on the wrong
symbols of a word. The page code (R388, R389) and the flit code (R538) are two of them.
-/
namespace Sys2Proof.Machine

/-- A code: bits of a symbol, what x^bits reduces to, symbols of a codeword, symbols corrected, and the exponent of the generator's first root. -/
structure RsCode where
  bits : Nat
  red : Nat
  n : Nat
  t : Nat
  first : Nat

/-! ### The field -/

/-- Symbols that are not 0. -/
def RsCode.order (c : RsCode) : Nat := 2 ^ c.bits - 1
/-- Multiplication by α, the element x. -/
def RsCode.dbl (c : RsCode) (a : Nat) : Nat := if 2 ^ (c.bits - 1) ≤ a then (2 * a) % 2 ^ c.bits ^^^ c.red else 2 * a
/-- Product of two symbols, by the bits of the second, low first. -/
def RsCode.mulN (c : RsCode) : Nat → Nat → Nat → Nat
  | 0, _, _ => 0
  | k + 1, a, b => (if b % 2 = 1 then a else 0) ^^^ c.mulN k (c.dbl a) (b / 2)
def RsCode.mul (c : RsCode) (a b : Nat) : Nat := c.mulN c.bits a b
/-- A power of a symbol by its exponent's bits. -/
def RsCode.powN (c : RsCode) : Nat → Nat → Nat → Nat
  | 0, _, _ => 1
  | k + 1, b, e => c.mul (if e % 2 = 1 then b else 1) (c.powN k (c.mul b b) (e / 2))
/-- α to a power, and the inverse of a symbol that is not 0. -/
def RsCode.alpha (c : RsCode) (e : Nat) : Nat := c.powN c.bits 2 (e % c.order)
def RsCode.inv (c : RsCode) (a : Nat) : Nat := c.powN c.bits a (c.order - 1)
/-- A polynomial (lowest degree first) at a point. -/
def RsCode.eval (c : RsCode) (p : List Nat) (x : Nat) : Nat := p.foldr (fun a acc => a ^^^ c.mul x acc) 0
/-- Sum of two polynomials, lowest degree first. -/
def polyAdd : List Nat → List Nat → List Nat
  | [], q => q
  | p, [] => p
  | a :: p, b :: q => (a ^^^ b) :: polyAdd p q

/-! ### The encoder -/

/-- A polynomial (highest degree first) times x + a. -/
def RsCode.mulRoot (c : RsCode) (p : List Nat) (a : Nat) : List Nat :=
  List.zipWith (fun x y => x ^^^ y) (p ++ [0]) (0 :: p.map (fun v => c.mul v a))
/-- The generator: the product of x + α^i over 2t exponents, highest degree first. -/
def RsCode.gen (c : RsCode) : List Nat := (List.range (2 * c.t)).foldl (fun p i => c.mulRoot p (c.alpha (c.first + i))) [1]
/-- One step of the division by g: the next message symbol enters the remainder register (highest degree first). -/
def RsCode.divStep (c : RsCode) (g : List Nat) (r : List Nat) (m : Nat) : List Nat :=
  let f := (r.headD 0) ^^^ m
  List.zipWith (fun x v => x ^^^ c.mul f v) (r.drop 1 ++ [0]) (g.drop 1)
/-- The parity symbols of a message whose first symbol is the coefficient of highest degree. -/
def RsCode.parity (c : RsCode) (msg : List Nat) : List Nat := msg.foldl (c.divStep c.gen) (List.replicate (2 * c.t) 0)

/-! ### The decoder

The code is linear, so what the decoder finds depends on the wrong symbols alone. They are given as (position, value XORed), position s being that
of the codeword's symbol s from its first, the message before the parity. -/

/-- The wrong symbols of a codeword: those inside it, each position once, its values added. -/
def RsCode.errors (c : RsCode) (l : List (Nat × Nat)) : List (Nat × Nat) :=
  (l.filter (fun e => decide (e.1 < c.n))).foldl
    (fun m e => kvPut (fun _ => 0) m e.1 (kvGet (fun _ => 0) m e.1 ^^^ (e.2 % 2 ^ c.bits))) []
/-- The degree that a position has in the codeword. -/
def RsCode.place (c : RsCode) (pos : Nat) : Nat := c.n - 1 - pos
/-- The 2t syndromes. -/
def RsCode.syndromes (c : RsCode) (errs : List (Nat × Nat)) : List Nat :=
  (List.range (2 * c.t)).map (fun i => errs.foldl (fun s e => s ^^^ c.mul e.2 (c.alpha ((c.first + i) * c.place e.1))) 0)

/-- The search for the locator: it, the one before the last change of length with its discrepancy and how long ago it was, and the length. -/
structure Locate where
  c : List Nat
  b : List Nat
  d : Nat
  m : Nat
  len : Nat

/-- The next syndrome is taken in. -/
def RsCode.locateStep (c : RsCode) (syn : List Nat) (x : Locate) (i : Nat) : Locate :=
  let d := (List.range (x.len + 1)).foldl (fun s j => s ^^^ c.mul (nth 0 x.c j) (if j ≤ i then nth 0 syn (i - j) else 0)) 0
  if d = 0 then { x with m := x.m + 1 }
  else
    let p := polyAdd x.c (List.replicate x.m 0 ++ x.b.map (fun v => c.mul (c.mul d (c.inv x.d)) v))
    if 2 * x.len ≤ i then { c := p, b := x.c, d := d, m := 1, len := i + 1 - x.len }
    else { x with c := p, m := x.m + 1 }
def RsCode.locator (c : RsCode) (syn : List Nat) : Locate :=
  (List.range (2 * c.t)).foldl (c.locateStep syn) { c := [1], b := [1], d := 1, m := 1, len := 0 }

/-- What a decode finds: the symbols that it corrected (position and value XORed), with what is still wrong after them (nothing, or the
difference to another codeword); or a report that the word is uncorrectable. -/
inductive Decoded where
  | good (fixed left : List (Nat × Nat))
  | uncorrectable
  deriving DecidableEq, Repr

/-- The value to correct at a root of the locator: e = X^(1 − first) Ω(1/X) / C'(1/X), with Ω = S·C modulo x^2t. -/
def RsCode.valueAt (c : RsCode) (loc syn : List Nat) (pos : Nat) : Nat :=
  let e := c.place pos % c.order
  let inv := c.alpha (c.order - e)
  let omega := (List.range (2 * c.t)).map (fun i => (List.range (i + 1)).foldl (fun s j => s ^^^ c.mul (nth 0 loc j) (nth 0 syn (i - j))) 0)
  let slope := (List.range (loc.length - 1)).map (fun i => if i % 2 = 0 then nth 0 loc (i + 1) else 0)
  c.mul (c.alpha (e + e * (c.order - c.first))) (c.mul (c.eval omega inv) (c.inv (c.eval slope inv)))

/-- The decoder: the locator of the wrong symbols, its roots among the positions, and the values to correct. -/
def RsCode.decode (c : RsCode) (l : List (Nat × Nat)) : Decoded :=
  let errs := c.errors l
  if errs.isEmpty then .good [] []
  else
    let syn := c.syndromes errs
    let x := c.locator syn
    if c.t < x.len then .uncorrectable
    else
      let roots := (List.range c.n).filter (fun p => c.eval x.c (c.alpha (c.order - c.place p % c.order)) = 0)
      if roots.length < x.len then .uncorrectable
      else
        let fixed := roots.map (fun p => (p, c.valueAt x.c syn p))
        .good fixed (c.errors (errs ++ fixed))

end Sys2Proof.Machine
end

