-- ==== Sys2Proof/Machine/Flit.lean ====
section
/-!
DEFINITION. Flits (13.2, 13.3): packets as slots, the flit's bytes, its eight codewords and their place on the lanes, and what a receiver makes
of them.
-/
namespace Sys2Proof.Machine

/-! ### Packets and their slots (Tables 3.4, 13.3 and 13.4) -/

/-- The packet of a header slot and its data slots; a type that the tables do not name is none, as is a tick header whose TYPE or VERSION is
not that of Table 3.4. DESIGN CHOICE (log 10): no rule says what a packet of another type does; it is dropped. -/
def packetOf (slots : List (List Byte × Bool)) : Option Packet :=
  let h := (slots.headD ([], false)).1
  let data := slots.drop 1
  let mk := fun b => some ({ nseq := field h 2 2, src := field h 4 4, body := b } : Packet)
  let ty := field h 0 1
  if ty = 1 ∧ field h 8 2 = 0x0171 then
    let t := h.drop 8
    let fl := field t 2 1
    let org := field t 28 4
    mk (.tick
      { hold := bit fl 0, discord := bit fl 1, forwarded := bit fl 2, leave := bit fl 3, hops := field t 3 1
        pace := field t 4 6, lapIndex := field t 10 4, periodUs := field t 14 2, digest := field t 16 8, sender := field t 24 4
        origin := if bit org 31 then some (bits org 0 18) else none })
  else if ty = 2 then mk (.hurdle (field h 8 2) (decide (field h 10 1 = 1)) (field h 12 4) (field h 16 4))
  else if ty = 3 then
    mk (.coll (field h 8 2) (field h 10 2) (field h 12 1) (field h 16 4) (field h 20 4) (field h 24 8) (field h 32 4)
      (data.flatMap (fun x => x.1)) (data.map (fun x => x.2)))
  else if ty = 4 then
    let m := field h 8 1
    if m = 1 then mk (.ident (field h 12 4) (field h 16 1) (field h 17 1) (field h 18 1) (field h 24 8))
    else if m = 2 then mk (.topo (field h 12 4) (field h 16 2) (decide (field h 18 1 = 1)))
    else if m = 3 then mk .roleReq
    else if m = 4 then mk .roleGrant
    else if m = 5 then mk .roleCancel
    else if m = 6 then mk (.peerLost (field h 12 4))
    else none
  else none

/-- The 32 bytes of a tick header (Table 3.4). -/
def tickBytes (h : TickHeader) : List Byte :=
  [0x71#8, 0x01#8] ++ leBytes 1 (b2n h.hold + 2 * b2n h.discord + 4 * b2n h.forwarded + 8 * b2n h.leave) ++ leBytes 1 h.hops ++
    leBytes 6 h.pace ++ leBytes 4 h.lapIndex ++ leBytes 2 h.periodUs ++ leBytes 8 h.digest ++ leBytes 4 h.sender ++
    leBytes 4 ((h.origin.map (fun c => 2 ^ 31 + c)).getD 0)

/-- PTYPE and BODY of a packet (Table 13.4). -/
def bodyBytes (b : PacketBody) : Nat × List Byte :=
  match b with
  | .tick h => (1, tickBytes h)
  | .hurdle i reset n org => (2, leBytes 2 i ++ leBytes 1 (b2n reset) ++ leBytes 1 0 ++ leBytes 4 n ++ leBytes 4 org)
  | .coll e n phase c step off dest _ _ =>
    (3, leBytes 2 e ++ leBytes 2 n ++ leBytes 1 phase ++ leBytes 3 0 ++ leBytes 4 c ++ leBytes 4 step ++ leBytes 8 off ++ leBytes 4 dest)
  | .ident c p d i serial =>
    (4, leBytes 1 1 ++ leBytes 3 0 ++ leBytes 4 c ++ leBytes 1 p ++ leBytes 1 d ++ leBytes 1 i ++ leBytes 5 0 ++ leBytes 8 serial)
  | .topo r d f => (4, leBytes 1 2 ++ leBytes 3 0 ++ leBytes 4 r ++ leBytes 2 d ++ leBytes 1 (b2n f))
  | .roleReq => (4, leBytes 1 3)
  | .roleGrant => (4, leBytes 1 4)
  | .roleCancel => (4, leBytes 1 5)
  | .peerLost c => (4, leBytes 1 6 ++ leBytes 3 0 ++ leBytes 4 c)

/-- The data slots of a packet with their blot bits: 64 bytes each. -/
def dataSlots (b : PacketBody) : List (List Byte × Bool) :=
  match b with
  | .coll _ _ _ _ _ _ _ d blots => (List.range (d.length / 64)).map (fun i => ((d.drop (64 * i)).take 64, nth false blots i))
  | _ => []

/-- A packet as slots: its header slot and its data slots. -/
def packetSlots (k : Packet) : List (List Byte × Bool) :=
  let b := bodyBytes k.body
  let d := dataSlots k.body
  (padTo 64 (leBytes 1 b.1 ++ leBytes 1 d.length ++ leBytes 2 k.nseq ++ leBytes 4 k.src ++ b.2), false) :: d

/-! ### The flit (R537, R541, R542) -/

/-- The fields of a flit header before its BLOT (Table 13.2). -/
structure FlitHead where
  kind : Nat
  seq : Nat
  ack : Nat
  nak : Bool
  mark : Bool
  offset : Nat
  credit0 : Nat
  credit1 : Nat

/-- A flit's 5,140 bytes. -/
def flitBytes (h : FlitHead) (slots : List (List Byte × Bool)) : List Byte :=
  let head := leBytes 6 (h.kind + h.seq % 1024 * 2 ^ 2 + h.ack % 1024 * 2 ^ 12 + 2 ^ 22 * b2n h.nak + 2 ^ 23 * b2n h.mark +
    h.offset % 512 * 2 ^ 24 + h.credit0 % 64 * 2 ^ 33 + h.credit1 % 128 * 2 ^ 39)
  let blots := leBytes 10 ((List.range 80).map (fun k => b2n (nth ([], false) slots k).2 * 2 ^ k)).sum
  let data := padTo 5120 (slots.flatMap (fun x => padTo 64 x.1))
  head ++ blots ++ leBytes 4 (crc32 (head ++ blots ++ data)) ++ data

/-- The 80 slots of a flit with their blot bits (Table 13.2). -/
def flitSlots (l : List Byte) : List (List Byte × Bool) :=
  let blots := field l 6 10
  (List.range 80).map (fun k => ((l.drop (20 + 64 * k)).take 64, bit blots k))

/-! ### Codewords and lanes (R538, R539)

PRESUMED (log 24): Clause 91's code has the field GF(2^10) on x^10 + x^3 + 1, the generator's roots are α^0 to α^29, the first message symbol is
the coefficient of highest degree, and the parity follows the message with the same order. -/

/-- RS(544,514). -/
def flitCode : RsCode := { bits := 10, red := 0x009, n := 544, t := 15, first := 0 }
/-- The 514 message symbols of codeword w of a flit. -/
def flitMessage (bytes : List Byte) (w : Nat) : List Nat :=
  let n := leNat bytes
  (List.range 514).map (fun i => bits n (5140 * w + 10 * i) 10)
/-- Codeword w of a flit. -/
def flitCodeword (bytes : List Byte) (w : Nat) : List Nat := flitMessage bytes w ++ flitCode.parity (flitMessage bytes w)
/-- The codeword whose symbol i travels on a logical lane, and the lane on which symbol i of a codeword travels. -/
def laneCodeword (lane i : Nat) : Nat := (lane + 8 - i % 8) % 8
def symbolLane (w i : Nat) : Nat := (w + i) % 8
/-- A symbol as five PAM4 symbols, lowest bit pair first. -/
def pam4 (x : Nat) : List Nat := (List.range 5).map (fun i => bits x (2 * i) 2)
/-- A flit on a logical lane: 2,720 PAM4 symbols. -/
def laneStream (words : List (List Nat)) (lane : Nat) : List Nat :=
  (List.range 544).flatMap (fun i => pam4 (nth 0 (nth [] words (laneCodeword lane i)) i))
/-- Logical lanes 0 to 7 on physical lanes: those not marked failed, in ascending order (R535). -/
def physicalLanes (failed : List Nat) : List Nat := ((List.range 9).filter (fun i => !failed.contains i)).take 8
/-- A flit on the wire: each physical lane with what it carries. -/
def flitWire (failed : List Nat) (bytes : List Byte) : List (Nat × List Nat) :=
  let words := (List.range 8).map (flitCodeword bytes)
  (physicalLanes failed).zipIdx.map (fun x => (x.1, laneStream words x.2))

/-! ### What a receiver decodes (R541, R555) -/

/-- What the decoders make of a flit: its bytes, the symbols corrected in each codeword, the codewords that are uncorrectable, and the bits corrected
on each logical lane. -/
structure FlitOut where
  bytes : List Byte
  corrected : List Nat
  uncorrectable : Nat
  laneBits : List Nat

/-- The wrong symbols of codeword w: those that its lanes bring. -/
def codewordErrors (f : FlitIn) (w : Nat) : List (Nat × Nat) :=
  (f.errors.filter (fun e => decide (laneCodeword e.1 e.2.1 = w))).map (fun e => (e.2.1.val, e.2.2))
/-- Message symbols still wrong after a miscorrection, in the bytes. -/
def spoilBytes (bytes : List Byte) (w : Nat) (left : List (Nat × Nat)) : List Byte :=
  if left.isEmpty then bytes
  else
    let m := (left.filter (fun e => decide (e.1 < 514))).foldl (fun m e => m ^^^ e.2 * 2 ^ (5140 * w + 10 * e.1)) 0
    leBytes 5140 (leNat bytes ^^^ m)

/-- The eight decoders. -/
def decodeFlit (f : FlitIn) : FlitOut :=
  let r := (List.range 8).map (fun w => flitCode.decode (codewordErrors f w))
  let fixed := fun (d : Decoded) => match d with
    | .good l _ => l
    | .uncorrectable => []
  let bits := fun (lane : Nat) => (r.zipIdx.map (fun x => ((fixed x.1).map (fun e =>
    if symbolLane x.2 e.1 = lane then popCount 10 e.2 else 0)).sum)).sum
  { bytes := r.zipIdx.foldl (fun b x => match x.1 with
      | .good _ left => spoilBytes b x.2 left
      | .uncorrectable => b) f.bytes
    corrected := r.map (fun d => (fixed d).length)
    uncorrectable := (r.filter (fun d => d = .uncorrectable)).length
    laneBits := (List.range 8).map bits }

/-- Is a flit good (R541)? -/
def flitGood (f : FlitOut) : Bool :=
  decide (f.uncorrectable = 0 ∧ f.bytes.length = 5140) && decide (crc32 (f.bytes.take 16 ++ f.bytes.drop 20) = field f.bytes 16 4)

end Sys2Proof.Machine
end

