-- ==== Sys2Proof/Machine/Links.lean ====
section
/-!
DEFINITION. Fjarlink ports as senders (13.3, 13.4, 13.6): topology and coordinates, packets and their slots, credit, and the VC0 packets of
a neighbour.
-/
namespace Sys2Proof.Machine

/-! ### Topologies (Tables 13.6 and 13.12) -/

def topoKind (s : State) : Nat := getF s 0x600 30 2
/-- Sizes in X, Y and Z; an unused dimension has size 1. -/
def topoSizes (s : State) : List Nat :=
  let k := topoKind s
  let f := fun i => getF s 0x600 (6 * i) 6 + 1
  [if 1 ≤ k then f 0 else 1, if 2 ≤ k then f 1 else 1, if k = 3 then f 2 else 1]
/-- The device's coordinate; coordinates compare as numbers (R97). -/
def ownCoord (s : State) : Nat := getF s 0x604 0 18
/-- The component of a coordinate in a dimension, and a coordinate with it replaced. -/
def coordAt (c i : Nat) : Nat := bits c (6 * i) 6
def coordSet (c i v : Nat) : Nat := setBits c (6 * i) 6 v

/-- The direction code and index that a port serves (Table 13.6). -/
def portDir (kind p : Nat) : Option (Nat × Nat) :=
  if kind = 1 then some (p % 2, p / 2)
  else if kind = 2 then
    ([[0, 4, 6], [1, 7, 10], [2, 5, 8], [3, 9, 11]] : List (List Nat)).zipIdx.findSome?
      (fun (l, d) => (l.idxOf? p).map (fun i => (d, i)))
  else if kind = 3 then some (p % 6, p / 6)
  else none

/-- The coordinate one step in a direction (R558). -/
def stepCoord (s : State) (c dir : Nat) : Nat :=
  let i := dir / 2
  let n := nth 1 (topoSizes s) i
  coordSet c i ((coordAt c i + (if dir % 2 = 0 then 1 else n - 1)) % n)

/-- The neighbour that a port should have: its coordinate, direction code and index (R558). -/
def portPeer (s : State) (p : Nat) : Option (Nat × Nat × Nat) :=
  (portDir (topoKind s) p).map (fun (d, i) => (stepCoord s (ownCoord s) d, if d % 2 = 0 then d + 1 else d - 1, i))

/-- Hops between two coordinates along a dimension, and in all; the hop diameter (R559). -/
def hopsAt (s : State) (a b i : Nat) : Nat :=
  let n := nth 1 (topoSizes s) i
  let d := (coordAt a i + n - coordAt b i) % n
  min d (n - d)
def hops (s : State) (a b : Nat) : Nat := hopsAt s a b 0 + hopsAt s a b 1 + hopsAt s a b 2
def diameter (s : State) : Nat := ((topoSizes s).map (fun n => n / 2)).sum

/-! ### Ports -/

def getPort (s : State) (p : Nat) : Port := kvGet (fun _ => {}) s.ports p
def modPort (p : Nat) (g : Port → Port) (s : State) : State := { s with ports := kvMod (fun _ => {}) s.ports p g }
def inService (s : State) (p : Nat) : Bool := getB s (fjlBlk p) 31
def servicePorts (s : State) : List Nat := (List.range 12).filter (inService s)
/-- STATE of Table 13.11. -/
def portState (s : State) (p : Nat) : Nat := getF s (fjlBlk p) 24 4
/-- The coordinate of a port's peer, from IDENT. -/
def peerOf (s : State) (p : Nat) : Option Nat :=
  if getB s (fjlBlk p + 8) 31 then some (getF s (fjlBlk p + 8) 0 18) else none
/-- Ports in service to a neighbour, and its designated port, the lowest (R546). -/
def portsTo (s : State) (c : Nat) : List Nat := (servicePorts s).filter (fun p => peerOf s p = some c)
def designated (s : State) (c : Nat) : Option Nat := (portsTo s c).head?
/-- The neighbours behind ports in service. -/
def neighbours (s : State) : List Nat := ((servicePorts s).filterMap (peerOf s)).eraseDups
/-- DESIGNATED of every port as R546 has it. -/
def markDesignated (s : State) : State :=
  (List.range 12).foldl (fun s p =>
    setB (fjlBlk p) 29 (match peerOf s p with
      | some c => designated s c == some p
      | none => false) s) s

/-! ### Packets (Tables 13.3 and 13.4) -/

/-- The channel of a packet (R544). -/
def Packet.vc (k : Packet) : Nat :=
  match k.body with
  | .coll .. => 1
  | _ => 0
/-- The slots of a packet: its header and its data slots. -/
def Packet.slots (k : Packet) : Nat :=
  match k.body with
  | .coll _ _ _ _ _ _ _ d _ => 1 + d.length / 64
  | _ => 1

/-- May a port start a packet: room in its replay buffer (R548) and credit for every slot (R545)? -/
def Port.canSend (x : Port) (k : Packet) : Bool :=
  decide (x.sent.length < 64) && decide (k.slots ≤ if k.vc = 0 then x.credit0 else x.credit1)

/-- A flit leaves on a port, with the acknowledgement and the credit that it has to report (Table 13.2). -/
def sendFlit (p kind seq : Nat) (mark : Bool) (offset : Nat) (slots : List (List Byte × Bool)) (s : State) : State :=
  let x := getPort s p
  let h : FlitHead := { kind := kind, seq := seq, ack := x.rxSeq, nak := x.nak, mark := mark, offset := offset,
                        credit0 := min 63 x.freed0, credit1 := min 127 x.freed1 }
  let s := modPort p (fun x => { x with freed0 := x.freed0 - min 63 x.freed0, freed1 := x.freed1 - min 127 x.freed1 }) s
  emit (.flit p (flitWire x.failedTx (flitBytes h slots))) (if kind = 0 then s else addReg (fjlBlk p + 0x14) 1 s)

/-- An IDLE flit: the SEQ of the last DATA flit sent, and slots of zeros (R540, R542). -/
def sendIdle (p : Nat) (mark : Bool) (offset : Nat) (s : State) : State := sendFlit p 0 (getPort s p).txSeq mark offset [] s

/-- A packet leaves on a port in the next DATA flit, which the replay buffer keeps (R548). -/
def sendNow (p : Nat) (k : Packet) (s : State) : State :=
  let s := modPort p (fun x =>
    let q := (x.txSeq + 1) % 1024
    { x with txSeq := q, sent := x.sent ++ [(q, k)], credit0 := if k.vc = 0 then x.credit0 - k.slots else x.credit0
             credit1 := if k.vc = 1 then x.credit1 - k.slots else x.credit1 }) s
  sendFlit p 1 (getPort s p).txSeq false 0 (packetSlots k) s

/-- The packet that a port starts next: the first waiting VC0 packet when it may go, else the first VC1 packet (R544). -/
def Port.nextSend (x : Port) : Option Packet :=
  let first := fun v => (x.waiting.find? (fun k => k.vc = v)).filter x.canSend
  (first 0).orElse (fun _ => first 1)

/-- Remove the first equal packet. -/
def dropPacket (k : Packet) : List Packet → List Packet
  | [] => []
  | y :: r => if y = k then r else y :: dropPacket k r

/-- Send what may go on a port. -/
def pump : Nat → Nat → State → State
  | 0, _, s => s
  | n + 1, p, s =>
    if !inService s p then s
    else
      match (getPort s p).nextSend with
      | none => s
      | some k => pump n p (sendNow p k (modPort p (fun x => { x with waiting := dropPacket k x.waiting }) s))

/-- Hand a packet to a port. -/
def sendOn (p : Nat) (k : Packet) (s : State) : State :=
  let s := modPort p (fun x => { x with waiting := x.waiting ++ [k] }) s
  pump ((getPort s p).waiting.length + 1) p s

/-! ### VC0 (R546) -/

/-- The next NSEQ to a neighbour, and after it. -/
def nextNseq (c : Nat) (s : State) : Nat × State :=
  let n := kvGet (fun _ => 0) s.links.nseqTx c
  (n, { s with links := { s.links with nseqTx := kvPut (fun _ => 0) s.links.nseqTx c ((n + 1) % 65536) } })

/-- Send a VC0 packet to a neighbour on some of its ports: each copy carries the one NSEQ, so that the receiver takes one. -/
def sendVc0 (c : Nat) (ps : List Nat) (b : PacketBody) (s : State) : State :=
  if ps.isEmpty then s
  else
    let r := nextNseq c s
    ps.foldl (fun s p => sendOn p { nseq := r.1, src := ownCoord s, body := b } s) r.2

/-- Send a VC0 packet on one port. -/
def sendPort (p : Nat) (b : PacketBody) (s : State) : State :=
  match peerOf s p with
  | none => s
  | some c => sendVc0 c [p] b s

/-- Send a VC0 packet on every port in service but one (R96, R102, R567, R582). -/
def sendAll (but : Option Nat) (b : PacketBody) (s : State) : State :=
  (neighbours s).foldl (fun s c => sendVc0 c ((portsTo s c).filter (fun p => some p ≠ but)) b s) s

/-! ### Taking packets -/

/-- Slots of a packet that a port's receiver has freed are credited (R545). -/
def returnCredit (p : Nat) (k : Packet) (s : State) : State :=
  sendIdle p false 0 (modPort p (fun x =>
    if k.vc = 0 then { x with freed0 := x.freed0 + k.slots } else { x with freed1 := x.freed1 + k.slots }) s)

/-- Take the VC0 packet at the head of a port's buffer if its body is wanted and it is the next of its neighbour; a duplicate is
discarded (R546). -/
def takeVc0 (p : Nat) (want : PacketBody → Bool) (act : Packet → State → State) (s : State) : State :=
  match (getPort s p).rx0, peerOf s p with
  | k :: r, some c =>
    let e := kvGet (fun _ => 0) s.links.nseqRx c
    let d := (k.nseq + 65536 - e) % 65536
    if !want k.body then s
    else
      let taken := returnCredit p k (modPort p (fun x => { x with rx0 := r }) s)
      if d = 0 then
        act k { taken with links := { taken.links with nseqRx := kvPut (fun _ => 0) taken.links.nseqRx c ((e + 1) % 65536) } }
      else if 32768 ≤ d then taken
      else s
  | _, _ => s

end Sys2Proof.Machine
end

