-- ==== Sys2Proof/Machine/Sync.lean ====
section
/-!
DEFINITION. Replies (4.5), hurdles (5.6), dependency marks (5.5), and the issue and completion of strokes.
-/
namespace Sys2Proof.Machine

/-! ### Completion of a command -/

/-- Drop the first consumed command of a header. -/
def dropCmd (h : CmdHdr) : List Cmd → List Cmd
  | [] => []
  | c :: r => if c.h = h then r else c :: dropCmd h r

/-- Unconsumed entries of a pair's CQ. -/
def cqUsed (p : QPair) : Nat := (p.cqWrite + p.entries - p.cqHead) % p.entries

/-- Would a further reply of this pair find the CQ full (R155)? Replies held before it count. -/
def cqStalls (s : State) (fn pair : Nat) : Bool :=
  match kvFind s.scribe.pairs (8 * fn + pair) with
  | none => false
  | some p =>
    decide (p.entries ≤ cqUsed p + (s.scribe.replies.filter (fun r => r.fn = fn && r.pair = pair && !r.silent)).length + 1)

/-- A command completes: its reply is held for its CQ (R155); NO_REPLY leaves a reply that is not written when
STATUS is OK (Table 4.8). A reply that a full CQ holds counts in VI_CQ_STALL_COUNT. -/
def finish (h : CmdHdr) (op status blots r0 r1 : Nat) (s : State) : State :=
  let r : Reply :=
    { fn := h.fn, pair := h.pair, tag := h.tag.toNat, op := op, status := status,
      blots := min blots 0xFFFFFFFF, r0 := r0, r1 := r1, pace := paceNumber s % 2 ^ 32,
      silent := h.noReply && decide (status = stOk), arrive := h.arrive.map (fun n => n.val) }
  let s := if !r.silent && cqStalls s h.fn h.pair then addReg (viPage h.fn + 0x1C) 1 s else s
  modScribe (fun x => { x with replies := x.replies ++ [r], started := dropCmd h x.started }) s

/-- A command completes with a status alone. -/
def fail (h : CmdHdr) (op status : Nat) (s : State) : State := finish h op status 0 0 0 s

/-! ### Hurdles (R208 to R211) -/

/-- TARGET as it acts: in CYCLE and TOKEN mode 0 acts as 1 (R209). -/
def Hurdle.goal (h : Hurdle) : Nat := if h.mode = 0 then h.target else max h.target 1

/-- Add arrivals; COUNT saturates and saturation sets OVERFLOW (R210). -/
def Hurdle.add (h : Hurdle) (n : Nat) : Hurdle :=
  { h with count := sat32 h.count n, overflow := h.overflow || decide (0xFFFFFFFF < h.count + n) }

/-- The release and generation evaluation: in CYCLE mode, while COUNT ≥ TARGET, COUNT −= TARGET and GEN += 1 (Table 5.9). -/
def Hurdle.eval (h : Hurdle) : Hurdle :=
  if h.mode = 1 then
    { h with count := h.count % h.goal, gen := (h.gen + h.count / h.goal) % 65536 }
  else h

/-- Does a WAIT with expected generation E complete now (Table 5.9)? -/
def Hurdle.released (h : Hurdle) (e : Nat) : Bool :=
  if h.mode = 1 then
    let d := (h.gen + 65536 - e % 65536) % 65536
    decide (1 ≤ d ∧ d ≤ 32767)
  else decide (h.goal ≤ h.count)

/-- What a completed WAIT takes: TARGET in TOKEN mode. -/
def Hurdle.take (h : Hurdle) : Hurdle := if h.mode = 2 then { h with count := h.count - h.goal } else h

/-- One register write among the operations of a cycle (steps 1 and 2 of R211). -/
def Hurdle.op1 (h : Hurdle) : HurdleOp → Hurdle
  | .setTarget v => { h with target := v.toNat }
  | .setMode m l => if m < 3 then { h with mode := m, lapReset := l } else { h with lapReset := l }
  | .reset => h
  | .arrive _ => h

/-- Steps 1 to 4 of R211: writes, RESET, the ARRIVEs summed, the evaluation. -/
def Hurdle.applyOps (h : Hurdle) (ops : List HurdleOp) : Hurdle :=
  let h := ops.foldl Hurdle.op1 h
  let h := if ops.contains .reset then { h with count := 0 } else h
  let n := (ops.map (fun o => match o with
    | .arrive n => n
    | _ => 0)).sum
  (if n = 0 then h else h.add n).eval

/-- The first flight of a runner that waits on a stroke's hurdle is released. -/
def releaseFlight (w : StrokeWord) : List Flight → List Flight
  | [] => []
  | f :: r => if f.word = w ∧ f.waiting then { f with waiting := false } :: r else f :: releaseFlight w r

/-- The first waiting command of a header on a hurdle has its WAIT completed. -/
def releaseCmd (h : CmdHdr) (n : Nat) : List CmdWait → List CmdWait
  | [] => []
  | w :: r => if w.cmd.h = h ∧ w.hurdle = n ∧ w.released = false then { w with released := true } :: r else w :: releaseCmd h n r

/-- A WAIT completes: the runner's SWAIT may complete, and SD takes GEN with FUNC[0] (Table 7.7); a HURDLE_WAIT replies, and a command with WAIT
may start (R214). -/
def completeWait (x : HurdleWait) (gen : Nat) (s : State) : State :=
  match x.cmd with
  | some h =>
    if x.word = 1#128 then modScribe (fun y => { y with waits := releaseCmd h x.hurdle y.waits }) s
    else finish h 0x17 stOk 0 0 0 s
  | none =>
    let s := modRunner x.who (fun r => { r with flight := releaseFlight x.word r.flight }) s
    let f := sFields x.word
    if f.func % 2 = 1 then setSx x.who f.sd (BitVec.ofNat 64 gen) false s else s

/-- The pending WAIT on a hurdle with the lowest requester number that completes now, with the other waits. -/
def nextWait (h : Hurdle) (n : Nat) (l : List HurdleWait) : Option HurdleWait :=
  let c := l.filter (fun x => decide (x.hurdle = n) && h.released x.expect)
  c.foldl (fun (b : Option HurdleWait) x =>
    match b with
    | none => some x
    | some y => if x.who < y.who then some x else some y) none

/-- Remove the first equal wait. -/
def dropWait (x : HurdleWait) : List HurdleWait → List HurdleWait
  | [] => []
  | y :: r => if y = x then r else y :: dropWait x r

/-- Step 5 of R211: complete waits in ascending requester number. -/
def serveWaits : Nat → Nat → State → State
  | 0, _, s => s
  | f + 1, n, s =>
    let h := getHurdle s n
    match nextWait h n s.hwaits with
    | none => s
    | some x =>
      let s := putHurdle n h.take { s with hwaits := dropWait x s.hwaits }
      serveWaits f n (completeWait x h.gen s)

/-- Ports of the mirror tree of a system-scope hurdle (13.8): the follower port, and ports whose far end follows on them. -/
def treePorts (s : State) : List Nat := (servicePorts s).filter (fun p => getB s (fjlBlk p) 30 || (getPort s p).follows)

/-- Entries of the collective table that a hurdle triggers are released once for each generation (R575, R577). -/
def releaseColl (n times : Nat) (s : State) : State :=
  let hit := (s.coll.entries.zipIdx.filter (fun (e, _) => decide (e.trigger = n))).map (fun (_, i) => i)
  { s with coll := { s.coll with released := s.coll.released ++ (List.range times).flatMap (fun _ => hit) } }

/-- One cycle of a hurdle's operations (R211): apply them, record a new overflow (R210), release collectives, and serve the waits. -/
def hurdleCycle (n : Nat) (ops : List HurdleOp) (s : State) : State :=
  let h := getHurdle s n
  let h' := h.applyOps ops
  let hit := ops.any (fun o => match o with
    | .arrive _ => true
    | _ => false)
  let met := hit && decide (0xFFFFFFFF < (if ops.contains .reset then 0 else h.count) +
    (ops.map (fun o => match o with
      | .arrive k => k
      | _ => 0)).sum)
  let s := putHurdle n h' s
  let s := if met then report 0x108 (oHurdle n) (hurdleOwner s n) 0 s else s
  let s := if h.gen = h'.gen then s else releaseColl n ((h'.gen + 65536 - h.gen) % 65536) s
  serveWaits (s.hwaits.length + 1) n s

/-- Send a system-scope operation as a HURDLE packet on every tree port but one (R572). A tree port carries the packet to a neighbour
on its designated port (R546). -/
def mirror (n : Nat) (reset : Bool) (count org : Nat) (but : Option Nat) (s : State) : State :=
  let skip := but.bind (peerOf s)
  let cs := ((treePorts s).filterMap (peerOf s)).eraseDups.filter (fun c => some c ≠ skip)
  cs.foldl (fun s c => sendVc0 c (designated s c).toList (.hurdle (n - 7680) reset count org) s) s

/-- ARRIVE(n) made on this device (R215: a system-scope one is mirrored). -/
def arrive (n count : Nat) (s : State) : State :=
  let s := hurdleCycle n [.arrive count] s
  if n < 7680 then s else mirror n false count (ownCoord s) none s

/-- RESET made on this device. -/
def hurdleReset (n : Nat) (s : State) : State :=
  let s := hurdleCycle n [.reset] s
  if n < 7680 then s else mirror n true 0 (ownCoord s) none s

/-- The absolute index of a relative index with its scope bit for a function (R213); none is a bus error. -/
def hurdleIdx (s : State) (f idx : Nat) : Option Nat :=
  if bit idx 15 then
    if idx % 2 ^ 15 < 512 ∧ holdsSystem s f then some (7680 + idx % 2 ^ 15) else none
  else if f = 0 then (if idx < 7680 then some idx else none)
  else
    let v := rawReg s (viPage f + 0x10)
    if idx < fld v 16 16 then some (fld v 0 16 + idx) else none

/-- May a function's commands name this absolute hurdle (R158)? -/
def hurdleAllowed (s : State) (f n : Nat) : Bool :=
  if n < 7680 then decide (hurdleOwner s n = f) else decide (n < 8192) && holdsSystem s f

/-! ### Dependency marks (R201 to R205) -/

def mark (s : State) (c m : Nat) : Nat := kvGet (fun _ => 0) (getCluster s c).marks m
def setMark (c m v : Nat) (s : State) : State :=
  modCluster c (fun x => { x with marks := kvPut (fun _ => 0) x.marks m v }) s

/-- The function that owns a cluster, for a record's FUNCTION (R634, R138). -/
def clusterFn (s : State) (c : Nat) : Nat :=
  ((firstBelow 64 (fun i => (viClusters s (i + 1)).testBit c)).map (fun i => i + 1)).getD 0

/-- A signal: one beyond 4,095 leaves the mark, records MARK_OVERFLOW and blots the cluster's writes (R203, R205). -/
def signalMark (c m : Nat) (s : State) : State :=
  if mark s c m < 4095 then setMark c m (mark s c m + 1) s
  else report 0x105 (oCluster c) (clusterFn s c) m (modCluster c (fun x => { x with blotAll := true }) s)

/-! ### Trace (R741) and issue counters (Table 18.6) -/

/-- Master index of a physical core (R377). -/
def masterIdx (s : State) (k : Nat) : Nat :=
  let p := physCore s (noCluster k) (noKind k) (noCore k)
  if noKind k = 0 then p else if noKind k = 1 then 18 + p else 27 + p

/-- MCLK cycles of a cluster since its first issue in the lap: m edges in each 16 ns frame (R26). -/
def cyclesNow (s : State) (c : Nat) : Nat :=
  min ((s.now - (getCluster s c).firstIssue) * getF s (vfBlk c) 8 6 / 16) 0xFFFFFF

/-- The WAIT and CAUSE of a trace entry from what a stroke waited for: cycles in all, saturating, and the cause of the last (Table 18.5). -/
def waitWord (l : List (Nat × Nat)) : Nat :=
  min 0xFFFFFF ((l.map (fun x => x.2)).sum) + 2 ^ 24 * (((l.filter (fun x => decide (0 < x.2))).getLast?.map (fun x => x.1)).getD 0)

/-- The wait counter of a cause, as a number from CLU_PERF_MARK_WAIT (Table 18.6); causes 0 and 7 have none. -/
def waitCounter (cause : Nat) : Option Nat :=
  if cause = 1 then some 0 else if cause = 2 then some 1 else if cause = 3 ∨ cause = 4 then some 2
  else if cause = 5 then some 3 else if cause = 6 then some 4 else none

/-- What a stroke waited for is counted for its cluster (R743). -/
def countWaits (c : Nat) (l : List (Nat × Nat)) (s : State) : State :=
  l.foldl (fun s x => (waitCounter x.1).elim s (fun n => addReg (cluBlk c + 0x80214 + 4 * n) x.2 s)) s

/-- Record a trace entry of kind 0 issue, 1 completion, 2 relay firing or 3 skip (Table 18.5), as its four words. -/
def trace (k kind : Nat) (w : StrokeWord) (wrote : Bool) (s : State) : State :=
  let c := noCluster k
  let ctl := rawReg s (cluBlk c + 0x80000)
  let n := masterIdx s k
  let fill := cluBlk c + 0x80100 + 4 * n
  if !(fld ctl 31 1 == 1) || !(getCluster s c).traceOn || (fld ctl 30 1 == 0 && !sTrace w) then s
  else
    let old := kvGet (fun _ => []) (getCluster s c).traces n
    let lap := match jobOf s c with
      | some j => j.next - 1
      | none => 0
    let e := [cyclesNow s c + 2 ^ 24 * noRunner k + 2 ^ 27 * b2n (getCluster s c).free +
      2 ^ 28 * b2n ((getRunner s k).latch || wrote) + 2 ^ 29 * kind,
      lap, w.toNat % 2 ^ 32, if kind = 0 then waitWord (getRunner s k).waited else 0]
    if old.length < 256 then
      let s := modCluster c (fun x => { x with traces := kvPut (fun _ => []) x.traces n (old ++ [e]) }) s
      setF fill 0 9 (old.length + 1) s
    else if fld ctl 29 1 = 1 then
      modCluster c (fun x => { x with traces := kvPut (fun _ => []) x.traces n (old.drop 1 ++ [e]) }) s
    else setB fill 31 true s

/-! ### Issue (R197 to R204) -/

/-- The stroke at the head of a runner: of its loop body, or of its queue. -/
def headOf (r : Runner) : Option StrokeWord :=
  match r.loop with
  | some l => l.rest.head?
  | none => r.queue.head?

/-- Move a loop on when its pass has ended: the next pass writes its index to SD (R318), the last pass ends the loop. -/
def loopTurn (k : Nat) (s : State) : State :=
  match (getRunner s k).loop with
  | none => s
  | some l =>
    if !l.rest.isEmpty then s
    else if l.passes ≤ 1 then modRunner k (fun r => { r with loop := none }) s
    else
      let s := modRunner k (fun r =>
        { r with loop := some { l with rest := l.body, passes := l.passes - 1, index := l.index + 1 } }) s
      setSx k l.sd (BitVec.ofNat 64 (l.index + 1)) false s

/-- Take the head stroke off a runner. -/
def popHead (k : Nat) (s : State) : State :=
  loopTurn k (modRunner k (fun r =>
    match r.loop with
    | some l => { r with loop := some { l with rest := l.rest.drop 1 } }
    | none => { r with queue := r.queue.drop 1 }) s)

/-- Skip the strokes that a skip still passes over (R207): each takes its wait mark and gives its signal mark as if it had
issued and completed at once; a LAP_END or RELAY stroke ends the skip. -/
def settleSkip : Nat → Nat → State → State
  | 0, _, s => s
  | f + 1, k, s =>
    let r := getRunner s k
    if r.skip = 0 then s
    else
      match headOf r with
      | none => s
      | some w =>
        if isLapEnd w || sRelay w then modRunner k (fun r => { r with skip := 0 }) s
        else if sWaitEn w && decide (mark s (noCluster k) (sWait w) = 0) then s
        else
          let c := noCluster k
          let s := if sWaitEn w then setMark c (sWait w) (mark s c (sWait w) - 1) s else s
          let s := trace k 3 w false s
          let s := popHead k (modRunner k (fun r => { r with skip := r.skip - 1 }) s)
          settleSkip f k (if sSignalEn w then signalMark c (sSignal w) s else s)

/-- Is a runner's cluster issuing: powered, past its first issue, its job's lap running (R90, R104, R111)? -/
def issuing (s : State) (c : Nat) : Bool :=
  (getCluster s c).started && ((jobOf s c).map (fun j => j.running)).getD false

/-- May this stroke issue on this runner (R198): it is the head, no skip is open, FENCE and WAIT_EN are met? A relay stage
issues only by RELAY_FIRE (R222). -/
def ready (k : Nat) (w : StrokeWord) (s : State) : Bool :=
  let r := getRunner s k
  issuing s (noCluster k) && r.busy && decide (r.skip = 0) && decide (headOf r = some w) &&
    (!sFence w || r.flight.isEmpty) &&
    (!sWaitEn w || decide (0 < mark s (noCluster k) (sWait w)))

/-! ### Lines of stack memory (R361, R362, R364) -/

/-- The state of a line in a tower: 0 Invalid, 1 Shared, 2 Exclusive, 3 Modified (R362). -/
def lineOf (s : State) (t line : Nat) : Nat := kvGet (fun _ => 0) (getTower s t).lines line
def setLine (t line v : Nat) (s : State) : State := modTower t (fun x => { x with lines := kvPut (fun _ => 0) x.lines line v }) s

/-- A requester of a cluster touches a granule at a device address: a line of stack memory enters the tower's stack cache, for a write with
ownership. -/
def noteLine (c : Nat) (write : Bool) (d : Nat) (s : State) : State :=
  let add := fun (line : Nat) => modCluster c (fun x =>
    if x.lines.contains (line, write) then x else { x with lines := x.lines ++ [(line, write)] }) s
  match place d with
  | .plain _ => add (d / 512)
  | .pim _ => add (d / 512)
  | _ => s

/-- Of the lines that a stroke or transfer touched, those that the tower's stack cache does not hold as it needs; none without a stack cache
(R334). -/
def linesOwed (s : State) (c : Nat) : List (Nat × Bool) :=
  if (getTower s (c / 4)).pieces = 12 then []
  else (getCluster s c).lines.filter (fun e => decide (lineOf s (c / 4) e.1 < (if e.2 then 2 else 1)))

/-- The touched lines are settled: an Exclusive one that was written is Modified. -/
def settleLines (c : Nat) (s : State) : State :=
  let l := (getCluster s c).lines
  let s := l.foldl (fun s e => if e.2 && decide (lineOf s (c / 4) e.1 = 2) then setLine (c / 4) e.1 3 s else s) s
  if l.isEmpty then s else modCluster c (fun x => { x with lines := [] }) s

/-- Offset of the cluster's count of strokes issued by the runner's core kind. -/
def issueCounter (k : Nat) : Nat := cluBlk (noCluster k) + 0x80208 + 4 * noKind k

/-- What a runner's stroke waited for, as it issues. -/
def noteWaits (k : Nat) (l : List (Fin 8 × Nat)) (s : State) : State :=
  modRunner k (fun r => { r with waited := l.map (fun x => (x.1.val, x.2)) }) s

/-- A cycle of this lap has not been as in a run without power actions: FREE is set in what follows (Table 18.5). DEDUCED (log 29): which events those are. -/
def markFree (c : Nat) (s : State) : State := modCluster c (fun x => { x with free := true }) s

/-- A stroke issues: it leaves the head, takes its wait mark, is traced and counted with its waits, has its effect, and is in flight until it
completes; its runner is the one that issued last on its core (R199). A pass that issues while the cluster ramps holds (R112, R248). -/
def launchStroke (k : Nat) (w : StrokeWord) (o : StrokeOut) : State :=
  let c := noCluster k
  let s := if sWaitEn w then setMark c (sWait w) (mark o.s c (sWait w) - 1) o.s else o.s
  let s := addReg (issueCounter k) 1 (trace k 0 w (decide (0 < o.blots)) s)
  let s := countWaits c (getRunner s k).waited s
  let s := if isOp w 0 0x20 && decide ((getCluster s c).ramp < 32) then markFree c s else s
  let s := noteBlots c o.blots (if o.busErr then noteBusErr c s else s)
  let wrote := decide (0 < o.blots)
  let fl : Flight := ⟨w, o.waiting, o.transfers, o.busErr, o.chan, wrote, o.rows, o.landing, linesOwed s c⟩
  let s := settleLines c s
  let s := modCluster c (fun x => { x with lastIssue := kvPut (fun _ => 0) x.lastIssue (coreNo k) (noRunner k + 1) }) s
  modRunner k (fun r => { r with flight := r.flight ++ [fl], waited := [] }) (bumpFree s)

/-- Issue a stroke with its effect; a stroke that is not ready, or whose effect stalls, changes nothing. -/
def issue (r : RunnerRef) (w : StrokeWord) (eff : Nat → StrokeWord → State → Option StrokeOut) (s : State) : State :=
  let k := refNo r
  if ready k w s && !sRelay w then
    match eff k w s with
    | none => s
    | some o => settleSkip 256 k (launchStroke k w { o with s := popHead k (noteWaits k r.waited o.s) })
  else s

/-- An effect that never stalls, starts nothing and meets no bus error. -/
def plainEffect (f : Nat → StrokeWord → State → State) (k : Nat) (w : StrokeWord) (s : State) : Option StrokeOut :=
  some { s := f k w s }

end Sys2Proof.Machine
end

