-- ==== Sys2Proof/Machine/Access.lean ====
section
/-!
DEFINITION. Register access (2.4) and the apertures (2.5): what a read of a register returns, what a write does by
its access code, the latch of _HI, BAR2, the Resizable BAR and VF Enable.
-/
namespace Sys2Proof.Machine

/-! ### Reading -/

/-- Records of a kind among the closed and the open ones (Table 15.11). -/
def openRecs (s : State) : Nat := (s.recs.filter (fun r => !r.closed)).length
def unreadAf (s : State) : Nat := (s.recs.filter (fun r => r.closed && !r.readAf)).length
/-- Is an ERROR or FATAL record unread by the AF (R664)? -/
def severeUnread (s : State) : Bool := s.recs.any (fun r => decide (2 ≤ r.sev) && !r.readAf)

/-- Is ALERT_N asserted (R664): a throttle or critical threshold, the cooling warning, forced PF or cap forcing? -/
def alertAsserted (s : State) : Bool :=
  getB s 0x32000 31 || getB s 0x32000 30 || getB s 0x32000 29 || getB s pwrBlk 31 || getB s pwrBlk 29

/-- BLT_STATUS with its counts (Table 15.11). FAULT_N also stands while the device is out of service (R664). -/
def bltStatus (s : State) : Word :=
  let r := rawReg s bltBlk
  let r := setFld r 31 1 (b2n (severeUnread s || getB s 0x200 31))
  let r := setFld r 30 1 (b2n (alertAsserted s))
  let r := setFld r 29 1 (b2n (severeUnread s))
  setFld (setFld r 16 13 (openRecs s)) 0 13 (unreadAf s)

/-- A hurdle's register (Tables 5.11 to 5.13): 0 HDL_COUNT, 1 HDL_TARGET, 2 HDL_MODE, 3 HDL_CTRL. -/
def hurdleReg (s : State) (n i : Nat) : Word :=
  let h := getHurdle s n
  if i = 0 then BitVec.ofNat 32 h.count
  else if i = 1 then BitVec.ofNat 32 h.target
  else if i = 2 then
    BitVec.ofNat 32 (2 ^ 31 * b2n (decide (h.mode ≠ 1 ∧ h.goal ≤ h.count)) + 2 ^ 30 * b2n (decide (7680 ≤ n)) +
      2 ^ 29 * b2n h.overflow + 2 ^ 8 * h.gen + b2n h.lapReset * 8 + h.mode)
  else 0#32

/-- The logical index that maps to a physical core, from CLU_MMAPn and CLU_VMAP. -/
def logicalOf (s : State) (c kind phys : Nat) : Option Nat :=
  (List.range (if kind = 0 then 16 else if kind = 1 then 8 else 4)).find? (fun i => physCore s c kind i = phys)

/-- Counted events of a unit within the last 30 days (15.3). -/
def events30d (s : State) (u : Nat) : Nat :=
  (s.hub.events.filter (fun e => decide (e.unit = u ∧ rtcCount s ≤ e.utc + thirtyDays))).length

/-- The unit of a V-core opcode (Table 7.5): 1 VXU, 2 VRU, 3 VMU, 0 another. -/
def vUnitOf (op : Nat) : Nat :=
  if 0x20 ≤ op ∧ op < 0x30 then 1 else if 0x30 ≤ op ∧ op < 0x40 then 2 else if 0x40 ≤ op ∧ op < 0x50 then 3 else 0

/-- Strokes in flight on a logical core, by their opcodes. -/
def flightOps (s : State) (c kind core : Nat) : List Nat :=
  (List.range 8).flatMap (fun r => (getRunner s (runnerNo c kind core r)).flight.map (fun f => sf f.word 0 10))

/-- Is a stroke of one of these opcodes in flight on the logical core at a physical core? -/
def coreDoing (s : State) (c kind phys : Nat) (ops : Nat → Bool) : Nat :=
  b2n (match logicalOf s c kind phys with
    | some i => (flightOps s c kind i).any ops
    | none => false)

/-- A core's STATUS with its derived fields (Tables 6.17, 7.10 and 7.11): units busy, SPARE (a good core without a
logical identifier), events within 30 days, and LOGICAL. -/
def coreStatus (s : State) (c kind phys off : Nat) : Word :=
  let r := rawReg s off
  let ev := events30d s (oCore c kind phys 0) % 256
  if kind = 2 then
    let on := fun (p : Runner → Bool) =>
      ((List.range 4).map (fun i => b2n (p (getRunner s (runnerNo c 2 phys i))) * 2 ^ i)).sum
    let n := (s.xfers.filter (fun x => noCluster x.runner = c && noKind x.runner = 2 && noCore x.runner = phys)).length
    let r := setFld (setFld r 31 1 (b2n (decide (0 < n)))) 16 8 ev
    setFld (setFld (setFld r 12 4 (on (fun x => x.latch))) 8 4 (on (fun x => x.loop.isSome))) 4 4 n
  else
    let w := if kind = 0 then 5 else 4
    let r := setFld r 8 8 ev
    let r :=
      if kind = 0 then
        let r := setFld r 31 1 (coreDoing s c 0 phys (fun o => o = 0x20))
        let r := setFld r 30 1 (coreDoing s c 0 phys (fun o => [0x10, 0x11, 0x30].contains o))
        setFld r 29 1 (coreDoing s c 0 phys (fun o => o = 0x40))
      else
        let r := setFld r 31 1 (coreDoing s c 1 phys (fun o => decide (o / 256 = 1 ∧ vUnitOf (o % 256) = 1)))
        let r := setFld r 30 1 (coreDoing s c 1 phys (fun o => decide (o / 256 = 1 ∧ vUnitOf (o % 256) = 2)))
        setFld r 29 1 (coreDoing s c 1 phys (fun o => decide (o / 256 = 1 ∧ vUnitOf (o % 256) = 3)))
    match logicalOf s c kind phys with
    | some i => setFld (setFld r 27 1 0) 0 w i
    | none => setFld (setFld r 27 1 (b2n (!(fld r 28 1 == 1)))) 0 w 0x1F

/-- A word of a trace buffer (Table 18.6): four words to an entry, oldest first. -/
def traceWord (s : State) (c n i : Nat) : Word :=
  BitVec.ofNat 32 (nth 0 (nth [] (kvGet (fun _ => []) (getCluster s c).traces n) (i / 4)) (i % 4))

/-- The key of a trim: m, lane and group. -/
def trimKey (m lane group : Nat) : Nat := (m % 32 * 8 + lane) * 32 + group
/-- The trim store's word where all 64 delay codes pass: MARGIN 64 and the lower of the two codes at the centre (R337). -/
def fullTrim : Nat := 64 * 256 + 31

/-- TWR_TRIM_DATA: the trim that TWR_TRIM_SEL selects (Table 8.15). -/
def trimData (s : State) (t : Nat) : Word :=
  let v := rawReg s (twrBlk t + 0x10040)
  BitVec.ofNat 32 (kvGet (fun _ => fullTrim) (getTower s t).trims (trimKey (fld v 16 5) (fld v 8 3) (fld v 0 5)))

/-- TWR_BANK_PWRn: the states of its banks (Table 8.13); a bank on its way to ON reads ON. -/
def bankPwrWord (s : State) (t n : Nat) : Word :=
  let x := getTower s t
  (List.range 16).foldl (fun w j =>
    let b := 16 * n + j
    setFld w (2 * j) 2 (if kvGet (fun _ => 0) x.target b = 1 then 0 else kvGet (fun _ => 0) x.power b)) 0#32

/-- TWR_MARCH_STATUS: while a march runs, PROGRESS is a free value up to the banks of its range (Table 8.17, log 35). -/
def marchStatus (s : State) (t : Nat) : Word :=
  let w := rawReg s (twrBlk t + 0x20008)
  match (getTower s t).march with
  | none => w
  | some m => setFld w 0 11 ((Config.freeValue s.frees).toNat % (min m.banks 1536 + 1))

/-- A tower block register by its offset in the block. -/
def towerReg (s : State) (t q : Nat) : Word :=
  if q = 0x10044 then trimData s t
  else if 0x1000 ≤ q ∧ q < 0x1180 ∧ q % 4 = 0 then bankPwrWord s t ((q - 0x1000) / 4)
  else if q = 0x20008 then marchStatus s t
  else rawReg s (twrBlk t + q)

/-- COL_STATUS: ARMED, firings in progress and entries armed (Table 13.13). -/
def colStatus (s : State) : Word :=
  let n := s.coll.entries.length
  BitVec.ofNat 32 (2 ^ 31 * b2n (decide (0 < n)) + s.coll.firings.length % 8 * 2 ^ 28 + n % 512 * 2 ^ 16)

/-- What a register of the window reads as, where the value is not kept as such. -/
def readReg (s : State) (o : Nat) : Word :=
  if o = 0x200 then shapeStatus s
  else if o = 0x40C then setFld (setFld (rawReg s o) 27 1 (b2n (systemLoaded s))) 31 1 (b2n (getB s 0x400 0))
  else if o = 0x704 then
    let r := setFld (rawReg s o) 16 8 (s.hub.expiries.filter (fun t => rtcCount s < t + 3600000000000)).length
    setFld r 0 16 (if s.hub.running then min ((s.now - s.hub.lastKick) / 1000000) 0xFFFF else 0)
  else if o = 0x720 then BitVec.ofNat 32 (utcNow s)
  else if o = 0x724 then BitVec.ofNat 32 (utcNow s >>> 32)
  else if o = 0x728 then BitVec.ofNat 32 (s.hub.lifeClock)
  else if o = 0x72C then BitVec.ofNat 32 (s.hub.lifeClock >>> 32)
  else if 0x58000 ≤ o ∧ o < 0x5A000 then
    let e := nth 0 s.hub.soft ((o - 0x58000) / 8)
    BitVec.ofNat 32 (if o % 8 = 0 then e else e >>> 32)
  else if o = bltBlk then bltStatus s
  else if o = scribeBlk then viStatus s 0
  else if o = scribeBlk + 8 ∨ o = scribeBlk + 12 then
    BitVec.ofNat 32 (((ownedClusters s 0).map (fun c => 2 ^ c)).sum >>> (8 * (o % 8)))
  else if 0x00100000 ≤ o ∧ o < 0x00500000 ∧ o % 0x10000 = 0 then viStatus s ((o - 0x00100000) / 0x10000 + 1)
  else if (0x00100000 ≤ o ∧ o < 0x00500000 ∨ scribeBlk ≤ o ∧ o < scribeBlk + 0x1000) ∧ 0x60 ≤ o % 0x10000 ∧ o % 0x10000 < 0x80 then
    let f := if o < 0x00100000 then 0 else (o - 0x00100000) / 0x10000 + 1
    BitVec.ofNat 32 (((kvFind s.scribe.pairs (8 * f + (o % 0x10000 - 0x60) / 4)).map (fun p => p.head)).getD 0)
  else if hdlBlk ≤ o ∧ o < hdlBlk + 0x20000 then hurdleReg s ((o - hdlBlk) / 16) (o % 16 / 4)
  else if 0x40000000 ≤ o ∧ o < 0x50000000 then towerReg s ((o - 0x40000000) / 0x01000000) (o % 0x01000000)
  else if 0x64000000 ≤ o ∧ o < 0x68000000 then nmuReg s ((o - 0x64000000) / 0x01000000) (o % 0x01000000)
  else if o = pwrBlk then pwrStatus s
  else if o = pwrBlk + 0x2000 then thmStatus s
  else if o = colBlk 0 ∨ o = colBlk 1 then colStatus s
  else if o = attBlk 0 then attStatus s 0
  else if o = attBlk 1 then attStatus s 1
  else if 0x80000000 ≤ o ∧ o < 0x84000000 then
    let c := (o - 0x80000000) / 0x100000
    let q := o % 0x100000
    if 0x10000 ≤ q ∧ q < 0x22000 ∧ q % 0x1000 = 0 then coreStatus s c 0 ((q - 0x10000) / 0x1000) o
    else if 0x30000 ≤ q ∧ q < 0x39000 ∧ q % 0x1000 = 0 then coreStatus s c 1 ((q - 0x30000) / 0x1000) o
    else if 0x40000 ≤ q ∧ q < 0x44000 ∧ q % 0x1000 = 0 then coreStatus s c 2 ((q - 0x40000) / 0x1000) o
    else if q = 0x50000 then vfStatus s c
    else if q = 0x5000C then BitVec.ofNat 32 (lowestStep s c)
    else if 0x90000 ≤ q ∧ q < 0xAF000 then traceWord s c ((q - 0x90000) / 0x1000) (q % 0x1000 / 4)
    else rawReg s o
  else rawReg s o

/-! ### Requesters -/

/-- The number by which latches name a requester, and the function its records carry. -/
def reqNo : Requester → Nat
  | .af => 0
  | .vi n => n.val + 1
  | .jtag => 66
  | .hub => 65
def reqFn : Requester → Nat
  | .af => 0
  | .vi n => n.val + 1
  | .jtag => fnDevice
  | .hub => fnDevice
/-- The origin of a register access that is a bus error: Scribe for the host's (R634 names the requester; the host
has no origin of its own), the device for JTAG, the hub for firmware (DESIGN CHOICE, log 51). -/
def reqOrigin : Requester → Nat
  | .af => oEngine 4 0
  | .vi _ => oEngine 4 0
  | .jtag => oDevice
  | .hub => oHub 0 0

/-- The window offset that an address of a requester reaches: through BAR0 for functions (R74, R77), directly for others;
none lies outside the BAR. -/
def windowOff (s : State) (q : Requester) (a : Nat) : Option Nat :=
  match q with
  | .af =>
    if a < 0x2000000 then some a
    else if a < 0x4000000 then some ((getF s 0x10 25 7 * 0x2000000 + (a - 0x2000000)) % 2 ^ 32)
    else none
  | .vi n => if a < 0x10000 then some (viPage (n.val + 1) + a) else none
  | .jtag => if a < 2 ^ 32 then some a else none
  | .hub => if a < 2 ^ 32 then some a else none

/-- A register access that is a bus error (R52, R76, R239): a record, no other effect; a host read completes with
Unsupported Request. -/
def regBusError (q : Requester) (a : Nat) (read : Bool) (s : State) : State :=
  let s := report 0x20A (reqOrigin q) (reqFn q) a s
  if read && decide (reqNo q < 65) then emit (.unsupportedRequest (reqFn q)) s else s

/-! ### The 64-bit latch (R65) -/

/-- Is this register the _LO of a pair? -/
def isLo (o : Nat) : Bool :=
  [0x204, 0x20C, 0x214, 0x410, 0x41C, 0x70C, 0x714, 0x720, 0x728, 0x40004].contains o ||
  (decide (rtBlk ≤ o ∧ o < rtBlk + 0x10000 ∧ o % 8 = 0)) ||
  (decide (0x58000 ≤ o ∧ o < 0x5A000 ∧ o % 8 = 0)) ||
  ((decide (scribeBlk ≤ o ∧ o < scribeBlk + 0x1000) || decide (0x00100000 ≤ o ∧ o < 0x00500000)) &&
    [0x8, 0x80, 0x88].contains (o % 0x10000)) ||
  (decide (0x60000000 ≤ o ∧ o < 0x68000000 ∧ 0x3000 ≤ o % 0x01000000 ∧ o % 0x01000000 < 0x3100 ∧ o % 8 = 0)) ||
  decide (o = 0x18)

/-- The key of a latch: requester and offset of the _HI register. -/
def latchKey (q : Requester) (hi : Nat) : Nat := 2 ^ 32 * reqNo q + hi

/-- What a requester's read of a register returns, and the latches after it: a read of _LO latches _HI, and the next read of
that _HI returns the latched value. -/
def readBy (q : Requester) (o : Nat) (s : State) : Word × State :=
  if isLo o then
    (readReg s o, { s with latches := kvInsert s.latches (latchKey q (o + 4)) (readReg s (o + 4)) })
  else
    match kvFind s.latches (latchKey q o) with
    | some v => (v, { s with latches := kvErase s.latches (latchKey q o) })
    | none => (readReg s o, s)

/-- One aligned word read at an address of a requester; none is a bus error: outside the BAR, or in no block (R52, R67). A reserved offset
of a block reads 0. -/
def readWordAt (q : Requester) (a : Nat) (s : State) : Option (Word × State) :=
  (windowOff s q a).bind (fun o => (blockOf o).map (fun _ => readBy q o s))

/-- A read in recovery (R690): the recovery buffer and BRG_STATUS; every other offset reads 0. -/
def recoveryRead (q : Requester) (a size : Nat) (s : State) : List Byte :=
  if q = .af ∧ 0x2000000 ≤ a ∧ a < 0x3000000 then
    (List.range size).map (fun i => if a + i < 0x3000000 then kvGet (fun _ => 0#8) s.hub.recBuf (a + i - 0x2000000) else 0#8)
  else if q = .af ∧ a = fuseBlk ∧ size = 4 then leBytes 4 (readReg s fuseBlk).toNat
  else leBytes size 0

/-- Does the AF not answer yet: a register access of the host before the end of bring-up stage 1 (R135, R670)? -/
def hostDark (s : State) (q : Requester) : Bool :=
  decide (reqNo q < 65) && !s.hub.recovery &&
    match s.hub.stage with
    | some n => decide (n < 2)
    | none => s.hub.vauxLost

/-- A requester reads a register, or the _LO half of a pair, which latches _HI (R64, R65, R67): a word, or an aligned 64 bits of the host as two
words, the lower first. Another size or alignment is a bus error. -/
def execLoReadLatch (q : Requester) (off size : Nat) (s : State) : Out :=
  .next (if hostDark s q then s
    else if s.hub.recovery then emit (.readData (reqFn q) (recoveryRead q off size s)) s
    else if size = 4 ∧ off % 4 = 0 then
      match readWordAt q off s with
      | none => regBusError q off true s
      | some r => emit (.readData (reqFn q) (leBytes 4 r.1.toNat)) r.2
    else if size = 8 ∧ off % 8 = 0 ∧ reqNo q < 65 then
      match readWordAt q off s with
      | none => regBusError q off true s
      | some r =>
        match readWordAt q (off + 4) r.2 with
        | none => regBusError q (off + 4) true r.2
        | some t => emit (.readData (reqFn q) (leBytes 4 r.1.toNat ++ leBytes 4 t.1.toNat)) t.2
    else regBusError q off true s)

/-! ### Writing by access code (R66) -/

/-- The latch of the _LO value that the AF's BAR2 base in effect has (R79). -/
def barBaseLatch : Nat := 2 ^ 40

/-- Does LOCK bind this requester (R69)? -/
def lockBinds : Requester → Bool
  | .af => true
  | .vi _ => true
  | .jtag => true
  | .hub => false

/-- Is the block's LOCK 1? -/
def locked (s : State) (blk : Nat) : Bool := getB s (blk + 0xFFC) 0

/-- The value that a write leaves under a row's masks: RW, RWS and (unless locked) RWL bits take the data, W1C ones clear,
W1S ones set. -/
def maskWrite (r : RegRow) (lk : Bool) (old v : Word) : Word :=
  let w := BitVec.ofNat 32 (r.rw ||| r.rws ||| (if lk then 0 else r.rwl))
  let x := (old &&& ~~~w) ||| (v &&& w)
  let x := x &&& ~~~(v &&& BitVec.ofNat 32 r.w1c)
  x ||| (v &&& BitVec.ofNat 32 r.w1s)

/-- A register's value with a staged change, where one waits. -/
def stagedValue (s : State) (o : Nat) : Word :=
  (kvFind s.hub.stagedRegs o).getD ((kvFind s.hub.stagedLap o).getD (
    if 0x40000000 ≤ o ∧ o < 0x50000000 ∧ 0x1000 ≤ o % 0x01000000 ∧ o % 0x01000000 < 0x1180 then readReg s o else rawReg s o))

/-- The first field of `w` bits whose place a test accepts takes its old value. -/
def keepFields (w n : Nat) (p : Nat → Nat → Bool) (old new : Word) : Word :=
  (List.range n).foldl (fun x j => if p j (fld x (w * j) w) then setFld x (w * j) w (fld old (w * j) w) else x) new

/-- The value that a register's own rules make of a write (Tables 3.2, 8.12, 8.13, 9.11, 14.10, 14.15 and 15.10): a value
out of range leaves the old one. -/
def fixWrite (s : State) (o : Nat) (old new : Word) : Word :=
  if o = 0x404 then (if 10 ≤ new.toNat ∧ new.toNat ≤ 2000 then new else old)
  else if o = 0x20004 then (if 1 ≤ new.toNat ∧ new.toNat ≤ 60000 then new else old)
  else if o = 0x30004 then (if 1200 ≤ new.toNat ∧ new.toNat ≤ 3000 then new else old)
  else if o = 0x30008 then (if fld new 16 11 + fld new 0 11 ≤ 1024 then new else old)
  else if o = 0x3000C then (if new.toNat ≤ 16 then new else old)
  else if 0x40000000 ≤ o ∧ o < 0x50000000 then
    let q := o % 0x01000000
    let t := (o - 0x40000000) / 0x01000000
    if q = 4 then (if 1 ≤ new.toNat ∧ new.toNat ≤ 12 then new else old)
    else if 0x1000 ≤ q ∧ q < 0x1180 then
      keepFields 2 16 (fun j v => v = 3 || !decide (16 * ((q - 0x1000) / 4) + j < 128 * (getTower s t).pieces)) old new
    else if q = 0x10040 then (if 8 ≤ fld new 16 5 ∨ fld new 16 5 = 0 then new else setFld new 16 5 (fld old 16 5))
    else if q = 0x20004 then
      (if fld new 16 11 ≤ 1535 ∧ 1 ≤ fld new 0 12 ∧ fld new 0 12 ≤ 1536 then new else old)
    else new
  else if 0x60000000 ≤ o ∧ o < 0x68000000 then
    let q := o % 0x01000000
    if q = 4 then
      (if new.toNat = 0 ∨ 64 < new.toNat then old else BitVec.ofNat 32 (ceilDiv new.toNat 4 * 4))
    else if q = 12 then (if 1 ≤ new.toNat ∧ new.toNat ≤ 168 then new else old)
    else new
  else if 0x80000000 ≤ o ∧ o < 0x84000000 ∧ o % 0x100000 = 0x50004 then
    (if 2 ≤ new.toNat ∧ new.toNat ≤ 20 then new else old)
  else new

/-- Is a Q0 register held by ENABLE = 1 (Table 4.13)? -/
def q0Held (s : State) (o : Nat) : Bool :=
  let p := o / 0x10000 * 0x10000
  (decide (p = scribeBlk) || decide (0x00100000 ≤ p ∧ p < 0x00500000)) &&
    decide (0x80 ≤ o - p ∧ o - p < 0x94) && getB s (p + 0x94) 0

/-- The MSI-X vector of a vector control word, and what unmasking it does: a pending vector sends its message (R172). -/
def msixUnmask (o : Nat) (s : State) : State :=
  let hit := fun (f v : Nat) => decide (o = msixCtl f v) && !getB s o 0 && getB s (msixPba f v) (v % 32)
  let go := fun (f v : Nat) (s : State) => emit (.msix f v) (setB (msixPba f v) (v % 32) false s)
  if pcieBlk + 0x8000 ≤ o ∧ o < pcieBlk + 0x8800 then
    let v := (o - (pcieBlk + 0x8000)) / 16
    if hit 0 v then go 0 v s else s
  else if 0x00100000 ≤ o ∧ o < 0x00500000 ∧ 0xE000 ≤ o % 0x10000 ∧ o % 0x10000 < 0xE1E0 then
    let f := (o - 0x00100000) / 0x10000 + 1
    let v := (o % 0x10000 - 0xE000) / 16
    if hit f v then go f v s else s
  else s

/-- A write of a hurdle's HDL_TARGET or HDL_MODE; OVERFLOW is W1C (Tables 5.11 and 5.12). -/
def writeHurdleReg (n i : Nat) (v : Word) (s : State) : State :=
  if i = 1 then hurdleCycle n [.setTarget v] s
  else if i = 2 then
    let h := getHurdle s n
    let s := if fld v 29 1 = 1 then putHurdle n { h with overflow := false } s else s
    hurdleCycle n [.setMode (fld v 0 3) (fld v 3 1 == 1)] s
  else s

/-- A write of a staged register: the value waits for its boundary (R66, R91), and a value out of a register's range says so where it has a flag. -/
def writeStaged (o : Nat) (lk : Bool) (v : Word) (s : State) : State :=
  let raw := maskWrite (regRow o) lk (stagedValue s o) v
  let new := fixWrite s o (stagedValue s o) raw
  let s := if decide (o = 0x404) && !decide (10 ≤ raw.toNat ∧ raw.toNat ≤ 2000) then setB 0x40C 25 true s else s
  let s := if 0x40000000 ≤ o ∧ o < 0x50000000 ∧ o % 0x01000000 = 4 ∧ new ≠ rawReg s o then
    setB (o - 4) 27 true s else s
  if lapStagedReg o then modHub (fun h => { h with stagedLap := kvInsert h.stagedLap o new }) s
  else modHub (fun h => { h with stagedRegs := kvInsert h.stagedRegs o new }) s

/-- A write of any other register: it takes effect at once, and a write of AF_BAR2_BASE_HI takes the _LO value with it (R79). -/
def writePlain (o : Nat) (lk : Bool) (v : Word) (s : State) : State :=
  let s := if o = 0x1C then { s with latches := kvInsert s.latches barBaseLatch (rawReg s 0x18) } else s
  msixUnmask o (setReg o (fixWrite s o (rawReg s o) (maskWrite (regRow o) lk (rawReg s o) v)) s)

/-- A write of one word at a window offset by access code (R66 to R69, R72). An offset in no block is a bus error; a reserved
offset ignores the write. -/
def writeReg (q : Requester) (o : Nat) (v : Word) (s : State) : State :=
  match blockOf o with
  | none => regBusError q o false s
  | some blk =>
    if hdlBlk ≤ o ∧ o < hdlBlk + 0x20000 then writeHurdleReg ((o - hdlBlk) / 16) (o % 16 / 4) v s
    else if q0Held s o then s
    else
      let lk := locked s blk && lockBinds q
      let barred := lk && decide ((regRow o).rwl ≠ 0)
      let s := if barred then setB (blk + 0xFFC) 1 true s else s
      if stagedReg o || lapStagedReg o then (if barred then s else writeStaged o lk v s) else writePlain o lk v s

/-- Can a requester address a block of the window: a VI only its own page (R77, R82)? -/
def reachesBlock (q : Requester) (block : Nat) : Bool :=
  match q with
  | .vi n => decide (block = viPage (n.val + 1))
  | _ => true

/-- BLK_LOCK is written (Table 2.5): LOCK is W1S, REFUSED W1C. `block` is the window offset of a block with RWL fields. -/
def execBlkLock (q : Requester) (block : Nat) (d : BitVec 32) (s : State) : Out :=
  .next (if !reachesBlock q block then regBusError q (block + 0xFFC) false s
    else if (regRow (block + 0xFFC)).w1s = 1 ∧ blockOf (block + 0xFFC) = some block then writeReg q (block + 0xFFC) d s else s)

/-- AF_BAR2_BASE_HI is written: the base applies with the _LO value last written (R79). -/
def execAfBar2BaseApply (d : BitVec 32) (s : State) : Out := .next (writeReg .af 0x1C d s)

/-- The base device address of the AF's BAR2 in effect: _LO as it was when _HI was last written (R79). -/
def afBar2Base (s : State) : Nat :=
  fld ((kvFind s.latches barBaseLatch).getD (regReset 0x18)) 30 2 * 2 ^ 30 + getF s 0x1C 0 16 * 2 ^ 32

/-! ### BAR2 (R78, R80, R136, R176) -/

/-- The access context of a host access of a function. -/
def hostAcc (f : Nat) : Acc := { fn := f, org := oEngine 4 0 }

/-- The function's address that a BAR2 offset maps; none past the aperture, into registers, or of a VI that is not created or
is resetting or scrubbing. -/
def bar2Addr (s : State) (f off size : Nat) : Option Nat :=
  if 2 ^ 30 * (getFn s f).barGiB < off + size then none
  else if f = 0 then
    match place (afBar2Base s + off) with
    | .window _ => none
    | _ => some (afBar2Base s + off)
  else if !getB s (viPage f) 31 || getB s (viPage f) 29 || getB s (viPage f) 28 then none
  else
    match place off with
    | .plain _ => some off
    | .pim _ => some off
    | _ => none

/-- A BAR2 access that is a bus error (R76). -/
def bar2Error (f off : Nat) (read : Bool) (s : State) : State :=
  let s := if f ≠ 0 then addReg (viPage f + 4) 1 s else s
  let s := report 0x20A (oEngine 4 0) f off s
  if read then emit (.unsupportedRequest f) s else s

/-- A read through BAR2: its data leave as read data; a read of a blotted granule returns free bytes (R232); a bus error is returned to the host
(R239). -/
def bar2Read (fn off size : Nat) (s : State) : State :=
  match bar2Addr s fn off size with
  | none => bar2Error fn off true s
  | some a =>
    let r := readSpan s (hostAcc fn) a size
    if r.ok then bumpFree (emit (.readData fn r.data) s)
    else emit (.unsupportedRequest fn) (readError (hostAcc fn) a s)

/-- A write through BAR2: one that meets a bus error is recorded and dropped whole (R76). -/
def bar2Write (fn off : Nat) (l : List Byte) (s : State) : State :=
  match bar2Addr s fn off l.length with
  | none => bar2Error fn off false s
  | some a =>
    let w := writeSpan (hostAcc fn) a l false (.start s)
    if w.ok then w.s
    else
      (List.range ((a + l.length - 1) / 64 + 1 - a / 64)).foldl (fun s i =>
        let g := (a / 64 + i) * 64
        if (reach s (hostAcc fn) true g (spanBytes a l.length g)).isNone then busError (hostAcc fn) g s else s) s

/-- A read or a write through BAR2 (R76, R239). -/
def execBar2Access (fn : Fin 65) (off size : Nat) (write : Option (List (BitVec 8))) (s : State) : Out :=
  .next (match write with
    | none => bar2Read fn off size s
    | some l => bar2Write fn off l s)

/-- The host selects a BAR2 size (R78): a power of two from 1 to 512 GiB; of VI n it selects the size of every VF's BAR2,
through the one VF Resizable BAR capability. -/
def execResizableBarSelect (fn : Fin 65) (gib : Nat) (s : State) : Out :=
  .next (if !(([1, 2, 4, 8, 16, 32, 64, 128, 256, 512] : List Nat).contains gib) then s
    else if fn.val = 0 then modFn 0 (fun x => { x with barGiB := gib }) s
    else (List.range 64).foldl (fun s i => modFn (i + 1) (fun x => { x with barGiB := gib }) s) s)

/-- VF Enable is set with NumVFs (R136): VFs 1 to NumVFs are enabled. -/
def execVfEnableSet (numVfs : Fin 65) (s : State) : Out :=
  .next ((List.range 64).foldl (fun s i => modFn (i + 1) (fun x => { x with enabled := decide (i < numVfs.val) }) s) s)

end Sys2Proof.Machine
end

