-- ==== Sys2Proof/Machine/Domains.lean ====
section
/-!
DEFINITION. The steps and set points of clusters and their trims (14.2, 8.2), and what switching a cluster's power domain on or off does
(1.6, 14.9).
-/
namespace Sys2Proof.Machine

/-! ### Steps, set points and trims (R594, R595) -/

/-- m of a step (Table 14.2). -/
def stepM (i : Nat) : Nat := if i = 16 then 8 else 32 - i
/-- Voltage of a step before its offset, in mV (Table 14.2). -/
def stepMv (i : Nat) : Nat := if i = 16 then 550 else if i ≤ 8 then 950 - 20 * i else 790 - 15 * (i - 8)
/-- The set point of a cluster at a step, in mV: its fused offset is added and the range of R591 limits it; PF has no offset. -/
def setPoint (s : State) (c i : Nat) : Nat :=
  if i = 16 then 550
  else
    let v : Int := (stepMv i : Int) + 5 * sext 8 (getF s (vfBlk c + 8) 0 8)
    (max 550 (min 950 v)).toNat

/-- The step, m and set point that a cluster shows. -/
def curStep (s : State) (c : Nat) : Nat := getF s (vfBlk c) 24 5
def curM (s : State) (c : Nat) : Nat := getF s (vfBlk c) 8 6
def domReg (n : Nat) : Nat := pwrBlk + 0x1000 + 4 * n
def setMvOf (s : State) (c : Nat) : Nat := getF s (domReg c) 16 10

def modClu (c : Nat) (g : CluPower → CluPower) (s : State) : State :=
  { s with sup := { s.sup with clu := kvMod (fun _ => {}) s.sup.clu c g } }
def modTow (t : Nat) (g : TowerPower → TowerPower) (s : State) : State :=
  { s with sup := { s.sup with tow := kvMod (fun _ => {}) s.sup.tow t g } }
def modSup (g : Supervisor → Supervisor) (s : State) : State := { s with sup := g s.sup }

/-- A converter takes a new set point: it is not settled until it reports so. -/
def setVolt (n mv : Nat) (s : State) : State :=
  if getF s (domReg n) 16 10 = mv then s else setB (domReg n) 30 false (setF (domReg n) 16 10 mv s)

/-- The 136 trims of a tower for m: 8 lanes of 17 groups (R339). -/
def trimSet (s : State) (t m : Nat) : List Nat :=
  (List.range 136).map (fun i => kvGet (fun _ => fullTrim) (getTower s t).trims (trimKey m (i / 17) (i % 17)) % 64)

/-- The change of m of Table 8.1: STEP, M and the active trims. -/
def changeM (c i : Nat) (s : State) : State :=
  let l := trimSet s (c / 4) (stepM i)
  modClu c (fun x => { x with trims := l }) (setF (vfBlk c) 24 5 i (setF (vfBlk c) 8 6 (stepM i) s))

/-! ### Cluster domains on and off -/

/-- A cluster's domain is switched off: what its buffer holds is lost. -/
def clusterOff (c : Nat) (s : State) : State :=
  let s := setB (domReg c) 30 false (setB (domReg c) 31 false s)
  modClu c (fun x => { x with move := none }) (setB (vfBlk c) 31 false (zeroRange (bufferBase c) 0x1000000 s))

/-- A cluster's domain is switched on, at PF. -/
def clusterOn (c : Nat) (s : State) : State :=
  let s := changeM c 16 (setB (domReg c) 31 true (setF (domReg c) 16 10 550 s))
  modClu c (fun x => { x with move := none }) (setB (vfBlk c) 31 false s)

end Sys2Proof.Machine
end

