-- ==== Sys2Proof/Machine/Units.lean ====
section
/-!
DEFINITION. Units that fail: counted events (15.3), soft fuses (R674), core moves and cluster retirement (1.5, 1.6), and the
blots that a failure puts on a lap's outputs (R34, R41).
-/
namespace Sys2Proof.Machine

/-! ### What strokes wrote in the lap -/

/-- Note that a core wrote bytes of the granule of an address in this lap: all of them, so that nothing that others wrote is left, or a part. -/
def logGran (k : Nat) (acc : Acc) (t : Touch) (a : Nat) (s : State) : State :=
  match reach s acc true a t with
  | none => s
  | some d =>
    let others := if (List.range 64).all t then [] else (kvGet (fun _ => []) s.written (d / 64)).filter (fun n => n ≠ coreNo k)
    { s with written := kvPut (fun _ => []) s.written (d / 64) (coreNo k :: others) }

/-- The register that counts the bank requests of a runner's core, or of its transfer engine, at a tower (R376 to R378): its cluster's own, or a NoC
port of another tower, of which the spec does not say which (a free value, log 22). -/
def bankReg (s : State) (k : Nat) (acc : Acc) (t : Nat) : Nat :=
  let c := noCluster k
  let phys := physCore s c (noKind k) (noCore k)
  let n := if acc.org = oEngine 0 c then 32 else if noKind k = 0 then phys else if noKind k = 1 then 18 + phys else 27 + phys
  if t = c / 4 then cluBlk c + 0x81000 + 8 * n else twrBlk t + 0x3000 + 8 * ((Config.freeValue s.frees).toNat % 4)

/-- A granule that a requester of a cluster reaches: a line of stack memory is noted, and a request of scratch counted, where it begins a piece
of `unit` bytes. -/
def noteGran (k : Nat) (acc : Acc) (write first : Bool) (d : Nat) (s : State) : State :=
  match place d with
  | .scratch t _ => if first then addReg (bankReg s k acc t) 1 s else s
  | _ => noteLine (noCluster k) write d s

/-- Note what a span of n bytes at an address touches, where the access reaches it. DESIGN CHOICE (log 22): a core requests `unit` bytes at a time of
its banks, a row for weights and a granule for everything else. -/
def noteSpan (k : Nat) (acc : Acc) (write : Bool) (unit a n : Nat) (s : State) : State :=
  (List.range (if n = 0 then 0 else (a + n - 1) / 64 + 1 - a / 64)).foldl (fun s i =>
    let g := (a / 64 + i) * 64
    match reach s acc write g (spanBytes a n g) with
    | none => s
    | some d => noteGran k acc write (i = 0 || g % unit = 0) d s) s

/-- Write bytes for a runner's stroke: blotted while the runner's latch is set (R230), noted for the lap. -/
def coreWrite (k a : Nat) (bytes : List Byte) (blot : Bool) (w : Wrote) : Wrote :=
  let acc := accOf w.s k
  let n := if bytes.isEmpty then 0 else (a + bytes.length - 1) / 64 + 1 - a / 64
  let w := writeSpan acc a bytes (blot || writesBlotted w.s k) w
  { w with s := noteSpan k acc true 64 a bytes.length ((List.range n).foldl (fun s i => logGran k acc (spanBytes a bytes.length ((a / 64 + i) * 64)) ((a / 64 + i) * 64) s) w.s) }

/-- The cluster of a core number. -/
def coreCluster (n : Nat) : Nat := n / 64

/-- Blot everything that the cores a test accepts wrote in this lap and that still stands (R34, R41, R106): granules of memory, each counted
to the writer's job when it gets its blot now (R233), and granules that wait in baton rings. -/
def blotWritten (p : Nat → Bool) (s : State) : State :=
  let hit := s.written.filter (fun e => e.2.any p && !blotAt s (64 * e.1))
  let s := { s with blots := hit.foldl (fun b e => kvPut (fun _ => false) b e.1 true) s.blots }
  let s := hit.foldl (fun s e => noteBlots (coreCluster ((e.2.find? p).getD 0)) 1 s) s
  let mark := fun (g : Granule) => { g with blot := g.blot || (decide (0 < g.maker) && p (g.maker - 1)) }
  { s with clusters := s.clusters.map (fun e => (e.1, { e.2 with rings := e.2.rings.map (fun r => (r.1, r.2.map mark)) })) }

/-- Forget what the cores that a test accepts wrote: the lap has ended. -/
def forgetWritten (p : Nat → Bool) (s : State) : State :=
  { s with written := (s.written.map (fun e => (e.1, e.2.filter (fun n => !p n)))).filter (fun e => !e.2.isEmpty) }

/-! ### Cores -/

/-- LOCATION of a core (Table 16.2). -/
def coreLoc (c kind phys : Nat) : Nat := 2 ^ 32 * c + 2 ^ 30 * kind + 2 ^ 24 * phys

/-- Offset of a core's STATUS register. -/
def coreStat (c kind phys : Nat) : Nat := if kind = 0 then mcBlk c phys else if kind = 1 then vcBlk c phys else scBlk c phys

/-- Bit of FAILED in it. -/
def coreFailBit (kind : Nat) : Nat := if kind = 2 then 30 else 28

/-- Is a physical core failed? -/
def coreBad (s : State) (c kind phys : Nat) : Bool := getB s (coreStat c kind phys) (coreFailBit kind)

/-- Physical and logical cores of a kind. -/
def physCount (kind : Nat) : Nat := if kind = 0 then 18 else if kind = 1 then 9 else 4
def logCount (kind : Nat) : Nat := if kind = 0 then 16 else if kind = 1 then 8 else 4

/-- Good physical cores of a kind. -/
def goodCores (s : State) (c kind : Nat) : List Nat := (List.range (physCount kind)).filter (fun p => !coreBad s c kind p)

/-- The lowest spare: good and carrying no logical identifier. -/
def lowestSpare (s : State) (c kind : Nat) : Option Nat :=
  (goodCores s c kind).find? (fun p => (logicalOf s c kind p).isNone)

/-- Write the map entry of a logical core (Tables 1.6 and 1.7). -/
def setMap (c kind i p : Nat) (s : State) : State :=
  if kind = 0 then setF (cluBlk c + 0x100 + 4 * (i / 4)) (8 * (i % 4)) 5 p s
  else if kind = 1 then setF (cluBlk c + 0x110) (4 * i) 4 p s
  else s

/-- The physical core that takes an identifier in a move starts with every entry zero and tagged (R266, R290); the quill
empties and refills its queues (R196). -/
def freshCore (c kind i : Nat) (s : State) : State :=
  let n := (c * 4 + kind) * 16 + i
  let s :=
    if kind = 0 then { s with mcores := kvPut (fun _ => {}) s.mcores (c * 16 + i) { fresh := true } }
    else if kind = 1 then
      (List.range 8).foldl (fun s r => modV (n * 8 + r) (fun _ => { fresh := true }) s) s
    else s
  let s := (List.range 64).foldl (fun s j =>
    { s with abase := kvPut (fun _ => 0) s.abase (n * 64 + j) 0, abtag := kvPut (fun _ => false) s.abtag (n * 64 + j) true }) s
  (List.range 8).foldl (fun s r =>
    modRunner (n * 8 + r) (fun x => { x with queue := [], fetch := x.fetch - x.queue.length, fetched := !(x.busy || x.ahead) }) s) s

/-- Make the moves of R32 and R33 in a cluster: ascending failed identifiers take ascending spares. -/
def moveCores (c : Nat) (s : State) : State :=
  [0, 1].foldl (fun s kind =>
    (List.range (logCount kind)).foldl (fun s i =>
      if coreBad s c kind (physCore s c kind i) then
        match lowestSpare s c kind with
        | none => s
        | some p => freshCore c kind i (setMap c kind i p s)
      else s) s) s

/-- Does a loaded schedule that a job runs map this cluster? -/
def jobMaps (s : State) (c : Nat) : Bool := (jobOf s c).isSome

/-! ### Retirement (R37 to R41) -/

def retiredSet (s : State) : Nat := reg64 s 0x204
def fencedSet (s : State) : Nat := reg64 s 0x20C

/-- The clusters that jobs can be mapped to: neither retired nor fenced. -/
def mappedClusters (s : State) : List Nat := (List.range 64).filter (fun c => !retired s c && !fenced s c)

/-- Clusters of a tower in a list. -/
def towerShare (l : List Nat) (t : Nat) : Nat := (l.filter (fun c => c / 4 = t)).length

/-- The tower with the most clusters of a list, the highest number on a tie. -/
def fullestTower (l : List Nat) : Nat :=
  (List.range 16).foldl (fun b t => if towerShare l b ≤ towerShare l t then t else b) 0

/-- R38: fence n clusters, each the highest-numbered mapped cluster of the fullest tower. -/
def pickFences : Nat → List Nat → List Nat
  | 0, _ => []
  | n + 1, l =>
    match (l.filter (fun c => c / 4 = fullestTower l)).getLast? with
    | none => []
    | some c => c :: pickFences n (l.filter (fun x => x ≠ c))

/-- The fences of R38 for the clusters retired. -/
def fenceList (s : State) : List Nat :=
  let good := (List.range 64).filter (fun c => !retired s c)
  pickFences (good.length - 60) good

/-- Write DEV_FENCED. A cluster that is newly fenced is power-gated, and one that is no longer fenced is switched on at PF unless it is retired
(R37, R38). While the device is parked, or its supplies are off, every cluster's domain stays off. -/
def setFences (l : List Nat) (s : State) : State :=
  let old := (List.range 64).filter (fenced s)
  let s := setReg64 0x20C ((l.map (fun c => 2 ^ c)).sum) s
  if getB s pwrBlk 30 || !domainOn s 80 then s
  else
    let s := (l.filter (fun c => !old.contains c)).foldl (fun s c => clusterOff c s) s
    (old.filter (fun c => !l.contains c && !retired s c)).foldl (fun s c => clusterOn c s) s

/-- What a started job's shape is: 1 full, 2 reserve, 3 partial. -/
def jobShape (s : State) (j : Job) : Nat := ((schedOf s j).map (fun x => x.shapeKind)).getD 3

/-- What a retirement does to the job on the cluster. A VI's job, and a partial one of the AF, ends with CLUSTER_LOST at the end of the lap
(R141); a full-shape job of the AF finishes its lap and the device then leaves (R45); a reserve-shape job of the AF goes on (R40). -/
def retireJob (c : Nat) (s : State) : State :=
  match jobOf s c with
  | none => s
  | some j =>
    let k := jobShape s j
    let lost := decide (0 < j.fn ∨ 3 ≤ k)
    if !lost && decide (k = 2) then s
    else
      let s := if lost && decide (0 < j.fn) then signal j.fn 25 s else s
      { s with jobs := s.jobs.map (fun x =>
          if x.fn = j.fn ∧ x.sched = j.sched then
            { x with endAtLap := true,
                     flags := if lost then { x.flags with clusterLost := true } else { x.flags with leftSystem := true } }
          else x) }

/-- May the fences change: no job of the reserve or full shape runs, so that R38's choice binds no mapping? -/
def fencesFree (s : State) : Bool := !s.jobs.any (fun j => decide (jobShape s j ≤ 2))

/-- The fences while no job of the full or reserve shape runs. R38 speaks of the reserve shape only. DESIGN CHOICE (log 5): none while no
cluster is retired, R38's set while one is; a set that would fence a cluster on which a partial job runs waits for that job's end. -/
def idleFences (s : State) : State :=
  let l := if retiredSet s = 0 then [] else fenceList s
  if !fencesFree s || l.any (jobMaps s) then s else setFences l s

/-- A cluster leaves the VI that owns it (R141). -/
def leaveVi (c : Nat) (s : State) : State :=
  let f := clusterFn s c
  if f = 0 then s
  else
    let v := viClusters s f
    setB (viPage f) 25 true (setReg64 (viPage f + 8) (if v.testBit c then v - 2 ^ c else v) s)

/-- Retire a cluster (R37): DEV_RETIRED, a record, the blots of R41 on its lap, the job on it, the shapes offered (R43, R45),
and out of service at a fifth (R648). Its domain is switched off at once. DESIGN CHOICE (log 6): no rule says when in the lap a retired cluster
is power-gated; its buffer is a bus error from now on (R41), and its strokes complete as blotted operations. -/
def retireCluster (c source : Nat) (s : State) : State :=
  if retired s c then s
  else
    let f := fencedSet s
    let wasFenced := f.testBit c
    let s := if wasFenced then setReg64 0x20C (f - 2 ^ c) s else s
    let s := setReg64 0x204 (retiredSet s + 2 ^ c) s
    let s := clusterOff c s
    let n := popCount 64 (retiredSet s)
    let s := report 0x104 (oCluster c) (clusterFn s c) n s
    let s := softFuse 0x06 source (2 ^ 40 * c) s
    let hadFull := getB s 0x200 30
    let s := setB 0x200 30 false s
    let s := blotWritten (fun k => coreCluster k = c) (modCluster c (fun x => { x with blotAll := jobMaps s c }) s)
    let s := if hadFull then report 0x504 (oHub 5 0) fnDevice (shapeStatus s).toNat s else s
    let s := leaveVi c (retireJob c s)
    let s := idleFences s
    if 5 ≤ n then declareOut 1 s else s

/-- A core fails (R36, R37, R280, R324): FAILED, a soft fuse, a record; with no spare left, or an S-core, the cluster retires;
else its lap is blotted (R34) and the move comes at the lap boundary, or at once with no job on the cluster. -/
def coreFailed (c kind phys source : Nat) (s : State) : State :=
  if coreBad s c kind phys then s
  else
    let logical := logicalOf s c kind phys
    let s := setB (coreStat c kind phys) (coreFailBit kind) true s
    let s := softFuse 0x01 source (coreLoc c kind phys) s
    let s := modHub (fun h =>
      if kind = 0 then { h with mcoresFailed := h.mcoresFailed + 1 }
      else if kind = 1 then { h with vcoresFailed := h.vcoresFailed + 1 } else h) s
    match logical with
    | none => s
    | some i =>
      let s := report 0x103 (oCore c kind phys 0) (clusterFn s c) i s
      if kind = 2 ∨ (goodCores s c kind).length < logCount kind then byFirmware (.cluster c source) (retireCluster c source) s
      else
        let n := (c * 4 + kind) * 16 + i
        let s := blotWritten (fun k => k = n) s
        let s := (List.range 8).foldl (fun s r => modRunner (n * 8 + r) (fun x => { x with latch := x.latch || jobMaps s c }) s) s
        if loadedMaps s c then s else moveCores c s

/-- A counted event of a core: at its second within 30 days it fails (R280, R324). -/
def coreEvent (c kind phys : Nat) (s : State) : State :=
  let r := noteEvent (oCore c kind phys 0) s
  if r.1 then coreFailed c kind phys 1 r.2 else r.2

end Sys2Proof.Machine
end

