-- ==== Sys2Proof/Machine/Quill.lean ====
section
/-!
DEFINITION. The quill (5.4): fetching strokes; the common strokes (5.3); completion of a stroke (R191, R203); DELAY.
-/
namespace Sys2Proof.Machine

/-- Let every open skip of a cluster go as far as it can (R207). -/
def settleAll (c : Nat) (s : State) : State :=
  let l := (s.runners.filter (fun e => noCluster e.1 = c && decide (0 < e.2.skip))).map (fun e => e.1)
  (List.range l.length).foldl (fun s _ => l.foldl (fun s k => settleSkip 256 k s) s) s

/-- The runner of a stream on the device: its logical cluster's place, its core and runner. -/
def streamRunner (sc : Schedule) (x : Stream) : Nat := runnerNo (nth 64 sc.map x.lcluster) x.kind x.core x.runner

/-- May the quill fetch for this runner (R194): 16 strokes or fewer queued, and its segment, of this lap or after LAP_END of the next one (R195),
is not fetched to its end? -/
def wantsFetch (s : State) (k : Nat) : Bool :=
  let r := getRunner s k
  (r.busy || r.ahead) && !r.fetched && decide (r.queue.length ≤ 16)

/-- The lap-table entry of lap index L. -/
def lapEntryOf : List LapEntry → Nat → Option LapEntry
  | [], _ => none
  | e :: r, l => if l < e.repeats then some e else lapEntryOf r (l - e.repeats)

/-- The program of a job's current lap. -/
def lapProgram (s : State) (j : Job) : Nat :=
  ((schedOf s j).bind (fun x => lapEntryOf x.laps (j.next - 1))).elim 0 (fun e => e.program)

/-- The runners of a schedule that have issued LAP_END turn to their segments of the job's next lap, where they have strokes (R195). -/
def turnAhead (sc : Schedule) (j : Job) (s : State) : State :=
  match (if j.next < j.laps then lapEntryOf sc.laps j.next else none) with
  | none => s
  | some e =>
    (sc.streams.zip (nth [] sc.programs e.program)).foldl (fun s (x, st) =>
      modRunner (streamRunner sc x) (fun r =>
        if r.ended && !r.ahead && decide (st ≠ 0xFFFFFFFF) then { r with queue := [], ahead := true, fetched := false, fetch := st } else r) s) s

/-- Strokes of a segment up to and with its LAP_END. -/
def upToLapEnd : List StrokeWord → List StrokeWord
  | [] => []
  | w :: l => if isLapEnd w then [w] else w :: upToLapEnd l

/-- Fetch one row for a runner: what fits its queue of 32 strokes, up to the lap's end (R192, R193). -/
def fetchRow (k : Nat) (x : Stream) (s : State) : State :=
  let r := getRunner s k
  let l := upToLapEnd ((x.strokes.drop r.fetch).take (32 - r.queue.length))
  let last := l.isEmpty || l.any isLapEnd
  modRunner k (fun r => { r with queue := r.queue ++ l, fetch := r.fetch + l.length, fetched := last }) s

/-- The quill fetches a row for the next runner that wants one, in rotating order of stream-section number (R194). -/
def execQuillFetch (c : Fin 64) (s : State) : Out :=
  .next (match jobOf s c with
    | none => s
    | some j =>
      match schedOf s j with
      | none => s
      | some sc =>
        let s0 := s
        let s := turnAhead sc j s
        let n := sc.streams.length
        let t := (getCluster s c).quillTurn
        match (List.range n).find? (fun i =>
          match sc.streams[(t + 1 + i) % n]? with
          | none => false
          | some x => nth 64 sc.map x.lcluster = c && wantsFetch s (streamRunner sc x)) with
        | none => s0
        | some i =>
          match sc.streams[(t + 1 + i) % n]? with
          | none => s
          | some x =>
            let s := if x.scratch then addReg (cluBlk c + 0x81000 + 8 * 31) 1 s else s
            let s := fetchRow (streamRunner sc x) x s
            settleAll c (modCluster c (fun y => { y with quillTurn := (t + 1 + i) % n }) s))

/-! ### Common strokes (Table 5.8) -/

/-- NOP: no effect of its own. -/
def nopEffect (_ : Nat) (_ : StrokeWord) (s : State) : Option StrokeOut := some { s := s }
/-- LAP_END: the runner issues nothing more until its job's next lap (R186). -/
def lapEndEffect (k : Nat) (_ : StrokeWord) (s : State) : Option StrokeOut :=
  some { s := modRunner k (fun r => { r with busy := false, skip := 0, ended := true }) s }
/-- DELAY: completes later; nothing else. -/
def delayEffect (_ : Nat) (_ : StrokeWord) (s : State) : Option StrokeOut := some { s := s }

/-! ### Completion (R191) -/

/-- Can a stroke in flight complete: no wait, no transfer, no weight row and no line of stack memory left (R364), and the ring it fills holds all
it wrote? -/
def canComplete (s : State) (c : Nat) (f : Flight) : Bool :=
  !f.waiting && decide (f.transfers = 0) && decide (f.rows = 0) && f.owed.isEmpty &&
    match f.chan with
    | none => true
    | some ch => decide ((ring s c ch).length ≤ ringSize s c ch)

/-- An SSETB that completes writes the address base of the runner it names (R320). -/
def landBase (f : Flight) (s : State) : State :=
  match f.landing with
  | none => s
  | some (k, i, v, b) => setAb k i v b s

/-- A stroke completes: what it writes on completion is written, it is traced and gives its signal mark (R203). -/
def strokeDone (k i : Nat) (f : Flight) (s : State) : State :=
  let c := noCluster k
  let s := trace k 1 f.word f.wrote (landBase f s)
  let s := modRunner k (fun r => { r with flight := r.flight.eraseIdx i }) s
  let s := modCluster c (fun x => { x with lastDone := s.now }) s
  settleAll c (if sSignalEn f.word then signalMark c (sSignal f.word) s else s)

/-- The i-th stroke in flight on a runner completes (R191). -/
def execStrokeComplete (r : RunnerRef) (i : Nat) (s : State) : Out :=
  .next (match (getRunner s (refNo r)).flight[i]? with
    | none => s
    | some f => if canComplete s r.cluster f then strokeDone (refNo r) i f s else s)

end Sys2Proof.Machine
end

