-- ==== Sys2Proof/Machine/Stream.lean ====
section
/-!
DEFINITION. Engine streams of cores (5.8, 5.9): reads and writes in which each byte carries the blot bit of its granule, with
the bus errors that they meet, and the granules of baton rings as such bytes.
-/
namespace Sys2Proof.Machine

/-- A byte with the blot bit of the granule that holds it. -/
abbrev TByte := Byte × Bool

/-- The bytes of a list of tagged bytes. -/
def tBytes (l : List TByte) : List Byte := l.map (fun b => b.1)
/-- The OR of their blot bits. -/
def tBlot (l : List TByte) : Bool := l.any (fun b => b.2)

/-- What a stream read gives: tagged bytes, whether it met no bus error, and the state with the records of those it met. -/
structure ReadT where
  data : List TByte
  ok : Bool
  s : State

/-- The first granule of a span and the number of granules it touches. -/
def spanGrans (a n : Nat) : List Nat :=
  (List.range (if n = 0 then 0 else (a + n - 1) / 64 + 1 - a / 64)).map (fun i => (a / 64 + i) * 64)

/-- A granule read with poison counts at its far-memory port (R420). -/
def countPoison (acc : Acc) (a : Nat) (blot : Bool) (s : State) : State :=
  match devAddr s acc.fn a with
  | none => s
  | some d =>
    match place d with
    | .far p _ => if blot then addReg (cxlBlk p + 0xC) 1 s else s
    | _ => s

/-- A stream read of `n` bytes for an access context (R235): a granule that meets a bus error reads as blotted zeros; each bus
error is recorded (R237). `blot` treats every granule as blotted (R229). -/
def readT (acc : Acc) (a n : Nat) (blot : Bool) (s : State) : ReadT :=
  let gs := (spanGrans a n).map (fun g => (g, readPart s acc g (spanBytes a n g)))
  let l := gs.flatMap (fun x => x.2.data.map (fun b => (b, x.2.blot || blot)))
  { data := (l.drop (a % 64)).take n
    ok := gs.all (fun x => x.2.ok)
    s := gs.foldl (fun s x => if x.2.ok then countPoison acc x.1 x.2.blot s else readError acc x.1 s) s }

/-- A runner's or its transfer's stream read: the lines that it touches are noted. -/
def coreReadAs (acc : Acc) (k a n : Nat) (blot : Bool) (s : State) : ReadT :=
  let r := readT acc a n blot s
  { r with s := noteSpan k acc false 64 a n r.s }
/-- A runner's stream read. -/
def coreRead (k a n : Nat) (blot : Bool) (s : State) : ReadT := coreReadAs (accOf s k) k a n blot s

/-- Write tagged bytes from an address, granule by granule: a granule takes the OR of the bits of what is written to it. -/
def writeT (acc : Acc) (a : Nat) (l : List TByte) (blot : Bool) (w : Wrote) : Wrote :=
  let n := if l.isEmpty then 0 else (a + l.length - 1) / 64 + 1 - a / 64
  (List.range n).foldl (fun w i =>
    let from_ := i * 64 - a % 64
    let part := (l.drop from_).take (if i = 0 then 64 - a % 64 else 64)
    writeGran acc ((a / 64 + i) * 64) (spanPart a (tBytes l) i) (tBlot part || blot) w) w

/-- A stream write for a runner's stroke: blotted while its latch is set or its cluster blots (R205, R230), noted for the lap. -/
def coreWriteAs (acc : Acc) (k a : Nat) (l : List TByte) (blot : Bool) (w : Wrote) : Wrote :=
  let w := writeT acc a l (blot || writesBlotted w.s k) w
  { w with s := noteSpan k acc true 64 a l.length ((spanGrans a l.length).foldl (fun s g => logGran k acc (spanBytes a l.length g) g s) w.s) }

/-- The same with the core as the requester. -/
def coreWriteT (k a : Nat) (l : List TByte) (blot : Bool) (w : Wrote) : Wrote := coreWriteAs (accOf w.s k) k a l blot w

/-- A write that cannot be made, for its first address: one bus error, nothing written (R236). -/
def refuseWrite (k a : Nat) (w : Wrote) : Wrote :=
  { w with s := report 0x20A (accOf w.s k).org (accFn (accOf w.s k)) a w.s, ok := false }

/-- Writes in order, those that adjoin joined into one. -/
def joinSpans : List (Nat × List TByte) → List (Nat × List TByte)
  | [] => []
  | (a, l) :: r =>
    match joinSpans r with
    | [] => [(a, l)]
    | (b, m) :: q => if a + l.length = b then (a, l ++ m) :: q else (a, l) :: (b, m) :: q

/-- Tagged bytes as granules of a ring, the last one filled with zeros (R220). -/
def toGranules (l : List TByte) : List Granule :=
  (pieces (ceilDiv l.length 64) 64 l).map (fun p => { data := padTo 64 (tBytes p), blot := tBlot p })

/-- Granules of a ring as tagged bytes; a blotted granule's bytes are free values (R232). -/
def fromGranules (free : Nat) (l : List Granule) : List TByte :=
  (List.range l.length).flatMap (fun i =>
    match l[i]? with
    | none => []
    | some g => (List.range 64).map (fun j =>
      (if g.blot then Config.freeByte free (2 ^ 52 + i * 64 + j) else nth 0#8 g.data j, g.blot)))

/-- Take `n` bytes from a ring: whole granules. -/
def takeBytes (c ch n : Nat) (s : State) : Option (List TByte × State) :=
  (takeRing c ch (ceilDiv n 64) s).map (fun x => ((fromGranules s.frees x.1).take n, x.2))

/-- Granules that a stroke consumes from a channel of its cluster. -/
def strokeDemand (ch : Nat) (w : StrokeWord) : Nat :=
  if sRelay w then 0
  else if isOp w 0 0x10 then
    if sb w 80 && decide (mAddr w % 8 = ch) then 2 * elemBits (sf w 86 4) * (arraysOf (sf w 81 4)).length else 0
  else if isOp w 0 0x11 then if sb w 80 && decide (mAddr w % 8 = ch) then ceilDiv (arraysOf (sf w 81 4)).length 2 else 0
  else if isOp w 1 0x40 then if (vMem w).chan && decide ((vMem w).addr % 8 = ch) then (vMem w).len + 1 else 0
  else if isOp w 1 0x42 || isOp w 1 0x43 then if (vMem w).idxChan && decide ((vMem w).ichan = ch) then 4 else 0
  else 0

/-- Granules that a transfer descriptor waits for in a channel of its cluster. -/
def xferDemand (ch : Nat) (x : Xfer) : Nat :=
  if !x.moved && decide (field x.desc 40 1 ≤ 6) && (field x.desc 41 1).testBit 0 && decide (field x.desc 0 8 % 8 = ch) then
    field x.desc 20 4 * (field x.desc 16 4 / 64) else 0

/-- Does a consumer that has begun to read a channel of a cluster wait for more granules than its ring holds? It drains the ring as it fills
(R221). -/
def drains (c ch : Nat) (s : State) : Bool :=
  let n := (ring s c ch).length
  s.runners.any (fun e => decide (noCluster e.1 = c) &&
    match headOf e.2 with
    | none => false
    | some w => ready e.1 w s && decide (n < strokeDemand ch w)) ||
  s.xfers.any (fun x => decide (noCluster x.runner = c ∧ n < xferDemand ch x))

/-- Put tagged bytes into a ring for a runner's stroke. It stalls outside a relay while the ring is full (R221), unless a consumer drains it. -/
def pushBytes (k ch : Nat) (relay : Bool) (l : List TByte) (s : State) : Option State :=
  let b := writesBlotted s k
  pushRing (noCluster k) ch (relay || drains (noCluster k) ch s) ((toGranules l).map (fun g => { g with blot := g.blot || b, maker := coreNo k + 1 })) s

/-! ### Atomics at the bank (8.5) -/

/-- The new word of an atomic operation: code 1 INT32 add, 2 INT32 add returning prior, 3 FP32 add, 4 swap (Table 8.5). -/
def atomicWord (code old v : Nat) : Nat :=
  if code = 3 then f32add old v else if code = 4 then v % 2 ^ 32 else (old + v) % 2 ^ 32

/-- Apply the words' operations to a granule's bytes, in ascending word order (R356). -/
def atomicBytes (code : Nat) (old : List Byte) : List (Option Word) → List Byte
  | [] => []
  | o :: r =>
    (match o with
     | none => old.take 4
     | some v => leBytes 4 (atomicWord code (leNat (old.take 4)) v.toNat)) ++ atomicBytes code (old.drop 4) r

/-- The counts of atomic granule accesses of a tower (Table 8.10). -/
def countAtomic (d code : Nat) (s : State) : State :=
  match place d with
  | .scratch t _ =>
    let s := addReg (twrBlk t + 0x2014) 1 s
    if code = 3 then addReg (twrBlk t + 0x2018) 1 s else s
  | _ => s

/-- What an atomic access leaves: the write, and the prior bytes with the granule's previous blot bit (R358). -/
structure AtomicOut where
  w : Wrote
  prior : List TByte

/-- One granule's atomic access by a requester (R356 to R358): its target lies in tower scratch, and any other is a bus error
(R306, R322). -/
def atomicGran (acc : Acc) (a code : Nat) (words : List (Option Word)) (blot : Bool) (w : Wrote) : AtomicOut :=
  let lost : List TByte := List.replicate 64 (0#8, true)
  let scratch := fun (d : Nat) => match place d with
    | .scratch _ _ => true
    | _ => false
  match reach w.s acc true a (givenWords words) with
  | none => { w := { w with s := busError acc a w.s, ok := false }, prior := lost }
  | some d =>
    if !scratch d then { w := { w with s := report 0x20A acc.org (accFn acc) a w.s, ok := false }, prior := lost }
    else if undecodable w.s d then { w := { w with s := readError acc a w.s, ok := false }, prior := lost }
    else
      let b := blotAt w.s d
      let old := granBytes w.s d
      let s := storeGran d ((atomicBytes code old words).map some) (b || blot) w.s
      let s := countAtomic d code s
      { w := { s := s, ok := w.ok, blots := w.blots + b2n (b || blot) }, prior := old.map (fun x => (x, b)) }

/-- The same for a runner's stroke: blotted while its latch is set, noted for the lap. -/
def coreAtomicAs (acc : Acc) (k a code : Nat) (words : List (Option Word)) (blot : Bool) (w : Wrote) : AtomicOut :=
  let o := atomicGran acc a code words (blot || writesBlotted w.s k) w
  { o with w := { o.w with s := noteSpan k acc true 64 a 64 (logGran k acc (givenWords words) a o.w.s) } }
/-- The same with the core as the requester. -/
def coreAtomic (k a code : Nat) (words : List (Option Word)) (blot : Bool) (w : Wrote) : AtomicOut :=
  coreAtomicAs (accOf w.s k) k a code words blot w

end Sys2Proof.Machine
end

