-- ==== Sys2Proof/Machine/Home.lean ====
section
/-!
DEFINITION. The homes of stack memory (8.7): the requests of a line in their order, the directories with their recalls, invalidations and
evictions, the grants to the towers' stack caches. Memory holds the value of every line at all times (R370): what moves here is permission.
-/
namespace Sys2Proof.Machine

/-- Is a line of 512 bytes homed at a stack? -/
def homedAt (s : State) (m line : Nat) : Bool := ((dramOf s (line * 512)).map (fun l => l.stack)) == some m

/-- The directory entry of a line; none is Uncached. -/
def dirOf (s : State) (m line : Nat) : Option DirEntry := kvFind (getStack s m).dir line
def setDir (m line : Nat) (e : DirEntry) (s : State) : State := modStack m (fun x => { x with dir := kvInsert x.dir line e }) s
def freeDir (m line : Nat) (s : State) : State :=
  modStack m (fun x => { x with dir := kvErase x.dir line, dirOrder := x.dirOrder.filter (fun l => l ≠ line) }) s
/-- A line's entry is the most recently used of its directory. -/
def touchDir (m line : Nat) (s : State) : State :=
  modStack m (fun x => { x with dirOrder := x.dirOrder.filter (fun l => l ≠ line) ++ [line] }) s

/-- Towers that an entry names. -/
def DirEntry.towers : DirEntry → List Nat
  | .shared l => l
  | .owned t => [t]

/-- Offset of a home's directory counters (8.10). -/
def dirReg (m i : Nat) : Nat := mscBlk m + 0x40000 + 4 * i

/-- Does a request of this line wait for towers at the home, or for the eviction of another line? The home serves one at a time (R365). -/
def lineBusy (s : State) (m line : Nat) : Bool := (getStack s m).recalls.any (fun r => decide (r.line = line ∨ r.want = .evict line))

/-- A grant leaves for a tower with the line's state (1 Shared, 2 Exclusive, 3 for a write), and the pointer moves (R366). -/
def grantLine (m t line st : Nat) (data : Bool) (s : State) : State :=
  let s := modStack m (fun x => { x with grants := x.grants ++ [{ line := line, tower := t, state := st, data := data }] }) s
  setF (dirReg m 3) 0 4 t s

/-- Is a grant of this line to this tower on its way (R367)? -/
def grantComing (s : State) (m t line : Nat) : Bool :=
  (getStack s m).grants.any (fun g => decide (g.line = line ∧ g.tower = t))

/-- What an engine outside the towers reads of a granule: a bus error is recorded and gives blotted zeros (R235). -/
def outsideRead (fn addr : Nat) (s : State) : State :=
  let r := readT (hostAcc fn) (addr / 64 * 64) 64 false s
  bumpFree (emit (.streamData fn (tBytes r.data) (tBlot r.data)) r.s)

/-- Serve a request once no tower is left to answer: `keeps` are the towers that keep the line Shared. -/
def serveWant (m line : Nat) (w : HomeWant) (keeps : List Nat) (s : State) : State :=
  match w with
  | .tower t excl whole =>
    if excl then grantLine m t line 3 (!whole) (setDir m line (.owned t) (touchDir m line s))
    else if keeps.isEmpty then grantLine m t line 2 true (setDir m line (.owned t) (touchDir m line s))
    else grantLine m t line 1 true (setDir m line (.shared (keeps ++ [t])) (touchDir m line s))
  | .mcast ts =>
    let new := ts.filter (fun t => !keeps.contains t)
    if (keeps ++ new).isEmpty then s
    else new.foldl (fun s t => grantLine m t line 1 true s) (setDir m line (.shared (keeps ++ new)) (touchDir m line s))
  | .extRead fn addr =>
    let s := if keeps.isEmpty then freeDir m line s else setDir m line (.shared keeps) (touchDir m line s)
    if resetting s fn then s else outsideRead fn addr s
  | .extWrite fn addr data blot =>
    let s := freeDir m line s
    if resetting s fn then s else (writeSpan (hostAcc fn) addr data blot (.start s)).s
  | .evict _ => addReg (dirReg m 1) 1 (freeDir m line s)

/-- A request is sent to towers, or served at once where none has to answer. Recalls are counted (8.10). -/
def askTowers (m line : Nat) (w : HomeWant) (left : List (Nat × Nat)) (keeps : List Nat) (s : State) : State :=
  if left.isEmpty then serveWant m line w keeps s
  else
    let s := modStack m (fun x => { x with recalls := x.recalls ++ [{ line := line, want := w, left := left }] }) s
    addReg (dirReg m 0) (left.filter (fun e => e.2 ≠ 2)).length s

/-- Does a request put an entry into the directory? -/
def HomeWant.enters : HomeWant → Bool
  | .tower .. => true
  | .mcast ts => !ts.isEmpty
  | _ => false

/-- The entries of a line's set, least recently used first, where the set is full: 16 ways (R369, log 39). None while it has room. -/
def fullSet (s : State) (m line : Nat) : List Nat :=
  let x := getStack s m
  if x.dir.length < 16 then []
  else
    let l := x.dirOrder.filter (fun v => Config.dirSet v % 131072 = Config.dirSet line % 131072)
    if l.length < 16 then [] else l

/-- The line that leaves a full set: the least recently used one that no request waits for. -/
def victimOf (s : State) (m line : Nat) : Option Nat := (fullSet s m line).find? (fun v => !lineBusy s m v)

/-- May the home begin a request: its line is not busy, and its directory has room or can make it? -/
def mayBegin (s : State) (m line : Nat) (w : HomeWant) : Bool :=
  !lineBusy s m line &&
    (!w.enters || (dirOf s m line).isSome || (fullSet s m line).isEmpty || (victimOf s m line).isSome)

/-- The home begins a request that it may begin (Table 8.7). Where the directory has to make room, the line of the victim is recalled from every
tower that holds it, and the request goes to the front of the queue. -/
def beginWant (m line : Nat) (w : HomeWant) (s : State) : State :=
  match dirOf s m line with
  | none =>
    (match (if w.enters then victimOf s m line else none) with
     | none => serveWant m line w [] s
     | some v =>
       let s := modStack m (fun x => { x with queue := (line, w) :: x.queue }) s
       askTowers m v (.evict line) (((dirOf s m v).map (fun e => e.towers)).getD [] |>.map (fun t => (t, 1))) [] s)
  | some (.shared l) =>
    (match w with
     | .tower t excl _ =>
       if excl then askTowers m line w ((l.filter (fun u => u ≠ t)).map (fun u => (u, 2))) [] s
       else serveWant m line w (l.filter (fun u => u ≠ t)) s
     | .extWrite .. => askTowers m line w (l.map (fun u => (u, 2))) [] s
     | _ => serveWant m line w l s)
  | some (.owned o) =>
    (match w with
     | .tower t excl _ => if o = t then serveWant m line w [] s else askTowers m line w [(o, if excl then 1 else 0)] [] s
     | .extWrite .. => askTowers m line w [(o, 1)] [] s
     | _ => askTowers m line w [(o, 0)] [] s)

/-- Take the first request of the queue that may begin. -/
def takeReady (s : State) (m : Nat) : List (Nat × HomeWant) → Option ((Nat × HomeWant) × List (Nat × HomeWant))
  | [] => none
  | x :: r => if mayBegin s m x.1 x.2 then some (x, r) else (takeReady s m r).map (fun y => (y.1, x :: y.2))

/-- The home goes on with the requests that wait, in their order, as far as it can (R365). -/
def serveQueue : Nat → Nat → State → State
  | 0, _, s => s
  | n + 1, m, s =>
    match takeReady s m (getStack s m).queue with
    | none => s
    | some (x, rest) => serveQueue n m (beginWant m x.1 x.2 (modStack m (fun y => { y with queue := rest }) s))

/-- Go on with everything that waits. -/
def homeGoesOn (m : Nat) (s : State) : State := serveQueue ((getStack s m).queue.length + 1) m s

/-- A request arrives: it waits behind those of its line that came before. -/
def homeRequest (m line : Nat) (w : HomeWant) (s : State) : State :=
  homeGoesOn m (modStack m (fun x => { x with queue := x.queue ++ [(line, w)] }) s)

/-! ### Requests of the towers and from outside -/

/-- Has a tower a request for the line at the home already? -/
def towerAsks (s : State) (m t line : Nat) : Bool :=
  let own := fun (w : HomeWant) => match w with
    | .tower u _ _ => decide (u = t)
    | _ => false
  (getStack s m).queue.any (fun x => decide (x.1 = line) && own x.2) || (getStack s m).recalls.any (fun r => decide (r.line = line) && own r.want)

/-- May a tower ask for a line: it is homed here, the tower is in service with a stack cache (R334), and no request or grant of the line is on its
way for it? -/
def mayAsk (s : State) (m t line : Nat) : Bool :=
  homedAt s m line && decide ((getTower s t).pieces < 12) && !getB s 0x21C t && !grantComing s m t line && !towerAsks s m t line

/-- A tower's read miss, or its write miss or write to a Shared line. -/
def towerMiss (m t line : Nat) (excl whole : Bool) (s : State) : State :=
  if mayAsk s m t line && decide (lineOf s t line < (if excl then 2 else 1)) then homeRequest m line (.tower t excl whole) s else s

/-- The line of a function's address, where it is stack memory homed here. -/
def homeLine (s : State) (m fn addr : Nat) : Option Nat :=
  match devAddr s fn addr with
  | none => none
  | some d => if homedAt s m (d / 512) then some (d / 512) else none

/-- A request from outside the towers; none of a function that is being reset (Table 4.15). -/
def outsideAsk (m fn addr : Nat) (w : HomeWant) (s : State) : State :=
  if resetting s fn then s
  else
    match homeLine s m fn addr with
    | none => s
    | some line => homeRequest m line w s

/-! ### Answers of the towers -/

/-- A tower's answer to what it was sent: the request's list loses it, and the request is served with the last answer; a tower that was asked to
keep the line is then one of its sharers (Table 8.7). -/
def answer (m t line kind : Nat) (keep : Bool) (s : State) : State :=
  match (getStack s m).recalls.find? (fun r => r.line = line && r.left.contains (t, kind)) with
  | none => s
  | some r =>
    let left := r.left.filter (fun e => e ≠ (t, kind))
    let put := fun (q : Recall) => if q = r then { q with left := left } else q
    let s := modStack m (fun x => { x with recalls :=
      if left.isEmpty then x.recalls.filter (fun q => q ≠ r) else x.recalls.map put }) s
    if left.isEmpty then homeGoesOn m (serveWant m line r.want (if keep then [t] else []) s) else s

/-- Was this tower sent this message for the line, and can it answer (R367: not before its granted access is done)? -/
def asked (s : State) (m t line kind : Nat) : Bool :=
  (getStack s m).recalls.any (fun r => r.line = line && r.left.contains (t, kind)) && !grantComing s m t line

/-- Is this tower's write-back of the line not yet acknowledged? -/
def writingBack (s : State) (m t line : Nat) : Bool := (getStack s m).writebacks.contains (line, t)

/-- WB (Table 8.7): the home takes the write-back of a Modified line; a recall of it outstanding to the same tower is served by
it, and its RECALL_NACK is still to come (R368). -/
def takeBack (m t line : Nat) (s : State) : State :=
  if !homedAt s m line || decide (lineOf s t line ≠ 3) || writingBack s m t line then s
  else
    let s := modStack m (fun x => { x with writebacks := x.writebacks ++ [(line, t)] }) s
    match (getStack s m).recalls.find? (fun r => r.line = line && (r.left.contains (t, 0) || r.left.contains (t, 1))) with
    | some r =>
      let s := modStack m (fun x => { x with nacks := x.nacks ++ [(line, t)] }) (freeDir m line s)
      answer m t line (if r.left.contains (t, 0) then 0 else 1) false s
    | none => if dirOf s m line = some (.owned t) then homeGoesOn m (freeDir m line s) else s

/-! ### Arrivals of one cycle (R365) -/

/-- One arrival. -/
def takeArrival (m : Nat) (s : State) : HomeArrival → State
  | .writeBack t line => takeBack m t line s
  | .gets t line => towerMiss m t line false false s
  | .getx t line whole => towerMiss m t line true whole s
  | .read fn addr => outsideAsk m fn addr (.extRead fn addr) s
  | .write fn addr data blot => outsideAsk m fn addr (.extWrite fn addr (data.take (64 - addr % 64)) blot) s

/-- The place of an arrival among those of its cycle: write-backs, towers in rotating order after the one last granted, then requesters from
outside by number. -/
def arrivalRank (last : Nat) : HomeArrival → Nat
  | .writeBack .. => 0
  | .gets t _ => 1 + (t + 15 - last) % 16
  | .getx t _ _ => 1 + (t + 15 - last) % 16
  | .read fn _ => 17 + fn
  | .write fn _ _ _ => 17 + fn

/-- The arrivals of a cycle in the order in which the home takes them. -/
def arrivalOrder (last : Nat) (l : List HomeArrival) : List HomeArrival :=
  (List.range 82).flatMap (fun i => l.filter (fun a => arrivalRank last a = i))

/-- The home takes the arrivals of one NCLK cycle. -/
def homeCycle (m : Nat) (l : List HomeArrival) (s : State) : State :=
  (arrivalOrder (getF s (dirReg m 3) 0 4) l).foldl (fun s a => takeArrival m s a) s

/-- A home forgets lines that a test accepts. -/
def forgetLines (p : Nat → Bool) (x : Stack) : Stack :=
  { x with dir := x.dir.filter (fun e => !p e.1), dirOrder := x.dirOrder.filter (fun l => !p l), queue := x.queue.filter (fun e => !p e.1)
           recalls := x.recalls.filter (fun r => !p r.line), grants := x.grants.filter (fun g => !p g.line) }

/-! ### The page buffer (R380) -/

def buffered (s : State) (m ch lpi : Nat) : Bool := (kvGet (fun _ => []) (getStack s m).buffer ch).contains lpi
/-- A page enters the buffer of its channel, or moves to its front; 16 pages stay. -/
def bufferPut (m ch lpi : Nat) (s : State) : State :=
  modStack m (fun x => { x with buffer := kvMod (fun _ => []) x.buffer ch (fun l => (lpi :: l.filter (fun y => y ≠ lpi)).take 16) }) s
def bufferDrop (m ch lpi : Nat) (s : State) : State :=
  modStack m (fun x => { x with buffer := kvMod (fun _ => []) x.buffer ch (fun l => l.filter (fun y => y ≠ lpi)) }) s

/-! ### Requests to the channels (R408) -/

/-- The queue of a source on a channel, oldest first. -/
def sourceQueue (s : State) (m ch src : Nat) : List PageReq := kvGet (fun _ => []) (getStack s m).queues (ch * 128 + src)
/-- A request enters its source's queue on a channel. -/
def queuePage (m ch : Nat) (r : PageReq) (s : State) : State :=
  modStack m (fun x => { x with queues := kvMod (fun _ => []) x.queues (ch * 128 + r.source) (fun q => q ++ [r]) }) s
/-- The read of a page for a function, on its way to the page buffer unless it is there. -/
def queueRead (fn : Nat) (l : DramLoc) (s : State) : State :=
  if buffered s l.stack l.channel l.lpi then s
  else queuePage l.stack l.channel
    { source := Fin.ofNat 69 fn, bank := Fin.ofNat 16 l.bank, page := Fin.ofNat 65600 l.page, op := .read } s

/-! ### MCAST_FILL (R49, R322, R334) -/

/-- The rows' lines are granted Shared to the named towers; one without a stack cache is skipped. Each page is one read of the issuing
function's source (R383). -/
def mcastLines (fn : Nat) (towers : List Nat) (gs : List Nat) (s : State) : State :=
  let lines := (gs.filterMap (fun a => if (reach s { fn := fn, org := 0 } false a allBytes).isSome then (devAddr s fn a).map (fun d => d / 512) else none)).dedup
  let pages := (lines.map (fun l => l / 4)).dedup
  let s := pages.foldl (fun s p => match dramOf s (p * 2048) with
    | none => s
    | some l => queueRead fn l s) s
  lines.foldl (fun s line =>
    match dramOf s (line * 512) with
    | none => s
    | some l => homeRequest l.stack line (.mcast (towers.filter (fun t => decide ((getTower s t).pieces < 12)))) s) s

end Sys2Proof.Machine
end

