-- ==== Sys2Proof/Machine/MCore.lean ====
section
/-!
DEFINITION. The M-core (chapter 6): stationary sets, the pass with its proof columns, the accumulator, and the M-core strokes of
Tables 6.10 to 6.15.
-/
namespace Sys2Proof.Machine

/-! ### State of a core -/

def mcoreOf (k : Nat) : Nat := noCluster k * 16 + noCore k
def getM (s : State) (k : Nat) : MCore := kvGet (fun _ => {}) s.mcores (mcoreOf k)
def modM (k : Nat) (g : MCore → MCore) (s : State) : State := { s with mcores := kvMod (fun _ => {}) s.mcores (mcoreOf k) g }

/-- Keys of a row of a stationary set and of an element in it. -/
def rowKey (set a t : Nat) : Nat := (set * 4 + a) * 32 + t

def MCore.elemAt (m : MCore) (set a t k : Nat) : Nat := kvGet (fun _ => 0) m.elem (rowKey set a t * 32 + k)
def MCore.fmtAt (m : MCore) (set a : Nat) : Nat := kvGet (fun _ => 0) m.fmt (set * 4 + a)
def MCore.scaleAt (m : MCore) (set a t : Nat) : Nat := kvGet (fun _ => 0) m.scale (rowKey set a t)
def MCore.rowTagAt (m : MCore) (set a t : Nat) : Bool := kvGet (fun _ => m.fresh) m.rowTag (rowKey set a t)
def MCore.accAt (m : MCore) (a t x : Nat) : Word := kvGet (fun _ => 0#32) m.acc ((a * 32 + t) * 512 + x)
def MCore.accTagAt (m : MCore) (a t x : Nat) : Bool := kvGet (fun _ => m.fresh) m.accTag ((a * 32 + t) * 32 + x / 16)

def MCore.setRowTag (m : MCore) (set a t : Nat) (b : Bool) : MCore :=
  { m with rowTag := kvPut (fun _ => m.fresh) m.rowTag (rowKey set a t) b }

/-- Write adjoining entries of an accumulator row: a granule of 16 entries takes the OR of the tags written to it, and keeps its
own tag too where it is written in part (R228, R265, R275). -/
def MCore.putAcc (m : MCore) (a t x0 : Nat) (l : List (Word × Bool)) : MCore :=
  let row := a * 32 + t
  let acc := (List.range l.length).foldl (fun acc i =>
    kvPut (fun _ => 0#32) acc (row * 512 + x0 + i) (nth (0#32, false) l i).1) m.acc
  let g0 := x0 / 16
  let n := if l.isEmpty then 0 else (x0 + l.length - 1) / 16 + 1 - g0
  let tags := (List.range n).foldl (fun tags i =>
    let g := g0 + i
    let mine := (List.range l.length).filter (fun j => (x0 + j) / 16 = g)
    let b := mine.any (fun j => (nth (0#32, false) l j).2)
    let old := decide (mine.length < 16) && m.accTagAt a t (16 * g)
    kvPut (fun _ => m.fresh) tags (row * 32 + g) (b || old)) m.accTag
  { m with acc := acc, accTag := tags }

/-! ### Units and holds (R241, R250, R251) -/

/-- The unit that a stroke occupies: 1 the loader, 2 the write-back unit, 3 the stream unit, 0 none (Table 6.8). -/
def mUnit (w : StrokeWord) : Nat :=
  if sUnit w ≠ 0 then 0
  else if [0x10, 0x11, 0x30].contains (sOpcode w) then 1
  else if sOpcode w = 0x40 then 2
  else if sOpcode w = 0x20 then 3 else 0

/-- Does a stroke in flight still occupy its unit: a pass until its last weight row has reached it, another stroke until it completes (R241)? -/
def occupies (f : Flight) : Bool := decide (mUnit f.word ≠ 3 ∨ f.rows ≠ 0)

/-- What a stroke reads or writes in the core: the arrays, the set (2 for none), and the accumulator columns. -/
structure MUse where
  arrays : Nat := 0
  set : Nat := 2
  col : Nat := 0
  cols : Nat := 0
  deriving DecidableEq, Repr

/-- Fields of MPASS. -/
def passArrays (w : StrokeWord) : Nat := sf w 101 4
def passSet (w : StrokeWord) : Nat := sf w 100 1
def passInit (w : StrokeWord) : Bool := sb w 99
def passCol (w : StrokeWord) : Nat := sf w 90 9
def passN (w : StrokeWord) : Nat := sf w 80 10
def passFmt (w : StrokeWord) : Nat := sf w 105 4
def passProof (w : StrokeWord) : Bool := sb w 109
def passTol (w : StrokeWord) : Nat := sf w 110 5
/-- Fields of MACL and MWB. -/
def accArrays (w : StrokeWord) : Nat := sf w 82 4
def accCol (w : StrokeWord) : Nat := sf w 86 9
def accN (w : StrokeWord) : Nat := sf w 95 10

def mReads (w : StrokeWord) : MUse :=
  if sUnit w ≠ 0 then {}
  else if sOpcode w = 0x20 then
    { arrays := passArrays w, set := passSet w, col := passCol w, cols := if passInit w then passN w else 0 }
  else if sOpcode w = 0x40 then { arrays := accArrays w, col := accCol w, cols := accN w }
  else {}

def mWrites (w : StrokeWord) : MUse :=
  if sUnit w ≠ 0 then {}
  else if sOpcode w = 0x10 ∨ sOpcode w = 0x11 then { arrays := sf w 81 4, set := sf w 85 1 }
  else if sOpcode w = 0x20 then { arrays := passArrays w, col := passCol w, cols := passN w }
  else if sOpcode w = 0x30 then { arrays := accArrays w, col := accCol w, cols := accN w }
  else if sOpcode w = 0x40 ∧ sb w 110 then { arrays := accArrays w, col := accCol w, cols := accN w }
  else {}

/-- Do two uses share a set or an accumulator entry? -/
def MUse.meets (x y : MUse) : Bool :=
  decide (x.arrays &&& y.arrays ≠ 0) &&
    (decide (x.set < 2 ∧ x.set = y.set) || decide (x.col < y.col + y.cols ∧ y.col < x.col + x.cols))

/-- A pass with INIT = ACC follows one of equal ACC_COL and rate without waiting for its completion (R251). -/
def chained (p q : StrokeWord) : Bool :=
  decide (sOpcode p = 0x20 ∧ sOpcode q = 0x20 ∧ passCol p = passCol q ∧ elemBits (passFmt p) = elemBits (passFmt q) ∧
    passInit q)

/-- Does the core hold this stroke (R241, R250, R251)? -/
def mHeld (k : Nat) (w : StrokeWord) (s : State) : Bool :=
  (List.range 4).any (fun r =>
    let k2 := coreNo k * 8 + r
    (getRunner s k2).flight.any (fun f =>
      (decide (mUnit w ≠ 0) && decide (mUnit f.word = mUnit w) && occupies f) ||
      (mWrites w).meets (mReads f.word) && !(decide (k2 = k) && chained f.word w) ||
      (decide (k2 = k) && (mReads w).meets (mWrites f.word) && !chained f.word w)))

/-- An M-core stroke that is not held has its effect. -/
def mEffect (f : Nat → StrokeWord → State → Option StrokeOut) (k : Nat) (w : StrokeWord) (s : State) : Option StrokeOut :=
  if mHeld k w s then none else f k w s

/-! ### MSETB (Table 6.10) -/

/-- Set or add to an address base. -/
def msetbEffect (k : Nat) (w : StrokeWord) (s : State) : Option StrokeOut :=
  let b := sf w 80 3
  let v := sf w 32 48
  some { s := if sb w 83 then setAb k b (getAb s k b + v) (getAbTag s k b) s else setAb k b v false s }

/-! ### MLDA and MLDS (Tables 6.11 and 6.12) -/

/-- Element k of a packed row in a format (R253). -/
def elemOf (fmt : Nat) (l : List Byte) (k : Nat) : Nat :=
  let n := elemBits fmt
  if n = 4 then bits (nth 0#8 l (k / 2)).toNat (4 * (k % 2)) 4
  else if n = 16 then field l (2 * k) 2
  else if fmt = 8 ∨ fmt = 9 then (nth 0#8 l k).toNat % 64
  else (nth 0#8 l k).toNat

/-- Bytes of 32 elements of a format. -/
def rowBytes (fmt : Nat) : Nat := 4 * elemBits fmt

/-- Write row t of a set in an array from its packed bytes; the row's tag is the OR of its granules' (R273). -/
def MCore.loadRow (m : MCore) (set fmt a t : Nat) (l : List TByte) : MCore :=
  let b := tBytes l
  let e := (List.range 32).foldl (fun e i => kvPut (fun _ => 0) e (rowKey set a t * 32 + i) (elemOf fmt b i)) m.elem
  { m with elem := e, fmt := kvPut (fun _ => 0) m.fmt (set * 4 + a) fmt }.setRowTag set a t (tBlot l)

/-- The rows of the named arrays, in order: (array, token). -/
def rowsOf (mask : Nat) : List (Nat × Nat) := (arraysOf mask).flatMap (fun a => (List.range 32).map (fun t => (a, t)))

/-- Does a stroke's address come from a tagged base (R229)? -/
def addrTag (s : State) (k f : Nat) : Bool := getAbTag s k (f % 8)

def mldaEffect (k : Nat) (w : StrokeWord) (s : State) : Option StrokeOut :=
  let fmt := sf w 86 4
  let set := sf w 85 1
  let rows := rowsOf (sf w 81 4)
  let n := rowBytes fmt
  if sb w 80 then
    (takeBytes (noCluster k) (mAddr w % 8) (rows.length * n) s).map (fun x =>
      { s := modM k (fun m => (List.range rows.length).foldl (fun m i =>
          let r := nth (0, 0) rows i
          m.loadRow set fmt r.1 r.2 ((x.1.drop (i * n)).take n)) m) x.2 })
  else
    let base := addrOf s k (mAddr w)
    let tag := addrTag s k (mAddr w)
    some (rows.foldl (fun (o : StrokeOut) r =>
      let x := coreRead k (base + (32 * r.1 + r.2) * sf w 90 16 * 16) n tag o.s
      { o with s := modM k (fun m => m.loadRow set fmt r.1 r.2 x.data) x.s, busErr := o.busErr || !x.ok }) { s := s })

/-- Write a row scale; its granule's blot is OR-ed into the row's tag (R257, R273). -/
def MCore.loadScale (m : MCore) (set a t : Nat) (b : TByte) : MCore :=
  { m with scale := kvPut (fun _ => 0) m.scale (rowKey set a t) b.1.toNat }.setRowTag set a t (m.rowTagAt set a t || b.2)

def mldsEffect (k : Nat) (w : StrokeWord) (s : State) : Option StrokeOut :=
  let set := sf w 85 1
  let rows := rowsOf (sf w 81 4)
  if sb w 80 then
    (takeBytes (noCluster k) (mAddr w % 8) rows.length s).map (fun x =>
      { s := modM k (fun m => (List.range rows.length).foldl (fun m i =>
          let r := nth (0, 0) rows i
          m.loadScale set r.1 r.2 (nth (0#8, true) x.1 i)) m) x.2 })
  else
    let base := addrOf s k (mAddr w)
    let tag := addrTag s k (mAddr w)
    some (rows.foldl (fun (o : StrokeOut) r =>
      let x := coreRead k (base + (32 * r.1 + r.2) * sf w 86 16) 1 tag o.s
      { o with s := modM k (fun m => m.loadScale set r.1 r.2 (nth (0#8, true) x.data 0)) x.s,
               busErr := o.busErr || !x.ok }) { s := s })

/-! ### MPASS (R242 to R264, R273 to R281, R285) -/

/-- Is a pair of weight and activation format permitted (Table 6.5)? -/
def pairOk (wf af : Nat) : Bool :=
  let f8 := fun (x : Nat) => ([0, 1, 6, 7, 8, 9] : List Nat).contains x
  if f8 wf then f8 af
  else if wf = 2 ∨ wf = 11 then decide (af = 2 ∨ af = 11)
  else if wf = 10 then f8 af || decide (af = 10)
  else if wf = 3 then decide (af = 3 ∨ af = 2)
  else if wf = 4 ∨ wf = 5 then decide (af = 4 ∨ af = 5)
  else false

/-- Is a permitted pair of the INT class (R254)? -/
def intPair (wf af : Nat) : Bool := decide (wf = 2 ∧ af = 2) || decide (wf = 3 ∧ (af = 3 ∨ af = 2))

/-- A weight column as it enters: its 32 elements, its scale byte, its tag. -/
structure WCol where
  elems : List Nat
  scale : Nat
  tag : Bool
  deriving DecidableEq, Repr

/-- Does a weight granule lie in the tower's own scratch window or in stack memory (R245)? -/
def weightPlace (s : State) (acc : Acc) (c a : Nat) : Bool :=
  match devAddr s acc.fn a with
  | none => false
  | some d =>
    match place d with
    | .plain _ => true
    | .pim _ => true
    | .scratch t _ => decide (t = c / 4)
    | _ => false

/-- Read bytes of a weight region: a granule that lies elsewhere is a bus error. -/
def weightRead (k a n : Nat) (tag bad : Bool) (s : State) : ReadT :=
  let acc := accOf s k
  let gs := (spanGrans a n).map (fun g =>
    (g, if bad || !weightPlace s acc (noCluster k) g then { data := List.replicate 64 0#8, blot := true, ok := false }
        else readPart s acc g (spanBytes a n g)))
  { data := ((gs.flatMap (fun x => x.2.data.map (fun b => (b, x.2.blot || tag)))).drop (a % 64)).take n
    ok := gs.all (fun x => x.2.ok)
    s := noteSpan k acc false 512 a (if bad then 0 else n) <| gs.foldl (fun s x =>
      if x.2.ok then s
      else if bad || !weightPlace s acc (noCluster k) x.1 then accessError acc x.1 s
      else readError acc x.1 s) s }

/-- The weight columns of a pass (R245, R255, R256, R274), and whether the region met no bus error. -/
def weightCols (k : Nat) (w : StrokeWord) (s : State) : List WCol × Bool × State :=
  let wf := passFmt w
  let n := passN w
  let a := addrOf s k (mAddr w)
  let tag := addrTag s k (mAddr w)
  let bad := decide (a % 512 ≠ 0)
  let b := rowBytes wf
  let sc := if scaled wf then weightRead k a n tag bad s else { data := [], ok := true, s := s }
  let el := weightRead k (if scaled wf then a + 512 else a) (n * b) tag bad sc.s
  ((List.range n).map (fun j =>
    let l := (el.data.drop (j * b)).take b
    let t := nth (127#8, false) sc.data j
    { elems := (List.range 32).map (fun i => elemOf wf (tBytes l) i),
      scale := t.1.toNat,
      tag := tBlot l || (scaled wf && t.2) }),
   sc.ok && el.ok, el.s)

/-- Value of an element with its scale (R254, R258, R259). -/
def scaledVal (f x sc : Nat) : FV := if scaled f then fvMul (elemVal f x) (scaleVal sc) else elemVal f x

/-- One row's accumulation over k ascending, in the float class (R260, R262). -/
def floatRow (p : List (FV × FV)) (s0 : Nat) : Nat := p.foldl (fun s x => enc32 (fvAdd (dec32 s) (fvMul x.1 x.2))) s0

/-- The same in the INT class (R263). -/
def intRow (p : List (Int × Int)) (s0 : Nat) : Nat := p.foldl (fun s x => wrapInt 32 ((s : Int) + x.1 * x.2)) s0

/-- One output of a pass in an array: its psum-in and its value. -/
structure PassOut where
  psum : Nat
  value : Nat
  deriving DecidableEq, Repr

/-- The outputs of row t of an array for every column. -/
def passRow (m : MCore) (w : StrokeWord) (cols : List WCol) (a t : Nat) : List PassOut :=
  let set := passSet w
  let af := m.fmtAt set a
  let wf := passFmt w
  let psum := fun n => if passInit w then (m.accAt a t (passCol w + n)).toNat else 0
  if intPair wf af then
    let av := (List.range 32).map (fun i => elemInt af (m.elemAt set a t i))
    (List.range cols.length).map (fun n =>
      let c := nth { elems := [], scale := 0, tag := true } cols n
      { psum := psum n, value := intRow (av.zip (c.elems.map (elemInt wf))) (psum n) })
  else
    let av := (List.range 32).map (fun i => scaledVal af (m.elemAt set a t i) (m.scaleAt set a t))
    (List.range cols.length).map (fun n =>
      let c := nth { elems := [], scale := 0, tag := true } cols n
      { psum := psum n, value := floatRow (av.zip (c.elems.map (fun x => scaledVal wf x c.scale))) (psum n) })

/-- The exact sum of values, rounded once (R276, R277). -/
def sumRound (l : List FV) : Nat := enc32 (l.foldl fvAdd (.fin false 0 0))

/-- The proof column of a block (R276): the float entries and the integer entries. -/
def proofFloat (wf : Nat) (blk : List WCol) : List Nat :=
  (List.range 32).map (fun i => sumRound (blk.map (fun c => scaledVal wf (nth 0 c.elems i) c.scale)))
def proofInt (wf : Nat) (blk : List WCol) : List Int :=
  (List.range 32).map (fun i => (blk.map (fun c => elemInt wf (nth 0 c.elems i))).foldl (fun x y => x + y) 0)

/-- The exponent of the unit u of R278 for the magnitude R, as binary32 encodings. -/
def proofUnit (l : List Nat) : Int :=
  let r := l.foldl (fun b x => if fvLt (dec32 b) (fvAbs (dec32 x)) then x % 2 ^ 31 else b) 0
  match dec32 r with
  | .fin _ 0 _ => -149
  | .fin _ m e => max (e + Nat.log2 m) (-126) - 23
  | _ => -149

/-- What the checker finds for one row of a block: 0 match, 1 mismatch, 2 skipped (R277, R278). -/
def proofRow (m : MCore) (w : StrokeWord) (a t : Nat) (blk : List WCol) (outs : List PassOut) : Nat :=
  let set := passSet w
  let af := m.fmtAt set a
  let wf := passFmt w
  if intPair wf af then
    let q0 := outs.foldl (fun x o => (x + o.psum) % 2 ^ 32) 0
    let av := (List.range 32).map (fun i => elemInt af (m.elemAt set a t i))
    let q := intRow (av.zip (proofInt wf blk)) q0
    let s := outs.foldl (fun x o => (x + o.value) % 2 ^ 32) 0
    if s = q then 0 else 1
  else
    let q0 := if passInit w then sumRound (outs.map (fun o => dec32 o.psum)) else 0
    let av := (List.range 32).map (fun i => scaledVal af (m.elemAt set a t i) (m.scaleAt set a t))
    let q := floatRow (av.zip ((proofFloat wf blk).map dec32)) q0
    let s := sumRound (outs.map (fun o => dec32 o.value))
    let all := s :: q :: outs.map (fun o => o.value)
    if all.any (fun x => !fvFinite (dec32 x)) then 2
    else
      let d := fvAbs (fvAdd (dec32 s) (fvNeg (dec32 q)))
      if fvLt (.fin false 1 (proofUnit all + passTol w)) d then 1 else 0

/-- What a pass finds in its proof blocks: the mismatching blocks by array and block, and the skipped comparisons. -/
structure ProofOut where
  bad : List (Nat × Nat) := []
  skips : Nat := 0

/-- Check every block of an array. -/
def proofArray (m : MCore) (w : StrokeWord) (cols : List WCol) (a : Nat) (rows : List (List PassOut)) (o : ProofOut) : ProofOut :=
  (List.range (cols.length / 64)).foldl (fun o b =>
    let blk := (cols.drop (64 * b)).take 64
    let r := (List.range 32).map (fun t => proofRow m w a t blk (((nth [] rows t).drop (64 * b)).take 64))
    { bad := if r.contains 1 then o.bad ++ [(a, b)] else o.bad, skips := o.skips + (r.filter (fun x => x = 2)).length }) o

/-- One array of a pass: its outputs with their tags written to the accumulator (R275, R285), and its proof. -/
def passArray (m : MCore) (w : StrokeWord) (cols : List WCol) (a : Nat) (o : ProofOut) : MCore × ProofOut × Bool :=
  let ok := pairOk (passFmt w) (m.fmtAt (passSet w) a)
  if ok then
    let rows := (List.range 32).map (fun t => passRow m w cols a t)
    let m' := (List.range 32).foldl (fun x t =>
      let rt := m.rowTagAt (passSet w) a t
      x.putAcc a t (passCol w) ((List.range cols.length).map (fun n =>
        (BitVec.ofNat 32 (nth { psum := 0, value := 0 } (nth [] rows t) n).value,
         rt || (nth { elems := [], scale := 0, tag := true } cols n).tag ||
           (passInit w && m.accTagAt a t (passCol w + n)))))) m
    (m', if passProof w then proofArray m w cols a rows o else o, true)
  else
    ((List.range 32).foldl (fun x t => x.putAcc a t (passCol w) (cols.map (fun _ => (0#32, true)))) m, o, false)

/-- Set the tags of the accumulator granules that a block's 64 columns touch, in every row of an array (R279). -/
def MCore.blotBlock (m : MCore) (a col b : Nat) : MCore :=
  let x0 := col + 64 * b
  (List.range 32).foldl (fun m t =>
    (List.range ((x0 + 63) / 16 + 1 - x0 / 16)).foldl (fun m i =>
      { m with accTag := kvPut (fun _ => m.fresh) m.accTag ((a * 32 + t) * 32 + x0 / 16 + i) true }) m) m

/-- The lap index of the job on a cluster. -/
def lapOf (s : State) (c : Nat) : Nat := ((jobOf s c).map (fun j => j.next - 1)).getD 0

/-- A mismatching block: its blots, its count, its record, and its event of the core (R279, R280). -/
def proofMismatch (k : Nat) (w : StrokeWord) (x : Nat × Nat) (s : State) : State :=
  let c := noCluster k
  let p := physCore s c 0 (noCore k)
  let s := modM k (fun m => m.blotBlock x.1 (passCol w) x.2) s
  let s := addReg (mcBlk c p + 4) 1 s
  let s := report 0x101 (oCore c 0 p x.1) (clusterFn s c) (65536 * x.2 + lapOf s c % 65536) s
  coreEvent c 0 p s

/-- The addresses of a pass's weight rows (R255, R256); none where the whole region is a bus error (R245). -/
def weightRows (k : Nat) (w : StrokeWord) (s : State) : List Nat :=
  let a := addrOf s k (mAddr w)
  if a % 512 ≠ 0 then []
  else (List.range (ceilDiv (passN w * rowBytes (passFmt w)) 512 + b2n (scaled (passFmt w)))).map (fun i => a + 512 * i)

/-- A pass. An array whose format its weights do not pair with makes it a bus error (R285). `faulty` names the blocks (array, block) whose proof columns a silent fault makes mismatch. -/
def mpassEffect (faulty : List (Nat × Nat)) (k : Nat) (w : StrokeWord) (s : State) : Option StrokeOut :=
  let cw := weightCols k w s
  let arrays := arraysOf (passArrays w)
  let r := arrays.foldl (fun (x : MCore × ProofOut × Bool) a =>
    let y := passArray x.1 w cw.1 a x.2.1
    (y.1, y.2.1, x.2.2 && y.2.2)) (getM s k, {}, true)
  let hit := faulty.filter (fun f => passProof w && arrays.contains f.1 && decide (f.2 < passN w / 64) && !r.2.1.bad.contains f &&
    pairOk (passFmt w) ((getM s k).fmtAt (passSet w) f.1))
  let need := weightRows k w s
  let wait := (need.filter (fun a => !(getM s k).held.contains a)).length
  let s := modM k (fun m => { r.1 with held := m.held.filter (fun a => !need.contains a), requested := m.requested }) cw.2.2
  let acc := accOf s k
  let s := if r.2.2 then s else report 0x20A acc.org (accFn acc) (addrOf s k (mAddr w)) s
  let c := noCluster k
  let s := addReg (mcBlk c (physCore s c 0 (noCore k)) + 8) r.2.1.skips s
  some { s := (r.2.1.bad ++ hit).foldl (fun s x => proofMismatch k w x s) s, busErr := !cw.2.1 || !r.2.2
         rows := wait }

/-! ### MACL (Table 6.14) -/

def maclEffect (k : Nat) (w : StrokeWord) (s : State) : Option StrokeOut :=
  let rows := rowsOf (accArrays w)
  let n := accN w
  if sb w 80 then
    some { s := modM k (fun m => rows.foldl (fun m r => m.putAcc r.1 r.2 (accCol w) (List.replicate n (0#32, false))) m) s }
  else
    let base := addrOf s k (mAddr w)
    let tag := addrTag s k (mAddr w)
    some (rows.foldl (fun (o : StrokeOut) r =>
      let a := if sb w 81 then base else base + (32 * r.1 + r.2) * sf w 105 16 * 16
      let x := coreRead k a (4 * n) tag o.s
      let l := (List.range n).map (fun i =>
        let b := (x.data.drop (4 * i)).take 4
        (BitVec.ofNat 32 (leNat (tBytes b)), tBlot b))
      { o with s := modM k (fun m => m.putAcc r.1 r.2 (accCol w) l) x.s, busErr := o.busErr || !x.ok }) { s := s })

/-! ### MWB (R267 to R272, Table 6.15) -/

/-- Bytes of an output format (Table 6.6). -/
def outSize (f : Nat) : Nat := if f = 0 ∨ f = 8 then 4 else if f = 1 ∨ f = 2 then 2 else 1

/-- Convert an accumulator entry (Table 6.6). -/
def outConv (f : Nat) (sat : Bool) (x : Word) : Nat :=
  match f with
  | 1 => fpEnc fmtBF16 .rne sat (dec32 x.toNat)
  | 2 => fpEnc fmtF16 .rne sat (dec32 x.toNat)
  | 3 => fpEnc fmtE4M3 .rne sat (dec32 x.toNat)
  | 4 => fpEnc fmtE5M2 .rne sat (dec32 x.toNat)
  | 9 => wrapInt 8 (max (-128) (min 127 x.toInt))
  | _ => x.toNat

/-- A row's converted entries as tagged bytes. -/
def outRow (m : MCore) (w : StrokeWord) (a t : Nat) : List TByte :=
  let f := sf w 105 4
  (List.range (accN w)).flatMap (fun n =>
    (leBytes (outSize f) (outConv f (sb w 109) (m.accAt a t (accCol w + n)))).map
      (fun b => (b, m.accTagAt a t (accCol w + n))))

/-- CLEAR: the entries read become zero with clear tags (R267). -/
def wbClear (w : StrokeWord) (m : MCore) : MCore :=
  if sb w 110 then
    (rowsOf (accArrays w)).foldl (fun m r => m.putAcc r.1 r.2 (accCol w) (List.replicate (accN w) (0#32, false))) m
  else m

/-- Add the FP32 words read to those of a row (KIND ADD). -/
def addRow : List TByte → List TByte → List TByte
  | d0 :: d1 :: d2 :: d3 :: d, e0 :: e1 :: e2 :: e3 :: e =>
    let x := leNat [d0.1, d1.1, d2.1, d3.1]
    let y := leNat [e0.1, e1.1, e2.1, e3.1]
    let b := d0.2 || d1.2 || d2.2 || d3.2 || e0.2 || e1.2 || e2.2 || e3.2
    (leBytes 4 (f32add x y)).map (fun z => (z, b)) ++ addRow d e
  | _, _ => []

/-- The places and bytes that a STORE or ADD writes: the rows in Table 6.7's order. -/
def wbRows (s : State) (k : Nat) (w : StrokeWord) : List (Nat × List TByte) :=
  let base := addrOf s k (mAddr w)
  (rowsOf (accArrays w)).map (fun r => (base + (32 * r.1 + r.2) * sf w 111 16 * 16, outRow (getM s k) w r.1 r.2))

/-- KIND STORE. -/
def wbStore (k : Nat) (w : StrokeWord) (s : State) : Wrote :=
  let tag := addrTag s k (mAddr w)
  let size := outSize (sf w 105 4)
  (joinSpans (wbRows s k w)).foldl (fun x p =>
    if p.1 % size ≠ 0 then refuseWrite k p.1 x else coreWriteT k p.1 p.2 tag x) (.start s)

/-- KIND ADD. -/
def wbAdd (k : Nat) (w : StrokeWord) (s : State) : Wrote :=
  let tag := addrTag s k (mAddr w)
  (wbRows s k w).foldl (fun x p =>
    if p.1 % 4 ≠ 0 then refuseWrite k p.1 x
    else
      let r := coreRead k p.1 p.2.length tag x.s
      coreWriteT k p.1 (addRow r.data p.2) tag { x with s := r.s, ok := x.ok && r.ok }) (.start s)

/-- The sequence that a request names (Tables 11.6, 11.8 and 11.9). -/
def WalkReq.seq (x : WalkReq) : Nat :=
  match x.kind with
  | .append _ _ _ => field x.desc 0 4
  | .attention => field x.desc 16 4
  | .command _ _ l => l.headD 0

/-- Append a request to the home walker of a sequence (R475): the walker of floor die SEQ mod 2. -/
def queueWalk (x : WalkReq) (s : State) : State :=
  let d := x.seq % 2
  { s with atts := kvMod (fun _ => {}) s.atts d (fun a => { a with queue := a.queue ++ [x] }) }

/-- KIND KV: the descriptor is read, and the rows go to the walker that places them (R480 to R484); the stroke completes once
the walker has served it. -/
def wbKv (k : Nat) (w : StrokeWord) (s : State) : Option StrokeOut :=
  let r := coreRead k (addrOf s k (mAddr w)) 64 (addrTag s k (mAddr w)) s
  let m := getM s k
  let size := outSize (sf w 105 4)
  let rows := (rowsOf (accArrays w)).map (fun x =>
    let l := outRow m w x.1 x.2
    { data := tBytes l, tags := (List.range (accN w)).map (fun n => (nth (0#8, true) l (n * size)).2) : KvRow })
  let q : WalkReq :=
    { fn := (accOf s k).fn, runner := k, word := w, desc := tBytes r.data, blot := tBlot r.data || writesBlotted s k,
      kind := .append (sf w 105 4) (accN w) rows }
  some { s := queueWalk q r.s, busErr := !r.ok, transfers := 1 }

/-- MWB by its KIND (Table 6.7). -/
def mwbEffect (k : Nat) (w : StrokeWord) (s : State) : Option StrokeOut :=
  let kind := sf w 80 2
  let done := fun (o : StrokeOut) => { o with s := modM k (wbClear w) o.s }
  if kind = 0 ∨ kind = 1 then
    let x := if kind = 0 then wbStore k w s else wbAdd k w s
    some (done { s := x.s, busErr := !x.ok, blots := x.blots })
  else if kind = 2 then (wbKv k w s).map done
  else
    let ch := mAddr w % 8
    (pushBytes k ch (sRelay w) ((rowsOf (accArrays w)).flatMap (fun r => outRow (getM s k) w r.1 r.2)) s).map
      (fun s => done { s := s, chan := some ch })

/-! ### Weight rows (R246) -/

/-- The pass that streams on a core: its runner, its stroke and the rows it waits for. -/
def streaming (s : State) (c core : Nat) : Option (Nat × StrokeWord × Nat) :=
  (List.range 4).findSome? (fun r =>
    let k := runnerNo c 0 core r
    ((getRunner s k).flight.find? (fun f => isOp f.word 0 0x20 && decide (f.rows ≠ 0))).map (fun f => (k, f.word, f.rows)))

/-- The rows that the core may request next: of the streaming pass, and once it has none left, of the passes at the heads of its runners, those
not requested or buffered yet. -/
def rowsAhead (s : State) (c core : Nat) : List Nat :=
  let m := getM s (runnerNo c 0 core 0)
  let fresh := fun (l : List Nat) => l.filter (fun a => !m.requested.contains a && !m.held.contains a)
  let now := match streaming s c core with
    | none => []
    | some (k, w, n) =>
      let l := weightRows k w s
      fresh (l.drop (l.length - n))
  if !now.isEmpty then now
  else
    fresh ((List.range 4).flatMap (fun r =>
      let k := runnerNo c 0 core r
      match headOf (getRunner s k) with
      | none => []
      | some w => if isOp w 0 0x20 then weightRows k w s else []))

/-- The stream unit requests the next weight row: at most 8 are buffered or in flight. -/
def execWeightRowRequest (c : Fin 64) (core : Fin 16) (s : State) : Out :=
  .next (let k := runnerNo c 0 core 0
    let m := getM s k
    match rowsAhead s c core with
    | [] => s
    | a :: _ => if m.requested.length + m.held.length < 8 then modM k (fun m => { m with requested := m.requested ++ [a] }) s else s)

/-- The first flight of a pass that waits for rows takes one. -/
def feedRow : List Flight → List Flight
  | [] => []
  | f :: r => if isOp f.word 0 0x20 && decide (f.rows ≠ 0) then { f with rows := f.rows - 1 } :: r else f :: feedRow r

/-- The oldest requested weight row arrives: the streaming pass takes it when it is one of its rows, and another waits in the buffer. `stall` is
the MCLK cycles for which the core held for it with its buffer empty (Table 6.16), which count as held cycles of the cluster (R743). -/
def execWeightRowArrive (c : Fin 64) (core : Fin 16) (stall : Nat) (s : State) : Out :=
  .next (let k := runnerNo c 0 core 0
    match (getM s k).requested with
    | [] => s
    | a :: rest =>
      let s := modM k (fun m => { m with requested := rest }) s
      match (streaming s c core).filter (fun x => (weightRows x.1 x.2.1 s).contains a) with
      | some (r, _, _) =>
        let s := if stall = 0 then s else addReg (cluBlk c + 0x8022C) stall (markFree c s)
        addReg (mcBlk c (physCore s c 0 core) + 12) stall (modRunner r (fun x => { x with flight := feedRow x.flight }) s)
      | none => modM k (fun m => { m with held := m.held ++ [a] }) s)

end Sys2Proof.Machine
end

