-- ==== Sys2Proof/Machine/SCore.lean ====
section
/-!
DEFINITION. The S-core (7.8 to 7.10): scalar strokes, hurdle strokes, loops and skips, and transfer descriptors.
-/
namespace Sys2Proof.Machine

/-! ### Laps and programs (R185, R188) -/

/-- The logical cluster of a physical one in the job on it. -/
def logicalCluster (s : State) (c : Nat) : Nat :=
  ((jobOf s c).bind (fun j => schedOf s j)).elim 0 (fun x => x.map.idxOf c)

/-! ### Operands -/

def immOf (w : StrokeWord) : BitVec 64 := BitVec.ofNat 64 (sFields w).imm
/-- Operand B: SB, or IMM under IMMB. -/
def opB (s : State) (k : Nat) (w : StrokeWord) : DWord := if (sFields w).immb then immOf w else sx s k (sFields w).sb
def opBTag (s : State) (k : Nat) (w : StrokeWord) : Bool := !(sFields w).immb && sxTag s k (sFields w).sb

/-! ### Holds (R752) -/

/-- Registers that a stroke reads. -/
def sReads (w : StrokeWord) : List Nat :=
  let f := sFields w
  let op := sOpcode w
  let b := if f.immb then [] else [f.sb]
  if sUnit w ≠ 2 then []
  else if op = 0x12 then (List.range 8).map (fun i => f.sb + i)
  else if op = 0x40 then (if f.func = 0 then (List.range 8).map (fun i => f.sa + i) else [f.sa])
  else if op = 0x01 ∨ op = 0x20 then f.sa :: b
  else if op = 0x11 ∨ op = 0x13 then [f.sa, f.sb]
  else if op = 0x10 ∨ op = 0x14 then [f.sa]
  else if op = 0x21 then (if f.immb then [] else [f.sa])
  else if op = 0x30 then b
  else if op = 0x31 ∨ op = 0x34 then [f.sb]
  else []
/-- Registers that it writes. -/
def sWrites (w : StrokeWord) : List Nat :=
  let f := sFields w
  if sUnit w ≠ 2 then []
  else if ([0x01, 0x02, 0x03, 0x10, 0x21, 0x33] : List Nat).contains (sOpcode w) ∨ (sOpcode w = 0x31 ∧ f.func % 2 = 1) then [f.sd]
  else []
/-- Descriptors in flight on a core. -/
def xfersOf (s : State) (k : Nat) : Nat := (s.xfers.filter (fun x => coreNo x.runner = coreNo k)).length

/-- Has a cluster's transfer engine a descriptor that has not moved its rows? Those of 11.5 are not its own. -/
def xferWaits (s : State) (c : Nat) : Bool :=
  s.xfers.any (fun x => decide (noCluster x.runner = c) && !x.moved && decide (field x.desc 40 1 ≠ 0x10 ∧ field x.desc 40 1 ≠ 0x11))

/-- Does a stroke in flight on the runner write a register that this one reads or writes, or does an SXFER find 8 descriptors of the core in
flight, or one of a relay the transfer engine at work? -/
def sHeld (k : Nat) (w : StrokeWord) (s : State) : Bool :=
  let mine := sReads w ++ sWrites w
  (getRunner s k).flight.any (fun f => (sWrites f.word).any (fun x => mine.contains x)) ||
    (decide (sUnit w = 2 ∧ sOpcode w = 0x40) && (decide (8 ≤ xfersOf s k) || (sRelay w && xferWaits s (noCluster k))))

/-- A parity error that a read of SXn meets (R324); none where the stroke does not read SXn, or where it has failed and has not been written since. -/
def sParity (p : Option Nat) (k : Nat) (w : StrokeWord) (s : State) : State :=
  match p with
  | none => s
  | some n =>
    if !(sReads w).contains n || kvGet (fun _ => false) (getS s k).bad n then s
    else
      let c := noCluster k
      let s := modS k (fun r => { r with stag := kvPut (fun _ => false) r.stag n true, bad := kvPut (fun _ => false) r.bad n true })
        (report 0x102 (oCore c 2 (noCore k) (noRunner k)) (clusterFn s c) n s)
      coreEvent c 2 (noCore k) s

/-- An S-core stroke that is not held has its effect, with the parity error that its register reads meet. -/
def sEffect (p : Option Nat) (f : Nat → StrokeWord → State → Option StrokeOut) (k : Nat) (w : StrokeWord) (s : State) : Option StrokeOut :=
  if sHeld k w s then none else f k w (sParity p k w s)

/-- The same for a stroke that reads no register. -/
def sPlain (f : Nat → StrokeWord → State → Option StrokeOut) (k : Nat) (w : StrokeWord) (s : State) : Option StrokeOut :=
  if sHeld k w s then none else f k w s

/-- Set the runner's blot latch. -/
def setLatch (k : Nat) (b : Bool) (s : State) : State := if b then modRunner k (fun r => { r with latch := true }) s else s

/-! ### Scalar strokes (Table 7.7) -/

/-- SALU by FUNC. -/
def saluOp (func : Nat) (a b : DWord) : DWord :=
  let n := b.toNat % 64
  match func with
  | 0 => a + b
  | 1 => a - b
  | 2 => a &&& b
  | 3 => a ||| b
  | 4 => a ^^^ b
  | 5 => a <<< n
  | 6 => a >>> n
  | 7 => a.sshiftRight n
  | 8 => a * b
  | 9 => if a.toInt ≤ b.toInt then a else b
  | 10 => if a.toInt ≤ b.toInt then b else a
  | 11 => if a.toNat ≤ b.toNat then a else b
  | 12 => if a.toNat ≤ b.toNat then b else a
  | 13 => if a.toInt < b.toInt then 1#64 else 0#64
  | 14 => if a.toNat < b.toNat then 1#64 else 0#64
  | _ => if a = b then 1#64 else 0#64

def saluEffect (k : Nat) (w : StrokeWord) (s : State) : Option StrokeOut :=
  let f := sFields w
  some { s := setSx k f.sd (saluOp f.func (sx s k f.sa) (opB s k w)) (sxTag s k f.sa || opBTag s k w) s }

def sliEffect (k : Nat) (w : StrokeWord) (s : State) : Option StrokeOut :=
  some { s := setSx k (sFields w).sd (immOf w) false s }

/-- The values of Table 5.6. -/
def sgetValue (s : State) (k func : Nat) : Nat :=
  let c := noCluster k
  match func with
  | 0 => logicalCluster s c
  | 1 => c / 4
  | 2 => 0x80 + noCore k
  | 3 => noRunner k
  | 4 => lapOf s c
  | 5 => (jobOf s c).elim 0 (lapProgram s)
  | _ => (jobOf s c).elim 0 (fun j => j.fn)
def sgetEffect (k : Nat) (w : StrokeWord) (s : State) : Option StrokeOut :=
  some { s := setSx k (sFields w).sd (BitVec.ofNat 64 (sgetValue s k (sFields w).func)) false s }

/-- The address SA + IMM. -/
def sAddr (s : State) (k : Nat) (w : StrokeWord) : Nat := (sx s k (sFields w).sa + immOf w).toNat

/-- A bus error of a core that is no access of memory: a hurdle index out of range. -/
def coreBusError (k a : Nat) (s : State) : State := report 0x20A (accOf s k).org (accFn (accOf s k)) a s

def sldEffect (k : Nat) (w : StrokeWord) (s : State) : Option StrokeOut :=
  let f := sFields w
  let a := sAddr s k w
  let n := if f.func = 0 then 8 else 4
  if a % n ≠ 0 then some { s := setSx k f.sd 0#64 true (accessError (accOf s k) a s), busErr := true }
  else
    let r := coreRead k a n (sxTag s k f.sa) s
    let x := leNat (tBytes r.data)
    let v := if f.func = 2 then wrapInt 64 (sext 32 x) else x
    some { s := setSx k f.sd (BitVec.ofNat 64 v) (tBlot r.data) r.s, busErr := !r.ok }

def sstEffect (k : Nat) (w : StrokeWord) (s : State) : Option StrokeOut :=
  let f := sFields w
  let a := sAddr s k w
  let n := if f.func = 0 then 8 else 4
  if a % n ≠ 0 then some { s := accessError (accOf s k) a s, busErr := true }
  else
    let x := coreWrite k a (leBytes n (sx s k f.sb).toNat) (sxTag s k f.sb || sxTag s k f.sa) (.start s)
    some { s := x.s, busErr := !x.ok, blots := x.blots }

/-- SPUSH: eight registers as one granule (R317). -/
def spushEffect (k : Nat) (w : StrokeWord) (s : State) : Option StrokeOut :=
  let f := sFields w
  let regs := (List.range 8).map (fun i => f.sb + i)
  let tag := regs.any (fun i => sxTag s k i)
  let l := regs.flatMap (fun i => (leBytes 8 (sx s k i).toNat).map (fun b => (b, tag)))
  (pushBytes k (f.imm % 8) (sRelay w) l s).map (fun s => { s := s, chan := some (f.imm % 8) })

/-- SIDX: IMM[15:0] indices (SA + k × SB) mod 2^32. -/
def sidxEffect (k : Nat) (w : StrokeWord) (s : State) : Option StrokeOut :=
  let f := sFields w
  let tag := sxTag s k f.sa || sxTag s k f.sb
  let a := (sx s k f.sa).toNat
  let b := (sx s k f.sb).toNat
  let l := (List.range (f.imm % 2 ^ 16)).flatMap (fun i => (leBytes 4 ((a + i * b) % 2 ^ 32)).map (fun x => (x, tag)))
  let ch := f.imm / 2 ^ 16 % 8
  (pushBytes k ch (sRelay w) l s).map (fun s => { s := s, chan := some ch })

/-- SSETB (R320): an address base of a runner of an M-core or V-core of the cluster, which it writes when it completes. -/
def ssetbEffect (k : Nat) (w : StrokeWord) (s : State) : Option StrokeOut :=
  let f := sFields w
  let core := f.imm / 2 ^ 8 % 2 ^ 8
  let k2 := runnerNo (noCluster k) (core / 64) (core % 16) (f.imm / 8 % 8)
  some { s := s, landing := some (k2, f.imm % 8, (sx s k f.sa).toNat, sxTag s k f.sa) }

/-- The condition of SSKIP. -/
def skipCond (func : Nat) (a b : DWord) : Bool :=
  match func with
  | 0 => decide (a = b)
  | 1 => decide (a ≠ b)
  | 2 => decide (a.toInt < b.toInt)
  | 3 => decide (b.toInt ≤ a.toInt)
  | 4 => decide (a.toNat < b.toNat)
  | _ => decide (b.toNat ≤ a.toNat)
/-- Operand B of SSKIP: under IMMB the immediate holds it with the count. -/
def sskipEffect (k : Nat) (w : StrokeWord) (s : State) : Option StrokeOut :=
  let f := sFields w
  let s := setLatch k (sxTag s k f.sa || opBTag s k w) s
  if skipCond f.func (sx s k f.sa) (opB s k w) then
    some { s := modRunner k (fun r => { r with skip := f.imm % 256 }) s }
  else some { s := s }

/-- Passes of an SLOOP (R318): IMM[15:0], or SA as a signed value clipped to 0 to 65,535, none where SA is blotted. -/
def loopCount (s : State) (k : Nat) (w : StrokeWord) : Nat :=
  let f := sFields w
  if f.immb then f.imm % 2 ^ 16
  else if sxTag s k f.sa then 0
  else (max 0 (min 65535 (sx s k f.sa).toInt)).toNat
/-- SLOOP: its body leaves the queue for the loop once all of it is queued; with no pass it is passed over. The loop still
begins with the SLOOP itself, which issuing takes off. -/
def sloopEffect (k : Nat) (w : StrokeWord) (s : State) : Option StrokeOut :=
  let f := sFields w
  let n := f.imm / 2 ^ 16 % 32
  let q := (getRunner s k).queue
  let body := (q.drop 1).take n
  if body.length < n then none
  else
    let s := setLatch k (!f.immb && sxTag s k f.sa) s
    let p := loopCount s k w
    if p = 0 then some { s := modRunner k (fun r => { r with queue := w :: q.drop (1 + n) }) s }
    else
      let s := setSx k f.sd 0#64 false s
      some { s := modRunner k (fun r =>
        { r with queue := q.drop (1 + n),
                 loop := some { body := body, rest := w :: body, passes := p, sd := f.sd, index := 0 } }) s }

/-! ### Hurdle strokes -/

/-- The hurdle that IMM[15:0] names for the runner's function (R213). -/
def strokeHurdle (s : State) (k : Nat) (w : StrokeWord) : Option Nat := hurdleIdx s (accOf s k).fn ((sFields w).imm % 2 ^ 16)
/-- A hurdle index that is a bus error: recorded, the runner's latch set (R238). -/
def hurdleBusError (k : Nat) (w : StrokeWord) (s : State) : StrokeOut :=
  { s := setLatch k true (coreBusError k ((sFields w).imm % 2 ^ 16) s), busErr := true }

/-- SARRIVE: n is IMM[47:32], or SB[31:0]; a blotted count sets the latch (R229). -/
def sarriveEffect (k : Nat) (w : StrokeWord) (s : State) : Option StrokeOut :=
  let f := sFields w
  match strokeHurdle s k w with
  | none => some (hurdleBusError k w s)
  | some h =>
    let n := if f.immb then f.imm / 2 ^ 32 % 2 ^ 16 else (sx s k f.sb).toNat % 2 ^ 32
    some { s := arrive h n (setLatch k (opBTag s k w) s) }

/-- SWAIT: completes at once when the hurdle releases it, else waits. -/
def swaitEffect (k : Nat) (w : StrokeWord) (s : State) : Option StrokeOut :=
  let f := sFields w
  match strokeHurdle s k w with
  | none => some (hurdleBusError k w s)
  | some n =>
    let h := getHurdle s n
    let e := (sx s k f.sb).toNat % 2 ^ 16
    let s := setLatch k (decide (h.mode = 1) && sxTag s k f.sb) s
    if h.released e then
      let s := putHurdle n h.take s
      some { s := if f.func % 2 = 1 then setSx k f.sd (BitVec.ofNat 64 h.gen) false s else s }
    else
      some { s := { s with hwaits := s.hwaits ++ [{ hurdle := n, who := k, expect := e, word := w, cmd := none }] }, waiting := true }

def sresetEffect (k : Nat) (w : StrokeWord) (s : State) : Option StrokeOut :=
  match strokeHurdle s k w with
  | none => some (hurdleBusError k w s)
  | some n => some { s := hurdleReset n s }

/-- SHREAD: COUNT, GEN or TARGET after the operations of its cycle (R211). A hurdle carries no blot. -/
def shreadEffect (k : Nat) (w : StrokeWord) (s : State) : Option StrokeOut :=
  let f := sFields w
  match strokeHurdle s k w with
  | none =>
    let o := hurdleBusError k w s
    some { o with s := setSx k f.sd 0#64 true o.s }
  | some n =>
    let h := getHurdle s n
    some { s := setSx k f.sd (BitVec.ofNat 64 (if f.func = 0 then h.count else if f.func = 1 then h.gen else h.target)) false s }

def shtargetEffect (k : Nat) (w : StrokeWord) (s : State) : Option StrokeOut :=
  let f := sFields w
  match strokeHurdle s k w with
  | none => some (hurdleBusError k w s)
  | some n =>
    let s := setLatch k (sxTag s k f.sb) s
    some { s := hurdleCycle n [.setTarget (BitVec.ofNat 32 (sx s k f.sb).toNat)] s }

/-! ### Transfers (7.9) -/

/-- The fields of a transfer descriptor (Table 7.8). -/
structure XDesc where
  src : Nat
  dst : Nat
  rowBytes : Nat
  rows : Nat
  srcStride : Nat
  dstStride : Nat
  op : Nat
  flags : Nat
  towers : Nat
  hurdle : Nat
  pattern : List Byte
  ret : Nat
  deriving DecidableEq, Repr

def xDesc (l : List Byte) : XDesc :=
  { src := field l 0 8, dst := field l 8 8, rowBytes := field l 16 4, rows := field l 20 4, srcStride := field l 24 8,
    dstStride := field l 32 8, op := field l 40 1, flags := field l 41 1, towers := field l 42 2, hurdle := field l 44 2,
    pattern := (l.drop 48).take 8, ret := field l 56 8 }
def XDesc.srcChan (d : XDesc) : Bool := d.flags.testBit 0
def XDesc.dstChan (d : XDesc) : Bool := d.flags.testBit 1
def XDesc.arrives (d : XDesc) : Bool := d.flags.testBit 2

/-- Addresses of the granules of a side, in order: row by row from a base with a stride. -/
def XDesc.grans (d : XDesc) (base stride : Nat) : List Nat :=
  (List.range d.rows).flatMap (fun r =>
    (List.range (d.rowBytes / 64)).map (fun g => wrapInt 64 ((base : Int) + r * sext 64 stride + 64 * g)))

/-- Does an operation read a source? -/
def XDesc.hasSrc (d : XDesc) : Bool := decide (d.op ≠ 1)
/-- Is it an atomic operation, with the code of Table 8.5? -/
def XDesc.atomic (d : XDesc) : Bool := decide (2 ≤ d.op ∧ d.op ≤ 5)
/-- Does it return prior values? -/
def XDesc.returns (d : XDesc) : Bool := decide (d.op = 3 ∨ d.op = 5)

/-- Is the device address of an address stack memory? -/
def isStack (s : State) (fn a : Nat) : Bool :=
  match devAddr s fn a with
  | none => false
  | some d =>
    match place d with
    | .plain _ => true
    | .pim _ => true
    | _ => false

/-- Is the whole transfer a bus error (R322)? -/
def XDesc.bad (d : XDesc) (s : State) (fn : Nat) (det : Bool) : Bool :=
  decide (6 < d.op) || decide (d.rowBytes % 64 ≠ 0) || decide (d.srcStride % 64 ≠ 0) || decide (d.dstStride % 64 ≠ 0) ||
    (d.hasSrc && !d.srcChan && decide (d.src % 64 ≠ 0)) || (!d.dstChan && decide (d.op ≠ 6) && decide (d.dst % 64 ≠ 0)) ||
    (d.returns && decide (d.ret % 64 ≠ 0)) || (det && decide (3 ≤ d.op ∧ d.op ≤ 5)) || (d.atomic && d.dstChan) ||
    (decide (d.op = 6) && (d.srcChan || !isStack s fn d.src))

/-- MCAST_FILL: the rows are read once, granule by granule, and their lines enter the named stack caches (R49, R322). -/
def mcastFill (acc : Acc) (d : XDesc) (gs : List Nat) (s : State) : Wrote :=
  let far := gs.filter (fun a => !isStack s acc.fn a)
  let r := gs.foldl (fun (x : Bool × State) a =>
    if far.contains a then (false, accessError acc a x.2)
    else
      let y := readT acc a 64 false x.2
      (x.1 && y.ok, y.s)) (true, s)
  { s := mcastLines acc.fn ((List.range 16).filter (fun t => d.towers.testBit t)) (gs.filter (fun a => !far.contains a)) r.2, ok := r.1, blots := 0 }

/-- The granules that a transfer moves, once read: from a ring, from memory, or the pattern; none while a ring has too few. -/
def xferRead (k : Nat) (d : XDesc) (blot : Bool) (s : State) : Option (List (List TByte) × Bool × State) :=
  let n := d.rows * (d.rowBytes / 64)
  if !d.hasSrc then some (List.replicate n ((List.range 64).map (fun i => (nth 0#8 d.pattern (i % 8), blot))), true, s)
  else if d.srcChan then
    (takeBytes (noCluster k) (d.src % 8) (64 * n) s).map (fun x =>
      (pieces n 64 (x.1.map (fun b => (b.1, b.2 || blot))), true, x.2))
  else none

/-- The access context of a descriptor: the cluster's transfer engine is the requester (Table 15.2). -/
def xferAcc (s : State) (k : Nat) : Acc := { accOf s k with org := oEngine 0 (noCluster k) }

/-- Move one granule from memory or as given to its destination. -/
def xferGran (k : Nat) (d : XDesc) (blot : Bool) (given : Option (List TByte)) (src dst ret : Nat) (w : Wrote) : Wrote :=
  let acc := xferAcc w.s k
  let r : ReadT := match given with
    | some l => { data := l, ok := true, s := w.s }
    | none => coreReadAs acc k src 64 blot w.s
  let w := { w with s := r.s, ok := w.ok && r.ok }
  if d.atomic then
    let words := (List.range 16).map (fun i => some (BitVec.ofNat 32 (field (tBytes r.data) (4 * i) 4)))
    let o := coreAtomicAs acc k dst (d.op - 1) words (tBlot r.data || blot) w
    if d.returns then coreWriteAs acc k ret o.prior blot o.w else o.w
  else coreWriteAs acc k dst r.data blot w

/-- What a transfer takes before its first row: nothing where it reads its rows from memory. -/
def xferFirst (k : Nat) (d : XDesc) (blot : Bool) (s : State) : Option (List (List TByte) × Bool × State) :=
  if d.hasSrc && !d.srcChan then some ([], true, s) else xferRead k d blot s

/-- A transfer moves its rows (R322): granule by granule, each written after it is read. None while a ring holds too few granules
or is full. -/
def runXfer (k : Nat) (l : List Byte) (blot relay : Bool) (s : State) : Option (Wrote × Option Nat) :=
  let d := xDesc l
  let acc := xferAcc s k
  let det := ((jobOf s (noCluster k)).bind (fun j => schedOf s j)).elim false (fun x => x.det)
  if d.bad s acc.fn det then some ({ s := report 0x20A acc.org (accFn acc) d.dst s, ok := false, blots := 0 }, none)
  else
    let n := d.rows * (d.rowBytes / 64)
    let srcs := d.grans d.src d.srcStride
    let dsts := d.grans d.dst d.dstStride
    let rets := d.grans d.ret d.dstStride
    if d.op = 6 then some (mcastFill acc d srcs s, none)
    else
      match xferFirst k d blot s with
      | none => none
      | some (gs, _, s) =>
        if d.dstChan then
          let r := if d.hasSrc && !d.srcChan then
              srcs.foldl (fun (x : List TByte × Bool × State) a =>
                let y := coreReadAs acc k a 64 blot x.2.2
                (x.1 ++ y.data, x.2.1 && y.ok, y.s)) ([], true, s)
            else (gs.flatten, true, s)
          (pushBytes k (d.dst % 8) relay r.1 r.2.2).map (fun s => ({ s := s, ok := r.2.1, blots := 0 }, some (d.dst % 8)))
        else
          some ((List.range n).foldl (fun w i =>
            xferGran k d blot gs[i]? (nth 0 srcs i) (nth 0 dsts i) (nth 0 rets i) w) (.start s), none)

/-- The descriptor that SXFER reads: eight registers, or 64 bytes of memory. -/
def sxferDesc (k : Nat) (w : StrokeWord) (s : State) : ReadT :=
  let f := sFields w
  if f.func = 0 then
    { data := (List.range 8).flatMap (fun i => (leBytes 8 (sx s k (f.sa + i)).toNat).map (fun b => (b, sxTag s k (f.sa + i)))), ok := true, s := s }
  else coreRead k (sAddr s k w) 64 (sxTag s k f.sa) s

/-- Put a transfer behind the others of its engine. -/
def addXfer (x : Xfer) (s : State) : State := { s with xfers := s.xfers ++ [x] }

/-- Hand a descriptor to the transfer engine, or, for the operations of 11.5, to the home walker. -/
def startXfer (k : Nat) (w : StrokeWord) (desc : List Byte) (blot bad : Bool) (s : State) : Option StrokeOut :=
  let c := noCluster k
  let x : Xfer := { runner := k, word := w, desc := desc, blot := blot, moved := false, busErr := bad }
  if field desc 40 1 = 0x10 ∨ field desc 40 1 = 0x11 then
    let q : WalkReq := ⟨(accOf s k).fn, k, w, desc, blot || writesBlotted s k, .attention, 0, false, none, false⟩
    some { s := queueWalk q (addXfer x s), busErr := bad, transfers := 1 }
  else
    match (if xferWaits s c then none else runXfer k desc blot (sRelay w) s) with
    | none => if sRelay w then none else some { s := addXfer x s, busErr := bad, transfers := 1 }
    | some (o, ch) =>
      let bad := bad || !o.ok
      let s := if bad then addReg (scBlk c (noCore k) + 8) 1 o.s else o.s
      some { s := settleLines c (addXfer { x with moved := true, busErr := bad, owed := linesOwed s c } s), busErr := bad,
             blots := o.blots, transfers := 1, chan := ch }

/-- SXFER: reads its descriptor and hands it to the transfer engine, or, for the operations of 11.5, to the home walker. The engine moves its rows
at once, unless an older descriptor or a ring keeps it waiting (R221, R323). A blotted descriptor sets the latch (R229). -/
def sxferEffect (k : Nat) (w : StrokeWord) (s : State) : Option StrokeOut :=
  let r := sxferDesc k w s
  startXfer k w (tBytes r.data) (tBlot r.data) (!r.ok)
    (setLatch k (tBlot r.data) (addReg (scBlk (noCluster k) (noCore k) + 4) 1 r.s))

/-- The first flight of a runner with this stroke that has transfers left loses one. -/
def dropTransfer (w : StrokeWord) : List Flight → List Flight
  | [] => []
  | f :: r => if f.word = w ∧ 0 < f.transfers then { f with transfers := f.transfers - 1 } :: r else f :: dropTransfer w r

/-- The first flight of a runner with this stroke that has transfers left fills a ring. -/
def landRing (w : StrokeWord) (ch : Option Nat) : List Flight → List Flight
  | [] => []
  | f :: r => if f.word = w ∧ 0 < f.transfers then { f with chan := ch.orElse (fun _ => f.chan) } :: r else f :: landRing w ch r

/-- A descriptor takes the place of the first that is equal to another. -/
def swapXfer (x y : Xfer) : List Xfer → List Xfer
  | [] => []
  | z :: r => if z = x then y :: r else z :: swapXfer x y r

/-- The oldest waiting descriptor of a cluster moves its rows, where its rings let it. What it met goes to its job and its counters. -/
def moveWaiting (c : Nat) (s : State) : State :=
  match s.xfers.find? (fun x => decide (noCluster x.runner = c) && !x.moved && decide (field x.desc 40 1 ≠ 0x10 ∧ field x.desc 40 1 ≠ 0x11)) with
  | none => s
  | some x =>
    match runXfer x.runner x.desc x.blot false s with
    | none => s
    | some (o, ch) =>
      let bad := x.busErr || !o.ok
      let s := noteBlots c o.blots (if o.ok then o.s else noteBusErr c o.s)
      let s := if bad then addReg (scBlk c (noCore x.runner) + 8) 1 s else s
      let s := settleLines c { s with xfers := swapXfer x { x with moved := true, busErr := bad, owed := linesOwed s c } s.xfers }
      modRunner x.runner (fun y => { y with flight := landRing x.word ch y.flight }) s

/-- The first descriptor of a cluster whose movement is done, with its lines owned (R364), and the others. -/
def takeMoved (c : Nat) : List Xfer → Option (Xfer × List Xfer)
  | [] => none
  | x :: r =>
    if noCluster x.runner = c then (if x.moved && x.owed.isEmpty then some (x, r) else (takeMoved c r).map (fun y => (y.1, x :: y.2)))
    else (takeMoved c r).map (fun y => (y.1, x :: y.2))

/-- A descriptor's ARRIVE(1), for attention descriptors too (R323); an index outside the function's range is a bus error. -/
def descArrive (k : Nat) (l : List Byte) (s : State) : State × Bool :=
  if !(field l 41 1).testBit 2 then (s, false)
  else
    match hurdleIdx s (accOf s k).fn (field l 44 2) with
    | none => (coreBusError k (field l 44 2) s, true)
    | some n => (arrive n 1 s, false)

/-- The transfer engine of a cluster completes the oldest descriptor that has moved (R323): its ARRIVE, and its stroke's transfer. -/
def execTransferComplete (c : Fin 64) (s : State) : Out :=
  .next (let s := moveWaiting c s
    match takeMoved c s.xfers with
    | none => s
    | some (x, rest) =>
      let r := descArrive x.runner x.desc { s with xfers := rest }
      let s := if r.2 then setLatch x.runner true (noteBusErr c r.1) else r.1
      let s := if r.2 && !x.busErr then addReg (scBlk c (noCore x.runner) + 8) 1 s else s
      modRunner x.runner (fun y => { y with flight := dropTransfer x.word y.flight }) s)

end Sys2Proof.Machine
end

