-- ==== Sys2Proof/Machine/KvPool.lean ====
section
/-!
DEFINITION. The key-value pool (11.1, 11.2, 11.8): its control area in memory, free stacks, page states, tables and sequences, page
copies, spill and fill, and pages withdrawn or moved.
-/
namespace Sys2Proof.Machine

/-! ### The control area (Tables 11.1 and 11.2) -/

/-- The access context of hub firmware and the walkers for a function's pool: they may write it (R468). -/
def kvAcc (f : Nat) : Acc := { fn := f, trusted := true, org := oEngine 1 0 }

/-- A little-endian word of the pool at an address of the function. -/
def kvRd (s : State) (f a n : Nat) : Nat := leNat (readSpan s (kvAcc f) a n).data
def kvWr (f a n v : Nat) (s : State) : State := (writeSpan (kvAcc f) a (leBytes n v) false (.start s)).s

def kvBase (s : State) (f : Nat) : Nat := (getFn s f).kvBase
def kvPages (s : State) (f : Nat) : Nat := (getFn s f).kvPages
def kvPageBytes (s : State) (f : Nat) : Nat := (getFn s f).kvPageBytes
/-- Does the function have a pool? -/
def hasPool (s : State) (f : Nat) : Bool := decide (0 < kvPages s f)

/-- The page area's first address, and the address of a pool page (R467). -/
def kvArea (s : State) (f : Nat) : Nat := kvBase s f + kvControl (kvPages s f)
def kvOffset (s : State) (f k : Nat) : Nat :=
  let nb := 262144 / kvPageBytes s f
  262144 * (k / nb) + k % nb * kvPageBytes s f
def kvPageAt (s : State) (f k : Nat) : Nat := kvArea s f + kvOffset s f k
/-- The pool page that holds an offset of the page area. -/
def kvPageOf (s : State) (f off : Nat) : Nat := off / 262144 * (262144 / kvPageBytes s f) + off % 262144 / kvPageBytes s f

/-- The DRAM location of an address of a function. -/
def fnDram (s : State) (f a : Nat) : Option DramLoc := (devAddr s f a).bind (dramOf s)

/-- The floor die of a pool page: 0 for blocks in MS4 or MS5, else 1 (R467). -/
def pageDie (s : State) (f k : Nat) : Nat :=
  match fnDram s f (kvPageAt s f k) with
  | none => 0
  | some l => if l.stack < 6 then 0 else 1

/-- Header fields (Table 11.2). -/
def kvHead (s : State) (f off n : Nat) : Nat := kvRd s f (kvBase s f + off) n
def setKvHead (f off n v : Nat) (s : State) : State := kvWr f (kvBase s f + off) n v s
def freeCount (s : State) (f d : Nat) : Nat := kvHead s f (12 + 4 * d) 4

/-- The state word of a page (Table 11.3) and its fields. -/
def kvWordAt (s : State) (f k : Nat) : Nat := kvBase s f + 0x81000 + 4 * k
def kvWord (s : State) (f k : Nat) : Nat := kvRd s f (kvWordAt s f k) 4
def setKvWord (f k v : Nat) (s : State) : State := kvWr f (kvWordAt s f k) 4 v s
def wRefs (w : Nat) : Nat := bits w 0 16
def wTable (w : Nat) : Bool := bit w 16
def wWithdrawn (w : Nat) : Bool := bit w 17
def wFree (w : Nat) : Bool := bit w 18

/-- Entry i of a die's free stack: FD0's grows upward, FD1's downward from the end. -/
def stackSlot (s : State) (f d i : Nat) : Nat :=
  let n := kvPages s f
  let b := kvBase s f + 0x81000 + 4 * n
  if d = 0 then b + 4 * i else b + 4 * (n - 1 - i)

/-- Push a page onto its die's free stack. -/
def kvPush (f k : Nat) (s : State) : State :=
  let d := pageDie s f k
  let n := freeCount s f d
  let s := kvWr f (stackSlot s f d n) 4 k s
  let s := setKvWord f k (setBits (setBits (kvWord s f k) 18 1 1) 16 1 0) s
  setKvHead f (12 + 4 * d) 4 (n + 1) s

/-- Pop a page of a die: it arrives with REFS 1; ATT_ALLOC counts (R469). -/
def kvPop (f d : Nat) (s : State) : Option (Nat × State) :=
  let n := freeCount s f d
  if n = 0 then none
  else
    let k := kvRd s f (stackSlot s f d (n - 1)) 4
    let s := setKvHead f (12 + 4 * d) 4 (n - 1) s
    let s := setKvWord f k 1 s
    some (k, addReg (attBlk d + 0xC) 1 s)

/-- Pop n pages of a die. -/
def kvPopMany : Nat → Nat → Nat → State → Option (List Nat × State)
  | 0, _, _, s => some ([], s)
  | n + 1, f, d, s =>
    match kvPop f d s with
    | none => none
    | some (k, s) => (kvPopMany n f d s).map (fun x => (k :: x.1, x.2))

/-- Drop a reference of a page: at 0 it is pushed, unless it is withdrawn (R471). The result tells whether it fell to 0. -/
def kvDrop (f k : Nat) (s : State) : Bool × State :=
  let w := kvWord s f k
  let n := wRefs w - 1
  let s := setKvWord f k (setBits w 0 16 n) s
  (decide (n = 0), if n = 0 ∧ wWithdrawn w = false then kvPush f k s else s)

/-- Device memory of a pool page back to zeros with clear blots. -/
def kvZeroPage (f k : Nat) (s : State) : State :=
  match devAddr s f (kvPageAt s f k) with
  | none => s
  | some d => zeroRange d (kvPageBytes s f) s

/-! ### Table entries (Tables 11.4 and 11.5) -/

def eFill (e : Nat) : Nat := bits e 40 24
def eSpilled (e : Nat) : Bool := bit e 35
def eBlot (e : Nat) : Bool := bit e 34
def eShared (e : Nat) : Bool := bit e 33
def eValid (e : Nat) : Bool := bit e 32
def ePage (e : Nat) : Nat := bits e 0 32
/-- An entry from its fields. -/
def mkEntry (fill : Nat) (spilled blot shared valid : Bool) (page : Nat) : Nat :=
  fill % 2 ^ 24 * 2 ^ 40 + 2 ^ 35 * b2n spilled + 2 ^ 34 * b2n blot + 2 ^ 33 * b2n shared + 2 ^ 32 * b2n valid + page % 2 ^ 32

/-- T_B of R473. -/
def tableBytes (s : State) (f : Nat) : Nat := min (kvPageBytes s f) 32768
/-- Layers that a sequence can have, and blocks that a layer can have. -/
def maxLayers (s : State) (f : Nat) : Nat := (tableBytes s f - 64) / 8
def maxBlocks (s : State) (f : Nat) : Nat := tableBytes s f / 8

/-- Directory entry of a sequence. -/
def dirAt (s : State) (f q : Nat) : Nat := kvBase s f + 0x1000 + 8 * q
def dirEnt (s : State) (f q : Nat) : Nat := kvRd s f (dirAt s f q) 8
/-- Does a sequence exist? -/
def seqExists (s : State) (f q : Nat) : Bool := hasPool s f && decide (q < 65536) && eValid (dirEnt s f q)
/-- Layers of a sequence. -/
def seqLayers (s : State) (f q : Nat) : Nat := eFill (dirEnt s f q)
/-- The layer table of a sequence: its address. -/
def layerTable (s : State) (f q : Nat) : Nat := kvArea s f + 2048 * ePage (dirEnt s f q)
/-- A layer entry's address and value. -/
def layerAt (s : State) (f q l : Nat) : Nat := layerTable s f q + 64 + 8 * l
def layerEnt (s : State) (f q l : Nat) : Nat := kvRd s f (layerAt s f q l) 8
/-- A block entry's address and value. -/
def blockAt (s : State) (f q l j : Nat) : Nat := kvArea s f + 2048 * ePage (layerEnt s f q l) + 8 * j
def blockEnt (s : State) (f q l j : Nat) : Nat := kvRd s f (blockAt s f q l j) 8
def setBlockEnt (f q l j v : Nat) (s : State) : State := kvWr f (blockAt s f q l j) 8 v s

/-- Fields of the sequence record (Table 11.5). -/
def recGeom (s : State) (f q : Nat) : Nat := kvRd s f (layerTable s f q + 6) 1
def recHkv (s : State) (f q : Nat) : Nat := kvRd s f (layerTable s f q + 7) 1
def recHdim (s : State) (f q : Nat) : Nat := kvRd s f (layerTable s f q + 8) 2
def lastUse (s : State) (f q : Nat) : Nat := kvRd s f (layerTable s f q + 16) 8
def touchSeq (f q : Nat) (s : State) : State := kvWr f (layerTable s f q + 16) 8 (paceNumber s) s

/-- P of a P code, and element bytes of an FMT (R463). -/
def kvP (code : Nat) : Nat := 16 * 2 ^ code
def kvElem (fmt : Nat) : Nat := if fmt = 0 then 2 else 1
def seqP (s : State) (f q : Nat) : Nat := kvP (bits (recGeom s f q) 1 2)
def seqFmt (s : State) (f q : Nat) : Nat := bits (recGeom s f q) 3 2

/-- Sequences that exist. -/
def sequences (s : State) (f : Nat) : List Nat := (List.range 65536).filter (fun q => seqExists s f q)

/-- The (layer, block) pairs of a sequence whose block entry is VALID. -/
def seqBlocks (s : State) (f q : Nat) : List (Nat × Nat) :=
  (List.range (seqLayers s f q)).flatMap (fun l =>
    ((List.range (maxBlocks s f)).filter (fun j => eValid (blockEnt s f q l j))).map (fun j => (l, j)))

/-- The pool pages that hold a sequence's tables (R473). -/
def tablePages (s : State) (f q : Nat) : List Nat :=
  let starts := ePage (dirEnt s f q) :: (List.range (seqLayers s f q)).map (fun l => ePage (layerEnt s f q l))
  (starts.map (fun u => kvPageOf s f (2048 * u))).foldl (fun (l : List Nat) k => if l.contains k then l else l ++ [k]) []

/-! ### Look-aside buffers (R476, R477) -/

def getAtt (s : State) (d : Nat) : Attention := kvGet (fun _ => {}) s.atts d
def modAtt (d : Nat) (g : Attention → Attention) (s : State) : State := { s with atts := kvMod (fun _ => {}) s.atts d g }
/-- Invalidate the entries of a function's sequence (none: of all of its sequences) on both walkers. -/
def labDrop (f : Nat) (q : Option Nat) (s : State) : State :=
  [0, 1].foldl (fun s d => modAtt d (fun a => { a with
    lab := a.lab.filter (fun e => !(decide (e.1 = f) && decide (q = none ∨ q = some e.2.1))) }) s) s

/-! ### Copies (R479) -/

/-- Copy n bytes granule by granule between addresses of a function, keeping blots; a granule that meets a bus error is written as
blotted zeros. The result tells whether none did. -/
def kvCopy (f src dst n : Nat) (s : State) : Bool × State :=
  (List.range (n / 64)).foldl (fun (x : Bool × State) i =>
    let r := readGran x.2 (kvAcc f) (src + 64 * i)
    let s := if r.ok then x.2 else readError (kvAcc f) (src + 64 * i) x.2
    (x.1 && r.ok, (writeSpan (kvAcc f) (dst + 64 * i) r.data r.blot (.start s)).s)) (true, s)

/-! ### Pages withdrawn and moved (R471) -/

/-- Take a free page out of the middle of its stack. -/
def unstack (f d k : Nat) (s : State) : State :=
  let n := freeCount s f d
  let l := ((List.range n).map (fun i => kvRd s f (stackSlot s f d i) 4)).filter (fun x => x ≠ k)
  let s := (List.range l.length).foldl (fun s i => kvWr f (stackSlot s f d i) 4 (nth 0 l i) s) s
  setKvHead f (12 + 4 * d) 4 l.length s

/-- Rewrite every block entry that names a page. -/
def renameBlocks (f old new : Nat) (blot : Bool) (s : State) : State :=
  (sequences s f).foldl (fun s q =>
    (seqBlocks s f q).foldl (fun s (l, j) =>
      let e := blockEnt s f q l j
      if eSpilled e || decide (ePage e ≠ old) then s
      else setBlockEnt f q l j (mkEntry (eFill e) false (eBlot e || blot) (eShared e) true new) s) s) s

/-- Rewrite every directory and layer entry that points into a table page. -/
def renameTables (f old new : Nat) (s : State) : State :=
  let inOld := fun (u : Nat) => decide (kvPageOf s f (2048 * u) = old)
  let move := fun (e : Nat) => setBits e 0 32 (ePage e - kvOffset s f old / 2048 + kvOffset s f new / 2048)
  (sequences s f).foldl (fun s q =>
    let s := if inOld (ePage (dirEnt s f q)) then kvWr f (dirAt s f q) 8 (move (dirEnt s f q)) s else s
    (List.range (seqLayers s f q)).foldl (fun s l =>
      if inOld (ePage (layerEnt s f q l)) then kvWr f (layerAt s f q l) 8 (move (layerEnt s f q l)) s else s) s) s

/-- Move a page in use to a free page of the same die; with none free it stays where it is, withdrawn. -/
def movePage (f k : Nat) (s : State) : State :=
  let w := kvWord s f k
  match kvPop f (pageDie s f k) s with
  | none => s
  | some (new, s) =>
    let c := kvCopy f (kvPageAt s f k) (kvPageAt s f new) (kvPageBytes s f) s
    let s := setKvWord f new (setBits w 17 1 0) c.2
    let s := if wTable w then renameTables f k new s else renameBlocks f k new (!c.1) s
    labDrop f none (setKvWord f k (setBits (setBits w 16 1 0) 0 16 0) s)

/-- Withdraw a pool page: a free page leaves its stack, a page in use is moved. -/
def withdrawPage (f k : Nat) (s : State) : State :=
  let w := kvWord s f k
  if wWithdrawn w then s
  else
    let s := setKvHead f 20 4 (kvHead s f 20 4 + 1) s
    let s := setKvWord f k (setBits (setBits w 17 1 1) 18 1 0) s
    if wFree w then unstack f (pageDie s f k) k s else movePage f k s

/-- The pool pages of a function that a test of their DRAM locations hits: every 2 KiB unit of a page lies under one unit. -/
def poolPages (s : State) (f : Nat) (p : DramLoc → Bool) : List Nat :=
  (List.range (kvPages s f)).filter (fun k =>
    (List.range (kvPageBytes s f / 2048)).any (fun i =>
      match fnDram s f (kvPageAt s f k + 2048 * i) with
      | none => false
      | some l => p l))

/-- Withdraw every pool page of any function that a test hits. -/
def withdrawAll (p : DramLoc → Bool) (s : State) : State :=
  (s.fns.filter (fun e => decide (0 < e.2.kvPages))).foldl (fun s e =>
    (poolPages s e.1 p).foldl (fun s k => withdrawPage e.1 k s) s) s

/-! ### Spill and fill (11.8) -/

def farBaseOf (s : State) (f : Nat) : Nat := kvHead s f 32 8
def farPagesOf (s : State) (f : Nat) : Nat := kvHead s f 40 4
/-- Free far slots: those that no spilled page takes. -/
def farFree (s : State) (f : Nat) : Nat := farPagesOf s f - kvHead s f 28 4
/-- The address of a far slot: after the slot stack. -/
def farSlot (s : State) (f k : Nat) : Nat :=
  let pb := kvPageBytes s f
  farBaseOf s f + ceilDiv (4 * farPagesOf s f) pb * pb + k * pb

/-- Pop and push the slot stack. -/
def popSlot (f : Nat) (s : State) : Option (Nat × State) :=
  let n := farFree s f
  if n = 0 then none
  else some (kvRd s f (farBaseOf s f + 4 * (n - 1)) 4, setKvHead f 28 4 (kvHead s f 28 4 + 1) s)
def pushSlot (f k : Nat) (s : State) : State :=
  let n := farFree s f
  setKvHead f 28 4 (kvHead s f 28 4 - 1) (kvWr f (farBaseOf s f + 4 * n) 4 k s)

/-- Spill one block's page (R502): one with a single reference goes to a far slot. -/
def spillBlock (f q l j : Nat) (s : State) : State :=
  let e := blockEnt s f q l j
  if eSpilled e || decide (wRefs (kvWord s f (ePage e)) ≠ 1) then s
  else
    match popSlot f s with
    | none => s
    | some (slot, s) =>
      let k := ePage e
      let c := kvCopy f (kvPageAt s f k) (farSlot s f slot) (kvPageBytes s f) s
      let s := setBlockEnt f q l j (mkEntry (eFill e) true (eBlot e || !c.1) (eShared e) true slot) c.2
      let d := pageDie s f k
      addReg (attBlk d + 0x24) 1 (kvDrop f k s).2

/-- Spill a sequence. -/
def spillSeq (f q : Nat) (s : State) : State :=
  labDrop f (some q) ((seqBlocks s f q).foldl (fun s x => spillBlock f q x.1 x.2 s) s)

/-- Does a descriptor or command for a sequence wait (R501)? -/
def seqQueued (s : State) (f q : Nat) : Bool :=
  [0, 1].any (fun d =>
    (getAtt s d).queue.any (fun x => decide (x.fn = f ∧ x.seq = q)) ||
    (getAtt s d).decodes.any (fun x => decide (x.req.fn = f ∧ x.req.seq = q))) ||
  (s.scribe.inbox ++ s.scribe.started ++ s.scribe.waits.map (fun w => w.cmd)).any (fun c =>
    decide (c.h.fn.val = f) && [0x31, 0x32, 0x33].contains c.op &&
      (decide (field c.raw 16 4 = q) || (decide (c.op = 0x32) && decide (field c.raw 20 4 = q))))

/-- May a sequence be spilled: last used before the previous pace, and nothing waits for it? -/
def spillable (s : State) (f q : Nat) : Bool := decide (lastUse s f q + 1 < paceNumber s) && !seqQueued s f q

/-- The qualifying sequence with the lowest LAST_USE, then SEQ. -/
def oldestSeq (s : State) (f : Nat) (l : List Nat) : Option Nat :=
  (l.filter (spillable s f)).foldl (fun (b : Option Nat) q =>
    match b with
    | none => some q
    | some x => if lastUse s f q < lastUse s f x then some q else some x) none

/-- Free pages of both dies. -/
def kvFree (s : State) (f : Nat) : Nat := freeCount s f 0 + freeCount s f 1

/-- Spill until so many pages are free, no slot remains, or no sequence qualifies. -/
def spillUntil : Nat → Nat → Nat → List Nat → State → State
  | 0, _, _, _, s => s
  | n + 1, f, goal, l, s =>
    if goal ≤ kvFree s f ∨ farFree s f = 0 then s
    else
      match oldestSeq s f l with
      | none => s
      | some q => spillUntil n f goal (l.filter (fun x => x ≠ q)) (spillSeq f q s)

/-- Signal the function's KV vector (Table 4.12): a VI has one, the AF has none. -/
def signalKv (f : Nat) (s : State) : State := if f = 0 then s else signal f 26 s

/-- R501 at a pace boundary, for one function. -/
def spillCheck (f : Nat) (s : State) : State :=
  if !hasPool s f || decide (farPagesOf s f = 0) then s
  else
    let n := kvPages s f
    if kvFree s f < kvHead s f 46 2 * n / 1024 then
      let l := sequences s f
      spillUntil l.length f (kvHead s f 44 2 * n / 1024) l (signalKv f s)
    else s

/-- Fill one spilled block back onto the die of its block (R503): room is made by spilling others. -/
def fillBlock (f q l j : Nat) (s : State) : State :=
  let e := blockEnt s f q l j
  if !eSpilled e then s
  else
    let d := j % 2
    let s := if freeCount s f d = 0 then
        let others := (sequences s f).filter (fun x => x ≠ q)
        spillUntil others.length f (kvFree s f + 1) others s
      else s
    match kvPop f d s with
    | none => s
    | some (k, s) =>
      let slot := ePage e
      let c := kvCopy f (farSlot s f slot) (kvPageAt s f k) (kvPageBytes s f) s
      let s := setBlockEnt f q l j (mkEntry (eFill e) false (eBlot e || !c.1) (eShared e) true k) c.2
      addReg (attBlk d + 0x28) 1 (pushSlot f slot s)

/-- Fill a whole sequence back. -/
def fillSeq (f q : Nat) (s : State) : State :=
  labDrop f (some q) ((seqBlocks s f q).foldl (fun s x => fillBlock f q x.1 x.2 s) s)

/-- Does a sequence hold a spilled entry? -/
def seqSpilled (s : State) (f q : Nat) : Bool := (seqBlocks s f q).any (fun x => eSpilled (blockEnt s f q x.1 x.2))

end Sys2Proof.Machine
end

