-- ==== Sys2Proof/Machine/Scribe.lean ====
section
/-!
DEFINITION. Scribe (4.4, 4.5, 4.7): doorbells, dispatch with its checks, waits, the firmware inbox, replies and their
vectors, and the queue opcodes.
-/
namespace Sys2Proof.Machine

/-! ### Opcodes (Table 4.10) -/

/-- An opcode of Table 4.10: AF only, pair 0 only, firmware path. -/
structure OpInfo where
  code : Nat
  afOnly : Bool
  fw : Bool
  deriving DecidableEq, Repr

/-- Table 4.10. -/
def opTable : List OpInfo :=
  [⟨0x00, false, false⟩, ⟨0x01, false, true⟩, ⟨0x02, false, true⟩, ⟨0x03, false, false⟩, ⟨0x04, true, true⟩,
   ⟨0x05, true, true⟩, ⟨0x06, true, true⟩, ⟨0x07, false, true⟩, ⟨0x10, false, true⟩, ⟨0x11, false, true⟩,
   ⟨0x12, false, true⟩, ⟨0x13, false, false⟩, ⟨0x14, false, true⟩, ⟨0x15, false, true⟩, ⟨0x16, false, false⟩,
   ⟨0x17, false, false⟩, ⟨0x20, false, false⟩, ⟨0x21, false, false⟩, ⟨0x22, true, true⟩, ⟨0x30, false, true⟩,
   ⟨0x31, false, true⟩, ⟨0x32, false, true⟩, ⟨0x33, false, true⟩, ⟨0x34, false, true⟩, ⟨0x40, false, true⟩,
   ⟨0x41, false, true⟩, ⟨0x42, false, true⟩, ⟨0x50, true, true⟩, ⟨0x51, true, true⟩, ⟨0x52, true, true⟩,
   ⟨0x53, false, true⟩, ⟨0x60, false, false⟩, ⟨0x61, false, false⟩, ⟨0x62, false, true⟩, ⟨0x63, true, true⟩,
   ⟨0x70, true, true⟩, ⟨0x71, false, true⟩, ⟨0x72, true, true⟩, ⟨0x73, true, true⟩, ⟨0x80, true, true⟩,
   ⟨0x81, true, true⟩, ⟨0x82, true, true⟩, ⟨0x83, true, true⟩, ⟨0x84, true, true⟩, ⟨0x85, true, true⟩,
   ⟨0x86, true, true⟩]

/-- The entry of an opcode. -/
def opInfo (op : Nat) : Option OpInfo := opTable.find? (fun x => x.code = op)

/-- The LENGTH that an opcode needs: VI_CREATE carries one 64-byte unit (Table 4.3). -/
def opLength (op : Nat) : Nat := if op = 4 then 1 else 0

/-- Is the life-cycle state SUSPENDED (Table 16.7)? -/
def suspended (s : State) : Bool := decide (getF s secBlk 0 2 = 3)
/-- Has the device declared itself out of service (R648)? -/
def outOfSvc (s : State) : Bool := getB s 0x200 31

/-- The status with which Scribe turns a command away: permission (R158), OUT_OF_SERVICE (R648, R622), BAD_STATE (R697) and
VI_RESETTING (R176). -/
def turnedAway (s : State) (fn pair op : Nat) : Option Nat :=
  match opInfo op with
  | none => some stBadOpcode
  | some i =>
    if (i.afOnly && decide (fn ≠ 0)) || ([1, 2].contains op && decide (pair ≠ 0)) then some stNotPermitted
    else if outOfSvc s && !([0x00, 0x62, 0x63, 0x22, 0x60].contains op) then some stOutOfService
    else if s.hub.tripped && !([0x00, 0x62, 0x63, 0x60].contains op) then some stOutOfService
    else if suspended s && [0x10, 0x12, 0x13, 0x04, 0x50, 0x51, 0x52, 0x84, 0x85].contains op then some stBadState
    else if fn ≠ 0 && !getB s (viPage fn) 30 && !([0x00, 0x01, 0x02, 0x07].contains op) then some stViResetting
    else none

/-- The bytes of each parameter of an opcode, in the order of Table 4.10. -/
def paramBytes (op : Nat) : List Nat :=
  match op with
  | 0x01 => [8, 8, 4, 4, 1, 1, 1, 1, 1]
  | 0x02 | 0x03 | 0x05 | 0x06 | 0x83 => [1]
  | 0x07 | 0x61 => [8, 1]
  | 0x10 | 0x41 | 0x42 | 0x53 | 0x63 | 0x84 => [8, 8]
  | 0x11 | 0x14 | 0x85 | 0x86 => [8]
  | 0x12 => [8, 4, 1, 1]
  | 0x13 | 0x15 | 0x22 | 0x60 | 0x62 | 0x80 | 0x81 => [8, 4]
  | 0x16 => [4, 2]
  | 0x17 => [2]
  | 0x20 => [8, 8, 8, 1]
  | 0x21 => [8, 8, 8]
  | 0x30 => [8, 4, 4]
  | 0x31 => [4, 2]
  | 0x32 => [4, 4, 4]
  | 0x33 => [4]
  | 0x34 => [8, 4, 2, 2]
  | 0x40 => [8, 8, 4, 4]
  | 0x50 => [8, 8, 8]
  | 0x51 => [8, 8, 8, 1]
  | 0x52 => [8, 1]
  | 0x70 => [8, 2]
  | 0x71 => [8, 2, 2, 2, 1]
  | 0x82 => [2, 2, 1, 1]
  | _ => []

/-- Consecutive fields of given widths from byte i. -/
def fieldsFrom (l : List Byte) : Nat → List Nat → List Nat
  | _, [] => []
  | i, w :: r => field l i w :: fieldsFrom l (i + w) r

/-- The parameters that a command's bytes spell: from byte 16, one after the other (R159); VI_CREATE has VI and its 64-byte payload. -/
def paramsOf (op : Nat) (raw : List Byte) : List Nat :=
  if op = 0x04 then [field raw 16 1, field raw 64 64] else fieldsFrom raw 16 (paramBytes op)

/-- Is this the command that runs? One whose header stands among the started commands has the parameters that its consumed bytes spell (R159);
one that still waits on a hurdle or in the inbox does not run yet. A command that stands in no queue is taken as given (log 14). -/
def runsNow (s : State) (h : CmdHdr) (op : Nat) (params : List Nat) : Bool :=
  match s.scribe.started.find? (fun c => decide (c.h = h ∧ c.op = op)) with
  | some c => c.raw.isEmpty || decide (paramsOf op c.raw = params)
  | none => !(s.scribe.inbox ++ s.scribe.waits.map (fun w => w.cmd)).any (fun c => decide (c.h = h ∧ c.op = op))

/-- Run an opcode for its issuer: the status that turns it away, or its effect. Operands that are not the command's change nothing. -/
def runOp (h : CmdHdr) (op : Nat) (params : List Nat) (eff : State → State) (s : State) : Out :=
  .next (if !runsNow s h op params then s
    else
      match turnedAway s h.fn h.pair op with
      | some st => fail h op st s
      | none => eff s)

/-! ### Queue pairs -/

def getPair (s : State) (f p : Nat) : Option QPair := kvFind s.scribe.pairs (8 * f + p)
def setPair (f p : Nat) (x : QPair) (s : State) : State :=
  modScribe (fun y => { y with pairs := kvInsert y.pairs (8 * f + p) x }) s
def dropPair (f p : Nat) (s : State) : State :=
  modScribe (fun y => { y with pairs := kvErase y.pairs (8 * f + p) }) s

/-- Epochs of a pair (VI_EPOCHq): SQ in the low half, CQ in the high half. -/
def sqEpoch (s : State) (f p : Nat) : Nat := getF s (viPage f + 0x40 + 4 * p) 0 16
def cqEpoch (s : State) (f p : Nat) : Nat := getF s (viPage f + 0x40 + 4 * p) 16 16
def setEpochs (f p sq cq : Nat) (s : State) : State :=
  setReg (viPage f + 0x40 + 4 * p) (BitVec.ofNat 32 (65536 * cq + sq)) s

/-- An epoch advances; 0xFFFF advances to 0x0001 (R150). -/
def nextEpoch (e : Nat) : Nat := if e = 0xFFFF then 1 else e + 1

/-- Is this function there: the AF always, VIn once created (R136)? -/
def fnCreated (s : State) (f : Nat) : Bool := f = 0 || getB s (viPage f) 31

/-- A doorbell reaches a submission queue (R148): from the end of bring-up stage 1 (R670), of a created function that is not
in its drain (Table 4.15). DESIGN CHOICE (log 16): a doorbell of a pair that does not exist, whose epoch reads 0, counts as stale, and a TAIL
at or above S counts as a bad doorbell. -/
def execSqDoorbell (fn : Fin 65) (pair : Fin 8) (d : BitVec 32) (s : State) : Out :=
  .next (if !fnCreated s fn || resetting s fn then s
    else if fld d 16 16 ≠ sqEpoch s fn pair ∨ sqEpoch s fn pair = 0 then addReg (viPage fn + 0x14) 1 s
    else
      match getPair s fn pair with
      | none => addReg (viPage fn + 0x14) 1 s
      | some p =>
        let t := fld d 0 16
        let a := (t + p.slots - p.tail) % p.slots
        let n := (p.tail + p.slots - p.head) % p.slots
        if p.slots ≤ t ∨ p.slots - 1 < a + n then addReg (viPage fn + 0x18) 1 s
        else setPair fn pair { p with tail := t } s)

/-- A CQ head doorbell frees entries (R155): its epoch is the CQ's, and the new head lies within the entries written;
any other is ignored (DESIGN CHOICE, log 53). -/
def execCqHeadDoorbell (fn : Fin 65) (pair : Fin 8) (d : BitVec 32) (s : State) : Out :=
  .next (if !fnCreated s fn || resetting s fn then s
    else
      match getPair s fn pair with
      | none => s
      | some p =>
        let n := fld d 0 16
        if fld d 16 16 = cqEpoch s fn pair ∧ n < p.entries ∧ (n + p.entries - p.cqHead) % p.entries ≤ cqUsed p then
          setPair fn pair { p with cqHead := n } s
        else s)

/-! ### Dispatch -/

/-- The bytes of n slots of a submission queue from slot i, wrapping (R147). -/
def sqBytes (s : State) (f : Nat) (p : QPair) (i n : Nat) : List Byte :=
  (List.range n).flatMap (fun j =>
    let a := p.sqBase + 64 * ((i + j) % p.slots)
    if p.sqDev then (readSpan s { fn := f, trusted := true, org := oEngine 4 0 } a 64).data else hostRead s a 64)

/-- A command that Scribe could consume from a queue pair: its raw bytes. The whole command is published (R149), the CQ is not
full (R155), and no earlier command of the queue still waits to start (R154). Table 4.8 gives LENGTH 0 to 63. DESIGN CHOICE (log 17): a
greater LENGTH occupies 1 + LENGTH mod 64 slots; it then fails R158's check of LENGTH. -/
def nextCommand (s : State) (f q : Nat) (p : QPair) : Option (List Byte) :=
  let n := (p.tail + p.slots - p.head) % p.slots
  if n = 0 ∨ resetting s f ∨ p.entries ≤ cqUsed p + 1 then none
  else if s.scribe.waits.any (fun w => w.cmd.h.fn.val = f && w.cmd.h.pair.val = q) then none
  else
    let hd := sqBytes s f p p.head 1
    let l := field hd 2 2 % 64
    if n < 1 + l then none else some (sqBytes s f p p.head (1 + l))

/-- Are commands of a pair consumed and not completed? DESIGN CHOICE (log 18): a command whose reply a full CQ still holds has completed for
FENCE, as R154 orders completions and not replies. -/
def pairBusy (s : State) (f q : Nat) : Bool :=
  (s.scribe.started ++ s.scribe.inbox ++ s.scribe.waits.map (fun w => w.cmd)).any
    (fun c => c.h.fn.val = f && c.h.pair.val = q)

/-- Has the inbox room for an opcode of a function (R169)? A hardware opcode needs none. -/
def inboxRoom (s : State) (f op : Nat) : Bool :=
  match opInfo op with
  | none => true
  | some i =>
    !i.fw || (decide (s.scribe.inbox.length < 256) && decide ((s.scribe.inbox.filter (fun c => c.h.fn.val = f)).length < 32))

/-- May a queue's next command go now: FENCE (R154) and room in the inbox (R169)? -/
def mayGo (s : State) (f q : Nat) (raw : List Byte) : Bool :=
  !(bit (field raw 1 1) 0 && pairBusy s f q) && inboxRoom s f (field raw 0 1)

/-- The submission queue that is served next, after the one served last, with its command (R168). -/
def pickQueue (s : State) : Option (Nat × QPair × List Byte) :=
  (List.range 520).findSome? (fun i =>
    let k := (s.scribe.turn + 1 + i) % 520
    match kvFind s.scribe.pairs k with
    | none => none
    | some p =>
      match nextCommand s (k / 8) (k % 8) p with
      | none => none
      | some raw => if mayGo s (k / 8) (k % 8) raw then some (k, p, raw) else none)

/-- The first header check that fails (R158), in the order listed. -/
def headerCheck (s : State) (f q : Nat) (raw : List Byte) : Option Nat :=
  let op := field raw 0 1
  let fl := field raw 1 1
  if (opInfo op).isNone then some stBadOpcode
  else if field raw 2 2 ≠ opLength op then some stBadLength
  else if field raw 8 1 ≠ f then some stBadVi
  else if field raw 10 2 ≠ sqEpoch s f q then some stStaleEpoch
  else
    match turnedAway s f q op with
    | some st => some st
    | none =>
      if (bit fl 2 && !hurdleAllowed s f (field raw 12 2)) || (bit fl 3 && !hurdleAllowed s f (field raw 14 2)) then
        some stNotPermitted
      else none

/-- What Scribe keeps of a header (Table 4.8). -/
def hdrOf (f q : Nat) (raw : List Byte) : CmdHdr :=
  let fl := field raw 1 1
  { fn := Fin.ofNat 65 f, pair := Fin.ofNat 8 q, tag := BitVec.ofNat 32 (field raw 4 4), noReply := bit fl 1,
    arrive := if bit fl 3 ∧ field raw 14 2 < 8192 then some (Fin.ofNat 8192 (field raw 14 2)) else none }

/-- A command goes to the inbox or starts in hardware. -/
def startCmd (c : Cmd) (s : State) : State :=
  if ((opInfo c.op).map (fun i => i.fw)).getD false then modScribe (fun x => { x with inbox := x.inbox ++ [c] }) s
  else modScribe (fun x => { x with started := x.started ++ [c] }) s

/-- Scribe takes the next command (R168): from the end of bring-up stage 6 (R670). A failed check completes it with its
status; WAIT keeps it until its hurdle releases (R214), for which it waits from now on; a firmware opcode goes to the inbox; a hardware opcode starts. -/
def execCommandDispatch (s : State) : Out :=
  .next (if !s.scribe.consuming then s
    else
      match pickQueue s with
      | none => s
      | some (k, p, raw) =>
        let f := k / 8
        let q := k % 8
        let h := hdrOf f q raw
        let c : Cmd := { h := h, op := field raw 0 1, raw := raw, gen := (getHurdle s (field raw 16 2)).gen }
        let s := setPair f q { p with head := (p.head + raw.length / 64) % p.slots } s
        let s := modScribe (fun x => { x with turn := k }) s
        match headerCheck s f q raw with
        | some st =>
          let h := if hurdleAllowed s f (field raw 14 2) then h else { h with arrive := none }
          fail h c.op st s
        | none =>
          if bit (field raw 1 1) 2 then
            let n := field raw 12 2
            let e := (getHurdle s n).gen
            let w : HurdleWait := { hurdle := n, who := 0x8000 + f, expect := e, word := 1#128, cmd := some h }
            let s := modScribe (fun x => { x with waits := x.waits ++ [{ cmd := c, hurdle := n, expect := e }] }) s
            hurdleCycle n [] { s with hwaits := s.hwaits ++ [w] }
          else startCmd c s)

/-- May a command whose WAIT has completed start: its CQ is not full (R155), and the inbox has room for it (R169)? -/
def mayStart (s : State) (w : CmdWait) : Bool :=
  w.released && inboxRoom s w.cmd.h.fn w.cmd.op &&
    ((getPair s w.cmd.h.fn w.cmd.h.pair).map (fun p => decide (cqUsed p + 1 < p.entries))).getD true

/-- Take the first element that a test accepts. -/
def takeFirst {α : Type} (p : α → Bool) : List α → Option (α × List α)
  | [] => none
  | x :: r => if p x then some (x, r) else (takeFirst p r).map (fun (y, l) => (y, x :: l))

/-- A command whose WAIT has completed (R211, R214) starts. -/
def execCommandWaitRelease (s : State) : Out :=
  .next (match takeFirst (mayStart s) s.scribe.waits with
    | none => s
    | some (w, rest) => startCmd w.cmd (modScribe (fun x => { x with waits := rest }) s))

/-- Hub firmware takes the oldest inbox entry (R169): while it runs and serves the inbox (Table 15.13). -/
def execFirmwareInboxServe (s : State) : Out :=
  .next (if !getB s 0x708 25 || getB s 0x708 26 || s.hub.halted then s
    else
      match s.scribe.inbox with
      | [] => s
      | c :: r => modScribe (fun x => { x with inbox := r, started := x.started ++ [c] }) s)

/-! ### Replies -/

/-- A reply's 32 bytes (Table 4.9). -/
def replyBytes (s : State) (r : Reply) (phase : Bool) : List Byte :=
  leBytes 4 r.tag ++ leBytes 2 r.status ++ leBytes 1 r.op ++ leBytes 1 (b2n phase) ++ leBytes 2 r.pair ++
    leBytes 2 (((getPair s r.fn r.pair).map (fun p => p.head)).getD 0) ++ leBytes 4 r.blots ++ leBytes 8 r.r0 ++
    leBytes 4 r.r1 ++ leBytes 4 r.pace

/-- COAL_COUNT and COAL_TIME; 0 acts as 1 (R172). -/
def coalCountOf (p : QPair) : Nat := max 1 p.coalCount
def coalTimeOf (p : QPair) : Nat := max 1 p.coalTime

/-- Can this reply be written now: NO_REPLY leaves nothing to write; else the pair exists, its function is not in its drain,
and its CQ has a free entry? -/
def writable (s : State) (r : Reply) : Bool :=
  r.silent ||
    match getPair s r.fn r.pair with
    | none => true
    | some p => !resetting s r.fn && decide (cqUsed p + 1 < p.entries)

/-- The CQ's vector fires when COAL_COUNT replies stand since the last signal (R172). -/
def coalesce (f q : Nat) (p : QPair) (s : State) : State :=
  let p := { p with unsig := p.unsig + 1, unsigSince := if p.unsig = 0 then s.now else p.unsigSince }
  if coalCountOf p ≤ p.unsig then signal f p.vector (setPair f q { p with unsig := 0 } s) else setPair f q p s

/-- Write one reply: one aligned 32-byte write with its phase (R156), then the command's ARRIVE (R214). A reply of a pair
that no longer exists has nowhere to go; its ARRIVE still happens (DESIGN CHOICE, log 53). -/
def writeReply (r : Reply) (s : State) : State :=
  let s :=
    match getPair s r.fn r.pair with
    | none => s
    | some p =>
      if r.silent then s
      else
        let a := p.cqBase + 32 * p.cqWrite
        let b := replyBytes s r p.phase
        let s := if p.cqDev then (writeSpan { fn := r.fn, trusted := true, org := oEngine 4 0 } a b false (.start s)).s
          else hostWrite false a b s
        let w := (p.cqWrite + 1) % p.entries
        coalesce r.fn r.pair { p with cqWrite := w, phase := if w = 0 then !p.phase else p.phase } s
  match r.arrive with
  | none => s
  | some n => arrive n 1 s

/-- Scribe writes the oldest reply whose CQ takes it (R155). -/
def execStatusReplyWrite (s : State) : Out :=
  .next (match takeFirst (writable s) s.scribe.replies with
    | none => s
    | some (r, rest) => writeReply r (modScribe (fun x => { x with replies := rest }) s))

/-- COAL_TIME µs after the oldest reply not yet signalled, the vector fires (R172). -/
def execCqCoalTimeout (fn : Fin 65) (pair : Fin 8) (t : Nat) (s : State) : Out :=
  let s := { s with now := max s.now t }
  .next (match getPair s fn pair with
    | none => s
    | some p =>
      if 0 < p.unsig ∧ p.unsigSince + 1000 * coalTimeOf p ≤ s.now then
        signal fn p.vector (setPair fn pair { p with unsig := 0 } s)
      else s)

/-! ### Queue opcodes -/

/-- NOP completes and does nothing. -/
def execNop (h : CmdHdr) (s : State) : Out := runOp h 0x00 [] (fail h 0x00 stOk) s

/-- Is this a ring length (R146)? -/
def ringLength (n : Nat) : Bool := [64, 128, 256, 512, 1024, 2048, 4096, 8192, 16384, 32768, 65536].contains n

/-- Vectors that a CQ of a function may choose (Table 4.12). -/
def vectorOk (f v : Nat) : Bool := if f = 0 then decide (v < 96) else decide (v < 24)

/-- Are a queue pair's parameters in range (R146, R172)? -/
def queueOk (f : Nat) (q : QueueArgs) : Bool :=
  ringLength q.sqSlots && ringLength q.cqEntries && decide (q.sqBase % 4096 = 0) && decide (q.cqBase % 4096 = 0) &&
    vectorOk f q.vector && decide (q.loc < 4) && decide (q.coalCount < 256) && decide (q.coalTime < 256)

/-- A new pair, empty. -/
def newPair (q : QueueArgs) : QPair :=
  { sqBase := q.sqBase, cqBase := q.cqBase, slots := q.sqSlots, entries := q.cqEntries, sqDev := bit q.loc 0,
    cqDev := bit q.loc 1, vector := q.vector, coalCount := q.coalCount, coalTime := q.coalTime }

/-- The parameters of CREATE_QUEUE, in the order of Table 4.10. -/
def queueParams (q : QueueArgs) : List Nat :=
  [q.sqBase, q.cqBase, q.sqSlots, q.cqEntries, q.pair, q.loc, q.vector, q.coalCount, q.coalTime]

/-- CREATE_QUEUE makes one of pairs 1 to 7 with epoch 1 (R150). -/
def execCreateQueue (h : CmdHdr) (q : QueueArgs) (s : State) : Out :=
  runOp h 0x01 (queueParams q) (fun s =>
    if q.pair = 0 ∨ 7 < q.pair ∨ !queueOk h.fn q then fail h 0x01 stBadParam s
    else if (getPair s h.fn q.pair).isSome then fail h 0x01 stQueueExists s
    else finish h 0x01 stOk 0 0 1 (setEpochs h.fn q.pair 1 1 (setPair h.fn q.pair (newPair q) s))) s

/-- A pair is deleted: its epochs read 0, and its consumed commands that have not started are ended (ABORTED, Table 4.11);
their replies have no CQ left. -/
def deletePair (f q : Nat) (s : State) : State :=
  let mine := fun (c : Cmd) => decide (c.h.fn.val = f ∧ c.h.pair.val = q)
  let gone := (s.scribe.waits.map (fun w => w.cmd)).filter mine ++ s.scribe.inbox.filter mine
  let s := modScribe (fun x => { x with waits := x.waits.filter (fun w => !mine w.cmd), inbox := x.inbox.filter (fun c => !mine c) }) s
  let s := { s with hwaits := s.hwaits.filter (fun w =>
    !(decide (w.word = 1#128) && (w.cmd.map (fun h => decide (h.fn.val = f ∧ h.pair.val = q))).getD false)) }
  let s := gone.foldl (fun s c => fail c.h c.op stAborted s) s
  setReg (viPage f + 0x40 + 4 * q) 0#32 (dropPair f q s)

/-- DELETE_QUEUE deletes one of pairs 1 to 7; pair 0 goes through VI_Q0_CTRL. -/
def execDeleteQueue (h : CmdHdr) (pair : Nat) (s : State) : Out :=
  runOp h 0x02 [pair] (fun s =>
    if pair = 0 ∨ 7 < pair then fail h 0x02 stBadParam s
    else if (getPair s h.fn pair).isNone then fail h 0x02 stNoQueue s
    else fail h 0x02 stOk (deletePair h.fn pair s)) s

/-- Published commands that a flush discards: whole commands from H (R151). -/
def countCommands : Nat → State → Nat → QPair → Nat → Nat → Nat
  | 0, _, _, _, _, n => n
  | k + 1, s, f, p, i, n =>
    if i = p.tail then n
    else
      let l := field (sqBytes s f p i 1) 2 2 % 64
      if (p.tail + p.slots - i) % p.slots < 1 + l then n
      else countCommands k s f p ((i + 1 + l) % p.slots) (n + 1)

/-- FLUSH_QUEUE discards what is published and not consumed, sets H to T and advances the SQ's epoch (R151). -/
def execFlushQueue (h : CmdHdr) (pair : Nat) (s : State) : Out :=
  runOp h 0x03 [pair] (fun s =>
    if 7 < pair then fail h 0x03 stBadParam s
    else
      match getPair s h.fn pair with
      | none => fail h 0x03 stNoQueue s
      | some p =>
        let n := countCommands p.slots s h.fn p p.head 0
        let e := nextEpoch (sqEpoch s h.fn pair)
        finish h 0x03 stOk 0 n e
          (setEpochs h.fn pair e (cqEpoch s h.fn pair) (setPair h.fn pair { p with head := p.tail } s))) s

/-- VI_Q0_CTRL is written (Table 4.13): ENABLE 1 creates pair 0 from the Q0 registers with epoch 1, ENABLE 0 deletes it. A
setting that R146 does not allow creates no pair. -/
def execViQ0Enable (fn : Fin 65) (d : BitVec 32) (s : State) : Out :=
  let f := fn.val
  let pg := viPage f
  let on := getB s (pg + 0x94) 0
  let want := fld d 0 1 = 1
  .next (if resetting s f then s
    else
      let s := setReg (pg + 0x94) (d &&& 0xFF01#32) s
      if want ∧ on = false then
        let c := rawReg s (pg + 0x90)
        let q : QueueArgs :=
          { sqBase := reg64 s (pg + 0x80), cqBase := reg64 s (pg + 0x88), sqSlots := 2 ^ (fld c 28 4 + 6),
            cqEntries := 2 ^ (fld c 24 4 + 6), pair := 0, loc := fld c 23 1 + 2 * fld c 22 1, vector := fld c 8 7,
            coalCount := fld c 0 8, coalTime := fld d 8 8 }
        if queueOk f q then setEpochs f 0 1 1 (setPair f 0 (newPair q) s)
        else setReg (pg + 0x94) (d &&& 0xFF00#32) s
      else if !want ∧ on = true then deletePair f 0 s
      else
        match getPair s f 0 with
        | none => s
        | some p => setPair f 0 { p with coalTime := fld d 8 8 } s)

/-! ### Hurdle opcodes (R214) -/

/-- HURDLE_ARRIVE performs ARRIVE(COUNT). -/
def execHurdleArrive (h : CmdHdr) (count hurdle : Nat) (s : State) : Out :=
  runOp h 0x16 [count, hurdle] (fun s =>
    if !hurdleAllowed s h.fn hurdle then fail h 0x16 stNotPermitted s
    else fail h 0x16 stOk (arrive hurdle (count % 2 ^ 32) s)) s

/-- HURDLE_WAIT replies once a WAIT on the hurdle completes; its E is the GEN in force when it was consumed. -/
def execHurdleWait (h : CmdHdr) (hurdle : Nat) (s : State) : Out :=
  runOp h 0x17 [hurdle] (fun s =>
    if !hurdleAllowed s h.fn hurdle then fail h 0x17 stNotPermitted s
    else
      let e := ((s.scribe.started.find? (fun c => decide (c.h = h ∧ c.op = 0x17 ∧ c.raw ≠ []))).map (fun c => c.gen)).getD (getHurdle s hurdle).gen
      let w : HurdleWait :=
        { hurdle := hurdle, who := 0x8000 + h.fn.val, expect := e, word := 0#128, cmd := some h }
      hurdleCycle hurdle [] { s with hwaits := s.hwaits ++ [w] }) s

end Sys2Proof.Machine
end

