-- ==== Sys2Proof/Machine/KvCommands.lean ====
section
/-!
DEFINITION. The KV opcodes (11.1, 11.2, 11.8): KV_POOL_SET, KV_SEQ_CREATE, KV_SEQ_FORK, KV_SEQ_FREE and KV_SPILL_POLICY. A command
for a sequence is served when the queues of its home walkers are empty (R475).
-/
namespace Sys2Proof.Machine

/-- Is every home walker of these sequences free to serve a command (R475)? -/
def walkersFree (s : State) (l : List Nat) : Bool := l.all (fun q => (getAtt s (q % 2)).queue.isEmpty)

/-- The floor dies of sequences' home walkers. -/
def homeDies (l : List Nat) : List Nat := (l.map (fun q => q % 2)).dedup
/-- A request in a walker's queue is the place of this command. -/
def isPlace (h : CmdHdr) (op : Nat) (l : List Nat) (x : WalkReq) : Bool := decide (x.kind = .command h op l)
/-- Its place in the queues of its home walkers. -/
def commandPlace (h : CmdHdr) (op : Nat) (l : List Nat) : WalkReq :=
  { fn := h.fn.val, runner := 0, word := 0, desc := [], blot := false, kind := .command h op l }

/-- A KV command takes its place in the queues of its home walkers, unless they are free or it has one, and is served when it has come to the
head of each (R475). -/
def kvServe (h : CmdHdr) (op : Nat) (l : List Nat) (eff : State → State) (s : State) : State :=
  if walkersFree s l then eff s
  else
    let s := (homeDies l).foldl (fun s d =>
      if (getAtt s d).queue.any (isPlace h op l) then s
      else modAtt d (fun a => { a with queue := a.queue ++ [commandPlace h op l] }) s) s
    if (homeDies l).all (fun d => ((getAtt s d).queue.head?.map (isPlace h op l)).getD false) then
      eff ((homeDies l).foldl (fun s d => modAtt d (fun a => { a with queue := a.queue.drop 1 }) s) s)
    else s

/-! ### KV_POOL_SET -/

/-- Does an address of a function lie in one of its PIM-local regions? -/
def inPimLocal (s : State) (f a : Nat) : Bool :=
  match devAddr s f a with
  | none => false
  | some d =>
    match place d with
    | .pim o => pimLocal s (o >>> 30)
    | _ => false

/-- Does a whole area of a function lie in its PIM-local regions: every 1 GiB piece of it? -/
def areaPimLocal (s : State) (f a n : Nat) : Bool :=
  decide (0 < n) && (List.range ((a + n - 1) / 2 ^ 30 + 1 - a / 2 ^ 30)).all (fun i =>
    inPimLocal s f (max a (2 ^ 30 * (a / 2 ^ 30 + i))))

/-- Is a pool page left out (R470): under a failed unit, or holding a retired 2 KiB unit? -/
def pageUnusable (s : State) (f k : Nat) : Bool :=
  (List.range (kvPageBytes s f / 2048)).any (fun i =>
    match fnDram s f (kvPageAt s f k + 2048 * i) with
    | none => true
    | some l => pageRetired s l || nmuBad s (l.stack - 4) l.nmu)

/-- Zero an area of a function, 256 KiB block by block. -/
def zeroBlocks (f a n : Nat) (s : State) : State :=
  (List.range (n / 262144)).foldl (fun s i =>
    match devAddr s f (a + 262144 * i) with
    | none => s
    | some d => zeroRange d 262144 s) s

/-- The greatest PAGES of a function: KV_POOL_MAX of a VI; the AF has no such limit. -/
def poolMax (s : State) (f : Nat) : Nat := if f = 0 then 2 ^ 32 - 1 else (getFn s f).kvPoolMax

/-- Initialise the control area (R468, R470): header, state words, and each usable page pushed in descending order. -/
def initPool (f base pages pageBytes : Nat) (s : State) : State :=
  let s := modFn f (fun x => { x with kvBase := base, kvPages := pages, kvPageBytes := pageBytes }) s
  let s := zeroBlocks f base (kvControl pages) s
  let s := setKvHead f 8 4 (kvControl pages) (setKvHead f 4 4 pageBytes (setKvHead f 0 4 pages s))
  labDrop f none ((List.range pages).foldl (fun s i =>
    let k := pages - 1 - i
    if pageUnusable s f k then setKvHead f 20 4 (kvHead s f 20 4 + 1) (setKvWord f k (2 ^ 17) s) else kvPush f k s) s)

/-- KV_POOL_SET (R465 to R470). -/
def execKvPoolSet (h : CmdHdr) (base pages pageBytes : Nat) (s : State) : Out :=
  runOp h 0x30 [base, pages, pageBytes] (fun s =>
    let f := h.fn.val
    if !(decide (pageBytes % 2048 = 0 ∧ 0 < pageBytes ∧ pageBytes ≤ 262144) && decide (base % 262144 = 0) &&
        decide (1 ≤ pages ∧ pages ≤ poolMax s f) && areaPimLocal s f base (kvAreaLen pages pageBytes)) then
      fail h 0x30 stBadParam s
    else if hasPool s f && decide (0 < kvHead s f 24 4) then fail h 0x30 stBusy s
    else fail h 0x30 stOk (initPool f base pages pageBytes s)) s

/-! ### Sequences (R474) -/

/-- Where table slot i of a sequence starts: the byte within its table pages taken in order (R473). -/
def tableSlot (s : State) (f : Nat) (pages : List Nat) (i : Nat) : Nat :=
  let b := i * tableBytes s f
  kvOffset s f (nth 0 pages (b / kvPageBytes s f)) + b % kvPageBytes s f

/-- Write a new sequence's tables: every entry with VALID 0, the record with SET 0, the directory entry. -/
def newTables (f q layers : Nat) (pages : List Nat) (s : State) : State :=
  let s := pages.foldl (fun s k => setKvWord f k (2 ^ 16 + 1) (kvZeroPage f k s)) s
  let root := tableSlot s f pages 0
  let s := kvWr f (dirAt s f q) 8 (mkEntry layers false false false true (root / 2048)) s
  let s := kvWr f (kvArea s f + root) 4 q s
  let s := kvWr f (kvArea s f + root + 4) 2 layers s
  (List.range layers).foldl (fun s l =>
    kvWr f (layerAt s f q l) 8 (mkEntry 0 false false false false (tableSlot s f pages (l + 1) / 2048)) s) s

/-- KV_SEQ_CREATE. -/
def execKvSeqCreate (h : CmdHdr) (seq layers : Nat) (s : State) : Out :=
  runOp h 0x31 [seq, layers] (kvServe h 0x31 [seq] (fun s =>
    let f := h.fn.val
    if !hasPool s f || decide (65536 ≤ seq) || seqExists s f seq || decide (layers = 0) || decide (maxLayers s f < layers) then
      fail h 0x31 stBadParam s
    else
      match kvPopMany (ceilDiv ((1 + layers) * tableBytes s f) (kvPageBytes s f)) f (seq % 2) s with
      | none => fail h 0x31 stQuota s
      | some (pages, s) =>
        let s := setKvHead f 24 4 (kvHead s f 24 4 + 1) (newTables f seq layers pages s)
        finish h 0x31 stOk 0 (dirAt s f seq) 0 s)) s

/-- The block entries that a fork shares: layer, block and FILL (R474). -/
def forkBlocks (s : State) (f src tokens : Nat) : List (Nat × Nat × Nat) :=
  let p := seqP s f src
  (List.range (seqLayers s f src)).flatMap (fun l =>
    let n := min tokens (eFill (layerEnt s f src l))
    (List.range (ceilDiv n p)).map (fun j => (l, j, min p (n - j * p))))

/-- Give one block of SRC to DST: SHARED in both, REFS one more; a page that DST's entry held before loses its reference. -/
def shareBlock (f src dst : Nat) (x : Nat × Nat × Nat) (s : State) : State :=
  let l := x.1
  let j := x.2.1
  let e := blockEnt s f src l j
  let old := blockEnt s f dst l j
  let s := if eValid old && !eSpilled old then (kvDrop f (ePage old) s).2 else s
  let s := setBlockEnt f dst l j (mkEntry x.2.2 false (eBlot e) true true (ePage e)) s
  let s := setBlockEnt f src l j (setBits e 33 1 1) s
  let w := kvWord s f (ePage e)
  setKvWord f (ePage e) (setBits w 0 16 (wRefs w + 1)) s

/-- Copy SRC's geometry and layer FILLs. -/
def forkLayers (f src dst tokens : Nat) (s : State) : State :=
  let s := kvWr f (layerTable s f dst + 6) 4 (kvRd s f (layerTable s f src + 6) 4) s
  (List.range (seqLayers s f src)).foldl (fun s l =>
    let n := min tokens (eFill (layerEnt s f src l))
    let e := layerEnt s f dst l
    if n = 0 then s else kvWr f (layerAt s f dst l) 8 (mkEntry n false false false true (ePage e)) s) s

/-- KV_SEQ_FORK: a spilled source is filled back first (R503); entries that stay spilled leave KV_NOPAGE. -/
def execKvSeqFork (h : CmdHdr) (src dst tokens : Nat) (s : State) : Out :=
  runOp h 0x32 [src, dst, tokens] (kvServe h 0x32 [src, dst] (fun s =>
    let f := h.fn.val
    if !seqExists s f src || !seqExists s f dst then fail h 0x32 stNoSeq s
    else if seqLayers s f src ≠ seqLayers s f dst ∨
        (List.range (seqLayers s f dst)).any (fun l => decide (eFill (layerEnt s f dst l) ≠ 0)) then fail h 0x32 stBadParam s
    else
      let s := if seqSpilled s f src then fillSeq f src s else s
      let bs := forkBlocks s f src tokens
      if bs.any (fun x => eSpilled (blockEnt s f src x.1 x.2.1)) then fail h 0x32 stKvNopage s
      else if bs.any (fun x => decide (65535 ≤ wRefs (kvWord s f (ePage (blockEnt s f src x.1 x.2.1))))) then
        fail h 0x32 stBadParam s
      else
        let s := labDrop f (some dst) (labDrop f (some src) s)
        let s := bs.foldl (fun s x => shareBlock f src dst x s) s
        finish h 0x32 stOk 0 0 bs.length (forkLayers f src dst tokens s))) s

/-- Drop a reference of a page, counting the pages whose REFS fell to 0. -/
def freePage (f : Nat) (x : Nat × State) (k : Nat) : Nat × State := (x.1 + b2n (kvDrop f k x.2).1, (kvDrop f k x.2).2)

/-- Drop what one block entry holds: its page's reference, or its far slot. -/
def freeBlock (f q : Nat) (x : Nat × State) (b : Nat × Nat) : Nat × State :=
  bif eSpilled (blockEnt x.2 f q b.1 b.2) then (x.1, pushSlot f (ePage (blockEnt x.2 f q b.1 b.2)) x.2)
  else freePage f x (ePage (blockEnt x.2 f q b.1 b.2))

/-- KV_SEQ_FREE. -/
def execKvSeqFree (h : CmdHdr) (seq : Nat) (s : State) : Out :=
  runOp h 0x33 [seq] (kvServe h 0x33 [seq] (fun s =>
    let f := h.fn.val
    if !seqExists s f seq then fail h 0x33 stNoSeq s
    else
      let s := labDrop f (some seq) s
      let tables := tablePages s f seq
      let x := (seqBlocks s f seq).foldl (freeBlock f seq) (0, s)
      let s := kvWr f (dirAt x.2 f seq) 8 0 x.2
      let y := tables.foldl (freePage f) (x.1, s)
      finish h 0x33 stOk 0 0 y.1 (setKvHead f 24 4 (kvHead y.2 f 24 4 - 1) y.2))) s

/-! ### KV_SPILL_POLICY -/

/-- Does a whole area of a function lie in its far memory: every 64 MiB piece of it? -/
def areaFar (s : State) (f a n : Nat) : Bool :=
  (List.range (if n = 0 then 0 else (a + n - 1) / 2 ^ 26 + 1 - a / 2 ^ 26)).all (fun i =>
    match devAddr s f (max a (2 ^ 26 * (a / 2 ^ 26 + i))) with
    | none => false
    | some d =>
      match place d with
      | .far _ _ => true
      | _ => false)

/-- KV_SPILL_POLICY (R500): the policy goes to the header and the slot stack holds every slot, the lowest on top. While pages are
spilled the far area stays: RESOURCE_BUSY. -/
def execKvSpillPolicy (h : CmdHdr) (farBase farPages high low : Nat) (s : State) : Out :=
  runOp h 0x34 [farBase, farPages, high, low] (fun s =>
    let f := h.fn.val
    let pb := kvPageBytes s f
    if !hasPool s f || !decide (low < high ∧ high ≤ 1024) || decide (farBase % pb ≠ 0) || decide (2 ^ 32 ≤ farPages) ||
        !areaFar s f farBase (if farPages = 0 then 0 else ceilDiv (4 * farPages) pb * pb + farPages * pb) then
      fail h 0x34 stBadParam s
    else if 0 < kvHead s f 28 4 then fail h 0x34 stBusy s
    else
      let s := setKvHead f 40 4 farPages (setKvHead f 32 8 farBase s)
      let s := setKvHead f 46 2 low (setKvHead f 44 2 high s)
      fail h 0x34 stOk ((List.range farPages).foldl (fun s i => kvWr f (farBase + 4 * i) 4 (farPages - 1 - i) s) s)) s

end Sys2Proof.Machine
end

