-- ==== Sys2Proof/Machine/Clears.lean ====
section
/-!
DEFINITION. The counter clear registers: each acts on a write of 0x0000_0001 and ignores any other value.
-/
namespace Sys2Proof.Machine

/-- Set every word register from `lo` to `hi` (last included) to 0. -/
def clearWords (lo hi : Nat) (s : State) : State :=
  (List.range ((hi - lo) / 4 + 1)).foldl (fun s i => setReg (lo + 4 * i) 0#32 s) s

/-- What a clear register does on a write: its action on 1, nothing on another value. -/
def onOne (d : Word) (f : State → State) (s : State) : State := if d = 1#32 then f s else s

/-- R110. -/
def execPaceCountClear (d : BitVec 32) (s : State) : Out :=
  .next (onOne d (fun s => setReg 0x434 0x7FFFFFFF#32 (clearWords 0x424 0x438 s)) s)
/-- Table 4.13. -/
def execViCountClear (fn : Fin 65) (d : BitVec 32) (s : State) : Out :=
  .next (onOne d (fun s => setReg (viPage fn + 0x24) 0x7FFFFFFF#32 (clearWords (viPage fn + 0x14) (viPage fn + 0x20) s)) s)
/-- R286. -/
def execMcCountClear (c : Fin 64) (core : Fin 18) (d : BitVec 32) (s : State) : Out :=
  .next (onOne d (clearWords (mcBlk c core + 4) (mcBlk c core + 0xC)) s)
/-- R325. -/
def execVcCountClear (c : Fin 64) (core : Fin 9) (d : BitVec 32) (s : State) : Out :=
  .next (onOne d (clearWords (vcBlk c core + 4) (vcBlk c core + 8)) s)
/-- R325. -/
def execScCountClear (c : Fin 64) (core : Fin 4) (d : BitVec 32) (s : State) : Out :=
  .next (onOne d (clearWords (scBlk c core + 4) (scBlk c core + 8)) s)
/-- R377: CLU_BANK_REQn and CLU_BANK_WAITn, from block offset 0x8_1000. -/
def execCluBankClear (c : Fin 64) (d : BitVec 32) (s : State) : Out :=
  .next (onOne d (clearWords (cluBlk c + 0x81000) (cluBlk c + 0x81104)) s)
/-- R378. -/
def execTwrProtClear (t : Fin 16) (d : BitVec 32) (s : State) : Out :=
  .next (onOne d (fun s =>
    clearWords (twrBlk t + 0x2014) (twrBlk t + 0x2018) (clearWords (twrBlk t + 0x2000) (twrBlk t + 0x2008)
      (setReg (twrBlk t + 8) 0#32 s))) s)
/-- R378. -/
def execTwrConfClear (t : Fin 16) (d : BitVec 32) (s : State) : Out :=
  .next (onOne d (clearWords (twrBlk t + 0x3000) (twrBlk t + 0x3034)) s)
/-- R378: the three directory counts. -/
def execDirCountClear (m : Fin 8) (d : BitVec 32) (s : State) : Out :=
  .next (onOne d (clearWords (mscBlk m + 0x40000) (mscBlk m + 0x40008)) s)
/-- R424. -/
def execMscEccClear (m : Fin 8) (d : BitVec 32) (s : State) : Out :=
  .next (onOne d (clearWords (mscBlk m + 0x2000) (mscBlk m + 0x2014)) s)
/-- R424. -/
def execMscSrcClear (m : Fin 8) (d : BitVec 32) (s : State) : Out :=
  .next (onOne d (clearWords (mscBlk m + 0x10000) (mscBlk m + 0x10224)) s)
/-- R425. -/
def execCxlCountClear (p : Fin 2) (d : BitVec 32) (s : State) : Out :=
  .next (onOne d (clearWords (cxlBlk p + 0xC) (cxlBlk p + 0x14)) s)
/-- R665. -/
def execBltCountClear (d : BitVec 32) (s : State) : Out :=
  .next (onOne d (clearWords (bltBlk + 8) (bltBlk + 0xC)) s)
/-- R743: every trace buffer of the cluster is emptied. -/
def execCluTrcClear (c : Fin 64) (d : BitVec 32) (s : State) : Out :=
  .next (onOne d (fun s => modCluster c (fun x => { x with traces := [] }) (clearWords (cluBlk c + 0x80100) (cluBlk c + 0x80178) s)) s)
/-- R743. -/
def execCluPerfClear (c : Fin 64) (d : BitVec 32) (s : State) : Out :=
  .next (onOne d (fun s => setReg (cluBlk c + 0x80230) 0x7FFFFFFF#32 (clearWords (cluBlk c + 0x80200) (cluBlk c + 0x8022C) s)) s)

/-- R589. -/
def execColCountClear (e : Fin 2) (d : BitVec 32) (s : State) : Out :=
  .next (onOne d (clearWords (colBlk e + 4) (colBlk e + 0x10)) s)
/-- R587. -/
def execFjlCountClear (port : Fin 12) (d : BitVec 32) (s : State) : Out :=
  .next (onOne d (clearWords (fjlBlk port + 0x14) (fjlBlk port + 0x2C)) s)
/-- R588. -/
def execFjsCountClear (d : BitVec 32) (s : State) : Out :=
  .next (onOne d (setReg 0x610 0#32) s)
/-- R631: the counters at 0x0020 to 0x002C. -/
def execPwrCountClear (d : BitVec 32) (s : State) : Out :=
  .next (onOne d (clearWords (pwrBlk + 0x20) (pwrBlk + 0x2C)) s)
/-- R631. -/
def execThmCountClear (d : BitVec 32) (s : State) : Out :=
  .next (onOne d (setReg (pwrBlk + 0x2008) 0#32) s)
/-- R632. -/
def execCluPwrClear (c : Fin 64) (d : BitVec 32) (s : State) : Out :=
  .next (onOne d (clearWords (vfBlk c + 0x10) (vfBlk c + 0x18)) s)
/-- R735. -/
def execPinCountClear (d : BitVec 32) (s : State) : Out :=
  .next (onOne d (setReg 0x804 0#32) s)

end Sys2Proof.Machine
end

