-- ==== Sys2Proof/Machine/Tower.lean ====
section
/-!
DEFINITION. Tower memory (chapter 8): bank accesses with their correction, row repair, the patrol scrubber, bank power, the march
engine, the secure region, and a change of the scratch split.
-/
namespace Sys2Proof.Machine

/-! ### Correction of one granule (R348 to R351) -/

/-- A line of the stack cache meets a granule that does not decode (R351): a clean line is invalidated and asked for again; a dirty line's granule
is a bus error, and the line is written back with it blotted. -/
def lineFails (t b row g line : Nat) (s : State) : State :=
  let m := ((dramOf s (line * 512)).map (fun p => p.stack)).getD 0
  if lineOf s t line = 0 then s
  else if lineOf s t line = 3 then
    let s := takeBack m t line (markBlot (line * 512 + g * 64) s)
    report 0x201 (oTower t (b % 8) b row) fnDevice g s
  else towerMiss m t line false false (setLine t line 0 s)

/-- A granule read of a bank meets `n` bit errors, or does not decode from before: counts, the row event, and a granule that no longer decodes.
The read that a partial write makes of its granule is no bus error (R350): `quiet`. -/
def eccRead (t b row g n : Nat) (line : Option Nat) (quiet : Bool) (s : State) : State :=
  let d := bankAddr t b row g
  if scratchBank s t b && kvGet (fun _ => false) s.uncorr (d / 64) || decide (3 ≤ n) then
    let s := addReg (twrBlk t + 0x2008) 1 s
    let s :=
      if scratchBank s t b then
        let s := markBad d s
        if quiet then s else report 0x201 (oTower t (b % 8) b row) (pieceOwner s d) g s
      else line.elim s (fun l => lineFails t b row g l s)
    rowEvent t b row s
  else if n = 0 then s
  else if n = 1 then addReg (twrBlk t + 0x2000) 1 s
  else rowEvent t b row (addReg (twrBlk t + 0x2004) 1 s)

/-! ### Bank accesses (R341 to R346, R356) -/

/-- Of requests, the one of the port that comes first after the one served last. -/
def pickPort (last : Nat) (l : List BankReq) : Option BankReq :=
  (List.range 11).findSome? (fun i => l.find? (fun r => decide (r.port.val = (last + 1 + i) % 11)))

/-- The counter pair of a request's master (R377, R378). -/
def masterReg (t : Nat) (r : BankReq) : Nat :=
  if r.port.val < 4 then cluBlk (4 * t + r.port) + 0x81000 + 8 * (r.master % 33) else twrBlk t + 0x3000 + 8 * (r.port - 4)

/-- The origin of a bank request that is a bus error: the master of a cluster port, the bank for the others. -/
def bankOrigin (t : Nat) (r : BankReq) : Nat :=
  let c := 4 * t + r.port.val
  if 4 ≤ r.port.val then oTower t (r.bank % 8) r.bank r.row
  else if r.master < 18 then oCore c 0 r.master 0
  else if r.master < 27 then oCore c 1 (r.master - 18) 0
  else if r.master < 31 then oCore c 2 (r.master - 27) 0
  else if r.master = 32 then oEngine 0 c
  else oCluster c

/-- Does an access carry data over its row lane from the bank, and towards it? -/
def opOut : BankOp → Bool
  | .read => true
  | .rowRead => true
  | .atomic code _ _ => decide (code = 2 ∨ code = 4)
  | _ => false
def opIn : BankOp → Bool
  | .write .. => true
  | .rowWrite .. => true
  | .atomic .. => true
  | _ => false

/-- Occupancy of a bank in KCLK cycles (Table 8.2). -/
def opCycles : BankOp → Nat
  | .read => 2
  | .write .. => 2
  | .rowRead => 4
  | .rowWrite .. => 4
  | .atomic .. => 6
  | .repair => 12

/-- The bytes of a granule's write, to the granule's 64. -/
def padOpt (l : List (Option Byte)) : List (Option Byte) := l.take 64 ++ List.replicate (64 - l.length) none

/-- Granules that a request touches. -/
def reqGrans (r : BankReq) : List Nat :=
  match r.op with
  | .rowRead => List.range 8
  | .rowWrite _ => List.range 8
  | .repair => []
  | _ => [r.granule.val]

/-- Does a request leave a granule's bits unread: a write of the whole granule (R348)? -/
def reqBlind (r : BankReq) : Bool :=
  match r.op with
  | .write bytes _ => decide (bytes.length = 64) && bytes.all (fun x => x.isSome)
  | .rowWrite _ => true
  | _ => false

/-- Where the granules of a request are held: its scratch row, or the line of stack memory that the row holds. -/
def reqAddr (s : State) (t : Nat) (r : BankReq) (g : Nat) : Option Nat :=
  if scratchBank s t r.bank then some (bankAddr t r.bank r.row g) else r.line.map (fun l => l * 512 + 64 * g)

/-- What a read of a granule returns (R235). -/
def reqData (s : State) (t : Nat) (r : BankReq) (g : Nat) : List Byte × Bool :=
  match reqAddr s t r g with
  | none => (List.replicate 64 0#8, false)
  | some d => if undecodable s d then (List.replicate 64 0#8, true) else (granBytes s d, blotAt s d)

/-- Is a cluster's bond port not capturing, as its MCLK is stretched (R341)? -/
def portHeld (s : State) (t : Nat) (p : Nat) : Bool := decide (p < 4) && getB s (vfBlk (4 * t + p)) 30

/-- Data returns to a port: a held port's waits in the lane's transmit register. -/
def returnData (t lane p : Nat) (l : BankData) (s : State) : State :=
  if portHeld s t p then modTower t (fun x => { x with transmit := kvPut (fun _ => []) x.transmit (4 * lane + p) (kvGet (fun _ => []) x.transmit (4 * lane + p) ++ [l]) }) s
  else modTower t (fun x => { x with data := kvPut (fun _ => []) x.data p l }) s

/-- A cluster port captures again: what the lanes hold for it is captured in order (R341). -/
def capturePort (c : Nat) (s : State) : State :=
  modTower (c / 4) (fun x =>
    let rows := (List.range 8).flatMap (fun lane => kvGet (fun _ => []) x.transmit (4 * lane + c % 4))
    { x with
      data := (rows.getLast?).elim x.data (fun l => kvPut (fun _ => []) x.data (c % 4) l)
      transmit := x.transmit.filter (fun e => decide (e.1 % 4 ≠ c % 4)) }) s

/-- The effect of a request on the granules it names, and what it returns. -/
def bankEffect (t : Nat) (r : BankReq) (s : State) : BankData × State :=
  let d := bankAddr t r.bank r.row r.granule
  match r.op with
  | .read => ([reqData s t r r.granule], s)
  | .rowRead => ((List.range 8).map (reqData s t r), s)
  | .write bytes blot => ([], if scratchBank s t r.bank then storeGran d (padOpt bytes) blot s else s)
  | .rowWrite gs =>
    ([], if scratchBank s t r.bank then
        (gs.take 8).zip (List.range 8) |>.foldl (fun s x => storeGran (bankAddr t r.bank r.row x.2) ((padTo 64 x.1.1).map some) x.1.2 s) s
      else s)
  | .atomic code words blot =>
    if !scratchBank s t r.bank then ([], s)
    else
      let scr : Acc := { fn := fnHub, trusted := true, secure := true, org := bankOrigin t r }
      let o := atomicGran scr d code words blot (.start s)
      (if code = 2 ∨ code = 4 then [(tBytes o.prior, tBlot o.prior)] else [], o.w.s)
  | .repair => ([], s)

/-- A read that is a bus error returns blotted zeros for each granule (R235). -/
def lostData (r : BankReq) : BankData := if opOut r.op then (reqGrans r).map (fun _ => (List.replicate 64 0#8, true)) else []

/-- The bank serves a request: it is occupied, its port is the one served last, and the access has its effect or is a bus error. -/
def bankServe (t cycle : Nat) (r : BankReq) (s : State) : State :=
  let b := r.bank.val
  let lane := b % 8
  let s := modTower t (fun x => { x with
    lastPort := kvPut (fun _ => 10) x.lastPort b r.port
    busy := kvPut (fun _ => 0) x.busy b (cycle + opCycles r.op)
    lastLane :=
      let l := if opOut r.op then kvPut (fun _ => 10) x.lastLane (2 * lane) r.port else x.lastLane
      if opIn r.op then kvPut (fun _ => 10) l (2 * lane + 1) r.port else l }) s
  let s := addReg (masterReg t r) 1 s
  let err := report 0x20A (bankOrigin t r) r.fn (bankAddr t b r.row r.granule)
  let ret := fun (l : BankData) (s : State) => if l.isEmpty then s else returnData t lane r.port l s
  if !bankOn s t b then ret (lostData r) (err (addReg (twrBlk t + 8) 1 s))
  else if scratchBank s t b && secureRow s t b r.row && !r.secure then ret (lostData r) (err s)
  else if r.op = .repair then replaceRow t b r.row s
  else
    let quiet := match r.op with
      | .write .. => true
      | _ => false
    let s := if reqBlind r then s
      else (reqGrans r).foldl (fun s g => eccRead t b r.row g (if g = r.granule.val then r.errs else 0) r.line quiet s) s
    let o := bankEffect t r s
    ret o.1 (bumpFree o.2)

/-- The requests that one row lane's banks serve in a cycle (R343): of each free bank the port in its turn, and of those that carry data in one
direction the port in the lane's turn. A full transmit register takes no more data for its port. -/
def laneServes (s : State) (t lane cycle : Nat) (l : List BankReq) : List BankReq :=
  let x := getTower s t
  let may := l.filter (fun r =>
    decide (r.bank.val % 8 = lane ∧ kvGet (fun _ => 0) x.busy r.bank ≤ cycle) &&
      !(opOut r.op && portHeld s t r.port && decide (2 ≤ (kvGet (fun _ => []) x.transmit (4 * lane + r.port)).length)))
  let wins := ((may.map (fun r => r.bank.val)).dedup).filterMap (fun b =>
    pickPort (kvGet (fun _ => 10) x.lastPort b) (may.filter (fun r => r.bank.val = b)))
  let out := pickPort (kvGet (fun _ => 10) x.lastLane (2 * lane)) (wins.filter (fun r => opOut r.op))
  let inn := pickPort (kvGet (fun _ => 10) x.lastLane (2 * lane + 1)) (wins.filter (fun r => opIn r.op))
  wins.filter (fun r => (!(opOut r.op) || out = some r) && (!(opIn r.op) || inn = some r))

/-- BANK_ACCESS: requests presented to the banks of one row lane in one KCLK cycle. Those not served wait (R376). -/
def execBankAccess (t : Fin 16) (lane : Fin 8) (cycle : Nat) (reqs : List BankReq) (s : State) : Out :=
  let l := reqs.filter (fun r => r.bank.val % 8 = lane.val)
  let now := laneServes s t lane cycle l
  let s := (l.filter (fun r => !now.contains r)).foldl (fun s r => addReg (masterReg t r + 4) 1 s) s
  .next (now.foldl (fun s r => bankServe t cycle r s) s)

/-- The patrol scrubber reads one row of every ON bank (R352), each a request of its master; `errs` are the bit errors that it meets, by bank,
granule and number, with the line that a row of the stack cache holds. A granule that did not decode before is met again. -/
def execSramPatrolRow (t : Fin 16) (errs : List (Nat × Nat × Nat × Option Nat)) (s : State) : Out :=
  let row := (getTower s t).patrolRow
  let off := ((getTower s t).power.filter (fun e => decide (e.2 ≠ 0 ∧ e.1 < 1536))).length
  let s := addReg (twrBlk t + 0x3028) (1536 - off) s
  let old := s.uncorr.filterMap (fun e =>
    match place (e.1 * 64) with
    | .scratch u o => if e.2 && decide (u = t.val ∧ bankRow o = row) then some (bankOf o, o / 64 % 8) else none
    | _ => none)
  let s := old.foldl (fun s x => if bankOn s t x.1 then eccRead t x.1 row x.2 3 none false s else s) s
  let s := errs.foldl (fun s (b, g, n, line) =>
    if b < 1536 ∧ g < 8 ∧ bankOn s t b = true ∧ ¬ old.contains (b, g) then eccRead t b row g n line false s else s) s
  .next (modTower t (fun x => { x with patrolRow := (row + 1) % 1024 }) s)

/-! ### Bank power (R345, Table 8.4) -/

/-- Zero a bank's rows: lost contents, or contents after OFF to ON. -/
def clearBank (t b : Nat) (s : State) : State :=
  (List.range 1024).foldl (fun s row => zeroRange (bankAddr t b row 0) 512 s) s

/-- A bank takes a state of TWR_BANK_PWR: 0 ON, 1 RETENTION, 2 OFF. A bank on its way to ON is ON once it has woken. -/
def bankPower (t b v : Nat) (s : State) : State :=
  let old := kvGet (fun _ => 0) (getTower s t).power b
  let wake := fun (w : Nat) => modTower t (fun x => { x with target := kvPut (fun _ => 0) x.target b w })
  if v = 0 then (if old = 0 then s else wake 1 s)
  else
    let s := wake 0 s
    let s := if v = 2 ∧ old ≠ 2 then (if scratchBank s t b then clearBank t b s else s) else s
    modTower t (fun x => { x with power := kvPut (fun _ => 0) x.power b v }) s

/-- A bank has woken (Table 8.4). -/
def execBankWakeDone (t : Fin 16) (bank : Fin 1536) (s : State) : Out :=
  .next (if kvGet (fun _ => 0) (getTower s t).target bank = 1 then
      modTower t (fun x => { x with target := kvPut (fun _ => 0) x.target bank 0, power := kvPut (fun _ => 0) x.power bank 0 }) s
    else s)

/-- Apply a staged TWR_BANK_PWRn (R345): its 16 banks take their states. A bank that is stack cache by now keeps its own (R347). -/
def applyBankPwr (t n : Nat) (v : Word) (s : State) : State :=
  let s := setReg (twrBlk t + 0x1000 + 4 * n) v s
  (List.range 16).foldl (fun s j => if scratchBank s t (16 * n + j) then bankPower t (16 * n + j) (fld v (2 * j) 2) s else s) s

/-! ### The scratch split (R335, R336) -/

/-- A directory entry without a tower. -/
def dirWithout (t : Nat) (e : Nat × DirEntry) : Option (Nat × DirEntry) :=
  match e.2 with
  | .owned o => if o = t then none else some e
  | .shared l =>
    if !l.contains t then some e
    else if l = [t] then none else some (e.1, .shared (l.filter (fun y => y ≠ t)))

/-- Is a request a tower's? -/
def HomeWant.ofTower (t : Nat) : HomeWant → Bool
  | .tower u _ _ => decide (u = t)
  | _ => false

/-- A home's directory forgets a tower, with its requests and the grants on their way to it. -/
def forgetTower (t : Nat) (x : Stack) : Stack :=
  let dir := x.dir.filterMap (dirWithout t)
  { x with dir := dir, dirOrder := x.dirOrder.filter (fun l => (kvFind dir l).isSome), grants := x.grants.filter (fun g => g.tower ≠ t)
           queue := x.queue.filter (fun e => !e.2.ofTower t) }

/-- Strokes and transfers of a tower's clusters wait for no line any more: what they asked for is served from the home. -/
def forgiveLines (t : Nat) (s : State) : State :=
  let mine := fun (k : Nat) => decide (noCluster k / 4 = t)
  { s with
    runners := s.runners.map (fun e => if mine e.1 then (e.1, { e.2 with flight := e.2.flight.map (fun f => { f with owed := [] }) }) else e)
    xfers := s.xfers.map (fun x => if mine x.runner then { x with owed := [] } else x) }

/-- Write back and invalidate a tower's stack cache: its lines are Invalid and the home's entries forget the tower. -/
def flushCache (t : Nat) (s : State) : State :=
  let s := (List.range 8).foldl (fun s k => modStack k (forgetTower t) s) s
  forgiveLines t (modTower t (fun x => { x with lines := [] }) s)

/-- Zero the top 8 MiB of scratch at a split of n pieces. -/
def zeroSecure (t n : Nat) (s : State) : State := zeroRange (scratchBase t + 2 ^ 26 * n - 0x800000) 0x800000 s

/-- Banks that become stack cache are brought ON (R347). -/
def wakeCache (t lo hi : Nat) (s : State) : State :=
  ((getTower s t).power.filter (fun e => decide (128 * lo ≤ e.1 ∧ e.1 < 128 * hi))).foldl (fun s e => bankPower t e.1 0 s) s

/-- A new split takes effect: the stack cache is written back, and changed pieces and both secure regions become zeros. -/
def applySplit (t n : Nat) (s : State) : State :=
  let old := piecesOf s t
  let s := setB (twrBlk t) 27 false (setReg (twrBlk t + 4) (BitVec.ofNat 32 n) s)
  if old = n then s
  else
    let s := flushCache t s
    let s := zeroSecure t n (zeroSecure t old s)
    let s := zeroRange (scratchBase t + 2 ^ 26 * min old n) (2 ^ 26 * (max old n - min old n)) s
    wakeCache t n old (setF (twrBlk t) 16 4 n (modTower t (fun x => { x with pieces := n }) s))

/-- Does a running job of the AF use a tower? -/
def afJobUses (s : State) (t : Nat) : Bool :=
  s.jobs.any (fun j => decide (j.fn = 0) && ((schedOf s j).map (fun x => x.map.any (fun c => c / 4 = t))).getD false)

/-- May a new split be applied (R335): no piece that changes role is a VI's, and no running job of the AF uses the tower? -/
def splitAllowed (s : State) (t n : Nat) : Bool :=
  let old := piecesOf s t
  !afJobUses s t && !(List.range 12).any (fun p => decide (min old n ≤ p ∧ p < max old n) && pieceTaken s 4 (12 * t + p))

/-! ### The march engine (8.8) and the secure wipe (R375) -/

/-- Is a tower out of service under UNIT_OUT, or in bring-up (R372)? -/
def marchFree (s : State) (t : Nat) : Bool := towerOut s t || s.hub.stage.isSome

/-- A march starts: mode, first bank and number of banks. -/
def startMarch (t mode first n : Nat) (reply : Option CmdHdr) (s : State) : State :=
  let s := modTower t (fun x => { x with march := some { mode := mode, first := first, banks := n, reply := reply } }) s
  let s := setB (twrBlk t) 29 true (setB (twrBlk t + 0x20008) 31 true (setF (twrBlk t + 0x20008) 0 11 0 s))
  setReg (twrBlk t + 0x20000) (BitVec.ofNat 32 (2 ^ 31 + mode)) s

/-- TWR_MARCH_CTRL is written with START (Table 8.16, R372): locked to all but hub firmware once LOCK is set (R69). -/
def execMarchStart (q : Requester) (t : Fin 16) (d : BitVec 32) (s : State) : Out :=
  let b := twrBlk t
  let mode := fld d 0 2
  .next (if fld d 31 1 ≠ 1 then s
    else if locked s b && lockBinds q then setB (b + 0xFFC) 1 true s
    else if mode = 3 ∨ (getTower s t).march.isSome ∨ (mode ≠ 2 ∧ !marchFree s t) then setF (b + 0x20000) 0 2 mode s
    else startMarch t mode (getF s (b + 0x20004) 16 11) (getF s (b + 0x20004) 0 12) none s)

/-- MARCH_RUN (R372): hub firmware writes the range and starts the march; the reply comes at its end. -/
def execMarchRun (h : CmdHdr) (first banks tower mode : Nat) (s : State) : Out :=
  runOp h 0x82 [first, banks, tower, mode] (fun s =>
    if 16 ≤ tower ∨ 2 < mode ∨ banks = 0 ∨ 1536 < first + banks then fail h 0x82 stBadParam s
    else if (getTower s tower).march.isSome ∨ (mode ≠ 2 ∧ !marchFree s tower) then fail h 0x82 stBusy s
    else
      let s := setReg (twrBlk tower + 0x20004) (BitVec.ofNat 32 (65536 * first + banks)) s
      startMarch tower mode first banks (some h) s) s

/-- Rows that a march covers: of the range, or of the secure region. -/
def marchCovers (s : State) (t : Nat) (m : March) (b row : Nat) : Bool :=
  if m.mode = 2 then secureRow s t b row else decide (m.first ≤ b ∧ b < m.first + m.banks ∧ b < 1536 ∧ row < 1040)

/-- What a march leaves in memory (Table 8.9): zeros in modes 0 and 2, restored contents in mode 1. -/
def marchLeaves (t : Nat) (m : March) (s : State) : State :=
  if m.mode = 2 then zeroSecure t (piecesOf s t) s
  else if m.mode = 0 then
    (List.range m.banks).foldl (fun s i => if scratchBank s t (m.first + i) then clearBank t (m.first + i) s else s) s
  else
    -- mode 1: a granule that does not decode is restored as blotted zeros (R373)
    (s.uncorr.filter (fun e =>
      match place (e.1 * 64) with
      | .scratch u o => decide (u = t) && marchCovers s t m (bankOf o) (bankRow o)
      | _ => false)).foldl (fun s e => storeGran (e.1 * 64) (List.replicate 64 (some 0#8)) true s) s

/-- Row operations of a march: 14 or 16 for each row of its banks, spares included, and 2 for each row of the secure region (Table 8.9). -/
def marchOps (m : March) : Nat := if m.mode = 2 then 32768 else m.banks * 1040 * (if m.mode = 0 then 14 else 16)

/-- The failing rows of a march are replaced, spare rows first; is there one that no spare could replace (R374, R355)? -/
def replaceRows (t : Nat) (bad : List (Nat × Nat)) (s : State) : Bool × State :=
  (bad.filter (fun x => decide (1024 ≤ x.2)) ++ bad.filter (fun x => decide (x.2 < 1024))).foldl (fun (x : Bool × State) r =>
    let row := if r.2 < 1024 then some r.2 else rowOnSpare x.2 t r.1 (r.2 - 1024)
    let u := replaceRow t r.1 r.2 x.2
    (x.1 || (row.isSome && (lowestRow x.2 t r.1).isNone), u)) (false, s)

/-- A march ends; `failing` names the rows that failed, by bank and row (R374). -/
def execMarchDone (t : Fin 16) (failing : List (Nat × Nat)) (s : State) : Out :=
  .next (match (getTower s t).march with
    | none => s
    | some m =>
      let bad := failing.filter (fun x => marchCovers s t m x.1 x.2)
      let r := replaceRows t bad (marchLeaves t m (addReg (twrBlk t + 0x3020) (marchOps m) s))
      let s := modTower t (fun x => { x with march := none }) r.2
      let n := (bad.map (fun x => x.1)).dedup.length
      let st := twrBlk t + 0x20008
      let s := setReg st (BitVec.ofNat 32 (2 ^ 30 + 2 ^ 29 * b2n r.1 + 2 ^ 16 * n + m.banks % 2 ^ 11)) s
      let s := setB (twrBlk t) 28 false (setB (twrBlk t) 29 false (setB (twrBlk t + 0x20000) 31 false s))
      let s := setReg (twrBlk t + 0x2000C)
        (match bad.head? with
         | none => 0#32
         | some x => BitVec.ofNat 32 (2 ^ 31 + 2 ^ 16 * x.1 + x.2)) s
      match m.reply with
      | none => s
      | some h => finish h 0x82 stOk 0 0 n s)

/-- A tower's secure region is wiped by mode 2 (R375): its banks are brought ON, and it reads zeros from now on. It counts as done where the cache
die's domain is off. A march that runs already does the wipe at its end. -/
def wipeTower (t : Nat) (s : State) : State :=
  if !domainOn s (64 + t) then s
  else
    let n := piecesOf s t
    let s := ((getTower s t).power.filter (fun e => decide (e.1 / 128 + 1 = n ∧ e.2 = 1))).foldl (fun s e =>
      modTower t (fun x => { x with power := kvPut (fun _ => 0) x.power e.1 0, target := kvPut (fun _ => 0) x.target e.1 0 }) s) s
    let s := setB (twrBlk t) 28 true (zeroSecure t n s)
    if (getTower s t).march.isSome then s else startMarch t 2 (128 * (n - 1)) 128 none s

/-- The secure regions of all towers are wiped (R375). -/
def secureWipe (s : State) : State := (List.range 16).foldl (fun s t => wipeTower t s) s

end Sys2Proof.Machine
end

