-- ==== Sys2Proof/Machine/Coherence.lean ====
section
/-!
DEFINITION. Coherence of stack memory (8.7): the messages between the homes and the towers' stack caches.
-/
namespace Sys2Proof.Machine

/-- GETS (Table 8.7): a tower read miss, with what else reaches the home in its cycle (R365). -/
def execGets (m : Fin 8) (tower : Fin 16) (line : Nat) (along : List HomeArrival) (s : State) : Out := .next (homeCycle m (.gets tower line :: along) s)

/-- GETX (Table 8.7): a tower write miss, or a write to a Shared line; of a whole line it asks for no data (R361). -/
def execGetx (m : Fin 8) (tower : Fin 16) (line : Nat) (whole : Bool) (along : List HomeArrival) (s : State) : Out :=
  .next (homeCycle m (.getx tower line whole :: along) s)

/-- WB (Table 8.7, R368). -/
def execWriteBack (m : Fin 8) (tower : Fin 16) (line : Nat) (along : List HomeArrival) (s : State) : Out :=
  .next (homeCycle m (.writeBack tower line :: along) s)

/-- WB_ACK: the tower frees the line that it wrote back. -/
def execWbAck (m : Fin 8) (tower : Fin 16) (line : Nat) (s : State) : Out :=
  .next (if !writingBack s m tower line then s
    else setLine tower line 0 (modStack m (fun x => { x with writebacks := x.writebacks.filter (fun e => e ≠ (line, tower.val)) }) s))

/-- RECALL_NACK: the home discards it (R368). -/
def execRecallNack (m : Fin 8) (tower : Fin 16) (line : Nat) (s : State) : Out :=
  .next (if !(getStack s m).nacks.contains (line, tower.val) then s
    else addReg (dirReg m 2) 1 (modStack m (fun x => { x with nacks := x.nacks.erase (line, tower.val) }) s))

/-- RECALL_S: the tower returns the line, dirty or not, and keeps it Shared; where it gave an Exclusive line up silently, its bit stays in the
entry as a stale one (Table 8.7). -/
def execRecallS (m : Fin 8) (tower : Fin 16) (line : Nat) (s : State) : Out :=
  .next (if !asked s m tower line 0 || writingBack s m tower line then s
    else answer m tower line 0 true (if lineOf s tower line = 0 then s else setLine tower line 1 s))

/-- RECALL_INV: the tower returns the line and invalidates its copy. -/
def execRecallInv (m : Fin 8) (tower : Fin 16) (line : Nat) (s : State) : Out :=
  .next (if !asked s m tower line 1 || writingBack s m tower line then s
    else answer m tower line 1 false (setLine tower line 0 s))

/-- INV: the tower invalidates a Shared line and acknowledges; one that it no longer holds it acknowledges at once. -/
def execInvLine (m : Fin 8) (tower : Fin 16) (line : Nat) (s : State) : Out :=
  .next (if !asked s m tower line 2 then s else answer m tower line 2 false (setLine tower line 0 s))

/-! ### The stack cache takes a line (R360, R361, R364) -/

/-- Lines of the set of a stack cache that would hold a line, without it; which set is the device's own (log 39). -/
def setMates (s : State) (t line : Nat) : List Nat :=
  let x := getTower s t
  if x.lines.length < 16 then []
  else
    let set := fun (l : Nat) => Config.cacheSet x.pieces l % (8192 * (12 - x.pieces))
    (x.lines.map (fun e => e.1)).filter (fun l => decide (l ≠ line) && set l = set line)

/-- Room for a line: a set of 16 ways that is full gives up a clean line silently, as its replacement picks it (R360); none while it holds only
Modified ones, of which one has to be written back first. -/
def freeWay (t line : Nat) (s : State) : Option State :=
  let mates := setMates s t line
  if mates.length < 16 then some s
  else
    let clean := mates.filter (fun l => lineOf s t l ≠ 3)
    match clean[(Config.freeValue s.frees).toNat % max 1 clean.length]? with
    | none => none
    | some v => some (bumpFree (setLine t v 0 s))

/-- A line that a tower now holds is no longer owed to the strokes and transfers of its clusters; is it owed to one that writes it? -/
def lineWaited (t line : Nat) (s : State) : Bool :=
  let hit := fun (k : Nat) (l : List (Nat × Bool)) => decide (noCluster k / 4 = t) && l.contains (line, true)
  s.runners.any (fun e => e.2.flight.any (fun f => hit e.1 f.owed)) || s.xfers.any (fun x => hit x.runner x.owed)
def lineComes (t line : Nat) (owned : Bool) (s : State) : State :=
  let pay := fun (l : List (Nat × Bool)) => l.filter (fun e => !(decide (e.1 = line) && (owned || !e.2)))
  let mine := fun (k : Nat) => decide (noCluster k / 4 = t)
  { s with
    runners := s.runners.map (fun e => if mine e.1 then (e.1, { e.2 with flight := e.2.flight.map (fun f => { f with owed := pay f.owed }) }) else e)
    xfers := s.xfers.map (fun x => if mine x.runner then { x with owed := pay x.owed } else x) }

/-- A grant reaches a tower: the line takes its state, Modified once the tower's write is applied, and the accesses that asked for it are done
(R364, R367). It waits while its set has no way for it. -/
def execLineGrantArrive (m : Fin 8) (tower : Fin 16) (line : Nat) (s : State) : Out :=
  .next (match (getStack s m).grants.find? (fun g => decide (g.line = line ∧ g.tower = tower.val)) with
    | none => s
    | some g =>
      match freeWay tower line s with
      | none => s
      | some s =>
        let st := if g.state = 2 && lineWaited tower line s then 3 else g.state
        let s := modStack m (fun x => { x with grants := x.grants.filter (fun h => h ≠ g) }) s
        lineComes tower line (decide (2 ≤ st)) (setLine tower line st s))

/-- A read from a requester outside the towers (Table 8.7). -/
def execHomeExternalRead (m : Fin 8) (fn : Fin 65) (addr : Nat) (along : List HomeArrival) (s : State) : Out :=
  .next (homeCycle m (.read fn addr :: along) s)

/-- A write from a requester outside the towers (Table 8.7): committed once every sharer has acknowledged or the owner has
returned the line. -/
def execHomeExternalWrite (m : Fin 8) (fn : Fin 65) (addr : Nat) (data : List (BitVec 8)) (blot : Bool) (along : List HomeArrival) (s : State) : Out :=
  .next (homeCycle m (.write fn addr data blot :: along) s)

end Sys2Proof.Machine
end

