-- ==== Sys2Proof/Machine/PageCode.lean ====
section
/-!
DEFINITION. The page code (9.2): strengths, thresholds, the spare area, the codeword of R388, its decoder and its self-test.
-/
namespace Sys2Proof.Machine

/-! ### Strengths (Table 9.2) -/

/-- t of a strength code: symbols corrected. -/
def codeT (str : Nat) : Nat := match str with
  | 0 => 8
  | 1 => 16
  | 2 => 24
  | _ => 40
/-- Data bytes of a page at a strength. -/
def codeData (str : Nat) : Nat := if str = 3 then 1984 else 2048
/-- Symbols of the message: the data and bytes 0 to 15 of the spare area. -/
def msgSymbols (str : Nat) : Nat := ceilDiv (8 * (codeData str + 16)) 12
/-- The code of a strength, over GF(2^12) on x^12 + x^6 + x^4 + x + 1 (R388). -/
def pageCode (str : Nat) : RsCode := { bits := 12, red := 0x053, n := msgSymbols str + 2 * codeT str, t := codeT str, first := 1 }

/-- The 12-bit symbols of a message of bytes, bit 12s least significant; missing bits are 0. -/
def symbols (msg : List Byte) : List Nat :=
  let n := leNat msg
  (List.range (ceilDiv (8 * msg.length) 12)).map (fun i => n >>> (12 * i) % 4096)
/-- The PARITY field's bytes: par[j] at bits 12j to 12j + 11. -/
def parityBytes (str : Nat) (msg : List Byte) : List Byte :=
  leBytes (3 * codeT str) (((pageCode str).parity (symbols msg)).foldr (fun p acc => p + 4096 * acc) 0)

/-! ### The page as stored (Table 9.3) -/

/-- GEN_TAG: strength code, GEN modulo 16, logical page index. -/
def genTag (str gen lpi : Nat) : Nat := 2 ^ 30 * str + gen % 16 * 2 ^ 26 + lpi % 2 ^ 26
/-- Bytes 0 to 15 of the spare area. -/
def spareHead (str gen lpi blots : Nat) : List Byte :=
  leBytes 4 (if str = 3 then blots % 2 ^ 31 else blots) ++ leBytes 4 (genTag str gen lpi) ++ leBytes 8 0
/-- The 128-byte spare area of a page, and the data bytes 0x7C0 to 0x7FF that Extended parity takes. -/
def spareArea (str gen lpi blots : Nat) (data : List Byte) : List Byte × List Byte :=
  let head := spareHead str gen lpi blots
  let par := parityBytes str (data.take (codeData str) ++ head)
  (padTo 128 (head ++ par.take 112), if str = 3 then padTo 64 (par.drop 112) else (data.drop 1984).take 64)

/-- The spare area that a logical page is stored with: its blot bits, tag and parity follow from its region and contents (log 23). -/
def pageSpare (s : State) (m lpi : Nat) : List Byte × List Byte :=
  let d := pageAddr s m lpi
  let r := getRegion s (strengthRegion d)
  let gs := List.range 32
  let blots := (gs.map (fun i => b2n (kvGet (fun _ => false) s.blots (d / 64 + i)) * 2 ^ i)).sum
  spareArea r.strength r.gen lpi blots (gs.flatMap (fun i => granBytes s (d + 64 * i)))

/-- The threshold of R396 for a strength (MSC_EVENT_CTRL). -/
def eventThreshold (s : State) (m str : Nat) : Nat := getF s (mscBlk m + 8) (8 * str) 6

/-! ### What a decode leaves wrong (R389, R390) -/

/-- The bits of a message that wrong symbols change: by byte of the message, the value XORed. -/
def changedBytes (str : Nat) (left : List (Nat × Nat)) : List (Nat × Nat) :=
  (left.filter (fun e => decide (e.1 < msgSymbols str))).foldl (fun m e =>
    let v := e.2 <<< (12 * e.1 % 8)
    let i := 12 * e.1 / 8
    let put := fun (m : List (Nat × Nat)) (j v : Nat) => kvPut (fun _ => 0) m j (kvGet (fun _ => 0) m j ^^^ v)
    put (put m i (v % 256)) (i + 1) (v / 256)) []

/-! ### The self-test of the page code (R395) -/

/-- What a case of Table 9.4 injects: 0 A, 1 B, 2 C. -/
def selfTestErrors (str c : Nat) : List (Nat × Nat) :=
  if c = 0 then [] else if c = 1 then (List.range (codeT str)).map (fun j => (7 * j, 0xFFF))
  else (List.range (codeT str + 1)).map (fun j => (7 * j, 1))
/-- Its required result: the symbols corrected with the data unchanged, or none for a page reported uncorrectable. -/
def selfTestResult (str c : Nat) : Option Nat := if c = 0 then some 0 else if c = 1 then some (codeT str) else none
/-- Does what a channel's decoder gave at a strength fail the case? -/
def selfTestFails (str c : Nat) (found : Option Nat) : Bool := decide (found ≠ selfTestResult str c)

end Sys2Proof.Machine
end

