-- ==== Sys2Proof/Machine/Stack.lean ====
section
/-!
DEFINITION. The memory stacks (chapter 9): channel arbitration, page accesses with their decode, page events, remaps and
retirement, the patrol scrub, refresh, and the conversion of regions.
-/
namespace Sys2Proof.Machine

/-! ### Places -/

/-- The logical page index of an addressable page (R386). -/
def lpiOf (ch bank page : Nat) : Nat := 65536 * (ch * 16 + bank) + page
/-- The bank within the stack, and the strength in effect, of a logical page. -/
def lpiBank (lpi : Nat) : Nat := lpi / 65536
def lpiStrength (s : State) (m lpi : Nat) : Nat := (getRegion s (strengthRegion (pageAddr s m lpi))).strength

/-- The remap entry of a logical page (MSC_REMAPe). -/
def remapLo (m e : Nat) : Nat := mscBlk m + 0x3000 + 8 * e
def remapValid (s : State) (m e : Nat) : Bool := getB s (remapLo m e + 4) 31
def remapLpi (s : State) (m e : Nat) : Nat := getF s (remapLo m e) 0 25
def remapSpare (s : State) (m e : Nat) : Nat := getF s (remapLo m e + 4) 0 6
def remapOf (s : State) (m lpi : Nat) : Option Nat :=
  (List.range 32).find? (fun e => remapValid s m e && decide (remapLpi s m e = lpi))
/-- The entry that uses a spare page of a bank. -/
def spareUser (s : State) (m bank k : Nat) : Option Nat :=
  (List.range 32).find? (fun e => remapValid s m e && decide (lpiBank (remapLpi s m e) = bank ∧ remapSpare s m e = k))
def spareBad (s : State) (m bank k : Nat) : Bool := kvGet (fun _ => false) (getStack s m).badSpares (bank * 64 + k)
def sparePageUsable (s : State) (m bank k : Nat) : Bool := (spareUser s m bank k).isNone && !spareBad s m bank k
def lowestSparePage (s : State) (m bank : Nat) : Option Nat := (List.range 64).find? (sparePageUsable s m bank)

/-- Is a logical page retired? -/
def lpiRetired (s : State) (m lpi : Nat) : Bool :=
  s.hub.retired.any (fun r => decide (r.stack = m ∧ lpiOf r.channel r.bank r.page = lpi))

/-- MSC_REMAP_STATUS and SPARE_MIN: only banks with a spare used or unusable have fewer than 64 usable ones. -/
def showRemaps (m : Nat) (s : State) : State :=
  let used := (List.range 32).filter (remapValid s m)
  let banks := used.map (fun e => lpiBank (remapLpi s m e)) ++ (getStack s m).badSpares.map (fun e => e.1 / 64)
  let least := banks.foldl (fun n b => min n ((List.range 64).filter (sparePageUsable s m b)).length) 64
  let n := (s.hub.retired.filter (fun r => r.stack = m)).length
  setF (mscBlk m) 8 8 least (setReg (mscBlk m + 0x3100) (BitVec.ofNat 32 (65536 * n + used.length)) s)

/-! ### Retirement and remapping (R399 to R403, R407) -/

/-- Every granule of a page zero and blotted. -/
def blotPage (d : Nat) (s : State) : State :=
  let g := d / 2048 * 2048
  { s with mem := kvClear s.mem g (g + 2048)
           blots := (List.range 32).foldl (fun b i => kvPut (fun _ => false) b (g / 64 + i) true) s.blots }

/-- A page decodes again. -/
def clearBad (m lpi : Nat) (s : State) : State := modStack m (fun x => { x with bad := kvPut (fun _ => false) x.bad lpi false }) s
def setBad (m lpi : Nat) (s : State) : State := modStack m (fun x => { x with bad := kvPut (fun _ => false) x.bad lpi true }) s
def isBad (s : State) (m lpi : Nat) : Bool := kvGet (fun _ => false) (getStack s m).bad lpi

/-- The location of a logical page. -/
def lpiLoc (m lpi : Nat) : DramLoc :=
  { stack := m, channel := lpi / 65536 / 16, bank := lpi / 65536 % 16, page := lpi % 65536, byte := 0 }

/-- The function that owns a page, for its records. -/
def pageFn (s : State) (m lpi : Nat) : Nat := pieceOwner s (pageAddr s m lpi)

/-- Retire a page (R402): the list, its record, pool pages on it withdrawn (R471), and out of service at 4,096 in a stack. -/
def retirePage (m lpi cause : Nat) (s : State) : State :=
  let l := lpiLoc m lpi
  let r : Retired := { stack := m, channel := l.channel, bank := l.bank, cause := cause, page := l.page, utc := utcNow s,
                       pace := paceNumber s }
  let s := modHub (fun h => { h with retired := h.retired ++ [r] }) s
  let s := report 0x206 (oStack m 0 lpi) (pageFn s m lpi) cause s
  let s := showRemaps m (bufferDrop m l.channel lpi s)
  let s := if 4096 ≤ (s.hub.retired.filter (fun x => x.stack = m)).length then declareOut 4 s else s
  withdrawAll (fun x => decide (x.stack = m ∧ x.channel = l.channel ∧ x.bank = l.bank ∧ x.page = l.page)) s

/-- Forget a page's event history. -/
def dropHistory (m page : Nat) (s : State) : State :=
  modStack m (fun x => { x with events := x.events.filter (fun e => e.page ≠ page) }) s

/-- The copy of R400: a page that does not decode becomes blotted zeros. -/
def copyToSpare (m lpi : Nat) (s : State) : State :=
  if isBad s m lpi then clearBad m lpi (blotPage (pageAddr s m lpi) s) else s

/-- Remap a page to a spare page of its bank, or retire it (R399 to R402). -/
def remapPage (m lpi : Nat) (s : State) : State :=
  let bank := lpiBank lpi
  let go := fun (e k : Nat) (s : State) =>
    let s := copyToSpare m lpi s
    let s := setReg (remapLo m e) (BitVec.ofNat 32 lpi) (setReg (remapLo m e + 4) (BitVec.ofNat 32 (2 ^ 31 + k)) s)
    showRemaps m (dropHistory m lpi (report 0x205 (oStack m 0 lpi) (pageFn s m lpi) e s))
  match remapOf s m lpi with
  | some e =>
    let s := modStack m (fun x => { x with badSpares := kvPut (fun _ => false) x.badSpares (bank * 64 + remapSpare s m e) true }) s
    match lowestSparePage s m bank with
    | none => retirePage m lpi 2 s
    | some k => go e k s
  | none =>
    match (List.range 32).find? (fun e => !remapValid s m e) with
    | none => retirePage m lpi 1 s
    | some e =>
      match lowestSparePage s m bank with
      | none => retirePage m lpi 2 s
      | some k => go e k s

/-! ### Page events (R396 to R399, R407) -/

/-- The key of a page in the event history: its logical index, or for an unused spare page a key of its own. -/
def spareKey (bank k : Nat) : Nat := 2 ^ 25 + bank * 64 + k

/-- Note an event in the stack's history (R397, R398): whether it counts, and whether it is the second within 30 days. -/
def notePage (m page : Nat) (s : State) : Bool × Bool × State :=
  let t := utcNow s
  let h := (getStack s m).events.filter (fun e => decide (t ≤ e.utc + thirtyDays))
  let mine := h.find? (fun e => e.page = page)
  if mine.any (fun e => decide (t < e.utc + 1000000000)) then (false, false, s)
  else
    let h : List PageEvent := h.filter (fun e => e.page ≠ page) ++ [⟨page, t⟩]
    let s := if 8192 < h.length then addReg (mscBlk m + 0x2014) 1 s else s
    (true, mine.isSome, modStack m (fun x => { x with events := h.drop (h.length - 8192) }) s)

/-- A page at its second event within 30 days: it is remapped (R399, R401), or, when it is an unused spare page, unusable from now on (R407). -/
def pageSecond (m page : Nat) (s : State) : State :=
  if page < 2 ^ 25 then remapPage m page s
  else
    let s := modStack m (fun x => { x with badSpares := kvPut (fun _ => false) x.badSpares (page - 2 ^ 25) true }) s
    showRemaps m (dropHistory m page s)

/-- A page event of kind 0 threshold, 1 uncorrectable, 2 tag: its counts, and what the second within 30 days brings. -/
def pageEvent (m page kind : Nat) (s : State) : State :=
  let r := notePage m page s
  if !r.1 then s
  else
    let s := addReg (mscBlk m + 0x2004) 1 r.2.2
    let s := setReg (mscBlk m + 0x200C) (BitVec.ofNat 32 (2 ^ 31 + 2 ^ 29 * kind + page % 2 ^ 25)) s
    if !r.2.1 then s
    else byFirmware (.page m page) (pageSecond m page) s

/-! ### Decodes (R389, R390) -/

/-- The GEN_TAG that a decode reads: the one stored, with what is still wrong in it. -/
def tagRead (str gen lpi : Nat) (changed : List (Nat × Nat)) : Nat :=
  genTag str gen lpi ^^^ leNat ((List.range 4).map (fun i => BitVec.ofNat 8 (kvGet (fun _ => 0) changed (codeData str + 4 + i))))

/-- A page is read with wrong bytes: those of its data, and the blot bits of its spare area. -/
def changePage (d str : Nat) (changed : List (Nat × Nat)) (s : State) : State :=
  let g := d / 2048 * 2048
  let data := changed.filter (fun e => decide (e.1 < codeData str))
  let mask := leNat ((List.range 4).map (fun i => BitVec.ofNat 8 (kvGet (fun _ => 0) changed (codeData str + i))))
  { s with
    mem := data.foldl (fun m e => kvPut (fun _ => 0#8) m (g + e.1) (kvGet (fun _ => 0#8) m (g + e.1) ^^^ BitVec.ofNat 8 e.2)) s.mem
    blots := (List.range (codeData str / 64)).foldl (fun b i =>
      if mask.testBit i then kvPut (fun _ => false) b (g / 64 + i) (!kvGet (fun _ => false) b (g / 64 + i)) else b) s.blots }

/-- One decode of a logical page at its strength, with its counts, records and event. A page stored uncorrectable stays so. -/
def decodePage (m lpi : Nat) (errs : List (Nat × Nat)) (s : State) : State :=
  let region := getRegion s (strengthRegion (pageAddr s m lpi))
  let str := region.strength
  let org := oStack m 0 lpi
  let bad := fun (kind : Nat) (s : State) =>
    let s := bufferDrop m (lpiLoc m lpi).channel lpi (setBad m lpi (addReg (mscBlk m + 0x2008) 1 s))
    pageEvent m lpi kind (report 0x203 org (pageFn s m lpi) 0xFFFFFFFF s)
  if isBad s m lpi then bad 1 s
  else
    match (pageCode str).decode errs with
    | .uncorrectable => bad 1 s
    | .good fixed left =>
      let n := fixed.length
      let changed := changedBytes str left
      if tagRead str region.gen lpi changed = genTag str region.gen lpi then
        let s := if 0 < n then addReg (mscBlk m + 0x2000) 1 s else s
        let s := if changed.isEmpty then s else changePage (pageAddr s m lpi) str changed s
        if eventThreshold s m str < n then pageEvent m lpi 0 (report 0x204 org (pageFn s m lpi) n s) else s
      else bad 2 s

/-- Does a decode correct symbols? -/
def corrects (str : Nat) (errs : List (Nat × Nat)) : Bool :=
  match (pageCode str).decode errs with
  | .good fixed _ => !fixed.isEmpty
  | .uncorrectable => false

/-- A decode of an unused spare page by the patrol scrubber (R405, R407). DESIGN CHOICE (log 40): it is stored at Standard strength with a tag of zero. -/
def decodeSpare (m bank k : Nat) (errs : List (Nat × Nat)) (s : State) : State :=
  let bad := fun (kind : Nat) (s : State) => pageEvent m (spareKey bank k) kind (addReg (mscBlk m + 0x2008) 1 s)
  match (pageCode 0).decode errs with
  | .uncorrectable => bad 1 s
  | .good fixed left =>
    let n := fixed.length
    if tagRead 0 0 0 (changedBytes 0 left) = genTag 0 0 0 then
      let s := if 0 < n then addReg (mscBlk m + 0x2000) 1 s else s
      if eventThreshold s m 0 < n then pageEvent m (spareKey bank k) 0 s else s
    else bad 2 s

/-! ### Patrol scrub (R405 to R407) -/

/-- Addressable pages of each bank (R59). -/
def bankPages (m : Nat) : Nat := if m < 4 then 65536 else 49152
/-- Does the patrol scrubber serve this page of a bank of the stack? Pages from 65,536 on are spare pages. -/
def scrubServes (s : State) (m bank page : Nat) : Bool :=
  if page < 65536 then decide (page < bankPages m) && !lpiRetired s m (65536 * bank + page)
  else (spareUser s m bank (page - 65536)).isSome || !spareBad s m bank (page - 65536)
def scrubNo (bank page : Nat) : Nat := 65600 * bank + page

/-- Is a page the next that the pass reads: nothing that it serves lies between? -/
def scrubNext (s : State) (m bank page : Nat) : Bool :=
  let p := (getStack s m).scrubPos
  let q := scrubNo bank page
  decide (p ≤ q) && scrubServes s m bank page &&
    (List.range (q - p)).all (fun i => !scrubServes s m ((p + i) / 65600) ((p + i) % 65600))

/-- Has the pass read every page that it serves? Only spare pages at the end of the last bank can be left out. -/
def scrubOver (s : State) (m : Nat) : Bool :=
  let p := (getStack s m).scrubPos
  decide (512 * 65600 ≤ p + 64) &&
    (List.range (512 * 65600 - p)).all (fun i => !scrubServes s m ((p + i) / 65600) ((p + i) % 65600))

/-- A pass ends; one that came due meanwhile starts at once. -/
def scrubEnd (m : Nat) (s : State) : State :=
  if !scrubOver s m then s
  else if (getStack s m).scrubAgain then modStack m (fun x => { x with scrubPos := 0, scrubAgain := false }) s
  else setB (mscBlk m) 28 false s

/-- INTERVAL_H in ns. -/
def scrubInterval (s : State) (m : Nat) : Nat := getF s (mscBlk m + 0xC) 0 8 * 3600000000000

/-- STACK_PATROL_PASS: once its interval has passed, a pass comes due (R405): it starts, or is late and starts when the one in progress
ends. -/
def execStackPatrolPass (m : Fin 8) (t : Nat) (s : State) : Out :=
  let s := { s with now := max s.now t }
  .next (if s.now < (getStack s m).scrubDue then s
    else
      let due := s.now + scrubInterval s m
      if getB s (mscBlk m) 28 then
        addReg (mscBlk m + 0x2010) 1 (modStack m (fun x => { x with scrubAgain := true, scrubDue := due }) s)
      else setB (mscBlk m) 28 true (modStack m (fun x => { x with scrubPos := 0, scrubWrites := [], scrubDue := due }) s))

/-! ### Channel arbitration (R408 to R415) -/

/-- The rank of a source (MSC_RANKn). -/
def rankOf (s : State) (m src : Nat) : Nat := getF s (mscBlk m + 0x100 + 4 * (src / 8)) (4 * (src % 8)) 4
/-- Is a source's ASLEEP asserted: that of a function in steps 1 to 6 of its reset, or of an engine powered down with its stack (R415)? -/
def maskedSource (s : State) (m src : Nat) : Bool :=
  (decide (src < 65) && resetting s src) || (decide (src = 66 ∨ src = 68) && !getB s (domReg (84 + m)) 31)

/-- Is a bank in NMU mode: held by the unit over it (R442)? -/
def inNmuMode (s : State) (m ch bank : Nat) : Bool :=
  decide (4 ≤ m) &&
    match (kvGet (fun _ => ({} : Nmu)) s.nmus ((m - 4) * 256 + ch * 8 + bank / 2)).run with
    | none => false
    | some r => if bank % 2 = 0 then r.even else r.odd
/-- Is a bank held by its refresh? -/
def inRefresh (s : State) (m ch bank : Nat) : Bool :=
  match kvFind (getStack s m).refreshing (ch * 16 + bank) with
  | none => false
  | some t => decide (s.now < t)

/-- A bank's refresh begins: it holds the bank for 260 ns (R414). -/
def startRefresh (m ch bank : Nat) (s : State) : State :=
  modStack m (fun x => { x with refreshing := kvInsert x.refreshing (ch * 16 + bank) (s.now + 260) }) s
/-- A bank leaves NMU mode: a refresh that waited for it begins. -/
def leaveNmuMode (m ch bank : Nat) (s : State) : State :=
  if kvFind (getStack s m).refreshing (ch * 16 + bank) = some 0 then startRefresh m ch bank s else s

/-- REFRESH: the bank is held, or its refresh waits until the bank leaves NMU mode (noted by time 0). -/
def execRefresh (m : Fin 8) (ch : Fin 32) (bank : Fin 16) (t : Nat) (s : State) : Out :=
  let s := { s with now := max s.now t }
  .next (if inNmuMode s m ch bank then
      modStack m (fun x => { x with refreshing := kvInsert x.refreshing (ch.val * 16 + bank) 0 }) s
    else startRefresh m ch bank s)

/-- Does a request wait for its bank (R414)? -/
def bankHeld (s : State) (m ch : Nat) (r : PageReq) : Bool := inNmuMode s m ch r.bank || inRefresh s m ch r.bank
/-- The requests with which sources compete for a channel, by source: of each that is not masked, its first whose bank is free (R408,
R409, R414, R415). -/
def competing (s : State) (m ch : Nat) : List PageReq :=
  (List.range 69).filterMap (fun src =>
    if maskedSource s m src then none else (sourceQueue s m ch src).find? (fun r => !bankHeld s m ch r))

/-- The source of the highest rank, the first after the one of that rank granted last (R409). -/
def chooseSource (s : State) (m ch : Nat) (l : List PageReq) : Option PageReq :=
  let top := l.foldl (fun n r => max n (rankOf s m r.source)) 0
  let last := kvGet (fun _ => 68) (getStack s m).lastGrant (ch * 16 + top)
  (List.range 69).findSome? (fun i =>
    l.find? (fun r => decide (r.source.val = (last + 1 + i) % 69 ∧ rankOf s m r.source = top)))

/-- The owner keeps its grant until BURST rows have gone (R410); otherwise the arbiter chooses. -/
def arbitrate (s : State) (m ch : Nat) (l : List PageReq) : Option (PageReq × Bool) :=
  let x := getStack s m
  let owner := kvGet (fun _ => 0) x.owner ch
  let rows := kvGet (fun _ => 0) x.burstRows ch
  let keep := if 0 < owner ∧ rows < getF s (mscBlk m + 4) 0 7 then l.find? (fun r => r.source.val + 1 = owner) else none
  match keep with
  | some r => some (r, true)
  | none => (chooseSource s m ch l).map (fun r => (r, false))

/-- The grant is noted: owner, rows of its burst, and the source of its rank granted last. -/
def grantChannel (m ch : Nat) (r : PageReq) (kept : Bool) (rows : Nat) (s : State) : State :=
  let rank := rankOf s m r.source
  let s := addReg (mscBlk m + 0x10000 + 8 * r.source) rows s
  modStack m (fun x => { x with
    owner := kvPut (fun _ => 0) x.owner ch (r.source + 1)
    burstRows := kvPut (fun _ => 0) x.burstRows ch ((if kept then kvGet (fun _ => 0) x.burstRows ch else 0) + rows)
    lastGrant := kvPut (fun _ => 68) x.lastGrant (ch * 16 + rank) r.source }) s

/-! ### A page access -/

/-- The function that a request's records name. -/
def reqSourceFn (r : PageReq) : Nat := if r.source.val < 65 then r.source else fnDevice

/-- The granules of a page that a write names, stored with their blots (R228, R391, R392). -/
def storePage (d : Nat) (l : List (List (Option Byte) × Bool)) (s : State) : State :=
  (List.range (min l.length 32)).foldl (fun s i =>
    match l[i]? with
    | none => s
    | some (b, blot) =>
      let b := b.take 64 ++ List.replicate (64 - b.length) none
      if b.all (fun x => x.isNone) then s else storeGran (d + 64 * i) b blot s) s

/-- Does a write cover its whole page? -/
def wholePage (str : Nat) (l : List (List (Option Byte) × Bool)) : Bool :=
  let n := codeData str / 64
  decide (n ≤ l.length) && (l.take n).all (fun g => decide (g.1.length = 64) && g.1.all (fun b => b.isSome))

/-- Rows that a request moves over the channel: four for each page (R379, R381). -/
def accessRows (s : State) (m lpi : Nat) (hit : Bool) (r : PageReq) : Nat :=
  match r.op with
  | .read => if hit then 0 else 4
  | .write l => if hit || wholePage (lpiStrength s m lpi) l then 4 else 8
  | .scrub => 4
  | .scrubWrite => 4

/-- The scrubber's write back of a page is due, or no longer. -/
def scrubOwed (m page : Nat) (due : Bool) (s : State) : State :=
  modStack m (fun x => { x with scrubWrites := x.scrubWrites.filter (fun p => p ≠ page) ++ (if due then [page] else []) }) s

/-- A write of a page; a part of a page that does not decode heals it (R391). -/
def writePage (m ch lpi : Nat) (hit : Bool) (errs : List (Nat × Nat)) (l : List (List (Option Byte) × Bool)) (s : State) : State :=
  let d := pageAddr s m lpi
  let whole := wholePage (lpiStrength s m lpi) l
  let s := if whole then clearBad m lpi s else if hit then s else decodePage m lpi errs s
  let s := scrubOwed m lpi false s
  let l := if lpiStrength s m lpi = 3 then l.take 31 else l
  bufferPut m ch lpi (storePage d l s)

/-- The page that a request means: a logical page, or (from 2^25 on) an unused spare page. -/
def pageMeant (s : State) (m ch : Nat) (r : PageReq) : Nat :=
  let bank := ch * 16 + r.bank
  if r.page.val < 65536 then 65536 * bank + r.page
  else
    match spareUser s m bank (r.page - 65536) with
    | none => spareKey bank (r.page - 65536)
    | some e => remapLpi s m e

/-- Serve one request on a page of a bank. -/
def servePage (m ch : Nat) (r : PageReq) (errs : List (Nat × Nat)) (s : State) : State :=
  let lpi := pageMeant s m ch r
  if 2 ^ 25 ≤ lpi then
    match r.op with
    | .scrub => scrubOwed m lpi (corrects 0 errs) (decodeSpare m (ch * 16 + r.bank) (r.page - 65536) errs s)
    | .scrubWrite => scrubOwed m lpi false s
    | _ => s
  else if lpiRetired s m lpi then report 0x20A (oStack m 0 lpi) (reqSourceFn r) (pageAddr s m lpi) s
  else
    let hit := buffered s m ch lpi
    match r.op with
    | .read => if hit then bufferPut m ch lpi s
      else
        let s := decodePage m lpi errs s
        if isBad s m lpi then s else bufferPut m ch lpi s
    | .write l => writePage m ch lpi hit errs l s
    | .scrub =>
      let str := lpiStrength s m lpi
      let s := decodePage m lpi errs s
      scrubOwed m lpi (corrects str errs && !isBad s m lpi) s
    | .scrubWrite => scrubOwed m lpi false s

/-- May a request be made as such: the scrubber reads its pages in order, and writes back what it has corrected; the others ask for
addressable pages? -/
def requestStands (s : State) (m ch : Nat) (r : PageReq) : Bool :=
  match r.op with
  | .scrub => decide (r.source.val = 68) && getB s (mscBlk m) 28 && scrubNext s m (ch * 16 + r.bank) r.page
  | .scrubWrite => decide (r.source.val = 68) && (getStack s m).scrubWrites.contains (pageMeant s m ch r)
  | _ => decide (r.source.val ≠ 68) && decide (r.page.val < bankPages m)

/-- The patrol moves on after a scrub read. -/
def scrubMove (m ch : Nat) (r : PageReq) (s : State) : State :=
  if r.op = .scrub then scrubEnd m (modStack m (fun x => { x with scrubPos := scrubNo (ch * 16 + r.bank) r.page + 1 }) s) else s

/-- The oldest read of a buffered page that no earlier request of its source for that page precedes, in order of the sources (R380, R382). -/
def bufferHit (s : State) (m ch : Nat) : Option PageReq :=
  (List.range 69).findSome? (fun src =>
    if maskedSource s m src then none
    else
      let q := sourceQueue s m ch src
      (List.range q.length).findSome? (fun i =>
        match q[i]? with
        | none => none
        | some r =>
          if r.op = .read ∧ buffered s m ch (lpiOf ch r.bank r.page) = true ∧
              (q.take i).all (fun x => !(decide (x.bank = r.bank) && decide (x.page = r.page))) = true then some r else none))

/-- A request leaves its source's queue. -/
def unqueue (m ch : Nat) (r : PageReq) (s : State) : State :=
  modStack m (fun x => { x with queues := kvMod (fun _ => []) x.queues (ch * 128 + r.source) (fun q => q.erase r) }) s

/-- The channel's arbiter grants a request of the queues, if one competes, and its page moves. An owner without one loses its grant. -/
def grantNext (m ch : Nat) (errs : List (Nat × Nat)) (cycles : Nat) (s : State) : State :=
  let l := competing s m ch
  match arbitrate s m ch l with
  | none => modStack m (fun x => { x with owner := kvPut (fun _ => 0) x.owner ch 0 }) s
  | some (r, kept) =>
    let lpi := pageMeant s m ch r
    let s := (l.filter (fun x => x.source ≠ r.source)).foldl (fun s x => addReg (mscBlk m + 0x10004 + 8 * x.source) cycles s) s
    let s := grantChannel m ch r kept (accessRows s m lpi (buffered s m ch lpi) r) s
    scrubMove m ch r (servePage m ch r errs (unqueue m ch r s))

/-- PAGE_ACCESS: new requests enter their sources' queues, but for those of a function in reset; a read of a buffered page takes no channel
time (R380); otherwise the channel's arbiter grants one of the requests that compete. -/
def execPageAccess (m : Fin 8) (ch : Fin 32) (arrivals : List PageReq) (errors : List (Nat × Nat)) (cycles t : Nat) (s : State) : Out :=
  let s := { s with now := max s.now t }
  let s := arrivals.foldl (fun s r =>
    if requestStands s m ch r && !(decide (r.source.val < 65) && resetting s r.source) then queuePage m ch r s else s) s
  .next (match bufferHit s m ch with
    | some r => servePage m ch r errors (unqueue m ch r s)
    | none => grantNext m ch errors cycles s)

/-! ### Conversion of regions (R393, R394) -/

/-- MEM_CONVERT_STATUS from the regions that wait. -/
def showConvert (s : State) : State :=
  setReg 0x570 (BitVec.ofNat 32 (match s.hub.convert with
    | [] => 0
    | x :: r => 2 ^ 31 + 2 ^ 16 * x.1 + min r.length 255 * 2 ^ 8)) s

/-- Put a region with a new strength among those that wait, ascending. -/
def queueConvert (r str : Nat) (l : List (Nat × Nat × Nat)) : List (Nat × Nat × Nat) :=
  (l.filter (fun x => decide (x.1 < r))) ++ [(r, str, 0)] ++ (l.filter (fun x => decide (r < x.1)))

/-- A staged MEM_STRENGTHn takes effect: hub firmware will convert its changed regions (R393). -/
def applyStrength (n : Nat) (v : Word) (s : State) : State :=
  let old := rawReg s (0x500 + 4 * n)
  let s := setReg (0x500 + 4 * n) v s
  showConvert ((List.range 16).foldl (fun s j =>
    if fld old (2 * j) 2 = fld v (2 * j) 2 then s
    else modHub (fun h => { h with convert := queueConvert (16 * n + j) (fld v (2 * j) 2) h.convert }) s) s)

/-- The pages of a region, by stack and logical page index (9.2). -/
def regionHas (r m lpi : Nat) : Bool :=
  if r < 256 then decide (m < 4 ∧ lpi % 65536 / 256 = r) else decide (4 ≤ m ∧ lpi % 65536 / 256 = r - 256)

/-- The addresses of granule 31 of the pages of a region that hold something or are blotted. -/
def lastGrans (s : State) (r : Nat) : List Nat :=
  (s.mem.map (fun (e : Nat × Byte) => e.1) ++ s.blots.map (fun (e : Nat × Bool) => e.1 * 64)).filter
    (fun a => decide (0x7C0 ≤ a % 2048 ∧ strengthRegion a = r))

/-- The reads of a conversion in order: ascending logical page index, each page once per stack. -/
def convertOrder (l : List (Nat × Nat × List (Nat × Nat))) : List (Nat × Nat × List (Nat × Nat)) :=
  l.foldl (fun acc x => if acc.any (fun y => decide (y.1 = x.1 ∧ y.2.1 = x.2.1)) then acc
    else acc.filter (fun y => decide (y.2.1 < x.2.1 ∨ (y.2.1 = x.2.1 ∧ y.1 < x.1))) ++ [x] ++
      acc.filter (fun y => !decide (y.2.1 < x.2.1 ∨ (y.2.1 = x.2.1 ∧ y.1 < x.1)))) []

/-- Granule 31 of the pages of a region is zero and clear (R387, R394). -/
def zeroLast (r : Nat) (s : State) : State := (lastGrans s r).foldl (fun s a => zeroRange (a / 64 * 64) 64 s) s

/-- REGION_CONVERT: the lowest region that waits takes its new strength, GEN increased by one. Each page is decoded under the old strength
and GEN; one found uncorrectable becomes blotted zeros. A change from Extended leaves granule 31 zero and clear, one to Extended discards
it. -/
def execRegionConvert (found : List (Fin 8 × Fin 33554432 × List (Nat × Nat))) (s : State) : Out :=
  .next (match s.hub.convert with
    | [] => s
    | x :: rest =>
      let r := x.1
      let old := getRegion s r
      let hit := (convertOrder (found.map (fun p => (p.1.val, p.2.1.val, p.2.2)))).filter
        (fun p => regionHas r p.1 p.2.1 && decide (p.2.1 % 65536 < bankPages p.1) && !lpiRetired s p.1 p.2.1)
      let s := hit.foldl (fun s p => if lpiRetired s p.1 p.2.1 then s else decodePage p.1 p.2.1 p.2.2 s) s
      let s := if old.strength = 3 then zeroLast r s else s
      let s := (List.range 8).foldl (fun s m =>
        ((getStack s m).bad.filter (fun e => regionHas r m e.1)).foldl (fun s e =>
          clearBad m e.1 (blotPage (pageAddr s m e.1) s)) s) s
      let s := if x.2.1 = 3 then zeroLast r s else s
      let s := putRegion r { strength := x.2.1, gen := (old.gen + 1) % 16 } s
      showConvert (modHub (fun h => { h with convert := rest }) s))

end Sys2Proof.Machine
end

