-- ==== Sys2Proof/Machine/Cxl.lean ====
section
/-!
DEFINITION. Far memory over the CXL ports (9.7): accesses, poison, timeouts, ports that go down and come back, events.
-/
namespace Sys2Proof.Machine

/-- The first device address of an expander's memory and its bytes (R56). -/
def expanderBase (s : State) (p e : Nat) : Nat :=
  farBase p + (if e = 0 then 0 else 2 ^ 30 * (rawReg s (cxlBlk p + 4)).toNat)
def expanderBytes (s : State) (p e : Nat) : Nat := 2 ^ 30 * (rawReg s (cxlBlk p + 4 + 4 * e)).toNat

/-- The CXL port that an address of a function reaches. -/
def farPort (s : State) (f a : Nat) : Option Nat :=
  match devAddr s f a with
  | none => none
  | some d =>
    match place d with
    | .far p _ => some p
    | _ => none

/-- What a far access that is a bus error leaves: its stroke's or transfer's cluster is marked (R237), and a reader, always an engine stream
(R419), gets blotted zeros (R235). -/
def farLost (fn : Nat) (by_ : Option (Fin 64)) (read : Bool) (s : State) : State :=
  let s := by_.elim s (fun c => noteBusErr c s)
  if read then emit (.streamData fn (List.replicate 64 0#8) true) s else s

/-- A far access that is a bus error (R420, R422): counted at its port and recorded. -/
def farError (fn a : Nat) (by_ : Option (Fin 64)) (read : Bool) (s : State) : State := farLost fn by_ read (busError (hostAcc fn) a s)

/-- A far access of the right kind that the link or the expander fails: the port counts it (R420). -/
def farFail (fn a : Nat) (by_ : Option (Fin 64)) (read : Bool) (s : State) : State :=
  match farPort s fn a with
  | none => s
  | some p =>
    let k := hostAcc fn
    farLost fn by_ read (report 0x20A k.org (accFn k) a (addReg (cxlBlk p + 0x14) 1 s))

/-- A granule comes back with poison: it is blotted from now on. -/
def poisonGran (d : Nat) (s : State) : State := markBlot d s

/-- FAR_ACCESS (R419, R420): a read of a granule, or a write of one with its blot bit, for a function and, where a stroke or transfer makes it,
its cluster. In the drain of a VI its writes are not committed, and its
reads are dropped on arrival (Table 4.15, step 5). -/
def execFarAccess (fn : Fin 65) (by_ : Option (Fin 64)) (addr : Nat) (write : Option (List (BitVec 8) × Bool)) (poison fail : Bool)
    (s : State) : Out :=
  let k := hostAcc fn
  let g := addr / 64 * 64
  .next (if resetting s fn || (farPort s fn addr).isNone then s
    else
      match write with
      | none =>
        match reach s k false g allBytes with
        | none => farError fn addr by_ true s
        | some d =>
          if fail then farFail fn addr by_ true s
          else
            let s := if poison then poisonGran d s else s
            let r := readT k g 64 false s
            bumpFree (emit (.streamData fn (tBytes r.data) (tBlot r.data)) r.s)
      | some (l, blot) =>
        let l := l.take (64 - addr % 64)
        match reach s k true g (spanBytes addr l.length g) with
        | none => farError fn addr by_ false s
        | some _ => if fail then farFail fn addr by_ false s else (writeSpan k addr l blot (.start s)).s)

/-- A far read that has not come back after 50 µs is a bus error (R420). -/
def execCxlCompletionTimeout (fn : Fin 65) (by_ : Option (Fin 64)) (addr : Nat) (s : State) : Out := .next (farFail fn addr by_ true s)

/-- The functions that hold far pieces of an expander. -/
def expanderOwners (s : State) (p e : Nat) : List Nat :=
  let lo := (expanderBase s p e - farBase p) / 2 ^ 26
  let hi := lo + expanderBytes s p e / 2 ^ 26
  (((extents s).filter (fun x => decide (x.kind = 2 + p ∧ x.first < hi ∧ lo < x.first + x.count))).map (fun x => x.vi)).dedup

/-- An expander loses power: its contents are lost, its pieces are bus errors until scrubbed again, and the functions that hold
pieces there are told by a bus error each (R422). -/
def expanderLost (p e : Nat) (s : State) : State :=
  let lo := (expanderBase s p e - farBase p) / 2 ^ 26
  let n := expanderBytes s p e / 2 ^ 26
  let s := zeroRange (expanderBase s p e) (expanderBytes s p e) s
  let s := (expanderOwners s p e).foldl (fun s f => report 0x20A (oCxl p e) f (expanderBase s p e) s) s
  { s with farReady := kvClear s.farReady (0x8000 * p + lo) (0x8000 * p + lo + n) }

/-- The reference clock pairs of a port's two possible expanders are driven or stopped (R720). -/
def driveRefclk (p : Nat) (on : Bool) (s : State) : State :=
  [2 * p, 2 * p + 1].foldl (fun s k => { s with pins := { s.pins with cxlClk := kvPut (fun _ => false) s.pins.cxlClk k on } }) s

/-- A port goes down (R422). DEDUCED (log 27): a port that is down is not in service, so its reference clocks stop (R720) until it is trained
again. -/
def cxlDown (p : Nat) (powerLost : List Nat) (s : State) : State :=
  if !getB s (cxlBlk p) 31 then s
  else
    let s := driveRefclk p false (setF (cxlBlk p) 28 2 0 (setB (cxlBlk p) 31 false s))
    let s := report 0x20B (oCxl p 0) fnDevice 0 s
    powerLost.foldl (fun s e => if e < 2 then expanderLost p e s else s) s

/-- CXL_DOWN: a port goes down; `powerLost` names the expanders that lose power. -/
def execCxlDown (p : Fin 2) (powerLost : List Nat) (s : State) : Out := .next (cxlDown p powerLost s)

/-- CXL_EVENT: an event record of an expander passes to the blotter (R418). -/
def execCxlEvent (p : Fin 2) (expander : Fin 2) (kind : Nat) (s : State) : Out :=
  .next (if getB s (cxlBlk p) (21 + expander) then report 0x20C (oCxl p expander) fnDevice kind s else s)

/-- The link modes of Table 9.8: 64 GT/s in 256B Flit mode, 32 and 16 GT/s in 68B Flit mode, ×16 or bifurcated to ×8. -/
def linkMode (flit256 : Bool) (speed width : Nat) : Bool :=
  (if flit256 then decide (speed = 3) else decide (speed = 1 ∨ speed = 2)) && decide (width = 16 ∨ width = 8)

/-- CXL_LINK_TRAINED: a port in service again (R422, Table 9.8), unless it is out of service. -/
def execCxlLinkTrained (p : Fin 2) (flit256 : Bool) (speed width : Nat) (s : State) : Out :=
  .next (if cxlOut s p || !linkMode flit256 speed width then s
    else
      let b := cxlBlk p
      driveRefclk p true (setB b 31 true (setB b 30 flit256 (setF b 28 2 speed (setF b 23 5 width s)))))

end Sys2Proof.Machine
end

