-- ==== Sys2Proof/Machine/VCore.lean ====
section
/-!
DEFINITION. The V-core (7.1 to 7.7): lane operations, conversions, reductions, transcendentals, RGEN, memory and setup strokes, and
the optimizer strokes of chapter 12.
-/
namespace Sys2Proof.Machine

/-! ### Views (R291, R295) -/

/-- Is a TYPE a float format? -/
def vFloat (ty : Nat) : Bool := ([0, 1, 2, 5, 6] : List Nat).contains ty
/-- The format of a float TYPE. -/
def vFmt (ty : Nat) : FFmt :=
  match ty with
  | 1 => fmtBF16
  | 2 => fmtF16
  | 5 => fmtE4M3
  | 6 => fmtE5M2
  | _ => fmtF32
/-- The value of a lane. -/
def vVal (ty x : Nat) : FV := if vFloat ty then fpDec (vFmt ty) x else fvOfInt (sext (laneBits ty) x)
/-- Clamp an integer to `n` bits. -/
def clampInt (n : Nat) (x : Int) : Int := max (-(2 ^ (n - 1) : Int)) (min (2 ^ (n - 1) - 1 : Int) x)
/-- A value as a lane of a TYPE, by a rounding mode and SAT (R302). -/
def vEnc (ty : Nat) (r : RMode) (sat : Bool) (v : FV) : Nat :=
  if vFloat ty then fpEnc (vFmt ty) r sat v
  else
    let n := laneBits ty
    match v with
    | .nan => 0
    | .inf neg => wrapInt n (if neg then -(2 ^ (n - 1) : Int) else (2 ^ (n - 1) - 1 : Int))
    | x => wrapInt n (clampInt n (fvToInt r x))

/-- Operand lanes. -/
def vA (s : State) (k : Nat) (f : VFields) (i : Nat) : Nat := lane (vx s k f.va) (laneBits f.ty) i
def vB (s : State) (k : Nat) (f : VFields) (i : Nat) : Nat :=
  if f.bimm then f.imm % 2 ^ laneBits f.ty else lane (vx s k f.vb) (laneBits f.ty) i
def vC (s : State) (k : Nat) (f : VFields) (i : Nat) : Nat := lane (vx s k f.vc) (laneBits f.ty) i
/-- Source registers of A and B. -/
def srcA (f : VFields) : List Nat := [f.va]
def srcAB (f : VFields) : List Nat := if f.bimm then [f.va] else [f.va, f.vb]
/-- Is a lane enabled by the stroke's mask? -/
def vOn (s : State) (k : Nat) (f : VFields) (i : Nat) : Bool := (vMask s k f.mask).getLsbD i
/-- The tag that a mask other than VM0 adds. -/
def maskTag (s : State) (k m : Nat) : Bool := decide (m ≠ 0) && vMaskTag s k m

/-- Write lanes of a register; a lane given as none keeps its value. -/
def vWrite (k vd wd : Nat) (vals : Nat → Option Nat) (tags : List Bool) (s : State) : State :=
  let old := vx s k vd
  let whole := fun q => (List.range (512 / wd)).all (fun i => (vals (q * (512 / wd) + i)).isSome)
  healVx k vd whole (setVx k vd (fromLanes wd ((List.range (2048 / wd)).map (fun i => (vals i).getD (lane old wd i)))) tags s)

/-- A lane operation: enabled lanes take the result (R292, R297). -/
def laneOp (k : Nat) (f : VFields) (srcs : List Nat) (g : Nat → Nat) (s : State) : State :=
  let wd := laneBits f.ty
  vWrite k f.vd wd (fun i => if vOn s k f i then some (g i) else none) (laneTags s k f wd srcs (vOn s k f)) s

/-! ### Holds (R294) -/

/-- Registers by number: VX 0 to 63, VM 64 + n, AB 72 + n, KS 80 + n, CB 84. What a register-layout stroke reads. -/
def vReadsLane (op : Nat) (f : VFields) : List Nat :=
  let b := if f.bimm then [] else [f.vb]
  let m := [64 + f.mask]
  if op = 0x07 ∨ op = 0x08 ∨ (0x30 ≤ op ∧ op ≤ 0x32) ∨ op = 0x39 then f.va :: m
  else if op = 0x04 then [f.va, f.vc] ++ b ++ m
  else if op = 0x10 then [f.va] ++ m ++ (if f.rmode = 2 then [80 + f.key, 84] else [])
  else if op = 0x11 then m ++ [80 + f.key, 84]
  else if 0x20 ≤ op ∧ op ≤ 0x24 then [f.va] ++ (if f.func % 2 = 1 then b else []) ++ m
  else if op = 0x53 then []
  else if op = 0x60 ∨ op = 0x61 then
    [f.vd, f.va, f.vb, f.imm % 64] ++ (if op = 0x60 then [f.vc] else []) ++ m ++ (if f.imm.testBit 7 then [] else [80 + f.key, 84])
  else [f.va] ++ b ++ m
/-- What a stroke reads. -/
def vReads (w : StrokeWord) : List Nat :=
  let f := vFields w
  let m := vMem w
  let op := sOpcode w
  let ab := if m.chan then [] else [72 + m.addr % 8]
  if sUnit w ≠ 1 then []
  else if op = 0x40 then (64 + m.mask) :: ab
  else if op = 0x41 then [m.vreg, 64 + m.mask] ++ ab
  else if op = 0x42 then (if m.idxChan then [] else [m.vidx]) ++ [64 + m.mask, 72 + m.addr % 8]
  else if op = 0x43 then [m.vreg] ++ (if m.idxChan then [] else [m.vidx]) ++ [64 + m.mask, 72 + m.addr % 8]
  else if op = 0x50 then (if sb w 83 then [72 + sf w 80 3] else [])
  else if op = 0x51 then (if sf w 34 2 = 1 then [80 + sf w 36 2] else [])
  else if op = 0x52 then (if sb w 32 then [84] else [])
  else vReadsLane op f
/-- What a stroke writes. -/
def vWrites (w : StrokeWord) : List Nat :=
  let f := vFields w
  let m := vMem w
  let op := sOpcode w
  if sUnit w ≠ 1 then []
  else if op = 0x0D ∨ op = 0x53 then [64 + f.vd % 8]
  else if op = 0x10 ∨ op = 0x11 then (if f.adv then [f.vd, 84] else [f.vd])
  else if op = 0x60 then [f.vd, f.vb, f.vc] ++ (if f.adv then [84] else [])
  else if op = 0x61 then [f.vd, f.vb] ++ (if f.adv then [84] else [])
  else if op < 0x40 then [f.vd]
  else if op = 0x40 ∨ op = 0x42 ∨ (op = 0x41 ∧ (m.aop = 2 ∨ m.aop = 4)) then [m.vreg]
  else if op = 0x50 then [72 + sf w 80 3]
  else if op = 0x51 then [80 + sf w 32 2]
  else if op = 0x52 then [84]
  else []

/-- Does a stroke in flight on the runner write what this one reads or writes (R294)? VM0 holds nothing back. -/
def vHeld (k : Nat) (w : StrokeWord) (s : State) : Bool :=
  let mine := (vReads w ++ vWrites w).filter (fun x => x ≠ 64)
  (getRunner s k).flight.any (fun f => (vWrites f.word).any (fun x => mine.contains x))

/-- The first index of a quarter's mark in `bad`: VX by register and quarter, masks from 256. -/
def vBadKey (n q : Nat) : Nat := if n < 64 then n * 4 + q else 256 + (n - 64)

/-- A parity error that a stroke meets when it reads a register (n for VXn, 64 + n for VMn, and the quarter): its tag is set, and
it is recorded and counted (R324). A register that the stroke does not read shows none, nor does one that has failed and has not been written
since, nor VM0, which holds nothing. -/
def vParity (p : Option (Nat × Nat)) (k : Nat) (w : StrokeWord) (s : State) : State :=
  match p with
  | none => s
  | some (n, q) =>
    let q := if n < 64 then q % 4 else 0
    if !(vReads w).contains n || decide (72 ≤ n ∨ n = 64) || kvGet (fun _ => false) (getV s k).bad (vBadKey n q) then s
    else
      let s := modV k (fun r =>
        let r := { r with bad := kvPut (fun _ => false) r.bad (vBadKey n q) true }
        if n < 64 then { r with vtag := kvPut (fun _ => r.fresh) r.vtag (n * 4 + q) true }
        else { r with mtag := kvPut (fun _ => r.fresh) r.mtag (n - 64) true }) s
      let c := noCluster k
      let ph := physCore s c 1 (noCore k)
      let s := addReg (vcBlk c ph + 4) 1 (report 0x102 (oCore c 1 ph (noRunner k)) (clusterFn s c) (n + 256 * q) s)
      coreEvent c 1 ph s

/-- A V-core stroke that is not held has its effect, with the parity error that its register reads meet. -/
def vEffect (p : Option (Nat × Nat)) (f : Nat → StrokeWord → State → Option StrokeOut) (k : Nat) (w : StrokeWord) (s : State) :
    Option StrokeOut :=
  if vHeld k w s then none else f k w (vParity p k w s)

/-- The same for a stroke that reads no register under parity. -/
def vPlain (f : Nat → StrokeWord → State → Option StrokeOut) (k : Nat) (w : StrokeWord) (s : State) : Option StrokeOut :=
  if vHeld k w s then none else f k w s

/-! ### Lane arithmetic (R299 to R301, R756) -/

/-- A lane from an exact value in a float view, or wrapped in an integer view. -/
def arith (ty : Nat) (fl : FV) (int : Int) : Nat :=
  if vFloat ty then fpEnc (vFmt ty) .rne false fl else wrapInt (laneBits ty) int

def vaddLane (ty a b : Nat) : Nat :=
  arith ty (fvAdd (vVal ty a) (vVal ty b)) (sext (laneBits ty) a + sext (laneBits ty) b)
def vsubLane (ty a b : Nat) : Nat :=
  arith ty (fvAdd (vVal ty a) (fvNeg (vVal ty b))) (sext (laneBits ty) a - sext (laneBits ty) b)
def vmulLane (ty a b : Nat) : Nat :=
  arith ty (fvMul (vVal ty a) (vVal ty b)) (sext (laneBits ty) a * sext (laneBits ty) b)
def vfmaLane (ty a b c : Nat) : Nat :=
  arith ty (fvAdd (fvMul (vVal ty a) (vVal ty b)) (vVal ty c))
    (sext (laneBits ty) a * sext (laneBits ty) b + sext (laneBits ty) c)
def vmaxLane (ty a b : Nat) : Nat :=
  arith ty (fvMax (vVal ty a) (vVal ty b)) (max (sext (laneBits ty) a) (sext (laneBits ty) b))
def vminLane (ty a b : Nat) : Nat :=
  arith ty (fvMin (vVal ty a) (vVal ty b)) (min (sext (laneBits ty) a) (sext (laneBits ty) b))
def vabsLane (ty a : Nat) : Nat := arith ty (fvAbs (vVal ty a)) (sext (laneBits ty) a).natAbs
def vnegLane (ty a : Nat) : Nat := arith ty (fvNeg (vVal ty a)) (-(sext (laneBits ty) a))

/-- Shift by b mod the lane width: FUNC 0 left, 1 logical right, 2 arithmetic right. -/
def vshiftLane (func wd a b : Nat) : Nat :=
  let n := b % wd
  if func = 0 then (a <<< n) % 2 ^ wd
  else if func = 1 then a >>> n
  else wrapInt wd (sext wd a / 2 ^ n)

/-- Compare: FUNC 0 eq, 1 ne, 2 lt, 3 le, 4 gt, 5 ge (R300, R301). -/
def vcmpLane (ty func a b : Nat) : Bool :=
  let x := vVal ty a
  let y := vVal ty b
  if fvIsNan x || fvIsNan y then decide (func = 1)
  else
    let lt := fvLt x y
    let gt := fvLt y x
    match func with
    | 0 => !lt && !gt
    | 1 => lt || gt
    | 2 => lt
    | 3 => !gt
    | 4 => gt
    | _ => !lt

/-- A binary lane stroke. -/
def binEffect (g : Nat → Nat → Nat → Nat) (k : Nat) (w : StrokeWord) (s : State) : Option StrokeOut :=
  let f := vFields w
  some { s := laneOp k f (srcAB f) (fun i => g f.ty (vA s k f i) (vB s k f i)) s }
/-- A unary lane stroke. -/
def unEffect (g : Nat → Nat → Nat) (k : Nat) (w : StrokeWord) (s : State) : Option StrokeOut :=
  let f := vFields w
  some { s := laneOp k f (srcA f) (fun i => g f.ty (vA s k f i)) s }
def vfmaEffect (k : Nat) (w : StrokeWord) (s : State) : Option StrokeOut :=
  let f := vFields w
  some { s := laneOp k f (f.vc :: srcAB f) (fun i => vfmaLane f.ty (vA s k f i) (vB s k f i) (vC s k f i)) s }
def vshiftEffect (k : Nat) (w : StrokeWord) (s : State) : Option StrokeOut :=
  let f := vFields w
  some { s := laneOp k f (srcAB f) (fun i => vshiftLane f.func (laneBits f.ty) (vA s k f i) (vB s k f i)) s }

/-- VCMP writes a mask: bits of lanes, cleared where the lane is disabled. In a 32-bit view the spec states no value for bits
64 to 127. DESIGN CHOICE (log 21): they are a free function of the bits that it states, as R6 lets no result depend on what else the device does. -/
def vcmpEffect (k : Nat) (w : StrokeWord) (s : State) : Option StrokeOut :=
  let f := vFields w
  let l := laneCount f.ty
  let low := ((List.range l).map (fun i =>
    b2n (vOn s k f i && vcmpLane f.ty f.func (vA s k f i) (vB s k f i)) * 2 ^ i)).sum
  let high := if l = 64 then 2 ^ 64 * (Config.maskHigh low).toNat else 0
  let tag := (List.range 4).any (fun q => (srcAB f).any (fun r => vTag s k r q)) || maskTag s k f.mask
  some { s := setMask k (f.vd % 8) (BitVec.ofNat 128 (low + high)) tag s }

/-- VSEL: every lane, a where the mask bit is 1, else b. -/
def vselEffect (k : Nat) (w : StrokeWord) (s : State) : Option StrokeOut :=
  let f := vFields w
  let tags := laneTags s k f (laneBits f.ty) (srcAB f) (fun _ => true)
  some { s := vWrite k f.vd (laneBits f.ty) (fun i => some (if vOn s k f i then vA s k f i else vB s k f i)) tags s }

/-- VROT (R304): pairs of lanes, widened to binary32, rounded to TYPE at the end. -/
def vrotLane (ty : Nat) (a b : Nat → Nat) (i : Nat) : Nat :=
  let up := fun x => enc32 (vVal ty x)
  let j := i / 2 * 2
  let x0 := up (a j)
  let x1 := up (a (j + 1))
  let c := up (b j)
  let n := up (b (j + 1))
  let y := if i % 2 = 0 then f32sub (f32mul x0 c) (f32mul x1 n) else f32add (f32mul x0 n) (f32mul x1 c)
  fpEnc (vFmt ty) .rne false (dec32 y)
def vrotEffect (k : Nat) (w : StrokeWord) (s : State) : Option StrokeOut :=
  let f := vFields w
  some { s := laneOp k f (srcAB f) (vrotLane f.ty (vA s k f) (vB s k f)) s }

/-! ### Keys and random lanes (R309 to R313) -/

def setKey (k i : Nat) (v : BitVec 64) (s : State) : State :=
  modV k (fun r => { r with ks := kvPut (fun _ => 0#64) r.ks i v })
    s
def setCb (k : Nat) (v : BitVec 64) (s : State) : State := modV k (fun r => { r with cb := v }) s
/-- CB advances with ADV. -/
def advance (k : Nat) (f : VFields) (n : Nat) (s : State) : State :=
  if f.adv then setCb k ((getV s k).cb + BitVec.ofNat 64 n) s else s
/-- Element i's 64 bits. -/
def draw (s : State) (k : Nat) (f : VFields) (i : Nat) : BitVec 64 := rgen (vKey s k f.key) ((getV s k).cb + BitVec.ofNat 64 i)

/-- VRGEN: every enabled 32-bit lane takes bits [31:0] of its draw. -/
def vrgenEffect (k : Nat) (w : StrokeWord) (s : State) : Option StrokeOut :=
  let f := { vFields w with ty := 0 }
  some { s := advance k f 64 (laneOp k f [] (fun i => (draw s k f i).toNat % 2 ^ 32) s) }

/-- VCVT (R302, R311, R312). A lane of an 8-bit view that a mask has no bit for is disabled unless the mask is VM0
(DESIGN CHOICE, log 52). -/
def vcvtEffect (k : Nat) (w : StrokeWord) (s : State) : Option StrokeOut :=
  let f := vFields w
  let dst := f.imm % 8
  let p := f.imm / 16 % 4
  let ws := laneBits f.ty
  let wd := laneBits dst
  let n := if ws = 32 ∨ wd = 32 then 64 else 128
  let s0 := if ws < wd then p * n else 0
  let d0 := if wd < ws then p * n else 0
  let src := vx s k f.va
  let on := fun j => decide (f.mask = 0) || (decide (j < 128) && vOn s k f j)
  let mode := fun i => if f.rmode = 1 then RMode.rtz else if f.rmode = 2 then RMode.sr ((draw s k f i).toNat % 2 ^ 32) else .rne
  let isElem := fun j => decide (d0 ≤ j ∧ j < d0 + n)
  let vals := fun j =>
    if isElem j && on j then some (vEnc dst (mode (j - d0)) f.sat (vVal f.ty (lane src ws (s0 + (j - d0))))) else none
  let tags := (List.range 4).map (fun q =>
    let js := (List.range (512 / wd)).map (fun i => q * (512 / wd) + i)
    let hit := js.any isElem
    (hit && maskTag s k f.mask) || js.any (fun j => isElem j && vTag s k f.va (quarterOf ws (s0 + (j - d0)))) ||
      (js.any (fun j => !(isElem j && on j)) && vTag s k f.vd q))
  some { s := advance k f n (vWrite k f.vd wd vals tags s) }

/-! ### Transcendentals (R307) -/

/-- A VXU stroke: FUNC[0] subtracts b first, in binary32. -/
def vxuEffect (g : Nat → Nat) (k : Nat) (w : StrokeWord) (s : State) : Option StrokeOut :=
  let f := vFields w
  let pre := decide (f.func % 2 = 1)
  let up := fun x => enc32 (vVal f.ty x)
  let one := fun i =>
    let x := up (vA s k f i)
    let y := g (if pre then f32sub x (up (vB s k f i)) else x)
    if f.ty = 0 then y else fpEnc (vFmt f.ty) .rne false (dec32 y)
  some { s := laneOp k f (if pre then srcAB f else srcA f) one s }

/-! ### Cross-lane strokes (R303, Table 7.5) -/

/-- One level of a pairwise tree. -/
def treeLevel (op : Nat → Nat → Nat) : List Nat → List Nat
  | a :: b :: r => op a b :: treeLevel op r
  | l => l
/-- The value of a pairwise tree over up to 128 values. -/
def tree (op : Nat → Nat → Nat) (l : List Nat) : Nat := nth 0 (iter 7 (fun _ x => treeLevel op x) l) 0

/-- A reduction: its operation on binary32 values, on INT32 values, and what a disabled lane enters as. -/
def reduceEffect (fop iop : Nat → Nat → Nat) (fid iid : Nat) (k : Nat) (w : StrokeWord) (s : State) : Option StrokeOut :=
  let f := vFields w
  let fl := vFloat f.ty
  let up := fun x => if fl then enc32 (vVal f.ty x) else wrapInt 32 (sext (laneBits f.ty) x)
  let l := (List.range (laneCount f.ty)).map (fun i => if vOn s k f i then up (vA s k f i) else if fl then fid else iid)
  let v := tree (if fl then fop else iop) l
  let every := decide (f.func % 2 = 1)
  let src := (List.range 4).any (fun q => vTag s k f.va q)
  let tags := (List.range 4).map (fun q => maskTag s k f.mask || ((every || decide (q = 0)) && src))
  some { s := vWrite k f.vd 32 (fun i => some (if every ∨ i = 0 then v else 0)) tags s }

def vrsumEffect : Nat → StrokeWord → State → Option StrokeOut :=
  reduceEffect f32add (fun x y => (x + y) % 2 ^ 32) 0x80000000 0
def vrmaxEffect : Nat → StrokeWord → State → Option StrokeOut := reduceEffect (vmaxLane 0) (vmaxLane 3) 0xFF800000 0x80000000
def vrminEffect : Nat → StrokeWord → State → Option StrokeOut := reduceEffect (vminLane 0) (vminLane 3) 0x7F800000 0x7FFFFFFF

/-- VPERM: lane i takes lane (b lane i mod L) of a; the lane named contributes, and so does b. -/
def vpermEffect (k : Nat) (w : StrokeWord) (s : State) : Option StrokeOut :=
  let f := vFields w
  let wd := laneBits f.ty
  let l := laneCount f.ty
  let from_ := fun i => vB s k f i % l
  let base := laneTags s k f wd (if f.bimm then [] else [f.vb]) (vOn s k f)
  let tags := (List.range 4).map (fun q =>
    nth false base q || (List.range (l / 4)).any (fun i => vTag s k f.va (quarterOf wd (from_ (q * (l / 4) + i)))))
  some { s := vWrite k f.vd wd (fun i => if vOn s k f i then some (vA s k f (from_ i)) else none) tags s }

/-- VBCAST: every lane takes lane IMM[6:0] mod L of a. -/
def vbcastEffect (k : Nat) (w : StrokeWord) (s : State) : Option StrokeOut :=
  let f := vFields w
  let wd := laneBits f.ty
  let j := f.imm % 128 % laneCount f.ty
  let tag := maskTag s k f.mask || vTag s k f.va (quarterOf wd j)
  some { s := vWrite k f.vd wd (fun _ => some (vA s k f j)) (List.replicate 4 tag) s }

/-! ### Memory strokes (R305, R306, R754, R755) -/

/-- The address of a memory stroke, and whether its base is tagged (R229). -/
def vAddr (s : State) (k : Nat) (m : VMem) : Nat := addrOf s k m.addr
def vAddrTag (s : State) (k : Nat) (m : VMem) : Bool := getAbTag s k (m.addr % 8)
/-- Is word i of the data moved enabled (R755)? -/
def wordOn (s : State) (k : Nat) (m : VMem) (i : Nat) : Bool := (vMask s k m.mask).getLsbD i

/-- A bus error of a whole stroke. -/
def vBusError (k a : Nat) (s : State) : State := accessError (accOf s k) a s

/-- Load words that are enabled into quarters 0 to LEN from tagged bytes. -/
def vLoad (k : Nat) (m : VMem) (l : List TByte) (tag : Bool) (s : State) : State :=
  let words := (List.range (16 * (m.len + 1))).map (fun i => field (tBytes l) (4 * i) 4)
  let tags := (List.range 4).map (fun q =>
    if q ≤ m.len then
      tBlot ((l.drop (64 * q)).take 64) || tag || maskTag s k m.mask ||
        ((List.range 16).any (fun i => !wordOn s k m (16 * q + i)) && vTag s k m.vreg q)
    else vTag s k m.vreg q)
  vWrite k m.vreg 32 (fun i => if i < 16 * (m.len + 1) ∧ wordOn s k m i then some (nth 0 words i) else none) tags s

def vldEffect (k : Nat) (w : StrokeWord) (s : State) : Option StrokeOut :=
  let m := vMem w
  let n := 64 * (m.len + 1)
  if m.chan then
    (takeBytes (noCluster k) (m.addr % 8) n s).map (fun x => { s := vLoad k m x.1 false x.2 })
  else
    let a := vAddr s k m
    if a % 64 ≠ 0 then
      some { s := vLoad k m (List.replicate n (0#8, true)) false (vBusError k a s), busErr := true }
    else
      let r := coreRead k a n (vAddrTag s k m) s
      some { s := vLoad k m r.data false r.s, busErr := !r.ok }

/-- The bytes of a register. -/
def regBytes (v : VWord) : List Byte := (List.range 256).map (fun i => BitVec.ofNat 8 (lane v 8 i))

/-- The granule that quarter q stores, with none for the bytes of disabled words. -/
def vstGran (s : State) (k : Nat) (m : VMem) (q : Nat) : List (Option Byte) :=
  let b := regBytes (vx s k m.vreg)
  (List.range 64).map (fun j => if wordOn s k m (16 * q + j / 4) then some (nth 0#8 b (64 * q + j)) else none)

/-- A plain store. -/
def vstStore (k : Nat) (m : VMem) (a : Nat) (s : State) : Wrote :=
  (List.range (m.len + 1)).foldl (fun w q =>
    let acc := accOf w.s k
    let blot := vTag s k m.vreg q || maskTag s k m.mask || vAddrTag s k m || writesBlotted w.s k
    let g := vstGran s k m q
    let w := writeGran acc (a + 64 * q) g blot w
    if g.all (fun b => b.isNone) then w else { w with s := noteSpan k acc true 64 (a + 64 * q) 64 (logGran k acc (givenBytes g) (a + 64 * q) w.s) }) (.start s)

/-- Bank atomics, granule by granule; AOP 2 and 4 return the prior words (R306). -/
def vstAtomic (k : Nat) (m : VMem) (a : Nat) (s : State) : Wrote :=
  let ret := decide (m.aop = 2 ∨ m.aop = 4)
  (List.range (m.len + 1)).foldl (fun w q =>
    let words := (List.range 16).map (fun i =>
      if wordOn s k m (16 * q + i) then some (BitVec.ofNat 32 (lane (vx s k m.vreg) 32 (16 * q + i))) else none)
    if words.all (fun x => x.isNone) then w
    else
      let o := coreAtomic k (a + 64 * q) m.aop words (vTag s k m.vreg q || maskTag s k m.mask || vAddrTag s k m) w
      if !ret then o.w
      else
        let tags := (List.range 4).map (fun p =>
          if p = q then tBlot o.prior || vAddrTag s k m || maskTag s k m.mask || (words.any (fun x => x.isNone) && vTag s k m.vreg q)
          else vTag o.w.s k m.vreg p)
        { o.w with s := vWrite k m.vreg 32 (fun i =>
            if i / 16 = q ∧ wordOn s k m i then some (field (tBytes o.prior) (4 * (i % 16)) 4) else none) tags o.w.s }) (.start s)

/-- AOP 2 and 4 on an address that is a bus error return zeros, tagged (R235). -/
def vstLost (k : Nat) (m : VMem) (s : State) : State :=
  if m.aop = 2 ∨ m.aop = 4 then vLoad k m (List.replicate (64 * (m.len + 1)) (0#8, true)) false s else s

def vstEffect (k : Nat) (w : StrokeWord) (s : State) : Option StrokeOut :=
  let m := vMem w
  if m.chan then
    if m.aop ≠ 0 then some { s := vstLost k m (vBusError k m.addr s), busErr := true }
    else
      let l := (List.range (m.len + 1)).flatMap (fun q =>
        (vstGran s k m q).map (fun b => (b.getD 0#8, vTag s k m.vreg q || maskTag s k m.mask)))
      (pushBytes k (m.addr % 8) (sRelay w) l s).map (fun s => { s := s, chan := some (m.addr % 8) })
  else
    let a := vAddr s k m
    if a % 64 ≠ 0 then some { s := vstLost k m (vBusError k a s), busErr := true }
    else
      let x := if m.aop = 0 then vstStore k m a s else vstAtomic k m a s
      some { s := x.s, busErr := !x.ok, blots := x.blots }

/-- The 64 indices of a gather or scatter with their tags, or a stall of the index channel (R305). -/
def vIndices (k : Nat) (m : VMem) (s : State) : Option (List (Nat × Bool) × State) :=
  if m.idxChan then
    (takeBytes (noCluster k) m.ichan 256 s).map (fun x =>
      ((List.range 64).map (fun i =>
        let b := (x.1.drop (4 * i)).take 4
        (leNat (tBytes b), tBlot b)), x.2))
  else some ((List.range 64).map (fun i => (lane (vx s k m.vidx) 32 i, vTag s k m.vidx (i / 16))), s)

/-- One element read by a gather. -/
structure GathOut where
  vals : List (Option (Nat × Bool)) := []
  ok : Bool := true
  s : State

def vgathEffect (k : Nat) (w : StrokeWord) (s : State) : Option StrokeOut :=
  let m := vMem w
  (vIndices k m s).map (fun x =>
    let idx := x.1
    let g := (List.range 64).foldl (fun (g : GathOut) i =>
      if !wordOn s k m i then { g with vals := g.vals ++ [none] }
      else
        let a := vAddr s k m + (nth (0, true) idx i).1 * m.esize
        if a % m.esize ≠ 0 then { vals := g.vals ++ [some (0, true)], ok := false, s := vBusError k a g.s }
        else
          let r := coreRead k a m.esize (vAddrTag s k m) g.s
          { vals := g.vals ++ [some (leNat (tBytes r.data), tBlot r.data)], ok := g.ok && r.ok, s := r.s }) { s := x.2 }
    let wd := 8 * m.esize
    let tags := (List.range 4).map (fun q =>
      let is := (List.range 64).filter (fun i => quarterOf wd i = q)
      maskTag s k m.mask || is.any (fun i => (nth (0, true) idx i).2 || vAddrTag s k m) ||
        is.any (fun i => ((nth none g.vals i).map (fun v => v.2)).getD (vTag s k m.vreg q)))
    { s := vWrite k m.vreg wd (fun i => if i < 64 then (nth none g.vals i).map (fun v => v.1) else some 0) tags g.s,
      busErr := !g.ok })

def vscatEffect (k : Nat) (w : StrokeWord) (s : State) : Option StrokeOut :=
  let m := vMem w
  let c := noCluster k
  (vIndices k m s).map (fun x =>
    let idx := x.1
    let wd := 8 * m.esize
    let addr := fun i => vAddr s k m + (nth (0, true) idx i).1 * m.esize
    let on := (List.range 64).filter (fun i => wordOn s k m i)
    let ok := fun i => decide (addr i % m.esize = 0) && (reach x.2 (accOf x.2 k) true (addr i / 64 * 64) (spanBytes (addr i) m.esize (addr i / 64 * 64))).isSome
    let dup := (on.filter (fun i => ok i && on.any (fun j => decide (i < j ∧ addr i = addr j)))).length
    let o := on.foldl (fun (w : Wrote) i =>
      if addr i % m.esize ≠ 0 then { w with s := vBusError k (addr i) w.s, ok := false }
      else
        let blot := vTag s k m.vreg (quarterOf wd i) || (nth (0, true) idx i).2 || maskTag s k m.mask || vAddrTag s k m
        coreWrite k (addr i) (leBytes m.esize (lane (vx s k m.vreg) wd i)) blot w) (.start x.2)
    { s := addReg (vcBlk c (physCore s c 1 (noCore k)) + 8) dup o.s, busErr := !o.ok, blots := o.blots })

/-! ### Setup strokes -/

/-- VSETB: as MSETB. -/
def vsetbEffect (k : Nat) (w : StrokeWord) (s : State) : Option StrokeOut :=
  let b := sf w 80 3
  let v := sf w 32 48
  some { s := if sb w 83 then setAb k b (getAb s k b + v) (getAbTag s k b) s else setAb k b v false s }

/-- The seed and step of a runner's function (R510). -/
def seedStep (s : State) (k : Nat) : BitVec 64 × BitVec 64 :=
  let f := getFn s (accOf s k).fn
  (BitVec.ofNat 64 f.seed, BitVec.ofNat 64 f.step)

/-- VSETK (R310, R511). -/
def vsetkEffect (k : Nat) (w : StrokeWord) (s : State) : Option StrokeOut :=
  let src := sf w 34 2
  let v := BitVec.ofNat 64 (sf w 64 64)
  let ss := seedStep s k
  let x := if src = 0 then v else if src = 1 then rgen (vKey s k (sf w 36 2)) v
    else rgen (rgen ss.1 ss.2) (BitVec.ofNat 64 (v.toNat % 2 ^ 32))
  some { s := if src = 3 then s else setKey k (sf w 32 2) x s }

/-- VSETC. -/
def vsetcEffect (k : Nat) (w : StrokeWord) (s : State) : Option StrokeOut :=
  let v := BitVec.ofNat 64 (sf w 64 64)
  some { s := setCb k (if sb w 32 then (getV s k).cb + v else v) s }

/-- VSETM: bits IMM[7:0] to IMM[7:0] + IMM[15:8] − 1, clipped at 127. -/
def vsetmEffect (k : Nat) (w : StrokeWord) (s : State) : Option StrokeOut :=
  let f := vFields w
  let lo := f.imm % 256
  let n := f.imm / 256 % 256
  let v := ((List.range 128).map (fun i => b2n (decide (lo ≤ i ∧ i < lo + n)) * 2 ^ i)).sum
  some { s := setMask k (f.vd % 8) (BitVec.ofNat 128 v) false s }

/-! ### Optimizer strokes (12.2, 12.3) -/

/-- What an update gives for one lane, rounded to BF16: weight, first moment or momentum, second moment. -/
structure OptOut where
  w : Nat
  m : Nat
  v : Nat
  deriving DecidableEq, Repr

/-- VADAMW on one lane (R521): hyperparameters by lane of VH. -/
def adamw (h : Nat → Nat) (g w m v : Nat) : OptOut :=
  let g := f32mul g (h 9)
  let m1 := f32add (f32mul (h 1) m) (f32mul (h 2) g)
  let v1 := f32add (f32mul (h 3) v) (f32mul (h 4) (f32mul g g))
  let mh := f32mul m1 (h 7)
  let vh := f32mul v1 (h 8)
  let u := f32mul mh (vrsq (f32add vh (h 5)))
  { w := f32sub w (f32mul (h 0) (f32add u (f32mul (h 6) w))), m := m1, v := v1 }

/-- VSGDM on one lane (R522). -/
def sgdm (nesterov : Bool) (h : Nat → Nat) (g w m : Nat) : OptOut :=
  let g := f32mul g (h 9)
  let g := f32add g (f32mul (h 6) w)
  let m1 := f32add (f32mul (h 1) m) (f32mul (h 2) g)
  let d := if nesterov then f32add g (f32mul (h 1) m1) else m1
  { w := f32sub w (f32mul (h 0) d), m := m1, v := 0 }

/-- bf16(x, U) (R523). -/
def toBf16 (rn : Bool) (x u : Nat) : Nat := fpEnc fmtBF16 (if rn then .rne else .sr u) false (dec32 x)

/-- An optimizer stroke (R512, R519 to R524). -/
def optEffect (adam : Bool) (k : Nat) (w : StrokeWord) (s : State) : Option StrokeOut :=
  let f := vFields w
  let vh := f.imm % 64
  let p := f.imm / 64 % 2
  let rn := f.imm.testBit 7
  let stride := if f.imm / 256 = 0 then 32 else f.imm / 256
  let hy := fun i => lane (vx s k vh) 32 i
  let wide := fun r i => lane (vx s k r) 16 (64 * p + i) <<< 16
  let out := (List.range 64).map (fun i =>
    let g := lane (vx s k f.va) 32 i
    let o := if adam then adamw hy g (wide f.vd i) (wide f.vb i) (wide f.vc i)
      else sgdm (f.func % 2 == 1) hy g (wide f.vd i) (wide f.vb i)
    let c := (getV s k).cb + BitVec.ofNat 64 (i % 32 + i / 32 * stride)
    let r := (rgen (vKey s k f.key) c).toNat
    let uv := (rgen (vKey s k f.key) (c ^^^ 0x8000000000000000#64)).toNat % 2 ^ 32
    ({ w := toBf16 rn o.w (r % 2 ^ 32), m := toBf16 rn o.m (r / 2 ^ 32), v := toBf16 rn o.v uv } : OptOut))
  let on := fun i => vOn s k f i
  let common := fun h => vTag s k f.vb (2 * p + h) || (adam && vTag s k f.vc (2 * p + h)) || vTag s k f.va (2 * h) ||
    vTag s k f.va (2 * h + 1) || vTag s k vh 0 || maskTag s k f.mask
  let put := fun (r : Nat) (g : OptOut → Nat) (t : State) =>
    vWrite k r 16 (fun j => if 64 * p ≤ j ∧ j < 64 * p + 64 ∧ on (j - 64 * p) then (out[j - 64 * p]?).map g else none)
      ((List.range 4).map (fun q => vTag s k r q || (decide (q / 2 = p) && common (q % 2)))) t
  let t := put f.vb (fun o => o.m) (put f.vd (fun o => o.w) s)
  let t := if adam then put f.vc (fun o => o.v) t else t
  some { s := advance k f (2 * stride) t }

end Sys2Proof.Machine
end

