-- ==== Sys2Proof/Machine/Nmu.lean ====
section
/-!
DEFINITION. The near-memory units (chapter 10): launches, program words, page latches and their background transfers, bank modes,
completions, and failed units.
-/
namespace Sys2Proof.Machine

/-! ### Word fields (Table 10.4) -/

def nOpc (w : DWord) : Nat := bits w.toNat 58 6
def nVd (w : DWord) : Nat := bits w.toNat 52 6
def nBody (w : DWord) : Nat := bits w.toNat 50 8
def nVa (w : DWord) : Nat := bits w.toNat 46 6
def nVb (w : DWord) : Nat := bits w.toNat 40 6
def nLat (w : DWord) : Bool := bit w.toNat 39
def nLsel (w : DWord) : Bool := bit w.toNat 38
def nFmt (w : DWord) : Nat := bits w.toNat 36 2
def nLreg (w : DWord) : Bool := bit w.toNat 35
def nBcast (w : DWord) : Bool := bit w.toNat 34
def nLane (w : DWord) : Nat := bits w.toNat 29 5
def nSa (w : DWord) : Nat := bits w.toNat 25 4
def nSd (w : DWord) : Nat := bits w.toNat 21 4
def nImm (w : DWord) : Nat := bits w.toNat 0 16

/-! ### Registers of a run -/

/-- A vector register of 32 binary32 lanes, its lanes, and its tag. -/
abbrev NVec := BitVec 1024
def nvGet (v : NVec) (i : Nat) : Nat := bits v.toNat (32 * i) 32
def nvOf (l : List Nat) : NVec := BitVec.ofNat 1024 (l.foldr (fun x acc => x % 2 ^ 32 + 2 ^ 32 * acc) 0)
def nvLanes (v : NVec) : List Nat := (List.range 32).map (nvGet v)
def NRun.vrOf (r : NRun) (i : Nat) : NVec := kvGet (fun _ => 0#1024) r.vr i
def NRun.vrTag (r : NRun) (i : Nat) : Bool := kvGet (fun _ => false) r.vtag i
def NRun.putVr (r : NRun) (i : Nat) (v : NVec) (tag : Bool) : NRun :=
  { r with vr := kvPut (fun _ => 0#1024) r.vr i v, vtag := kvPut (fun _ => false) r.vtag i tag }
/-- A scalar register; SR15 reads 0 and ignores writes (Table 10.1). -/
def NRun.srOf (r : NRun) (i : Nat) : Nat := if i = 15 then 0 else (kvGet (fun _ => 0#32) r.sr i).toNat
def NRun.srTag (r : NRun) (i : Nat) : Bool := if i = 15 then false else kvGet (fun _ => false) r.stag i
def NRun.putSr (r : NRun) (i : Nat) (v : Nat) (tag : Bool) : NRun :=
  if i = 15 then r
  else { r with sr := kvPut (fun _ => 0#32) r.sr i (BitVec.ofNat 32 v), stag := kvPut (fun _ => false) r.stag i tag }
/-- A latch by LSEL. -/
def NRun.latch (r : NRun) (l : Bool) : Latch := if l then r.latch1 else r.latch0
def NRun.putLatch (r : NRun) (l : Bool) (x : Latch) : NRun := if l then { r with latch1 := x } else { r with latch0 := x }

/-- The lane that LANE or LREG names, and the tag of the register that names it. -/
def NRun.laneNo (r : NRun) (w : DWord) : Nat := if nLreg w then r.srOf (nSd w) % 32 else nLane w
def NRun.laneTag (r : NRun) (w : DWord) : Bool := nLreg w && r.srTag (nSd w)

/-! ### Launches (R429, R450 to R454) -/

/-- A launch starts from a clean state (R429). -/
def startRun (st u : Nat) (l : NLaunch) : NRun :=
  let r : NRun := { launch := l }
  let r := (List.range 14).foldl (fun r i => r.putSr i (nth 0 l.params i) l.pblot) r
  r.putSr 14 ((4 + st) * 256 + u) false

/-- Is the result buffer of the next start free (R454)? -/
def rbFree (x : Nmu) : Bool := !(x.done.any (fun d => d.rb = x.rb))

/-- Start a launch on an idle unit. -/
def startLaunch (st u : Nat) (l : NLaunch) (s : State) : State :=
  addReg (nmuArea st u + 4) 1 (modNmu st u (fun x => { x with run := some (startRun st u l) }) s)

/-- Start the queued launch where the unit is idle and its result buffer free (R452, R454). -/
def startQueued (st u : Nat) (s : State) : State :=
  let x := getNmu s st u
  match x.queued with
  | none => s
  | some l =>
    if x.run.isSome || !rbFree x then s
    else startLaunch st u l (modNmu st u (fun x => { x with queued := none }) s)

/-- A completion is formed and waits to be taken. -/
def putDone (st u : Nat) (d : NDone) (s : State) : State :=
  modNmu st u (fun x => { x with done := x.done ++ [d], last := doneWords d }) s

/-- The completion of a launch that did not run: NMU_BUSY, UNIT_FAILED or PROGRAM_REJECTED. A failed unit's has every tag set. -/
def plainDone (l : NLaunch) (status : Nat) : NDone :=
  { fn := l.fn, rb := 2, tag := l.tag, status := status, slots := [], slotBlots := [], res0 := 0#32, res1 := 0#32,
    resBlot := if status = 6 then 3 else 0, wblots := 0 }

/-- NMU_LAUNCH: a unit takes an arriving launch (R451, R452). -/
def execNmuLaunch (st : Fin 4) (u : Fin 256) (s : State) : Out :=
  let s := startQueued st u s
  let x := getNmu s st u
  .next (match x.arriving with
    | [] => s
    | l :: rest =>
      let s := modNmu st u (fun y => { y with arriving := rest }) s
      if nmuBad s st u then putDone st u (plainDone l 6) s
      else if x.queued.isSome then putDone st u (plainDone l 7) (addReg (nmuArea st u + 8) 1 s)
      else if x.run.isSome || !rbFree x then modNmu st u (fun y => { y with queued := some l }) s
      else startLaunch st u l s)

/-! ### Failed units (R460, R461) -/

/-- Declare a unit failed: its register, a soft fuse, a record, and its pool pages withdrawn (R471). -/
def failUnit (st u source : Nat) (s : State) : State :=
  if nmuBad s st u then s
  else
    let m := 4 + st
    let s := setB (nmuBlk st + 0x100 + 4 * (u / 32)) (u % 32) true s
    let s := modHub (fun h => { h with nmusFailed := h.nmusFailed + 1 }) (softFuse 5 source (2 ^ 45 * m + u) s)
    withdrawAll (fun l => decide (l.stack = m ∧ l.nmu = u)) (report 0x209 (oStack m 1 u) fnDevice 0 s)

/-- A FAULT or a parity error of a unit is a counted event (Table 15.5). -/
def unitEvent (st u : Nat) (s : State) : State :=
  let r := noteEvent (oStack (4 + st) 1 u) s
  if r.1 then failUnit st u 1 r.2 else r.2

/-! ### Bank modes (R442 to R444) -/

/-- A bank of the pair enters NMU mode or leaves it. -/
def enterBank (st u : Nat) (odd : Bool) (s : State) : State :=
  match (getNmu s st u).run with
  | none => s
  | some r =>
    if (if odd then r.odd else r.even) then s
    else
      let r := if odd then { r with odd := true } else { r with even := true }
      addReg (nmuBlk st + 0x10) 1 (modNmu st u (fun x => { x with run := some r }) s)
def bankNo (u : Nat) (odd : Bool) : Nat := 2 * (u % 8) + b2n odd
def leaveBank (st u : Nat) (odd : Bool) (s : State) : State :=
  match (getNmu s st u).run with
  | none => s
  | some r =>
    if !(if odd then r.odd else r.even) then s
    else
      let r := if odd then { r with odd := false } else { r with even := false }
      let s := addReg (nmuBlk st + 0x10) 1 (modNmu st u (fun x => { x with run := some r }) s)
      leaveNmuMode (4 + st) (u / 8) (bankNo u odd) s

/-! ### End of a launch (R455) -/

/-- The completion of a run: status by the first of FAULT, BUS_ERROR, BLOTTED and OK that applies. -/
def runDone (r : NRun) (rb : Nat) (fault : Bool) : NDone :=
  let k := r.slots.filter (fun e => kvGet (fun _ => false) r.written e.1)
  let zeros := ((List.range 4).filter (fun i => kvGet (fun _ => false) r.written i && (kvFind r.slots i).isNone)).map (fun i => (i, 0#1024))
  let slots := (List.range 4).filterMap (fun i => ((k ++ zeros).find? (fun e => e.1 = i)))
  let blots := slots.map (fun e => (e.1, fault || kvGet (fun _ => false) r.slotTag e.1))
  let rb0 := fault || r.res0Tag
  let rb1 := fault || r.res1Tag
  let blotted := blots.any (fun e => e.2) || rb0 || rb1 || decide (0 < r.wblots)
  { fn := r.launch.fn, rb := rb, tag := r.launch.tag,
    status := if fault then 3 else if r.busErr then 2 else if blotted then 1 else 0,
    slots := slots, slotBlots := blots, res0 := r.res0, res1 := r.res1, resBlot := b2n rb0 + 2 * b2n rb1, wblots := r.wblots }

/-- A run ends: banks leave NMU mode, its completion is formed unless its function's reset discards it (R457), and the queued launch
may start. -/
def endRun (st u : Nat) (fault : Bool) (s : State) : State :=
  let s := leaveBank st u true (leaveBank st u false s)
  match (getNmu s st u).run with
  | none => s
  | some r =>
    let rb := (getNmu s st u).rb
    let s := modNmu st u (fun x => { x with run := none, rb := 1 - x.rb }) s
    startQueued st u (if r.ended then s else putDone st u (runDone r rb fault) s)

/-- A double-bit error of the program store (R460): FAULT, its record, and the program's slots invalid. -/
def storeFault (st u : Nat) (r : NRun) (s : State) : State :=
  let s := report 0x207 (oStack (4 + st) 1 u) (launchFn r.launch.fn) r.launch.tag s
  let s := { s with atts := kvMod (fun _ => {}) s.atts (st / 2) (fun (a : Attention) =>
    { a with progs := a.progs.map (fun p => if p.sha = r.launch.prog then { p with valid := false } else p) }) }
  endRun st u true (unitEvent st u (addReg (nmuArea st u + 0xC) 1 s))

/-! ### Running a word (R435, R438) -/

/-- The word at a run's place. -/
def wordAt (s : State) (st : Nat) (r : NRun) : Option DWord :=
  ((progsOf s st).find? (fun p => p.sha = r.launch.prog)).bind (fun p => p.words[r.pc]?)

/-- Leave the loops whose last word has just run: a pass left returns to the first word. -/
def loopEnds : List NLoop → Nat → List NLoop × Nat
  | [], pc => ([], pc + 1)
  | l :: rest, pc =>
    if l.last = pc then
      if 1 < l.left then ({ l with left := l.left - 1 } :: rest, l.first) else loopEnds rest pc
    else (l :: rest, pc + 1)
/-- Go on after the word at a place. -/
def NRun.advance (r : NRun) (pc : Nat) : NRun :=
  let x := loopEnds r.loops pc
  { r with loops := x.1, pc := x.2 }

/-- Does a word use a latch (R438)? -/
def usesLatch (w : DWord) : Bool :=
  [0x10, 0x11, 0x12, 0x13, 0x15].contains (nOpc w) || (nLat w && decide (0x20 ≤ nOpc w ∧ nOpc w ≤ 0x26))

/-- The vector registers that a word reads. -/
def vrRead (w : DWord) : List Nat :=
  let o := nOpc w
  (if ([0x15, 0x16, 0x17, 0x30, 0x31, 0x32] : List Nat).contains o || decide (0x20 ≤ o ∧ o ≤ 0x26) then [nVa w] else []) ++
  (if (decide (0x20 ≤ o ∧ o ≤ 0x26) && !nLat w) || decide (o = 0x32) then [nVb w] else []) ++
  (if ([0x23, 0x25, 0x28] : List Nat).contains o || (decide (o = 0x30 ∨ o = 0x31) && !nBcast w) then [nVd w] else [])
/-- Does a word act on a latch operand at SR[SA] + IMM? -/
def latchWord (w : DWord) : Bool :=
  decide (nOpc w = 0x13 ∨ nOpc w = 0x15) || (nLat w && decide (0x20 ≤ nOpc w ∧ nOpc w ≤ 0x26))
/-- The scalar registers that a word reads. -/
def srRead (w : DWord) : List Nat :=
  let o := nOpc w
  (if ([0x08, 0x09, 0x0A, 0x10, 0x11, 0x28] : List Nat).contains o || decide (o = 0x03 ∧ nImm w = 0) || latchWord w then [nSa w] else []) ++
  (if o = 0x09 then [nVb w % 16] else []) ++
  (if nLreg w && (([0x17, 0x25, 0x26, 0x32] : List Nat).contains o || (decide (o = 0x30 ∨ o = 0x31) && !nBcast w)) then [nSd w] else [])

/-- Is a register whose parity fails one that the word reads? END reads the results that it sends. -/
def parityRead (w : DWord) (n : Nat) : Bool :=
  if n < 64 then (vrRead w).contains n
  else if n < 79 then (srRead w).contains (n - 64)
  else decide (nOpc w = 0x01 ∧ 80 ≤ n ∧ n < 86)
/-- A parity error of a register that the word reads (R460): the value read is blotted. -/
def parityHit (st u : Nat) (w : DWord) (p : Option Nat) (s : State) : State :=
  match p, (getNmu s st u).run with
  | some n, some r =>
    if !parityRead w n then s
    else
      let r := if n < 64 then { r with vtag := kvPut (fun _ => false) r.vtag n true }
        else if n < 79 then { r with stag := kvPut (fun _ => false) r.stag (n - 64) true }
        else if n = 80 then { r with res0Tag := true }
        else if n = 81 then { r with res1Tag := true }
        else { r with slotTag := kvPut (fun _ => false) r.slotTag (n - 82) true }
      unitEvent st u (addReg (nmuArea st u + 0xC) 1 (modNmu st u (fun x => { x with run := some r }) s))
  | _, _ => s

/-- DCLK cycles of a word (Table 10.5). -/
def wordTime (opc : Nat) : Nat := if opc = 0x30 ∨ opc = 0x31 then 3 else if opc = 0x32 then 4 else 1
/-- Does a word need a compute slot? -/
def computeWord (opc : Nat) : Bool := decide (0x20 ≤ opc ∧ opc ≤ 0x28) || decide (0x30 ≤ opc ∧ opc ≤ 0x32)
/-- The counters of a word: cycles with a program running, waits for entry, and slots refused. -/
def countWord (opc st u : Nat) (e : NmuErr) (s : State) : State :=
  let s := addReg (nmuArea st u + 0x10) (max (wordTime opc) e.cycles) s
  let s := if 0x10 ≤ opc ∧ opc ≤ 0x12 then addReg (nmuBlk st + 4) e.entryWait s else s
  if computeWord opc then addReg (nmuBlk st + 0xC) e.denied s else s

/-- What a word does to the run, and to the state outside it. -/
abbrev NEffect := Nat → Nat → DWord → NRun → State → NRun × State

/-- Put the run back and go on to the next word. -/
def goOn (st u : Nat) (x : NRun × State) : State :=
  modNmu st u (fun y => { y with run := some (x.1.advance x.1.pc) }) x.2

/-- Run the next word of a unit, which must have this opcode: not while it waits for a latch or for the end of its transfers; a
program-store error of one bit is corrected and counted, of two bits ends the launch. -/
def runWord (opc : Nat) (st u : Nat) (e : NmuErr) (act : DWord → NRun → State → State) (s : State) : Out :=
  .next (match (getNmu s st u).run with
    | none => s
    | some r =>
      if r.ending then s
      else
        match wordAt s st r with
        | none => s
        | some w =>
          if nOpc w ≠ opc then s
          else if 2 ≤ e.store then storeFault st u r s
          else
            if stackLevel s (4 + st) = 4 ∧ computeWord opc = true then addReg (nmuBlk st + 0xC) 1 s
            else if usesLatch w && decide ((r.latch (nLsel w)).busy ≠ 0) then s
            else
              let s := if e.store = 1 then addReg (nmuArea st u + 0xC) 1 s else s
              let s := countWord opc st u e (parityHit st u w e.parity s)
              act w ((getNmu s st u).run.getD r) s)

/-- A word with an effect on its run. -/
def plainWord (opc : Nat) (eff : NEffect) (st u : Nat) (e : NmuErr) (s : State) : Out :=
  runWord opc st u e (fun w r s => goOn st u (eff st u w r s)) s

/-! ### Control and scalar words -/

def nopWord : NEffect := fun _ _ _ r s => (r, s)

/-- END: once every background transfer has finished. -/
def endWord (st u : Nat) (r : NRun) (s : State) : State :=
  if r.order.isEmpty then endRun st u false s else modNmu st u (fun x => { x with run := some { r with ending := true } }) s

/-- YIELD (R443, R457): the program of a function in reset ends here; a bank for which a request or a refresh waits leaves NMU mode, the
operands naming the banks for which one comes in the same cycle. -/
def yieldWord (st u : Nat) (even odd : Bool) (r : NRun) (s : State) : State :=
  let s := addReg (nmuArea st u + 0x14) 1 s
  if r.ended then endRun st u false s
  else
    let due := fun (o : Bool) => kvFind (getStack s (4 + st)).refreshing (u / 8 * 16 + bankNo u o) == some 0
    let asked := fun (o : Bool) => (List.range 69).any (fun src => !maskedSource s (4 + st) src &&
      (sourceQueue s (4 + st) (u / 8) src).any (fun q => decide (q.bank.val = bankNo u o)))
    let goE := r.even && (even || due false || asked false)
    let goO := r.odd && (odd || due true || asked true)
    let s := modNmu st u (fun x => { x with run := some (r.advance r.pc) }) s
    let s := if goE || goO then addReg (nmuBlk st + 0x14) 1 s else s
    let s := if goE then leaveBank st u false s else s
    if goO then leaveBank st u true s else s

/-- LOOP (R435, R459): IMM passes, or SR[SA] where IMM is 0; a blotted count runs no pass and sets the blot latch. -/
def loopWord (st u : Nat) (w : DWord) (r : NRun) (s : State) : State :=
  let reg := decide (nImm w = 0)
  let blot := reg && r.srTag (nSa w)
  let n := if !reg then nImm w else if blot then 0 else r.srOf (nSa w)
  let r := if blot then { r with blotLatch := true } else r
  let last := r.pc + nBody w
  let r := if n = 0 then r.advance last
    else { r with loops := { first := r.pc + 1, last := last, left := n } :: r.loops, pc := r.pc + 1 }
  modNmu st u (fun x => { x with run := some r }) s

def saddiWord : NEffect := fun _ _ w r s =>
  (r.putSr (nSd w) (r.srOf (nSa w) + wrapInt 32 (sext 16 (nImm w))) (r.srTag (nSa w)), s)
def saddWord : NEffect := fun _ _ w r s =>
  (r.putSr (nSd w) (r.srOf (nSa w) + r.srOf (nVb w % 16)) (r.srTag (nSa w) || r.srTag (nVb w % 16)), s)
def sshlWord : NEffect := fun _ _ w r s => (r.putSr (nSd w) (r.srOf (nSa w) * 2 ^ (nImm w % 32)) (r.srTag (nSa w)), s)

/-! ### Latches (R437 to R440) -/

/-- The place of a local address of a unit (R428): none beyond its banks. -/
def lamLoc (st u lam : Nat) : Option DramLoc :=
  if 0x0C000000 ≤ lam then none
  else
    let p := lam / 2 ^ 11 % 128
    some { stack := 4 + st, channel := u / 8, bank := bankNo u (decide (p % 2 = 1)), page := lam / 2 ^ 18 * 64 + p / 2,
           byte := lam % 2048 }

/-- Does a function own a PIM region (R440, R703)? -/
def ownsRegion (s : State) (f r : Nat) : Bool :=
  if f = fnHub then true
  else if f = 0 then !pieceTaken s 1 r
  else (extents s).any (fun e => decide (e.vi = f ∧ e.kind = 1 ∧ e.first ≤ r ∧ r < e.first + e.count))

/-- The logical page that a NOPEN, NCLR or NWB may use: none is a bus error (R440). -/
def lamPage (s : State) (st u f lam : Nat) : Option Nat :=
  if lam % 2048 ≠ 0 then none
  else
    match lamLoc st u lam with
    | none => none
    | some l =>
      if ownsRegion s f (lam / 2 ^ 18 / 4) && !lpiRetired s (4 + st) l.lpi then some l.lpi else none

/-- A bus error of a launch (R440, R634): recorded with the unit as its origin. -/
def nmuBusError (st u lam : Nat) (r : NRun) (s : State) : NRun × State :=
  ({ r with busErr := true }, report 0x20A (oStack (4 + st) 1 u) (launchFn r.launch.fn) lam s)

/-- The local address SR[SA] + IMM × 2,048 of a word, and its tag. -/
def lamOf (r : NRun) (w : DWord) : Nat := r.srOf (nSa w) + 2048 * nImm w
/-- A latch of zeros with all its granules blotted. -/
def blottedLatch (lam : Nat) : Latch := { valid := true, lam := lam, data := List.replicate 2048 0#8, blots := 2 ^ 32 - 1 }

/-- Can a bank enter NMU mode now: not while a refresh holds it (R442)? -/
def mayEnter (s : State) (st u lam : Nat) : Bool :=
  match lamLoc st u lam with
  | none => true
  | some l => !inRefresh s (4 + st) l.channel l.bank
/-- The bank of a local address: odd or even. -/
def lamOdd (lam : Nat) : Bool := decide (lam / 2 ^ 11 % 2 = 1)

/-- NOPEN: the latch receives a page in the background; an address that is a bus error fills it with blotted zeros. -/
def nopenWord (st u : Nat) (w : DWord) (r : NRun) (s : State) : State :=
  let lam := lamOf r w
  let tag := r.srTag (nSa w)
  match lamPage s st u r.launch.fn lam with
  | none =>
    let x := nmuBusError st u lam r s
    goOn st u (x.1.putLatch (nLsel w) (blottedLatch lam), x.2)
  | some _ =>
    if !mayEnter s st u lam then s
    else
      let r := r.putLatch (nLsel w) { forced := tag, lam := lam, busy := 1 }
      enterBank st u (lamOdd lam) (goOn st u ({ r with order := r.order ++ [b2n (nLsel w)] }, s))

/-- NCLR: the latch is zeros for a page, dirty. -/
def nclrWord (st u : Nat) (w : DWord) (r : NRun) (s : State) : State :=
  let lam := lamOf r w
  let tag := r.srTag (nSa w)
  match lamPage s st u r.launch.fn lam with
  | none =>
    let x := nmuBusError st u lam r s
    goOn st u (x.1.putLatch (nLsel w) {}, x.2)
  | some _ =>
    if !mayEnter s st u lam then s
    else
      let l : Latch := { valid := true, forced := tag, lam := lam, data := List.replicate 2048 0#8, dirty := true }
      enterBank st u (lamOdd lam) (goOn st u (r.putLatch (nLsel w) l, s))

/-- NWB: the latch goes back to its page in the background; a latch without a page is a bus error and writes nothing. -/
def nwbWord (st u : Nat) (w : DWord) (r : NRun) (s : State) : State :=
  let l := r.latch (nLsel w)
  match (if l.valid then lamPage s st u r.launch.fn l.lam else none) with
  | none => goOn st u (nmuBusError st u l.lam r s)
  | some _ =>
    if !mayEnter s st u l.lam then s
    else
      let r := r.putLatch (nLsel w) { l with busy := 2 }
      enterBank st u (lamOdd l.lam) (goOn st u ({ r with order := r.order ++ [b2n (nLsel w)] }, s))

/-- Bytes of a latch operand by FMT (R437). -/
def operandBytes (fmt : Nat) : Nat := if fmt = 0 then 64 else if fmt = 1 then 128 else 32
/-- An element widened to binary32 exactly (R436). -/
def widen (fmt x : Nat) : Nat :=
  if fmt = 0 then x % 2 ^ 16 * 2 ^ 16
  else if fmt = 1 then x % 2 ^ 32
  else if fmt = 2 then enc32 (fpDec fmtE4M3 (x % 256))
  else enc32 (fpDec fmtE5M2 (x % 256))

/-- A value with its blot tag, and whether forming it met a bus error. -/
structure NVal where
  v : NVec
  tag : Bool
  err : Bool := false

/-- The latch operand of a word (R437, R458): a misaligned one reads as zeros with its tag set; a latch that holds nothing reads as
free values (log 34). -/
def latchOperand (s : State) (r : NRun) (w : DWord) : NVal :=
  let l := r.latch (nLsel w)
  let n := operandBytes (nFmt w)
  let off := (r.srOf (nSa w) + nImm w) % 2048
  let tag := r.srTag (nSa w)
  if off % n ≠ 0 then { v := 0#1024, tag := true, err := true }
  else if l.data.isEmpty then { v := nvOf ((List.range 32).map (fun i => (Config.freeValue (s.frees * 64 + i)).toNat)), tag := tag }
  else
    let e := n / 32
    let blot := (List.range ((n + 63) / 64)).any (fun g => l.blots.testBit (off / 64 + g))
    { v := nvOf ((List.range 32).map (fun i => widen (nFmt w) (field l.data (off + e * i) e))), tag := tag || blot }

/-- Operand B: VR[VB], or the latch operand under LAT. -/
def operandB (s : State) (r : NRun) (w : DWord) : NVal :=
  if nLat w then latchOperand s r w else { v := r.vrOf (nVb w), tag := r.vrTag (nVb w) }

/-- Note a misaligned latch operand. -/
def operandNote (st u : Nat) (w : DWord) (x : NVal) (r : NRun) (s : State) : NRun × State :=
  let s := if nLat w || decide (nOpc w = 0x13) then bumpFree s else s
  if x.err then nmuBusError st u ((r.srOf (nSa w) + nImm w) % 2048) r s else (r, s)

/-- NLD. -/
def nldWord : NEffect := fun st u w r s =>
  let x := latchOperand s r w
  let y := operandNote st u w x r s
  (y.1.putVr (nVd w) x.v x.tag, y.2)
/-- NLDI: a granule of the input buffer as BF16, widened. -/
def nldiWord : NEffect := fun _ _ w r s =>
  (r.putVr (nVd w) (nvOf ((List.range 32).map (fun i => widen 0 (field r.launch.input (nImm w % 4 * 64 + 2 * i) 2)))) false, s)

/-- The bytes of a vector in FMT BF16 or FP32 (R436). -/
def storeBytes (fmt : Nat) (v : NVec) : List Byte :=
  (nvLanes v).flatMap (fun x => if fmt = 0 then leBytes 2 (fpEnc fmtBF16 .rne false (dec32 x)) else leBytes 4 x)

/-- NST: a register into a latch, its granules blotted by the value, the offset or the blot latch (R459). The other bytes of a latch that held nothing
are free values (log 34). -/
def nstWord : NEffect := fun st u w r s =>
  let l := r.latch (nLsel w)
  let n := operandBytes (nFmt w)
  let off := (r.srOf (nSa w) + nImm w) % 2048
  if off % n ≠ 0 then nmuBusError st u off r s
  else
    let blot := r.vrTag (nVa w) || r.srTag (nSa w) || r.blotLatch
    let base := if l.data.isEmpty then (List.range 2048).map (fun i => Config.freeByte s.frees (2 ^ 53 + i)) else l.data
    let blots := (List.range (n / 64)).foldl (fun b g => setBits b (off / 64 + g) 1 (b2n blot)) l.blots
    let l := { l with data := putBytes base off (storeBytes (nFmt w) (r.vrOf (nVa w))), blots := blots, dirty := true }
    (r.putLatch (nLsel w) l, if (r.latch (nLsel w)).data.isEmpty then bumpFree s else s)

/-- NRES and NRESS: a register to a result slot, one lane to a result register (R459). -/
def nresWord : NEffect := fun _ _ w r s =>
  let k := nImm w % 4
  let tag := r.vrTag (nVa w) || r.blotLatch
  ({ r with slots := kvPut (fun _ => 0#1024) r.slots k (r.vrOf (nVa w)), slotTag := kvPut (fun _ => false) r.slotTag k tag,
            written := kvPut (fun _ => false) r.written k true }, s)
def nressWord : NEffect := fun _ _ w r s =>
  let v := BitVec.ofNat 32 (nvGet (r.vrOf (nVa w)) (r.laneNo w))
  let tag := r.vrTag (nVa w) || r.laneTag w || r.blotLatch
  (if nImm w % 2 = 0 then { r with res0 := v, res0Tag := tag } else { r with res1 := v, res1Tag := tag }, s)

/-! ### Lane words (R435, R436) -/

/-- D = f A B on every lane. -/
def laneWord (f : Nat → Nat → Nat) : NEffect := fun st u w r s =>
  let b := operandB s r w
  let y := operandNote st u w b r s
  let v := nvOf ((List.range 32).map (fun i => f (nvGet (r.vrOf (nVa w)) i) (nvGet b.v i)))
  (y.1.putVr (nVd w) v (r.vrTag (nVa w) || b.tag), y.2)
/-- D = A × B + D with one rounding. -/
def vfmaWord : NEffect := fun st u w r s =>
  let b := operandB s r w
  let y := operandNote st u w b r s
  let d := r.vrOf (nVd w)
  let v := nvOf ((List.range 32).map (fun i => f32fma (nvGet (r.vrOf (nVa w)) i) (nvGet b.v i) (nvGet d i)))
  (y.1.putVr (nVd w) v (r.vrTag (nVa w) || b.tag || r.vrTag (nVd w)), y.2)
/-- The lane operation max (R300). -/
def f32max (x y : Nat) : Nat := enc32 (fvMax (dec32 x) (dec32 y))
/-- VFMAS: a lane of A times B plus D; a zero lane leaves D, and its tags still count (R458). -/
def vfmasWord : NEffect := fun st u w r s =>
  let b := operandB s r w
  let y := operandNote st u w b r s
  let x := nvGet (r.vrOf (nVa w)) (r.laneNo w)
  let d := r.vrOf (nVd w)
  let v := if x % 2 ^ 31 = 0 then d else nvOf ((List.range 32).map (fun i => f32fma x (nvGet b.v i) (nvGet d i)))
  (y.1.putVr (nVd w) v (r.vrTag (nVa w) || b.tag || r.vrTag (nVd w) || r.laneTag w), y.2)
def vmulsWord : NEffect := fun st u w r s =>
  let b := operandB s r w
  let y := operandNote st u w b r s
  let x := nvGet (r.vrOf (nVa w)) (r.laneNo w)
  (y.1.putVr (nVd w) (nvOf ((List.range 32).map (fun i => f32mul x (nvGet b.v i)))) (r.vrTag (nVa w) || b.tag || r.laneTag w), y.2)
def vimmWord : NEffect := fun _ _ w r s =>
  (r.putVr (nVd w) (nvOf (List.replicate 32 (2 ^ 16 * nImm w))) false, s)
/-- VTAIL: lanes at or above SR[SA], as signed integers, take the immediate. -/
def vtailWord : NEffect := fun _ _ w r s =>
  let n := sext 32 (r.srOf (nSa w))
  let d := r.vrOf (nVd w)
  let v := nvOf ((List.range 32).map (fun (i : Nat) => if n ≤ (i : Int) then 2 ^ 16 * nImm w else nvGet d i))
  (r.putVr (nVd w) v (r.vrTag (nVd w) || r.srTag (nSa w)), s)

/-- HSUM and HMAX: the tree of the 32 lanes of A, into one lane of D or into all. -/
def treeWord (f : Nat → Nat → Nat) : NEffect := fun _ _ w r s =>
  let x := tree f (nvLanes (r.vrOf (nVa w)))
  let d := r.vrOf (nVd w)
  let v := if nBcast w then nvOf (List.replicate 32 x)
    else nvOf ((List.range 32).map (fun i => if i = r.laneNo w then x else nvGet d i))
  (r.putVr (nVd w) v (r.vrTag (nVa w) || (!nBcast w && (r.vrTag (nVd w) || r.laneTag w))), s)
/-- HEXP: D = vexp of A − s, s a lane of VR[VB]. -/
def hexpWord : NEffect := fun _ _ w r s =>
  let x := nvGet (r.vrOf (nVb w)) (r.laneNo w)
  let v := nvOf ((List.range 32).map (fun i => vexp (f32sub (nvGet (r.vrOf (nVa w)) i) x)))
  (r.putVr (nVd w) v (r.vrTag (nVa w) || r.vrTag (nVb w) || r.laneTag w), s)

/-! ### The commands -/

def execNmuNop (st : Fin 4) (u : Fin 256) (e : NmuErr) (s : State) : Out := plainWord 0x00 nopWord st u e s
def execNmuEnd (st : Fin 4) (u : Fin 256) (e : NmuErr) (s : State) : Out :=
  runWord 0x01 st u e (fun _ r s => endWord st u r s) s
def execNmuYield (st : Fin 4) (u : Fin 256) (e : NmuErr) (waitEven waitOdd : Bool) (s : State) : Out :=
  runWord 0x02 st u e (fun _ r s => yieldWord st u waitEven waitOdd r s) s
def execNmuLoop (st : Fin 4) (u : Fin 256) (e : NmuErr) (s : State) : Out :=
  runWord 0x03 st u e (fun w r s => loopWord st u w r s) s
def execSaddi (st : Fin 4) (u : Fin 256) (e : NmuErr) (s : State) : Out := plainWord 0x08 saddiWord st u e s
def execSadd (st : Fin 4) (u : Fin 256) (e : NmuErr) (s : State) : Out := plainWord 0x09 saddWord st u e s
def execSshl (st : Fin 4) (u : Fin 256) (e : NmuErr) (s : State) : Out := plainWord 0x0A sshlWord st u e s
def execNopen (st : Fin 4) (u : Fin 256) (e : NmuErr) (s : State) : Out :=
  runWord 0x10 st u e (fun w r s => nopenWord st u w r s) s
def execNclr (st : Fin 4) (u : Fin 256) (e : NmuErr) (s : State) : Out :=
  runWord 0x11 st u e (fun w r s => nclrWord st u w r s) s
def execNwb (st : Fin 4) (u : Fin 256) (e : NmuErr) (s : State) : Out :=
  runWord 0x12 st u e (fun w r s => nwbWord st u w r s) s
def execNld (st : Fin 4) (u : Fin 256) (e : NmuErr) (s : State) : Out := plainWord 0x13 nldWord st u e s
def execNldi (st : Fin 4) (u : Fin 256) (e : NmuErr) (s : State) : Out := plainWord 0x14 nldiWord st u e s
def execNst (st : Fin 4) (u : Fin 256) (e : NmuErr) (s : State) : Out := plainWord 0x15 nstWord st u e s
def execNres (st : Fin 4) (u : Fin 256) (e : NmuErr) (s : State) : Out := plainWord 0x16 nresWord st u e s
def execNress (st : Fin 4) (u : Fin 256) (e : NmuErr) (s : State) : Out := plainWord 0x17 nressWord st u e s
def execNmuVadd (st : Fin 4) (u : Fin 256) (e : NmuErr) (s : State) : Out := plainWord 0x20 (laneWord f32add) st u e s
def execNmuVsub (st : Fin 4) (u : Fin 256) (e : NmuErr) (s : State) : Out := plainWord 0x21 (laneWord f32sub) st u e s
def execNmuVmul (st : Fin 4) (u : Fin 256) (e : NmuErr) (s : State) : Out := plainWord 0x22 (laneWord f32mul) st u e s
def execNmuVfma (st : Fin 4) (u : Fin 256) (e : NmuErr) (s : State) : Out := plainWord 0x23 vfmaWord st u e s
def execNmuVmax (st : Fin 4) (u : Fin 256) (e : NmuErr) (s : State) : Out := plainWord 0x24 (laneWord f32max) st u e s
def execVfmas (st : Fin 4) (u : Fin 256) (e : NmuErr) (s : State) : Out := plainWord 0x25 vfmasWord st u e s
def execVmuls (st : Fin 4) (u : Fin 256) (e : NmuErr) (s : State) : Out := plainWord 0x26 vmulsWord st u e s
def execVimm (st : Fin 4) (u : Fin 256) (e : NmuErr) (s : State) : Out := plainWord 0x27 vimmWord st u e s
def execVtail (st : Fin 4) (u : Fin 256) (e : NmuErr) (s : State) : Out := plainWord 0x28 vtailWord st u e s
def execHsum (st : Fin 4) (u : Fin 256) (e : NmuErr) (s : State) : Out := plainWord 0x30 (treeWord f32add) st u e s
def execHmax (st : Fin 4) (u : Fin 256) (e : NmuErr) (s : State) : Out := plainWord 0x31 (treeWord f32max) st u e s
def execHexp (st : Fin 4) (u : Fin 256) (e : NmuErr) (s : State) : Out := plainWord 0x32 hexpWord st u e s

/-! ### Background transfers (R438 to R440) -/

/-- For the directory a NOPEN reads, and an NWB writes, the four lines of its page from outside the towers (R440, Table 8.7): an
owner keeps a line that is read Shared; a line that is written leaves every tower. -/
def pageLines (m lpi : Nat) (write : Bool) (s : State) : State :=
  let d := pageAddr s m lpi
  (List.range 4).foldl (fun s i =>
    let line := d / 512 + i
    match dirOf s m line with
    | none => s
    | some e =>
      if write then freeDir m line (e.towers.foldl (fun s t => setLine t line 0 s) s)
      else
        match e with
        | .shared _ => s
        | .owned o => setDir m line (.shared [o]) (setLine o line 1 (addReg (dirReg m 0) 1 s))) s

/-- A page as a latch takes it: its 2,048 bytes and granule blots; under Extended the last granule is zeros (R387). -/
def latchPage (s : State) (m lpi : Nat) : List Byte × Nat :=
  let d := pageAddr s m lpi
  let n := codeData (lpiStrength s m lpi) / 64
  let gs := (List.range n).map (fun i => (granBytes s (d + 64 * i), blotAt s (d + 64 * i)))
  (padTo 2048 (gs.flatMap (fun g => g.1)), ((List.range n).map (fun i => b2n (blotAt s (d + 64 * i)) * 2 ^ i)).sum)

/-- The page reaches the latch; one that does not decode is a bus error. -/
def openDone (st u : Nat) (sel : Bool) (errs : List (Nat × Nat)) (r : NRun) (s : State) : NRun × State :=
  let l := r.latch sel
  match lamLoc st u l.lam with
  | none => (r, s)
  | some p =>
    let m := 4 + st
    let s := decodePage m p.lpi errs (pageLines m p.lpi false s)
    let x := latchPage s m p.lpi
    if isBad s m p.lpi || lpiRetired s m p.lpi then
      let y := nmuBusError st u l.lam r s
      (y.1.putLatch sel (blottedLatch l.lam), y.2)
    else (r.putLatch sel { valid := true, lam := l.lam, data := x.1, blots := if l.forced then 2 ^ 32 - 1 else x.2 }, bumpFree s)

/-- The latch reaches its page (R439): every granule with its blot. -/
def backDone (st u : Nat) (sel : Bool) (r : NRun) (s : State) : NRun × State :=
  let l := r.latch sel
  match lamLoc st u l.lam with
  | none => (r, s)
  | some p =>
    let m := 4 + st
    let n := codeData (lpiStrength s m p.lpi) / 64
    let blot := fun (i : Nat) => l.forced || l.blots.testBit i
    let gs := (List.range n).map (fun i => (((padTo 2048 l.data).drop (64 * i)).take 64, i))
    let d := pageAddr s m p.lpi
    let s := clearBad m p.lpi (pageLines m p.lpi true s)
    let s := gs.foldl (fun s g => storeGran (d + 64 * g.2) (g.1.map some) (blot g.2) s) s
    let w := ((List.range n).filter blot).length
    ({ r.putLatch sel { l with busy := 0, dirty := false } with wblots := min (r.wblots + w) 0xFFFF }, bufferDrop m p.channel p.lpi s)

/-- NMU_TRANSFER_DONE: the oldest background transfer of a unit finishes (R438); a program that waits at END with none left ends. -/
def execNmuTransferDone (st : Fin 4) (u : Fin 256) (errors : List (Nat × Nat)) (cycles naw : Nat) (s : State) : Out :=
  .next (match (getNmu s st u).run with
    | none => s
    | some r =>
      match r.order with
      | [] => s
      | k :: rest =>
        let s := addReg (nmuBlk st + 8) naw (if r.ending then addReg (nmuArea st u + 0x10) cycles s else s)
        let sel := decide (k = 1)
        let x := if (r.latch sel).busy = 1 then openDone st u sel errors r s else backDone st u sel r s
        let r := { x.1 with order := rest }
        let s := modNmu st u (fun y => { y with run := some r }) x.2
        if r.ending && rest.isEmpty then endRun st u false s else s)

/-! ### Clears and function reset -/

def execNmuStackClear (m : Fin 8) (d : BitVec 32) (s : State) : Out :=
  .next (if m.val < 4 then s else onOne d (clearWords (mscBlk m + 0x50004) (mscBlk m + 0x5001C)) s)
def execNmuCountClear (m : Fin 8) (u : Fin 256) (d : BitVec 32) (s : State) : Out :=
  .next (if m.val < 4 then s
    else onOne d (clearWords (mscBlk m + 0x80000 + 0x100 * u + 4) (mscBlk m + 0x80000 + 0x100 * u + 0x14)) s)

/-- Step 4 of a reset of a function (R174, R457): running programs will end at their next YIELD or END; queued and arriving launches
and completions not yet taken are dropped. -/
def nmuReset (f : Nat) (s : State) : State :=
  { s with nmus := kvMapAll (fun _ => {}) s.nmus (fun x =>
      { x with
        run := x.run.map (fun r => if r.launch.fn = f then { r with ended := true } else r)
        queued := x.queued.filter (fun l => l.fn ≠ f)
        arriving := x.arriving.filter (fun l => l.fn ≠ f)
        done := x.done.filter (fun d => d.fn ≠ f) }) }

end Sys2Proof.Machine
end

