-- ==== Sys2Proof/Machine/NmuProg.lean ====
section
/-!
DEFINITION. Program images of the near-memory units (10.2): the loader's checks and segment count (Table 10.3, R433), and installing
a program in the slots of a floor die's units (R431).
-/
namespace Sys2Proof.Machine

/-! ### Static checks (Table 10.3) -/

/-- Is an opcode defined (Table 10.5)? -/
def nmuOpcode (o : Nat) : Bool :=
  ([0x00, 0x01, 0x02, 0x03, 0x08, 0x09, 0x0A, 0x30, 0x31, 0x32] : List Nat).contains o ||
    decide (0x10 ≤ o ∧ o ≤ 0x17) || decide (0x20 ≤ o ∧ o ≤ 0x28)

/-- The vector registers that a word names. -/
def vrNamed (w : DWord) : List Nat :=
  let o := nOpc w
  (if [0x13, 0x14].contains o || decide (0x20 ≤ o) then [nVd w] else []) ++
  (if ([0x15, 0x16, 0x17, 0x30, 0x31, 0x32] : List Nat).contains o || decide (0x20 ≤ o ∧ o ≤ 0x26) then [nVa w] else []) ++
  (if (decide (0x20 ≤ o ∧ o ≤ 0x26) && !nLat w) || decide (o = 0x32) then [nVb w] else [])

/-- One word's own checks. -/
def wordOk (w : DWord) : Bool :=
  nmuOpcode (nOpc w) && decide (bits w.toNat 16 5 = 0) && (vrNamed w).all (fun i => decide (i ≤ 51)) &&
    !(decide (nOpc w = 0x15) && decide (1 < nFmt w))

/-- Words of a program at a place. -/
def progWord (ws : List DWord) (i : Nat) : DWord := nth 0#64 ws i
/-- Is the word at a place a LOOP whose body holds another place? -/
def bodyHas (ws : List DWord) (l i : Nat) : Bool :=
  decide (nOpc (progWord ws l) = 0x03) && decide (l < i ∧ i ≤ l + nBody (progWord ws l))
/-- The LOOPs whose bodies hold a place, outermost first. -/
def enclosing (ws : List DWord) (i : Nat) : List Nat := (List.range i).filter (fun l => bodyHas ws l i)

/-- The checks of one LOOP: its body lies in the program and within its outer bodies, nesting is at most 4, and a count from a
register needs a YIELD of its own body. -/
def loopOk (ws : List DWord) (l : Nat) : Bool :=
  let w := progWord ws l
  let last := l + nBody w
  decide (1 ≤ nBody w) && decide (last < ws.length) && decide ((enclosing ws l).length < 4) &&
    (enclosing ws l).all (fun o => decide (last ≤ o + nBody (progWord ws o))) &&
    (decide (nImm w ≠ 0) || (List.range ws.length).any (fun i =>
      bodyHas ws l i && decide (nOpc (progWord ws i) = 0x02) && !((enclosing ws i).any (fun q => decide (l < q)))))

/-! ### The count of R433 -/

/-- A loop on a path: its first and last word, the most passes left, and whether fewer may be left. -/
structure PathLoop where
  first : Nat
  last : Nat
  left : Nat
  open_ : Bool

/-- Passes that stand for any count. -/
def anyCount : Nat := 2 ^ 40

/-- The places that a path can go to after the word at a place. -/
def pathNext : List PathLoop → Nat → List (List PathLoop × Nat)
  | [], pc => [([], pc + 1)]
  | l :: rest, pc =>
    if l.last = pc then
      (if l.open_ || decide (l.left ≤ 1) then pathNext rest pc else []) ++
      (if 1 < l.left then [({ l with left := l.left - 1 } :: rest, l.first)] else [])
    else [(l :: rest, pc + 1)]

/-- Occupancy of a word, doubled for one that needs a compute slot (Table 10.5). -/
def wordCost (w : DWord) : Nat :=
  let o := nOpc w
  if o = 0x02 then 20
  else if o = 0x30 ∨ o = 0x31 then 6
  else if o = 0x32 then 8
  else if 0x20 ≤ o ∧ o ≤ 0x28 then 2
  else 1

/-- Follow every path of a segment: none when one breaks the limit or leaves the program, else the YIELDs that end it. -/
def segment (ws : List DWord) : Nat → List PathLoop → Nat → Nat → Nat → Nat → Option (List Nat)
  | 0, _, _, _, _, _ => none
  | fuel + 1, loops, pc, t, r0, r1 =>
    if ws.length ≤ pc then none
    else
      let w := progWord ws pc
      let o := nOpc w
      let t := if usesLatch w then max t (if nLsel w then r1 else r0) else t
      let rd := if o = 0x10 then t + 89 else if o = 0x12 then t + 69 else if o = 0x11 then t + 1
        else if nLsel w then r1 else r0
      let r0 := if nLsel w then r0 else rd
      let r1 := if nLsel w then rd else r1
      let t := t + wordCost w
      if 256 < t then none
      else if o = 0x01 then some []
      else if o = 0x02 then some [pc]
      else
        let last := pc + nBody w
        let go :=
          if o = 0x03 then
            if nImm w = 0 then
              pathNext loops last ++ [({ first := pc + 1, last := last, left := anyCount, open_ := true } :: loops, pc + 1)]
            else [({ first := pc + 1, last := last, left := nImm w, open_ := false } :: loops, pc + 1)]
          else pathNext loops pc
        go.foldl (fun (acc : Option (List Nat)) p =>
          match acc, segment ws fuel p.1 p.2 t r0 r1 with
          | some a, some b => some (a ++ b)
          | _, _ => none) (some [])

/-- The loops around a YIELD, innermost first, with any number of passes left. -/
def loopsAt (ws : List DWord) (i : Nat) : List PathLoop :=
  (enclosing ws i).reverse.map (fun l =>
    let w := progWord ws l
    { first := l + 1, last := l + nBody w, left := if nImm w = 0 then anyCount else nImm w, open_ := true })

/-- The segment from word 0 (none) or from a YIELD. -/
def segmentFrom (ws : List DWord) : Option Nat → Option (List Nat)
  | none => segment ws 300 [] 0 0 0 0
  | some y => (pathNext (loopsAt ws y) y).foldl (fun (acc : Option (List Nat)) p =>
      match acc, segment ws 300 p.1 p.2 0 89 89 with
      | some a, some b => some (a ++ b)
      | _, _ => none) (some [])

/-- Check the segments from the YIELDs that paths reach. -/
def segmentsOk (ws : List DWord) : Nat → List Nat → List Nat → Bool
  | 0, todo, _ => todo.isEmpty
  | n + 1, todo, seen =>
    match todo with
    | [] => true
    | y :: rest =>
      if seen.contains y then segmentsOk ws n rest seen
      else
        match segmentFrom ws (some y) with
        | none => false
        | some l => segmentsOk ws n (rest ++ (l.dedup.filter (fun x => !seen.contains x && x ≠ y && !rest.contains x))) (y :: seen)

/-- Every segment of a program is within 256 DCLK cycles, and every path ends at END. -/
def pathsOk (ws : List DWord) : Bool :=
  match segmentFrom ws none with
  | none => false
  | some l => segmentsOk ws (2 * ws.length + 2) l.dedup []

/-- The words of an image that passes every check (Tables 10.2 and 10.3). -/
def checkImage (img : List Byte) : Option (List DWord) :=
  let n := field img 6 2
  let hdr := img.take 32
  let ws := (List.range n).map (fun i => BitVec.ofNat 64 (field img (32 + 8 * i) 8))
  let crcOk := decide (crc32 (putBytes hdr 8 (leBytes 4 0) ++ (img.drop 32).take (8 * n)) = field img 8 4)
  if img.take 4 = [0x4E#8, 0x5A#8, 0x4E#8, 0x50#8] ∧ field img 4 2 = 1 ∧ 1 ≤ n ∧ n ≤ 256 ∧ 32 + 8 * n ≤ img.length ∧
      crcOk ∧ field img 12 20 = 0 ∧ ws.all wordOk ∧
      (List.range n).all (fun i => decide (nOpc (progWord ws i) ≠ 0x03) || loopOk ws i) ∧ pathsOk ws
  then some ws else none

/-- The SHA-256 by which a program is known (R431), as a number of its bytes in order. -/
def progSha (ws : List DWord) : Nat := leNat (sha256 (ws.flatMap (fun w => leBytes 8 w.toNat)))

/-- The program image of a function at an address: its header says how many words follow. -/
def readImage (acc : Acc) (a : Nat) (s : State) : List Byte × Bool :=
  let h := readSpan s acc a 32
  let n := min (field h.data 6 2) 256
  let b := readSpan s acc (a + 32) (8 * n)
  (h.data ++ b.data, h.ok && b.ok && !h.blot && !b.blot)

/-! ### Installing (R431) -/

/-- Launches of a program on a floor die: running, queued or on the way. -/
def dieUses (s : State) (d sha : Nat) : Nat :=
  (List.range 2).foldl (fun n i => n + progUses s (2 * d + i) sha +
    ((List.range 256).map (fun u => ((getNmu s (2 * d + i) u).arriving.filter (fun l => l.prog = sha)).length)).sum) 0

/-- The programs of a die that take slots, and those that free slots could drop. -/
def slotHolder (s : State) (d k : Nat) : Option NProg :=
  (getAtt s d).progs.find? (fun p => decide (p.first ≤ k ∧ k < p.first + p.slots))
def slotFree (s : State) (d k : Nat) : Bool :=
  match slotHolder s d k with
  | none => true
  | some p => decide (dieUses s d p.sha = 0)
/-- When the program in a slot was last launched; an empty slot never. -/
def slotUsed (s : State) (d k : Nat) : Nat := ((slotHolder s d k).map (fun p => p.used + 1)).getD 0

/-- The run of free slots that a program takes: empty slots first, then the least recently launched; the lowest of these. -/
def findRun (s : State) (d n : Nat) : Option Nat :=
  let runs := (List.range 4).filter (fun k => decide (k + n ≤ 4) && (List.range n).all (fun i => slotFree s d (k + i)))
  let cost := fun (k : Nat) => (List.range n).foldl (fun c i => max c (slotUsed s d (k + i))) 0
  runs.foldl (fun (b : Option Nat) k =>
    match b with
    | none => some k
    | some x => if cost k < cost x then some k else some x) none

/-- Install a program in the units of a die, or find it resident: the state and its first slot; none while no run is free. -/
def installProg (d : Nat) (ws : List DWord) (s : State) : Option (State × Nat) :=
  let sha := progSha ws
  let count := fun (s : State) => [0, 1].foldl (fun s i => addReg (nmuBlk (2 * d + i) + 0x18) 1 s) s
  let mine := (getAtt s d).progs.find? (fun p => p.sha = sha)
  match mine with
  | some p =>
    if p.valid then some (s, p.first)
    else some (count (modAtt d (fun a => { a with
      progs := a.progs.map (fun q => if q.sha = sha then { q with valid := true } else q) }) s), p.first)
  | none =>
    let n := ceilDiv ws.length 64
    match findRun s d n with
    | none => none
    | some k =>
      let p : NProg := { first := k, words := ws, sha := sha, used := 0 }
      some (count (modAtt d (fun a => { a with
        progs := a.progs.filter (fun q => decide (q.first + q.slots ≤ k ∨ k + n ≤ q.first)) ++ [p] }) s), k)

end Sys2Proof.Machine
end

