-- ==== Sys2Proof/Machine/Attention.lean ====
section
/-!
DEFINITION. The attention controllers and their walkers (11.3 to 11.6, 11.9): appends, the requests between the walkers, KV_FETCH,
KV_DECODE with its launches and its merge, filling a spilled sequence back, and a function's reset.
-/
namespace Sys2Proof.Machine

/-! ### The queue of a walker (R475) -/

/-- The request that a walker serves, and its replacement and removal. -/
def walkHead (s : State) (d : Nat) : Option WalkReq := (getAtt s d).queue.head?
def setWalk (d : Nat) (x : WalkReq) (s : State) : State := modAtt d (fun a => { a with queue := x :: a.queue.drop 1 }) s
def popWalk (d : Nat) (s : State) : State := modAtt d (fun a => { a with queue := a.queue.drop 1 }) s

/-- The requester of a controller's accesses for a function: it may write pools. -/
def attAcc (d f : Nat) : Acc := { kvAcc f with org := oEngine 1 d }

/-- An MWB of KIND KV completes (R236, R271): its outcome goes to the job, and its stroke loses the transfer. -/
def walkDone (d : Nat) (x : WalkReq) (ok noPage : Bool) (blots : Nat) (s : State) : State :=
  let c := noCluster x.runner
  let s := noteBlots c blots (popWalk d s)
  let s := if ok then s else noteBusErr c s
  let s := if noPage then noteJob c (fun g => { g with kvNopage := true }) (addReg (attBlk d + 0x14) 1 s) else s
  modRunner x.runner (fun y => { y with flight := dropTransfer x.word y.flight }) s

/-! ### The look-aside buffer (R476) -/

/-- Look a block entry up: a hit or a miss counts, and the entry becomes the most recent of at most 32. -/
def labLook (d f q l j : Nat) (s : State) : State :=
  let k := (f, q, l, j)
  let a := getAtt s d
  let s := addReg (attBlk d + (if a.lab.contains k then 4 else 8)) 1 s
  modAtt d (fun a => { a with lab := (k :: a.lab.filter (fun e => e ≠ k)).take 32 }) s

/-! ### Preparing a page (R469, R482) -/

/-- Prepare a page for writing: with one reference the page itself, else a copy of it on a page of the same die. The result is the
page, whether its copy met a bus error, and the state; none where the stack is empty. -/
def preparePage (f k : Nat) (s : State) : Option (Nat × Bool × State) :=
  if wRefs (kvWord s f k) ≤ 1 then some (k, false, s)
  else
    let d := pageDie s f k
    match kvPop f d s with
    | none => none
    | some (new, s) =>
      let c := kvCopy f (kvPageAt s f k) (kvPageAt s f new) (kvPageBytes s f) s
      some (new, !c.1, addReg (attBlk d + 0x10) 1 (kvDrop f k c.2).2)

/-- What a walker does for a request for one of its pages. -/
def serveAsk (f d : Nat) (a : AskKind) (s : State) : Option (Nat × Bool × State) :=
  match a with
  | .alloc => (kvPop f d s).map (fun x => (x.1, false, x.2))
  | .prepare k => preparePage f k s

/-- PAGE_REQUEST: a walker serves the oldest request of the other walker (R469), which goes on with the answer. -/
def execPageRequest (d : Fin 2) (s : State) : Out :=
  .next (match (getAtt s d).asks with
    | [] => s
    | a :: rest =>
      let s := modAtt d (fun x => { x with asks := rest }) s
      let r := serveAsk a.fn d a.what s
      let s := (r.map (fun x => x.2.2)).getD s
      match walkHead s (1 - d.val) with
      | none => s
      | some x => setWalk (1 - d.val) { x with answer := some (r.map (fun y => (y.1, y.2.1))) } s)

/-! ### Appending (R480 to R484) -/

/-- The fields of an append descriptor (Table 11.6). -/
structure AppDesc where
  layer : Nat
  geom : Nat
  commit : Bool
  h : Nat
  pos : Nat
  col : Nat
  dim : Nat
  rows : Nat

def appDesc (l : List Byte) : AppDesc :=
  { layer := field l 4 2, geom := bits (field l 6 1) 0 4, commit := bit (field l 6 1) 4, h := field l 7 1, pos := field l 8 4,
    col := field l 12 2, dim := field l 14 2, rows := field l 16 1 }

/-- P and FMT of a geometry byte without its SET bit. -/
def geomP (g : Nat) : Nat := kvP (bits g 0 2)
def geomFmt (g : Nat) : Nat := bits g 2 2

/-- Is a geometry within R463 for a function's pool? -/
def geomOk (s : State) (f g h dim : Nat) : Bool :=
  let e := 2 * h * dim * kvElem (geomFmt g)
  decide (bits g 0 2 < 3 ∧ geomFmt g < 3 ∧ 1 ≤ h ∧ h ≤ 64 ∧ dim % 32 = 0 ∧ 32 ≤ dim ∧ dim ≤ 256 ∧ e ≤ 8192 ∧
    geomP g * e ≤ kvPageBytes s f)

/-- The output format that holds an FMT (R481). -/
def fmtOut (fmt : Nat) : Nat := if fmt = 0 then 1 else if fmt = 1 then 3 else 4

/-- Does an append break R481? -/
def appendBad (s : State) (f q ofmt ncol n : Nat) (a : AppDesc) : Bool :=
  !seqExists s f q || decide (seqLayers s f q ≤ a.layer) || !geomOk s f a.geom a.h a.dim ||
    (bit (recGeom s f q) 0 && (decide (bits (recGeom s f q) 1 4 ≠ a.geom) || decide (recHkv s f q ≠ a.h) ||
      decide (recHdim s f q ≠ a.dim))) ||
    decide (ofmt ≠ fmtOut (geomFmt a.geom)) || decide (2 * a.h * a.dim < a.col + ncol) ||
    decide (eFill (layerEnt s f q a.layer) < a.pos) ||
    (decide (0 < n) && decide (maxBlocks s f ≤ (a.pos + n - 1) / geomP a.geom))

/-- The first append writes the geometry and sets SET. -/
def setGeometry (f q : Nat) (a : AppDesc) (s : State) : State :=
  if bit (recGeom s f q) 0 then s
  else
    kvWr f (layerTable s f q + 8) 2 a.dim (kvWr f (layerTable s f q + 7) 1 a.h (kvWr f (layerTable s f q + 6) 1 (2 * a.geom + 1) s))

/-- What the page of a row comes to: a state whose entry names it, the other walker to ask, or no page. -/
inductive RowPage where
  | ready (s : State)
  | ask (d : Nat) (what : AskKind)
  | empty
  deriving DecidableEq, Repr

/-- A block's entry takes a page. -/
def takePage (f q l j fill : Nat) (blot : Bool) (page : Nat) (s : State) : State :=
  let e := layerEnt s f q l
  setBlockEnt f q l j (mkEntry fill false blot false true page) (kvWr f (layerAt s f q l) 8 (setBits e 32 1 1) s)

/-- The page of a row's block (R482), by its entry: a die of its own is served at once, the other walker is asked. A spilled entry
that could not be filled back is not VALID, and leaves no page. -/
def rowPage (d f q l j : Nat) (x : WalkReq) (s : State) : RowPage :=
  let e := blockEnt s f q l j
  if eSpilled e then .empty
  else if eValid e && !eShared e then .ready s
  else
    let k := if eValid e then pageDie s f (ePage e) else j % 2
    let what := if eValid e then AskKind.prepare (ePage e) else AskKind.alloc
    let fill := if eValid e then eFill e else 0
    let blot := eValid e && eBlot e
    match x.answer with
    | some none => .empty
    | some (some (p, bad)) => .ready (takePage f q l j fill (blot || bad) p s)
    | none =>
      if k ≠ d then .ask k what
      else
        match serveAsk f d what s with
        | none => .empty
        | some (p, bad, s) => .ready (takePage f q l j fill (blot || bad) p s)

/-- Write one row's elements at the places of R464: one run for each head that the columns touch, K heads before V heads. -/
def writeRow (d : Nat) (x : WalkReq) (q : Nat) (a : AppDesc) (ncol : Nat) (row : KvRow) (pos : Nat) (w : Wrote) : Wrote :=
  let p := geomP a.geom
  let size := kvElem (geomFmt a.geom)
  let base := kvPageAt w.s x.fn (ePage (blockEnt w.s x.fn q a.layer (pos / p)))
  (List.range (if ncol = 0 then 0 else (a.col + ncol - 1) / a.dim + 1 - a.col / a.dim)).foldl (fun w i =>
    let g := a.col / a.dim + i
    let lo := max a.col (g * a.dim)
    let hi := min (a.col + ncol) ((g + 1) * a.dim)
    let bytes := (row.data.drop ((lo - a.col) * size)).take ((hi - lo) * size)
    let tags := (List.range bytes.length).map (fun b => nth false row.tags (lo - a.col + b / size))
    coreWriteAs (attAcc d x.fn) x.runner (base + (g * p + pos % p) * a.dim * size + (lo - g * a.dim) * size) (bytes.zip tags) x.blot w) w

/-- COMMIT (R484), with w rows placed. -/
def commitRows (f q : Nat) (a : AppDesc) (w : Nat) (s : State) : State :=
  if !a.commit then s
  else
    let p := geomP a.geom
    let e := layerEnt s f q a.layer
    let n := max (eFill e) (a.pos + w)
    let s := kvWr f (layerAt s f q a.layer) 8 (setBits e 40 24 n) s
    let s := (List.range (if w = 0 then 0 else (a.pos + w - 1) / p + 1 - a.pos / p)).foldl (fun s i =>
      let j := a.pos / p + i
      setBlockEnt f q a.layer j (setBits (blockEnt s f q a.layer j) 40 24 (min p (n - j * p))) s) s
    touchSeq f q s

/-- Place rows from the next one on until all are placed, a page is missing, or the other walker must be asked. -/
def placeRows : Nat → Nat → Nat → AppDesc → Nat → List KvRow → WalkReq → Wrote → State
  | 0, d, q, a, _, _, x, w => walkDone d x w.ok false w.blots (commitRows x.fn q a x.placed w.s)
  | n + 1, d, q, a, ncol, rows, x, w =>
    match rows with
    | [] => walkDone d x w.ok false w.blots (commitRows x.fn q a x.placed w.s)
    | row :: rest =>
      let pos := a.pos + x.placed
      let j := pos / geomP a.geom
      let s := if x.asked then w.s else labLook d x.fn q a.layer j w.s
      match rowPage d x.fn q a.layer j x s with
      | .empty => walkDone d x w.ok true w.blots (commitRows x.fn q a x.placed s)
      | .ask k what =>
        let s := modAtt k (fun y => { y with asks := y.asks ++ [{ fn := x.fn, what := what }] }) s
        let s := if w.ok then s else noteBusErr (noCluster x.runner) s
        setWalk d { x with asked := true } (noteBlots (noCluster x.runner) w.blots s)
      | .ready s =>
        let w := writeRow d x q a ncol row pos { w with s := s }
        placeRows n d q a ncol rest { x with placed := x.placed + 1, asked := false, answer := none } w

/-- Does a walker's request meet a spilled entry that has not been filled back (R503)? -/
def meetsSpilled (s : State) (x : WalkReq) : Bool :=
  !x.filled && seqExists s x.fn x.seq &&
    match x.kind with
    | .command _ _ _ => false
    | .append _ _ _ =>
      let a := appDesc x.desc
      let p := geomP a.geom
      let n := a.rows - x.placed
      (List.range (if n = 0 then 0 else (a.pos + a.rows - 1) / p + 1 - (a.pos + x.placed) / p)).any (fun i =>
        eSpilled (blockEnt s x.fn x.seq a.layer ((a.pos + x.placed) / p + i)))
    | .attention =>
      let l := field x.desc 20 2
      if field x.desc 40 1 = 0x11 then
        (List.range (min (field x.desc 28 4) (maxBlocks s x.fn))).any (fun i =>
          eSpilled (blockEnt s x.fn x.seq l (field x.desc 24 4 + i)))
      else (List.range (maxBlocks s x.fn)).any (fun j => eSpilled (blockEnt s x.fn x.seq l j))

/-- KV_APPEND: the home walker places the rows of the append at the head of its queue. -/
def execKvAppend (d : Fin 2) (s : State) : Out :=
  .next (match walkHead s d with
    | none => s
    | some x =>
      match x.kind with
      | .attention => s
      | .command _ _ _ => s
      | .append ofmt ncol rows =>
        let f := x.fn
        let q := x.seq
        let a := appDesc x.desc
        if x.asked && x.answer.isNone then s
        else if x.placed = 0 && !x.asked && appendBad s f q ofmt ncol a.rows a then
          let at_ := addrOf s x.runner (mAddr x.word)
          let acc := accOf s x.runner
          walkDone d x false false 0 (report 0x20A acc.org (accFn acc) at_ s)
        else if meetsSpilled s x then s
        else
          let s := setGeometry f q a s
          let rest := (rows.take a.rows).drop x.placed
          placeRows rest.length d q a ncol rest x (.start s))

/-- KV_FILL: hub firmware fills back the sequence that the request at the head of a walker's queue names (R503). -/
def execKvFill (d : Fin 2) (s : State) : Out :=
  .next (match walkHead s d with
    | none => s
    | some x => if meetsSpilled s x then setWalk d { x with filled := true } (fillSeq x.fn x.seq s) else s)

/-! ### Completion of attention descriptors (R323) -/

/-- A descriptor's movement is done: it completes in its turn at its cluster's transfer engine. -/
def xferMoved (x : WalkReq) (ok : Bool) : List Xfer → List Xfer
  | [] => []
  | y :: r => if y.runner = x.runner ∧ y.desc = x.desc ∧ !y.moved then { y with moved := true, busErr := y.busErr || !ok } :: r
    else y :: xferMoved x ok r

/-- An attention descriptor ends with its outcomes. -/
def descDone (x : WalkReq) (ok busy noPage : Bool) (blots : Nat) (s : State) : State :=
  let c := noCluster x.runner
  let s := noteBlots c blots s
  let s := if ok then s else noteBusErr c (addReg (scBlk c (noCore x.runner) + 8) 1 s)
  let s := if busy then noteJob c (fun g => { g with nmuBusy := true }) s else s
  let s := if noPage then noteJob c (fun g => { g with kvNopage := true }) (addReg (attBlk (x.seq % 2) + 0x14) 1 s) else s
  { s with xfers := xferMoved x ok s.xfers }

/-- A descriptor that is a bus error as a whole writes nothing. -/
def descError (d : Nat) (x : WalkReq) (s : State) : State :=
  descDone x false false false 0 (report 0x20A (oEngine 1 d) x.fn (field x.desc 0 8) s)

/-! ### KV_FETCH (R486, R487) -/

/-- The bytes of one part: K or V (global head g) of one block, in stored or stream layout; slots at or above FILL are zeros. -/
def fetchPart (d f g p dim size fill page : Nat) (blot stream isV : Bool) (s : State) : ReadT :=
  let pp := max p 32
  let zero : List TByte := List.replicate (dim * size) (0#8, false)
  let rows := (List.range pp).foldl (fun (x : List (List TByte) × Bool × State) i =>
    if fill ≤ i ∨ p ≤ i then (x.1 ++ [zero], x.2.1, x.2.2)
    else
      let r := readT (attAcc d f) (kvPageAt x.2.2 f page + (g * p + i) * dim * size) (dim * size) blot x.2.2
      (x.1 ++ [r.data], x.2.1 && r.ok, r.s)) ([], true, s)
  let elem := fun (i k : Nat) => ((nth zero rows.1 i).drop (k * size)).take size
  let data :=
    if !stream then rows.1.flatten
    else if !isV then
      (List.range (dim / 32)).flatMap (fun sl => (List.range pp).flatMap (fun i =>
        ((nth zero rows.1 i).drop (sl * 32 * size)).take (32 * size)))
    else
      (List.range (pp / 32)).flatMap (fun gr => (List.range dim).flatMap (fun k =>
        (List.range 32).flatMap (fun i => elem (32 * gr + i) k)))
  { data := data, ok := rows.2.1, s := rows.2.2 }

/-- One part fetched and written to its place. A block that is not VALID leaves blotted zeros and a bus error. -/
def fetchOne (d : Nat) (x : WalkReq) (h p dim size dst : Nat) (stream isV : Bool) (head e : Nat) (w : Wrote) : Wrote :=
  let f := x.fn
  let n := max p 32 * dim * size
  let valid := eValid e && !eSpilled e
  let r : ReadT :=
    if valid then fetchPart d f (if isV then h + head else head) p dim size (eFill e) (ePage e) (eBlot e || x.blot) stream isV w.s
    else { data := List.replicate n (0#8, true), ok := false, s := report 0x20A (oEngine 1 d) f dst w.s }
  coreWriteAs { accOf r.s x.runner with org := oEngine 1 d } x.runner dst r.data x.blot { w with s := r.s, ok := w.ok && r.ok }

/-- KV_FETCH: the walker serves the fetch at the head of its queue. -/
def execKvFetch (d : Fin 2) (s : State) : Out :=
  .next (match walkHead s d with
    | none => s
    | some x =>
      if x.kind ≠ .attention ∨ field x.desc 40 1 ≠ 0x11 then s
      else
        let f := x.fn
        let q := x.seq
        let l := field x.desc 20 2
        let head := field x.desc 22 1
        let what := field x.desc 23 1
        let dst := field x.desc 0 8
        if !seqExists s f q || decide (seqLayers s f q ≤ l) || decide (recHkv s f q ≤ head) || decide (dst % 64 ≠ 0) ||
            decide (field x.desc 28 4 = 0) then descError d x (popWalk d s)
        else if meetsSpilled s x then s
        else
          let p := seqP s f q
          let dim := recHdim s f q
          let size := kvElem (seqFmt s f q)
          let parts := (if bit what 0 then [false] else []) ++ (if bit what 1 then [true] else [])
          let n := max p 32 * dim * size
          let o := (List.range (field x.desc 28 4)).foldl (fun (o : Wrote × Bool) b =>
            let j := field x.desc 24 4 + b
            let e := if j < maxBlocks o.1.s f then blockEnt o.1.s f q l j else 0
            let w := (List.range parts.length).foldl (fun w i =>
              fetchOne d x (recHkv s f q) p dim size (dst + (b * parts.length + i) * n) (bit what 2) (nth false parts i) head e w) o.1
            (w, o.2 || eSpilled e)) ((Wrote.start s), false)
          descDone x o.1.ok false o.2 o.1.blots (popWalk d (touchSeq f q o.1.s)))

/-! ### Which positions attend (R496, R497) -/

/-- The fields of a pattern record. -/
structure Pattern where
  window : Nat
  globals : Nat
  causal : Bool
  bitmap : Bool
  listAt : Nat
  bitmapAt : Nat

def patternOf (l : List Byte) : Pattern :=
  { window := field l 0 4, globals := field l 4 2, causal := bit (field l 6 1) 0, bitmap := bit (field l 6 1) 1,
    listAt := field l 8 8, bitmapAt := field l 16 8 }

/-- The code of a tile in a bitmap of QT × KT tiles, by the bytes from its start; 0b11 reads as mixed. -/
def tileCode (l : List Byte) (kt r c : Nat) : Nat :=
  let u := r * kt + c
  min 2 (bits (field l (u / 4) 1) (2 * (u % 4)) 2)
/-- Where the row index and the detail start. -/
def rowIndexAt (qt kt : Nat) : Nat := 64 * ceilDiv (ceilDiv (qt * kt) 4) 64
def detailAt (qt kt : Nat) : Nat := rowIndexAt qt kt + 64 * ceilDiv (4 * qt) 64
/-- Bit (i, k) of a bitmap. -/
def bitmapBit (l : List Byte) (qt kt i k : Nat) : Bool :=
  let r := i / 64
  let c := k / 64
  match tileCode l kt r c with
  | 0 => false
  | 1 => true
  | _ =>
    let before := field l (rowIndexAt qt kt + 4 * r) 4 + ((List.range c).filter (fun x => tileCode l kt r x = 2)).length
    bit (field l (detailAt qt kt + 512 * before + 8 * (i % 64)) 8) (k % 64)

/-- Query position i attends key position k, given the global list and the bitmap's bits. -/
def attends (p : Pattern) (globals : List Nat) (b : Nat → Nat → Bool) (i k : Nat) : Bool :=
  (decide (k ≤ i) || !p.causal) &&
    (decide (p.window = 0) || decide ((i : Int) - k < p.window) || globals.contains k || globals.contains i) && (!p.bitmap || b i k)

/-! ### KV_DECODE (R488 to R495) -/

/-- The fields of a KV_DECODE (Table 11.9). -/
structure DecDesc where
  q : Nat
  out : Nat
  layer : Nat
  first : Nat
  heads : Nat
  prog : Nat
  pos : Nat
  group : Nat
  bf16 : Bool
  stats : Bool
  seed : Bool
  masked : Bool
  seedAt : Nat
  statsAt : Nat

def decDesc (l : List Byte) : DecDesc :=
  let fl := field l 37 1
  { q := field l 0 8, out := field l 8 8, layer := field l 20 2, first := field l 22 1, heads := field l 23 1,
    prog := field l 24 8, pos := field l 32 4, group := field l 36 1, bf16 := bit fl 0, stats := bit fl 1, seed := bit fl 2,
    masked := bit fl 3, seedAt := field l 48 8, statsAt := field l 56 8 }

/-- −∞ of binary32. -/
def f32ninf : Nat := 0xFF800000

/-- The latch formats that a program names: FMT of its words that read a latch. -/
def latchFmts (ws : List DWord) : List Nat :=
  (ws.filter (fun w => decide (nOpc w = 0x13) || (nLat w && decide (0x20 ≤ nOpc w ∧ nOpc w ≤ 0x26)))).map nFmt
/-- A KV format as a latch format. -/
def latchFmt (fmt : Nat) : Nat := if fmt = 0 then 0 else fmt + 1

/-- Does a KV_DECODE break R489? -/
def decodeBad (s : State) (f q : Nat) (a : DecDesc) : Bool :=
  !seqExists s f q || decide (seqLayers s f q ≤ a.layer) || decide (128 < recHdim s f q) || decide (a.heads = 0) ||
    decide (a.group = 0) || decide (64 < a.group) || decide (recHkv s f q ≤ (a.first + a.heads - 1) / a.group) ||
    (match checkImage (readImage { fn := f, org := 0 } a.prog s).1 with
     | none => false
     | some ws => !(latchFmts ws).contains (latchFmt (seqFmt s f q))) ||
    (decide (a.pos % seqP s f q ≠ 0) && !a.masked)

/-- The state that a head starts from: its seed, or m = −∞, l = +0 and o = +0. -/
def headStart (d : Nat) (x : WalkReq) (a : DecDesc) (dim i : Nat) (s : State) : Partial × Bool × State :=
  if a.seed then
    let r := readT { accOf s x.runner with org := oEngine 1 d } (a.seedAt + i * (8 + 4 * dim)) (8 + 4 * dim) x.blot s
    let b := tBytes r.data
    ({ m := BitVec.ofNat 32 (field b 0 4), l := BitVec.ofNat 32 (field b 4 4),
       o := (List.range dim).map (fun k => BitVec.ofNat 32 (field b (8 + 4 * k) 4)), blot := tBlot r.data }, r.ok, r.s)
  else ({ m := BitVec.ofNat 32 f32ninf, l := 0#32, o := List.replicate dim 0#32, blot := x.blot }, true, s)

/-- Merge one partial into a head's state (R493). -/
def mergeHead (h p : Partial) : Partial :=
  let blot := h.blot || p.blot
  if p.l = 0#32 ∧ !p.blot then { h with blot := blot }
  else if h.m.toNat = f32ninf then { p with blot := blot }
  else
    let mn := enc32 (fvMax (dec32 h.m.toNat) (dec32 p.m.toNat))
    let a := vexp (f32sub h.m.toNat mn)
    let b := vexp (f32sub p.m.toNat mn)
    let mix := fun (x y : Word) => BitVec.ofNat 32 (f32add (f32mul x.toNat a) (f32mul y.toNat b))
    { m := BitVec.ofNat 32 mn, l := mix h.l p.l, o := (h.o.zip p.o).map (fun z => mix z.1 z.2), blot := blot }

/-- A head's output values and its lse. -/
def headOut (h : Partial) : List Nat × Nat :=
  if h.l = 0#32 then (h.o.map (fun _ => 0), f32ninf)
  else
    let r := vrcp h.l.toNat
    (h.o.map (fun x => f32mul x.toNat r), f32add h.m.toNat (vlog h.l.toNat))

/-- Is every block of every head merged? -/
def Decode.done (x : Decode) : Bool :=
  (List.range x.heads.length).all (fun n => decide (x.blocks.length ≤ kvGet (fun _ => 0) x.merged n))

/-- A KV_DECODE ends: OUT and the statistics are written, and its descriptor completes (R494). -/
def decodeDone (d : Nat) (x : Decode) (s : State) : State :=
  let a := decDesc x.req.desc
  let acc := { accOf s x.req.runner with org := oEngine 1 d }
  let size := if a.bf16 then 2 else 4
  let w := (List.range x.heads.length).foldl (fun (w : Wrote) n =>
    match x.heads[n]? with
    | none => w
    | some h =>
      let o := headOut h
      let bytes := o.1.flatMap (fun v => if a.bf16 then leBytes 2 (fpEnc fmtBF16 .rne false (dec32 v)) else leBytes 4 v)
      let w := coreWriteAs acc x.req.runner (a.out + n * x.hdim * size) (bytes.map (fun b => (b, h.blot))) x.req.blot w
      if a.stats then
        coreWriteAs acc x.req.runner (a.statsAt + 8 * n)
          ((leBytes 4 h.m.toNat ++ leBytes 4 o.2).map (fun b => (b, h.blot))) x.req.blot w
      else w) (.start s)
  descDone x.req (w.ok && !x.busErr) x.busy x.noPage (w.blots + x.wblots) w.s

/-- Merge every partial that is next for its head, in ascending block order. -/
def mergeHeads : Nat → Nat → Decode → State → Decode × State
  | 0, _, x, s => (x, s)
  | fuel + 1, d, x, s =>
    match (List.range x.heads.length).find? (fun n => (kvFind x.partials (kvGet (fun _ => 0) x.merged n * 256 + n)).isSome) with
    | none => (x, s)
    | some n =>
      let k := kvGet (fun _ => 0) x.merged n
      match kvFind x.partials (k * 256 + n), x.heads[n]? with
      | some p, some h =>
        mergeHeads fuel d { x with partials := kvErase x.partials (k * 256 + n), merged := kvPut (fun _ => 0) x.merged n (k + 1),
                                   heads := x.heads.set n (mergeHead h p) } (addReg (attBlk d + 0x20) 1 s)
      | _, _ => (x, s)

/-- Put a decode back at place i of its home controller: merged as far as it goes, and ended when all of it is. -/
def putDecode (d i : Nat) (x : Decode) (s : State) : State :=
  let r := mergeHeads (x.partials.length + 1) d x s
  if r.1.done then decodeDone d r.1 (modAtt d (fun a => { a with decodes := a.decodes.eraseIdx i }) r.2)
  else modAtt d (fun a => { a with decodes := a.decodes.set i r.1 }) r.2

/-- The blocks that a decode visits: from that of FIRST_POS to the last with FILL above 0. A block that is not VALID attends nothing. -/
def decodeBlocks (s : State) (f q : Nat) (a : DecDesc) : List DecBlock :=
  (List.range (maxBlocks s f)).filterMap (fun j =>
    let e := blockEnt s f q a.layer j
    if a.pos / seqP s f q ≤ j ∧ eValid e ∧ !eSpilled e ∧ 0 < eFill e then
      some { j := j, page := ePage e, fill := eFill e, blot := eBlot e, pblot := (readSpan s (kvAcc f) (blockAt s f q a.layer j) 8).blot }
    else none)

/-- KV_DECODE: the walker takes the decode at the head of its queue and walks its blocks. -/
def execKvDecode (d : Fin 2) (s : State) : Out :=
  .next (match walkHead s d with
    | none => s
    | some x =>
      if x.kind ≠ .attention ∨ field x.desc 40 1 ≠ 0x10 then s
      else
        let f := x.fn
        let q := x.seq
        let a := decDesc x.desc
        if decodeBad s f q a then descError d x (popWalk d s)
        else if meetsSpilled s x then s
        else
          let spilled := (List.range (maxBlocks s f)).any (fun j =>
            decide (a.pos / seqP s f q ≤ j) && eSpilled (blockEnt s f q a.layer j))
          let blocks := decodeBlocks s f q a
          let dim := recHdim s f q
          let hs := (List.range a.heads).foldl (fun (y : List Partial × Bool × State) i =>
            let r := headStart d x a dim i y.2.2
            (y.1 ++ [r.1], y.2.1 && r.2.1, r.2.2)) ([], true, s)
          let dec : Decode := { req := x, pos := seqP s f q, fmt := seqFmt s f q, hkv := recHkv s f q, hdim := dim, blocks := blocks,
                                heads := hs.1, busErr := !hs.2.1, noPage := spilled }
          let s := touchSeq f q (popWalk d hs.2.2)
          let n := (getAtt s d).decodes.length
          putDecode d n dec (modAtt d (fun b => { b with decodes := b.decodes ++ [dec] }) s))

/-! ### Launches (R490, R492) -/

/-- How far a die has launched, and the decode with that place moved. -/
def Decode.sent (x : Decode) (d : Nat) : Nat := if d = 0 then x.sent0 else x.sent1
def Decode.setSent (x : Decode) (d n : Nat) : Decode := if d = 0 then { x with sent0 := n } else { x with sent1 := n }

/-- The next (block index × heads + head index) whose page lies on a die. -/
def nextLaunch (s : State) (d : Nat) (x : Decode) : Option Nat :=
  ((List.range x.blocks.length).find? (fun b =>
    decide (x.sent d < (b + 1) * x.heads.length) &&
      (match x.blocks[b]? with
       | none => false
       | some e => decide (pageDie s x.req.fn e.page = d)))).map (fun b => max (x.sent d) (b * x.heads.length))

/-- The first decode of either controller that has a launch for a die: its home, its place and the launch. -/
def dueLaunch (s : State) (d : Nat) : Option (Nat × Nat × Decode × Nat) :=
  [d, 1 - d].findSome? (fun home =>
    let l := (getAtt s home).decodes
    (List.range l.length).findSome? (fun i =>
      match l[i]? with
      | none => none
      | some x => (nextLaunch s d x).map (fun n => (home, i, x, n))))

/-- The parameters P0 to P13 of R490. -/
def launchParams (x : Decode) (a : DecDesc) (b : DecBlock) (lam head : Nat) : List Nat :=
  let h := head / a.group
  let row := x.hdim * kvElem x.fmt
  let cut := decide (b.j * x.pos < a.pos)
  let mask := (List.range x.pos).foldl (fun m i =>
    if a.pos ≤ b.j * x.pos + i ∧ i < b.fill then m + 2 ^ i else m) 0
  [lam + h * x.pos * row, lam + (x.hkv * x.pos + h * x.pos) * row, b.fill, b2n cut] ++
    (if cut then [mask % 2 ^ 32, mask / 2 ^ 32] else [0, 0]) ++ List.replicate 8 0

/-- The partial of a page that no unit serves: blotted, with l = +0. -/
def lostPartial (dim : Nat) : Partial :=
  { m := BitVec.ofNat 32 f32ninf, l := 0#32, o := List.replicate dim 0#32, blot := true }

/-- Partials that a home controller holds or awaits. -/
def partialsHeld (s : State) (d : Nat) : Nat :=
  ((getAtt s d).decodes.map (fun x => x.partials.length + x.flying.length)).sum

/-- An image that fails the loader's checks (R433): its record, its counts and the outcome of its launches. -/
def rejectProgram (d fn : Nat) (addr : Nat) (s : State) : State :=
  [0, 1].foldl (fun s i => addReg (nmuBlk (2 * d + i) + 0x1C) 1 s) (report 0x208 (oEngine 1 d) fn addr s)

/-- Send one launch of a decode: to a unit that holds no queued launch. -/
def sendLaunch (d home i n : Nat) (x : Decode) (s : State) : State :=
  let f := x.req.fn
  let a := decDesc x.req.desc
  let b := n / x.heads.length
  let k := n % x.heads.length
  let key := b * 256 + k
  match x.blocks[b]? with
  | none => s
  | some e =>
    let put := fun (p : Partial) (bad : Bool) (s : State) =>
      putDecode home i { x.setSent d (n + 1) with partials := kvInsert x.partials key p, busErr := x.busErr || bad } s
    match fnDram s f (kvPageAt s f e.page), devAddr s f (kvPageAt s f e.page) with
    | some l, some da =>
      let st := l.stack - 4
      let u := l.nmu
      if nmuBad s st u || wWithdrawn (kvWord s f e.page) then put (lostPartial x.hdim) false s
      else
        let unit := getNmu s st u
        if unit.queued.isSome || !unit.arriving.isEmpty then s
        else
          let img := readImage { fn := f, org := oEngine 1 d } a.prog s
          match (if img.2 then checkImage img.1 else none) with
          | none => put (lostPartial x.hdim) true (rejectProgram d f a.prog s)
          | some ws =>
            match installProg d ws s with
            | none => s
            | some (s, slot) =>
              let o := da - pimBase
              let lam := 2 ^ 18 * (o >>> 28) + o % 2 ^ 18
              let r := readT { accOf s x.req.runner with org := oEngine 1 d } (a.q + k * 256) 256 x.req.blot s
              let tag := ((getAtt r.s d).launches * 2 + d) % 2 ^ 32
              let la : NLaunch := { fn := f, entry := 64 * slot, pblot := x.req.blot || e.pblot, tag := tag,
                                    params := launchParams x a e lam (a.first + k), input := tBytes r.data, prog := progSha ws }
              let s := modNmu st u (fun y => { y with arriving := y.arriving ++ [la] }) (addReg (attBlk d + 0x18) 1 r.s)
              let s := modAtt d (fun y => { y with
                launches := y.launches + 1
                progs := y.progs.map (fun p => if p.sha = la.prog then { p with used := y.launches + 1 } else p) }) s
              putDecode home i { x.setSent d (n + 1) with flying := x.flying ++ [(tag, key, tBlot r.data)],
                                                           busErr := x.busErr || !r.ok } s
    | _, _ => put (lostPartial x.hdim) true s

/-- ATT_LAUNCH: the controller of a floor die sends its next launch, unless the store of partials is full; for some NCLK cycles it has waited
for its unit. -/
def execAttLaunch (d : Fin 2) (waited : Nat) (s : State) : Out :=
  .next (match dueLaunch s d with
    | none => s
    | some (home, i, x, n) =>
      if 4096 ≤ partialsHeld s home then s else sendLaunch d home i n x (addReg (attBlk d + 0x1C) waited s))

/-! ### Completions (R455, R456) -/

/-- The decode that waits for a launch: its home, its place, and what the launch brings. -/
def findFlying (s : State) (tag : Nat) : Option (Nat × Nat × Decode × Nat × Bool) :=
  [0, 1].findSome? (fun home =>
    let l := (getAtt s home).decodes
    (List.range l.length).findSome? (fun i =>
      match l[i]? with
      | none => none
      | some x => (kvFind x.flying tag).map (fun e => (home, i, x, e.1, e.2))))

/-- The partial of a completion (R491): a launch that did not run leaves a blotted one; a slot that the program did not write is
free, by what it wrote (R6, log 38). -/
def partialOf (dim : Nat) (dn : NDone) (blot : Bool) : Partial :=
  if 5 ≤ dn.status then lostPartial dim
  else
    let slots := dim / 32
    let o := (List.range dim).map (fun k =>
      match kvFind dn.slots (k / 32) with
      | some v => BitVec.ofNat 32 (nvGet v (k % 32))
      | none => Config.slotFill (dn.slots.map (fun e => e.1)) k)
    { m := dn.res0, l := dn.res1, o := o,
      blot := blot || dn.resBlot ≠ 0 || (List.range slots).any (fun i => kvGet (fun _ => false) dn.slotBlots i) }

/-- NMU_COMPLETION: the controller takes a unit's oldest completion with its results, and its partial is merged in its turn. -/
def execNmuCompletion (st : Fin 4) (u : Fin 256) (s : State) : Out :=
  .next (match (getNmu s st u).done with
    | [] => s
    | dn :: rest =>
      let s := startQueued st u (modNmu st u (fun x => { x with done := rest }) s)
      match findFlying s dn.tag with
      | none => s
      | some (home, i, x, key, qblot) =>
        let blot := qblot || ((x.blocks[key / 256]?).map (fun b => b.blot)).getD true
        let p := partialOf x.hdim dn blot
        let x := { x with flying := x.flying.filter (fun e => e.1 ≠ dn.tag), partials := kvInsert x.partials key p,
                          busErr := x.busErr || [2, 3, 5].contains dn.status, busy := x.busy || decide (dn.status = 7),
                          wblots := sat32 x.wblots dn.wblots }
        putDecode home i x (bumpFree s))

/-! ### Clears, flush, and a function's reset -/

def execAttCountClear (d : Fin 2) (w : BitVec 32) (s : State) : Out :=
  .next (onOne w (clearWords (attBlk d + 4) (attBlk d + 0x28)) s)
def execAttLabFlush (d : Fin 2) (w : BitVec 32) (s : State) : Out :=
  .next (onOne w (modAtt d (fun a => { a with lab := [] })) s)

/-- What a reset of a function drops in the controllers (R174): its requests and decodes, and at step 6 its buffered entries. -/
def attReset (f : Nat) (s : State) : State :=
  [0, 1].foldl (fun s d => modAtt d (fun a => { a with
    queue := a.queue.filter (fun x => x.fn ≠ f)
    asks := a.asks.filter (fun x => x.fn ≠ f)
    decodes := a.decodes.filter (fun x => x.req.fn ≠ f)
    lab := a.lab.filter (fun e => e.1 ≠ f) }) s) s

end Sys2Proof.Machine
end

