-- ==== Sys2Proof/Machine/Training.lean ====
section
/-!
DEFINITION. The training path's commands (12.2, 12.3, 12.6): SEED_SET, and shard records written and read by the tensor table of the
function's loaded schedule.
-/
namespace Sys2Proof.Machine

/-- The requester of a command that hub firmware runs for a function. -/
def fwAcc (f : Nat) : Acc := { fn := f, org := oHub 0 0 }

/-- SEED_SET (R510). -/
def execSeedSet (h : CmdHdr) (seed step : Nat) (s : State) : Out :=
  runOp h 0x42 [seed, step] (fun s =>
    fail h 0x42 stOk (modFn h.fn (fun x => { x with seed := seed % 2 ^ 64, step := step % 2 ^ 64 }) s)) s

/-! ### The tensor table (Tables 12.2 to 12.4) -/

/-- An entry of the tensor table. -/
structure Tensor where
  id : Nat
  dtype : Nat
  rank : Nat
  role : Nat
  layout : Nat
  scale : Nat
  dims : List Nat
  addr : Nat
  deriving DecidableEq, Repr

/-- Four 8-byte fields of a record. -/
def quad (l : List Byte) (off : Nat) : List Nat := (List.range 4).map (fun i => field l (off + 8 * i) 8)

def tensorOf (l : List Byte) : Tensor :=
  { id := field l 0 4, dtype := field l 4 1, rank := field l 5 1, role := field l 6 1, layout := field l 7 1,
    scale := field l 8 4, dims := quad l 16, addr := field l 48 8 }

/-- Element bytes of a DTYPE. -/
def dtypeBytes (d : Nat) : Nat := if d = 0 ∨ d = 6 then 4 else if d = 1 ∨ d = 2 then 2 else 1
def Tensor.size (t : Tensor) : Nat := dtypeBytes t.dtype

/-- The table that a function's shard commands use (R509): that of its schedule loaded last among those that hold one. -/
def tensorTable (s : State) (f : Nat) : Option (List Tensor) :=
  ((s.scheds.filter (fun x => x.fn = f && !x.tensors.isEmpty)).getLast?).map (fun x => x.tensors.map tensorOf)

/-- The product of a list. -/
def prodOf (l : List Nat) : Nat := l.foldl (fun a b => a * b) 1

/-- The address of an element by its four indices (R507, R508). -/
def Tensor.place (t : Tensor) (i : List Nat) : Nat :=
  let e := (List.range 4).foldl (fun a k => a * nth 1 t.dims k + nth 0 i k) 0
  if t.layout = 1 then
    let n := nth 1 t.dims 0
    t.addr + (nth 0 i 1 / 32 * n + nth 0 i 0) * 32 * t.size + nth 0 i 1 % 32 * t.size
  else t.addr + e * t.size

/-! ### Boxes -/

/-- A box: its first element and its extents. -/
structure Box where
  off : List Nat
  ext : List Nat
  deriving DecidableEq, Repr

/-- The indices of a number within extents, row-major. -/
def unrank (ext : List Nat) (n : Nat) : List Nat :=
  (List.range 4).map (fun k => n / prodOf (ext.drop (k + 1)) % max 1 (nth 1 ext k))

/-- The elements of a box in row-major order. -/
def Box.elems (b : Box) : List (List Nat) :=
  (List.range (prodOf b.ext)).map (fun n => (unrank b.ext n).zipWith (fun x y => x + y) b.off)

/-- The largest payload that a record's inner dimensions may take. -/
def shardMax : Nat := 16777216

/-- The records of a tensor (R529): the smallest d whose inner extent fits, runs of q in dimension d. -/
def shardBoxes (t : Tensor) : List Box :=
  let inner := fun (d : Nat) => prodOf ((t.dims.take t.rank).drop (d + 1)) * t.size
  let d := ((List.range t.rank).find? (fun d => decide (inner d ≤ shardMax))).getD (t.rank - 1)
  let dd := nth 1 t.dims d
  let q := min dd (shardMax / inner d)
  let outer := (t.dims.take d) ++ [ceilDiv dd q]
  (List.range (prodOf outer)).map (fun n =>
    let i := unrank (outer ++ List.replicate (3 - d) 1) n
    let first := nth 0 i d * q
    { off := (List.range 4).map (fun k => if k < d then nth 0 i k else if k = d then first else 0)
      ext := (List.range 4).map (fun k => if k < d then 1 else if k = d then min q (dd - first) else nth 1 t.dims k) })

/-- PAYLOAD_BYTES of a box (Table 12.8). -/
def payloadBytes (size : Nat) (ext : List Nat) : Nat := ceilDiv (prodOf ext * size) 64 * 64

/-- A record header with its CRC field. -/
def shardHeader (t : Tensor) (b : Box) (blot : Bool) (crc : Nat) : List Byte :=
  [0x4E#8, 0x5A#8, 0x53#8, 0x52#8] ++ leBytes 2 1 ++ leBytes 1 t.dtype ++ leBytes 1 t.rank ++ leBytes 4 t.id ++ leBytes 1 t.role ++
    leBytes 1 (b2n blot) ++ leBytes 2 0 ++ leBytes 4 t.scale ++ leBytes 4 crc ++ leBytes 8 (payloadBytes t.size b.ext) ++
    t.dims.flatMap (leBytes 8) ++ b.off.flatMap (leBytes 8) ++ b.ext.flatMap (leBytes 8)

/-! ### SHARD_EXPORT -/

/-- A granule as it was read. -/
abbrev GranMap := List (Nat × GranRead)

/-- Read granules as an engine stream, each once; each bus error is recorded. -/
def readGrans (acc : Acc) (gs : List Nat) (s : State) : GranMap × State :=
  gs.foldl (fun (x : GranMap × State) g =>
    if (kvFind x.1 g).isSome then x
    else
      let r := readGran x.2 acc (64 * g)
      (kvInsert x.1 g r, if r.ok then x.2 else readError acc (64 * g) x.2)) ([], s)

/-- One record: its bytes with the blot bits of the granules that they came from, whether an element came from a blotted granule or a bus error,
whether no bus error was met. -/
def shardRecord (acc : Acc) (t : Tensor) (b : Box) (s : State) : List TByte × Bool × Bool × State :=
  let at_ := b.elems.map t.place
  let r := readGrans acc (at_.map (fun a => a / 64)) s
  let data := at_.flatMap (fun a => match kvFind r.1 (a / 64) with
    | none => []
    | some g => ((g.data.drop (a % 64)).take t.size).map (fun x => (x, g.blot)))
  let payload := data ++ List.replicate (payloadBytes t.size b.ext - data.length) (0#8, false)
  let blot := r.1.any (fun e => e.2.blot)
  let crc := crc32 (shardHeader t b blot 0 ++ tBytes payload)
  ((shardHeader t b blot crc).map (fun x => (x, false)) ++ payload, blot, r.1.all (fun e => e.2.ok), r.2)

/-- SHARD_EXPORT (R529, R530): nothing is written where the records need more than LEN. BLOTS counts the blotted granules that it writes (R227,
R233) and the blotted records. -/
def execShardExport (h : CmdHdr) (dst len first count : Nat) (s : State) : Out :=
  runOp h 0x40 [dst, len, first, count] (fun s =>
    match tensorTable s h.fn with
    | none => fail h 0x40 stNoJob s
    | some tab =>
      if tab.length < first + count then fail h 0x40 stBadParam s
      else
        let acc := fwAcc h.fn
        let rs := ((tab.drop first).take count).flatMap (fun t => (shardBoxes t).map (fun b => (t, b)))
        let total := (rs.map (fun (r : Tensor × Box) => 128 + payloadBytes r.1.size r.2.ext)).sum
        if len < total then fail h 0x40 stQuota s
        else
          let o := rs.foldl (fun (o : Wrote × Nat × Nat) r =>
            let x := shardRecord acc r.1 r.2 o.1.s
            let w := writeT acc (dst + o.2.1) x.1 false { o.1 with s := x.2.2.2, ok := o.1.ok && x.2.2.1 }
            (w, o.2.1 + x.1.length, o.2.2 + b2n x.2.1)) (Wrote.start (bumpFree s), 0, 0)
          let blots := sat32 o.1.blots o.2.2
          finish h 0x40 (dataStatus o.1.ok blots) blots total 0 o.1.s) s

/-! ### SHARD_IMPORT -/

/-- The entry and box of a record that passes the checks of R531, from its header and what follows it. -/
def checkRecord (tab : List Tensor) (l : List Byte) : Option (Tensor × Box) :=
  if l.length < 128 ∨ l.take 4 ≠ [0x4E#8, 0x5A#8, 0x53#8, 0x52#8] ∨ field l 4 2 ≠ 1 then none
  else
    match tab.find? (fun t => decide (t.id = field l 8 4 ∧ t.role = field l 12 1)) with
    | none => none
    | some t =>
      let b : Box := { off := quad l 64, ext := quad l 96 }
      let n := payloadBytes t.size b.ext
      if t.dtype = field l 6 1 ∧ t.scale = field l 16 4 ∧ t.rank = field l 7 1 ∧ t.dims = quad l 32 ∧
          (List.range 4).all (fun k => decide (nth 0 b.off k + nth 0 b.ext k ≤ nth 0 t.dims k)) ∧
          field l 24 8 = n ∧ 128 + n ≤ l.length ∧
          field l 20 4 = crc32 (putBytes (l.take 128) 20 (leBytes 4 0) ++ (l.drop 128).take n)
      then some (t, b) else none

/-- The bytes that a record writes, granule by granule. -/
def shardWrites (t : Tensor) (b : Box) (payload : List Byte) : List (Nat × List (Option Byte)) :=
  let es := b.elems
  (List.range es.length).foldl (fun m i =>
    let a := t.place (nth [] es i)
    (List.range t.size).foldl (fun m j =>
      kvInsert m (a / 64) ((kvGet (fun _ => List.replicate 64 none) m (a / 64)).set (a % 64 + j) (payload[i * t.size + j]?))) m) []

/-- Apply records in order: how many, and whether none failed a check. -/
def importRecords (acc : Acc) (tab : List Tensor) : Nat → List TByte → Nat → Wrote → Nat × Bool × Wrote
  | 0, _, n, w => (n, true, w)
  | fuel + 1, l, n, w =>
    if l.isEmpty then (n, true, w)
    else
      match checkRecord tab (tBytes l) with
      | none => (n, false, w)
      | some (t, b) =>
        let size := 128 + payloadBytes t.size b.ext
        let blot := bit (field (tBytes l) 13 1) 0 || tBlot (l.take size)
        let w := (shardWrites t b ((tBytes l).drop 128)).foldl (fun w g => writeGran acc (64 * g.1) g.2 blot w) w
        importRecords acc tab fuel (l.drop size) (n + 1) w

/-- SHARD_IMPORT (R531, R532). -/
def execShardImport (h : CmdHdr) (src len : Nat) (s : State) : Out :=
  runOp h 0x41 [src, len] (fun s =>
    match tensorTable s h.fn with
    | none => fail h 0x41 stNoJob s
    | some tab =>
      let acc := fwAcc h.fn
      let r := readT acc src len false s
      let o := importRecords acc tab (len / 128 + 1) r.data 0 { s := bumpFree r.s, ok := r.ok, blots := 0 }
      finish h 0x41 (if o.2.1 then dataStatus o.2.2.ok o.2.2.blots else stBadImage) o.2.2.blots 0 o.1 o.2.2.s) s

end Sys2Proof.Machine
end

