-- ==== Sys2Proof/Machine/Blotter.lean ====
section
/-!
DEFINITION. The blotter (15.1, 15.7), the platform events that follow from its records (R702), and the life record (15.6).
-/
namespace Sys2Proof.Machine

/-! ### Platform events (R702) -/

/-- Send a platform event to the receiver, or queue it: 64 deep, the oldest dropped and counted in SEC_PLDM_DROP. -/
def sendEvent (payload : List Byte) (s : State) : State :=
  match s.sec.receiver with
  | some _ => emit (.management 0x02 payload) s
  | none =>
    if s.sec.events.length < 64 then modSec (fun x => { x with events := x.events ++ [payload] }) s
    else addReg (secBlk + 0x3C) 1 (modSec (fun x => { x with events := x.events.drop 1 ++ [payload] }) s)

/-- A change of a state sensor, sent as a sensorEvent (class 0x00): sensor number of the model and its new state. -/
def stateEvent (sensor new : Nat) (s : State) : State := sendEvent (0x00#8 :: leBytes 2 sensor ++ leBytes 1 new) s

/-! ### Records -/

/-- A record's 32 bytes (Table 15.1). -/
def recordBytes (r : FaultRec) : List Byte :=
  leBytes 6 r.origin ++ leBytes 2 r.cls ++ leBytes 1 r.sev ++ leBytes 1 r.fn ++ leBytes 6 r.pace ++ leBytes 8 r.utc ++
    leBytes 4 r.count ++ leBytes 4 r.detail

/-- Severity of a class (Table 15.3): 0 INFO, 1 WARNING, 2 ERROR, 3 FATAL. CRACKED_CONNECTION is an ERROR above twice the model (R604). -/
def severityOf (s : State) (r : Report) : Nat :=
  if ([0x204, 0x308, 0x502] : List Nat).contains r.cls then 0
  else if ([0x106, 0x107, 0x202, 0x205, 0x20C, 0x304, 0x305, 0x309, 0x402, 0x408, 0x507] : List Nat).contains r.cls then 1
  else if ([0x407, 0x501, 0x506] : List Nat).contains r.cls then 3
  else if r.cls = 0x403 then
    (if 2 * getF s (pwrBlk + 0x1400 + 4 * bits r.origin 32 8) 14 14 < r.detail then 2 else 1)
  else 2

/-- The class-specific AF vector (Table 15.9). -/
def classVector (c : Nat) : Option Nat :=
  if ([0x401, 0x402, 0x403, 0x404, 0x405, 0x406, 0x407, 0x408] : List Nat).contains c then some 97
  else if ([0x301, 0x302, 0x303, 0x305] : List Nat).contains c then some 98
  else if ([0x104, 0x504, 0x506] : List Nat).contains c then some 99
  else if ([0x306, 0x307, 0x309, 0x20B] : List Nat).contains c then some 102
  else if c = 0x507 then some 103
  else none

/-- Does Table 15.9 mark a record for PLDM? -/
def pldmMarked (r : FaultRec) : Bool :=
  decide (2 ≤ r.sev) ||
    ([0x401, 0x402, 0x403, 0x404, 0x405, 0x406, 0x407, 0x408, 0x104, 0x504, 0x506, 0x306, 0x307, 0x309, 0x20B, 0x507] : List Nat).contains r.cls

/-- The vectors of an opening record (R639). -/
def openVectors (r : Report) (s : State) : State :=
  let s := signal 0 96 s
  let s := if 1 ≤ r.fn ∧ r.fn ≤ 64 then signal r.fn 24 s else s
  match classVector r.cls with
  | none => s
  | some v =>
    let s := signal 0 v s
    if v = 98 ∧ 1 ≤ r.fn ∧ r.fn ≤ 64 then signal r.fn 25 s else s

/-- What follows from a record's closing: an ERROR or FATAL record goes to the event log (R640), a marked one to PLDM (R702). -/
def closing (r : FaultRec) (s : State) : State :=
  let s := if 2 ≤ r.sev then
    modHub (fun h => { h with eventLog := (if h.eventLog.length < 65536 then h.eventLog else h.eventLog.drop 1) ++ [recordBytes r] }) s else s
  if pldmMarked r then sendEvent (0xF0#8 :: recordBytes r) s else s

/-- Has every reader entitled to a record read it (R638)? -/
def readByAll (r : FaultRec) : Bool := r.readAf && (r.readVi || decide (r.fn = 0) || decide (64 < r.fn))

/-- Remove the first record that a test accepts. -/
def dropFirst (p : FaultRec → Bool) : List FaultRec → List FaultRec
  | [] => []
  | r :: l => if p r then l else r :: dropFirst p l

/-- Room for a new record (R637): none where every record is open. With it whether an unread record is lost. -/
def makeRoom (l : List FaultRec) : Option (List FaultRec × Bool) :=
  if l.length < 4096 then some (l, false)
  else if l.any (fun r => r.closed && readByAll r) then some (dropFirst (fun r => r.closed && readByAll r) l, false)
  else
    match (List.range 4).find? (fun v => l.any (fun r => r.closed && decide (r.sev = v))) with
    | none => none
    | some v => some (dropFirst (fun r => r.closed && decide (r.sev = v)) l, true)

/-- A report opens a new record, closed at once when FATAL. -/
def openRecord (r : Report) (s : State) : State :=
  match makeRoom s.recs with
  | none => addReg (bltBlk + 8) 1 s
  | some (l, lost) =>
    let sev := severityOf s r
    let x : FaultRec := { cls := r.cls, origin := r.origin, fn := r.fn, sev := sev, count := r.count, detail := r.detail, pace := r.pace,
                          utc := r.utc, opened := s.now, closed := decide (sev = 3), readAf := false, readVi := false }
    let s := if lost then addReg (bltBlk + 8) 1 s else s
    let s := openVectors r { s with recs := l ++ [x] }
    if sev = 3 then closing x s else s

/-- The order in which reports of one cycle are taken: ORIGIN, then CLASS. -/
def reportBefore (a b : Report) : Bool :=
  decide (a.origin < b.origin) || (decide (a.origin = b.origin) && decide (a.cls < b.cls))

/-- The report that the blotter takes next. -/
def nextReport : List Report → Option Report
  | [] => none
  | r :: l => match nextReport l with
    | none => some r
    | some x => if reportBefore x r then some x else some r

/-- Drop one report. -/
def dropReport (r : Report) : List Report → List Report
  | [] => []
  | x :: l => if x = r then l else x :: dropReport r l

/-- The blotter accepts a report: it adds to an open record of its ORIGIN, CLASS and FUNCTION, or opens one (R636). -/
def execBlotterAccept (s : State) : Out :=
  .next (match nextReport s.reports with
    | none => s
    | some r =>
      let s := addReg (bltBlk + 0xC) 1 { s with reports := dropReport r s.reports }
      let same := fun (x : FaultRec) => !x.closed && decide (x.origin = r.origin ∧ x.cls = r.cls ∧ x.fn = r.fn)
      if s.recs.any same then
        { s with recs := s.recs.map (fun (x : FaultRec) => if same x then { x with count := sat32 x.count r.count } else x) }
      else openRecord r s)

/-- WINDOW_MS in ns. -/
def windowNs (s : State) : Nat := getF s (bltBlk + 4) 0 16 * 1000000

/-- Records whose window has ended at a time close (R636). -/
def execRecordClose (t : Nat) (s : State) : Out :=
  .next (
    let s := { s with now := max s.now t }
    let due := fun (r : FaultRec) => !r.closed && decide (r.opened + windowNs s ≤ s.now)
    let l := s.recs.filter due
    let s := { s with recs := s.recs.map (fun (r : FaultRec) => if due r then { r with closed := true } else r) }
    l.foldl (fun s r => closing r s) s)

/-! ### Reading records -/

/-- Write an opcode's answer at an address of its function and reply: BUS_ERROR where a write meets one (R238). -/
def replyData (h : CmdHdr) (op dst : Nat) (l : List Byte) (r0 : Nat) (s : State) : State :=
  let w := writeSpan (fwAcc h.fn) dst l false (Wrote.start s)
  finish h op (dataStatus w.ok 0) 0 r0 0 w.s

/-- May a function read a record, and has it not? -/
def unreadBy (f : Nat) (r : FaultRec) : Bool := r.closed && (if f = 0 then !r.readAf else decide (r.fn = f) && !r.readVi)

/-- Mark the first n records that a function has not read. -/
def markRead (f : Nat) : Nat → List FaultRec → List FaultRec
  | _, [] => []
  | 0, l => l
  | n + 1, r :: l =>
    if unreadBy f r then (if f = 0 then { r with readAf := true } else { r with readVi := true }) :: markRead f n l
    else r :: markRead f (n + 1) l

/-- BLOTTER_READ (R638): RESULT0 is the number of records written. -/
def execBlotterRead (h : CmdHdr) (dst max : Nat) (s : State) : Out :=
  runOp h 0x62 [dst, max] (fun s =>
    let f := h.fn.val
    let l := (s.recs.filter (unreadBy f)).take max
    replyData h 0x62 dst (l.flatMap recordBytes) l.length { s with recs := markRead f l.length s.recs }) s

/-- RETIRED_PAGES_READ (R404, Table 9.5). -/
def retiredBytes (s : State) (r : Retired) : List Byte :=
  leBytes 8 (pageAddr s r.stack (65536 * (r.channel * 16 + r.bank) + r.page)) ++ leBytes 1 r.stack ++ leBytes 1 r.channel ++
    leBytes 1 r.bank ++ leBytes 1 r.cause ++ leBytes 4 r.page ++ leBytes 8 r.utc ++ leBytes 6 r.pace ++ leBytes 2 0
def execRetiredPagesRead (h : CmdHdr) (dst max : Nat) (s : State) : Out :=
  runOp h 0x22 [dst, max] (fun s =>
    let l := s.hub.retired.take max
    replyData h 0x22 dst (l.flatMap (retiredBytes s)) l.length s) s

/-! ### The life record (15.6) -/

/-- Repair of a row lane: does it use its spare group (Table 8.14)? -/
def laneSpared (s : State) (t n : Nat) : Bool := getB s (twrBlk t + 0x10000 + 4 * n) 31

/-- The summary (Table 15.8). -/
def lifeSummary (s : State) : List Byte :=
  let h := s.hub
  let base := getF s (pwrBlk + 0x200C) 16 16
  let flags := b2n h.calendarStale + 2 * b2n (getB s 0x200 31) + 4 * b2n (decide (base ≠ 0))
  let head := [0x4E#8, 0x5A#8, 0x4C#8, 0x52#8] ++ leBytes 2 1 ++ leBytes 2 0 ++ leBytes 8 Config.serial.toNat ++ leBytes 8 h.lifeClock ++
    leBytes 8 h.powerOn ++ leBytes 8 h.energy ++ leBytes 8 (utcNow s) ++ leBytes 4 flags ++ leBytes 2 h.lifeT ++ leBytes 2 h.lifeC ++
    leBytes 4 h.trips ++ leBytes 4 h.watchdogs ++ leBytes 4 h.vrAlerts ++ leBytes 4 h.switches ++ leBytes 1 (popCount 64 (reg64 s 0x204)) ++
    leBytes 1 0 ++ leBytes 2 h.mcoresFailed ++ leBytes 2 h.vcoresFailed ++ leBytes 2 h.nmusFailed
  let rows := (List.range 16).flatMap (fun t => leBytes 2 (getTower s t).spares.length)
  let remaps := (List.range 8).flatMap (fun m => leBytes 2 (getF s (mscBlk m + 0x3100) 0 6))
  let retired := (List.range 8).flatMap (fun m => leBytes 2 (h.retired.filter (fun r => r.stack = m)).length)
  let bond := (List.range 16).flatMap (fun t =>
    leBytes 1 (((List.range 8).map (fun (n : Nat) => b2n (laneSpared s t n) * 2 ^ n)).sum))
  let lanes := (List.range 12).flatMap (fun p =>
    let x : Port := kvGet (fun _ => {}) s.ports p
    leBytes 4 (kvGet (fun _ => 0) h.retrains p % 65536 * 65536 + (x.failedTx.length + x.failedRx.length)))
  let cycles := (List.range 96).flatMap (fun i => leBytes 4 (kvGet (fun _ => 0) h.cycles i))
  let hours := h.tjHours.flatMap (leBytes 4)
  padTo 1024 (head ++ rows ++ remaps ++ retired ++ bond ++ lanes ++ cycles ++ hours ++ leBytes 4 base)

/-- A firmware history entry's 32 bytes. -/
def histBytes (e : FwHist) : List Byte :=
  leBytes 8 e.utc ++ leBytes 6 e.pace ++ leBytes 1 e.slot ++ leBytes 1 e.kind ++ leBytes 8 e.version ++ leBytes 8 0

/-- The whole life record as LIFE_RECORD_READ returns it. -/
def lifeBytes (s : State) : List Byte :=
  lifeSummary s ++ leBytes 4 s.hub.fwHist.length ++ leBytes 4 s.hub.eventLog.length ++ List.replicate 56 0#8 ++
    s.hub.fwHist.flatMap histBytes ++ s.hub.eventLog.flatten

/-- LIFE_RECORD_READ (R657): the record's first LEN bytes. -/
def execLifeRecordRead (h : CmdHdr) (dst len : Nat) (s : State) : Out :=
  runOp h 0x63 [dst, len] (fun s =>
    let l := (lifeBytes s).take len
    replyData h 0x63 dst l l.length s) s

/-- A firmware history entry (kind 0 staged, 1 switched, 2 reverted, 3 watchdog boot), of 1,024. -/
def noteFw (slot kind : Nat) (s : State) : State :=
  let x := if slot = 0 then s.hub.slotA else s.hub.slotB
  let e : FwHist := { utc := utcNow s, pace := paceNumber s, slot := slot, kind := kind, version := x.major + 2 ^ 16 * x.minor + 2 ^ 32 * x.build }
  modHub (fun h => { h with fwHist := (if h.fwHist.length < 1024 then h.fwHist else h.fwHist.drop 1) ++ [e] }) s

/-- The bin of TJ_HOURS of a mean T_j in 1/16 °C (R658). -/
def tjBin (tj : Int) : Nat := if tj < 960 then 0 else if 1840 ≤ tj then 12 else (1 + (tj - 960) / 80).toNat

/-- Each hour of life clock (R658, R661): the mean T_j of the hour in 1/16 °C, its seconds with a VPKG domain on, and the energy. -/
def execLifeHour (tj : Int) (poweredSeconds joules : Nat) (s : State) : Out :=
  .next (
    let b := tjBin tj
    let s := modHub (fun h => { h with lifeClock := h.lifeClock + 3600, powerOn := h.powerOn + min 3600 poweredSeconds, energy := h.energy + joules }) s
    let s := modHub (fun h => { h with tjHours := h.tjHours.set b (nth 0 h.tjHours b + 1) }) s
    modHub (fun h => { h with summary := lifeSummary s }) s)

/-- A(T) of R659 at the lower edges of the bins of TJ_HOURS, times 10 ^ 24, rounded down. -/
def lifeAccel : List Nat :=
  [251355523837538749524578, 251355523837538749524578, 360468217134214958464859, 511543471701969868556540, 718673668874198189671115,
   1000000000000000000000000, 1378676749903026651648714, 1884015838398454209148155, 2552835118913482541650413, 3431035300253258218295474,
   4575431574938619922635851, 6055867077614918166802239, 7957636134200395633898715]

/-- LIFE_T of the hours in 1/10,000. -/
def lifeT (hours : List Nat) : Nat :=
  (10000 * ((hours.zip lifeAccel).map (fun (x : Nat × Nat) => x.1 * x.2)).sum) / (52560 * 10 ^ 24)
/-- LIFE_C of one tower's counts in 1/10,000, with twice the amplitudes of R659. -/
def lifeCOf (s : State) (t : Nat) : Nat :=
  (((([15, 30, 60, 100, 140, 180] : List Nat).zip (List.range 6)).map
    (fun (x : Nat × Nat) => kvGet (fun _ => 0) s.hub.cycles (t * 6 + x.2) * x.1 * x.1)).sum) / 57600
def lifeC (s : State) : Nat := (List.range 16).foldl (fun m t => max m (lifeCOf s t)) 0

/-- Each 24 h of life clock: LIFE_T and LIFE_C, and the thresholds reached for the first time (R659, R660). -/
def execLifeDay (s : State) : Out :=
  .next (
    let t := min 65535 (lifeT s.hub.tjHours)
    let c := min 65535 (lifeC s)
    let used := max t c
    let n := (([5000, 8000, 10000] : List Nat).filter (fun x => decide (x ≤ used))).length
    let new := n - s.hub.thresholds
    let s := modHub (fun h => { h with lifeT := t, lifeC := c, thresholds := max h.thresholds n }) s
    (List.range new).foldl (fun s _ => report 0x507 oDevice fnDevice used s) s)

/-- TIME_SET (R644, R662): the calendar offset changes, CALENDAR_STALE clears, and every time of an event history moves with it. Events
of other units are held by the real-time clock's count and need no move. -/
def execTimeSet (h : CmdHdr) (utc : Nat) (s : State) : Out :=
  runOp h 0x86 [utc] (fun s =>
    let old := utcNow s
    let shift := fun (x : Nat) => (((x : Int) + utc - old) % 2 ^ 64).toNat
    let s := { s with stk := kvMapAll (fun _ => {}) s.stk (fun (x : Stack) => { x with events := x.events.map (fun (e : PageEvent) => { e with utc := shift e.utc }) }) }
    let off := (((utc : Int) - rtcCount s) % 2 ^ 64).toNat
    fail h 0x86 stOk (setB 0x708 24 false (modHub (fun x => { x with utcOffset := off, calendarStale := false }) s))) s

end Sys2Proof.Machine
end

