-- ==== Sys2Proof/Machine/ConfigStore.lean ====
section
/-!
DEFINITION. The configuration store (16.4): images, parameters, the change of the lists in effect, what staged register fields do
when they take effect (R72, R92), and the digest (R126).
-/
namespace Sys2Proof.Machine

/-! ### Images (R680, R681) -/

/-- A configuration image that keeps its format: kind, mode, entries, whether it is signed, and its bytes. -/
structure CfgImage where
  kind : Nat
  mode : Nat
  entries : List (List Byte)
  signed : Bool
  bytes : List Byte
  deriving DecidableEq, Repr

def zeroBytes (l : List Byte) : Bool := l.all (fun b => b = 0#8)

/-- May a REG entry name a register of this block (R681)? -/
def configBlock (o : Nat) : Bool :=
  match blockOf o with
  | none => false
  | some b =>
    decide (b = hubBlk ∨ b = bltBlk ∨ b = pwrBlk ∨ b = floorBlk 0 ∨ b = floorBlk 1 ∨ b = colBlk 0 ∨ b = colBlk 1) || decide (0x40000000 ≤ b)

/-- Is a parameter key defined (Table 16.6)? -/
def paramKey (k : Nat) : Bool := decide (k = 1 ∨ k = 2 ∨ (0x10 ≤ k ∧ k < 0x18) ∨ (0x20 ≤ k ∧ k < 0x24))

/-- Does an entry keep Table 16.5 and R681? -/
def entryOk (e : List Byte) : Bool :=
  zeroBytes ((e.drop 1).take 3) &&
    (if field e 0 1 = 1 then
      let o := field e 4 4
      decide (o % 4 = 0) && configBlock o && decide (field e 8 4 &&& ((regRow o).rw ||| (regRow o).rwl) = field e 8 4)
    else decide (field e 0 1 = 2) && paramKey (field e 4 4))

/-- Parse a configuration image: its first IMAGE_BYTES bytes (R680). -/
def parseConfig (l : List Byte) : Option CfgImage :=
  let n := field l 8 4
  let size := field l 12 4
  let signed := bit (field l 16 1) 0
  let body := l.take (64 + 16 * n)
  let es := pieces n 16 ((l.drop 64).take (16 * n))
  if l.length < 64 ∨ l.take 4 ≠ [0x4E#8, 0x5A#8, 0x43#8, 0x46#8] ∨ field l 4 2 ≠ 1 ∨ 1 < field l 6 1 ∨ 15 < field l 7 1 ∨
      (field l 6 1 = 0 ∧ field l 7 1 ≠ 0) ∨ 4096 < n ∨ size ≠ 64 + 16 * n + 96 * b2n signed ∨ l.length < size ∨ 1 < field l 16 1 ∨
      !zeroBytes ((l.drop 17).take 3) ∨ !zeroBytes ((l.drop 24).take 40) ∨ crc32 (putBytes body 20 [0#8, 0#8, 0#8, 0#8]) ≠ field l 20 4 ∨
      !es.all entryOk then none
  else some { kind := field l 6 1, mode := field l 7 1, entries := es, signed := signed, bytes := l.take size }

/-- The current owner's key: the last one fused (16.6). -/
def ownerKey (s : State) : Option (Nat × Nat) := s.sec.owners.getLast?.map (fun k => (beNat (k.take 48), beNat (k.drop 48)))

/-- Life-cycle state (Table 16.7). -/
def lifeState (s : State) : Nat := getF s secBlk 0 2

/-- Does an image's signature satisfy the life-cycle state (R682): optional in BLANK, checked when present in PROVISIONED, required after? -/
def signatureOk (s : State) (x : CfgImage) : Bool :=
  let ok := match ownerKey s with
    | none => false
    | some k => ecdsaVerify k (x.bytes.take (x.bytes.length - 96)) (x.bytes.drop (x.bytes.length - 96))
  if lifeState s = 0 then true
  else if lifeState s = 1 then !x.signed || ok
  else x.signed && ok

/-! ### Lists and parameters (R683, R684, Table 16.6) -/

/-- The lists in effect: the base image and the overlays with their slots in order of application. -/
abbrev CfgLists := List Byte × List (Nat × List Byte)
def listsOf (s : State) : CfgLists := (s.hub.base, s.hub.overlays)

/-- The entries of a list of images, the base first. -/
def cfgEntries (c : CfgLists) : List (List Byte) :=
  (c.1 :: c.2.map (fun (x : Nat × List Byte) => x.2)).flatMap (fun l => ((parseConfig l).map (fun x => x.entries)).getD [])

/-- A parameter's value, or its default (Table 16.6): the last entry that gives it. -/
def paramIn (c : CfgLists) (k dflt : Nat) : Nat :=
  (((cfgEntries c).filter (fun e => decide (field e 0 1 = 2 ∧ field e 4 4 = k))).getLast?.map (fun e => field e 8 8)).getD dflt

/-- The lists after a configuration command (R683); none for one that is no configuration command or removes from an empty slot. -/
def cfgNext (c : CfgLists) : StagedKind → Option CfgLists
  | .base l => some (l, c.2)
  | .overlay n l => some (c.1, c.2.filter (fun (x : Nat × List Byte) => x.1 ≠ n) ++ [(n, l)])
  | .overlayRemove n => if c.2.any (fun (x : Nat × List Byte) => x.1 = n) then some (c.1, c.2.filter (fun (x : Nat × List Byte) => x.1 ≠ n)) else none
  | _ => none

/-- Registers whose configured values take effect only at the next bring-up (R686): FJS_TOPO, FJS_COORD, FJL_CTRL, COL_RING_LEN, COL_RINGn. -/
def bootReg (o : Nat) : Bool :=
  decide (o = 0x600 ∨ o = 0x604) || (decide (0x70000000 ≤ o ∧ o < 0x70C00000) && decide (o % 0x100000 = 4)) ||
    [colBlk 0, colBlk 1].any (fun b => decide (o = b + 0x18 ∨ (b + 0x10000 ≤ o ∧ o < b + 0x12000)))

/-- Registers that entries name. -/
def regsNamed (es : List (List Byte)) : List Nat := ((es.filter (fun e => field e 0 1 = 1)).map (fun e => field e 4 4)).eraseDups

/-- A register's value after a change (R684): fields of the old list return to their reset values, then the new list's entries apply in
order. -/
def cfgValue (old new : List (List Byte)) (o : Nat) (cur : Word) : Word :=
  let mine := fun (es : List (List Byte)) => es.filter (fun e => decide (field e 0 1 = 1 ∧ field e 4 4 = o))
  let v := (mine old).foldl (fun (v : Word) e =>
    let m := BitVec.ofNat 32 (field e 8 4)
    (v &&& ~~~m) ||| (regReset o &&& m)) cur
  (mine new).foldl (fun (v : Word) e =>
    let m := BitVec.ofNat 32 (field e 8 4)
    (v &&& ~~~m) ||| (BitVec.ofNat 32 (field e 12 4) &&& m)) v

/-! ### What a staged field does when it takes effect -/

/-- The PIM regions that a function's pool area touches (R466). -/
def poolRegions (s : State) (f : Nat) : List Nat :=
  let p := getFn s f
  if p.kvPages = 0 then []
  else
    let n := kvAreaLen p.kvPages p.kvPageBytes
    let marks := p.kvBase :: (p.kvBase + n - 1) :: (List.range (n / 2 ^ 30 + 1)).map (fun i => 2 ^ 30 * (p.kvBase / 2 ^ 30 + i))
    (marks.filterMap (fun a =>
      if a < p.kvBase ∨ p.kvBase + n ≤ a then none
      else
        match (devAddr s f a).map place with
        | some (.pim o) => some (o / 2 ^ 30)
        | _ => none)).eraseDups

/-- May a value of MEM_PIM_MODE take effect: no region of a pool becomes striped (R466)? -/
def pimAllowed (s : State) (o : Nat) (v : Word) : Bool :=
  let n := (o - 0x300) / 4
  !((List.range 65).any (fun f => (poolRegions s f).any (fun r => decide (r / 32 = n) && pimLocal s r && !(fld v (r % 32) 1 == 1))))

/-- Can a register take a value at a pace boundary (R335, R466)? -/
def regAllowed (s : State) (o : Nat) (v : Word) : Bool :=
  if 0x300 ≤ o ∧ o < 0x318 then pimAllowed s o v
  else if 0x40000000 ≤ o ∧ o < 0x50000000 ∧ o % 0x01000000 = 4 then
    let t := (o - 0x40000000) / 0x01000000
    decide (piecesOf s t = fld v 0 4) || splitAllowed s t (fld v 0 4)
  else true

/-- The device address at which data of a PIM region reads once the region's mode has changed from the one it was written under: the address that
the same place in the DRAM has under the modes now in effect (R59, R61). -/
def movedAddr (s : State) (was : Bool) (a : Nat) : Nat :=
  let l := pimLoc was (a - pimBase)
  pageAddr s l.stack l.lpi + l.byte

/-- The contents of a PIM region stay where they are in the DRAM when its mode changes: bytes, blot bits and cached lines move to the addresses
that they now have (R61). The region's lines leave the stack caches. -/
def permuteRegion (r : Nat) (was : Bool) (s : State) : State :=
  let lo := pimBase + 2 ^ 30 * r
  let hi := lo + 2 ^ 30
  let line := fun (n : Nat) => decide (lo / 512 ≤ n ∧ n < hi / 512)
  let s := { s with
    mem := (s.mem.filter (fun e => decide (lo ≤ e.1 ∧ e.1 < hi))).foldl (fun m e => kvPut (fun _ => 0#8) m (movedAddr s was e.1) e.2) (kvClear s.mem lo hi)
    blots := (s.blots.filter (fun e => decide (lo / 64 ≤ e.1 ∧ e.1 < hi / 64))).foldl
      (fun m e => kvPut (fun _ => false) m (movedAddr s was (64 * e.1) / 64) e.2) (kvClear s.blots (lo / 64) (hi / 64)) }
  let s := (List.range 4).foldl (fun s i => modStack (4 + i) (forgetLines line) s) s
  (List.range 16).foldl (fun s t => modTower t (fun x => { x with lines := x.lines.filter (fun e => !line e.1) }) s) s

/-- A new value of MEM_PIM_MODEn takes effect (R61). -/
def applyPimMode (n : Nat) (v : Word) (s : State) : State :=
  let old := rawReg s (0x300 + 4 * n)
  (List.range 32).foldl (fun s j =>
    if fld old j 1 = fld v j 1 then s else permuteRegion (32 * n + j) (fld old j 1 == 1) s) (setReg (0x300 + 4 * n) v s)

/-- A register takes a value that configuration or staging gives it, with what follows from it. -/
def applyReg (o : Nat) (v : Word) (s : State) : State :=
  if 0x300 ≤ o ∧ o < 0x318 then applyPimMode ((o - 0x300) / 4) v s
  else if 0x500 ≤ o ∧ o < 0x570 then applyStrength ((o - 0x500) / 4) v s
  else if 0x40000000 ≤ o ∧ o < 0x50000000 then
    let t := (o - 0x40000000) / 0x01000000
    let q := o % 0x01000000
    if q = 4 then applySplit t (fld v 0 4) s
    else if 0x1000 ≤ q ∧ q < 0x1180 then applyBankPwr t ((q - 0x1000) / 4) v s
    else setReg o v s
  else setReg o v s

/-- The sum of the 16 tower fractions once some words have new values. -/
def fracSum (s : State) (l : List (Nat × Word)) : Nat :=
  ((List.range 8).map (fun (n : Nat) =>
    let v := (kvFind l (0x30040 + 4 * n)).getD (rawReg s (0x30040 + 4 * n))
    fld v 16 11 + fld v 0 11)).sum

def isFrac (o : Nat) : Bool := decide (0x30040 ≤ o ∧ o < 0x30060)

/-- Apply a list of register values: a set of tower fractions that does not sum to 1,024 is ignored (Table 14.10). -/
def applyRegs (l : List (Nat × Word)) (s : State) : State :=
  let ok := decide (fracSum s l = 1024)
  l.foldl (fun s (e : Nat × Word) => if isFrac e.1 && !ok then s else applyReg e.1 e.2 s) s

/-- The parameters of the lists in effect: AF_RANK into every stack's source 0, coolant sensors present with their kinds. -/
def applyParams (s : State) : State :=
  let c := listsOf s
  let s := (List.range 8).foldl (fun s m => setF (mscBlk m + 0x100) 0 4 (paramIn c 1 0) s) s
  (List.range 4).foldl (fun s k =>
    let v := paramIn c (0x20 + k) 0
    let o := pwrBlk + 0x2020 + 4 * k
    if bit v 31 then setF o 28 2 (bits v 8 2) (setB o 31 true s) else setReg o 0#32 s) s

/-- Registers and new values of a change of lists. -/
def cfgWrites (s : State) (old new : CfgLists) (boot : Bool) : List (Nat × Word) :=
  let a := cfgEntries old
  let b := cfgEntries new
  ((regsNamed (a ++ b)).filter (fun o => boot || !bootReg o)).foldl (fun l o =>
    kvInsert l o (fixWrite s o (rawReg s o) (cfgValue a b o (rawReg s o)))) []

/-- Make a change of the lists (R684, R685): none when an entry cannot take effect. -/
def changeLists (new : CfgLists) (s : State) : Option State :=
  let l := cfgWrites s (listsOf s) new false
  if l.all (fun (e : Nat × Word) => regAllowed s e.1 e.2) then
    some (applyParams (modHub (fun h => { h with base := new.1, overlays := new.2 }) (applyRegs l s)))
  else none

/-- The parameters and registers of the stored configuration at bring-up (stage 6 of Table 16.1). -/
def applyStored (s : State) : State :=
  let c := listsOf s
  applyParams (applyRegs (cfgWrites s ([], []) c true) s)

/-! ### Staged changes at a pace boundary (R92) -/

/-- Is a staged change due at a pace boundary of pace n? -/
def dueAt (n : Nat) (x : Staged) : Bool := decide (x.target ≤ n)
def isBase (k : StagedKind) : Bool := match k with
  | .base _ => true
  | _ => false
def isOverlay (k : StagedKind) : Bool := match k with
  | .overlay .. => true
  | .overlayRemove _ => true
  | _ => false

/-- The opcode of a staged change. -/
def stagedOp : StagedKind → Nat
  | .fwSwitch => 0x85
  | .base _ => 0x50
  | .overlay .. => 0x51
  | .overlayRemove _ => 0x52
  | .powerCap _ => 0x70
  | .unitOut .. => 0x80
  | .unitIn .. => 0x81

/-- Take a staged change from the list. -/
def unstage (x : Staged) : List Staged → List Staged
  | [] => []
  | y :: l => if y = x then l else y :: unstage x l

/-- One configuration command takes effect: its reply carries the pace applied, BAD_PARAM for a slot that is empty by now, or RESOURCE_BUSY. -/
def takeConfig (n : Nat) (x : Staged) (s : State) : State :=
  let s := modHub (fun h => { h with staged := unstage x h.staged }) s
  match cfgNext (listsOf s) x.what with
  | none => fail x.hdr (stagedOp x.what) stBadParam s
  | some c =>
    match changeLists c s with
    | none => fail x.hdr (stagedOp x.what) stBusy s
    | some s => finish x.hdr (stagedOp x.what) stOk 0 n 0 s

/-- The configuration commands that are due at the boundary of pace n. -/
def dueConfigs (n : Nat) (s : State) : List Staged :=
  s.hub.staged.filter (fun x => dueAt n x && (isBase x.what || isOverlay x.what))

/-- Item 2 of R92 for some of the staged commands: base configurations, then overlays, in order of arrival (R683). -/
def takeConfigs (n : Nat) (due : List Staged) (s : State) : State :=
  (due.filter (fun x => isBase x.what) ++ due.filter (fun x => isOverlay x.what)).foldl (fun s x => takeConfig n x s) s

/-- Item 3 of R92: staged register fields, then a staged cap. One that is not allowed yet stays staged. -/
def takeRegs (n : Nat) (s : State) : State :=
  let ok := s.hub.stagedRegs.filter (fun (e : Nat × Word) => regAllowed s e.1 e.2)
  let s := applyRegs ok (modHub (fun h => { h with stagedRegs := h.stagedRegs.filter (fun (e : Nat × Word) => !regAllowed s e.1 e.2) }) s)
  (s.hub.staged.filter (dueAt n)).foldl (fun s x =>
    match x.what with
    | .powerCap w =>
      finish x.hdr 0x70 stOk 0 n 0 (setF (pwrBlk + 4) 0 12 w (modHub (fun h => { h with staged := unstage x h.staged }) s))
    | _ => s) s

/-! ### The digest (R126) -/

/-- The shape byte of Table 3.10. While no system job has started, several schedules of it may be loaded and their shapes may differ; the table names
one job. DESIGN CHOICE (log 11): the started job's shape, else that of the schedule loaded first. -/
def shapeByte (s : State) : Nat :=
  (((systemJob s).bind (schedOf s)).orElse (fun _ => (systemScheds s).head?)).elim 0 (fun x => x.shapeKind)

/-- The schedules of the system job in ascending schedule ID. -/
def digestScheds (s : State) : List Schedule := (systemScheds s).mergeSort (fun a b => decide (a.id ≤ b.id))

/-- The digest of a firmware version (as FW_ACTIVE), lists, schedules and shape: bytes 0 to 7 of SHA-256 (Table 3.10). -/
def digestOf (version : Nat) (c : CfgLists) (scheds : List Schedule) (shape : Nat) : Nat :=
  leNat ((sha256 ([0x4E#8, 0x5A#8, 0x44#8, 0x47#8] ++ leBytes 8 version ++ sha256 c.1 ++ leBytes 1 c.2.length ++
    c.2.flatMap (fun (x : Nat × List Byte) => leBytes 1 x.1 ++ sha256 x.2) ++ leBytes 2 scheds.length ++
    scheds.flatMap (fun x => leBytes 8 x.id ++ beBytes 32 x.sha) ++ leBytes 1 shape)).take 8)

/-- FW_ACTIVE as one number. -/
def fwVersion (s : State) : Nat := reg64 s 0x70C
/-- The digest in effect. -/
def digestNow (s : State) : Nat := digestOf (fwVersion s) (listsOf s) (digestScheds s) (shapeByte s)
/-- The digest at rest (R677). -/
def digestRest (s : State) : Nat := digestOf (fwVersion s) (listsOf s) [] 0

/-! ### The commands (R682, R683, R687) -/

/-- The lists that the configuration commands staged for a target or before it would leave. -/
def projected (target : Nat) (s : State) : CfgLists :=
  let due := s.hub.staged.filter (dueAt target)
  (due.filter (fun x => isBase x.what) ++ due.filter (fun x => isOverlay x.what)).foldl (fun c x => (cfgNext c x.what).getD c) (listsOf s)

/-- Stage a change of a command. -/
def stageChange (h : CmdHdr) (target : Nat) (k : StagedKind) (s : State) : State :=
  modHub (fun x => { x with staged := x.staged ++ [{ what := k, target := target, hdr := h }] }) (startCmd { h := h, op := stagedOp k, raw := [] } s)

/-- Read an image of a command and check it. -/
def withImage (h : CmdHdr) (op src len : Nat) (act : CfgImage → State → State) (s : State) : State :=
  let r := readT (fwAcc h.fn) src len false s
  if !r.ok then fail h op stBusError r.s
  else
    match parseConfig (tBytes r.data) with
    | none => fail h op stBadImage (bumpFree r.s)
    | some x => if signatureOk s x then act x (bumpFree r.s) else fail h op stBadImage (bumpFree r.s)

def execConfigBaseLoad (h : CmdHdr) (src len target : Nat) (s : State) : Out :=
  runOp h 0x50 [src, len, target] (withImage h 0x50 src len (fun x s =>
    if x.kind ≠ 0 then fail h 0x50 stBadParam s else stageChange h target (.base x.bytes) s)) s

def execOverlayApply (h : CmdHdr) (src len target slot : Nat) (s : State) : Out :=
  runOp h 0x51 [src, len, target, slot] (withImage h 0x51 src len (fun x s =>
    if x.kind ≠ 1 ∨ x.mode ≠ slot then fail h 0x51 stBadParam s else stageChange h target (.overlay slot x.bytes) s)) s

def execOverlayRemove (h : CmdHdr) (target slot : Nat) (s : State) : Out :=
  runOp h 0x52 [target, slot] (fun s =>
    if (projected target s).2.any (fun (x : Nat × List Byte) => x.1 = slot) then stageChange h target (.overlayRemove slot) s
    else fail h 0x52 stBadParam s) s

/-- CONFIG_READ writes the images as stored, or nothing and QUOTA. -/
def execConfigRead (h : CmdHdr) (dst len : Nat) (s : State) : Out :=
  runOp h 0x53 [dst, len] (fun s =>
    let l := s.hub.base ++ s.hub.overlays.flatMap (fun (x : Nat × List Byte) => x.2)
    if len < l.length then fail h 0x53 stQuota s else replyData h 0x53 dst l l.length s) s

end Sys2Proof.Machine
end

