-- ==== Sys2Proof/Machine/Collective.lean ====
section
/-!
DEFINITION. The collective engines (13.9): the ring, arming, firings, the reduction in the order of R515, and COLL packets.
-/
namespace Sys2Proof.Machine

/-! ### The table entry and the ring -/

/-- A collective's parameters (Table 13.7). -/
structure CollParam where
  done : Nat
  op : Nat
  parts : Nat
  buf : Nat
  stride : Nat
  len : Nat
  replicas : Nat
  root : Nat
  deriving DecidableEq, Repr

def collParam (b : List Byte) : CollParam :=
  { done := field b 2 2, op := field b 4 1, parts := field b 5 1, buf := field b 8 8, stride := field b 16 8, len := field b 24 8,
    replicas := field b 32 4, root := field b 36 4 }

/-- The ring's length N and the coordinate at a position (R560). -/
def ringLen (s : State) : Nat := getF s (colBlk 0 + 0x18) 0 12
def ringAt (s : State) (i : Nat) : Nat := getF s (colBlk 0 + 0x10000 + 4 * i) 0 18
/-- The device's ring position. -/
def ringPos (s : State) : Option Nat :=
  firstBelow (ringLen s) (fun i => getB s (colBlk 0 + 0x10000 + 4 * i) 31 && decide (ringAt s i = ownCoord s))

/-- Replicas on each device: k = R ÷ N (R562). -/
def localCount (s : State) (p : CollParam) : Nat := p.replicas / max 1 (ringLen s)
/-- Does this device hold a replica? -/
def isLocal (s : State) (p : CollParam) (r : Nat) : Bool := ringPos s == some (r / max 1 (localCount s p))

/-- Kc and Kp (R515, R576). -/
def chunkLen (p : CollParam) : Nat := 16 * ceilDiv p.len (16 * p.replicas)
def partLen (p : CollParam) : Nat := 16 * ceilDiv (chunkLen p) (16 * p.parts)

/-- The offset within a chunk at which the elements of a firing end. -/
def firingEnd (p : CollParam) (n c : Nat) : Nat :=
  min ((n % p.parts) * partLen p + partLen p) (min (chunkLen p) (p.len - c * chunkLen p))

/-- Elements of one piece: what a COLL packet carries at most. -/
def pieceElems : Nat := 1024

/-- The pieces of a firing: chunk and offset in it. -/
def firingPieces (p : CollParam) (n : Nat) : List (Nat × Nat) :=
  (List.range p.replicas).flatMap (fun c =>
    let lo := (n % p.parts) * partLen p
    (List.range (ceilDiv (firingEnd p n c - lo) pieceElems)).map (fun i => (c, lo + pieceElems * i)))

/-- The elements of a piece. -/
def pieceLen (p : CollParam) (n c off : Nat) : Nat := min pieceElems (firingEnd p n c - off)

/-! ### Reading, adding, writing -/

/-- The requester of the engines' accesses: the function of the system job. -/
def collAcc (s : State) : Acc := { fn := s.coll.fn, org := oEngine 2 0 }

/-- Put flags into the system job. -/
def noteSystem (g : RunFlags → RunFlags) (s : State) : State :=
  { s with jobs := s.jobs.map (fun j =>
      if j.system then { j with flags := g j.flags, launch := j.launch.map (fun l => { l with flags := g l.flags }) } else j) }

/-- A buffer access of the engines met a bus error. DESIGN CHOICE (log 26): the two engines work as one, and no rule divides their counts; blots,
resends and bus errors are counted in the block of engine 0, completed firings in both. -/
def collBusError (a : Nat) (s : State) : State :=
  noteSystem (fun f => { f with busError := true }) (addReg (colBlk 0 + 0x10) 1 (readError (collAcc s) a s))

/-- Data of a piece: bytes and a blot for each 16 elements. -/
structure CollData where
  data : List Byte
  blots : List Bool
  deriving DecidableEq, Repr

/-- The device address of a piece in a local replica's buffer, and in BUF. -/
def pieceAddr (p : CollParam) (j c off : Nat) : Nat := p.buf + j * p.stride + 4 * (c * chunkLen p + off)

/-- Read a piece of n elements, a granule at a time (R579). -/
def readPiece (a n : Nat) (s : State) : CollData × State :=
  let r := (List.range (ceilDiv n 16)).foldl (fun (x : CollData × State) i =>
    let g := readGran x.2 (collAcc x.2) (a + 64 * i)
    ({ data := x.1.data ++ g.data, blots := x.1.blots ++ [g.blot] },
      if g.ok then x.2 else collBusError (a + 64 * i) x.2)) (({ data := [], blots := [] } : CollData), s)
  ({ r.1 with data := padTo (64 * ceilDiv n 16) (r.1.data.take (4 * n)) }, bumpFree r.2)

/-- Add two pieces (R515, R576, R579). -/
def addPieces (op : Nat) (x y : CollData) : CollData :=
  let w := fun (d : List Byte) => (pieces (d.length / 4) 4 d).map leNat
  { data := ((w x.data).zip (w y.data)).flatMap (fun (a, b) => leBytes 4 (if op = 1 then f32add a b else (a + b) % 2 ^ 32))
    blots := x.blots.zipWith (fun a b => a || b) y.blots }

/-- Write n elements of a piece over BUF (R236, R579). -/
def writePiece (a n : Nat) (d : CollData) (s : State) : State :=
  (List.range (ceilDiv n 16)).foldl (fun s i =>
    let m := (List.range 64).map (fun j => if 64 * i + j < 4 * n then d.data[64 * i + j]? else none)
    let w := writeGran (collAcc s) (a + 64 * i) m (nth false d.blots i) (.start s)
    let s := if w.ok then w.s else noteSystem (fun f => { f with busError := true }) (addReg (colBlk 0 + 0x10) 1 w.s)
    if w.blots = 0 then s
    else noteSystem (fun f => { f with blots := sat32 f.blots w.blots }) (addReg (colBlk 0 + 8) w.blots s)) s

/-! ### Firings -/

/-- The port on which a COLL packet towards a coordinate leaves: in service, fewest hops left, the lowest. -/
def collPort (s : State) (dest : Nat) : Option Nat :=
  (servicePorts s).foldl (fun (b : Option Nat) p =>
    let far := fun q => ((peerOf s q).map (fun c => hops s c dest)).getD 1000000
    match b with
    | none => some p
    | some q => if far p < far q then some p else some q) none

/-- Send a COLL packet towards its destination. -/
def sendColl (k : Packet) (dest : Nat) (s : State) : State :=
  match collPort s dest with
  | none => s
  | some p => sendOn p k s

def modFiring (e n : Nat) (g : CollFiring → CollFiring) (s : State) : State :=
  { s with coll := { s.coll with firings := s.coll.firings.map (fun f => if f.entry = e ∧ f.n = n then g f else f) } }

/-- The coordinate of the next ring position. -/
def ringNext (s : State) : Option Nat := (ringPos s).map (fun p => ringAt s ((p + 1) % max 1 (ringLen s)))

/-- The ring position at which a chunk's result starts: that of the last replica, or of ROOT. -/
def resultStart (s : State) (p : CollParam) (c : Nat) : Nat := (if p.op = 3 then p.root else c) / max 1 (localCount s p)

/-- A piece's result is written over BUF and goes on round the ring until every device has it. -/
def spread (e n : Nat) (p : CollParam) (c off step : Nat) (d : CollData) (s : State) : State :=
  let s := writePiece (pieceAddr p 0 c off) (pieceLen p n c off) d s
  let s := modFiring e n (fun f => { f with written := f.written ++ [(c, off)] }) s
  match ringPos s, ringNext s with
  | some pos, some dest =>
    if (pos + 1) % max 1 (ringLen s) = resultStart s p c then s
    else sendColl { nseq := 0, src := ownCoord s, body := .coll e (n % 65536) 1 c step off dest d.data d.blots } dest s
  | _, _ => s

/-- Add this device's replicas of a chunk in the order of R515, then send the sum on, or spread it when it is complete. -/
def reduceOn : Nat → Nat → Nat → CollParam → Nat → Nat → Nat → CollData → State → State
  | 0, _, _, _, _, _, _, _, s => s
  | fuel + 1, e, n, p, c, off, m, d, s =>
    if p.replicas ≤ m then spread e n p c off m d s
    else
      let r := (c + 1 + m) % p.replicas
      if isLocal s p r then
        let x := readPiece (pieceAddr p (r % max 1 (localCount s p)) c off) (pieceLen p n c off) s
        reduceOn fuel e n p c off (m + 1) (if m = 0 then x.1 else addPieces p.op d x.1) x.2
      else
        let dest := ringAt s (r / max 1 (localCount s p))
        sendColl { nseq := 0, src := ownCoord s, body := .coll e (n % 65536) 0 c m off dest d.data d.blots } dest s

/-- The pieces that this device begins: of the chunks whose first replica it holds, or, in a broadcast, of ROOT's buffer. -/
def beginFiring (e n : Nat) (p : CollParam) (s : State) : State :=
  (firingPieces p n).foldl (fun s (c, off) =>
    if p.op = 3 then
      if isLocal s p p.root then
        let x := readPiece (pieceAddr p (p.root % max 1 (localCount s p)) c off) (pieceLen p n c off) s
        spread e n p c off 1 x.1 x.2
      else s
    else if isLocal s p ((c + 1) % p.replicas) then reduceOn (p.replicas + 1) e n p c off 0 { data := [], blots := [] } s
    else s) s

/-- The oldest released trigger starts its firing (R575, R577), while fewer than four are in progress. -/
def execCollectiveFire (s : State) : Out :=
  .next (match s.coll.released with
    | [] => s
    | i :: r =>
      match s.coll.entries[i]? with
      | none => { s with coll := { s.coll with released := r } }
      | some e =>
        if 4 ≤ s.coll.firings.length then s
        else
          let es := s.coll.entries.set i { e with fired := e.fired + 1 }
          let s := { s with coll := { s.coll with
            released := r, entries := es, firings := s.coll.firings ++ [{ entry := i, n := e.fired }] } }
          beginFiring i e.fired (collParam e.raw) s)

/-! ### COLL packets -/

/-- What an engine does with a packet of a firing in progress: a duplicate is ignored (R553). -/
def takeColl (f : CollFiring) (p : CollParam) (phase c step off : Nat) (d : CollData) (s : State) : State :=
  if f.taken.contains (phase, c, step, off) then s
  else
    let s := modFiring f.entry f.n (fun x => { x with taken := x.taken ++ [(phase, c, step, off)] }) s
    if phase = 0 then reduceOn (p.replicas + 1) f.entry f.n p c off step d s
    else spread f.entry f.n p c off step d s

/-- The COLL packet at the head of a port's VC1 buffer is taken: one for another device goes on, one of a firing in progress is
processed, one of a firing that has ended is a duplicate, and one of a firing not yet started waits. -/
def execCollPacket (port : Fin 12) (s : State) : Out :=
  let p := port.val
  .next (match (getPort s p).rx1 with
    | [] => s
    | k :: r =>
      let taken := fun (s : State) => returnCredit p k (modPort p (fun x => { x with rx1 := r }) s)
      match k.body with
      | .coll e n phase c step off dest data blots =>
        if dest ≠ ownCoord s then sendColl k dest (taken s)
        else
          match s.coll.entries[e]? with
          | none => s
          | some en =>
            match s.coll.firings.find? (fun f => decide (f.entry = e ∧ f.n % 65536 = n)) with
            | some f => takeColl f (collParam en.raw) phase c step off { data := data, blots := blots } (taken s)
            | none => if (List.range en.fired).any (fun i => decide ((en.fired - 1 - i) % 65536 = n ∧ i < 32768)) then taken s else s
      | _ => taken s)

/-! ### Completion -/

/-- Is a packet of a firing still unacknowledged (R578)? -/
def owesPackets (s : State) (f : CollFiring) : Bool :=
  s.ports.any (fun (_, x) => (x.waiting ++ x.sent.map (fun y => y.2)).any (fun k =>
    match k.body with
    | .coll e n .. => decide (e = f.entry ∧ n = f.n % 65536 ∧ k.src = ownCoord s)
    | _ => false))

/-- A firing leaves the engines and arrives at its DONE hurdle. -/
def endFiring (f : CollFiring) (s : State) : State :=
  match s.coll.entries[f.entry]? with
  | none => s
  | some e =>
    let s := { s with coll := { s.coll with firings := s.coll.firings.filter (fun g => g ≠ f) } }
    let s := addReg (colBlk 1 + 4) 1 (addReg (colBlk 0 + 4) 1 s)
    match hurdleIdx s s.coll.fn (collParam e.raw).done with
    | some h => arrive h 1 s
    | none => noteSystem (fun f => { f with busError := true }) (report 0x20A (oEngine 2 0) s.coll.fn (collParam e.raw).done s)

/-- Has a firing written every element that it owes, and are its packets acknowledged? -/
def firingDone (s : State) (f : CollFiring) : Bool :=
  match s.coll.entries[f.entry]? with
  | none => true
  | some e => decide (f.written.length = (firingPieces (collParam e.raw) f.n).length) && !owesPackets s f

/-- The first firing that has done all completes (R578). -/
def execCollectiveComplete (s : State) : Out :=
  .next (match s.coll.firings.find? (firingDone s) with
    | none => s
    | some f => endFiring f s)

/-- Firings in progress complete when a peer is lost: what was not delivered enters as zeros with the blot set (R579, R584). -/
def forceFirings (s : State) : State :=
  s.coll.firings.foldl (fun s f =>
    match s.coll.entries[f.entry]? with
    | none => s
    | some e =>
      let p := collParam e.raw
      let left := (firingPieces p f.n).filter (fun x => !f.written.contains x)
      let s := left.foldl (fun s (c, off) =>
        let n := pieceLen p f.n c off
        writePiece (pieceAddr p 0 c off) n
          { data := List.replicate (4 * n) 0#8, blots := List.replicate (ceilDiv n 16) true } s) s
      endFiring f s) s

/-! ### Arming -/

/-- The trigger of an entry as an absolute hurdle, when it is in CYCLE mode. -/
def collTrigger (s : State) (f : Nat) (b : List Byte) : Option Nat :=
  (hurdleIdx s f (field b 0 2)).filter (fun n => decide ((getHurdle s n).mode = 1))

/-- Arm a system job's entries with G0 (R575). -/
def armCollectives (f : Nat) (tab : List (List Byte)) (s : State) : State :=
  { s with coll :=
      { fn := f
        entries := tab.map (fun b =>
          let n := (collTrigger s f b).getD 0
          { raw := b, trigger := n }) } }

/-- At the end of a system job the engines are idle; packets of the job that wait are discarded. -/
def disarm (s : State) : State :=
  let s := (List.range 12).foldl (fun s p =>
    let l := (getPort s p).rx1
    l.foldl (fun s k => returnCredit p k s) (if l.isEmpty then s else modPort p (fun x => { x with rx1 := [] }) s)) s
  { s with coll := {} }

end Sys2Proof.Machine
end

