-- ==== Sys2Proof/Machine/Relay.lean ====
section
/-!
DEFINITION. Relays (5.7): firing every stage at once, and completion; and the hurdle rows of 5.6 and 13.4.
-/
namespace Sys2Proof.Machine

/-- The effect of an M-core stroke by its opcode. -/
def mStroke (op : Nat) : Nat → StrokeWord → State → Option StrokeOut :=
  if op = 0x08 then msetbEffect else if op = 0x10 then mldaEffect else if op = 0x11 then mldsEffect
  else if op = 0x20 then mpassEffect [] else if op = 0x30 then maclEffect else if op = 0x40 then mwbEffect else nopEffect

/-- The effect of a V-core stroke by its opcode, in two parts of Table 7.5. -/
def vStrokeLane (op : Nat) : Nat → StrokeWord → State → Option StrokeOut :=
  if op = 0x01 then binEffect vaddLane else if op = 0x02 then binEffect vsubLane else if op = 0x03 then binEffect vmulLane
  else if op = 0x04 then vfmaEffect else if op = 0x05 then binEffect vmaxLane else if op = 0x06 then binEffect vminLane
  else if op = 0x07 then unEffect vabsLane else if op = 0x08 then unEffect vnegLane
  else if op = 0x09 then binEffect (fun _ a b => a &&& b) else if op = 0x0A then binEffect (fun _ a b => a ||| b)
  else if op = 0x0B then binEffect (fun _ a b => a ^^^ b) else if op = 0x0C then vshiftEffect else if op = 0x0D then vcmpEffect
  else if op = 0x0E then vselEffect else if op = 0x0F then vrotEffect else if op = 0x10 then vcvtEffect
  else if op = 0x11 then vrgenEffect else nopEffect
def vStroke (op : Nat) : Nat → StrokeWord → State → Option StrokeOut :=
  if op < 0x20 then vStrokeLane op
  else if op = 0x20 then vxuEffect vexp else if op = 0x21 then vxuEffect vlog else if op = 0x22 then vxuEffect vrsq
  else if op = 0x23 then vxuEffect vrcp else if op = 0x24 then vxuEffect vtanh else if op = 0x30 then vrsumEffect
  else if op = 0x31 then vrmaxEffect else if op = 0x32 then vrminEffect else if op = 0x38 then vpermEffect
  else if op = 0x39 then vbcastEffect else if op = 0x40 then vldEffect else if op = 0x41 then vstEffect
  else if op = 0x42 then vgathEffect else if op = 0x43 then vscatEffect else if op = 0x50 then vsetbEffect
  else if op = 0x51 then vsetkEffect else if op = 0x52 then vsetcEffect else if op = 0x53 then vsetmEffect
  else if op = 0x60 then optEffect true else if op = 0x61 then optEffect false else nopEffect

/-- The effect of an S-core stroke by its opcode. -/
def sStroke (op : Nat) : Nat → StrokeWord → State → Option StrokeOut :=
  if op = 0x01 then saluEffect else if op = 0x02 then sliEffect else if op = 0x03 then sgetEffect
  else if op = 0x10 then sldEffect else if op = 0x11 then sstEffect else if op = 0x12 then spushEffect
  else if op = 0x13 then sidxEffect else if op = 0x14 then ssetbEffect else if op = 0x20 then sskipEffect
  else if op = 0x21 then sloopEffect else if op = 0x30 then sarriveEffect else if op = 0x31 then swaitEffect
  else if op = 0x32 then sresetEffect else if op = 0x33 then shreadEffect else if op = 0x34 then shtargetEffect
  else if op = 0x40 then sxferEffect else nopEffect

/-- The effect of any stroke. -/
def strokeEffect (k : Nat) (w : StrokeWord) (s : State) : Option StrokeOut :=
  (if sUnit w = 0 then mStroke (sOpcode w) else if sUnit w = 1 then vStroke (sOpcode w)
   else if sUnit w = 2 then sStroke (sOpcode w) else if sOpcode w = 1 then lapEndEffect else nopEffect) k w s

/-- Does its core hold a stroke back? -/
def strokeHeld (k : Nat) (w : StrokeWord) (s : State) : Bool :=
  if sUnit w = 0 then mHeld k w s else if sUnit w = 1 then vHeld k w s else if sUnit w = 2 then sHeld k w s else false

/-! ### Stages -/

/-- The runners of a relay's stages on a cluster. -/
def relayRunners (c : Nat) (e : RelayEntry) : List Nat :=
  e.stages.map (fun (core, r) => runnerNo c (core / 64) (core % 16) r)

/-- The relay entry of an identifier for a cluster's program. -/
def relayOf (s : State) (c id : Nat) : Option RelayEntry :=
  match jobOf s c with
  | none => none
  | some j =>
    match schedOf s j with
    | none => none
    | some x =>
      x.relays.find? (fun e => decide (e.program = lapProgram s j ∧ e.id = id ∧ e.lcluster = logicalCluster s c))

/-- The baton channels that a stroke names. -/
def strokeChannels (s : State) (k : Nat) (w : StrokeWord) : List Nat :=
  let op := sOpcode w
  if sUnit w = 0 then
    if (op = 0x10 ∨ op = 0x11) ∧ sb w 80 then [mAddr w % 8] else if op = 0x40 ∧ sf w 80 2 = 3 then [mAddr w % 8] else []
  else if sUnit w = 1 then
    let m := vMem w
    (if (op = 0x40 ∨ op = 0x41) ∧ m.chan then [m.addr % 8] else []) ++
      (if (op = 0x42 ∨ op = 0x43) ∧ m.idxChan then [m.ichan] else [])
  else if sUnit w = 2 then
    let f := sFields w
    if op = 0x12 then [f.imm % 8]
    else if op = 0x13 then [f.imm / 2 ^ 16 % 8]
    else if op = 0x40 then
      let d := xDesc (if f.func = 0 then ((List.range 8).map (fun i => f.sa + i)).flatMap (fun i => leBytes 8 (sx s k i).toNat)
        else tBytes (coreRead k (sAddr s k w) 64 false s).data)
      (if d.srcChan then [d.src % 8] else []) ++ (if d.dstChan then [d.dst % 8] else [])
    else []
  else []

/-- Is a stage the head of its runner, ready, of this relay, and not held (R222)? -/
def stageReady (id k : Nat) (s : State) : Bool :=
  match headOf (getRunner s k) with
  | none => false
  | some w => sRelay w && decide (sRelayId w = id) && ready k w s && !strokeHeld k w s

/-! ### Firing (R222) -/

/-- One stage issues with its effect, traced as a firing too. -/
def fireStage (k : Nat) (w : StrokeWord) (o : StrokeOut) : State := launchStroke k w { o with s := trace k 2 w (decide (0 < o.blots)) o.s }

/-- Run the effects of stages that do not stall, again while any of the others can go on; what is left. -/
def fireRounds : Nat → List (Nat × StrokeWord) → State → List (Nat × StrokeWord) × State
  | 0, l, s => (l, s)
  | n + 1, l, s =>
    let r := l.foldl (fun (x : List (Nat × StrokeWord) × State) kw =>
      match strokeEffect kw.1 kw.2 x.2 with
      | none => (x.1 ++ [kw], x.2)
      | some o => (x.1, fireStage kw.1 kw.2 o)) ([], s)
    if r.1.isEmpty then r else fireRounds n r.1 r.2

/-- A relay fires when every stage is its runner's head and ready: all of them issue. A stage whose partner never gives it
the granules it needs stays in flight (R224). -/
def execRelayFire (c : Fin 64) (id : Fin 16) (waits : List (List (Fin 8 × Nat))) (s : State) : Out :=
  .next (match relayOf s c id with
    | none => s
    | some e =>
      let ks := relayRunners c e
      if (getCluster s c).firings.any (fun f => f.id = id.val) then s
      else if ks.all (fun k => stageReady id k s) then
        let heads := ks.filterMap (fun k => (headOf (getRunner s k)).map (fun w => (k, w)))
        let chans := (heads.flatMap (fun x => strokeChannels s x.1 x.2)).dedup
        let s := (ks.zip waits).foldl (fun s x => noteWaits x.1 x.2 s) s
        let s := heads.foldl (fun s x => popHead x.1 s) s
        let s := modCluster c (fun x => { x with firings := x.firings ++ [{ id := id, stages := ks, channels := chans }] }) s
        let r := fireRounds (heads.length + 1) heads s
        r.1.foldl (fun s x => fireStage x.1 x.2 { s := s, waiting := true }) r.2
      else s)

/-- A relay completes when its stages have (R223): what is left in its rings is discarded, and recorded. -/
def execRelayComplete (c : Fin 64) (id : Fin 16) (s : State) : Out :=
  .next (match (getCluster s c).firings.find? (fun f => f.id = id.val) with
    | none => s
    | some f =>
      let busy := f.stages.any (fun k =>
        (getRunner s k).flight.any (fun x => sRelay x.word && decide (sRelayId x.word = id.val)))
      if busy then s
      else
        let s := f.channels.foldl (fun s ch =>
          if (ring s c ch).isEmpty then s
          else report 0x107 (oCluster c) (clusterFn s c) ch (setRing c ch [] s)) s
        modCluster c (fun x => { x with firings := x.firings.filter (fun y => y.id ≠ id.val) }) s)

/-! ### Hurdle rows -/

/-- One NCLK cycle of operations at a hurdle (R211). -/
def execHurdleOpApply (n : Fin 8192) (ops : List HurdleOp) (s : State) : Out := .next (hurdleCycle n ops s)

/-- A write of HDL_CTRL (Table 5.13): RESET and a nonzero ARRIVE act in one cycle, the reset first; a system-scope hurdle's are
mirrored (R215). -/
def hdlCtrlWrite (n : Nat) (d : Word) (s : State) : State :=
  let rs := fld d 31 1 = 1
  let k := fld d 0 16
  let s := hurdleCycle n ((if rs then [.reset] else []) ++ (if k ≠ 0 then [.arrive k] else [])) s
  if n < 7680 then s
  else
    let s := if rs then mirror n true 0 (ownCoord s) none s else s
    if k ≠ 0 then mirror n false k (ownCoord s) none s else s

/-- HDL_CTRL is written with RESET. -/
def execHdlCtrlReset (n : Fin 8192) (d : BitVec 32) (s : State) : Out :=
  .next (if fld d 31 1 = 1 then hdlCtrlWrite n d s else s)
/-- HDL_CTRL is written with a nonzero ARRIVE. -/
def execHdlCtrlArrive (n : Fin 8192) (d : BitVec 32) (s : State) : Out :=
  .next (if fld d 0 16 ≠ 0 then hdlCtrlWrite n d s else s)

/-- A HURDLE packet is taken from a port (R572): it applies to this device's copies and goes on along every other tree port. -/
def execHurdlePacket (port : Fin 12) (s : State) : Out :=
  .next (takeVc0 port (fun b => match b with
      | .hurdle .. => true
      | _ => false)
    (fun k s => match k.body with
      | .hurdle i reset n org =>
        if 512 ≤ i then s
        else
          let s := hurdleCycle (7680 + i) (if reset then [.reset] else [.arrive n]) s
          mirror (7680 + i) reset n org (some port.val) s
      | _ => s) s)

end Sys2Proof.Machine
end

