-- ==== Sys2Proof/Machine/StrokeCheck.lean ====
section
/-!
DEFINITION. The loader's checks of strokes (Table 5.5; R190, R282, R284, R298, R319, R526, R756) and the strokes that a DET image
may not hold (R120).
-/
namespace Sys2Proof.Machine

/-- The common header (Table 5.7): bit 31 is 0, and RELAY_ID is 0 without RELAY. -/
def headerOk (w : StrokeWord) : Bool := decide (sf w 31 1 = 0) && (sRelay w || decide (sRelayId w = 0))

/-- An address field that names a baton channel has ADDR[47:3] = 0 (R282). -/
def chanAddrOk (a : Nat) : Bool := decide (a / 8 = 0)

/-- Common strokes (Table 5.8): operand bits that the table does not name are 0, and CYCLES is at least 1. -/
def commonOk (w : StrokeWord) : Bool :=
  if sOpcode w ≤ 1 then decide (sf w 32 96 = 0)
  else decide (sOpcode w = 2 ∧ sf w 48 80 = 0 ∧ sf w 32 16 ≠ 0)

/-- ACC_COL + NCOL ≤ 512 and NCOL ≥ 1 (R284). -/
def colsOk (col n : Nat) : Bool := decide (1 ≤ n ∧ col + n ≤ 512)

/-- M-core strokes (R283, R284, Tables 6.10 to 6.15). -/
def mStrokeOk (w : StrokeWord) : Bool :=
  let op := sOpcode w
  if op = 0x08 then decide (sf w 84 44 = 0)
  else if op = 0x10 then
    decide (sf w 106 22 = 0 ∧ sf w 86 4 < 12 ∧ sf w 81 4 ≠ 0) && (!sb w 80 || chanAddrOk (mAddr w))
  else if op = 0x11 then decide (sf w 102 26 = 0 ∧ sf w 81 4 ≠ 0) && (!sb w 80 || chanAddrOk (mAddr w))
  else if op = 0x20 then
    decide (sf w 115 13 = 0 ∧ passArrays w ≠ 0 ∧ passFmt w < 12) && colsOk (passCol w) (passN w) &&
      (!passProof w || decide (passN w % 64 = 0))
  else if op = 0x30 then decide (sf w 121 7 = 0 ∧ accArrays w ≠ 0) && colsOk (accCol w) (accN w)
  else if op = 0x40 then
    let ofmt := sf w 105 4
    let kind := sf w 80 2
    decide (sf w 127 1 = 0 ∧ accArrays w ≠ 0) && colsOk (accCol w) (accN w) && ([0, 1, 2, 3, 4, 8, 9] : List Nat).contains ofmt &&
      (decide (kind ≠ 1) || decide (ofmt = 0)) && (decide (kind ≠ 3) || chanAddrOk (mAddr w))
  else false

/-- TYPE values that a register-layout stroke accepts (Table 7.14). -/
def vTypeOk (op ty : Nat) : Bool :=
  if op = 0x0C then decide (ty = 3 ∨ ty = 4)
  else if op = 0x0F ∨ (0x20 ≤ op ∧ op ≤ 0x24) then decide (ty < 3)
  else if op = 0x10 then true
  else if op = 0x53 then decide (ty = 0)
  else if op = 0x60 ∨ op = 0x61 then decide (ty = 1)
  else decide (ty < 5)

/-- FUNC values that a register-layout stroke defines (R298). -/
def vFuncOk (op fn : Nat) : Bool :=
  if op = 0x0D then decide (fn < 6)
  else if op = 0x0C then decide (fn < 3)
  else if (0x20 ≤ op ∧ op ≤ 0x24) ∨ (0x30 ≤ op ∧ op ≤ 0x32) ∨ op = 0x61 then decide (fn < 2)
  else decide (fn = 0)

/-- The part p of a VCVT (R302): not between two 8-bit formats, and within its range. -/
def vcvtOk (f : VFields) : Bool :=
  let a := laneBits f.ty
  let b := laneBits (f.imm % 8)
  let n := if a = 32 ∨ b = 32 then 64 else 128
  !(decide (a = 8 ∧ b = 8)) && decide (f.imm / 16 % 4 < 2048 / min a b / n)

/-- VADAMW and VSGDM (R526). -/
def optOk (adam : Bool) (f : VFields) : Bool :=
  let vh := f.imm % 64
  decide (f.rmode = 0) && !f.sat && !f.bimm &&
    (if adam then decide ([f.vd, f.vb, f.vc, vh].Nodup) else decide (f.vc = 0) && decide ([f.vd, f.vb, vh].Nodup))

/-- V-core strokes (R295 to R298, R526, R756). -/
def vStrokeOk (w : StrokeWord) : Bool :=
  let op := sOpcode w
  let f := vFields w
  if op = 0x50 then decide (sf w 84 44 = 0)
  else if op = 0x51 then decide (sf w 38 26 = 0 ∧ sf w 34 2 ≠ 3)
  else if op = 0x52 then decide (sf w 33 31 = 0)
  else if 0x40 ≤ op ∧ op ≤ 0x43 then
    let m := vMem w
    decide (sf w 58 22 = 0 ∧ m.aop < 5) && (!m.chan || chanAddrOk m.addr)
  else if op = 0x53 then decide (sf w 38 58 = 0 ∧ f.vd % 8 ≠ 0 ∧ f.vd < 8)
  else if (1 ≤ op ∧ op ≤ 0x11) ∨ (0x20 ≤ op ∧ op ≤ 0x24) ∨ (0x30 ≤ op ∧ op ≤ 0x32) ∨ op = 0x38 ∨ op = 0x39 ∨ op = 0x60 ∨ op = 0x61 then
    decide (sf w 73 23 = 0 ∧ f.rmode ≠ 3 ∧ (f.rmode = 2 → op = 0x10)) && vTypeOk op f.ty && vFuncOk op f.func &&
      (decide (op ≠ 0x0D) || decide (f.vd % 8 ≠ 0 ∧ f.vd < 8)) && (decide (op ≠ 0x10) || vcvtOk f) &&
      (decide (op < 0x60) || optOk (decide (op = 0x60)) f)
  else false

/-- Values of FUNC that an S-core opcode defines (Table 7.7); 0 for an undefined opcode. -/
def sFuncs (op : Nat) : Nat :=
  if op = 0x01 then 16
  else if op = 0x03 then 7
  else if op = 0x10 ∨ op = 0x33 then 3
  else if op = 0x11 ∨ op = 0x31 ∨ op = 0x40 then 2
  else if op = 0x20 then 6
  else if ([0x02, 0x12, 0x13, 0x14, 0x21, 0x30, 0x32, 0x34] : List Nat).contains op then 1
  else 0

/-- A core byte and runner that exist (Tables 5.3 and 5.8). -/
def coreByteOk (b runner : Nat) : Bool :=
  let kind := b / 64
  decide (kind < 3 ∧ b / 16 % 4 = 0 ∧ b % 16 < logCount kind ∧ runner < (if kind = 1 then 8 else 4))

/-- S-core strokes one by one (R319). -/
def sStrokeOk (w : StrokeWord) : Bool :=
  let op := sOpcode w
  let f := sFields w
  decide (sf w 52 12 = 0 ∧ f.func < sFuncs op) &&
    (decide (op ≠ 0x21) || decide (1 ≤ bits f.imm 16 5 ∧ bits f.imm 16 5 ≤ 16 ∧ (f.immb = true → bits f.imm 0 16 ≠ 0))) &&
    (decide (op ≠ 0x40) || decide (f.func ≠ 0) || decide (f.sa ≤ 24)) &&
    (decide (op ≠ 0x12) || decide (f.sb ≤ 24)) &&
    (decide (op ≠ 0x20) || decide (bits f.imm 0 8 ≠ 0)) &&
    (decide (op ≠ 0x14) || (coreByteOk (bits f.imm 8 8) (bits f.imm 3 3) && decide (bits f.imm 14 2 ≠ 2)))

/-- A stroke on a core of a kind: a defined opcode of that kind or a common one, with every field in range. -/
def strokeOk (kind : Nat) (w : StrokeWord) : Bool :=
  headerOk w &&
    (if sUnit w = 3 then commonOk w
     else decide (sUnit w = kind) &&
      (if kind = 0 then mStrokeOk w else if kind = 1 then vStrokeOk w else sStrokeOk w))

/-- The body of an SLOOP (R319), with the strokes that follow it in its stream. -/
def loopBodyOk (w : StrokeWord) (rest : List StrokeWord) : Bool :=
  let f := sFields w
  let n := bits f.imm 16 5
  let body := rest.take n
  decide (n < rest.length + 1 ∧ body.length = n) &&
    (List.range n).all (fun i =>
      let x := nth 0#128 body i
      !isOp x 2 0x21 && !isLapEnd x && !sRelay x &&
        (!isOp x 2 0x20 || decide (i + 1 + bits (sFields x).imm 0 8 ≤ n)) &&
        (f.immb || (!sWaitEn x && !sSignalEn x)))

/-- Every loop body of a stream. -/
def loopsOk : List StrokeWord → Bool
  | [] => true
  | w :: r => (!isOp w 2 0x21 || loopBodyOk w r) && loopsOk r

/-- Every stroke of a stream of a core kind. -/
def streamOk (kind : Nat) (l : List StrokeWord) : Bool := l.all (strokeOk kind) && loopsOk l

/-- A stroke that R120 keeps out of a DET image: VST with AOP 2, 3 or 4 (R298). -/
def nondet (w : StrokeWord) : Bool := isOp w 1 0x41 && decide (2 ≤ (vMem w).aop)

/-! ### Output formats against the class of their passes (R284) -/

/-- What a loader knows of an M-core runner as it reads its segment: the activation format of each array and set, and the
class that wrote accumulator columns, newest first (arrays, first column, columns; true INT32, none unknown). -/
structure MTrack where
  afmt : List (Nat × Nat) := []
  cols : List (Nat × Nat × Nat × Option Bool) := []

/-- The known class of an entry. -/
def MTrack.classOf (t : MTrack) (a x : Nat) : Option Bool :=
  ((t.cols.find? (fun (m, c, n, _) => m.testBit a && decide (c ≤ x ∧ x < c + n))).map (fun (_, _, _, k) => k)).getD none

/-- The class of a pass in one array (R254), where its activation format is known. -/
def MTrack.passClass (t : MTrack) (w : StrokeWord) (a : Nat) : Option Bool :=
  match kvFind t.afmt (a * 2 + passSet w) with
  | none => none
  | some f => if pairOk (passFmt w) f then some (intPair (passFmt w) f) else none

/-- Read one stroke; the Bool is false where an MWB's OFMT is not allowed for the class of a pass whose entries it is known to read. -/
def MTrack.read (t : MTrack) (w : StrokeWord) : MTrack × Bool :=
  if isLapEnd w then ({}, true)
  else if isOp w 0 0x10 then
    ({ t with afmt := (arraysOf (sf w 81 4)).foldl (fun m a => kvInsert m (a * 2 + sf w 85 1) (sf w 86 4)) t.afmt }, true)
  else if isOp w 0 0x20 then
    ({ t with cols := (arraysOf (passArrays w)).map (fun a => (2 ^ a, passCol w, passN w, t.passClass w a)) ++ t.cols }, true)
  else if isOp w 0 0x30 then ({ t with cols := (accArrays w, accCol w, accN w, none) :: t.cols }, true)
  else if isOp w 0 0x40 then
    let ks := (arraysOf (accArrays w)).flatMap (fun a => (List.range (accN w)).map (fun i => t.classOf a (accCol w + i)))
    let int := decide (8 ≤ sf w 105 4)
    let ok := !(ks.any (fun k => k = some (!int)))
    (if sb w 110 then { t with cols := (accArrays w, accCol w, accN w, none) :: t.cols } else t, ok)
  else (t, true)

/-- Every write-back of an M-core stream that the loader can pair. -/
def outFmtOk : MTrack → List StrokeWord → Bool
  | _, [] => true
  | t, w :: r => (t.read w).2 && outFmtOk (t.read w).1 r

end Sys2Proof.Machine
end

