-- ==== Sys2Proof/Machine/Image.lean ====
section
/-!
DEFINITION. Schedule images (5.1): the layout of Tables 5.1 to 5.4, the loader's checks of Table 5.5 with R506, R574 and R758, and
what a loaded image holds.
-/
namespace Sys2Proof.Machine

/-- Are all bytes zero? -/
def allZero (l : List Byte) : Bool := l.all (fun b => b = 0#8)
/-- A part of a byte list. -/
def slice (l : List Byte) (off n : Nat) : List Byte := (l.drop off).take n

/-! ### Shapes (Table 5.2) -/

/-- A shape: its kind (1 full, 2 reserve, 3 partial) and the cluster counts of a partial shape's towers. -/
structure Shape where
  kind : Nat
  counts : List Nat
  deriving DecidableEq, Repr

/-- The shape that SHAPE_ID names. -/
def shapeOf (b : List Byte) : Option Shape :=
  let k := field b 0 1
  let n := field b 1 1
  let c := field b 4 4
  if field b 2 2 ≠ 0 then none
  else if k = 1 ∧ n = 16 ∧ c = 0xFFFFFFFF then some ⟨1, []⟩
  else if k = 2 ∧ n = 16 ∧ c = 0 then some ⟨2, []⟩
  else if k = 3 ∧ 1 ≤ n ∧ n ≤ 16 ∧ c / 4 ^ n = 0 then some ⟨3, (List.range n).map (fun j => bits c (2 * j) 2 + 1)⟩
  else none

/-- Logical clusters of a shape. -/
def Shape.logical (x : Shape) : Nat := if x.kind = 1 then 64 else if x.kind = 2 then 60 else x.counts.sum

/-- The tower ordinal of a logical cluster of a partial shape. -/
def towerOrd : List Nat → Nat → Nat
  | [], _ => 0
  | n :: r, c => if c < n then 0 else 1 + towerOrd r (c - n)

/-- Can two logical clusters of a shape share a tower (Table 5.5)? In the reserve shape, up to four unmapped clusters shift
the numbering, so numbers three apart can; and a move of R40 goes to a fence in T12 to T15, which 48 to 59 share. -/
def Shape.share (x : Shape) (a b : Nat) : Bool :=
  if x.kind = 1 then decide (a / 4 = b / 4)
  else if x.kind = 3 then decide (towerOrd x.counts a = towerOrd x.counts b)
  else decide (a ≤ b + 3 ∧ b ≤ a + 3) || decide (48 ≤ max a b)

/-- A region that a loaded image protects: in scratch or in the buffer of a logical cluster, from lo up to hi. -/
structure ImgRegion where
  scratch : Bool
  lcluster : Nat
  lo : Nat
  hi : Nat
  deriving DecidableEq, Repr

def ImgRegion.meets (a b : ImgRegion) : Bool := decide (a.lo < b.hi ∧ b.lo < a.hi)

/-- Do two regions of one shape overlap (Table 5.5)? -/
def Shape.overlap (x : Shape) (a b : ImgRegion) : Bool :=
  a.meets b && (a.scratch == b.scratch) &&
    (if a.scratch then x.share a.lcluster b.lcluster else decide (a.lcluster = b.lcluster))

/-- No two of a list of regions overlap. -/
def Shape.disjoint (x : Shape) : List ImgRegion → Bool
  | [] => true
  | a :: r => !(r.any (x.overlap a)) && x.disjoint r

/-- The regions of a schedule. -/
def regionsOf (streams : List Stream) (batons : List Baton) : List ImgRegion :=
  streams.map (fun x => { scratch := x.scratch, lcluster := x.lcluster, lo := x.dest, hi := x.dest + 16 * x.strokes.length }) ++
    batons.map (fun b => { scratch := false, lcluster := b.lcluster, lo := b.offset, hi := b.offset + 65536 * b.size })

/-- Do the regions of two loaded schedules overlap (R182)? -/
def schedsOverlap (x y : Schedule) : Bool :=
  let p : Shape := ⟨x.shapeKind, x.counts⟩
  let same := decide (x.shapeKind = y.shapeKind ∧ x.counts = y.counts)
  (regionsOf x.streams x.batons).any (fun a => (regionsOf y.streams y.batons).any (fun b =>
    if same then p.overlap a b else a.meets b && (a.scratch == b.scratch)))

/-! ### Sections (Tables 5.3 and 5.4) -/

/-- What an image holds as far as it has been read. -/
structure Image where
  shape : Shape := ⟨0, []⟩
  streams : List Stream := []
  laps : List LapEntry := []
  lapTables : Nat := 0
  programs : List (List Nat) := []
  programTables : Nat := 0
  starts : Nat := 0
  batons : List Baton := []
  relays : List RelayEntry := []
  inits : List HurdleInit := []
  datas : List (Nat × List Byte) := []
  tensors : List (List Byte) := []
  tensorTables : Nat := 0
  collectives : List (List Byte) := []
  collectiveTables : Nat := 0
  deriving DecidableEq, Repr

/-- The strokes of a stream's payload. -/
def strokesOf (l : List Byte) : List StrokeWord := (pieces (l.length / 16) 16 l).map (fun b => BitVec.ofNat 128 (leNat b))

/-- A payload as whole entries of n bytes. -/
def entriesOf (n : Nat) (l : List Byte) : Option (List (List Byte)) :=
  if l.length % n = 0 then some (pieces (l.length / n) n l) else none

/-- A LAP_TABLE entry. -/
def lapEntryBytes (b : List Byte) : Option LapEntry :=
  if field b 3 1 = 0 ∧ field b 12 4 = 0 ∧ field b 8 4 ≠ 0 then
    some { program := field b 0 2, ramps := field b 2 1, budget := field b 4 4, repeats := field b 8 4 }
  else none

/-- A BATON entry (R219): its ring lies within the 16 MiB of a cluster buffer. -/
def batonBytes (logical : Nat) (b : List Byte) : Option Baton :=
  let x : Baton := { lcluster := field b 0 2, channel := field b 2 1, size := field b 3 1, offset := field b 4 4 }
  if x.lcluster < logical ∧ x.channel < 8 ∧ 1 ≤ x.size ∧ x.size ≤ 64 ∧ x.offset % 65536 = 0 ∧
      x.offset + 65536 * x.size ≤ 0x1000000 then some x
  else none

/-- A RELAY entry. -/
def relayBytes (logical : Nat) (b : List Byte) : Option RelayEntry :=
  let n := field b 5 1
  let st := (List.range n).map (fun k => (field b (8 + 2 * k) 1, field b (9 + 2 * k) 1))
  if 2 ≤ n ∧ n ≤ 8 ∧ field b 6 2 = 0 ∧ field b 4 1 < 16 ∧ field b 2 2 < logical ∧
      st.all (fun (c, r) => coreByteOk c r) ∧ st.Nodup then
    some { program := field b 0 2, lcluster := field b 2 2, id := field b 4 1, stages := st }
  else none

/-- A HURDLE_INIT entry. -/
def initBytes (b : List Byte) : Option HurdleInit :=
  if field b 2 1 < 16 ∧ field b 2 1 % 8 < 3 ∧ field b 3 1 = 0 ∧ field b 8 4 = 0 then
    some { index := field b 0 2, mode := field b 2 1, target := field b 4 4 }
  else none

/-- Is FP32 data finite and not zero? -/
def fp32Live (x : Nat) : Bool := decide (bits x 23 8 ≠ 255 ∧ bits x 0 31 ≠ 0)

/-- A tensor table entry that keeps Tables 12.3 and 12.4 (R506). -/
def tensorOk (b : List Byte) : Bool :=
  let t := tensorOf b
  decide (t.dtype < 7 ∧ 1 ≤ t.rank ∧ t.rank ≤ 4 ∧ t.role < 5 ∧ t.layout < 2 ∧ field b 12 4 = 0 ∧ field b 56 8 = 0 ∧ t.addr % 64 = 0) &&
    fp32Live t.scale &&
    (List.range 4).all (fun k => decide (1 ≤ nth 0 t.dims k) && (decide (k < t.rank) || decide (nth 0 t.dims k = 1))) &&
    (decide (t.layout = 0) || decide (t.rank = 2 ∧ nth 0 t.dims 1 % 32 = 0))

/-- A tensor table (Table 12.2), its entries. -/
def tensorTableBytes (l : List Byte) : Option (List (List Byte)) :=
  let n := field l 8 4
  let es := pieces n 64 (l.drop 64)
  if 64 + 64 * n ≤ l.length ∧ field l 4 2 = 1 ∧ field l 6 2 = 0 ∧ 1 ≤ n ∧ n ≤ 1048576 ∧ allZero (slice l 12 52) ∧
      es.all tensorOk ∧ (es.map (fun b => (field b 0 4, field b 6 1))).Nodup then some es
  else none

/-- A collective table entry that keeps Table 13.7 (R574). -/
def collectiveOk (b : List Byte) : Bool :=
  let op := field b 4 1
  decide (1 ≤ op ∧ op ≤ 3 ∧ 1 ≤ field b 5 1 ∧ field b 5 1 ≤ 64 ∧ field b 6 2 = 0 ∧ field b 8 8 % 64 = 0 ∧ field b 16 8 % 64 = 0 ∧
    1 ≤ field b 24 8 ∧ field b 24 8 ≤ 2 ^ 40) && allZero (slice b 40 24) &&
    (if op = 3 then decide (field b 36 4 < field b 32 4) else decide (field b 36 4 = 0))

/-- A collective table (13.9), its entries. -/
def collectiveTableBytes (l : List Byte) : Option (List (List Byte)) :=
  let n := field l 8 4
  let es := pieces n 64 (l.drop 16)
  if 16 + 64 * n ≤ l.length ∧ field l 4 2 = 1 ∧ field l 6 2 = 0 ∧ field l 12 4 = 0 ∧ 1 ≤ n ∧ n ≤ 256 ∧ es.all collectiveOk then some es
  else none

/-- Every entry converts, or none does. -/
def mapAll {α β : Type} (f : α → Option β) : List α → Option (List β)
  | [] => some []
  | a :: r =>
    match f a, mapAll f r with
    | some b, some l => some (b :: l)
    | _, _ => none

/-- The PROGRAMS payload: per program, the start index of each stream. -/
def programsBytes (l : List Byte) : Option (Nat × List (List Nat)) :=
  let p := field l 0 4
  let n := field l 4 4
  if 8 ≤ l.length ∧ l.length = 8 + 4 * p * n then
    some (n, (List.range p).map (fun k => (List.range n).map (fun i => field l (8 + 4 * (n * k + i)) 4)))
  else none

/-- Read one section into an image. -/
def readSection (data e : List Byte) (x : Image) : Option Image :=
  let ty := field e 0 1
  let off := field e 8 8
  let len := field e 16 8
  let dest := field e 24 8
  let pay := slice data off len
  if data.length < off + len ∨ field e 6 2 ≠ 0 then none
  else if ty = 1 then
    let core := field e 4 1
    let n : Stream :=
      { lcluster := field e 2 2, kind := core / 64, core := core % 16, runner := field e 5 1, scratch := decide (field e 1 1 = 1),
        dest := dest, strokes := strokesOf pay }
    if field e 1 1 ≤ 1 ∧ coreByteOk core n.runner ∧ n.lcluster < x.shape.logical ∧ dest % 16 = 0 ∧ len % 16 = 0 ∧
        !(x.streams.any (fun y => decide (y.lcluster = n.lcluster ∧ y.kind = n.kind ∧ y.core = n.core ∧ y.runner = n.runner))) then
      some { x with streams := x.streams ++ [n] }
    else none
  else if field e 1 5 ≠ 0 ∨ (dest ≠ 0 ∧ ty ≠ 6) then none
  else if ty = 2 then
    ((entriesOf 16 pay).bind (mapAll lapEntryBytes)).map (fun l => { x with laps := x.laps ++ l, lapTables := x.lapTables + 1 })
  else if ty = 3 then
    (programsBytes pay).map (fun (n, l) => { x with programs := l, starts := n, programTables := x.programTables + 1 })
  else if ty = 4 then
    ((entriesOf 8 pay).bind (mapAll (batonBytes x.shape.logical))).map (fun l => { x with batons := x.batons ++ l })
  else if ty = 5 then
    ((entriesOf 24 pay).bind (mapAll (relayBytes x.shape.logical))).map (fun l => { x with relays := x.relays ++ l })
  else if ty = 6 then
    let x := { x with datas := x.datas ++ [(dest, pay)] }
    let magic := leNat (pay.take 4)
    if magic = 0x54545A4E then
      (tensorTableBytes pay).map (fun l => { x with tensors := l, tensorTables := x.tensorTables + 1 })
    else if magic = 0x54435A4E then
      (collectiveTableBytes pay).map (fun l => { x with collectives := l, collectiveTables := x.collectiveTables + 1 })
    else some x
  else if ty = 7 then
    ((entriesOf 12 pay).bind (mapAll initBytes)).map (fun l => { x with inits := x.inits ++ l })
  else none

/-- Read sections in table order. -/
def readSections (data : List Byte) : List (List Byte) → Image → Option Image
  | [], x => some x
  | e :: r, x => (readSection data e x).bind (readSections data r)

/-- The header's checks (Table 5.1), with the CRC over the whole image. -/
def imageHeaderOk (d : List Byte) : Bool :=
  let n := field d 36 4
  let t := field d 48 4
  decide (field d 0 4 = 0x49535A4E ∧ field d 4 2 = 1 ∧ field d 6 2 = 0 ∧ field d 8 8 ≠ 0 ∧ field d 24 4 < 4 ∧ field d 32 1 ≤ 16 ∧
    field d 33 1 ≤ 100 ∧ 1 ≤ n ∧ n ≤ 65536 ∧ t % 64 = 0 ∧ t + 32 * n ≤ d.length) && allZero (slice d 56 200) &&
    decide (crc32 (putBytes d 52 [0#8, 0#8, 0#8, 0#8]) = field d 52 4)

/-! ### Checks across sections (Table 5.5) -/

/-- The segment of a stream from a start index (R186). -/
def segmentOf (x : Stream) (start : Nat) : List StrokeWord :=
  if start = 0xFFFFFFFF then [] else upToLapEnd (x.strokes.drop start)

/-- Does every program's segment lie in its stream and end at a LAP_END? -/
def imageSegmentsOk (x : Image) : Bool :=
  decide (x.starts = x.streams.length) &&
    x.programs.all (fun p => (p.zip x.streams).all (fun (st, y) => decide (st = 0xFFFFFFFF) || (segmentOf y st).any isLapEnd))

/-- The segments of a program with their streams. -/
def Image.segments (x : Image) (p : List Nat) : List (Stream × List StrokeWord) :=
  (x.streams.zip p).map (fun (y, st) => (y, segmentOf y st))

/-- In a program, at most one runner of a cluster waits on each mark (5.5). -/
def marksOk (segs : List (Stream × List StrokeWord)) : Bool :=
  ((segs.map (fun (y, l) => ((l.filter sWaitEn).map (fun w => y.lcluster * 64 + sWait w)).eraseDups)).flatten).Nodup

/-- Channels that a stroke produces into and consumes from (R219). -/
def channelsOut (w : StrokeWord) : List Nat :=
  if isOp w 0 0x40 ∧ sf w 80 2 = 3 then [mAddr w % 8]
  else if isOp w 1 0x41 ∧ (vMem w).chan then [(vMem w).addr % 8]
  else if isOp w 2 0x12 then [(sFields w).imm % 8]
  else if isOp w 2 0x13 then [(sFields w).imm / 65536 % 8]
  else []
def channelsIn (w : StrokeWord) : List Nat :=
  if (isOp w 0 0x10 ∨ isOp w 0 0x11) ∧ sb w 80 then [mAddr w % 8]
  else if isOp w 1 0x40 ∧ (vMem w).chan then [(vMem w).addr % 8]
  else if (isOp w 1 0x42 ∨ isOp w 1 0x43) ∧ (vMem w).idxChan then [(vMem w).ichan]
  else []

/-- Every channel that a stroke names has a BATON entry, and no two entries name one channel of a cluster. -/
def channelsOk (x : Image) : Bool :=
  (x.batons.map (fun b => (b.lcluster, b.channel))).Nodup &&
    x.streams.all (fun y => y.strokes.all (fun w =>
      (channelsOut w ++ channelsIn w).all (fun c => x.batons.any (fun b => decide (b.lcluster = y.lcluster ∧ b.channel = c)))))

/-- The core byte and runner of a stream, as a RELAY entry names a stage. -/
def stageOf (y : Stream) : Nat × Nat := (y.kind * 64 + y.core, y.runner)

/-- The strokes of a relay on one stage runner in a program. -/
def relayStrokes (segs : List (Stream × List StrokeWord)) (e : RelayEntry) (st : Nat × Nat) : List StrokeWord :=
  ((segs.find? (fun (y, _) => decide (y.lcluster = e.lcluster ∧ stageOf y = st))).map
    (fun (_, l) => l.filter (fun w => sRelay w && decide (sRelayId w = e.id)))).getD []

/-- A relay of a program: its stages hold equal numbers of its strokes (R758), and each channel its strokes name has one producing and
one consuming stage, another one. A transfer's channels are in its descriptor, so with a transfer stage one side may be absent. -/
def relayOk (segs : List (Stream × List StrokeWord)) (e : RelayEntry) : Bool :=
  let ls := e.stages.map (relayStrokes segs e)
  let n := (ls.headD []).length
  let outs := ls.map (fun l => (l.flatMap channelsOut).eraseDups)
  let ins := ls.map (fun l => (l.flatMap channelsIn).eraseDups)
  let xfer := ls.any (fun l => l.any (fun w => isOp w 2 0x40))
  ls.all (fun l => decide (l.length = n)) &&
    ((outs ++ ins).flatten).all (fun c =>
      let o := (outs.filter (fun l => l.contains c)).length
      let i := (ins.filter (fun l => l.contains c)).length
      decide (o ≤ 1 ∧ i ≤ 1) && (xfer || decide (o = 1 ∧ i = 1)) && !((outs.zip ins).any (fun (a, b) => a.contains c && b.contains c)))

/-- Every stroke with RELAY lies on a stage of its program's entry for its relay and cluster. -/
def relaysNamed (es : List RelayEntry) (segs : List (Stream × List StrokeWord)) : Bool :=
  segs.all (fun (y, l) => l.all (fun w => !sRelay w ||
    es.any (fun e => decide (e.lcluster = y.lcluster ∧ e.id = sRelayId w) && e.stages.contains (stageOf y))))

/-- Take firings off the runners' sequences of a cluster, one relay at a time, until none can fire. -/
def fireAll (es : List RelayEntry) : Nat → List ((Nat × Nat) × List Nat) → List ((Nat × Nat) × List Nat)
  | 0, l => l
  | k + 1, l =>
    match es.find? (fun e => e.stages.all (fun st => l.any (fun (r, q) => decide (r = st ∧ q.head? = some e.id)))) with
    | none => l
    | some e => fireAll es k (l.map (fun (r, q) => if e.stages.contains r then (r, q.drop 1) else (r, q)))

/-- The firings of a cluster in a program can all be placed in one sequence (R758). -/
def firingsOk (es : List RelayEntry) (segs : List (Stream × List StrokeWord)) (c : Nat) : Bool :=
  let l := (segs.filter (fun (y, _) => y.lcluster = c)).map (fun (y, q) => (stageOf y, (q.filter sRelay).map sRelayId))
  (fireAll (es.filter (fun e => e.lcluster = c)) ((l.map (fun (_, q) => q.length)).sum) l).all (fun (_, q) => q.isEmpty)

/-- The relays of every program. -/
def relaysOk (x : Image) : Bool :=
  x.relays.all (fun e => decide (e.program < x.programs.length)) &&
    (List.range x.programs.length).all (fun p =>
      let segs := x.segments (nth [] x.programs p)
      let es := x.relays.filter (fun e => e.program = p)
      marksOk segs && relaysNamed es segs && es.all (relayOk segs) &&
        (List.range x.shape.logical).all (firingsOk es segs))

/-- Hurdle strokes: SARRIVE, SWAIT, SRESET, SHREAD and SHTARGET, by their relative index. -/
def hurdleNames (y : Stream) : List Nat :=
  (y.strokes.filter (fun w => decide (sUnit w = 2 ∧ 0x30 ≤ sOpcode w ∧ sOpcode w ≤ 0x34))).map (fun w => (sFields w).imm % 2 ^ 16)

/-- Every hurdle index of strokes and of HURDLE_INIT lies in the function's range (R213). -/
def hurdlesOk (s : State) (f : Nat) (x : Image) : Bool :=
  (x.streams.flatMap hurdleNames ++ x.inits.map (fun i => i.index)).all (fun i => (hurdleIdx s f i).isSome)

/-- Runners whose SWAIT names a hurdle index. -/
def waiters (streams : List Stream) (i : Nat) : Nat :=
  (streams.filter (fun y => y.strokes.any (fun w => isOp w 2 0x31 && decide ((sFields w).imm % 2 ^ 16 = i)))).length

/-- A hurdle index that runners wait on, which a test says is in TOKEN mode, is waited on by at most one runner (R216). -/
def tokensOk (streams : List Stream) (token : Nat → Bool) : Bool :=
  ((streams.flatMap hurdleNames).eraseDups).all (fun i => !token i || decide (waiters streams i ≤ 1))

/-- The mode that HURDLE_INIT leaves an index in, where it names it (R184: in section order). -/
def initMode (l : List HurdleInit) (i : Nat) : Option Nat :=
  ((l.filter (fun x => x.index = i)).getLast?).map (fun x => x.mode % 8)

/-- Regions of the buffers lie within the 16 MiB of a buffer, and no two regions of the image overlap. -/
def imageRegionsOk (x : Image) : Bool :=
  let l := regionsOf x.streams x.batons
  l.all (fun r => decide (r.hi ≤ (if r.scratch then 0x40000000 else 0x1000000))) && x.shape.disjoint l

/-- Format and checks that need only the image (BAD_IMAGE): what the image holds. -/
def parseImage (d : List Byte) : Option Image :=
  match shapeOf (slice d 16 8) with
  | none => none
  | some sh =>
    if !imageHeaderOk d || decide (field d 34 2 ≠ sh.logical) then none
    else
      let tbl := (List.range (field d 36 4)).map (fun i => slice d (field d 48 4 + 32 * i) 32)
      match readSections d tbl { shape := sh } with
      | none => none
      | some x =>
        let det := decide (field d 24 4 % 2 = 1)
        if x.lapTables = 1 ∧ x.programTables = 1 ∧ x.tensorTables ≤ 1 ∧ x.collectiveTables ≤ 1 ∧
            x.streams.all (fun y => streamOk y.kind y.strokes && (!det || decide (y.kind ≠ 0) || outFmtOk {} y.strokes)) ∧
            imageSegmentsOk x ∧ x.laps.all (fun e => decide (e.program < x.programs.length)) ∧
            (x.laps.map (fun e => e.repeats)).sum = field d 28 4 ∧ channelsOk x ∧ relaysOk x ∧ imageRegionsOk x then some x
        else none

/-- Does a DET image hold what R120 or R216 keeps out? -/
def imageNondet (d : List Byte) (x : Image) : Bool :=
  decide (field d 24 4 % 2 = 1) &&
    (x.streams.any (fun y => y.strokes.any nondet) || !tokensOk x.streams (fun i => initMode x.inits i = some 2))

/-! ### Shapes offered to a function (R39, R44, R139, R140) -/

/-- Physical clusters of a reserve-shape mapping: every cluster neither retired nor fenced under R38. -/
def reserveMap (s : State) : List Nat :=
  let f := fenceList s
  (List.range 64).filter (fun c => !retired s c && !f.contains c)

/-- A function's clusters that a partial shape maps: owned, neither retired nor fenced, in ascending physical order. -/
def partialMap (s : State) (f : Nat) : List Nat := (mappedClusters s).filter (owns s f)

/-- Cluster counts of the towers that hold clusters of a list, in ascending tower order. -/
def towerCounts (l : List Nat) : List Nat := ((List.range 16).map (towerShare l)).filter (fun n => n ≠ 0)

/-- The mapping of a shape for a function; none is SHAPE_MISMATCH. The reserve shape has 60 clusters (R5), which a fifth retired one rules out. -/
def mapFor (s : State) (f : Nat) (x : Shape) : Option (List Nat) :=
  if x.kind = 1 then
    (if getB s 0x200 30 && (List.range 64).all (owns s f) then some (List.range 64) else none)
  else if x.kind = 2 then
    (if getB s 0x200 29 && decide ((reserveMap s).length = 60) && (reserveMap s).all (owns s f) then some (reserveMap s) else none)
  else if towerCounts (partialMap s f) = x.counts then some (partialMap s f)
  else none

/-- The function's address of a place in a cluster's buffer or its tower's scratch. -/
def placeAddr (s : State) (f c : Nat) (scratch : Bool) (off : Nat) : Nat :=
  if f = 0 then (if scratch then scratchBase (c / 4) else bufferBase c) + off
  else if scratch then scratchBase ((ownedTowers s f).findIdx (fun t => t = c / 4)) + off
  else bufferBase ((ownedClusters s f).findIdx (fun x => x = c)) + off

/-- Is a byte of a function's scratch held by it and below the tower's secure region (R54, R333)? -/
def scratchByteOk (s : State) (f c o : Nat) : Bool :=
  match devAddr s f (placeAddr s f c true o) with
  | none => false
  | some d =>
    match place d with
    | .scratch t x => decide (t = c / 4 ∧ x < 2 ^ 26 * (getTower s t).pieces - 0x800000)
    | _ => false

/-- Streams placed in scratch lie within the scratch that the function holds in the tower: at the ends of the region and of every
piece it covers. -/
def scratchFits (s : State) (f : Nat) (map : List Nat) (streams : List Stream) : Bool :=
  streams.all (fun y =>
    let hi := y.dest + 16 * y.strokes.length
    !y.scratch || decide (hi = y.dest) ||
      ([y.dest, hi - 1] ++ ((List.range 16).map (fun k => 2 ^ 26 * k)).flatMap (fun a => [a, a - 1])).all (fun o =>
        decide (o < y.dest ∨ hi ≤ o) || scratchByteOk s f (nth 64 map y.lcluster) o))

end Sys2Proof.Machine
end

