-- ==== Sys2Proof/Machine/Jobs.lean ====
section
/-!
DEFINITION. Jobs (3.3, 4.6, 5.1, 18.4): how a job starts, how a lap starts and is done, how a job ends, and the schedule opcodes.
-/
namespace Sys2Proof.Machine

/-! ### The jobs of the device -/

/-- The job of a function's schedule. -/
def findJob (s : State) (f id : Nat) : Option Job := s.jobs.find? (fun j => decide (j.fn = f ∧ j.sched = id))
def findSched (s : State) (f id : Nat) : Option Schedule := s.scheds.find? (fun x => decide (x.fn = f ∧ x.id = id))
/-- Change a job. -/
def modJob (f id : Nat) (g : Job → Job) (s : State) : State :=
  { s with jobs := s.jobs.map (fun j => if j.fn = f ∧ j.sched = id then g j else j) }
/-- Change a schedule. -/
def modSched (f id : Nat) (g : Schedule → Schedule) (s : State) : State :=
  { s with scheds := s.scheds.map (fun x => if x.fn = f ∧ x.id = id then g x else x) }
/-- The physical clusters that a job maps. -/
def jobClusters (s : State) (j : Job) : List Nat := ((schedOf s j).map (fun x => x.map)).getD []
/-- Is the device parked (R629)? -/
def isParked (s : State) : Bool := getB s pwrBlk 30

/-! ### Registers at the start of a job and in a moved cluster (R41, R266, R290, R314) -/

/-- Every core register of a cluster is zero; after a move every tag is set. -/
def clearCores (c : Nat) (moved : Bool) (s : State) : State :=
  let inC := fun (k : Nat) => decide (k / 512 = c)
  let s := { s with
    mcores := s.mcores.filter (fun e => e.1 / 16 ≠ c), vruns := kvKeep s.vruns (fun k => !inC k)
    sruns := kvKeep s.sruns (fun k => !inC k), abase := kvKeep s.abase (fun k => !inC (k / 8)), abtag := kvKeep s.abtag (fun k => !inC (k / 8)) }
  if !moved then s
  else
    let s := (List.range 2).foldl (fun s kind => (List.range (logCount kind)).foldl (fun s i => freshCore c kind i s) s) s
    (List.range 16).foldl (fun s i =>
      let k := runnerNo c 2 (i / 4) (i % 4)
      (List.range 32).foldl (fun s n => setSx k n 0#64 true s) s) s

/-- Stop every runner of a cluster: nothing of the job is left in its queues, relays, rings, marks or waits. -/
def stopCluster (c : Nat) (s : State) : State :=
  let inC := fun (k : Nat) => decide (k / 512 = c)
  let s := { s with
    runners := kvKeep s.runners (fun k => !inC k), hwaits := s.hwaits.filter (fun w => w.cmd.isSome || !inC w.who)
    xfers := s.xfers.filter (fun x => !inC x.runner) }
  let s := [0, 1].foldl (fun s d => modAtt d (fun a => { a with
    queue := a.queue.filter (fun x => !inC x.runner), decodes := a.decodes.filter (fun x => !inC x.req.runner) }) s) s
  let s := forgetWritten (fun n => coreCluster n = c) s
  modCluster c (fun x => { x with marks := [], rings := [], firings := [], blotAll := false, started := false }) s

/-! ### Ends of jobs (R36, R45, R106, R164) -/

/-- The reply of a launch in progress: what its laps met, and the index of the last lap. -/
def replyLaunch (j : Job) (s : State) : State :=
  match j.launch with
  | none => s
  | some l => finish l.hdr 0x13 (runStatus l.flags) l.flags.blots (j.next - 1) 0 s

/-- A job ends with what it has met and, added to it, `g`. An unfinished lap is cut off, its outputs blotted where `blot` is set. The clusters
make the moves that waited (R36); a device whose system job ends before its last lap by a lost cluster leaves as under R45; replies are written to the launch, to STOP_JOB, to a halt not reached (ABORTED) and to START_JOB. -/
def endJob (j0 : Job) (g : RunFlags → RunFlags) (blot : Bool) (s : State) : State :=
  match findJob s j0.fn j0.sched with
  | none => s
  | some j =>
    let cs := jobClusters s j
    let s := if blot && j.running then blotWritten (fun n => cs.contains (coreCluster n)) s else s
    let s := cs.foldl (fun s c => stopCluster c s) s
    let s := { s with jobs := s.jobs.filter (fun x => !decide (x.fn = j.fn ∧ x.sched = j.sched)) }
    let s := idleFences (cs.foldl (fun s c => moveCores c s) s)
    let fl := g j.flags
    let s := if j.system then disarm (if fl.leftSystem || fl.clusterLost then modPace (fun p => { p with leave := true }) s else s) else s
    let s := replyLaunch { j with launch := j.launch.map (fun l => { l with flags := g l.flags }) } s
    let s := match j.stopBy with
      | none => s
      | some h => fail h 0x14 stOk s
    let s := match j.haltBy with
      | none => s
      | some h => fail h 0x15 stAborted s
    finish j.hdr 0x12 (runStatus fl) fl.blots j.next j.holds s

/-- End every job that a test accepts. -/
def endJobs (p : Job → Bool) (g : Job → RunFlags → RunFlags) (blot : Bool) (s : State) : State :=
  (s.jobs.filter p).foldl (fun s j => endJob j (g j) blot s) s

/-- The flags of a job that a reset or a trip ends: LEFT_SYSTEM of the system job, ABORTED of another. -/
def cutFlags (j : Job) (f : RunFlags) : RunFlags := if j.system then { f with leftSystem := true } else { f with aborted := true }

/-! ### Laps -/

/-- Does a job ask for a lap: in MODE free unless halted, else when a launched lap waits (R163, R747)? -/
def jobWants (j : Job) : Bool :=
  let launched := (j.launch.map (fun l => decide (0 < l.left) && (!j.halted || l.inHalt))).getD false
  if j.halted || j.stepped then launched else true

/-- The lap-table entry of a job's next lap. -/
def nextEntry (s : State) (j : Job) : Option LapEntry := (schedOf s j).bind (fun x => lapEntryOf x.laps j.next)

/-- Replacements of R40 for the retired clusters of a reserve-shape mapping: the fenced cluster in service of the same tower, else the lowest.
None where no fenced cluster is in service (R646). -/
def replaceRetired (s : State) : List Nat → List Nat → Option (List Nat × List Nat)
  | [], fences => some ([], fences)
  | c :: r, fences =>
    if !retired s c then (replaceRetired s r fences).map (fun (m, f) => (c :: m, f))
    else
      let ok := fences.filter (fun x => !clusterOut s x && !retired s x)
      match (ok.find? (fun x => x / 4 = c / 4)).orElse (fun _ => ok.head?) with
      | none => none
      | some x => (replaceRetired s r (fences.filter (fun y => y ≠ x))).map (fun (m, f) => (x :: m, f))

/-- Moves at a lap boundary (R32, R40): failed cores, and the logical clusters of retired ones; none where a cluster has no replacement. -/
def lapMoves (j : Job) (s : State) : Option State :=
  let cs := jobClusters s j
  let s := cs.foldl (fun s c => moveCores c s) s
  if jobShape s j ≠ 2 ∨ cs.all (fun c => !retired s c) then some s
  else
    (replaceRetired s cs ((List.range 64).filter (fenced s))).map (fun (m, f) =>
      let s := (cs.zip m).foldl (fun s (a, b) => if a = b then s else clearCores b true (stopCluster a s)) s
      setFences f (modSched j.fn j.sched (fun x => { x with map := m }) s))

/-- Marks that are not 0 at a lap boundary are recorded and cleared (R206); blot latches clear (R230); what the last lap wrote is forgotten. -/
def settleLap (c : Nat) (s : State) : State :=
  let s := (getCluster s c).marks.foldl (fun s e => report 0x106 (oCluster c) (clusterFn s c) e.1 s) s
  let s := modCluster c (fun x => { x with marks := [], blotAll := false }) s
  let s := { s with runners := kvMapAll (fun _ => {}) s.runners (fun r => r) }
  let s := ((s.runners.filter (fun e => noCluster e.1 = c)).map (fun e => e.1)).foldl (fun s k =>
    modRunner k (fun r => { r with latch := false }) s) s
  forgetWritten (fun n => coreCluster n = c) s

/-- Hurdles with LAP_RESET of a function, and of the system when it runs the system job, are reset (R212). -/
def lapResets (j : Job) (s : State) : State :=
  ((s.hurdles.filter (fun e => e.2.lapReset)).map (fun e => e.1)).foldl (fun s n =>
    if hurdleOwner s n = j.fn && (decide (n < 7680) || j.system) then hurdleCycle n [.reset] s else s) s

/-- Staged trace control takes effect, and recording begins with lap START_LAP (R741). -/
def lapTrace (c lap : Nat) (s : State) : State :=
  let o := cluBlk c + 0x80000
  let s := match kvFind s.hub.stagedLap o with
    | none => s
    | some v => modHub (fun h => { h with stagedLap := kvErase h.stagedLap o }) (setReg o v s)
  modCluster c (fun x => { x with traceOn := decide ((rawReg s (o + 4)).toNat ≤ lap) }) s

/-- The runners of a cluster begin their segments of a program (R186); one whose segment the quill has begun to fetch keeps what it holds (R195). -/
def beginRunners (x : Schedule) (p : Nat) (s : State) : State :=
  (x.streams.zip (nth [] x.programs p)).foldl (fun s (y, st) =>
    modRunner (streamRunner x y) (fun r =>
      if r.ahead then { r with busy := true, skip := 0, ended := false, ahead := false }
      else
        { r with
          queue := [], fetch := st, fetched := decide (st = 0xFFFFFFFF), busy := decide (st ≠ 0xFFFFFFFF), skip := 0, ended := false }) s) s

/-- A job starts its next lap at a start line (R90), after the moves of the boundary. Without a replacement the device leaves (R646). -/
def startLap (j0 : Job) (s : State) : State :=
  match lapMoves j0 s with
  | none => endJob j0 (fun f => { f with leftSystem := true }) false s
  | some s =>
    match findJob s j0.fn j0.sched with
    | none => s
    | some j =>
      match schedOf s j with
      | none => s
      | some x =>
        let p := ((nextEntry s j).map (fun e => e.program)).getD 0
        let s := lapResets j (x.map.foldl (fun s c => lapTrace c j.next (settleLap c s)) s)
        let s := x.map.foldl (fun s c => modCluster c (fun y => { y with started := false, ramp := 8 }) s) s
        let s := beginRunners x p s
        let s := if j.system then modPace (fun p => { p with lapStarted := some j.next }) s else s
        modJob j.fn j.sched (fun y => { y with
          next := y.next + 1, running := true, due := none
          launch := y.launch.map (fun l => if y.stepped || y.halted then { l with left := l.left - 1 } else l) }) s

/-- Is a job's lap done (R99): every runner has completed its last stroke, nothing it started is left, and for the system job no firing? -/
def lapComplete (s : State) (j : Job) : Bool :=
  let cs := jobClusters s j
  let mine := fun (k : Nat) => cs.contains (noCluster k)
  s.runners.all (fun e => !mine e.1 || (!e.2.busy && e.2.flight.isEmpty && e.2.loop.isNone)) && s.xfers.all (fun x => !mine x.runner) &&
    cs.all (fun c => (getCluster s c).firings.isEmpty) && (!j.system || (s.coll.firings.isEmpty && s.coll.released.isEmpty))

/-- Keep the smallest slack and its lap, both in registers. -/
def keepSlack (o : Nat) (lapReg : Option Nat) (slack : Int) (lap : Nat) (s : State) : State :=
  let v := max (-(2 ^ 31 : Int)) (min slack (2 ^ 31 - 1))
  if v < (rawReg s o).toInt then
    let s := setReg o (BitVec.ofInt 32 v) s
    match lapReg with
    | none => s
    | some r => setReg r (BitVec.ofNat 32 lap) s
  else s

/-- The slack of a lap that was done at a time: kept now when its tick has come, else at that tick (R100). -/
def noteSlack (due : Option Nat) (o : Nat) (lapReg : Option Nat) (doneAt lap : Nat) (s : State) : State :=
  match due with
  | some d => keepSlack o lapReg (((d : Int) - doneAt) / 10) lap s
  | none => modPace (fun p => { p with slacks := p.slacks ++ [(o, lapReg, doneAt, lap)] }) s

/-- A cluster's counts of a lap that is done (Table 18.6). -/
def clusterLapDone (due : Option Nat) (lap c : Nat) (s : State) : State :=
  let x := getCluster s c
  let b := cluBlk c + 0x80200
  let s := addReg b 1 s
  let s := addReg (b + 4) ((x.lastDone - x.firstIssue) * getF s (vfBlk c) 8 6 / 16) s
  noteSlack due (b + 0x30) (some (b + 0x34)) x.lastDone lap s

/-- The pace unit latches a lap's done state and its slack (R100, R110); a launch whose laps are done replies (R163); a job with no lap left,
or that is to end with its lap, ends. -/
def execLapDone (job t : Nat) (s : State) : Out :=
  let s := { s with now := max s.now t }
  .next (match s.jobs[job]? with
    | none => s
    | some j =>
      if !j.running || !lapComplete s j then s
      else
        let lap := j.next - 1
        let s := (jobClusters s j).foldl (fun s c => clusterLapDone j.due lap c s) s
        let s := if j.system then noteSlack j.due 0x434 (some 0x438) s.now lap s else noteSlack j.due (viPage j.fn + 0x24) none s.now lap s
        let s := (jobClusters s j).foldl (fun s c => modCluster c (fun x => { x with started := false }) s) s
        let ended := (j.launch.map (fun l => decide (l.left = 0))).getD false
        let s := if ended then replyLaunch j s else s
        let s := modJob j.fn j.sched (fun y => { y with running := false, launch := if ended then none else y.launch }) s
        if j.endAtLap || decide (j.laps ≤ j.next) then endJob j id false s else s)

/-! ### LOAD_SCHEDULE and UNLOAD_SCHEDULE -/

/-- The schedule that an image of a function makes. -/
def scheduleOf (f : Nat) (d : List Byte) (x : Image) (map : List Nat) : Schedule :=
  { id := field d 8 8, fn := f, sha := beNat (sha256 d), shapeKind := x.shape.kind, counts := x.shape.counts, det := bit (field d 24 4) 0
    system := bit (field d 24 4) 1, lapCount := field d 28 4, floorStep := field d 32 1, stretch := field d 33 1, logical := x.shape.logical
    map := map, streams := x.streams, laps := x.laps, programs := x.programs, batons := x.batons, relays := x.relays, inits := x.inits
    tensors := x.tensors, collectives := x.collectives, plan := none }

/-- Write a schedule's streams to their places and its DATA sections to theirs. -/
def placeSchedule (f : Nat) (x : Schedule) (datas : List (Nat × List Byte)) (s : State) : Wrote :=
  let acc : Acc := { fwAcc f with trusted := true }
  let w := x.streams.foldl (fun w y =>
    writeSpan acc (placeAddr w.s f (nth 64 x.map y.lcluster) y.scratch y.dest) (y.strokes.flatMap (fun t => leBytes 16 t.toNat)) false w)
    (Wrote.start s)
  datas.foldl (fun w e => writeSpan (fwAcc f) e.1 e.2 false w) w

/-- Why a shape has no mapping: the function owns no cluster, or its clusters do not have the shape (R44, R140, Table 4.11). DEDUCED (log 15). -/
def shapeFailure (s : State) (f : Nat) : Nat := if (ownedClusters s f).isEmpty then stNoClusters else stShape

/-- LOAD_SCHEDULE (R162, R182, R630). -/
def execLoadSchedule (h : CmdHdr) (image len : Nat) (s : State) : Out :=
  runOp h 0x10 [image, len] (fun s =>
    let f := h.fn.val
    let hd := readT (fwAcc f) image (min len 256) false s
    let n := field (tBytes hd.data) 40 8
    if !hd.ok then fail h 0x10 stBusError hd.s
    else if len < 256 ∨ n < 256 ∨ len < n then fail h 0x10 stBadImage s
    else
      let r := readT (fwAcc f) image n false (bumpFree s)
      if !r.ok then fail h 0x10 stBusError r.s
      else
        let s := r.s
        let d := tBytes r.data
        match parseImage d with
        | none => fail h 0x10 stBadImage s
        | some x =>
          if !hurdlesOk s f x then fail h 0x10 stBadImage s
          else
            match mapFor s f x.shape with
            | none => fail h 0x10 (shapeFailure s f) s
            | some map =>
              let sc := scheduleOf f d x map
              if !scratchFits s f map x.streams then fail h 0x10 stBadImage s
              else if imageNondet d x then fail h 0x10 stNondet s
              else if isParked s || (findSched s f sc.id).isSome || decide (4 ≤ (s.scheds.filter (fun y => y.fn = f)).length) ||
                  s.scheds.any (fun y => decide (y.fn = f) && schedsOverlap y sc) then fail h 0x10 stBusy s
              else
                let w := placeSchedule f sc x.datas s
                if !w.ok then fail h 0x10 stBusError w.s
                else finish h 0x10 stOk 0 sc.id 0 { w.s with scheds := w.s.scheds ++ [sc] }) s

/-- UNLOAD_SCHEDULE (R166, R183): a halt asked for ends with it. -/
def execUnloadSchedule (h : CmdHdr) (sched : Nat) (s : State) : Out :=
  runOp h 0x11 [sched] (fun s =>
    match findSched s h.fn sched with
    | none => fail h 0x11 stNoJob s
    | some x =>
      if (findJob s h.fn sched).isSome then fail h 0x11 stJobActive s
      else
        let s := { s with scheds := s.scheds.filter (fun y => !decide (y.fn = x.fn ∧ y.id = x.id)) }
        let s := match x.haltBy with
          | none => s
          | some b => fail b 0x15 stAborted s
        fail h 0x11 stOk (x.map.foldl (fun s c => if loadedMaps s c then s else moveCores c s) s)) s

/-! ### START_JOB (R184, R561, R575) -/

/-- Apply HURDLE_INIT in section order. -/
def applyInits (f : Nat) (l : List HurdleInit) (s : State) : State :=
  l.foldl (fun s i =>
    match hurdleIdx s f i.index with
    | none => s
    | some n => hurdleCycle n [.setTarget (BitVec.ofNat 32 i.target), .setMode (i.mode % 8) (decide (8 ≤ i.mode))] s) s

/-- Are all pairs of consecutive ring entries neighbours (R561)? A ring of one device has none to check. -/
def ringOk (s : State) : Bool :=
  let n := ringLen s
  decide (1 ≤ n) && (ringPos s).isSome &&
    (decide (n = 1) || (List.range n).all (fun i => decide (hops s (ringAt s i) (ringAt s ((i + 1) % n)) = 1)))

/-- May a system job with this collective table start (R561)? -/
def collectivesOk (s : State) (tab : List (List Byte)) : Bool :=
  tab.isEmpty || (ringOk s && tab.all (fun b => decide ((collParam b).replicas % max 1 (ringLen s) = 0 ∧ 0 < (collParam b).replicas)))

/-- START_JOB. Its reply is written at the job's end. -/
def execStartJob (h : CmdHdr) (sched laps mode kind : Nat) (s : State) : Out :=
  runOp h 0x12 [sched, laps, mode, kind] (fun s =>
    let f := h.fn.val
    match findSched s f sched with
    | none => fail h 0x12 stNoJob s
    | some x =>
      if isParked s then fail h 0x12 stBusy s
      else if 2 ≤ mode ∨ 2 ≤ kind ∨ (kind = 0 ∧ x.system = true) ∨ x.lapCount < laps ∨ (kind = 1 ∧ x.shapeKind = 3) ∨
          (kind = 1 ∧ holdsSystem s f = false) then fail h 0x12 stBadParam s
      else
        match mapFor s f ⟨x.shapeKind, x.counts⟩ with
        | none => fail h 0x12 (shapeFailure s f) s
        | some map =>
          if map.any (fun c => jobMaps s c || clusterOut s c || towerOut s (c / 4)) then fail h 0x12 stBusy s
          else
            let s := modSched f sched (fun y => { y with map := map }) s
            let s := applyInits f x.inits s
            let token := fun i => (hurdleIdx s f i).map (fun n => (getHurdle s n).mode) = some 2
            if x.det && !tokensOk x.streams token then fail h 0x12 stNondet s
            else if kind = 1 ∧ (collectivesOk s x.collectives && x.collectives.all (fun b => (collTrigger s f b).isSome)) = false then
              fail h 0x12 stBadParam s
            else
              let s := if kind = 1 then armCollectives f x.collectives s else s
              let s := if x.shapeKind = 2 then setFences (fenceList s) s else s
              let s := map.foldl (fun s c => clearCores c false (stopCluster c s)) s
              let n := if laps = 0 then x.lapCount else laps
              let j : Job :=
                { fn := f, sched := sched, system := decide (kind = 1), stepped := decide (mode = 1), laps := n, hdr := h
                  haltAt := x.haltAt, haltBy := x.haltBy }
              let s := modSched f sched (fun y => { y with haltAt := none, haltBy := none }) { s with jobs := s.jobs ++ [j] }
              if n = 0 then endJob j id false s else s) s

/-! ### LAUNCH_LAP, STOP_JOB, HALT_AT_LAP -/

/-- LAUNCH_LAP (R163, R747). COUNT 0 launches nothing. -/
def execLaunchLap (h : CmdHdr) (sched count : Nat) (s : State) : Out :=
  runOp h 0x13 [sched, count] (fun s =>
    match findJob s h.fn sched with
    | none => fail h 0x13 stNoJob s
    | some j =>
      if (!j.stepped && !j.halted) || decide (count = 0) then fail h 0x13 stBadParam s
      else if j.running || (j.launch.map (fun l => decide (0 < l.left) && (!j.halted || l.inHalt))).getD false then fail h 0x13 stLapBusy s
      else
        let s := match j.launch with
          | none => s
          | some l => finish l.hdr 0x13 stAborted l.flags.blots (j.next - 1) 0 s
        modJob j.fn j.sched (fun y => { y with launch := some { hdr := h, left := count, flags := {}, inHalt := y.halted } }) s) s

/-- STOP_JOB: at the next lap boundary; a halted job ends at once (R747). -/
def execStopJob (h : CmdHdr) (sched : Nat) (s : State) : Out :=
  runOp h 0x14 [sched] (fun s =>
    match findJob s h.fn sched with
    | none => fail h 0x14 stNoJob s
    | some j =>
      if j.stopBy.isSome then fail h 0x14 stBusy s
      else
        let s := modJob j.fn j.sched (fun y => { y with stopBy := some h }) s
        if j.halted && !j.running then endJob j (fun f => { f with aborted := true }) false s else s) s

/-- HALT_AT_LAP (R746): of a loaded schedule, started or not. A second replaces the first, which completes with ABORTED. -/
def execHaltAtLap (h : CmdHdr) (sched lap : Nat) (s : State) : Out :=
  runOp h 0x15 [sched, lap] (fun s =>
    match findSched s h.fn sched with
    | none => fail h 0x15 stNoJob s
    | some x =>
      if lap ≠ 0xFFFFFFFF ∧ x.lapCount ≤ lap then fail h 0x15 stBadParam s
      else
        let old := match findJob s h.fn sched with
          | some j => j.haltBy
          | none => x.haltBy
        let s := match old with
          | none => s
          | some b => fail b 0x15 stAborted s
        let free := decide (lap = 0xFFFFFFFF)
        let at_ := if free then none else some lap
        let by_ := if free then none else some h
        let s := if (findJob s h.fn sched).isSome then
            modJob h.fn sched (fun y => { y with haltAt := at_, haltBy := by_, halted := y.halted && !free && decide (lap ≤ y.next) }) s
          else modSched h.fn sched (fun y => { y with haltAt := at_, haltBy := by_ }) s
        if free then fail h 0x15 stOk s
        else
          match findJob s h.fn sched with
          | some j => if j.halted then finish h 0x15 stOk 0 j.next 0 (modJob j.fn j.sched (fun y => { y with haltBy := none }) s) else s
          | none => s) s

end Sys2Proof.Machine
end

