-- ==== Sys2Proof/Machine/Peers.lean ====
section
/-!
DEFINITION. The system's tree and its departures (13.7, 13.10): TOPO, the follower role, tick markers, lost peers.
-/
namespace Sys2Proof.Machine

/-! ### The tree (R567 to R569) -/

def followerPort (s : State) : Option Nat := if getF s 0x608 26 4 = 15 then none else some (getF s 0x608 26 4)

/-- The device follows on a port, or on none. -/
def setFollower (p : Option Nat) (s : State) : State :=
  let s := (List.range 12).foldl (fun s q => setB (fjlBlk q) 30 (p == some q) s) s
  setF 0x608 26 4 (p.getD 15) s

/-- What the neighbours say: ROOT, DIST and coordinate of each with a TOPO, lowest ROOT, then least DIST, then coordinate first (R567). -/
def treeOffers (s : State) : List (Nat × Nat × Nat) :=
  (servicePorts s).filterMap (fun p =>
    match (getPort s p).topo, peerOf s p with
    | some (r, d), some c => some (r, d, c)
    | _, _ => none)

/-- Is an offer better than another? -/
def offerLess (x y : Nat × Nat × Nat) : Bool :=
  decide (x.1 < y.1 ∨ (x.1 = y.1 ∧ (x.2.1 < y.2.1 ∨ (x.2.1 = y.2.1 ∧ x.2.2 < y.2.2))))

def bestOffer (s : State) : Option (Nat × Nat × Nat) :=
  (treeOffers s).foldl (fun (b : Option (Nat × Nat × Nat)) x =>
    match b with
    | none => some x
    | some y => if offerLess x y then some x else some y) none

/-- The offer that a device follows, if any: it takes ROOT and DIST of it, and its port of the offering neighbour. -/
def followOffer (put : Nat → Nat → Bool → State → State) (own : Nat) (s : State) : Option (Nat × Nat × Nat) → State
  | none => setFollower none (put own 0 true s)
  | some (r, d, c) =>
    let s := put r (min (d + 1) 63) false s
    match designated s c with
    | none => s
    | some q =>
      let same := ((followerPort s).bind (peerOf s)) == some c
      if followerPort s = some q then s
      else if same then setFollower (some q) s
      else if systemLoaded s then s
      else if (getPort s q).roleReq then s
      else sendPort q .roleReq (modPort q (fun x => { x with roleReq := true }) s)

/-- ROOT, DIST, MASTER and the follower port by what the device knows: the pace master has no follower port; another moves to the
designated port of the same neighbour at once, and asks a new neighbour with ROLE_REQ while no system job is loaded (R567 to R569). -/
def updateTree (s : State) : State :=
  let own := ownCoord s
  followOffer (fun r d m s => setB 0x40C 30 m (setF 0x608 20 6 d (setF 0x608 0 18 r s))) own s
    ((bestOffer s).filter (fun o => decide (o.1 < own)))

/-- The follower port when one leaves service: another port of the same neighbour, else none (R567, R569). -/
def followAgain (p c : Nat) (s : State) : State :=
  if followerPort s = some p then setFollower (designated s c) s else s

/-- The body of a packet's message, wanted by kind. -/
def isTopo : PacketBody → Bool
  | .topo .. => true
  | _ => false
def isPeerLost : PacketBody → Bool
  | .peerLost _ => true
  | _ => false

/-- A TOPO message is taken (R567). -/
def execTopo (port : Fin 12) (s : State) : Out :=
  .next (takeVc0 port isTopo (fun k s => match k.body with
    | .topo r d f => updateTree (modPort port (fun x => { x with topo := some (r, d), follows := f }) s)
    | _ => s) s)

/-- The TOPO message of this pace goes out on every port in service, a packet of its own on each, since FOLLOWS
differs by port (R567). -/
def sendTopo (s : State) : State :=
  let b := fun p => PacketBody.topo (getF s 0x608 0 18) (getF s 0x608 20 6) (getB s (fjlBlk p) 30)
  (servicePorts s).foldl (fun s p => sendPort p (b p) s) s

/-- ROLE_REQ is granted, unless this device's own request on the port is unanswered and its coordinate is lower: then the other's request
is cancelled (R568). -/
def execRoleReq (port : Fin 12) (s : State) : Out :=
  .next (takeVc0 port (fun b => b == .roleReq) (fun k s =>
    if (getPort s port).roleReq && decide (ownCoord s < k.src) then sendPort port .roleCancel s
    else sendPort port .roleGrant s) s)

/-- The device follows on the port whose request was granted (R568), while no system job holds the tree (R569). -/
def execRoleGrant (port : Fin 12) (s : State) : Out :=
  .next (takeVc0 port (fun b => b == .roleGrant) (fun _ s =>
    if !(getPort s port).roleReq then s
    else
      let s := modPort port (fun x => { x with roleReq := false }) s
      if systemLoaded s then s else setFollower (some port.val) s) s)

/-- The device's request was cancelled (R568): counted and recorded. DESIGN CHOICE (log 25): the rule does not say which of the two devices counts
and records; the one whose request was cancelled does. -/
def execRoleCancel (port : Fin 12) (s : State) : Out :=
  .next (takeVc0 port (fun b => b == .roleCancel) (fun _ s =>
    report 0x308 (oPort port 15) fnDevice 0
      (addReg (fjlBlk port + 0x2C) 1 (modPort port (fun x => { x with roleReq := false }) s))) s)

/-! ### Departures (R582 to R585) -/

/-- Complete every WAIT on a system-scope hurdle (R238, R584): a runner's blot latch is set, a HURDLE_WAIT command replies BUS_ERROR, and a
command that waits to start starts. -/
def releaseSystemWaits (s : State) : State :=
  let hit := s.hwaits.filter (fun w => decide (7680 ≤ w.hurdle))
  let s := { s with hwaits := s.hwaits.filter (fun w => decide (w.hurdle < 7680)) }
  hit.foldl (fun s w =>
    match w.cmd with
    | some h => fail h 0x17 stBusError s
    | none =>
      let s := completeWait w (getHurdle s w.hurdle).gen s
      modRunner w.who (fun r => { r with latch := true }) s) s

/-- A command whose header waits on a system-scope hurdle starts: its WAIT counts as released. -/
def releaseCommandWaits (s : State) : State :=
  let hit := s.scribe.waits.filter (fun w => decide (7680 ≤ w.hurdle))
  let s := modScribe (fun x => { x with waits := x.waits.filter (fun w => decide (w.hurdle < 7680)) }) s
  hit.foldl (fun s w => startCmd w.cmd s) s

/-- The device learns that a coordinate has departed. The first time it passes the news on, releases what waits on the system, and starts
no further lap of the system job (R582 to R585). `via` are the ports on which it lost the peer, each with a record (R583; 0xFF for news by
header or message), `from_` the port that brought the news. -/
def learnDeparture (coord : Nat) (via : List Nat) (from_ : Option Nat) (s : State) : State :=
  let s := via.foldl (fun s p => report 0x307 (oPeer coord) fnDevice p s) s
  if s.links.lost.contains coord then s
  else
    let s := addReg 0x610 1 { s with links := { s.links with lost := s.links.lost ++ [coord] } }
    let s := sendAll from_ (.peerLost coord) s
    let s := releaseCommandWaits (releaseSystemWaits s)
    let s := forceFirings s
    let s := { s with jobs := s.jobs.map (fun (j : Job) =>
      if j.system then { j with endAtLap := true, flags := { j.flags with busError := true } } else j) }
    let s := { s with ports := s.ports.map (fun ((i, x) : Nat × Port) =>
      (i, if (x.topo.map (fun t => t.1)) = some coord then { x with topo := none } else x)) }
    updateTree s

/-- PEER_LOST is taken and passed on once (R582). -/
def execPeerLost (port : Fin 12) (s : State) : Out :=
  .next (takeVc0 port isPeerLost (fun k s => match k.body with
    | .peerLost c => learnDeparture c [0xFF] (some port.val) s
    | _ => s) s)

/-! ### Markers (R564, R566, R570, R571) -/

/-- PACE_CTRL.WIRED. -/
def wired (s : State) : Bool := getB s 0x400 2

/-- The device becomes ALIGNED and takes its upstream's pace number (R566): with the next header where none has come. -/
def becomeAligned (s : State) : State :=
  let up := (followerPort s).bind (fun p => (getPort s p).farPace)
  let s := setB 0x608 31 true s
  match up.filter (fun n => decide (n < 2 ^ 48 - 1)) with
  | some n => setF 0x414 0 16 (n >>> 32) (setReg 0x410 (BitVec.ofNat 32 n) s)
  | none => { s with links := { s.links with needPace := true } }

/-- A step towards ALIGNED: sixteen in a row within the limits. -/
def alignStep (good : Bool) (s : State) : State :=
  let n := if good then min 16 (s.links.inPhase + 1) else 0
  let s := { s with links := { s.links with inPhase := n } }
  if n = 16 ∧ getB s 0x608 31 = false then becomeAligned s else s

/-- A tick marker arrives, with its phase error in units of 10 ps. On the follower port it is kept in FJS_PHASE, ends HOLDOVER and counts
towards ALIGNED; with WIRED it steers nothing (R571). -/
def execTickMarker (port : Fin 12) (phase : Int) (s : State) : Out :=
  .next (if !inService s port || !(followerPort s == some port.val) then s
    else
      let s := setReg 0x60C (BitVec.ofInt 32 phase) s
      if wired s then s
      else
        let s := setB 0x608 30 false { s with links := { s.links with marked := true, missed := 0 } }
        alignStep (decide (-500 ≤ phase ∧ phase ≤ 500)) s)

/-- No marker has come since the last tick (R570): the device holds over, and after 16 such ticks is not ALIGNED. A pace master, and a
device that ticks on PACE_IN, waits for none. -/
def execMarkerMissing (s : State) : Out :=
  .next (if wired s || getB s 0x40C 30 || topoKind s = 0 || s.links.marked then s
    else
      let n := s.links.missed + 1
      let s := setB 0x608 30 true { s with links := { s.links with missed := n, marked := true } }
      if 16 ≤ n then setB 0x608 31 false { s with links := { s.links with inPhase := 0 } } else s)

end Sys2Proof.Machine
end

