-- ==== Sys2Proof/Machine/Ports.lean ====
section
/-!
DEFINITION. Fjarlink ports as receivers and their training (13.2 to 13.5): flits, acknowledgement and replay, leaving service, the states of
Table 13.5, the windows of R556.
-/
namespace Sys2Proof.Machine

/-! ### Slots into packets (R543) -/

/-- One slot joins the packet in progress; a whole packet goes to the buffer of its channel. -/
def takeSlot (x : Port) (slot : List Byte × Bool) : Port :=
  if x.building.isEmpty && decide (field slot.1 0 2 = 0) then x
  else
    let b := x.building ++ [slot]
    if b.length < 1 + field (b.headD ([], false)).1 1 1 then { x with building := b }
    else
      match packetOf b with
      | none => { x with building := [] }
      | some k =>
        match k.body with
        | .ident .. => { x with building := [], ident := some k }
        | .coll .. => { x with building := [], rx1 := x.rx1 ++ [k] }
        | _ => { x with building := [], rx0 := x.rx0 ++ [k] }

/-! ### Leaving service (R552 to R554) -/

/-- A port's state changes. -/
def setPortState (p st : Nat) (s : State) : State := setF (fjlBlk p) 24 4 st s

/-- A port goes to FAILED: its record, and the reply of a PORT_RETRAIN that waited for it. -/
def portFailed (p st : Nat) (s : State) : State :=
  let s := report 0x306 (oPort p 15) fnDevice st (setPortState p 7 s)
  match (getPort s p).reply with
  | none => s
  | some (h, op) => fail h op stFwError (modPort p (fun x => { x with reply := none }) s)

/-- A state ends without its criteria: back to EQUALIZE, or FAILED at the third time in a row (R554). -/
def returnEqualize (p : Nat) (s : State) : State :=
  let st := portState s p
  let s := modPort p (fun x => { x with returns := x.returns + 1 }) s
  if 3 ≤ (getPort s p).returns then portFailed p st s
  else setPortState p 2 (modPort p (fun x => { x with retrained := true }) s)

/-- Packets of a port that left service go on: VC0 in order on the neighbour's new designated port, COLL packets, handed back to the
collective engine, on another port; with no port left the neighbour is lost (R553, R582). -/
def moveTraffic (p c : Nat) (s : State) : State :=
  let x := getPort s p
  let ks := x.sent.map (fun y => y.2) ++ x.waiting
  let s := modPort p (fun y => { y with
    sent := [], waiting := [], txSeq := 1023, rxSeq := 1023, nak := false, building := [], nakRun := 0
    credit0 := 256, credit1 := 4096, freed0 := 0, freed1 := 0, roleReq := false, topo := none, follows := false, farPace := none }) s
  match designated s c with
  | none => learnDeparture c ((List.range 12).filter (fun q => q = p ∨ (portPeer s q).map (fun x => x.1) = some c)) none s
  | some q =>
    let s := (ks.filter (fun k => k.vc = 0)).foldl (fun s k => sendOn q k s) s
    let vs := ks.filter (fun k => k.vc = 1)
    vs.foldl (fun s k => sendOn q k s) (addReg (colBlk 0 + 0xC) vs.length s)

/-- A port leaves service; `next` says what becomes of the port. -/
def leaveService (p : Nat) (next : State → State) (s : State) : State :=
  if !inService s p then s
  else
    let c := peerOf s p
    let s := setB (fjlBlk p) 31 false (setB (fjlBlk p) 29 false s)
    let s := next s
    match c with
    | none => s
    | some c => moveTraffic p c (followAgain p c (markDesignated s))

/-- Count a retrain, saturating. -/
def countRetrain (p : Nat) (s : State) : State := setF (fjlBlk p) 8 8 (min 255 (getF s (fjlBlk p) 8 8 + 1))
  (modHub (fun h => { h with retrains := kvMod (fun _ => 0) h.retrains p (fun n => n + 1) }) s)

/-- A port in service retrains (R556): to EQUALIZE, with no state failed. -/
def retrain (p : Nat) (s : State) : State :=
  let go := fun s => setPortState p 2 (countRetrain p (modPort p (fun x => { x with retrained := true, returns := 0 }) s))
  if inService s p then leaveService p go s else go s

/-- A port whose link broke leaves service and returns to EQUALIZE (R552, R554). -/
def breakPort (p : Nat) (s : State) : State := leaveService p (fun s => returnEqualize p (countRetrain p s)) s

/-- No good flit for 1 µs (R552). -/
def execPortNoFlitTimeout (port : Fin 12) (t : Nat) (s : State) : Out :=
  let s := { s with now := max s.now t }
  .next (if inService s port && decide ((getPort s port).lastGood + 1000 ≤ s.now) then breakPort port s else s)

/-! ### FLIT_RECEIVE -/

/-- Counts that a flit's decoding adds to the registers and the window. -/
def countFlit (p : Nat) (f : FlitOut) (s : State) : State :=
  let n := f.corrected.sum
  let s := addReg (fjlBlk p + 0x28) f.uncorrectable (addReg (fjlBlk p + 0x24) n s)
  let s := if flitGood f then s else addReg (fjlBlk p + 0x1C) 1 s
  modPort p (fun x => { x with
    laneBits := (physicalLanes x.failedRx).zipIdx.foldl (fun l y => l.set y.1 (nth 0 l y.1 + nth 0 f.laneBits y.2)) x.laneBits
    symbols := x.symbols + n, worst := max x.worst (f.corrected.foldl max 0), uncorr := x.uncorr + f.uncorrectable
    bad := x.bad + b2n (!flitGood f) }) s

/-- The receiver asks for a replay, or goes on asking (R549). -/
def askReplay (p : Nat) (s : State) : State :=
  sendIdle p false 0 (modPort p (fun x => { x with nak := true }) s)

/-- Flits acknowledged leave the replay buffer, freed slots are credited, and what waits is sent (R545, R548). -/
def takeAck (p ack c0 c1 : Nat) (s : State) : State :=
  let s := modPort p (fun x =>
    let i := ((x.sent.findIdx? (fun y => y.1 = ack)).map (fun i => i + 1)).getD 0
    { x with sent := x.sent.drop i, credit0 := min 256 (x.credit0 + c0), credit1 := min 4096 (x.credit1 + c1) }) s
  pump ((getPort s p).waiting.length + 1) p s

/-- Packets go out again under their SEQ, the first in a REPLAY flit. -/
def replayAll (p : Nat) (ks : List (Nat × Packet)) (s : State) : State :=
  (ks.zipIdx).foldl (fun s (k, i) => sendFlit p (if i = 0 then 2 else 1) k.1 false 0 (packetSlots k.2) s) s

/-- A NAK (R550): the sender sends again from ACK + 1. The flits with NAK that come within one retry's delay of a replay (R551) ask for that
same replay. The eighth in a row of one flit breaks the port (R552). -/
def takeNak (p ack : Nat) (s : State) : State :=
  let x := getPort s p
  let q := (ack + 1) % 1024
  let fresh := decide (x.nakAt ≠ q ∨ x.nakRun = 0) || decide (2 * getF s (fjlBlk p + 0xC) 0 16 + 5120 ≤ (s.now - x.replayAt) * 100)
  if x.sent.isEmpty || !fresh then s
  else
    let run := if x.nakAt = q then x.nakRun + 1 else 1
    let s := modPort p (fun y => { y with nakAt := q, nakRun := run, replayAt := s.now }) s
    if 8 ≤ run then breakPort p s
    else replayAll p x.sent (addReg (fjlBlk p + 0x20) 1 s)

/-- A DATA or REPLAY flit (R549): accepted in SEQ order; while a replay is asked for, only the REPLAY that begins it. -/
def takeData (p kind seq : Nat) (l : List Byte) (s : State) : State :=
  let x := getPort s p
  let due := (x.rxSeq + 1) % 1024
  if x.nak && (decide (kind ≠ 2) || decide (seq ≠ due)) then askReplay p s
  else if seq ≠ due then askReplay p s
  else
    let s := modPort p (fun x => { x with rxSeq := seq, nak := false }) s
    let s := addReg (fjlBlk p + 0x18) 1 s
    let s := if portState s p = 5 then s else modPort p (fun x => (flitSlots l).foldl takeSlot x) s
    sendIdle p false 0 s

/-- A flit reaches a port's decoder, in the states that exchange flits of packets or count them (R549, Table 13.5). -/
def execFlitReceive (port : Fin 12) (f : FlitIn) (t : Nat) (s : State) : Out :=
  let s := { s with now := max s.now t }
  let p := port.val
  let f := decodeFlit f
  .next (if portState s p < 4 ∨ 6 < portState s p then s
    else
      let s := countFlit p f s
      if !flitGood f then askReplay p s
      else
        let h := field f.bytes 0 6
        let s := modPort p (fun x => { x with lastGood := s.now }) s
        let kind := bits h 0 2
        if kind = 3 then s
        else
          let s := takeAck p (bits h 12 10) (bits h 33 6) (bits h 39 7) s
          let s := if bit h 22 then takeNak p (bits h 12 10) s else modPort p (fun x => { x with nakRun := 0 }) s
          if kind = 0 then s else takeData p kind (bits h 2 10) f.bytes s)

/-! ### Training (R535, R554, R555) -/

/-- FJL_LANE_MAP shows the first failed lane of each direction. -/
def showLanes (p : Nat) (s : State) : State :=
  let x := getPort s p
  setReg (fjlBlk p + 0x10) (BitVec.ofNat 32 (x.failedTx.headD 15 * 2 ^ 24 + x.failedRx.headD 15 * 2 ^ 8)) s

/-- Lanes newly failed are soft fuses of kind 0x03 (Table 16.2), by bring-up test or by counted events. -/
def fuseLanes (p source : Nat) (old new : List Nat) (transmit : Bool) (s : State) : State :=
  (new.filter (fun i => !old.contains i)).eraseDups.foldl (fun s i =>
    softFuse 3 source (2 ^ 36 * p + i % 16 * 2 ^ 32 + 2 ^ 31 * b2n transmit) s) s

/-- Bounds of R555 on a second of flits: corrected bits of a lane, corrected symbols of the port. -/
def laneBound : Nat := 2125000
def symbolBound : Nat := 8500000

/-- The counts of a window start again. -/
def clearWindow (p : Nat) (s : State) : State :=
  modPort p (fun x => { x with laneBits := List.replicate 9 0, symbols := 0, worst := 0, uncorr := 0, bad := 0 }) s

/-- The bound of R108 in units of 10 ps, with h the largest header hop latency of the ports in service (ℓ + 51.2 ns). -/
def windowBound (s : State) : Nat :=
  diameter s * (((servicePorts s).map (fun p => getF s (fjlBlk p + 0xC) 0 16)).foldl max 0 + 5120) + 45000

/-- WINDOW as it acts, in units of 10 ns (Table 3.3). -/
def windowField (s : State) : Nat := max 20 (getF s 0x408 0 16)

/-- R108 is checked at a port's readiness. -/
def checkWindow (p : Nat) (s : State) : State :=
  let short := decide (1000 * windowField s < windowBound s)
  let s := setB 0x40C 26 short s
  if short then report 0x305 (oPort p 15) fnDevice (ceilDiv (windowBound s) 100) s else s

/-- A PORT_RETRAIN that waits for its port is answered. -/
def answerRetrain (p : Nat) (s : State) : Option (CmdHdr × Nat) → State
  | none => s
  | some (h, op) => fail h op stOk (modPort p (fun x => { x with reply := none }) s)

/-- A port becomes ready and enters IN_SERVICE: full credit, new flit sequences, and with the first port to a neighbour new VC0 sequences. -/
def enterService (p : Nat) (s : State) : State :=
  let c := (peerOf s p).getD 0
  let first := (portsTo s c).isEmpty
  let s := if first then { s with links := { s.links with
      nseqTx := kvPut (fun _ => 0) s.links.nseqTx c 0, nseqRx := kvPut (fun _ => 0) s.links.nseqRx c 0
      lost := s.links.lost.filter (fun x => x ≠ c) } } else s
  let s := modPort p (fun x => { x with
    rxSeq := 1023, txSeq := 1023, nak := false, building := [], rx0 := if first then [] else x.rx0, sent := [], credit0 := 256, credit1 := 4096, freed0 := 0, freed1 := 0
    nakRun := 0, returns := 0, lastGood := s.now, roleReq := false, topo := none, follows := false, farPace := none }) s
  let s := markDesignated (setB (fjlBlk p) 31 true (setPortState p 6 (clearWindow p s)))
  let s := checkWindow p s
  answerRetrain p s (getPort s p).reply

/-- Does the second of BER_GATE keep every bound of R555? -/
def berOk (s : State) (p : Nat) (f : PortFindings) : Bool :=
  let x := getPort s p
  let active := (List.range 9).filter (fun i => !x.failedRx.contains i)
  active.all (fun i => decide (nth 0 x.laneBits i ≤ laneBound)) && decide (f.farBits ≤ laneBound) && f.farOk &&
    decide (x.uncorr = 0 ∧ x.worst ≤ 8 ∧ x.symbols ≤ symbolBound) && decide (getF s (fjlBlk p + 0xC) 0 16 ≤ 9880) &&
    (peerOf s p).isSome

/-- A training state ends. DISABLED and DETECT wait for what they need; a later state that does not meet its criteria returns. -/
def execPortStateDone (port : Fin 12) (f : PortFindings) (s : State) : Out :=
  let p := port.val
  let st := portState s p
  .next (if st = 0 then
      if !getB s (fjlBlk p + 4) 0 || portOut s p then s
      else
        let d := portDir (topoKind s) p
        setPortState p 1 (setF (fjlBlk p) 20 4 ((d.map (fun x => x.1)).getD 15) (setF (fjlBlk p) 16 4 ((d.map (fun x => x.2)).getD 0) s))
    else if st = 1 then (if 8 ≤ f.detectTx ∧ 8 ≤ f.detectRx then setPortState p 2 s else s)
    else if st = 2 then
      let s := fuseLanes p 0 ((getPort s p).failedTx) f.failedTx true (fuseLanes p 0 ((getPort s p).failedRx) f.failedRx false s)
      let s := showLanes p (modPort p (fun x => { x with
        failedTx := (x.failedTx ++ f.failedTx).eraseDups, failedRx := (x.failedRx ++ f.failedRx).eraseDups }) s)
      if (getPort s p).failedTx.length ≤ 1 ∧ (getPort s p).failedRx.length ≤ 1 then setPortState p 3 s else returnEqualize p s
    else if st = 3 then
      let d := (portDir (topoKind s) p).getD (15, 0)
      let s := setPortState p 4 (setReg (fjlBlk p + 8) 0#32
        (modPort p (fun x => { x with rxSeq := 1023, txSeq := 0, nak := false, building := [], ident := none }) s))
      sendFlit p 1 0 false 0 (packetSlots { nseq := 0, src := ownCoord s, body := .ident (ownCoord s) p d.1 d.2 Config.serial.toNat }) s
    else if st = 4 then
      let s := setF (fjlBlk p + 0xC) 0 16 (min 65535 f.latency) s
      if (peerOf s p).isNone then returnEqualize p s
      else if s.hub.fast && !(getPort s p).retrained then
        (if f.latency ≤ 9880 then enterService p s else returnEqualize p s)
      else setPortState p 5 (clearWindow p s)
    else if st = 5 then
      let s := (List.range 9).foldl (fun s i => setReg (fjlBlk p + 0x40 + 4 * i) (BitVec.ofNat 32 (nth 0 (getPort s p).laneBits i)) s) s
      if berOk s p f then enterService p s else returnEqualize p s
    else s)

/-- A training state exceeds its limit; DETECT has none. -/
def execPortStateTimeout (port : Fin 12) (s : State) : Out :=
  .next (if 2 ≤ portState s port ∧ portState s port ≤ 5 then returnEqualize port s else s)

/-- IDENT is checked against Table 13.6; a mismatch fails the port (R554). -/
def execIdent (port : Fin 12) (s : State) : Out :=
  let p := port.val
  .next (if portState s p ≠ 4 then s
    else
      match (getPort s p).ident with
      | none => s
      | some k =>
        let s := modPort p (fun x => { x with ident := none }) s
        match k.body with
        | .ident c q d i _ =>
          if portPeer s p = some (c, d, i) ∧ portDir (topoKind s) q = some (d, i) then
            setReg (fjlBlk p + 8) (BitVec.ofNat 32 (2 ^ 31 + 2 ^ 24 * q + c)) s
          else portFailed p 4 (setB (fjlBlk p) 28 true s)
        | _ => s)

/-- A window of 1 s of a port in service ends (R556). -/
def execBerWindow (port : Fin 12) (s : State) : Out :=
  let p := port.val
  .next (if !inService s p then s
    else
      let x := getPort s p
      let s := (List.range 9).foldl (fun s i => setReg (fjlBlk p + 0x40 + 4 * i) (BitVec.ofNat 32 (nth 0 x.laneBits i)) s) s
      let s := clearWindow p s
      let hot := (List.range 9).filter (fun i => decide (laneBound < nth 0 x.laneBits i) && !x.failedRx.contains i)
      match hot with
      | i :: _ =>
        let s := report 0x309 (oPort p i) fnDevice (nth 0 x.laneBits i) s
        let s := fuseLanes p 1 x.failedRx [i] false s
        retrain p (showLanes p (modPort p (fun y => { y with failedRx := y.failedRx ++ [i] }) s))
      | [] => if symbolBound < x.symbols ∨ 10 < x.bad then retrain p s else s)

/-- PORT_RETRAIN (R647): under the condition of UNIT_OUT; its reply comes when the port is in service or has failed. -/
def portSpare (s : State) (p : Nat) : Bool :=
  !systemLoaded s || (match peerOf s p with
    | none => true
    | some c => !inService s p || decide (2 ≤ (portsTo s c).length))

def execPortRetrain (h : CmdHdr) (port : Nat) (s : State) : Out :=
  runOp h 0x83 [port] (fun s =>
    if 12 ≤ port then fail h 0x83 stBadParam s
    else if portOut s port ∨ portState s port = 0 ∨ (getPort s port).reply.isSome then fail h 0x83 stBadState s
    else if !portSpare s port then fail h 0x83 stBusy s
    else
      let s := modPort port (fun x => { x with reply := some (h, 0x83), returns := 0 }) s
      retrain port s) s

end Sys2Proof.Machine
end

