-- ==== Sys2Proof/Machine/Power.lean ====
section
/-!
DEFINITION. The power and thermal supervisor (chapter 14): V/F steps and transitions, droop, measurement, the cap loop, forced
actions, temperatures and the trip, cooling, PARK and UNPARK. Measured quantities are operands.
-/
namespace Sys2Proof.Machine

/-! ### ceil and forced steps -/

/-- ceil of R608 for a cluster: the most bubbles, up to 56, that keep its lap within the budget at its MCLK; 56 outside a lap. -/
def ceilOf (s : State) (c : Nat) : Nat :=
  match (jobOf s c).filter (fun j => j.running) with
  | none => 56
  | some j =>
    match (schedOf s j).bind (fun x => (lapEntryOf x.laps (j.next - 1)).map (fun e => (x, e))) with
    | none => 56
    | some (x, e) =>
      let p := getF s 0x404 0 11
      let w := let f := windowField s; if p * 50 ≤ f then p * 50 else f
      let tr := let r := getF s 0x408 16 6; if r = 0 then 64 else r
      let rhs : Int := 1000 * (1000 * (p : Int) - 10 * w - 580) - (e.ramps : Int) * 421875 * tr
      let fits := fun (b : Nat) =>
        decide ((e.budget : Int) * 16 * 1000 * 64 * 1000 ≤ rhs * (curM s c) * (1000 - (x.stretch : Int)) * (64 - (b : Int)))
      ((List.range 57).reverse.find? fits).getD 0

/-- The supervisor evaluates ceil of a cluster: at each start line and after each completed transition (R608). -/
def evalCeil (c : Nat) (s : State) : State :=
  let v := ceilOf s c
  modClu c (fun x => { x with ceil := v }) s

/-- ceil in force: 56 under cap forcing (R610). -/
def ceilNow (s : State) (c : Nat) : Nat := if (getTow s (c / 4)).forcing then 56 else (getClu s c).ceil

/-- A cluster goes to PF by a forced action (R600, R612): m first, then 550 mV, over any transition and any stretch. -/
def toPf (c : Nat) (s : State) : State :=
  let rising := ((getClu s c).move.map (fun m => m.rise)).getD false
  if curStep s c = 16 ∧ !rising then
    match (getClu s c).move with
    | some m => if m.held then setVolt c 550 (modClu c (fun x => { x with move := some { m with held := false } }) s) else s
    | none => s
  else
    let back := setMvOf s c
    let s := setVolt c 550 (changeM c 16 s)
    setB (vfBlk c) 31 true (modClu c (fun x => { x with move := some { step := 16, rise := false, back := back } }) s)

/-- Every cluster that a forced action holds goes to PF. -/
def applyForce (s : State) : State :=
  (List.range 64).foldl (fun s c => if forcedPf s c && domainOn s c then toPf c s else s) s

/-- A cluster starts a change of step toward what R609 asks for (R595, R596): a rise by one step in a control window, and not in a stretch,
the voltage first; a fall at once to its step, the frequency first, its voltage held while a stretch is in force (R599). -/
def execVfTransition (c : Fin 64) (s : State) : Out :=
  .next (
    let x := getClu s c
    let cur := curStep s c
    let want := vfTarget s c
    let stretch := getB s (vfBlk c) 30
    if x.move.isSome ∨ want = cur ∨ !domainOn s c then s
    else if cur < want then
      let back := setMvOf s c
      let held := stretch && !forcedPf s c
      let s := changeM c want s
      let s := if held then s else setVolt c (setPoint s c want) s
      setB (vfBlk c) 31 true (modClu c (fun x => { x with move := some { step := want, rise := false, held := held, back := back } }) s)
    else if x.raised ∨ stretch then s
    else
      let back := setMvOf s c
      let s := setVolt c (setPoint s c (cur - 1)) s
      setB (vfBlk c) 31 true
        (modClu c (fun x => { x with raised := true, move := some { step := cur - 1, rise := true, back := back } }) s))

/-- A converter reports its output settled: a cluster's transition completes (Table 14.3). -/
def execVoltageSettled (n : Fin 96) (mv : Nat) (s : State) : Out :=
  .next (if !domainOn s n then s
    else
      let s := setB (domReg n) 30 true (setF (domReg n) 0 10 mv s)
      if n.val < 64 then
        match (getClu s n).move with
        | none => s
        | some m =>
          if m.held then s
          else
            let s := if m.rise then changeM n m.step s else s
            let s := setB (vfBlk n) 31 false (modClu n (fun x => { x with move := none }) s)
            evalCeil n (addReg (vfBlk n + 0x18) 1 s)
      else s)

/-! ### Droop (R597 to R600) -/

/-- A crossing begins a stretch: a rise is aborted, a fall's voltage returns to the old step's and waits; not under a forced PF. -/
def execDroopCrossing (c : Fin 64) (s : State) : Out :=
  .next (if getB s (vfBlk c) 30 ∨ !domainOn s c then s
    else
      let s := markFree c (addReg (vfBlk c + 0x10) 1 (setB (vfBlk c) 30 true s))
      match (getClu s c).move with
      | none => s
      | some m =>
        if m.rise then
          let s := addReg (pwrBlk + 0x24) 1 (setVolt c m.back s)
          setB (vfBlk c) 31 false (modClu c (fun x => { x with move := none, raised := true }) s)
        else if forcedPf s c then s
        else setVolt c m.back (modClu c (fun x => { x with move := some { m with held := true } }) s))

/-- After 64 good edge positions the stretch ends; `positions` edge positions were suppressed. The rows that waited for the cluster are captured
(R341), and a held fall's voltage moves. -/
def execDroopRelease (c : Fin 64) (positions : Nat) (s : State) : Out :=
  .next (if !getB s (vfBlk c) 30 then s
    else
      let s := capturePort c (addReg (vfBlk c + 0x14) positions (setB (vfBlk c) 30 false s))
      match (getClu s c).move with
      | none => s
      | some m =>
        if m.held then setVolt c (setPoint s c m.step) (modClu c (fun x => { x with move := some { m with held := false } }) s) else s)

/-! ### Measurement (R601 to R604) -/

/-- Each 1 ms hub firmware reads up to eight regulators: a third failed read in a row loses one (R601, R602). -/
def execPmbusPoll (readings : List (Option (List Nat))) (s : State) : Out :=
  .next (if !firmwareActs s then s else ((readings.take 8).zip (List.range 8)).foldl (fun s (x, i) =>
    let r := kvGet (fun _ => ({} : Regulator)) s.sup.regs i
    let put := fun (r : Regulator) (s : State) => modSup (fun u => { u with regs := kvPut (fun _ => {}) u.regs i r }) s
    if !bit (paramIn (listsOf s) (0x10 + i) 0) 31 then s
    else
    match x with
    | some l => put { words := l } s
    | none =>
      let s1 := put { r with fails := min 3 (r.fails + 1), lost := r.lost || decide (2 ≤ r.fails) } s
      if r.fails = 2 ∧ !r.lost then report 0x404 (oHub 2 i) fnDevice 0 s1 else s1) s)

/-- Each 1 s hub firmware forms the gain from the two average powers, within 0.95 to 1.05 (R602); a lost regulator keeps the last. With no
converter power the quotient is free within the limits (log 33). -/
def execPmbusGain (pmbus converters : Nat) (s : State) : Out :=
  .next (if s.sup.regs.any (fun e => e.2.lost) || !firmwareActs s then s
    else
      let q := if converters = 0 then (Config.freeValue s.frees).toNat else 32768 * pmbus / converters
      let s := if converters = 0 then bumpFree s else s
      setF (pwrBlk + 0x1C) 0 16 (max 31130 (min 34406 q)) s)

/-- Each 1 s the input resistance of each quadrant of a converter is estimated (none: fewer than 100 samples), in 10 µΩ (R603, R604). A window that
overlaps a time without hub firmware is discarded (R655). -/
def execRinWindow (n : Fin 96) (estimates : List (Option Nat)) (s : State) : Out :=
  .next (if !firmwareActs s || decide (s.now < s.hub.readyAt + 1000000000) then s else
    let o := pwrBlk + 0x1400 + 4 * n
    let model := getF s o 14 14
    let es : List (Nat × Nat) := ((estimates.take 4).zip (List.range 4)).filterMap (fun (x, q) => x.map (fun e => (e, q)))
    match es with
    | [] => s
    | e :: l =>
      let top := l.foldl (fun (b x : Nat × Nat) => if b.1 < x.1 then x else b) e
      let s := setF o 0 14 (min top.1 0x3FFF) s
      let s := if 5 * model < 4 * top.1 then setF o 28 2 top.2 (setB o 31 true s) else s
      let s := if 2 * model < top.1 then setB o 30 true s else s
      es.foldl (fun s x => if 5 * model < 4 * x.1 then report 0x403 (oDomain n x.2) fnDevice x.1 s else s) s)

/-! ### The cap loop (R605 to R610) -/

/-- Powers of a window in mW: a domain's, and sums over domains. -/
def domPower (w : PowerWindow) (n : Nat) : Nat := nth 0 w.domains n
def domSum (w : PowerWindow) (lo n : Nat) : Nat := ((List.range n).map (fun (i : Nat) => domPower w (lo + i))).sum
def towerPower (w : PowerWindow) (t : Nat) : Nat := domSum w (4 * t) 4 + domPower w (64 + t)
/-- COMPUTE, MEMORY and LINK in force (R606). -/
def fractions (s : State) : Nat × Nat × Nat :=
  match systemPlan s with
  | some p => (p.compute, p.memory, p.link)
  | none =>
    let m := getF s (pwrBlk + 8) 16 11
    let l := getF s (pwrBlk + 8) 0 11
    (1024 - m - l, m, l)
/-- The fraction of a tower, in 1/1,024. -/
def towerFrac (s : State) (t : Nat) : Nat := getF s (pwrBlk + 0x40 + 4 * (t / 2)) (16 * (t % 2)) 11

/-- What memory or links draw above their share, in mW / 1,024. -/
def shareExcess (a : Int) (frac p : Nat) : Int := max 0 (1024 * (p : Int) - a * frac)
/-- bc of R607 in mW / 1,024. -/
def computeShare (s : State) (w : PowerWindow) : Int :=
  let a : Int := 1000 * (getF s (pwrBlk + 4) 0 12 : Int) - (domSum w 80 4 + w.aux : Nat)
  let (cf, mf, lf) := fractions s
  a * cf - shareExcess a mf (domSum w 84 8) - shareExcess a lf (domSum w 92 4)
/-- Do memory or links draw more than their shares in a window (R606)? -/
def sharesExceeded (s : State) (w : PowerWindow) : Bool :=
  let a : Int := 1000 * (getF s (pwrBlk + 4) 0 12 : Int) - (domSum w 80 4 + w.aux : Nat)
  let (_, mf, lf) := fractions s
  decide (0 < shareExcess a mf (domSum w 84 8)) || decide (0 < shareExcess a lf (domSum w 92 4))
/-- bt and e of a tower in mW / 1,048,576. -/
def towerShareOf (s : State) (w : PowerWindow) (t : Nat) : Int := computeShare s w * towerFrac s t
def towerOver (s : State) (w : PowerWindow) (t : Nat) : Int := (towerPower w t : Int) * 1048576 - towerShareOf s w t
/-- d of R607 before its limit; free where bt is 0 (log 33). -/
def bubbleDelta (s : State) (bt e : Int) : Int :=
  let d := if bt = 0 then sext 64 (Config.freeValue s.frees).toNat else Int.fdiv (128 * e + bt) (2 * bt)
  max (-4) (min 4 d)
/-- predict ≤ bt for a step of a cluster: its domain power scaled by m v². -/
def predicts (s : State) (w : PowerWindow) (t c i : Nat) : Bool :=
  let v := setPoint s c (curStep s c)
  let v' := setPoint s c i
  let now : Nat := curM s c * v * v
  let new : Nat := stepM i * v' * v'
  decide (((towerPower w t - domPower w c) * now + domPower w c * new : Nat) * (1048576 : Int) ≤ towerShareOf s w t * (now : Nat))

/-- The loop body of one cluster. -/
def clusterLoop (w : PowerWindow) (t c : Nat) (e : Int) (s : State) : State :=
  let b := (getTow s t).b
  let bub := min b (ceilNow s c)
  let s := setF (vfBlk c) 0 6 bub s
  let x := getClu s c
  if decide (0 < e) && decide (bub = ceilNow s c) && decide (x.capStep < lowestStep s c) then
    modClu c (fun x => { x with capStep := x.capStep + 1 }) s
  else if decide (5 ≤ (getTow s t).zero) && decide (0 < x.capStep) && predicts s w t c (x.capStep - 1) then
    modClu c (fun x => { x with capStep := x.capStep - 1 }) s
  else s

/-- Is every cluster of a tower with a running lap at its floor step and at ceil (R610)? -/
def towerAtFloor (s : State) (t : Nat) : Bool :=
  (List.range 4).all (fun j =>
    let c := 4 * t + j
    !((jobOf s c).any (fun x => x.running)) || (decide (lowestStep s c ≤ curStep s c) && decide (getF s (vfBlk c) 0 6 = ceilNow s c)))

/-- Entry to and end of cap forcing (R610). -/
def capForcing (t : Nat) (e : Int) (s : State) : State :=
  let x := getTow s t
  let hot := decide (0 < e)
  let s := modTow t (fun x => { x with above := if hot && towerAtFloor s t then x.above + 1 else 0, below := if hot then 0 else x.below + 1 }) s
  if x.forcing then (if 100 ≤ (getTow s t).below then modTow t (fun x => { x with forcing := false, above := 0 }) s else s)
  else if 100 ≤ (getTow s t).above then
    report 0x402 oDevice fnDevice t (addReg (pwrBlk + 0x20) 1 (modTow t (fun x => { x with forcing := true, below := 0 }) s))
  else s

/-- PWR_TOWERt (Table 14.10). -/
def showTower (w : PowerWindow) (t : Nat) (s : State) : State :=
  let cs := (List.range 4).map (fun j => 4 * t + j)
  let least := cs.foldl (fun m c => min m (ceilNow s c)) 56
  let slow := cs.foldl (fun m c => max m (getClu s c).capStep) 0
  setReg (pwrBlk + 0x80 + 4 * t) (BitVec.ofNat 32 (2 ^ 20 * min 4095 (towerPower w t / 1000) + 2 ^ 14 * (getTow s t).b + 2 ^ 8 * least +
    2 ^ 7 * b2n (getTow s t).forcing + slow)) s

/-- One tower in a control window. -/
def towerLoop (w : PowerWindow) (t : Nat) (s : State) : State :=
  let bt := towerShareOf s w t
  let e := towerOver s w t
  let d := bubbleDelta s bt e
  let s := if bt = 0 then bumpFree s else s
  let b : Int := max 0 (min 56 (((getTow s t).b : Int) + d))
  let s := modTow t (fun x => { x with b := b.toNat, zero := if b = 0 then x.zero + 1 else 0 }) s
  let s := (List.range 4).foldl (fun s j => clusterLoop w t (4 * t + j) e s) s
  showTower w t (capForcing t e s)

/-- P_pkg of a window in mW (R593). -/
def packagePower (s : State) (w : PowerWindow) : Nat := domSum w 0 96 * getF s (pwrBlk + 0x1C) 0 16 / 32768 + w.aux

/-- What the converters measured (Table 14.10). -/
def showDomains (w : PowerWindow) (s : State) : State :=
  (List.range 96).foldl (fun s n =>
    setReg (pwrBlk + 0x1200 + 4 * n) (BitVec.ofNat 32 (nth 0 w.iin n % 65536 * 65536 + nth 0 w.iout n % 65536))
      (setF (domReg n) 0 10 (nth 0 w.volts n) s)) s

/-- PWR_PKG over each aligned 1 ms. -/
def showPackage (w : PowerWindow) (s : State) : State :=
  let l := s.sup.windows ++ [packagePower s w]
  if l.length < 100 then modSup (fun u => { u with windows := l }) s
  else
    let top := l.foldl max 0
    setReg (pwrBlk + 0x10) (BitVec.ofNat 32 (65536 * min 65535 (top / 1000) + min 65535 (l.sum / l.length / 1000)))
      (modSup (fun u => { u with windows := [] }) s)

/-- The bubble cycles and held cycles of a window count for a cluster (R743), and show as FREE in the trace of its lap. -/
def countHeld (w : PowerWindow) (c : Nat) (s : State) : State :=
  let b := nth 0 w.bubbles c
  let h := nth 0 w.held c
  let s := addReg (cluBlk c + 0x8022C) h (addReg (cluBlk c + 0x80228) b s)
  if b + h = 0 then s else markFree c s

/-- Every 10 µs (R607): the loops of every tower, with the averages of the window before. -/
def execControlWindow (w : PowerWindow) (s : State) : Out :=
  .next (
    let s := (List.range 64).foldl (fun s c => modClu c (fun x => { x with raised := false }) s) s
    let s := (List.range 64).foldl (fun s c => countHeld w c s) (showPackage w (showDomains w s))
    let s := if sharesExceeded s w then addReg (pwrBlk + 0x2C) 1 s else s
    let s := setReg (pwrBlk + 0x14) (BitVec.ofNat 32 (65536 * min 65535 (domSum w 84 8 / 1000) + min 65535 (domSum w 92 4 / 1000))) s
    let s := setF (pwrBlk + 0x18) 0 16 (min 65535 ((domSum w 80 4 + w.aux) / 1000)) s
    let s := (List.range 16).foldl (fun s t => towerLoop w t s) s
    setB pwrBlk 29 ((List.range 16).any (fun t => (getTow s t).forcing)) s)

/-- POWER_CAP_SET stages a cap (R605). -/
def execPowerCapSet (h : CmdHdr) (target watts : Nat) (s : State) : Out :=
  runOp h 0x70 [target, watts] (fun s =>
    if watts < 1200 ∨ 3000 < watts then fail h 0x70 stBadParam s
    else modHub (fun x => { x with staged := x.staged ++ [{ what := .powerCap watts, target := target, hdr := h }] }) (startCmd { h := h, op := 0x70, raw := [] } s)) s

/-- POWER_PLAN_SET (R606): the plan of a loaded schedule. -/
def execPowerPlanSet (h : CmdHdr) (sched compute memory link floorStep : Nat) (s : State) : Out :=
  runOp h 0x71 [sched, compute, memory, link, floorStep] (fun s =>
    if (findSched s h.fn sched).isNone then fail h 0x71 stNoJob s
    else if compute + memory + link ≠ 1024 ∨ (16 < floorStep ∧ floorStep ≠ 0xFF) then fail h 0x71 stBadParam s
    else
      let p : Plan := { compute := compute, memory := memory, link := link, floorStep := floorStep }
      fail h 0x71 stOk (modSched h.fn sched (fun x => { x with plan := some p }) s)) s

/-! ### VR_ALERT_N (R612) -/

/-- A filtered level of a VR_ALERT_N input at a time: an assertion is counted and recorded and forces every cluster to PF. -/
def execVrAlert (input : Fin 4) (asserted : Bool) (t : Nat) (s : State) : Out :=
  .next (
    let s := { s with now := max s.now t }
    let was := getB s pwrBlk (20 + input)
    let s := setB pwrBlk (20 + input) asserted s
    if asserted then
      let s := modSup (fun u => { u with alertEnd := none }) (setB pwrBlk 31 true s)
      let s := if was then s
        else modHub (fun h => { h with vrAlerts := h.vrAlerts + 1 }) (report 0x401 (oHub 2 input) fnDevice 0 (addReg (pwrBlk + 0x28) 1 s))
      applyForce s
    else if was ∧ getF s pwrBlk 20 4 = 0 then modSup (fun u => { u with alertEnd := some s.now }) s
    else s)

/-- 1 ms after the last input deasserts the forced PF ends. -/
def execVrAlertRelease (t : Nat) (s : State) : Out :=
  .next (
    let s := { s with now := max s.now t }
    match s.sup.alertEnd with
    | none => s
    | some e =>
      if e + 1000000 ≤ s.now ∧ getF s pwrBlk 20 4 = 0 then setB pwrBlk 31 false (modSup (fun u => { u with alertEnd := none }) s) else s)

/-! ### Temperatures (R614 to R621) -/

def modSensor (n : Nat) (g : Sensor → Sensor) (s : State) : State :=
  modSup (fun u => { u with sensors := kvMod (fun _ => {}) u.sensors n g }) s
def getSensor (s : State) (n : Nat) : Sensor := kvGet (fun _ => {}) s.sup.sensors n

/-- The ring of a sensor as its first number and length, or as the numbers themselves (Table 14.6). -/
def sensorRing (n : Nat) : List Nat :=
  let run := fun (lo k : Nat) => (List.range k).map (fun i => lo + i)
  if n < 256 then run (n / 4 * 4) 4
  else if n < 384 then run (n / 8 * 8) 8
  else if n < 416 then run (n / 16 * 16) 16
  else if n < 420 then run 416 4
  else if [420, 421, 424, 425].contains n then [420, 421, 424, 425] else [422, 423, 426, 427]
/-- The sensors before and after a sensor in its ring. -/
def sensorNeighbours (n : Nat) : Nat × Nat :=
  let r := sensorRing n
  let i := r.idxOf n
  (nth n r ((i + r.length - 1) % r.length), nth n r ((i + 1) % r.length))

/-- Does a sample fail the checks of R618? DEDUCED (log 32): a neighbour counts once it has converted, for until then it has no reading. -/
def badSample (s : State) (n : Nat) (reading : Int) (toggle : Bool) : Bool :=
  let (a, b) := sensorNeighbours n
  let far := fun (m : Nat) => decide (240 < (reading - sensorTemp s m).natAbs)
  decide (reading < -320 ∨ 2240 < reading) || (toggle == getB s (sensorReg n) 26) ||
    (!sensorBroken s a && !sensorBroken s b && (getSensor s a).seen && (getSensor s b).seen && far a && far b)

/-- Runs of samples at a threshold and at its release: the new runs and state (R617). -/
def threshold (on hit clear : Bool) (up down : Nat) : Nat × Nat × Bool :=
  if on then
    let d := if clear then down + 1 else 0
    if 3 ≤ d then (0, 0, false) else (0, d, true)
  else
    let u := if hit then up + 1 else 0
    if 3 ≤ u then (0, 0, true) else (u, 0, false)

/-- The cluster numbers of a sensor's owner (Table 14.6). -/
def sensorClusters (n : Nat) : List Nat :=
  if n < 256 then [n / 4]
  else if n < 384 then [4 * ((n - 256) / 8) + (n - 256) % 8 / 2]
  else if n < 416 then
    let t := 8 * ((n - 384) / 16) + (n - 384) % 16 / 2
    [4 * t, 4 * t + 1, 4 * t + 2, 4 * t + 3]
  else []

/-- A sample moves the limit of its sensor's owner by one (R620): slower while the sensor's throttle is asserted, faster once none of the
owner's is. -/
def moveLimit (n : Nat) (hot : Bool) (s : State) : State :=
  let s := (sensorClusters n).foldl (fun s c =>
    let l := getF s (vfBlk c) 14 5
    if hot then setF (vfBlk c) 14 5 (min 16 (l + 1)) s
    else if (sensorsOf c).any (fun m => !sensorBroken s m && getB s (sensorReg m) 29) then s
    else setF (vfBlk c) 14 5 (l - 1) s) s
  if 420 ≤ n then
    modSup (fun u => { u with levels := kvMod (fun _ => 0) u.levels (n - 420) (fun l => if hot then min 4 (l + 1) else l - 1) }) s
  else s

/-- THM_STATUS.CRITICAL and THROTTLING. -/
def showThermal (s : State) : State :=
  let crit := (validSensors s).any (fun n => getB s (sensorReg n) 28)
  setB (pwrBlk + 0x2000) 31 crit (setB (pwrBlk + 0x2000) 30 ((List.range 428).any (fun n => getB s (sensorReg n) 29)) s)

/-- A sensor breaks (R618, R619): a record; a tower whose 24 sensors are broken is lost, and so is the device's service with its four hub
sensors. -/
def breakSensor (n : Nat) (s : State) : State :=
  let s := setB (sensorReg n) 31 true s
  let s := report 0x405 (oSensor n) fnDevice (getF s (sensorReg n) 0 16) s
  let t := if n < 256 then n / 16 else if n < 384 then (n - 256) / 8 else 16
  let all := t < 16 ∧ (List.range 16).all (fun j => sensorBroken s (16 * t + j)) ∧ (List.range 8).all (fun j => sensorBroken s (256 + 8 * t + j))
  let s := if all then
    towerLost t ([64 + t, 4 * t, 4 * t + 1, 4 * t + 2, 4 * t + 3].foldl (fun s d => setB (domReg d) 31 false s) s) else s
  if (List.range 4).all (fun j => sensorBroken s (416 + j)) ∧ 416 ≤ n ∧ n < 420 then declareOut 5 s else s

/-- The sensor's register after a conversion (R615): the reading, the toggle, DONE and the 90 C flag. -/
def converted (n : Nat) (reading : Int) (toggle : Bool) (s : State) : State :=
  setF (sensorReg n) 0 16 (wrapInt 16 reading)
    (setB (sensorReg n) 26 toggle (setB (sensorReg n) 27 false (setB (sensorReg n) 30 (decide (1440 ≤ reading)) s)))

/-- The checks and the thresholds of a working sensor after its register is written (R615, R618, R619). -/
def sensorChecks (n : Fin 428) (reading : Int) (bad : Bool) (s : State) : State :=
  let r := sensorReg n
  let x := getSensor s n
  let h := threshold (getB s r 29) (decide (1520 ≤ reading)) (decide (reading ≤ 1472)) x.hot x.cool
  let c := threshold (getB s r 28) (decide (1680 ≤ reading)) (decide (reading ≤ 1632)) x.crit x.uncrit
  let hot := h.2.2
  let crit := c.2.2
  let newCrit := crit && !getB s r 28
  let nb := if bad then x.bad + 1 else 0
  let nc := if reading < 1280 then min 3 (x.cold + 1) else 0
  let s := modSensor n (fun x => { x with
    seen := true, hot := h.1, cool := h.2.1, crit := c.1, uncrit := c.2.1, bad := nb, cold := nc }) s
  let s := setB r 29 hot (setB r 28 crit s)
  let s := if newCrit then report 0x406 (oSensor n) fnDevice (wrapInt 16 reading) s else s
  let s := if 2 ≤ (getSensor s n).bad then breakSensor n s else moveLimit n hot s
  let s := showThermal s
  let s := if s.sup.tripHeld && (validSensors s).all (fun m => decide (3 ≤ (getSensor s m).cold)) then
    modSup (fun u => { u with tripHeld := false }) s else s
  applyForce s

/-- A sensor has converted (R615): its register, its checks and its thresholds. -/
def execSensorConversion (n : Fin 428) (reading : Int) (toggle : Bool) (s : State) : Out :=
  let t := converted n reading toggle s
  .next (if sensorBroken t n then t else sensorChecks n reading (badSample s n reading toggle) t)

/-- A write to THM_TRIGGER (R616). -/
def execThmTrigger (d : BitVec 32) (s : State) : Out :=
  .next (
    let n := fld d 0 9
    if 428 ≤ n then s
    else if getB s (sensorReg n) 27 then addReg (pwrBlk + 0x2008) 1 s
    else setB (sensorReg n) 27 true s)

/-! ### The trip (R622) -/

/-- The level that the device drives on READY (25) or VPKG_EN (24) of PIN_STATUS (Table 17.12). -/
def pinDrive (b : Nat) (level : Bool) (s : State) : State := setB 0x800 b level s

/-- Every converter is switched off. -/
def convertersOff (s : State) : State := (List.range 96).foldl (fun s n => setB (domReg n) 30 false (setB (domReg n) 31 false s)) s

/-- Every port goes down, as its link group has no supply. -/
def portsDown (s : State) : State :=
  (List.range 12).foldl (fun s p => setPortState p 0 (leaveService p (fun s => s) s)) s

/-- The thermal trip: converters off, THERMTRIP_N, the life record; ports down, the system job leaves and local jobs are aborted. -/
def trip (n : Nat) (s : State) : State :=
  let reading := getF s (sensorReg n) 0 16
  let s := pinDrive 25 false (pinDrive 24 false (convertersOff s))
  let t := rtcCount s
  let s := modSup (fun u => { u with trips := (u.trips.filter (fun x => decide (t < x + 86400000000000))) ++ [t], tripAt := s.now, tripSensor := n, tripReading := reading }) s
  let s := modHub (fun h => { h with tripped := true, trips := h.trips + 1 }) { s with pins := { s.pins with thermtrip := true } }
  let s := endJobs (fun _ => true) cutFlags true s
  let s := portsDown s
  if 3 ≤ trips24h s then declareOut 6 s else s

/-- Every 5 µs the trip comparators are sampled; `hot` names the sensors at or above 115 °C. -/
def execTripSample (hot : List Nat) (s : State) : Out :=
  .next (
    let valid := hot.filter (fun n => decide (n < 428) && !sensorBroken s n)
    let s := (List.range 428).foldl (fun s n =>
      if valid.contains n then modSensor n (fun x => { x with trip := min 3 (x.trip + 1) }) s
      else if (getSensor s n).trip = 0 then s else modSensor n (fun x => { x with trip := 0 }) s) s
    match (List.range 428).find? (fun n => decide (3 ≤ (getSensor s n).trip)) with
    | none => s
    | some n => if s.hub.tripped then s else trip n s)

/-! ### Cooling and cycles (R625 to R628) -/

/-- Each 1 s the coolant sensors that are present are read: a value, or a failed read (R625). -/
def execCoolantPoll (readings : List (Option Nat)) (s : State) : Out :=
  .next (if !firmwareActs s then s else ((readings.take 4).zip (List.range 4)).foldl (fun s (x, k) =>
    let o := pwrBlk + 0x2020 + 4 * k
    let fails := fun (n : Nat) (s : State) => modSup (fun u => { u with coolFails := kvPut (fun _ => 0) u.coolFails k n }) s
    if !getB s o 31 then s
    else
    match x with
    | some v => fails 0 (setB o 30 true (setF o 0 16 v s))
    | none =>
      let n := kvGet (fun _ => 0) s.sup.coolFails k + 1
      let s := fails (min 3 n) s
      if 3 ≤ n then setB o 30 false s else s) s)

/-- Is an inlet temperature sensor present? -/
def inletPresent (s : State) : Bool :=
  (List.range 4).any (fun k => getB s (pwrBlk + 0x2020 + 4 * k) 31 && decide (getF s (pwrBlk + 0x2020 + 4 * k) 28 2 = 0))

/-- The median of 100 hours: the mean of the two middle values (DESIGN CHOICE, log 50). -/
def median100 (l : List Nat) : Nat :=
  let m := l.mergeSort
  (nth 0 m 49 + nth 0 m 50) / 2

/-- The warning of R627 after a qualifying hour. -/
def coolingWarning (r : Nat) (s : State) : State :=
  let base := getF s (pwrBlk + 0x200C) 16 16
  if base = 0 then s
  else
    let s := modSup (fun u => { u with rthHigh := if 115 * base < 100 * r then u.rthHigh + 1 else 0, rthLow := if 100 * r < 110 * base then u.rthLow + 1 else 0 }) s
    let on := getB s (pwrBlk + 0x2000) 29
    if !on && decide (2 ≤ s.sup.rthHigh) then stateEvent 3 1 (report 0x408 (oHub 3 0) fnDevice r (setB (pwrBlk + 0x2000) 29 true s))
    else if on && decide (2 ≤ s.sup.rthLow) then stateEvent 3 0 (setB (pwrBlk + 0x2000) 29 false s)
    else s

/-- Each hour R_th is formed and compared with its baseline (R626, R627). -/
def execRthHour (x : RthHour) (s : State) : Out :=
  .next (if !inletPresent s then setB (pwrBlk + 0x2000) 28 false s
    else
      let s := setB (pwrBlk + 0x2000) 28 true s
      if !x.inletValid ∨ x.loadPermille < 800 ∨ x.mw = 0 then s
      else
        let r := (max 0 (min 65535 (1000 * (x.tj - x.tin) / (x.mw : Int)))).toNat
        let s := setF (pwrBlk + 0x200C) 0 16 r s
        let s := if s.sup.rthHours.length < 100 then
            let s := modSup (fun u => { u with rthHours := u.rthHours ++ [r] }) s
            if s.sup.rthHours.length = 100 then setF (pwrBlk + 0x200C) 16 16 (median100 s.sup.rthHours) s else s
          else s
        coolingWarning r s)

/-- A write of 1 starts a new baseline (R626). -/
def execThmRthReset (d : BitVec 32) (s : State) : Out :=
  .next (if d = 1#32 then setF (pwrBlk + 0x200C) 16 16 0 (modSup (fun u => { u with rthHours := [], rthHigh := 0, rthLow := 0 }) s) else s)

/-- The bin of a half-cycle's amplitude in 1/16 °C (Table 14.9). -/
def cycleBin (a : Int) : Nat := if a < 160 then 0 else if a < 320 then 1 else if a < 640 then 2 else if a < 960 then 3 else if a < 1280 then 4 else 5

/-- Each second a tower's hottest reading turns its half-cycle counter (R628). -/
def execThermalCycleSecond (t : Fin 16) (x : Int) (s : State) : Out :=
  .next (
    let w := getTow s t
    let count := fun (a : Int) (s : State) => modHub (fun h => { h with cycles := kvMod (fun _ => 0) h.cycles (t * 6 + cycleBin a) (fun n => n + 1) }) s
    if w.up then
      if w.peak < x then modTow t (fun w => { w with peak := x }) s
      else if 80 ≤ w.peak - x then count (w.peak - w.valley) (modTow t (fun w => { w with valley := x, up := false }) s)
      else s
    else if x < w.valley then modTow t (fun w => { w with valley := x }) s
    else if 80 ≤ x - w.valley then count (w.peak - w.valley) (modTow t (fun w => { w with peak := x, up := true }) s)
    else s)

/-! ### PARK and UNPARK (R629, R630) -/

/-- PARK: cluster domains off, banks that are ON or on their way to it in RETENTION. -/
def execPark (h : CmdHdr) (s : State) : Out :=
  runOp h 0x72 [] (fun s =>
    if !s.scheds.isEmpty then fail h 0x72 stJobActive s
    else if isParked s then fail h 0x72 stOk s
    else
      let s := (List.range 64).foldl (fun s c => clusterOff c s) s
      let s := (List.range 16).foldl (fun s t =>
        let l := (getTower s t).power.filter (fun e => kvGet (fun _ => 0) (getTower s t).target e.1 ≠ 1)
        let s := modSup (fun u => { u with parkedBanks := kvInsert u.parkedBanks t l }) s
        (List.range 1536).foldl (fun s b => if bankOn s t b || decide (kvGet (fun _ => 0) (getTower s t).target b = 1) then bankPower t b 1 s else s) s) s
      fail h 0x72 stOk (stateEvent 2 2 (setB pwrBlk 30 true s))) s

/-- UNPARK: clusters on at PF, banks as before PARK. -/
def execUnpark (h : CmdHdr) (s : State) : Out :=
  runOp h 0x73 [] (fun s =>
    if !isParked s then fail h 0x73 stOk s
    else
      let s := (List.range 64).foldl (fun s c => if retired s c || fenced s c then s else clusterOn c s) s
      let s := (List.range 16).foldl (fun s t =>
        let l := ((s.sup.parkedBanks.find? (fun e => e.1 = t)).map (fun e => e.2)).getD []
        modTower t (fun x => { x with power := l }) s) s
      let s := modSup (fun u => { u with parkedBanks := [] }) s
      fail h 0x73 stOk (stateEvent 2 0 (setB pwrBlk 30 false s))) s

end Sys2Proof.Machine
end

