-- ==== Sys2Proof/Machine/Hub.lean ====
section
/-!
DEFINITION. Hub firmware (15.5, 16.5), out of service (R648), and units out of service (15.4).
-/
namespace Sys2Proof.Machine

/-! ### Firmware images (R688, R689) -/

/-- What a firmware image holds (Table 16.8). -/
def fwSlotOf (l : List Byte) : FwSlot :=
  { valid := true, major := field l 4 2, minor := field l 6 2, build := field l 8 4, svn := field l 12 4, image := l }

/-- Does an image verify: magic, reserved bytes, key slot, signature and security version? -/
def fwVerifies (s : State) (l : List Byte) : Bool :=
  let n := 64 + field l 16 4
  decide (l.length ≤ 2 ^ 24 ∧ n + 96 ≤ l.length) && decide (l.take 4 = [0x4E#8, 0x5A#8, 0x46#8, 0x57#8]) &&
    zeroBytes ((l.drop 21).take 43) && decide (field l 16 4 % 64 = 0) && decide (field l 20 1 ≤ 1) && !bit s.sec.revoked (field l 20 1) &&
    decide (s.sec.fusedSvn ≤ field l 12 4) && ecdsaVerify (Config.signingKey (field l 20 1)) (l.take n) ((l.drop n).take 96)

/-- A slot of the store: 0 A, 1 B. -/
def slotOf (s : State) (k : Nat) : FwSlot := if k = 0 then s.hub.slotA else s.hub.slotB
def setSlot (k : Nat) (x : FwSlot) (s : State) : State := modHub (fun h => if k = 0 then { h with slotA := x } else { h with slotB := x }) s
/-- Does a slot hold an image that the boot ROM starts? -/
def bootable (s : State) (k : Nat) : Bool := (slotOf s k).valid && decide (s.sec.fusedSvn ≤ (slotOf s k).svn)

/-- A_VALID, B_VALID, ACTIVE_SLOT and the versions of FW_ACTIVE and FW_STAGED, and SEC_SVN. -/
def showFw (s : State) : State :=
  let put := fun (o : Nat) (x : FwSlot) (s : State) =>
    setReg (o + 4) (BitVec.ofNat 32 x.build) (setReg o (BitVec.ofNat 32 (65536 * x.minor + x.major)) s)
  let a := slotOf s s.hub.active
  let s := put 0x70C a s
  let s := if getB s 0x708 28 then put 0x714 (slotOf s (1 - s.hub.active)) s else setReg 0x714 0#32 (setReg 0x718 0#32 s)
  let s := setReg (secBlk + 0x34) (BitVec.ofNat 32 (s.sec.fusedSvn % 65536 * 65536 + a.svn % 65536)) s
  setB 0x708 31 (decide (s.hub.active = 1)) (setB 0x708 30 s.hub.slotA.valid (setB 0x708 29 s.hub.slotB.valid s))

/-- R691: the fused minimum rises to the lower security version of two verified slots above it. -/
def raiseSvn (s : State) : State :=
  let a := s.hub.slotA
  let b := s.hub.slotB
  let m := min a.svn b.svn
  if a.valid && b.valid && decide (s.sec.fusedSvn < m) then showFw (modSec (fun x => { x with fusedSvn := m }) s) else s

/-- FW_STAGE (R653): an image into the slot that is not active; a failure leaves the slot invalid. -/
def execFwStage (h : CmdHdr) (src len : Nat) (s : State) : Out :=
  runOp h 0x84 [src, len] (fun s =>
    let k := 1 - s.hub.active
    let r := readT (fwAcc h.fn) src len false s
    if !r.ok then fail h 0x84 stBusError r.s
    else
      let l := tBytes r.data
      let s := bumpFree r.s
      if fwVerifies s l then
        let s := noteFw k 0 (setB 0x708 28 true (setSlot k (fwSlotOf l) s))
        fail h 0x84 stOk (raiseSvn (showFw s))
      else fail h 0x84 stBadImage (showFw (setB 0x708 28 false (setSlot k FwSlot.none s)))) s

/-- FW_SWITCH (R653, R654): staged for its target. -/
def execFwSwitch (h : CmdHdr) (target : Nat) (s : State) : Out :=
  runOp h 0x85 [target] (fun s =>
    if !getB s 0x708 28 then fail h 0x85 stBadState s
    else if getB s 0x708 27 then fail h 0x85 stBusy s
    else setB 0x708 27 true (stageChange h target .fwSwitch s)) s

/-- Step 3 of Table 15.7 at S, the start line of pace n: the hub controller resets into the boot ROM with the staged slot active. -/
def beginSwitch (n : Nat) (x : Staged) (s : State) : State :=
  let s := setB 0x708 25 false (setB 0x708 26 false (setB 0x708 27 false s))
  let s := modHub (fun h => { h with staged := unstage x h.staged, running := false, previous := h.active, booting := some (1 - h.active),
                                     active := 1 - h.active, switchBy := some x.hdr, switchAt := n }) s
  let s := showFw s
  modHub (fun h => { h with summary := lifeSummary s }) s

/-- Hub firmware acts on an event that it has held (R655). -/
def actHeld (e : HeldEvent) (s : State) : State :=
  match e with
  | .page m p => pageSecond m p s
  | .row t b r => replaceRow t b r s
  | .cluster c source => retireCluster c source s

/-- Hub firmware acts on the events held while it did not run, oldest first (R655). -/
def actOnHeld (s : State) : State :=
  s.hub.held.foldl (fun s e => actHeld e s) (modHub (fun h => { h with held := [], readyAt := s.now }) s)

/-- Hub firmware runs again: FW_READY, the watchdog counts from now, and what was held is done. -/
def fwRuns (s : State) : State :=
  actOnHeld (setB 0x704 31 true (setB 0x708 25 true (modHub (fun h => { h with running := true, booting := none, lastKick := s.now }) s)))

/-- After a watchdog boot the restarted firmware ends every job (R650). -/
def endAllJobs (s : State) : State := endJobs (fun _ => true) cutFlags true s

/-- FW_READY: the new image of a switch resumes from the handover record and replies (Table 15.7); after a watchdog expiry the restarted
image ends every job. -/
def execFwReady (s : State) : Out :=
  .next (match s.hub.booting, s.hub.switchBy with
    | none, _ => s
    | some k, some h =>
      let s := modHub (fun x => { x with switchBy := none, switches := x.switches + 1 }) (setB 0x708 28 false (fwRuns s))
      let s := noteFw k 1 (report 0x502 (oHub 0 0) fnDevice (slotOf s k).build s)
      finish h 0x85 stOk 0 s.hub.switchAt 0 (raiseSvn (showFw s))
    | some k, none => endAllJobs (noteFw k 3 (showFw (fwRuns s))))

/-- The previous image is started again after a switch that failed (R656): the staged slot is invalid, FW_REVERT is recorded, and
FW_SWITCH completes with FW_ERROR. -/
def revertSwitch (s : State) : State :=
  match s.hub.booting, s.hub.switchBy with
  | some k, some h =>
    let bad := (slotOf s k).build
    let s := setSlot k FwSlot.none (modHub (fun x => { x with active := x.previous, switchBy := none }) s)
    let s := showFw (setB 0x708 28 false (fwRuns s))
    let s := noteFw s.hub.active 2 (report 0x503 (oHub 0 0) fnDevice bad s)
    fail h 0x85 stFwError s
  | _, _ => s

/-- The boot ROM's verification of the staged image fails at step 4. -/
def execVerificationFail (s : State) : Out := .next (revertSwitch s)
/-- FW_READY is not set by S + 1 s. -/
def execFwSwitchTimeout (s : State) : Out := .next (revertSwitch s)

/-! ### The watchdog (R649 to R652) -/

/-- HUB_WDT_KICK. -/
def execHubWdtKick (d : BitVec 32) (t : Nat) (s : State) : Out :=
  .next (
    let s := { s with now := max s.now t }
    if d = 0x5A5A#32 then modHub (fun h => { h with lastKick := s.now }) s else s)

/-- The watchdog expires at a time 10 ms or more after the last kick: the device leaves at the next tick, and the hub controller boots the
active image, or the other slot at the second expiry within 1 h; a third makes the device out of service. -/
def execWatchdog (t : Nat) (s : State) : Out :=
  .next (
    let s := { s with now := max s.now t }
    if !s.hub.running || s.hub.halted || decide (s.now < s.hub.lastKick + 10000000) then s
    else
      let now := rtcCount s
      let ex := s.hub.expiries.filter (fun x => decide (now < x + 3600000000000)) ++ [now]
      let s := setB 0x704 31 false (setB 0x708 25 false (setB 0x708 26 false s))
      let s := modHub (fun h => { h with running := false, expiries := ex, watchdogs := h.watchdogs + 1, leaveNext := true }) s
      let s := report 0x501 (oHub 0 0) fnDevice ex.length s
      let other := 1 - s.hub.active
      let turn := decide (2 ≤ ex.length) && (slotOf s other).valid
      let bad := (slotOf s s.hub.active).build
      let s := modHub (fun h => { h with booting := some (if turn then other else h.active), active := if turn then other else h.active }) s
      let s := if turn then showFw (noteFw other 2 (report 0x503 (oHub 0 0) fnDevice bad s)) else s
      if 3 ≤ ex.length then declareOut 7 s else s)

/-! ### Out of service (R648) -/

/-- OUT_OF_SERVICE: at the tick after a cause. -/
def execOutOfService (s : State) : Out :=
  .next (if !s.hub.outPending then s
    else
      let s := endAllJobs (modPace (fun p => { p with leave := true }) (modHub (fun h => { h with outPending := false }) s))
      let s := (List.range 64).foldl (fun s c => clusterOff c s) s
      let s := pinDrive 25 false (setB 0x200 29 false (setB 0x200 30 false (setB 0x200 31 true s)))
      stateEvent 2 1 (report 0x506 oDevice fnDevice s.hub.outCause s))

/-! ### Units (R645 to R647) -/

/-- UNIT: kind and index (Table 4.10). -/
def unitOf (u : Nat) : Option (Nat × Nat) :=
  let k := u / 256
  let i := u % 256
  if (k = 1 ∧ i < 64) ∨ (k = 2 ∧ i < 16) ∨ (k = 3 ∧ i < 12) ∨ (k = 4 ∧ i < 2) then some (k, i) else none

/-- The bit of a unit in DEV_OUT or DEV_OUT_UNITS. -/
def unitIsOut (s : State) (k i : Nat) : Bool :=
  if k = 1 then clusterOut s i else if k = 2 then towerOut s i else if k = 3 then portOut s i else cxlOut s i
def setUnitOut (k i : Nat) (b : Bool) (s : State) : State :=
  if k = 1 then setB (0x214 + 4 * (i / 32)) (i % 32) b s
  else if k = 2 then setB 0x21C i b s
  else if k = 3 then setB 0x21C (16 + i) b s
  else setB 0x21C (28 + i) b s
/-- Is a unit retired or lost? -/
def unitGone (s : State) (k i : Nat) : Bool := if k = 1 then retired s i else if k = 2 then getB s (twrBlk i) 30 else false

/-- Is a cluster neither a VI's nor mapped by a loaded job? -/
def clusterFree (s : State) (c : Nat) : Bool := !ownedByVi s c && !loadedMaps s c
/-- Does a unit meet the condition of Table 15.6? -/
def unitFree (s : State) (k i : Nat) : Bool :=
  if k = 1 then clusterFree s i
  else if k = 2 then (List.range 4).all (fun j => clusterFree s (4 * i + j)) && !(List.range 12).any (fun p => pieceTaken s 4 (12 * i + p))
  else if k = 3 then portSpare s i
  else !((extents s).any (fun x => x.kind = 2 + i))

/-- A unit goes out of service. -/
def takeOut (k i : Nat) (s : State) : State :=
  let s := setUnitOut k i true s
  if k = 2 then flushCache i (setB (twrBlk i) 31 false s)
  else if k = 3 then
    let s := setPortState i 0 (leaveService i (fun s => s) s)
    match (getPort s i).reply with
    | none => s
    | some (h, op) => fail h op stFwError (modPort i (fun x => { x with reply := none }) s)
  else if k = 4 then driveRefclk i false (setB (cxlBlk i) 31 false s)
  else s

def unitArgs (h : CmdHdr) (op target unit : Nat) (k : Nat → Nat → StagedKind) (s : State) : State :=
  match unitOf unit with
  | none => fail h op stBadParam s
  | some (a, i) => stageChange h target (k a i) s
def execUnitOut (h : CmdHdr) (target unit : Nat) (s : State) : Out := runOp h 0x80 [target, unit] (unitArgs h 0x80 target unit StagedKind.unitOut) s
def execUnitIn (h : CmdHdr) (target unit : Nat) (s : State) : Out := runOp h 0x81 [target, unit] (unitArgs h 0x81 target unit StagedKind.unitIn) s

/-- A unit command takes effect at the boundary of pace n (R645). -/
def takeUnit (n : Nat) (x : Staged) (s : State) : State :=
  let s := modHub (fun h => { h with staged := unstage x h.staged }) s
  match x.what with
  | .unitOut k i =>
    if unitIsOut s k i || unitGone s k i then fail x.hdr 0x80 stBadState s
    else if !unitFree s k i then fail x.hdr 0x80 stBusy s
    else finish x.hdr 0x80 stOk 0 n 0 (takeOut k i s)
  | .unitIn k i =>
    if !unitIsOut s k i || unitGone s k i || s.hub.testing.any (fun e => decide (e.1 = k ∧ e.2.1 = i)) then fail x.hdr 0x81 stBadState s
    else
      let s := modHub (fun h => { h with testing := h.testing ++ [(k, i, n, x.hdr)] }) s
      if k = 3 then modPort i (fun p => { p with returns := 0 }) (setUnitOut 3 i false s) else s
  | _ => s

def isUnit (k : StagedKind) : Bool := match k with
  | .unitOut .. => true
  | .unitIn .. => true
  | _ => false
/-- Units after item 4 of R92, in order of arrival. -/
def takeUnits (n : Nat) (s : State) : State :=
  (s.hub.staged.filter (fun x => dueAt n x && isUnit x.what)).foldl (fun s x => takeUnit n x s) s

/-! ### Tests of units (R31, R338, R647) -/

/-- The map of R31: logical cores take good physical cores in ascending order. -/
def mapCluster (c : Nat) (s : State) : State :=
  [0, 1].foldl (fun s kind =>
    ((goodCores s c kind).zip (List.range (logCount kind))).foldl (fun s (p, i) => setMap c kind i p s) s) s

/-- A bond column group fails (R338): the lane's spare group replaces it, and a second makes the tower lost. -/
def bondFails (t lane group source : Nat) (s : State) : State :=
  let o := twrBlk t + 0x10000 + 4 * lane
  let loc := 2 ^ 32 * t + 2 ^ 29 * lane + 2 ^ 24 * group
  if unitFailed s 2 loc then s
  else
    let s := softFuse 0x02 source loc s
    if getB s o 31 then towerLost t (setB o 30 true s) else setF o 0 5 group (setB o 31 true s)

/-- The passing window of a sweep: its first code and its width, the widest run of codes that pass. -/
def passWindow (mask : Nat) : Nat × Nat :=
  let r := (List.range 64).foldl (fun (x : (Nat × Nat) × Nat) i =>
    if mask.testBit i then
      let n := x.2 + 1
      (if x.1.2 < n then (i + 1 - n, n) else x.1, n)
    else (x.1, 0)) ((0, 0), 0)
  r.1

/-- The trim of a window: MARGIN is its width, CODE its centre, the lower of two; no code passes where the width is 0, and CODE is then free (log 36). -/
def trimWord (key : Nat) (w : Nat × Nat) : Nat :=
  256 * w.2 + (if w.2 = 0 then (Config.freeValue (2 ^ 40 + key)).toNat % 64 else w.1 + (w.2 - 1) / 2)

/-- A sweep of a tower's bond at every allowed m stores its trims (R337), and a group with a window narrower than 12 codes fails (R338). `sweep`
gives the codes that pass, by the trim's key, where not all 64 do. -/
def sweepTower (t source : Nat) (sweep : List (Nat × Nat)) (s : State) : State :=
  let l := (sweep.filter (fun e => decide (e.1 < 8192 ∧ e.1 % 32 < 17 ∧ (8 ≤ e.1 / 256 ∨ e.1 / 256 = 0)))).map (fun e => (e.1, passWindow e.2))
  let s := modTower t (fun x => { x with trims := l.foldl (fun m e => kvPut (fun _ => fullTrim) m e.1 (trimWord e.1 e.2)) [] }) s
  (l.filter (fun e => decide (e.2.2 < 12))).foldl (fun s e => bondFails t (e.1 / 32 % 8) (e.1 % 32) source s) s

/-- Does a sweep find a group that fails? -/
def sweepFails (sweep : List (Nat × Nat)) : Bool := sweep.any (fun e => decide ((passWindow e.2).2 < 12))

/-- The cores of a cluster that a test finds failing, by kind × 32 + physical number. -/
def failCores (c source : Nat) (l : List Nat) (s : State) : State :=
  l.foldl (fun s x => coreFailed c (x / 32) (x % 32) source s) s

/-- A cluster is tested (Table 15.6): its failing cores and the march of its buffer; after a failed test R31 maps it again (R35, R647). -/
def testCluster (c : Nat) (l : List Nat) (s : State) : State :=
  let s := failCores c 2 (l.filter (fun x => decide (x < 96 ∧ x % 32 < physCount (x / 32)))) s
  if retired s c then s
  else
    let s := zeroRange (bufferBase c) 0x1000000 s
    if l.isEmpty then s else mapCluster c s

/-- UNIT_TEST_DONE: a test ends. `failed` names failing cores of a cluster (kind × 32 + physical number) or, from 1,024, of a tower's clusters
(1,024 + cluster × 128 + kind × 32 + number), and `sweep` is what a tower's trim sweep finds. A port is done once it is IN_SERVICE or FAILED;
a CXL port fails when the list is not empty. -/
def execUnitTestDone (kind index : Nat) (failed : List Nat) (sweep : List (Nat × Nat)) (s : State) : Out :=
  .next (match s.hub.testing.find? (fun e => decide (e.1 = kind ∧ e.2.1 = index)) with
    | none => s
    | some e =>
      let st := portState s index
      if kind = 3 ∧ st ≠ 6 ∧ st ≠ 7 then s
      else
        let s := modHub (fun h => { h with testing := h.testing.filter (fun x => !decide (x.1 = kind ∧ x.2.1 = index)) }) s
        let s :=
          if kind = 1 then testCluster index failed s
          else if kind = 2 then
            let s := sweepTower index 2 sweep s
            let s := (List.range 4).foldl (fun s j => changeM (4 * index + j) (curStep s (4 * index + j)) s) s
            (List.range 4).foldl (fun s j =>
              testCluster (4 * index + j) ((failed.filter (fun x => decide (1024 + 128 * j ≤ x ∧ x < 1152 + 128 * j))).map (fun x => x - 1024 - 128 * j)) s) s
          else s
        let bad := if kind = 3 then decide (st = 7) else !failed.isEmpty || (decide (kind = 2) && sweepFails sweep)
        let org := if kind = 1 then oCluster index else if kind = 2 then oTower index 0 0 0 else if kind = 3 then oPort index 15 else oCxl index 0
        let s := if bad then report 0x505 org fnDevice failed.length s else s
        let s :=
          if kind = 3 then setUnitOut 3 index bad s
          else if kind = 4 then (if bad then s else driveRefclk index true (setB (cxlBlk index) 31 true (setUnitOut 4 index false s)))
          else
            let s := setUnitOut kind index false s
            if kind = 2 then setB (twrBlk index) 31 (!getB s (twrBlk index) 30) s else s
        if bad then fail e.2.2.2 0x81 stFwError s else finish e.2.2.2 0x81 stOk 0 e.2.2.1 0 s)

end Sys2Proof.Machine
end

