-- ==== Sys2Proof/Machine/Security.lean ====
section
/-!
DEFINITION. The security block and the management endpoints (16.6, 16.7): life-cycle tokens, the tamper input, SPDM, MCTP and PLDM. The
layouts of SPDM, MCTP and PLDM messages are those of the standards that R698 to R701 name (PRESUMED, log 20). What leaves is logged with its MCTP
message type: 0 control, 1 PLDM, 2 a PLDM event, 5 SPDM.
-/
namespace Sys2Proof.Machine

/-! ### Nonces and the state (R692 to R697) -/

/-- Eight words drawn from RGEN under the key of this boot: each draw is new. -/
def drawWord (s : State) (i : Nat) : Word := Config.nonceWord (2 ^ 32 * (rawReg s (secBlk + 0x38)).toNat + s.sec.draws) i
/-- SEC_NONCE takes a fresh value. -/
def freshNonce (s : State) : State :=
  let ws := (List.range 8).map (fun i => drawWord s i)
  modSec (fun x => { x with draws := x.draws + 1 })
    ((ws.zip (List.range 8)).foldl (fun s (x : Word × Nat) => setReg (secBlk + 0x10 + 4 * x.2) x.1 s) s)
/-- The nonce as bytes, SEC_NONCE0 first. -/
def nonceBytes (s : State) : List Byte := (List.range 8).flatMap (fun i => leBytes 4 (rawReg s (secBlk + 0x10 + 4 * i)).toNat)

/-- Entry to SUSPENDED (R697): LEAVE at the next tick, and every job ends. -/
def enterSuspended (s : State) : State := endJobs (fun _ => true) cutFlags true (modPace (fun p => { p with leave := true }) s)

/-- What a tamper event and a change of state do: the secure regions are wiped (R375), SPDM connections end, a debug token ends (R739), and AF
vector 101. -/
def securityEvent (s : State) : State :=
  signal 0 101 (modSec (fun x => { x with spdmState := 0, spdmVersion := 0, tokenScope := none }) (secureWipe s))

/-- A change of life-cycle state (R695). -/
def changeState (st : Nat) (s : State) : State :=
  let s := stateEvent 1 st (securityEvent (setF secBlk 0 2 st s))
  if st = 3 then enterSuspended s else s

/-! ### Tokens (R693, R694) -/

/-- The transitions of Table 16.10: is a new owner key possible, and does it have to be there? -/
def transition (a b : Nat) : Option (Bool × Bool) :=
  if a = 0 ∧ b = 1 then some (true, true)
  else if (a = 1 ∧ b = 2) ∨ (a = 2 ∧ b = 1) ∨ (a = 2 ∧ b = 3) ∨ (a = 3 ∧ b = 2) then some (false, false)
  else if a = 3 ∧ b = 1 then some (true, false)
  else none

/-- Are a token's fields right (Table 16.9)? A key is zero where its transition takes none. -/
def tokenFields (s : State) (l : List Byte) : Bool :=
  let key := !zeroBytes ((l.drop 48).take 96)
  decide (l.take 4 = [0x4E#8, 0x5A#8, 0x4C#8, 0x54#8] ∧ field l 4 2 = 1 ∧ field l 6 1 = lifeState s ∧ field l 8 8 = Config.serial.toNat ∧
    (l.drop 16).take 32 = nonceBytes s) && zeroBytes ((l.drop 144).take 80) &&
    match transition (field l 6 1) (field l 7 1) with
    | some (may, must) => (may || !key) && (!must || key)
    | none => true

/-- A token's signature: by the key that it brings in BLANK, else by the current owner. -/
def tokenSigned (s : State) (l : List Byte) : Bool :=
  let key := if lifeState s = 0 then some (beNat ((l.drop 48).take 48), beNat ((l.drop 96).take 48)) else ownerKey s
  match key with
  | none => false
  | some k => ecdsaVerify k (l.take 224) ((l.drop 224).take 96)

/-- Does a VI exist? -/
def viExists (s : State) : Bool := (List.range 64).any (fun i => getB s (viPage (i + 1)) 31)

/-- RESULT of a token: the first ground of R694 that applies, in its order. -/
def tokenResult (s : State) (l : List Byte) : Nat :=
  let goal := field l 7 1
  let key := !zeroBytes ((l.drop 48).take 96)
  if !tokenFields s l || !tokenSigned s l then 2
  else if (transition (lifeState s) goal).isNone || (key && decide (4 ≤ s.sec.owners.length)) ||
      (decide (lifeState s = 3 ∧ goal = 2) && getB s (secBlk + 0x30) 31) then 3
  else if !s.scheds.isEmpty || viExists s then 4
  else 1

/-- Fuse an owner key into the next of the four slots. -/
def addOwner (key : List Byte) (s : State) : State :=
  if s.sec.owners.length < 4 then setF secBlk 8 4 (s.sec.owners.length + 1) (modSec (fun x => { x with owners := x.owners ++ [key] }) s) else s

/-- SEC_LC_CTRL: the token at SEC_LC_TOKEN in the AF's device memory is accepted or refused. A token that cannot be read is bad. DESIGN CHOICE (log 30): the
check and its result are this one command, so BUSY never shows. -/
def execSecLcCtrl (d : BitVec 32) (s : State) : Out :=
  .next (if d ≠ 1#32 then s
    else
      let a := reg64 s (secBlk + 4)
      let acc : Acc := { fn := 0, org := oHub 0 0 }
      let r := readSpan s acc a 320
      let res := if a % 64 ≠ 0 ∨ r.ok = false then 2 else tokenResult s r.data
      let s := bumpFree (if r.ok then s else readError acc a s)
      let s := setF secBlk 28 3 res s
      let s := if res ≠ 1 then s
        else
          let key := (r.data.drop 48).take 96
          let s := if zeroBytes key then s else addOwner key s
          changeState (field r.data 7 1) s
      freshNonce s)

/-- TAMPER_N after its filter (R696). -/
def tamperLevel (asserted : Bool) (s : State) : State :=
  if !asserted then setB (secBlk + 0x30) 31 false s
  else if getB s (secBlk + 0x30) 31 then s
  else
    let s := setB (secBlk + 0x30) 31 true (setF (secBlk + 0x30) 0 16 (min 0xFFFF (getF s (secBlk + 0x30) 0 16 + 1)) s)
    if lifeState s = 2 then changeState 3 s else securityEvent s
def execTamper (asserted : Bool) (s : State) : Out := .next (tamperLevel asserted s)

/-! ### SPDM (R699, R700) -/

/-- An SPDM message leaves. -/
def sendSpdm (l : List Byte) (s : State) : State := emit (.management 5 l) s
/-- An ERROR response with its code. -/
def spdmError (ver code : Nat) (s : State) : State := sendSpdm (leBytes 1 ver ++ [0x7F#8] ++ leBytes 1 code ++ [0#8]) s
/-- The version byte that answers carry. -/
def spdmVer (s : State) : Nat := if s.sec.spdmVersion = 0 then 0x10 else s.sec.spdmVersion
/-- Bytes that the spec does not state: by draw. -/
def spdmFree (s : State) (n : Nat) : List Byte := (List.range n).map (fun i => Config.spdmByte s.frees i)

/-- A request whose code is its row's, in a version that was agreed, once the connection has come so far; else ERROR (UnexpectedRequest,
VersionMismatch). Other bytes are no request of the row. -/
def spdmAsk (code least : Nat) (body : List Byte) (act : State → State) (s : State) : Out :=
  .next (if body.length < 4 ∨ field body 1 1 ≠ code then s
    else if s.sec.spdmState < least then spdmError (spdmVer s) 0x04 s
    else if s.sec.spdmVersion ≠ 0 ∧ field body 0 1 ≠ s.sec.spdmVersion then spdmError (spdmVer s) 0x41 s
    else act s)

/-- GET_VERSION: versions 1.2 and 1.3; the connection starts again. -/
def execGetVersion (body : List (BitVec 8)) (s : State) : Out :=
  .next (if body.length < 4 ∨ field body 1 1 ≠ 0x84 then s
    else if field body 0 1 ≠ 0x10 then spdmError 0x10 0x41 s
    else sendSpdm [0x10#8, 0x04#8, 0#8, 0#8, 0#8, 2#8, 0#8, 0x12#8, 0#8, 0x13#8] (modSec (fun x => { x with spdmState := 1, spdmVersion := 0 }) s))

/-- GET_CAPABILITIES fixes the version: certificates, challenge, and measurements with signature. The timeout and the sizes are free. -/
def execGetCapabilities (body : List (BitVec 8)) (s : State) : Out :=
  spdmAsk 0xE1 1 body (fun s =>
    let v := field body 0 1
    if v ≠ 0x12 ∧ v ≠ 0x13 then spdmError (spdmVer s) 0x41 s
    else
      let s := modSec (fun x => { x with spdmState := 2, spdmVersion := v }) s
      bumpFree (sendSpdm (leBytes 1 v ++ [0x61#8, 0#8, 0#8, 0#8] ++ spdmFree s 1 ++ [0#8, 0#8, 0x16#8, 0#8, 0#8, 0#8] ++
        ((spdmFree s 9).drop 1)) s)) s

/-- NEGOTIATE_ALGORITHMS: ECDSA P-384, SHA-384, and SHA-384 measurement hashes, as far as the request names them. -/
def execNegotiateAlgorithms (body : List (BitVec 8)) (s : State) : Out :=
  spdmAsk 0xE3 2 body (fun s =>
    sendSpdm (leBytes 1 s.sec.spdmVersion ++ [0x63#8, 0#8, 0#8] ++ leBytes 2 36 ++ [1#8, 0#8] ++ leBytes 4 4 ++ leBytes 4 (field body 8 4 &&& 0x80) ++
      leBytes 4 (field body 12 4 &&& 2) ++ List.replicate 16 0#8) (modSec (fun x => { x with spdmState := 3 }) s)) s

/-- GET_DIGESTS: slot 0 alone has a chain. -/
def execGetDigests (body : List (BitVec 8)) (s : State) : Out :=
  spdmAsk 0x81 3 body (fun s => sendSpdm (leBytes 1 s.sec.spdmVersion ++ [0x01#8, 0#8, 1#8] ++ sha384 Config.certChain) s) s

/-- GET_CERTIFICATE: a part of slot 0's chain. -/
def execGetCertificate (body : List (BitVec 8)) (s : State) : Out :=
  spdmAsk 0x82 3 body (fun s =>
    if field body 2 1 % 16 ≠ 0 then spdmError s.sec.spdmVersion 0x01 s
    else
      let part := (Config.certChain.drop (field body 4 2)).take (field body 6 2)
      sendSpdm (leBytes 1 s.sec.spdmVersion ++ [0x02#8, 0#8, 0#8] ++ leBytes 2 part.length ++
        leBytes 2 (Config.certChain.length - field body 4 2 - part.length) ++ part) s) s

/-- A measurement block's value (R700), as a raw bit stream. -/
def measurement (s : State) (i : Nat) : List Byte :=
  let fw := fun (x : FwSlot) => leBytes 2 x.major ++ leBytes 2 x.minor ++ leBytes 4 x.build ++ sha384 x.image
  match i with
  | 1 => beBytes 48 Config.bootRomHash.toNat
  | 2 => fw (slotOf s s.hub.active)
  | 3 => if getB s 0x708 28 then fw (slotOf s (1 - s.hub.active)) else List.replicate 56 0#8
  | 4 => sha256 s.hub.base
  | 5 => s.hub.overlays.flatMap (fun (x : Nat × List Byte) => leBytes 1 x.1 ++ sha256 x.2)
  | 6 => leBytes 1 (lifeState s) ++ leBytes 1 s.sec.owners.length ++ leBytes 2 s.sec.fusedSvn
  | 7 => leBytes 8 (digestNow s)
  | _ => leBytes 4 (shapeStatus s).toNat ++ leBytes 2 s.hub.soft.length

/-- A measurement block in DMTF form. -/
def measBlock (s : State) (i : Nat) : List Byte :=
  let v := measurement s i
  leBytes 1 i ++ [1#8] ++ leBytes 2 (v.length + 3) ++ leBytes 1 (0x80 + (if i = 1 then 0 else if i ≤ 3 then 1 else 3)) ++ leBytes 2 v.length ++ v

/-- A fresh nonce of an answer, and the draw it takes. -/
def answerNonce (s : State) : List Byte × State :=
  ((List.range 8).flatMap (fun i => leBytes 4 (drawWord s i).toNat), modSec (fun x => { x with draws := x.draws + 1 }) s)

/-- CHALLENGE: signed by the device identity key, whose signature is a free value. -/
def execChallenge (body : List (BitVec 8)) (s : State) : Out :=
  spdmAsk 0x83 3 body (fun s =>
    if field body 2 1 ≠ 0 then spdmError s.sec.spdmVersion 0x01 s
    else
      let (nonce, s) := answerNonce s
      let want := field body 3 1
      let summary := if want = 0 then []
        else sha384 ((if want = 1 then [1] else [1, 2, 3, 4, 5, 6, 7, 8]).flatMap (fun i => measBlock s i))
      bumpFree (sendSpdm (leBytes 1 s.sec.spdmVersion ++ [0x03#8, 0#8, 1#8] ++ sha384 Config.certChain ++ nonce ++ summary ++ leBytes 2 0 ++
        (if s.sec.spdmVersion = 0x13 then (body.drop 36).take 8 else []) ++ spdmFree s 96) s)) s

/-- GET_MEASUREMENTS: index 0 asks for their number, 0xFF for all, 1 to 8 for one. -/
def execGetMeasurements (body : List (BitVec 8)) (s : State) : Out :=
  spdmAsk 0xE0 3 body (fun s =>
    let ix := field body 3 1
    let l := if ix = 0 then [] else if ix = 0xFF then (List.range 8).map (fun i => i + 1) else [ix]
    if 8 < ix ∧ ix ≠ 0xFF then spdmError s.sec.spdmVersion 0x01 s
    else
      let record := l.flatMap (fun i => measBlock s i)
      let sign := bit (field body 2 1) 0
      let (nonce, s) := answerNonce s
      let tail := if sign && decide (s.sec.spdmVersion = 0x13) then (body.drop 37).take 8 else []
      bumpFree (sendSpdm (leBytes 1 s.sec.spdmVersion ++ [0x60#8] ++ leBytes 1 (if ix = 0 then 8 else 0) ++ [0#8] ++ leBytes 1 l.length ++
        leBytes 3 record.length ++ record ++ nonce ++ leBytes 2 0 ++ tail ++ (if sign then spdmFree s 96 else [])) s)) s

/-! ### MCTP and PLDM (R698, R701, R702) -/

/-- An MCTP control request: endpoint ID set (0x01) and read (0x02), versions (0x04), message types (0x05); others are unsupported. -/
def execMctpControl (body : List (BitVec 8)) (s : State) : Out :=
  .next (if body.length < 2 then s
    else
      let cmd := field body 1 1
      let reply := fun (l : List Byte) (s : State) => emit (.management 0 (leBytes 1 (field body 0 1 % 32) ++ leBytes 1 cmd ++ l)) s
      if cmd = 1 then
        let e := field body 3 1
        if 8 ≤ e ∧ e < 0xFF then reply ([0#8, 0#8] ++ leBytes 1 e ++ [0#8]) (modSec (fun x => { x with eid := e }) s)
        else reply [0x02#8] s
      else if cmd = 2 then reply ([0#8] ++ leBytes 1 s.sec.eid ++ [0#8, 0#8]) s
      else if cmd = 4 then reply [0#8, 1#8, 0xF1#8, 0xF3#8, 0xF1#8, 0x00#8] s
      else if cmd = 5 then reply [0#8, 2#8, 0x01#8, 0x05#8] s
      else reply [0x05#8] s)

/-- SetEventReceiver: the receiver takes the queued events, oldest first. -/
def execSetEventReceiver (receiver : Nat) (s : State) : Out :=
  .next (
    let l := s.sec.events
    let s := modSec (fun x => { x with receiver := some receiver, events := [] }) s
    l.foldl (fun s p => emit (.management 2 p) s) s)

/-- The hottest valid sensor of a tower's, as its last reading; of none, free. -/
def towerHot (s : State) (t : Nat) : Option Int :=
  let l := ((List.range 16).map (fun j => 16 * t + j) ++ (List.range 8).map (fun j => 256 + 8 * t + j)).filter (fun n => !sensorBroken s n)
  match l.map (fun n => sensorTemp s n) with
  | [] => none
  | x :: r => some (r.foldl max x)

/-- A Type 2 sensor's reading. Numeric: 16 P_pkg in W, 17 the hottest valid sensor and 32 + t the hottest of tower t in 1/16 °C, 64 + k
coolant sensor k, 80 life used in 1/10,000. State: 1 life-cycle, 2 service (0 in service, 1 out of service, 2 parked), 3 cooling. -/
def pldmReading (s : State) (n : Nat) : Option Int :=
  if n = 1 then some (lifeState s)
  else if n = 2 then some (if getB s 0x200 31 then 1 else if getB s pwrBlk 30 then 2 else 0)
  else if n = 3 then some (getF s (pwrBlk + 0x2000) 29 1)
  else if n = 16 then some (getF s (pwrBlk + 0x10) 0 16)
  else if n = 17 then (if (validSensors s).isEmpty then none else some (sensorTemp s (hottest s)))
  else if 32 ≤ n ∧ n < 48 then towerHot s (n - 32)
  else if 64 ≤ n ∧ n < 68 then
    (if getB s (pwrBlk + 0x2020 + 4 * (n - 64)) 30 then some (getF s (pwrBlk + 0x2020 + 4 * (n - 64)) 0 16) else none)
  else if n = 80 then some (max s.hub.lifeT s.hub.lifeC)
  else none

/-- A read of a PLDM sensor: its number, whether it has a reading, and the reading. -/
def execPldmSensorRead (sensor : Nat) (s : State) : Out :=
  .next (emit (.management 1 (leBytes 2 sensor ++ (match pldmReading s sensor with
    | some v => [0#8] ++ leBytes 4 (wrapInt 32 v)
    | none => [1#8]))) s)

end Sys2Proof.Machine
end

