-- ==== Sys2Proof/Machine/Opcodes.lean ====
section
/-!
DEFINITION. COPY and FILL (4.6, 5.9), counter records (R744) and telemetry snapshots (18.6).
-/
namespace Sys2Proof.Machine

/-! ### COPY and FILL -/

/-- Blotted granules among delivered bytes. -/
def blottedGrans (l : List TByte) : Nat := ((pieces (ceilDiv l.length 64) 64 l).filter tBlot).length

/-- COPY: its reads and writes are engine streams of Scribe (R234). All of SRC is read before DST is written. A blotted granule delivered to
the host counts in BLOTS (R233), and its bytes there are free (R232). -/
def execCopy (h : CmdHdr) (src dst len host : Nat) (s : State) : Out :=
  runOp h 0x20 [src, dst, len, host] (fun s =>
    if len % 64 ≠ 0 then fail h 0x20 stBadParam s
    else
      let acc := hostAcc h.fn
      let r : ReadT := if bit host 0 then { data := (hostRead s src len).map (fun b => (b, false)), ok := true, s := s }
        else readT acc src len false s
      let s := bumpFree r.s
      if bit host 1 then
        let n := blottedGrans r.data
        finish h 0x20 (dataStatus r.ok n) n 0 0 (hostWrite true dst (tBytes r.data) s)
      else
        let w := writeT acc dst r.data false (Wrote.start s)
        finish h 0x20 (dataStatus (r.ok && w.ok) w.blots) w.blots 0 0 w.s) s

/-- FILL: 8 bytes repeated. -/
def execFill (h : CmdHdr) (dst len pattern : Nat) (s : State) : Out :=
  runOp h 0x21 [dst, len, pattern] (fun s =>
    if len % 64 ≠ 0 then fail h 0x21 stBadParam s
    else
      let w := writeSpan (hostAcc h.fn) dst ((List.replicate (len / 8) (leBytes 8 pattern)).flatten) false (Wrote.start s)
      finish h 0x21 (dataStatus w.ok w.blots) w.blots 0 0 w.s) s

/-! ### Counter records -/

/-- Registers as words. -/
def regWords (s : State) (l : List Nat) : List Byte := l.flatMap (fun o => leBytes 4 (readReg s o).toNat)
/-- The offsets of n registers from one. -/
def regRun (o n : Nat) : List Nat := (List.range n).map (fun i => o + 4 * i)

/-- The 384-byte record of a logical cluster on a physical one (R744). -/
def counterRecord (s : State) (logical c : Nat) : List Byte :=
  padTo 384 (leBytes 2 logical ++ leBytes 1 c ++ leBytes 1 0 ++ leBytes 4 (lapOf s c) ++ regWords s (regRun (cluBlk c + 0x80200) 14) ++
    regWords s (regRun (cluBlk c + 0x81000) 66))

/-- COUNTERS_READ, for a logical cluster of the function; NO_CLUSTERS where it owns none (Table 4.11, log 15). -/
def execCountersRead (h : CmdHdr) (dst cluster : Nat) (s : State) : Out :=
  runOp h 0x61 [dst, cluster] (fun s =>
    match (ownedClusters s h.fn)[cluster]? with
    | none => fail h 0x61 (if (ownedClusters s h.fn).isEmpty then stNoClusters else stBadParam) s
    | some c => replyData h 0x61 dst (counterRecord s cluster c) 0 s) s

/-! ### Telemetry snapshots (R749 to R751, R165) -/

/-- A section: SET, its BYTES, ENTRIES and data (R750). -/
def telemetrySection (set bytes entries : Nat) (data : List Byte) : List Byte :=
  padTo bytes (leBytes 1 set ++ leBytes 3 0 ++ leBytes 4 bytes ++ leBytes 4 entries ++ leBytes 4 0 ++ data)

/-- The section of a set for a function (Table 18.9). -/
def telemetrySet (s : State) (f set : Nat) : List Byte :=
  let p := pwrBlk
  match set with
  | 0 => telemetrySection 0 896 214 (regWords s ([p, p + 4, p + 0x10, p + 0x14, p + 0x18, p + 0x1C] ++ regRun (p + 0x80) 16 ++
      regRun (p + 0x1000) 96 ++ regRun (p + 0x1200) 96))
  | 1 => telemetrySection 1 1792 434 (regWords s ([p + 0x2000, p + 0x200C] ++ regRun (p + 0x2020) 4 ++ regRun (p + 0x3000) 428))
  | 2 => telemetrySection 2 64 12 (if f = 0 then regWords s (regRun 0x40C 12)
      else regWords s [viPage f, viPage f + 0x20, viPage f + 0x24] ++ List.replicate 36 0#8)
  | 3 => telemetrySection 3 832 192 (
      (List.range 8).flatMap (fun m => regWords s [mscBlk m, mscBlk m + 0x2000, mscBlk m + 0x2004, mscBlk m + 0x2008, mscBlk m + 0x200C,
        mscBlk m + 0x2010, mscBlk m + 0x2014, mscBlk m + 0x3100]) ++
      (List.range 16).flatMap (fun t => regWords s [twrBlk t, twrBlk t + 8, twrBlk t + 0x2000, twrBlk t + 0x2004, twrBlk t + 0x2008,
        twrBlk t + 0x2010, twrBlk t + 0x2014, twrBlk t + 0x2018]))
  | 4 => telemetrySection 4 640 143 (
      (List.range 12).flatMap (fun l => regWords s ([fjlBlk l, fjlBlk l + 8, fjlBlk l + 0xC, fjlBlk l + 0x10] ++ regRun (fjlBlk l + 0x14) 7)) ++
      regWords s [0x608, 0x60C, 0x610] ++
      (List.range 2).flatMap (fun q => regWords s [cxlBlk q, cxlBlk q + 0xC, cxlBlk q + 0x10, cxlBlk q + 0x14]))
  | 5 =>
    let cs := ownedClusters s f
    telemetrySection 5 (64 + 384 * cs.length) cs.length
      (List.replicate 48 0#8 ++ ((cs.zip (List.range cs.length)).flatMap (fun (x : Nat × Nat) => counterRecord s x.2 x.1)))
  | _ => telemetrySection 6 128 (b2n (hasPool s f)) (if hasPool s f then leBytes 64 (kvHead s f 0 64) else [])

/-- The snapshot of a function: header and sections (Table 18.8). -/
def snapshot (s : State) (f sets : Nat) : List Byte :=
  let body := ((List.range 7).filter (fun i => bit sets i)).flatMap (telemetrySet s f)
  padTo 64 ([0x4E#8, 0x5A#8, 0x54#8, 0x53#8] ++ leBytes 2 1 ++ leBytes 2 0 ++ leBytes 4 sets ++ leBytes 4 (64 + body.length) ++
    leBytes 6 (paceNumber s) ++ leBytes 1 f ++ leBytes 1 0 ++ leBytes 8 (utcNow s)) ++ body

/-- TELEMETRY_SNAPSHOT: the first of a function to arrive is the pending one. Every other waits for it and completes with it, COALESCED, with the
DST written (R165). -/
def execTelemetrySnapshot (h : CmdHdr) (dst sets : Nat) (s : State) : Out :=
  runOp h 0x60 [dst, sets] (fun s =>
    let f := h.fn.val
    if sets = 0 ∨ 128 ≤ sets ∨ dst % 64 ≠ 0 then fail h 0x60 stBadParam s
    else if f ≠ 0 ∧ sets &&& 0x1B ≠ 0 then fail h 0x60 stNotPermitted s
    else
      let ours := fun (c : Cmd) => decide (c.op = 0x60 ∧ c.h.fn.val = f)
      let mine := s.scribe.started.any (fun c => ours c && decide (c.h = h))
      if ((s.scribe.started.find? ours).map (fun c => decide (c.h ≠ h))).getD false then
        if mine then s else modScribe (fun x => { x with started := x.started ++ [{ h := h, op := 0x60, raw := [] }] }) s
      else
        let others := (dropCmd h s.scribe.started).filter ours
        let s := replyData h 0x60 dst (snapshot s f sets) dst s
        let s := others.foldl (fun s c => finish c.h 0x60 stCoalesced 0 dst 0 s) s
        if f = 0 then s else signal f 28 s) s

end Sys2Proof.Machine
end

