-- ==== Sys2Proof/Machine/Vi.lean ====
section
/-!
DEFINITION. VIs (4.2, 4.9, 16.8): VI_CREATE, VI_QUERY, and the reset of a function.
-/
namespace Sys2Proof.Machine

/-! ### VI_CREATE (R142, R417, R703 to R705, Table 4.3) -/

/-- VI_CREATE's payload (Table 4.3). -/
structure ViArgs where
  clusters : Nat
  plain : Nat
  far0 : Nat
  far1 : Nat
  kvMax : Nat
  scratch : List Nat
  pim : Nat
  hFirst : Nat
  hCount : Nat
  rank : Nat
  system : Nat
  deriving DecidableEq, Repr

/-- The payload's fields. -/
def viArgs (p : List Byte) : ViArgs :=
  { clusters := field p 0 8, plain := field p 8 4, far0 := field p 12 4, far1 := field p 16 4, kvMax := field p 20 4
    scratch := (List.range 16).map (fun t => field p (24 + t) 1), pim := field p 40 2, hFirst := field p 42 2, hCount := field p 44 2
    rank := field p 46 1, system := field p 47 1 }

/-- Clusters that a payload names, and the towers of those. -/
def ViArgs.list (a : ViArgs) : List Nat := (List.range 64).filter (fun c => bit a.clusters c)
def ViArgs.hasTower (a : ViArgs) (t : Nat) : Bool := a.list.any (fun c => decide (c / 4 = t))

/-- Are a payload's fields in range (Table 4.3)? -/
def viArgsOk (s : State) (a : ViArgs) (p : List Byte) : Bool :=
  decide (p.length = 64) && zeroBytes (p.drop 48) && decide (a.system ≤ 1 ∧ a.rank ≤ 15 ∧ a.pim ≤ 192) &&
    decide (a.hFirst % 16 = 0 ∧ a.hCount % 16 = 0 ∧ a.hFirst + a.hCount ≤ 7680) &&
    (List.range 16).all (fun t => if a.hasTower t then decide (1 ≤ nth 0 a.scratch t ∧ nth 0 a.scratch t ≤ 12) else decide (nth 0 a.scratch t = 0)) &&
    (decide (a.system = 0) || (mappedClusters s).all (fun c => bit a.clusters c))

/-- Does a VI need something that a running job of the AF uses, or a unit out of service (R142, R646)? -/
def viBusy (s : State) (a : ViArgs) : Bool :=
  a.list.any (fun c => s.jobs.any (fun j => decide (j.fn = 0) && (jobClusters s j).contains c) || clusterOut s c || towerOut s (c / 4)) ||
    (decide (0 < a.far0) && cxlOut s 0) || (decide (0 < a.far1) && cxlOut s 1)

/-- Device pieces of a kind that are free, in ascending order: none assigned, and of far memory those behind a port that is up, scrubbed (R672). -/
def freePieces (s : State) (kind : Nat) : List Nat :=
  let ex := (extents s).filter (fun e => decide (e.kind = kind))
  let isFree := fun (i : Nat) => !ex.any (fun e => decide (e.first ≤ i ∧ i < e.first + e.count))
  if kind = 0 then (List.range 4096).filter isFree
  else if kind = 1 then (List.range 192).filter isFree
  else
    (List.range 0x8000).filter (fun i => isFree i && farBacked s (kind - 2) (2 ^ 26 * i) &&
      kvGet (fun _ => false) s.farReady (0x8000 * (kind - 2) + i))
/-- Free scratch pieces of a tower. -/
def freeScratch (s : State) (t : Nat) : List Nat :=
  ((List.range (piecesOf s t)).filter (fun p => !pieceTaken s 4 (12 * t + p))).map (fun p => 12 * t + p)

/-- Merge ascending pieces into extents of first piece and count. -/
def mergePieces : List Nat → List (Nat × Nat)
  | [] => []
  | i :: l =>
    match mergePieces l with
    | (f, n) :: r => if i + 1 = f then (i, n + 1) :: r else (i, 1) :: (f, n) :: r
    | [] => [(i, 1)]

/-- The extents of a VI as kind, first piece and count, in table order; none where more is asked for than is free (R142) or more than
128 extents are needed (R705). -/
def viExtents (s : State) (a : ViArgs) : Option (List (Nat × Nat × Nat)) :=
  let take := fun (kind n : Nat) (l : List Nat) =>
    if l.length < n then none else some ((mergePieces (l.take n)).map (fun (e : Nat × Nat) => (kind, e.1, e.2)))
  let get := fun (kind n : Nat) => if n = 0 then some [] else take kind n (freePieces s kind)
  let parts := [get 0 a.plain, get 1 a.pim, get 2 a.far0, get 3 a.far1] ++
    (List.range 16).map (fun t => take 4 (nth 0 a.scratch t) (if nth 0 a.scratch t = 0 then [] else freeScratch s t))
  if parts.any (fun x => x.isNone) then none
  else
    let l := parts.flatMap (fun x => x.getD [])
    if 128 < l.length then none else some l

/-- Are the clusters, hurdles and system resources that a VI asks for free? -/
def viFree (s : State) (a : ViArgs) : Bool :=
  a.list.all (fun c => (mappedClusters s).contains c && !ownedByVi s c) &&
    (List.range 64).all (fun i =>
      let v := rawReg s (viPage (i + 1) + 0x10)
      decide (a.hCount = 0 ∨ fld v 16 16 = 0 ∨ a.hFirst + a.hCount ≤ fld v 0 16 ∨ fld v 0 16 + fld v 16 16 ≤ a.hFirst)) &&
    (decide (a.system = 0) || !(List.range 64).any (fun i => getB s (viPage (i + 1)) 27))

/-- Write a VI's region table. -/
def writeExtents (n : Nat) (l : List (Nat × Nat × Nat)) (s : State) : State :=
  l.zipIdx.foldl (fun s (x : (Nat × Nat × Nat) × Nat) =>
    let o := rtBlk + 0x400 * (n - 1) + 8 * x.2
    setReg (o + 4) (BitVec.ofNat 32 (x.1.2.2 + 2 ^ 16 * x.1.1 + 2 ^ 24)) (setReg o (BitVec.ofNat 32 x.1.2.1) s)) s

/-- Write the rank of a VI into all eight stack controllers (R417). -/
def writeRank (n r : Nat) (s : State) : State :=
  (List.range 8).foldl (fun s m => setF (mscBlk m + 0x100 + 4 * (n / 8)) (4 * (n % 8)) 4 r s) s

/-- VI_CREATE. The VF is enabled (4.2) and has no VI. DESIGN CHOICE (log 19): a VI that exists completes with RESOURCE_BUSY and a VF that is not
enabled with BAD_PARAM. A free resource has always been scrubbed (R142); DESIGN CHOICE (log 19): what the AF wrote to a free piece or buffer, which
is its own under R138, is not scrubbed on the way to a VI, as R142 gives VI_CREATE no scrub. -/
def execViCreate (h : CmdHdr) (vi : Nat) (payload : List (BitVec 8)) (s : State) : Out :=
  runOp h 0x04 [vi, leNat payload] (fun s =>
    let a := viArgs payload
    if vi = 0 ∨ 64 < vi ∨ (getFn s vi).enabled = false ∨ viArgsOk s a payload = false then fail h 0x04 stBadParam s
    else if getB s (viPage vi) 31 || viBusy s a then fail h 0x04 stBusy s
    else if !viFree s a then fail h 0x04 stQuota s
    else
      match viExtents s a with
      | none => fail h 0x04 stQuota s
      | some l =>
        let s := writeRank vi a.rank (writeExtents vi l s)
        let s := setReg64 (viPage vi + 8) a.clusters s
        let s := setReg (viPage vi + 0x10) (BitVec.ofNat 32 (65536 * a.hCount + a.hFirst)) s
        let s := setB (viPage vi) 31 true (setB (viPage vi) 30 true (setB (viPage vi) 27 (decide (a.system = 1)) s))
        let s := modFn vi (fun x => { x with
          rank := a.rank, kvPoolMax := a.kvMax, plain := a.plain, far0 := a.far0, far1 := a.far1, pim := a.pim, scratch := a.scratch }) s
        fail h 0x04 stOk (signal 0 100 s)) s

/-! ### VI_QUERY -/

/-- A VI's record: Table 4.3's layout with VI_STATUS[31:24] in byte 63. -/
def viRecord (s : State) (n : Nat) : List Byte :=
  let x := getFn s n
  let v := rawReg s (viPage n + 0x10)
  leBytes 8 (viClusters s n) ++ leBytes 4 x.plain ++ leBytes 4 x.far0 ++ leBytes 4 x.far1 ++ leBytes 4 x.kvPoolMax ++
    (List.range 16).flatMap (fun t => leBytes 1 (nth 0 x.scratch t)) ++ leBytes 2 x.pim ++ leBytes 2 (fld v 0 16) ++ leBytes 2 (fld v 16 16) ++
    leBytes 1 x.rank ++ leBytes 1 (getF s (viPage n) 27 1) ++ List.replicate 15 0#8 ++ leBytes 1 (fld (viStatus s n) 24 8)

/-- VI_QUERY: a VI asks for itself only. -/
def execViQuery (h : CmdHdr) (dst vi : Nat) (s : State) : Out :=
  runOp h 0x07 [dst, vi] (fun s =>
    if vi = 0 ∨ 64 < vi then fail h 0x07 stBadParam s
    else if h.fn.val ≠ 0 ∧ h.fn.val ≠ vi then fail h 0x07 stNotPermitted s
    else replyData h 0x07 dst (viRecord s vi) 0 s) s

/-! ### Resets of a VI (R174 to R178) -/

/-- Steps 1 to 5 of Table 4.15 at the acceptance of a reset. -/
def beginReset (n : Nat) (destroy : Bool) (replies : List (CmdHdr × Nat)) (s : State) : State :=
  let pg := viPage n
  let s := setReg (msixPba n 0) 0#32 (setB pg 29 true (setB pg 30 false s))
  let mine := fun (c : Cmd) => decide (c.h.fn.val = n)
  let s := modScribe (fun x => { x with
    waits := x.waits.filter (fun w => !mine w.cmd), inbox := x.inbox.filter (fun c => !mine c), replies := x.replies.filter (fun r => r.fn ≠ n) }) s
  let s := (ownedClusters s n).foldl (fun s c => stopCluster c s) s
  let s := nmuReset n (attReset n s)
  let s := if decide (s.coll.fn = n) && getB s pg 27 then disarm s else s
  let ext := fun (w : HomeWant) => match w with
    | .extRead f _ => decide (f = n)
    | .extWrite f _ _ _ => decide (f = n)
    | _ => false
  let s := { s with
    stk := kvMapAll (fun _ => {}) s.stk (fun (x : Stack) => { x with
      recalls := x.recalls.filter (fun r => !ext r.want), queue := x.queue.filter (fun e => !ext e.2), queues := x.queues.filter (fun q => decide (q.1 % 128 ≠ n)) })
    hwaits := s.hwaits.filter (fun w => w.who ≠ 0x8000 + n) }
  let s := (List.range 8).foldl (fun s m => homeGoesOn m s) s
  modFn n (fun x => { x with reset := some { destroy := destroy, replies := replies } }) s

/-- A reset of a created VI is accepted, or absorbed into one in progress (R178). -/
def acceptReset (n : Nat) (destroy : Bool) (replies : List (CmdHdr × Nat)) (s : State) : State :=
  match (getFn s n).reset with
  | some r => modFn n (fun x => { x with reset := some { destroy := r.destroy || destroy, replies := r.replies ++ replies } }) s
  | none => beginReset n destroy replies s

/-- VI_DESTROY and VI_RESET reply when the scrub ends. -/
def viReset (h : CmdHdr) (op vi : Nat) (destroy : Bool) (s : State) : State :=
  if vi = 0 ∨ 64 < vi ∨ getB s (viPage vi) 31 = false then fail h op stBadParam s
  else acceptReset vi destroy [(h, op)] s
def execViDestroy (h : CmdHdr) (vi : Nat) (s : State) : Out := runOp h 0x05 [vi] (viReset h 0x05 vi true) s
def execViReset (h : CmdHdr) (vi : Nat) (s : State) : Out := runOp h 0x06 [vi] (viReset h 0x06 vi false) s

/-- An FLR of a VF. -/
def execViFlr (n : Fin 64) (s : State) : Out :=
  .next (if getB s (viPage (n + 1)) 31 then acceptReset (n + 1) false [] s else s)

/-- Every epoch of a function's pairs advances (R150). -/
def advanceEpochs (f : Nat) (s : State) : State :=
  (List.range 8).foldl (fun s q => if (getPair s f q).isSome then setEpochs f q (nextEpoch (sqEpoch s f q)) (nextEpoch (cqEpoch s f q)) s else s) s

/-- An FLR of the AF, or a clearing of VF Enable: every VI is reset, every job of the AF ends with ABORTED, and a system job among them leaves
the system (R106). As a reset of the function it zeroes SEED and STEP (R510) and advances the AF's epochs (R150). -/
def execAfFlr (s : State) : Out :=
  .next (
    let s := (List.range 64).foldl (fun s i => if getB s (viPage (i + 1)) 31 then acceptReset (i + 1) false [] s else s) s
    let s := (List.range 64).foldl (fun s i => modFn (i + 1) (fun x => { x with enabled := false }) s) s
    let sys := s.jobs.any (fun j => decide (j.fn = 0) && j.system)
    let s := endJobs (fun j => decide (j.fn = 0)) (fun _ f => { f with aborted := true }) true s
    let s := if sys then modPace (fun p => { p with leave := true }) s else s
    advanceEpochs 0 (modFn 0 (fun x => { x with seed := 0, step := 0 }) s))

/-- 64 MiB pieces of a VI's memory (VI_SCRUB_REMAIN). -/
def scrubPieces (s : State) (n : Nat) : Nat :=
  let x := getFn s n
  x.plain + 16 * x.pim + x.far0 + x.far1 + x.scratch.sum

/-- Trace buffers and counters of a cluster are cleared (R745): the counters that COUNTERS_READ returns. -/
def clearCounters (c : Nat) (s : State) : State :=
  let b := cluBlk c
  let s := modCluster c (fun x => { x with traces := [] }) (clearWords (b + 0x80100) (b + 0x80178) s)
  clearWords (b + 0x81000) (b + 0x81104) (setReg (b + 0x80230) 0x7FFFFFFF#32 (clearWords (b + 0x80200) (b + 0x80234) s))

/-- Step 6 of Table 4.15. -/
def drainDone (n : Nat) (s : State) : State :=
  let pg := viPage n
  let s := endJobs (fun j => decide (j.fn = n)) cutFlags true s
  let s := (s.scheds.filter (fun x => x.fn = n)).foldl (fun s x =>
    match x.haltBy with
    | none => s
    | some b => fail b 0x15 stAborted s) s
  let s := { s with scheds := s.scheds.filter (fun x => x.fn ≠ n) }
  let v := rawReg s (pg + 0x10)
  let sys := getB s pg 27
  let s := { s with hurdles := s.hurdles.filter (fun e => !(decide (fld v 0 16 ≤ e.1 ∧ e.1 < fld v 0 16 + fld v 16 16) || (sys && decide (7680 ≤ e.1)))) }
  let s := modFn n (fun x => { x with kvBase := 0, kvPages := 0, kvPageBytes := 0, seed := 0, step := 0 }) (attReset n s)
  let s := (List.range 8).foldl (fun s q => setReg (pg + 0x40 + 4 * q) 0#32 (dropPair n q s)) (setReg (pg + 0x94) 0#32 s)
  let s := modScribe (fun x => { x with
    waits := x.waits.filter (fun w => w.cmd.h.fn.val ≠ n), inbox := x.inbox.filter (fun c => c.h.fn.val ≠ n)
    started := x.started.filter (fun c => c.h.fn.val ≠ n), replies := x.replies.filter (fun r => r.fn ≠ n) }) s
  let s := { s with
    hwaits := s.hwaits.filter (fun w => w.who ≠ 0x8000 + n)
    recs := s.recs.map (fun (r : FaultRec) => if r.fn = n then { r with readVi := true } else r) }
  let s := (ownedClusters s n).foldl (fun s c => clearCounters c s) s
  setReg (pg + 0x28) (BitVec.ofNat 32 (scrubPieces s n)) (setB pg 28 true (setB pg 29 false s))

def execViResetDrainDone (n : Fin 64) (s : State) : Out :=
  .next (if getB s (viPage (n + 1)) 29 then drainDone (n + 1) s else s)

/-- Zero a piece range of a kind with clear blots and fresh page code (step 7). -/
def scrubExtent (e : Extent) (s : State) : State :=
  let (base, size) : Nat × Nat :=
    if e.kind = 0 then (2 ^ 26 * e.first, 2 ^ 26)
    else if e.kind = 1 then (pimBase + 2 ^ 30 * e.first, 2 ^ 30)
    else if e.kind = 4 then (scratchBase (e.first / 12) + e.first % 12 * 2 ^ 26, 2 ^ 26)
    else (farBase (e.kind - 2) + 2 ^ 26 * e.first, 2 ^ 26)
  let hi := base + e.count * size
  let s := (List.range 8).foldl (fun s m => modStack m (fun (x : Stack) => { x with
    bad := x.bad.filter (fun (b : Nat × Bool) => !decide (base ≤ pageAddr s m b.1 ∧ pageAddr s m b.1 < hi)) }) s) s
  zeroRange base (e.count * size) s

/-- Steps 7 and 8 of Table 4.15. -/
def scrubDone (n : Nat) (s : State) : State :=
  let pg := viPage n
  let s := ((extents s).filter (fun e => decide (e.vi = n))).foldl (fun s e => scrubExtent e s) s
  let s := (ownedClusters s n).foldl (fun s c => zeroRange (bufferBase c) 0x1000000 s) s
  let r := (getFn s n).reset.getD { destroy := false, replies := [] }
  let s := setReg (pg + 0x28) 0#32 (setB pg 28 false s)
  let s := if r.destroy then
      let s := clearWords (rtBlk + 0x400 * (n - 1)) (rtBlk + 0x400 * (n - 1) + 0x3FC) s
      let s := writeRank n 0 (setReg (pg + 0x10) 0#32 (setReg64 (pg + 8) 0 s))
      let s := setB pg 31 false (setB pg 27 false s)
      modFn n (fun x => { barGiB := x.barGiB, enabled := x.enabled }) s
    else modFn n (fun x => { x with reset := none }) (setB pg 30 true s)
  let s := signal 0 100 (signal n 27 s)
  r.replies.foldl (fun s (x : CmdHdr × Nat) => fail x.1 x.2 stOk s) s

def execViScrubDone (n : Fin 64) (s : State) : Out :=
  .next (if getB s (viPage (n + 1)) 28 then scrubDone (n + 1) s else s)

end Sys2Proof.Machine
end

