-- ==== Sys2Proof/Machine/Bringup.lean ====
section
/-!
DEFINITION. Bring-up, cold and warm reset, and recovery (16.1 to 16.3, 16.5), and the restart after a trip (R623). What the tests and
trainings of a stage find are operands.
-/
namespace Sys2Proof.Machine

/-! ### What a reset keeps -/

/-- Bits of a register that come from fuses, flash or the life record, and outlast every reset (Tables 16.12, 14.10 and 14.14): life-cycle state
and owner slots, tamper count, security versions, boot count, voltage offsets, resistance models, remap tables. -/
def fusedMask (o : Nat) : Nat :=
  if o = secBlk then 0xF03
  else if o = secBlk + 0x30 then 0xFFFF
  else if o = secBlk + 0x34 ∨ o = secBlk + 0x38 then 0xFFFFFFFF
  else if 0x31400 ≤ o ∧ o < 0x31580 then 0x0FFFC000
  else if 0x60000000 ≤ o ∧ o < 0x68000000 ∧ 0x3000 ≤ o % 0x01000000 ∧ o % 0x01000000 < 0x3104 then 0xFFFFFFFF
  else if 0x80000000 ≤ o ∧ o < 0x84000000 ∧ o % 0x100000 = 0x50008 then 0xFF
  else 0

/-- The registers after a reset: RWS fields hold over a warm one, as do the trip state and the levels at the pins; fused bits over both. -/
def resetRegFile (warm : Bool) (l : List (Nat × Word)) : List (Nat × Word) :=
  l.foldl (fun (m : List (Nat × Word)) (e : Nat × Word) =>
    let k := fusedMask e.1 ||| (if warm then (regRow e.1).rws ||| (if e.1 = 0x800 then 0xF0000003 else 0) else 0)
    let w := BitVec.ofNat 32 k
    kvPut regReset m e.1 ((regReset e.1 &&& ~~~w) ||| (e.2 &&& w))) []

/-- The state after a reset. What outlasts it is the model's own (queue, time, log, free values), host memory, the flash die's stores and the
life record, the far memory behind its expanders, and what the fuses and the stored soft fuses say of units failed for life (R673, R675); a warm
reset, through which VAUX stays up, also keeps the watchdog's expiries, the trip in force, and the monitors' release. Device memory is cleared by the stages that follow. -/
def resetState (warm : Bool) (s : State) : State :=
  let h := s.hub
  let fusedRows := fun (t : Nat) (x : Tower) => { x with spares := x.spares.filter (fun e =>
    fuseNames h 4 (2 ^ 32 * t + 2 ^ 28 * (e.2 - 1) + 2 ^ 16 * (e.1 / 2048) + e.1 % 2048)) }
  let fusedLanes := fun (p : Nat) (x : Port) => { x with
    failedTx := x.failedTx.filter (fun i => fuseNames h 3 (2 ^ 36 * p + i % 16 * 2 ^ 32 + 2 ^ 31))
    failedRx := x.failedRx.filter (fun i => fuseNames h 3 (2 ^ 36 * p + i % 16 * 2 ^ 32)) }
  let keepTower := fun (x : Tower) => ({ spares := x.spares, badSpares := x.badSpares, trims := x.trims } : Tower)
  let keepStack := fun (x : Stack) => ({ bad := x.bad, events := x.events, badSpares := x.badSpares } : Stack)
  let keepPort := fun (x : Port) => ({ failedTx := x.failedTx, failedRx := x.failedRx } : Port)
  let r := State.reset
  { r with
    pending := s.pending, now := s.now, out := s.out, frees := s.frees, host := s.host, mem := s.mem, blots := s.blots, uncorr := s.uncorr
    regs := resetRegFile warm s.regs
    towers := kvMapAll (fun _ => {}) (s.towers.map (fun e => (e.1, fusedRows e.1 e.2))) keepTower
    stk := kvMapAll (fun _ => {}) s.stk keepStack
    ports := kvMapAll (fun _ => {}) (s.ports.map (fun e => (e.1, fusedLanes e.1 e.2))) keepPort
    sup := { trips := s.sup.trips, rthHours := s.sup.rthHours, tripHeld := if warm then s.sup.tripHeld else true
             tripAt := s.sup.tripAt, tripSensor := s.sup.tripSensor, tripReading := s.sup.tripReading }
    pins := { thermtrip := warm && s.pins.thermtrip }
    sec := { owners := s.sec.owners, fusedSvn := s.sec.fusedSvn, revoked := s.sec.revoked }
    dbg := { scan := s.dbg.scan, extest := s.dbg.extest }
    hub := { h with
      running := false, halted := false, recovery := false, booting := none, switchBy := none, leaveNext := false, outPending := false
      outCause := 0, staged := [], stagedRegs := [], stagedLap := [], testing := [], convert := [], stage := none, fast := false
      failed := h.failed.filter (fun e => fuseNames h (e.1 / 2 ^ 56) (e.1 % 2 ^ 48)), held := [], marched := []
      recBuf := [], expiries := if warm then h.expiries else [], tripped := warm && h.tripped } }

/-- BRG_STATUS.STAGE. -/
def showStage (n : Nat) (s : State) : State := setF fuseBlk 20 4 n s

/-- A cold bring-up begins with stage 0. -/
def coldStart (s : State) : State :=
  modHub (fun h => { h with stage := some 0 }) (showStage 0 (resetState false s))

/-- COLD_BRINGUP: VAUX has become stable. -/
def execColdBringup (s : State) : Out :=
  .next (if s.hub.vauxLost && s.hub.stage.isNone && !s.hub.recovery && !s.hub.running then coldStart s else s)

/-- WARM_RESET (R135, R676): stage 1 follows; VAUX has to be up. Configuration requests are answered with Request Retry Status until the AF is
ready. DEDUCED (log 13): it is ready at the end of stage 1, from which it answers them (R670). -/
def execWarmReset (s : State) : Out :=
  .next (if s.hub.stage.isNone && !s.hub.recovery && !s.hub.running then s
    else if s.hub.stage = some 0 ∨ s.hub.recovery = true then s
    else emit (.configRetry true) (modHub (fun h => { h with stage := some 1, fast := true }) (showStage 1 (resetState true s))))

/-- TRIP_RESTART (R623): every valid sensor reads below 80 °C, 10 s have passed, and the trip was not the third in 24 h. The bring-up starts, and
the trip is reported. -/
def execTripRestart (t : Nat) (s : State) : Out :=
  .next (
    let s := { s with now := max s.now t }
    if !s.hub.tripped || decide (s.now < s.sup.tripAt + 10000000000) || decide (3 ≤ trips24h s) ||
      !(validSensors s).all (fun n => decide (sensorTemp s n < 1280)) then s
    else
      let n := s.sup.tripSensor
      let reading := s.sup.tripReading
      report 0x407 (oSensor n) fnDevice reading (coldStart s))

/-! ### Stages 0 and 1 -/

/-- The levels of PIN_STATUS that the board's rails give. -/
def setRails (rails : Nat) (s : State) : State :=
  setB 0x800 31 (bit rails 0) (setB 0x800 30 (bit rails 1) (setB 0x800 29 (bit rails 2) (setB 0x800 28 (bit rails 3) s)))

/-- Stage 0 ends once VIO18, VPHY12 and REFCLK are within range (R715). A life-cycle state that fails its check reads as SUSPENDED (R692), and a
TAMPER_N that reads asserted counts as one assertion (R696). -/
def stage0 (f : StageFindings) (s : State) : Option State :=
  let s := setRails f.rails s
  if f.rails % 8 ≠ 7 then none
  else
    let s := if f.stateFails then setF secBlk 0 2 3 s else s
    some (modHub (fun h => { h with calendarStale := h.calendarStale || h.vauxLost }) (tamperLevel f.tamper s))

/-- Which conditions of R678 fail, in listed order. -/
def fastFails (s : State) : List Bool :=
  match s.hub.bringup with
  | none => [true, true, true, true, true, true, !bit (paramIn (listsOf s) 2 1) 0]
  | some r =>
    [false, decide (r.build ≠ (slotOf s s.hub.active).build), decide (r.digest ≠ digestRest s),
     decide (r.utc + 86400000000000 ≤ rtcCount s), decide (r.trips ≠ s.hub.trips), s.hub.vauxLost, !bit (paramIn (listsOf s) 2 1) 0]

/-- Stage 1: the boot ROM starts the active image, or the other one with FW_REVERT, or enters recovery (R690). Firmware runs; a warm reset that
meets R678 takes the fast path. -/
def stage1 (f : StageFindings) (s : State) : State :=
  let s := (List.range 2).foldl (fun s k => if bit f.badSlots k then setSlot k { slotOf s k with valid := false } s else s) s
  let s := if s.hub.fast then emit (.configRetry false) s else s
  let a := s.hub.active
  let o := 1 - a
  if !bootable s a && !bootable s o then
    modHub (fun h => { h with recovery := true }) (setB fuseBlk 29 true (showFw s))
  else
    let bad := (slotOf s a).build
    let turn := !bootable s a
    let s := modHub (fun h => { h with active := if turn then o else a }) s
    let s := setReg (secBlk + 0x38) (BitVec.ofNat 32 (sat32 (rawReg s (secBlk + 0x38)).toNat 1)) s
    let s := freshNonce (setB 0x708 24 s.hub.calendarStale (showFw (fwRuns s)))
    let s := if turn then noteFw o 2 (report 0x503 (oHub 0 0) fnDevice bad s) else s
    let fails := fastFails s
    let warm := s.hub.fast
    let go := warm && fails.all (fun b => !b)
    let s := if warm then setF fuseBlk 8 7 (((fails.zip (List.range 7)).map (fun (x : Bool × Nat) => b2n x.1 * 2 ^ x.2)).sum) s else s
    pinDrive 24 true (modHub (fun h => { h with fast := go, stage := some 2 }) (setB fuseBlk 30 go s))

/-! ### Stages 2 to 4 -/

/-- Nominal set points of the domains of Table 14.1 other than the clusters', in mV. -/
def nominalMv (n : Nat) : Nat := if n < 80 then 750 else if n < 92 then 800 else 850

/-- Stage 2 ends once VPKG is within range (R715) and the trip and critical monitors have released (R668): the domains 64 to 95 are on. -/
def stage2 (f : StageFindings) (s : State) : Option State :=
  let s := setRails f.rails s
  if !bit f.rails 3 || s.sup.tripHeld || s.hub.tripped || getB s (pwrBlk + 0x2000) 31 then none
  else some ((List.range 32).foldl (fun s i =>
    let n := 64 + i
    setB (domReg n) 31 true (setB (domReg n) 30 true (setF (domReg n) 16 10 (nominalMv n) (setF (domReg n) 0 10 (nominalMv n) s)))) s)

/-- The registers that a test of the stored configuration's entries accepts take the values that they give. -/
def applyStoredWhere (p : Nat → Bool) (s : State) : State :=
  ((cfgWrites s ([], []) (listsOf s) true).filter (fun (e : Nat × Word) => p e.1)).foldl (fun s (e : Nat × Word) => setReg e.1 e.2 s) s

/-- Every stack page is written with zeros, clear blots, its region's strength and GEN 0 (R669). -/
def stackFill (s : State) : State :=
  let s := applyStoredWhere (fun o => decide ((0x300 ≤ o ∧ o < 0x318) ∨ (0x500 ≤ o ∧ o < 0x570))) s
  let s := { s with
    regions := (List.range 448).foldl (fun m r => kvPut (fun _ => {}) m r { strength := getF s (0x500 + 4 * (r / 16)) (2 * (r % 16)) 2, gen := 0 }) []
    stk := kvMapAll (fun _ => {}) s.stk (fun x => { events := x.events, badSpares := x.badSpares }) }
  zeroRange 0 0x007000000000 s

/-- A tower's memory in stage 3: banks on with zeros, the split of its register, and no cached line. -/
def towerFill (s : State) : State :=
  let s := (List.range 16).foldl (fun s t =>
    let n := fld (rawReg s (twrBlk t + 4)) 0 4
    let s := modTower t (fun x => { pieces := n, spares := x.spares, badSpares := x.badSpares, trims := x.trims }) s
    showSpares t (setF (twrBlk t) 16 4 n (setB (twrBlk t) 31 true s))) s
  zeroRange 0x100000000000 0x400000000 s

/-- Failed near-memory units are known from their soft fuses (R673). -/
def restoreUnits (s : State) : State :=
  s.hub.failed.foldl (fun s (e : Nat × Bool) =>
    if e.1 / 2 ^ 56 = 5 then
      let m := bits e.1 45 3
      let u := bits e.1 0 8
      setB (mscBlk m + 0x50100 + 4 * (u / 32)) (u % 32) true s
    else s) s

/-- Stage 3: the march of every tower, without it on the fast path, the stacks' training and self-test, and the fill. -/
def stage3 (f : StageFindings) (s : State) : State :=
  let s := restoreUnits (towerFill (stackFill s))
  let s := if s.hub.fast then s
    else (f.failingRows.filter (fun (x : Nat × Nat × Nat) => decide (x.1 < 16 ∧ x.2.1 < 1536 ∧ x.2.2 < 1040))).foldl
      (fun s (x : Nat × Nat × Nat) => replaceRow x.1 x.2.1 x.2.2 s) (modHub (fun h => { h with marched := f.failingRows }) s)
  let s := (List.range 8).foldl (fun s m => showRemaps m (setB (mscBlk m) 31 true s)) s
  let s := f.selfTests.foldl (fun s x =>
    if selfTestFails x.strength x.case_ x.found then stackLost x.stack (setB (mscBlk x.stack) 29 true s) else s) s
  let s := (f.lostStacks.filter (fun m => decide (m < 8))).foldl (fun s m => stackLost m s) s
  let s := (f.lostTowers.filter (fun t => decide (t < 16))).foldl (fun s t => towerLost t s) s
  -- stage 4 starts: the fields of R686 take their values, the ports train, and the clocks of the CXL ports in service run (R720)
  let s := [0, 1].foldl (fun s p => driveRefclk p (!cxlOut s p) s) s
  let s := (List.range 12).foldl (fun s p => showLanes p (setPortState p 0 s)) s
  applyStoredWhere bootReg s

/-- Stage 4: CXL ports have trained; no far-memory piece is scrubbed yet (R672). -/
def stage4 (f : StageFindings) (s : State) : State :=
  let s := { s with farReady := [] }
  (f.expanders.filter (fun (x : Nat × Nat × Nat × Nat) =>
      decide (x.1 < 2 ∧ x.2.2.1 + x.2.2.2 ≤ 2048 ∧ (x.2.2.2 = 0 ∨ x.2.1 % 32 = 8)) && linkMode (x.2.1.testBit 7) (bits x.2.1 5 2) (x.2.1 % 32))).foldl (fun s (x : Nat × Nat × Nat × Nat) =>
    let (p, link, a, b) := x
    let o := cxlBlk p
    setReg (o + 8) (BitVec.ofNat 32 b) (setReg (o + 4) (BitVec.ofNat 32 a)
      (setF o 21 2 (b2n (decide (0 < a)) + 2 * b2n (decide (0 < b))) (setF o 23 8 link (setB o 31 true s))))) s

/-- FAR_SCRUB_DONE: the scrub has covered a piece behind a port that is up. -/
def execFarScrubDone (p : Fin 2) (piece : Nat) (s : State) : Out :=
  .next (if piece < 0x8000 ∧ farBacked s p (2 ^ 26 * piece) = true ∧ kvGet (fun _ => false) s.farReady (0x8000 * p + piece) = false then
      let s := zeroRange (farBase p + 2 ^ 26 * piece) (2 ^ 26) s
      { s with farReady := kvPut (fun _ => false) s.farReady (0x8000 * p + piece) true }
    else s)

/-! ### Stages 5 and 6 -/

/-- Cores and clusters that fuses and soft fuses name as failed, and lanes' spare groups; a second group of a lane makes its tower lost (R47). -/
def restoreFailed (s : State) : State :=
  s.hub.failed.foldl (fun s (e : Nat × Bool) =>
    let k := e.1 / 2 ^ 56
    let loc := e.1 % 2 ^ 56
    if k = 1 then
      let kind := bits loc 30 2
      setB (coreStat (bits loc 32 8) kind (bits loc 24 5)) (coreFailBit kind) true s
    else if k = 2 then
      let o := twrBlk (bits loc 32 8) + 0x10000 + 4 * bits loc 29 3
      if getB s o 31 then towerLost (bits loc 32 8) (setB o 30 true s) else setF o 0 5 (bits loc 24 5) (setB o 31 true s)
    else if k = 6 then setB (0x204 + 4 * (bits loc 40 8 / 32)) (bits loc 40 8 % 32) true s
    else s) s

/-- Stage 5: clusters on at PF with zero buffers; the sweep of the bonds, or on the fast path the trims of the bring-up record; the self-test of every core; maps,
retirement and fencing. -/
def stage5 (f : StageFindings) (s : State) : State :=
  let s := restoreFailed s
  let s := { s with mcores := [], vruns := [], sruns := [], abase := [], abtag := [], clusters := [], runners := [], sup := { s.sup with clu := [], tow := [] } }
  let s := (List.range 64).foldl (fun s c => if retired s c then s else setB (domReg c) 30 true (setF (domReg c) 0 10 550 (clusterOn c s))) s
  let s := zeroRange 0x110000000000 0x40000000 s
  let s := if s.hub.fast then (s.hub.bringup.map (fun r => r.trims)).elim s (fun l => l.foldl (fun s e => modTower e.1 (fun x => { x with trims := e.2 }) s) s)
    else
      (List.range 16).foldl (fun s t => sweepTower t 0 ((f.trims.filter (fun x => x.1 = t)).map (fun x => x.2)) s) s
  -- the clusters run at PF, with the trims that the sweep has stored for it (R339)
  let s := (List.range 64).foldl (fun s c => if retired s c then s else changeM c 16 s) s
  let s := (f.failedCores.filter (fun (x : Nat × Nat × Nat) => decide (x.1 < 64 ∧ x.2.1 < 3 ∧ x.2.2 < physCount x.2.1))).foldl
    (fun s (x : Nat × Nat × Nat) => coreFailed x.1 x.2.1 x.2.2 0 s) s
  let s := (List.range 64).foldl (fun s c =>
    if retired s c then s
    else if [0, 1, 2].any (fun k => decide ((goodCores s c k).length < logCount k)) then retireCluster c 0 s
    else mapCluster c s) s
  idleFences s

/-- The default ring of R560. -/
def defaultRing (s : State) : List Nat :=
  let sz := topoSizes s
  let nx := nth 1 sz 0
  let ny := nth 1 sz 1
  (List.range (nth 1 sz 2)).flatMap (fun z => (List.range ny).flatMap (fun i =>
    let y := if z % 2 = 0 then i else ny - 1 - i
    (List.range nx).map (fun t => (if (z * ny + y) % 2 = 0 then t else nx - 1 - t) + y * 64 + 4096 * z)))

/-- Write the default ring, unless the stored configuration gives one. -/
def writeRingReg (s : State) : State :=
  if (regsNamed (cfgEntries (listsOf s))).any (fun o => bootReg o && decide (0x10000000 ≤ o ∧ o < 0x20000000)) then s
  else
    let l := defaultRing s
    [0, 1].foldl (fun s e =>
      (l.zip (List.range l.length)).foldl (fun s (x : Nat × Nat) => setReg (colBlk e + 0x10000 + 4 * x.2) (BitVec.ofNat 32 (2 ^ 31 + x.1)) s)
        (setF (colBlk e + 0x18) 0 12 l.length s)) s

/-- Set LOCK in every block that has one. -/
def setLocks (s : State) : State :=
  (regRows.filter (fun r => decide (r.off = 0xFFC))).foldl (fun s r =>
    (List.range r.inst).foldl (fun s i => setB (r.base + i * r.stride + 0xFFC) 0 true s) s) s

/-- Causes of R648 that a bring-up finds: clusters retired, towers and stacks lost, retired pages, all hub sensors broken. -/
def foundCauses (s : State) : State :=
  let s := if 5 ≤ popCount 64 (retiredSet s) then declareOut 1 s else s
  let s := if (List.range 16).any (fun t => getB s (twrBlk t) 30) then declareOut 2 s else s
  let s := if (List.range 8).any (fun m => getB s (mscBlk m) 30) then declareOut 3 s else s
  let s := if (List.range 8).any (fun m => decide (4096 ≤ (s.hub.retired.filter (fun r => r.stack = m)).length)) then declareOut 4 s else s
  if (List.range 4).all (fun j => sensorBroken s (416 + j)) then declareOut 5 s else s

/-- Stage 6: the stored configuration, the bound of R108, locks, the pace unit, the shapes offered, and Scribe. A bring-up that ran Table 16.1
stores its record (R677). -/
def stage6 (s : State) : State :=
  let s := writeRingReg (applyStored s)
  let s := (servicePorts s).foldl (fun s p => checkWindow p s) s
  let s := updateTree (setLocks s)
  let s := modPace (fun p => { p with lastTick := s.now, startPassed := true }) (setB 0x400 0 true s)
  let s := foundCauses s
  let s := setB 0x200 29 (!getB s 0x200 31) (setB 0x200 30 (decide (retiredSet s = 0)) s)
  let s := raiseSvn (modScribe (fun x => { x with consuming := true }) s)
  let s := pinDrive 25 (!getB s 0x200 31) (setB fuseBlk 31 true s)
  let fast := s.hub.fast
  let s := modHub (fun h => { h with stage := none }) s
  if fast then s
  else
    let r : BringupRec := { build := (slotOf s s.hub.active).build, digest := digestRest s, utc := rtcCount s, trips := s.hub.trips,
                             march := s.hub.marched, trims := (List.range 16).map (fun t => (t, (getTower s t).trims)),
                             lanes := (List.range 12).map (fun p => ((getPort s p).failedTx, (getPort s p).failedRx)) }
    modHub (fun h => { h with bringup := some r, vauxLost := false }) s

/-- The time that a stage took goes by, and a unit that falls back from the fast path clears FAST (R679). -/
def stageTime (f : StageFindings) (s : State) : State :=
  let s := { s with now := s.now + 1000000 * f.ms }
  let s := setReg (fuseBlk + 4) (BitVec.ofNat 32 (sat32 (rawReg s (fuseBlk + 4)).toNat f.ms)) s
  if f.fellBack then setB fuseBlk 30 false s else s

/-- Stage k is done, and the next one is shown and in progress. -/
def stageTurn (k : Nat) (s : State) : State := showStage (k + 1) (modHub (fun h => { h with stage := some (k + 1) }) s)

/-- BRINGUP_STAGE: the stage in progress ends with its findings, and the next one starts; a stage that cannot end goes on. -/
def execBringupStage (f : StageFindings) (s : State) : Out :=
  .next (if s.hub.recovery then s
    else
      match s.hub.stage with
      | none => s
      | some k =>
        let s := stageTime f s
        if k = 0 then (match stage0 f s with
          | none => setRails f.rails s
          | some s => stageTurn k s)
        else if k = 1 then (
          let s := stage1 f s
          if s.hub.recovery then s else stageTurn k s)
        else if k = 2 then (match stage2 f s with
          | none => setRails f.rails s
          | some s => stageTurn k s)
        else if k = 3 then stageTurn k (stage3 f s)
        else if k = 4 then stageTurn k (stage4 f s)
        else if k = 5 then stageTurn k (stage5 f s)
        else stage6 s)

/-! ### Recovery (R690) -/

/-- The bytes of the recovery buffer. -/
def recoveryBytes (s : State) (n : Nat) : List Byte := (List.range n).map (fun i => kvGet (fun _ => 0#8) s.hub.recBuf i)

/-- BRG_REC_GO: the boot ROM verifies the buffer; an image that verifies is written to slot A, and the cold bring-up restarts. -/
def execBrgRecGo (d : BitVec 32) (s : State) : Out :=
  .next (if !s.hub.recovery || decide (d ≠ 1#32) then s
    else
      let n := 64 + field (recoveryBytes s 20) 16 4 + 96
      if 2 ^ 24 < n then s
      else
        let l := recoveryBytes s n
        if fwVerifies s l then coldStart (modHub (fun h => { h with active := 0 }) (setSlot 0 (fwSlotOf l) s)) else s)

end Sys2Proof.Machine
end

