-- ==== Sys2Proof/Machine/Pins.lean ====
section
/-!
DEFINITION. Supplies and pins (17.3, 17.5): loss of VPKG or VAUX, and the push-pull outputs that read themselves back. What a voltage or a land
does is the event itself or an operand.
-/
namespace Sys2Proof.Machine

/-- Change the pins' own state. -/
def modPins (g : Pins → Pins) (s : State) : State := { s with pins := g s.pins }

/-- VPKG is gone (R717): every converter is off, VPKG_EN and READY are low, every job ends, the ports have no supply, and the device leaves
the system as under R650. -/
def vpkgDown (s : State) : State :=
  let s := pinDrive 25 false (pinDrive 24 false (convertersOff s))
  let s := endJobs (fun _ => true) cutFlags true s
  let s := modHub (fun h => { h with leaveNext := true }) (portsDown s)
  modPins (fun p => { p with offAt := some s.now }) (report 0x401 (oHub 2 0xFF) fnDevice 0 s)

/-- VPKG_UNDERVOLTAGE (R717), while VPKG_EN asks for the rail. -/
def execVpkgUndervoltage (s : State) : Out :=
  .next (if getB s 0x800 24 && s.pins.offAt.isNone then vpkgDown s else s)

/-- VPKG_RESTART (R717): after 100 ms VPKG_EN is reasserted and Table 16.1 runs from stage 2. Functions, queues and configuration stay. -/
def execVpkgRestart (t : Nat) (s : State) : Out :=
  .next (
    let s := { s with now := max s.now t }
    match s.pins.offAt with
    | none => s
    | some a =>
      if s.now < a + 100000000 ∨ s.hub.running = false then s
      else
        let s := modPins (fun p => { p with offAt := none }) (pinDrive 24 true s)
        let s := modScribe (fun x => { x with consuming := false }) (setB fuseBlk 30 false (setB fuseBlk 31 false s))
        showStage 2 (modHub (fun h => { h with stage := some 2, fast := false }) s))

/-- The life counters return to the summary in the flash die (R661); trips are written there at once. -/
def restoreSummary (s : State) : State :=
  modHub (fun h =>
    let f := fun o n => field h.summary o n
    { h with
      lifeClock := f 16 8, powerOn := f 24 8, energy := f 32 8, lifeT := f 52 2, lifeC := f 54 2, watchdogs := f 60 4, vrAlerts := f 64 4
      switches := f 68 4, mcoresFailed := f 74 2, vcoresFailed := f 76 2, nmusFailed := f 78 2
      retrains := (List.range 12).foldl (fun m p => kvPut (fun _ => 0) m p (f (162 + 4 * p) 2)) []
      cycles := (List.range 96).foldl (fun m i => kvPut (fun _ => 0) m i (f (208 + 4 * i) 4)) []
      tjHours := (List.range 13).map (fun i => f (592 + 4 * i) 4) }) s

/-- VAUX_LOSS (R718): converters off, outputs undriven and released; nothing runs until VAUX returns and a cold bring-up starts. -/
def execVauxLoss (s : State) : Out :=
  .next (
    let r := restoreSummary (resetState false s)
    modHub (fun h => { h with vauxLost := true }) { r with dbg := {} })

/-- The bit of PIN_STATUS that an output's OFF field has: READY 1, VPKG_EN 0; its drive and read bits lie 24 and 26 above. -/
def offBit (output : Nat) : Nat := 1 - output

/-- An output becomes three-stated; VPKG_EN then falls to its pull-down, and the device proceeds as R717 describes (R726). -/
def threeState (output : Nat) (s : State) : State :=
  let s := setB 0x800 (offBit output) true s
  if output = 1 ∧ getB s 0x800 24 = true ∧ s.pins.offAt = none then vpkgDown s else s

/-- PIN_READBACK: an output (0 READY, 1 VPKG_EN) reads its land back. At the third readback in a row that differs from the level driven it is
three-stated, which is counted (R726). -/
def execPinReadback (output : Fin 2) (level : Bool) (s : State) : Out :=
  .next (
    let b := offBit output
    let s := setB 0x800 (26 + b) level s
    let bad := !getB s 0x800 b && (level != getB s 0x800 (24 + b))
    let n := if bad then (if output = 0 then s.pins.readyBad else s.pins.enBad) + 1 else 0
    let keep := if n = 3 then 0 else n
    let s := modPins (fun p => if output = 0 then { p with readyBad := keep } else { p with enBad := keep }) s
    if n = 3 then threeState output (addReg 0x804 1 s) else s)

/-- PIN_OFF_WRITE: the OFF fields take the value written; 0 drives the output again, 1 three-states it (Table 17.12). -/
def execPinOffWrite (d : BitVec 32) (s : State) : Out :=
  .next ([0, 1].foldl (fun s (o : Nat) =>
    let b := offBit o
    if d.getLsbD b then (if getB s 0x800 b then s else threeState o s) else setB 0x800 b false s) s)

end Sys2Proof.Machine
end

