-- ==== Sys2Proof/Machine/Window.lean ====
section
/-!
DEFINITION. A write of a register by window offset (2.4): by its access code, or with the effect of its own row where the register has one.
-/
namespace Sys2Proof.Machine

/-- The state that an outcome leaves; of one that stops, the state before it. -/
def afterOut (s : State) : Out → State
  | .next t => t
  | _ => s

/-- The effect of a write in the hub's general block. -/
def hubWrite (o : Nat) (v : Word) (s : State) : Option Out :=
  if o = 0x43C then some (execPaceCountClear v s)
  else if o = 0x614 then some (execFjsCountClear v s)
  else if o = 0x700 then some (execHubWdtKick v s.now s)
  else if o = 0x800 then some (execPinOffWrite v s)
  else if o = 0x808 then some (execPinCountClear v s)
  else none

/-- The effect of a write in a function's register page or doorbell pages (Tables 2.8 and 4.13, R173): `o` is the offset in the page, `bell` that
of pair 0's doorbells. -/
def pageWrite (f : Fin 65) (bell o : Nat) (v : Word) (s : State) : Option Out :=
  if o = 0x94 then some (execViQ0Enable f v s)
  else if o = 0x98 then some (execViCountClear f v s)
  else if bell ≤ o ∧ o < bell + 0x8000 then
    let q := Fin.ofNat 8 ((o - bell) / 0x1000)
    if o % 0x1000 = 0 then some (execSqDoorbell f q v s)
    else if o % 0x1000 = 8 then some (execCqHeadDoorbell f q v s)
    else none
  else none

/-- The effect of a write in the other blocks of the hub die. -/
def hubDieWrite (o : Nat) (v : Word) (s : State) : Option Out :=
  if o = bltBlk + 0x10 then some (execBltCountClear v s)
  else if o = pwrBlk + 0x30 then some (execPwrCountClear v s)
  else if o = pwrBlk + 0x2004 then some (execThmTrigger v s)
  else if o = pwrBlk + 0x2010 then some (execThmRthReset v s)
  else if o = pwrBlk + 0x2014 then some (execThmCountClear v s)
  else if o = secBlk + 0xC then some (execSecLcCtrl v s)
  else if o = fuseBlk + 0xC then some (execBrgRecGo v s)
  else if o = cxlBlk 0 + 0x18 then some (execCxlCountClear 0 v s)
  else if o = cxlBlk 1 + 0x18 then some (execCxlCountClear 1 v s)
  else none

/-- The effect of a write in a tower, a stack controller or a port. -/
def dieWrite (q : Requester) (o : Nat) (v : Word) (s : State) : Option Out :=
  if 0x40000000 ≤ o ∧ o < 0x50000000 then
    let t := Fin.ofNat 16 ((o - 0x40000000) / 0x01000000)
    let r := o % 0x01000000
    if r = 0x201C then some (execTwrProtClear t v s)
    else if r = 0x3040 then some (execTwrConfClear t v s)
    else if r = 0x20000 ∧ fld v 31 1 = 1 then some (execMarchStart q t v s)
    else none
  else if 0x60000000 ≤ o ∧ o < 0x68000000 then
    let m := Fin.ofNat 8 ((o - 0x60000000) / 0x01000000)
    let r := o % 0x01000000
    if r = 0x2018 then some (execMscEccClear m v s)
    else if r = 0x10400 then some (execMscSrcClear m v s)
    else if r = 0x40010 then some (execDirCountClear m v s)
    else if r = 0x50020 then some (execNmuStackClear m v s)
    else if 0x80000 ≤ r ∧ r < 0x90000 ∧ r % 0x100 = 0x18 then some (execNmuCountClear m (Fin.ofNat 256 ((r - 0x80000) / 0x100)) v s)
    else none
  else if 0x70000000 ≤ o ∧ o < 0x70C00000 ∧ o % 0x100000 = 0x30 then
    some (execFjlCountClear (Fin.ofNat 12 ((o - 0x70000000) / 0x100000)) v s)
  else none

/-- The effect of a write in a cluster's block. -/
def clusterWrite (o : Nat) (v : Word) (s : State) : Option Out :=
  let c := Fin.ofNat 64 ((o - 0x80000000) / 0x100000)
  let r := o % 0x100000
  if r = 0x5001C then some (execCluPwrClear c v s)
  else if r = 0x80008 then some (execCluTrcClear c v s)
  else if r = 0x80238 then some (execCluPerfClear c v s)
  else if r = 0x81200 then some (execCluBankClear c v s)
  else if 0x10000 ≤ r ∧ r < 0x22000 ∧ r % 0x1000 = 0x10 then some (execMcCountClear c (Fin.ofNat 18 ((r - 0x10000) / 0x1000)) v s)
  else if 0x30000 ≤ r ∧ r < 0x39000 ∧ r % 0x1000 = 0x10 then some (execVcCountClear c (Fin.ofNat 9 ((r - 0x30000) / 0x1000)) v s)
  else if 0x40000 ≤ r ∧ r < 0x44000 ∧ r % 0x1000 = 0x10 then some (execScCountClear c (Fin.ofNat 4 ((r - 0x40000) / 0x1000)) v s)
  else none

/-- The effect of a write on a register that has a row of its own; none for the others. -/
def ownWrite (q : Requester) (o : Nat) (v : Word) (s : State) : Option Out :=
  if o < 0x10000 then hubWrite o v s
  else if o < 0x20000 then pageWrite 0 0x8000 (o - 0x10000) v s
  else if o < 0x100000 then hubDieWrite o v s
  else if o < 0x500000 then pageWrite (Fin.ofNat 65 ((o - 0x100000) / 0x10000 + 1)) 0x1000 (o % 0x10000) v s
  else if hdlBlk ≤ o ∧ o < hdlBlk + 0x20000 then
    if o % 16 = 12 then some (.next (hdlCtrlWrite ((o - hdlBlk) / 16) v s)) else none
  else if o = attBlk 0 + 0x2C ∨ o = attBlk 1 + 0x2C then some (execAttCountClear (Fin.ofNat 2 ((o - 0x10000000) / 0x08000000)) v s)
  else if o = attBlk 0 + 0x30 ∨ o = attBlk 1 + 0x30 then some (execAttLabFlush (Fin.ofNat 2 ((o - 0x10000000) / 0x08000000)) v s)
  else if o = colBlk 0 + 0x14 ∨ o = colBlk 1 + 0x14 then some (execColCountClear (Fin.ofNat 2 ((o - 0x10000000) / 0x08000000)) v s)
  else if o < 0x80000000 then dieWrite q o v s
  else if o < 0x84000000 then clusterWrite o v s
  else none

/-- A write of one word at a window offset. -/
def writeWord (q : Requester) (o : Nat) (v : Word) (s : State) : State :=
  match ownWrite q o v s with
  | some r => afterOut s r
  | none => writeReg q o v s

/-- A write by a requester's own address: a word where a register is (R62, R64). -/
def writeAt (q : Requester) (a : Nat) (v : Word) (s : State) : State :=
  match windowOff s q a with
  | none => regBusError q a false s
  | some o => writeWord q o v s

/-- A write in recovery (R690): the recovery buffer, and BRG_REC_GO; every other write is ignored. -/
def recoveryWrite (q : Requester) (a size : Nat) (data : BitVec 64) (s : State) : State :=
  if q ≠ .af then s
  else if 0x2000000 ≤ a ∧ a < 0x3000000 then
    modHub (fun h => { h with recBuf := (List.range (min size 8)).foldl (fun m i =>
      if a + i < 0x3000000 then kvPut (fun _ => 0#8) m (a + i - 0x2000000) (data.extractLsb' (8 * i) 8) else m) h.recBuf }) s
  else if a = fuseBlk + 0xC ∧ size = 4 then afterOut s (execBrgRecGo (data.truncate 32) s)
  else s

/-- REGISTER_WRITE: an aligned word, or from the host an aligned 64 bits as two words, lower first; another size or alignment is a bus error
(R64). The AF answers the host from the end of stage 1 (R670). -/
def execRegisterWrite (q : Requester) (addr size : Nat) (data : BitVec 64) (s : State) : Out :=
  .next (
    if hostDark s q then s
    else if s.hub.recovery then recoveryWrite q addr size data s
    else if size = 4 ∧ addr % 4 = 0 then writeAt q addr (data.truncate 32) s
    else if size = 8 ∧ addr % 8 = 0 ∧ reqNo q < 65 then
      writeAt q (addr + 4) ((data >>> 32).truncate 32) (writeAt q addr (data.truncate 32) s)
    else regBusError q addr false s)

end Sys2Proof.Machine
end

