-- ==== Sys2Proof/Machine/Debug.lean ====
section
/-!
DEFINITION. The debug port on JTAG (18.1): tokens, debug accesses, the hub halt and boundary scan.
-/
namespace Sys2Proof.Machine

/-- Change the debug port. -/
def modDbg (g : Debug → Debug) (s : State) : State := { s with dbg := g s.dbg }

/-- The scope in force by Table 18.4: bit 0 READ, bit 1 WRITE, bit 2 HUB. -/
def debugScope (s : State) : Nat :=
  let st := lifeState s
  if st = 0 then 0
  else if st = 1 then 7
  else if st = 2 then s.sec.tokenScope.getD 0
  else b2n s.sec.tokenScope.isSome

/-- Is a debug token valid (Table 18.3)? -/
def debugTokenOk (s : State) (l : List Byte) : Bool :=
  decide (l.length = 320 ∧ l.take 4 = [0x4E#8, 0x5A#8, 0x44#8, 0x54#8] ∧ field l 4 2 = 1 ∧ field l 6 1 < 8 ∧ field l 7 1 = 0 ∧
    field l 8 8 = Config.serial.toNat ∧ (l.drop 16).take 32 = nonceBytes s) && zeroBytes ((l.drop 48).take 176) &&
    match ownerKey s with
    | none => false
    | some k => ecdsaVerify k (l.take 224) ((l.drop 224).take 96)

/-- DBG_TOKEN (R739): the token takes the place of the one before it, valid or not, and the nonce takes a fresh value. -/
def execDbgToken (token : List (BitVec 8)) (s : State) : Out :=
  .next (
    let scope := if debugTokenOk s token then some (field token 6 1) else none
    freshNonce (modSec (fun x => { x with tokenScope := scope }) (modDbg (fun d => { d with token := token }) s)))

/-- DBG_ACCESS (R737): an update starts an access; one while BUSY, or with an OP that does nothing, is ignored. -/
def execDbgAccess (update : BitVec 96) (s : State) : Out :=
  .next (
    let op := (update.extractLsb' 12 4).toNat
    if s.dbg.busy ∨ (op ≠ 1 ∧ op ≠ 2) then s
    else modDbg (fun d => { d with
      addr := (update.extractLsb' 48 48).toNat, data := (update.extractLsb' 16 32).toNat, op := op, busy := true, status := 4 }) s)

/-- The access ends with a status, and a read that succeeds with its data. -/
def dbgEnd (status : Nat) (data : Option Nat) (s : State) : State :=
  modDbg (fun d => { d with busy := false, status := status, data := data.getD d.data }) s

/-- A debug access to a register. -/
def dbgRegister (o : Nat) (s : State) : State :=
  match blockOf o with
  | none => dbgEnd 1 none (regBusError .jtag o (decide (s.dbg.op = 1)) s)
  | some b =>
    if s.dbg.op = 1 then
      let r := readBy .jtag o s
      dbgEnd 0 (some r.1.toNat) r.2
    else
      let refused := locked s b && decide ((regRow o).rwl ≠ 0)
      dbgEnd (if refused then 2 else 0) none (writeWord .jtag o (BitVec.ofNat 32 s.dbg.data) s)

/-- A debug access to memory: not translated, without the secure attribute (R54, R706); a bus error leaves no blot (R239). -/
def dbgMemory (a : Nat) (s : State) : State :=
  let k : Acc := { fn := fnHub, org := oDevice }
  if s.dbg.op = 1 then
    let r := readSpan s k a 4
    if r.ok then dbgEnd 0 (some (leNat r.data)) (bumpFree s) else dbgEnd 1 none (readError k a s)
  else
    let w := writeSpan k a (leBytes 4 s.dbg.data) false (.start s)
    dbgEnd (if w.ok then 0 else 1) none w.s

/-- DBG_ACCESS_DONE: the access that is in progress has its effect and its status (Table 18.2). -/
def execDbgAccessDone (s : State) : Out :=
  .next (
    if !s.dbg.busy then s
    else
      let a := s.dbg.addr
      if !bit (debugScope s) (s.dbg.op - 1) then dbgEnd 3 none s
      else if a % 4 ≠ 0 then dbgEnd 1 none s
      else if windowBase ≤ a ∧ a < windowBase + 2 ^ 32 then dbgRegister (a - windowBase) s
      else dbgMemory a s)

/-- HALT of DBG_HUB (R740): only with the HUB scope and while no system job is loaded. -/
def execDbgHalt (s : State) : Out :=
  .next (if bit (debugScope s) 2 && !systemLoaded s then modHub (fun h => { h with halted := true }) s else s)

/-- RESUME of DBG_HUB: the hub controller and its watchdog run again. -/
def execDbgResume (s : State) : Out :=
  .next (if bit (debugScope s) 2 && s.hub.halted then actOnHeld (modHub (fun h => { h with halted := false, lastKick := s.now }) s) else s)

/-- What the TAP captures under an instruction (Table 18.1): the width of the data register that it selects, and its value. Every opcode that the
table does not name selects BYPASS. -/
def tapCapture (s : State) (ir : Nat) : Nat × Nat :=
  let d := s.dbg
  match ir with
  | 0x00 | 0x02 => (d.scan.length, (d.scan.zipIdx.map (fun (x : Bool × Nat) => b2n x.1 * 2 ^ x.2)).sum)
  | 0x01 => (32, 0x13280A5B)
  | 0x20 => (2560, leNat d.token)
  | 0x21 => (96, d.addr * 2 ^ 48 + d.data * 2 ^ 16 + d.op * 2 ^ 12 + d.status)
  | 0x22 => (32, b2n s.hub.halted * 2 ^ 31)
  | 0x23 => (32, lifeState s + 4 * b2n (decide (debugScope s ≠ 0)) + 8 * b2n s.sec.tokenScope.isSome + 16 * debugScope s)
  | _ => (1, 0)

/-- EXTEST: the chain that was shifted in drives the pins. -/
def execExtest (chain : List Bool) (s : State) : Out := .next (modDbg (fun d => { d with scan := chain, extest := true }) s)
/-- SAMPLE/PRELOAD: the chain is loaded, and the pins are the device's. -/
def execSamplePreload (chain : List Bool) (s : State) : Out := .next (modDbg (fun d => { d with scan := chain, extest := false }) s)

end Sys2Proof.Machine
end

