-- ==== Sys2Proof/Machine/Issue.lean ====
section
/-!
DEFINITION. The issue of a stroke (5.3, 5.5): the rotating choice among the ready runners of a core, and the strokes of Tables 5.8, 6.8, 7.5 and
7.7 as commands.
-/
namespace Sys2Proof.Machine

/-! ### The choice of a runner (R198, R199) -/

/-- Can a runner issue its head stroke: ready, no relay stage, not held by its core, and not stalled on a ring or a unit? -/
def runnable (k : Nat) (s : State) : Bool :=
  match headOf (getRunner s k) with
  | none => false
  | some w => ready k w s && !sRelay w && !strokeHeld k w s && (strokeEffect k w s).isSome

/-- Runners of a core of a kind (Table 5.8). -/
def runnersOf (kind : Nat) : Nat := if kind = 1 then 8 else 4

/-- Is it this runner's turn: no runner that comes before it, in the order that begins after the one that issued last on the core, can issue? -/
def myTurn (k : Nat) (s : State) : Bool :=
  let n := runnersOf (noKind k)
  let first := kvGet (fun _ => 0) (getCluster s (noCluster k)).lastIssue (coreNo k)
  let rank := fun r => (r + n - first % n) % n
  (List.range n).all (fun r => decide (rank (noRunner k) ≤ rank r) || !runnable (coreNo k * 8 + r) s)

/-- Issue a stroke that carries the unit and opcode of its row, when its runner is the one that its core chooses. -/
def issueAs (unit op : Nat) (r : RunnerRef) (w : StrokeWord) (eff : Nat → StrokeWord → State → Option StrokeOut)
    (s : State) : Out :=
  .next (if isOp w unit op && myTurn (refNo r) s then issue r w eff s else s)

/-! ### Common strokes (Table 5.8) -/

def execCommonNop (r : RunnerRef) (w : BitVec 128) (s : State) : Out := issueAs 3 0 r w nopEffect s
def execLapEnd (r : RunnerRef) (w : BitVec 128) (s : State) : Out := issueAs 3 1 r w lapEndEffect s
def execDelay (r : RunnerRef) (w : BitVec 128) (s : State) : Out := issueAs 3 2 r w delayEffect s

/-! ### M-core strokes (Table 6.8) -/

/-- MSETB: address bases (Table 6.10). -/
def execMsetb (r : RunnerRef) (w : BitVec 128) (s : State) : Out := issueAs 0 0x08 r w msetbEffect s
/-- MLDA: activation tiles (Table 6.11). -/
def execMlda (r : RunnerRef) (w : BitVec 128) (s : State) : Out := issueAs 0 0x10 r w (mEffect mldaEffect) s
/-- MLDS: row scales (Table 6.12). -/
def execMlds (r : RunnerRef) (w : BitVec 128) (s : State) : Out := issueAs 0 0x11 r w (mEffect mldsEffect) s
/-- MPASS (Table 6.13). -/
def execMpass (r : RunnerRef) (w : BitVec 128) (faulty : List (Nat × Nat)) (s : State) : Out :=
  issueAs 0 0x20 r w (mEffect (mpassEffect faulty)) s
/-- MACL: accumulator entries (Table 6.14). -/
def execMacl (r : RunnerRef) (w : BitVec 128) (s : State) : Out := issueAs 0 0x30 r w (mEffect maclEffect) s
/-- MWB: write-back (Table 6.15). -/
def execMwb (r : RunnerRef) (w : BitVec 128) (s : State) : Out := issueAs 0 0x40 r w (mEffect mwbEffect) s

/-! ### V-core strokes (Table 7.5) -/

def execVadd (r : RunnerRef) (w : BitVec 128) (parity : Option (Nat × Nat)) (s : State) : Out :=
  issueAs 1 0x01 r w (vEffect parity (binEffect vaddLane)) s
def execVsub (r : RunnerRef) (w : BitVec 128) (parity : Option (Nat × Nat)) (s : State) : Out := issueAs 1 0x02 r w (vEffect parity (binEffect vsubLane)) s
def execVmul (r : RunnerRef) (w : BitVec 128) (parity : Option (Nat × Nat)) (s : State) : Out := issueAs 1 0x03 r w (vEffect parity (binEffect vmulLane)) s
def execVfma (r : RunnerRef) (w : BitVec 128) (parity : Option (Nat × Nat)) (s : State) : Out := issueAs 1 0x04 r w (vEffect parity vfmaEffect) s
def execVmax (r : RunnerRef) (w : BitVec 128) (parity : Option (Nat × Nat)) (s : State) : Out := issueAs 1 0x05 r w (vEffect parity (binEffect vmaxLane)) s
def execVmin (r : RunnerRef) (w : BitVec 128) (parity : Option (Nat × Nat)) (s : State) : Out := issueAs 1 0x06 r w (vEffect parity (binEffect vminLane)) s
def execVabs (r : RunnerRef) (w : BitVec 128) (parity : Option (Nat × Nat)) (s : State) : Out := issueAs 1 0x07 r w (vEffect parity (unEffect vabsLane)) s
def execVneg (r : RunnerRef) (w : BitVec 128) (parity : Option (Nat × Nat)) (s : State) : Out := issueAs 1 0x08 r w (vEffect parity (unEffect vnegLane)) s
def execVand (r : RunnerRef) (w : BitVec 128) (parity : Option (Nat × Nat)) (s : State) : Out :=
  issueAs 1 0x09 r w (vEffect parity (binEffect (fun _ a b => a &&& b))) s
def execVor (r : RunnerRef) (w : BitVec 128) (parity : Option (Nat × Nat)) (s : State) : Out :=
  issueAs 1 0x0A r w (vEffect parity (binEffect (fun _ a b => a ||| b))) s
def execVxor (r : RunnerRef) (w : BitVec 128) (parity : Option (Nat × Nat)) (s : State) : Out :=
  issueAs 1 0x0B r w (vEffect parity (binEffect (fun _ a b => a ^^^ b))) s
def execVshift (r : RunnerRef) (w : BitVec 128) (parity : Option (Nat × Nat)) (s : State) : Out := issueAs 1 0x0C r w (vEffect parity vshiftEffect) s
def execVcmp (r : RunnerRef) (w : BitVec 128) (parity : Option (Nat × Nat)) (s : State) : Out := issueAs 1 0x0D r w (vEffect parity vcmpEffect) s
def execVsel (r : RunnerRef) (w : BitVec 128) (parity : Option (Nat × Nat)) (s : State) : Out := issueAs 1 0x0E r w (vEffect parity vselEffect) s
def execVrot (r : RunnerRef) (w : BitVec 128) (parity : Option (Nat × Nat)) (s : State) : Out := issueAs 1 0x0F r w (vEffect parity vrotEffect) s
def execVcvt (r : RunnerRef) (w : BitVec 128) (parity : Option (Nat × Nat)) (s : State) : Out := issueAs 1 0x10 r w (vEffect parity vcvtEffect) s
def execVrgen (r : RunnerRef) (w : BitVec 128) (parity : Option (Nat × Nat)) (s : State) : Out := issueAs 1 0x11 r w (vEffect parity vrgenEffect) s
def execVexp (r : RunnerRef) (w : BitVec 128) (parity : Option (Nat × Nat)) (s : State) : Out := issueAs 1 0x20 r w (vEffect parity (vxuEffect vexp)) s
def execVlog (r : RunnerRef) (w : BitVec 128) (parity : Option (Nat × Nat)) (s : State) : Out := issueAs 1 0x21 r w (vEffect parity (vxuEffect vlog)) s
def execVrsq (r : RunnerRef) (w : BitVec 128) (parity : Option (Nat × Nat)) (s : State) : Out := issueAs 1 0x22 r w (vEffect parity (vxuEffect vrsq)) s
def execVrcp (r : RunnerRef) (w : BitVec 128) (parity : Option (Nat × Nat)) (s : State) : Out := issueAs 1 0x23 r w (vEffect parity (vxuEffect vrcp)) s
def execVtanh (r : RunnerRef) (w : BitVec 128) (parity : Option (Nat × Nat)) (s : State) : Out := issueAs 1 0x24 r w (vEffect parity (vxuEffect vtanh)) s
def execVrsum (r : RunnerRef) (w : BitVec 128) (parity : Option (Nat × Nat)) (s : State) : Out := issueAs 1 0x30 r w (vEffect parity vrsumEffect) s
def execVrmax (r : RunnerRef) (w : BitVec 128) (parity : Option (Nat × Nat)) (s : State) : Out := issueAs 1 0x31 r w (vEffect parity vrmaxEffect) s
def execVrmin (r : RunnerRef) (w : BitVec 128) (parity : Option (Nat × Nat)) (s : State) : Out := issueAs 1 0x32 r w (vEffect parity vrminEffect) s
def execVperm (r : RunnerRef) (w : BitVec 128) (parity : Option (Nat × Nat)) (s : State) : Out := issueAs 1 0x38 r w (vEffect parity vpermEffect) s
def execVbcast (r : RunnerRef) (w : BitVec 128) (parity : Option (Nat × Nat)) (s : State) : Out := issueAs 1 0x39 r w (vEffect parity vbcastEffect) s
def execVld (r : RunnerRef) (w : BitVec 128) (parity : Option (Nat × Nat)) (s : State) : Out := issueAs 1 0x40 r w (vEffect parity vldEffect) s
def execVst (r : RunnerRef) (w : BitVec 128) (parity : Option (Nat × Nat)) (s : State) : Out := issueAs 1 0x41 r w (vEffect parity vstEffect) s
def execVgath (r : RunnerRef) (w : BitVec 128) (parity : Option (Nat × Nat)) (s : State) : Out := issueAs 1 0x42 r w (vEffect parity vgathEffect) s
def execVscat (r : RunnerRef) (w : BitVec 128) (parity : Option (Nat × Nat)) (s : State) : Out := issueAs 1 0x43 r w (vEffect parity vscatEffect) s
def execVsetb (r : RunnerRef) (w : BitVec 128) (s : State) : Out := issueAs 1 0x50 r w (vPlain vsetbEffect) s
def execVsetk (r : RunnerRef) (w : BitVec 128) (s : State) : Out := issueAs 1 0x51 r w (vPlain vsetkEffect) s
def execVsetc (r : RunnerRef) (w : BitVec 128) (s : State) : Out := issueAs 1 0x52 r w (vPlain vsetcEffect) s
def execVsetm (r : RunnerRef) (w : BitVec 128) (s : State) : Out := issueAs 1 0x53 r w (vPlain vsetmEffect) s
def execVadamw (r : RunnerRef) (w : BitVec 128) (parity : Option (Nat × Nat)) (s : State) : Out := issueAs 1 0x60 r w (vEffect parity (optEffect true)) s
def execVsgdm (r : RunnerRef) (w : BitVec 128) (parity : Option (Nat × Nat)) (s : State) : Out := issueAs 1 0x61 r w (vEffect parity (optEffect false)) s

/-! ### S-core strokes (Table 7.7) -/

def execSalu (r : RunnerRef) (w : BitVec 128) (parity : Option Nat) (s : State) : Out :=
  issueAs 2 0x01 r w (sEffect parity saluEffect) s
def execSli (r : RunnerRef) (w : BitVec 128) (s : State) : Out := issueAs 2 0x02 r w (sPlain sliEffect) s
def execSget (r : RunnerRef) (w : BitVec 128) (s : State) : Out := issueAs 2 0x03 r w (sPlain sgetEffect) s
def execSld (r : RunnerRef) (w : BitVec 128) (parity : Option Nat) (s : State) : Out := issueAs 2 0x10 r w (sEffect parity sldEffect) s
def execSst (r : RunnerRef) (w : BitVec 128) (parity : Option Nat) (s : State) : Out := issueAs 2 0x11 r w (sEffect parity sstEffect) s
def execSpush (r : RunnerRef) (w : BitVec 128) (parity : Option Nat) (s : State) : Out := issueAs 2 0x12 r w (sEffect parity spushEffect) s
def execSidx (r : RunnerRef) (w : BitVec 128) (parity : Option Nat) (s : State) : Out := issueAs 2 0x13 r w (sEffect parity sidxEffect) s
def execSsetb (r : RunnerRef) (w : BitVec 128) (parity : Option Nat) (s : State) : Out := issueAs 2 0x14 r w (sEffect parity ssetbEffect) s
def execSskip (r : RunnerRef) (w : BitVec 128) (parity : Option Nat) (s : State) : Out := issueAs 2 0x20 r w (sEffect parity sskipEffect) s
def execSloop (r : RunnerRef) (w : BitVec 128) (parity : Option Nat) (s : State) : Out := issueAs 2 0x21 r w (sEffect parity sloopEffect) s
def execSarrive (r : RunnerRef) (w : BitVec 128) (parity : Option Nat) (s : State) : Out := issueAs 2 0x30 r w (sEffect parity sarriveEffect) s
def execSwait (r : RunnerRef) (w : BitVec 128) (parity : Option Nat) (s : State) : Out := issueAs 2 0x31 r w (sEffect parity swaitEffect) s
def execSreset (r : RunnerRef) (w : BitVec 128) (s : State) : Out := issueAs 2 0x32 r w (sPlain sresetEffect) s
def execShread (r : RunnerRef) (w : BitVec 128) (s : State) : Out := issueAs 2 0x33 r w (sPlain shreadEffect) s
def execShtarget (r : RunnerRef) (w : BitVec 128) (parity : Option Nat) (s : State) : Out := issueAs 2 0x34 r w (sEffect parity shtargetEffect) s
def execSxfer (r : RunnerRef) (w : BitVec 128) (parity : Option Nat) (s : State) : Out := issueAs 2 0x40 r w (sEffect parity sxferEffect) s

end Sys2Proof.Machine
end

