-- ==== Sys2Proof/Machine/Pace.lean ====
section
/-!
DEFINITION. The pace unit (chapter 3): ticks, tick headers, start lines, and the starting block.
-/
namespace Sys2Proof.Machine

/-- Does the pace unit run (PACE_CTRL.ENABLE)? -/
def paceOn (s : State) : Bool := getB s 0x400 0
/-- P in µs as in effect. -/
def periodUs (s : State) : Nat := getF s 0x404 0 11
/-- Is WINDOW clipped (R89)? Both in units of 10 ns. -/
def windowClipped (s : State) : Bool := decide (50 * periodUs s ≤ windowField s)
/-- The hold window in ns: WINDOW, or P ÷ 2 where it is that much or more (R89). -/
def windowTime (s : State) : Nat := 10 * (if windowClipped s then 50 * periodUs s else windowField s)
/-- Is the device the pace master, or one of a system of one? -/
def paceMaster (s : State) : Bool := getB s 0x40C 30 || decide (topoKind s = 0)
/-- HOLD_LIMIT as it acts (Table 3.1). -/
def holdLimit (s : State) : Nat := max 1 (getF s 0x400 16 8)

/-! ### The tick -/

/-- The pace number advances (R87), and the flags of the new pace are clear. -/
def advancePace (s : State) : State :=
  let n := (paceNumber s + 1) % 2 ^ 48
  let s := setF 0x414 0 16 (n / 2 ^ 32) (setReg 0x410 (BitVec.ofNat 32 n) s)
  modPace (fun p => { p with
    startPassed := false, raisedHold := false, raisedDiscord := false, gotHold := false, gotDiscord := false
    sentHold := false, sentDiscord := false, origin := none, leaving := false, lapStarted := none }) s

/-- A job's lap overran too many ticks: it ends, its outputs blotted (R106, R109). -/
def stallJob (j : Job) (s : State) : State :=
  let s := report 0x301 (oHub 1 0) (if j.system then fnDevice else j.fn) (j.next - 1) s
  if j.system ∧ topoKind s ≠ 0 then endJob j (fun f => { f with leftSystem := true }) true s
  else endJob j (fun f => { f with lapStall := true }) true s

/-- Set CONSEC_HOLDS. -/
def setConsec (n : Nat) (s : State) : State := setF 0x40C 16 8 n s

/-- The device raises HOLD in this pace. -/
def raiseHold (s : State) : State := modPace (fun p => { p with raisedHold := true, origin := some (ownCoord s) }) s

/-- The system job at a tick: HOLD while its lap is not done (R101), LEAVE past HOLD_LIMIT (R106), HOLD without a count while it is halted (R748). -/
def tickSystem (s : State) : State :=
  match systemJob s with
  | none => setConsec 0 s
  | some j =>
    if s.pace.leave || s.hub.leaveNext then setConsec 0 s
    else if j.running then
      let c := getF s 0x40C 16 8
      if holdLimit s ≤ c then stallJob j (setConsec 0 s)
      else raiseHold (addReg 0x424 1 (setConsec (c + 1) s))
    else if j.halted && !jobWants j then raiseHold (setConsec 0 s)
    else setConsec 0 s

/-- The local jobs at a tick: one whose lap is not done is held (R109), and ends with LAP_STALL at HOLD_LIMIT. -/
def tickLocal (s : State) : State :=
  (s.jobs.filter (fun j => !j.system)).foldl (fun s j =>
    if !j.running then modJob j.fn j.sched (fun x => { x with consec := 0 }) s
    else if holdLimit s ≤ j.consec then stallJob j s
    else modJob j.fn j.sched (fun x => { x with consec := x.consec + 1 }) s) s

/-- Is a local job held at the next start line: by its lap, or halted (R109, R748)? -/
def heldLocally (j : Job) : Bool := !j.system && (decide (0 < j.consec) || (j.halted && !jobWants j))

/-- The firmware switch that is due at the boundary of pace n. -/
def dueSwitch (n : Nat) (s : State) : Option Staged :=
  s.hub.staged.find? (fun x => decide (x.what = .fwSwitch) && dueAt n x)

/-- Steps 1 and 2 of Table 15.7 at the tick of pace n: a switch whose firmware is ready takes place at this start line; firmware that runs
gets ready for one of the next pace. -/
def tickSwitch (n : Nat) (s : State) : State :=
  let ok := getB s 0x708 26
  let s := modPace (fun p => { p with switching := ok && (dueSwitch n s).isSome }) s
  if firmwareActs s && (dueSwitch (n + 1) s).isSome then setB 0x708 26 true s else s

/-- Does the device know at the tick that its start line is no pace boundary (R91, R128)? -/
def noBoundary (s : State) : Bool := s.pace.raisedHold || s.jobs.any (fun j => j.running || heldLocally j)

/-- The configuration commands that take effect at the start line of pace n if it is a boundary: those due at its tick, while firmware acts. One
that comes after the tick waits for the next boundary, for this pace's digest does not count it in (R128). -/
def latchConfigs (n : Nat) (s : State) : State :=
  modPace (fun p => { p with taking := if firmwareActs s then dueConfigs n s else [] }) s

/-- The digest that the header of pace n carries (R128): that after the changes due at its start line, unless that is no boundary. -/
def tickDigest (n : Nat) (s : State) : Nat :=
  if noBoundary s then digestNow s
  else
    digestOf (if s.pace.switching then reg64 s 0x714 else fwVersion s) (listsOf (takeConfigs n s.pace.taking s)) (digestScheds s) (shapeByte s)

/-- The tick ends the pace of the laps that are under way or done: their slacks count from it (R100). -/
def tickSlacks (s : State) : State :=
  let s := s.pace.slacks.foldl (fun s x => keepSlack x.1 x.2.1 (((s.pace.lastTick : Int) - x.2.2.1) / 10) x.2.2.2 s) s
  let s := modPace (fun p => { p with slacks := [] }) s
  { s with jobs := s.jobs.map (fun j => if j.running && j.due.isNone then { j with due := some s.pace.lastTick } else j) }

/-- LAP_INDEX: the index of the system job's next lap, 0 of a loaded one not started, all ones without one. -/
def lapIndexNow (s : State) : Nat :=
  match systemJob s with
  | some j => j.next
  | none => if systemLoaded s then 0 else 0xFFFFFFFF

/-- A header of this pace, of the device's own flags (Table 3.4). -/
def ownHeader (s : State) : TickHeader :=
  let n := if paceMaster s || getB s 0x608 31 then paceNumber s else 2 ^ 48 - 1
  { hold := s.pace.raisedHold || s.pace.gotHold, discord := s.pace.raisedDiscord || s.pace.gotDiscord, forwarded := false
    leave := s.pace.leaving, hops := 0, pace := n, lapIndex := (rawReg s 0x418).toNat, periodUs := periodUs s, digest := s.pace.digest
    sender := ownCoord s, origin := s.pace.origin }

/-- LEAVE is set in this pace's header, and HOLD is clear (R106); a device that leaves for a late flag records it (R107). -/
def tickLeave (s : State) : State :=
  if !(s.pace.leave || s.hub.leaveNext) then s
  else
    let s := match s.pace.late with
      | none => s
      | some l => report 0x302 (oHub 1 0) fnDevice l s
    modHub (fun h => { h with leaveNext := false })
      (modPace (fun p => { p with leave := false, leaving := true, late := none, raisedHold := false, origin := none }) s)

/-- The tick marker of a port (R563): the first flit after the tick carries it; when it starts within its 25.6 ns is free (log 37). -/
def markTick (p : Nat) (s : State) : State := sendIdle p true ((Config.freeValue s.frees).toNat % 512) (bumpFree s)

/-- Everything of a tick, at the time that `now` has. -/
def tickBody (s : State) : State :=
  let s := advancePace (tickSlacks { s with pace := { s.pace with lastTick := s.now } })
  let n := paceNumber s
  let s := latchConfigs n (tickSwitch n (tickLeave (tickLocal (tickSystem s))))
  let d := tickDigest n s
  let s := setReg64 0x41C d (modPace (fun p => { p with digest := d }) s)
  let s := setReg 0x418 (BitVec.ofNat 32 (lapIndexNow s)) s
  let s := { s with links := { s.links with marked := false } }
  let s := (servicePorts s).foldl (fun s p => markTick p s) (emit .paceOut s)
  let h := ownHeader s
  let s := modPace (fun p => { p with sentHold := h.hold }) s
  sendTopo (sendAll none (.tick h) s)

/-- TICK (R85): the pace timer of a device that does not tick on PACE_IN. -/
def execTick (s : State) : Out :=
  .next (if !paceOn s || wired s then s
    else tickBody { s with now := max s.now (s.pace.lastTick + 1000 * periodUs s) })

/-- PACE_IN_EDGE (R94, R571): an edge ticks a device with WIRED set, and counts towards ALIGNED; an early one is ignored and counted. -/
def execPaceInEdge (t : Nat) (s : State) : Out :=
  .next (
    let s := { s with now := max s.now t }
    if !paceOn s || !wired s then s
    else if s.now + 1000 < s.pace.lastTick + 1000 * periodUs s then addReg 0x430 1 s
    else
      let s := tickBody s
      if paceMaster s then s else alignStep true s)

/-- PACE_MISSING (R94): no edge by P + 1 µs; the device ticks by itself and records it. -/
def execPaceMissing (s : State) : Out :=
  .next (if !paceOn s || !wired s then s
    else
      let s := tickBody { s with now := max s.now (s.pace.lastTick + 1000 * periodUs s + 1000) }
      report 0x304 (oHub 1 0) fnDevice 0 (if paceMaster s then s else alignStep false s))

/-! ### Tick headers (R98, R102, R107, R129, R131) -/

/-- The lower of two coordinates, either absent (R97). -/
def lowerCoord (a b : Option Nat) : Option Nat :=
  match a, b with
  | none, x => x
  | x, none => x
  | some x, some y => some (min x y)

/-- A flag that comes after the start line (R107): counted, and a device that has started a lap in this pace leaves once that lap is complete, or
now where it is complete already. -/
def lateFlags (hold dis : Bool) (s : State) : State :=
  let s := addReg 0x430 (b2n hold + b2n dis) s
  match s.pace.lapStarted with
  | none => s
  | some lap =>
    let s := modPace (fun p => { p with late := some lap }) s
    match systemJob s with
    | none => modPace (fun p => { p with leave := true }) s
    | some j =>
      if j.running then modJob j.fn j.sched (fun x => { x with endAtLap := true, flags := { x.flags with leftSystem := true } }) s
      else endJob j (fun f => { f with leftSystem := true }) false s

/-- Discord after lap 0 has started is recorded once for each occurrence (R131). R131 does not say which ORIGIN coordinate the record has when
headers with lower ones follow. DESIGN CHOICE (log 7): the lowest that the device knows when it takes the pace's first discord header, its own
where it found the differing digest itself. -/
def recordDiscord (s : State) : State :=
  let started := ((systemJob s).map (fun j => decide (0 < j.next))).getD false
  if s.pace.discordOn || !started then s
  else
    report 0x303 (oPeer (s.pace.origin.getD (ownCoord s))) fnDevice (paceNumber s % 2 ^ 32) (modPace (fun p => { p with discordOn := true }) s)

/-- A header within the hold window: its flags are taken, and each flag not sent yet goes on along the other ports (R102). -/
def takeFlags (port : Nat) (h : TickHeader) (hold dis found : Bool) (s : State) : State :=
  let own := if found then some (ownCoord s) else none
  let s := modPace (fun p => { p with
    gotHold := p.gotHold || hold, gotDiscord := p.gotDiscord || dis, raisedDiscord := p.raisedDiscord || found
    origin := lowerCoord (lowerCoord p.origin own) h.origin }) s
  let s := if dis || found then recordDiscord s else s
  if (hold && !s.pace.sentHold) || ((dis || found) && !s.pace.sentDiscord) then
    let o := ownHeader s
    let s := modPace (fun p => { p with sentHold := p.sentHold || o.hold, sentDiscord := p.sentDiscord || o.discord }) s
    sendAll (some port) (.tick { o with forwarded := true, hops := min 255 (h.hops + 1) }) s
  else s

/-- A header is taken (R98): one of another pace number or period counts as carrying DISCORD; one of another digest raises discord (R129); LEAVE is
a departure (R582). A header that differs in its digest and comes after the start line counts as a late DISCORD flag under R107, and is neither
forwarded nor recorded as discord. DESIGN CHOICE (log 8): R129 names no time, and the hold window in which R102 forwards is over. -/
def takeHeader (port : Nat) (h : TickHeader) (s : State) : State :=
  let s := modPort port (fun x => { x with farPace := some h.pace }) s
  let s := if s.links.needPace && followerPort s == some port && decide (h.pace ≠ 2 ^ 48 - 1) then
      let s := setF 0x414 0 16 (h.pace / 2 ^ 32) (setReg 0x410 (BitVec.ofNat 32 h.pace) s)
      { s with links := { s.links with needPace := false } }
    else s
  let dis := h.discord || decide (h.pace ≠ paceNumber s) || decide (h.periodUs ≠ periodUs s)
  let found := decide (h.digest ≠ s.pace.digest)
  let s := if h.leave then learnDeparture h.sender [0xFF] (some port) s else s
  if !h.hold && !dis && !found then s
  else if s.pace.startPassed then lateFlags h.hold (dis || found) s
  else takeFlags port h h.hold dis found s

def isTickPacket : PacketBody → Bool
  | .tick _ => true
  | _ => false

/-- TICK_HEADER_RECEIVE. -/
def execTickHeaderReceive (port : Fin 12) (s : State) : Out :=
  .next (takeVc0 port isTickPacket (fun k s => match k.body with
    | .tick h => takeHeader port h s
    | _ => s) s)

/-! ### The start line -/

/-- The changes of a pace boundary of pace n, in the order of R92, those of commands while firmware acts; core moves come with each job's lap. -/
def takeBoundary (n : Nat) (s : State) : State :=
  let acts := firmwareActs s
  let s := match (if s.pace.switching then dueSwitch n s else none) with
    | none => s
    | some x => beginSwitch n x s
  let s := takeRegs n (if acts then takeConfigs n (s.hub.staged.filter (fun x => s.pace.taking.contains x)) s else s)
  let s := setB 0x40C 24 (windowClipped s) s
  let s := if acts then takeUnits n s else s
  if firmwareActs s then (s.fns.map (fun (e : Nat × Fn) => e.1)).foldl (fun s f => if hasPool s f then spillCheck f s else s) s else s

/-- HELD, DISCORD and their counts (R110). -/
def showHeld (held dis : Bool) (s : State) : State :=
  let s := setB 0x40C 29 held (setB 0x40C 28 dis s)
  let s := if held then addReg 0x428 1 s else s
  let s := if dis then addReg 0x42C 1 s else s
  modPace (fun p => { p with discordOn := p.discordOn && dis }) s

/-- A job that is held through this pace: its holds are counted (R104, R109), and a VI's JOB vector fires (Table 4.12). -/
def holdJob (j : Job) (s : State) : State :=
  let s := if j.system then s else addReg (viPage j.fn + 0x20) 1 s
  let s := if j.fn = 0 then s else signal j.fn 25 s
  modJob j.fn j.sched (fun x => { x with holds := x.holds + 1 }) s

/-- A job halts at this lap boundary, and the command that asked for it is answered (R746). -/
def haltJob (j : Job) (s : State) : State :=
  let s := modJob j.fn j.sched (fun x => { x with halted := true, haltBy := none }) s
  match j.haltBy with
  | none => s
  | some h => finish h 0x15 stOk 0 j.next 0 s

/-- A job at a start line that is not held for it: it ends, halts, or starts the lap that it asks for (R90, R650, R746). A job of a VI in its
drain does none of these (Table 4.15). -/
def jobAtLine (j0 : Job) (s : State) : State :=
  match findJob s j0.fn j0.sched with
  | none => s
  | some j =>
    if j.running || resetting s j.fn then s
    else if j.stopBy.isSome then endJob j (fun f => { f with aborted := true }) false s
    else if j.endAtLap then endJob j id false s
    else
      let s := if !j.halted && (j.haltAt.map (fun l => decide (l ≤ j.next))).getD false then haltJob j s else s
      match findJob s j.fn j.sched with
      | none => s
      | some j =>
        if jobWants j && !(s.hub.booting.isSome && s.hub.switchBy.isNone) then startLap j s else s

/-- START_LINE (R88 to R92, R103, R109). R91 says both that a pace whose flags the device raised or received has no pace boundary and that every
start line is one while no job is loaded. DESIGN CHOICE (log 9): a flag bars the boundary with no job loaded too, as R130 has it for discord. -/
def execStartLine (s : State) : Out :=
  .next (if !paceOn s || s.pace.startPassed then s
    else
      let line := s.pace.lastTick + windowTime s
      let s := modPace (fun p => { p with startPassed := true, lineAt := line }) { s with now := max s.now line }
      let n := paceNumber s
      let dis := s.pace.raisedDiscord || s.pace.gotDiscord
      let held := s.pace.raisedHold || s.pace.gotHold || dis
      let s := showHeld held dis s
      let s := if held || s.jobs.any (fun j => j.running || heldLocally j) then s else takeBoundary n s
      let s := s.jobs.foldl (fun s j => if (j.system && held) || heldLocally j then holdJob j s else jobAtLine j s) s
      (List.range 64).foldl (fun s c => evalCeil c s) s)

/-! ### The starting block (3.5) -/

/-- Is cycle n of 32 permitted at a permitted count (R113): is the 5-bit reversal of n below it? -/
def rampPermits (count n : Nat) : Bool := decide ((bits n 0 1 * 16 + bits n 1 1 * 8 + bits n 2 1 * 4 + bits n 3 1 * 2 + bits n 4 1) < count)

/-- CLUSTER_FIRST_ISSUE (R111): the cluster of a lap that has started issues from the start line plus 32 ns × (c mod 16). -/
def execClusterFirstIssue (c : Fin 64) (s : State) : Out :=
  .next (
    let runs := ((jobOf s c).map (fun j => j.running)).getD false
    if !runs || (getCluster s c).started then s
    else
      let s := { s with now := max s.now (s.pace.lineAt + 32 * (c.val % 16)) }
      modCluster c (fun x => { x with started := true, firstIssue := s.now, lastDone := s.now, ramp := 8, free := false }) s)

/-- RAMP_INTERVAL (R112): three more of 32 cycles are permitted; after the eighth interval all are. -/
def execRampInterval (c : Fin 64) (s : State) : Out :=
  .next (if (getCluster s c).started then modCluster c (fun x => { x with ramp := min 32 (x.ramp + 3) }) s else s)

/-- RAMP_RESTART (R114): after 1,024 cycles without weight data the cluster ramps again. -/
def execRampRestart (c : Fin 64) (s : State) : Out :=
  .next (if (getCluster s c).started then modCluster c (fun x => { x with ramp := 8 }) s else s)

end Sys2Proof.Machine
end

