-- ==== Sys2Proof/Machine/Dispatch.lean ====
section
/-!
DEFINITION. One arm per command: its meaning.
-/
namespace Sys2Proof.Machine

/-- The meaning of a command. -/
def exec (i : Instr) (s : State) : Host.Outcome State Fault Refusal :=
  match i with
  | .tick => Sys2Proof.Machine.execTick s
  | .startLine => Sys2Proof.Machine.execStartLine s
  | .clusterFirstIssue c => Sys2Proof.Machine.execClusterFirstIssue c s
  | .rampInterval c => Sys2Proof.Machine.execRampInterval c s
  | .rampRestart c => Sys2Proof.Machine.execRampRestart c s
  | .lapDone job t => Sys2Proof.Machine.execLapDone job t s
  | .tickHeaderReceive port => Sys2Proof.Machine.execTickHeaderReceive port s
  | .paceInEdge t => Sys2Proof.Machine.execPaceInEdge t s
  | .paceMissing => Sys2Proof.Machine.execPaceMissing s
  | .paceCountClear d => Sys2Proof.Machine.execPaceCountClear d s
  | .registerWrite q addr size data => Sys2Proof.Machine.execRegisterWrite q addr size data s
  | .blkLock q block d => Sys2Proof.Machine.execBlkLock q block d s
  | .loReadLatch q off size => Sys2Proof.Machine.execLoReadLatch q off size s
  | .afBar2BaseApply d => Sys2Proof.Machine.execAfBar2BaseApply d s
  | .warmReset => Sys2Proof.Machine.execWarmReset s
  | .sqDoorbell fn pair d => Sys2Proof.Machine.execSqDoorbell fn pair d s
  | .cqHeadDoorbell fn pair d => Sys2Proof.Machine.execCqHeadDoorbell fn pair d s
  | .commandDispatch => Sys2Proof.Machine.execCommandDispatch s
  | .commandWaitRelease => Sys2Proof.Machine.execCommandWaitRelease s
  | .firmwareInboxServe => Sys2Proof.Machine.execFirmwareInboxServe s
  | .statusReplyWrite => Sys2Proof.Machine.execStatusReplyWrite s
  | .cqCoalTimeout fn pair t => Sys2Proof.Machine.execCqCoalTimeout fn pair t s
  | .nop h => Sys2Proof.Machine.execNop h s
  | .createQueue h q => Sys2Proof.Machine.execCreateQueue h q s
  | .deleteQueue h pair => Sys2Proof.Machine.execDeleteQueue h pair s
  | .flushQueue h pair => Sys2Proof.Machine.execFlushQueue h pair s
  | .viCreate h vi payload => Sys2Proof.Machine.execViCreate h vi payload s
  | .viDestroy h vi => Sys2Proof.Machine.execViDestroy h vi s
  | .viReset h vi => Sys2Proof.Machine.execViReset h vi s
  | .viQuery h dst vi => Sys2Proof.Machine.execViQuery h dst vi s
  | .loadSchedule h image len => Sys2Proof.Machine.execLoadSchedule h image len s
  | .unloadSchedule h sched => Sys2Proof.Machine.execUnloadSchedule h sched s
  | .startJob h sched laps mode kind => Sys2Proof.Machine.execStartJob h sched laps mode kind s
  | .launchLap h sched count => Sys2Proof.Machine.execLaunchLap h sched count s
  | .stopJob h sched => Sys2Proof.Machine.execStopJob h sched s
  | .haltAtLap h sched lap => Sys2Proof.Machine.execHaltAtLap h sched lap s
  | .hurdleArrive h count hurdle => Sys2Proof.Machine.execHurdleArrive h count hurdle s
  | .hurdleWait h hurdle => Sys2Proof.Machine.execHurdleWait h hurdle s
  | .copy h src dst len host => Sys2Proof.Machine.execCopy h src dst len host s
  | .fill h dst len pattern => Sys2Proof.Machine.execFill h dst len pattern s
  | .retiredPagesRead h dst max => Sys2Proof.Machine.execRetiredPagesRead h dst max s
  | .kvPoolSet h base pages pageBytes => Sys2Proof.Machine.execKvPoolSet h base pages pageBytes s
  | .kvSeqCreate h seq layers => Sys2Proof.Machine.execKvSeqCreate h seq layers s
  | .kvSeqFork h src dst tokens => Sys2Proof.Machine.execKvSeqFork h src dst tokens s
  | .kvSeqFree h seq => Sys2Proof.Machine.execKvSeqFree h seq s
  | .kvSpillPolicy h farBase farPages high low => Sys2Proof.Machine.execKvSpillPolicy h farBase farPages high low s
  | .shardExport h dst len first count => Sys2Proof.Machine.execShardExport h dst len first count s
  | .shardImport h src len => Sys2Proof.Machine.execShardImport h src len s
  | .seedSet h seed step => Sys2Proof.Machine.execSeedSet h seed step s
  | .configBaseLoad h src len target => Sys2Proof.Machine.execConfigBaseLoad h src len target s
  | .overlayApply h src len target slot => Sys2Proof.Machine.execOverlayApply h src len target slot s
  | .overlayRemove h target slot => Sys2Proof.Machine.execOverlayRemove h target slot s
  | .configRead h dst len => Sys2Proof.Machine.execConfigRead h dst len s
  | .telemetrySnapshot h dst sets => Sys2Proof.Machine.execTelemetrySnapshot h dst sets s
  | .countersRead h dst cluster => Sys2Proof.Machine.execCountersRead h dst cluster s
  | .blotterRead h dst max => Sys2Proof.Machine.execBlotterRead h dst max s
  | .lifeRecordRead h dst len => Sys2Proof.Machine.execLifeRecordRead h dst len s
  | .powerCapSet h target watts => Sys2Proof.Machine.execPowerCapSet h target watts s
  | .powerPlanSet h sched compute memory link floorStep => Sys2Proof.Machine.execPowerPlanSet h sched compute memory link floorStep s
  | .park h => Sys2Proof.Machine.execPark h s
  | .unpark h => Sys2Proof.Machine.execUnpark h s
  | .unitOut h target unit => Sys2Proof.Machine.execUnitOut h target unit s
  | .unitIn h target unit => Sys2Proof.Machine.execUnitIn h target unit s
  | .unitTestDone kind index failed sweep => Sys2Proof.Machine.execUnitTestDone kind index failed sweep s
  | .marchRun h first banks tower mode => Sys2Proof.Machine.execMarchRun h first banks tower mode s
  | .portRetrain h port => Sys2Proof.Machine.execPortRetrain h port s
  | .fwStage h src len => Sys2Proof.Machine.execFwStage h src len s
  | .fwSwitch h target => Sys2Proof.Machine.execFwSwitch h target s
  | .timeSet h utc => Sys2Proof.Machine.execTimeSet h utc s
  | .viFlr n => Sys2Proof.Machine.execViFlr n s
  | .afFlr => Sys2Proof.Machine.execAfFlr s
  | .viResetDrainDone n => Sys2Proof.Machine.execViResetDrainDone n s
  | .viScrubDone n => Sys2Proof.Machine.execViScrubDone n s
  | .viQ0Enable fn d => Sys2Proof.Machine.execViQ0Enable fn d s
  | .viCountClear fn d => Sys2Proof.Machine.execViCountClear fn d s
  | .quillFetch c => Sys2Proof.Machine.execQuillFetch c s
  | .strokeComplete r n => Sys2Proof.Machine.execStrokeComplete r n s
  | .commonNop r w => Sys2Proof.Machine.execCommonNop r w s
  | .lapEnd r w => Sys2Proof.Machine.execLapEnd r w s
  | .delay r w => Sys2Proof.Machine.execDelay r w s
  | .relayFire c id waits => Sys2Proof.Machine.execRelayFire c id waits s
  | .relayComplete c id => Sys2Proof.Machine.execRelayComplete c id s
  | .msetb r w => Sys2Proof.Machine.execMsetb r w s
  | .mlda r w => Sys2Proof.Machine.execMlda r w s
  | .mlds r w => Sys2Proof.Machine.execMlds r w s
  | .mpass r w faulty => Sys2Proof.Machine.execMpass r w faulty s
  | .macl r w => Sys2Proof.Machine.execMacl r w s
  | .mwb r w => Sys2Proof.Machine.execMwb r w s
  | .weightRowRequest c core => Sys2Proof.Machine.execWeightRowRequest c core s
  | .weightRowArrive c core stall => Sys2Proof.Machine.execWeightRowArrive c core stall s
  | .mcCountClear c core d => Sys2Proof.Machine.execMcCountClear c core d s
  | .vadd r w parity => Sys2Proof.Machine.execVadd r w parity s
  | .vsub r w p => Sys2Proof.Machine.execVsub r w p s
  | .vmul r w p => Sys2Proof.Machine.execVmul r w p s
  | .vfma r w p => Sys2Proof.Machine.execVfma r w p s
  | .vmax r w p => Sys2Proof.Machine.execVmax r w p s
  | .vmin r w p => Sys2Proof.Machine.execVmin r w p s
  | .vabs r w p => Sys2Proof.Machine.execVabs r w p s
  | .vneg r w p => Sys2Proof.Machine.execVneg r w p s
  | .vand r w p => Sys2Proof.Machine.execVand r w p s
  | .vor r w p => Sys2Proof.Machine.execVor r w p s
  | .vxor r w p => Sys2Proof.Machine.execVxor r w p s
  | .vshift r w p => Sys2Proof.Machine.execVshift r w p s
  | .vcmp r w p => Sys2Proof.Machine.execVcmp r w p s
  | .vsel r w p => Sys2Proof.Machine.execVsel r w p s
  | .vrot r w p => Sys2Proof.Machine.execVrot r w p s
  | .vcvt r w p => Sys2Proof.Machine.execVcvt r w p s
  | .vrgen r w p => Sys2Proof.Machine.execVrgen r w p s
  | .vexp r w p => Sys2Proof.Machine.execVexp r w p s
  | .vlog r w p => Sys2Proof.Machine.execVlog r w p s
  | .vrsq r w p => Sys2Proof.Machine.execVrsq r w p s
  | .vrcp r w p => Sys2Proof.Machine.execVrcp r w p s
  | .vtanh r w p => Sys2Proof.Machine.execVtanh r w p s
  | .vrsum r w p => Sys2Proof.Machine.execVrsum r w p s
  | .vrmax r w p => Sys2Proof.Machine.execVrmax r w p s
  | .vrmin r w p => Sys2Proof.Machine.execVrmin r w p s
  | .vperm r w p => Sys2Proof.Machine.execVperm r w p s
  | .vbcast r w p => Sys2Proof.Machine.execVbcast r w p s
  | .vld r w p => Sys2Proof.Machine.execVld r w p s
  | .vst r w p => Sys2Proof.Machine.execVst r w p s
  | .vgath r w p => Sys2Proof.Machine.execVgath r w p s
  | .vscat r w p => Sys2Proof.Machine.execVscat r w p s
  | .vsetb r w => Sys2Proof.Machine.execVsetb r w s
  | .vsetk r w => Sys2Proof.Machine.execVsetk r w s
  | .vsetc r w => Sys2Proof.Machine.execVsetc r w s
  | .vsetm r w => Sys2Proof.Machine.execVsetm r w s
  | .vadamw r w p => Sys2Proof.Machine.execVadamw r w p s
  | .vsgdm r w p => Sys2Proof.Machine.execVsgdm r w p s
  | .vcCountClear c core d => Sys2Proof.Machine.execVcCountClear c core d s
  | .scCountClear c core d => Sys2Proof.Machine.execScCountClear c core d s
  | .salu r w parity => Sys2Proof.Machine.execSalu r w parity s
  | .sli r w => Sys2Proof.Machine.execSli r w s
  | .sget r w => Sys2Proof.Machine.execSget r w s
  | .sld r w p => Sys2Proof.Machine.execSld r w p s
  | .sst r w p => Sys2Proof.Machine.execSst r w p s
  | .spush r w p => Sys2Proof.Machine.execSpush r w p s
  | .sidx r w p => Sys2Proof.Machine.execSidx r w p s
  | .ssetb r w p => Sys2Proof.Machine.execSsetb r w p s
  | .sskip r w p => Sys2Proof.Machine.execSskip r w p s
  | .sloop r w p => Sys2Proof.Machine.execSloop r w p s
  | .sarrive r w p => Sys2Proof.Machine.execSarrive r w p s
  | .swait r w p => Sys2Proof.Machine.execSwait r w p s
  | .sreset r w => Sys2Proof.Machine.execSreset r w s
  | .shread r w => Sys2Proof.Machine.execShread r w s
  | .shtarget r w p => Sys2Proof.Machine.execShtarget r w p s
  | .sxfer r w p => Sys2Proof.Machine.execSxfer r w p s
  | .transferComplete c => Sys2Proof.Machine.execTransferComplete c s
  | .hurdleOpApply n ops => Sys2Proof.Machine.execHurdleOpApply n ops s
  | .hdlCtrlReset n d => Sys2Proof.Machine.execHdlCtrlReset n d s
  | .hdlCtrlArrive n d => Sys2Proof.Machine.execHdlCtrlArrive n d s
  | .hurdlePacket port => Sys2Proof.Machine.execHurdlePacket port s
  | .bankAccess t lane cycle reqs => Sys2Proof.Machine.execBankAccess t lane cycle reqs s
  | .sramPatrolRow t errs => Sys2Proof.Machine.execSramPatrolRow t errs s
  | .bankWakeDone t bank => Sys2Proof.Machine.execBankWakeDone t bank s
  | .gets m tower line along => Sys2Proof.Machine.execGets m tower line along s
  | .getx m tower line whole along => Sys2Proof.Machine.execGetx m tower line whole along s
  | .writeBack m tower line along => Sys2Proof.Machine.execWriteBack m tower line along s
  | .homeExternalRead m fn addr along => Sys2Proof.Machine.execHomeExternalRead m fn addr along s
  | .homeExternalWrite m fn addr data blot along => Sys2Proof.Machine.execHomeExternalWrite m fn addr data blot along s
  | .recallS m tower line => Sys2Proof.Machine.execRecallS m tower line s
  | .recallInv m tower line => Sys2Proof.Machine.execRecallInv m tower line s
  | .invLine m tower line => Sys2Proof.Machine.execInvLine m tower line s
  | .recallNack m tower line => Sys2Proof.Machine.execRecallNack m tower line s
  | .wbAck m tower line => Sys2Proof.Machine.execWbAck m tower line s
  | .lineGrantArrive m tower line => Sys2Proof.Machine.execLineGrantArrive m tower line s
  | .marchStart q t d => Sys2Proof.Machine.execMarchStart q t d s
  | .marchDone t failing => Sys2Proof.Machine.execMarchDone t failing s
  | .cluBankClear c d => Sys2Proof.Machine.execCluBankClear c d s
  | .twrProtClear t d => Sys2Proof.Machine.execTwrProtClear t d s
  | .twrConfClear t d => Sys2Proof.Machine.execTwrConfClear t d s
  | .dirCountClear m d => Sys2Proof.Machine.execDirCountClear m d s
  | .pageAccess m ch arrivals errors cycles t => Sys2Proof.Machine.execPageAccess m ch arrivals errors cycles t s
  | .regionConvert found => Sys2Proof.Machine.execRegionConvert found s
  | .stackPatrolPass m t => Sys2Proof.Machine.execStackPatrolPass m t s
  | .mscEccClear m d => Sys2Proof.Machine.execMscEccClear m d s
  | .mscSrcClear m d => Sys2Proof.Machine.execMscSrcClear m d s
  | .farAccess fn by_ addr write poison fail => Sys2Proof.Machine.execFarAccess fn by_ addr write poison fail s
  | .cxlCompletionTimeout fn by_ addr => Sys2Proof.Machine.execCxlCompletionTimeout fn by_ addr s
  | .cxlDown p powerLost => Sys2Proof.Machine.execCxlDown p powerLost s
  | .cxlEvent p expander kind => Sys2Proof.Machine.execCxlEvent p expander kind s
  | .cxlCountClear p d => Sys2Proof.Machine.execCxlCountClear p d s
  | .nmuLaunch st u => Sys2Proof.Machine.execNmuLaunch st u s
  | .nmuNop st u e => Sys2Proof.Machine.execNmuNop st u e s
  | .nmuEnd st u e => Sys2Proof.Machine.execNmuEnd st u e s
  | .nmuYield st u e waitEven waitOdd => Sys2Proof.Machine.execNmuYield st u e waitEven waitOdd s
  | .nmuLoop st u e => Sys2Proof.Machine.execNmuLoop st u e s
  | .saddi st u e => Sys2Proof.Machine.execSaddi st u e s
  | .sadd st u e => Sys2Proof.Machine.execSadd st u e s
  | .sshl st u e => Sys2Proof.Machine.execSshl st u e s
  | .nopen st u e => Sys2Proof.Machine.execNopen st u e s
  | .nclr st u e => Sys2Proof.Machine.execNclr st u e s
  | .nwb st u e => Sys2Proof.Machine.execNwb st u e s
  | .nld st u e => Sys2Proof.Machine.execNld st u e s
  | .nldi st u e => Sys2Proof.Machine.execNldi st u e s
  | .nst st u e => Sys2Proof.Machine.execNst st u e s
  | .nres st u e => Sys2Proof.Machine.execNres st u e s
  | .nress st u e => Sys2Proof.Machine.execNress st u e s
  | .nmuVadd st u e => Sys2Proof.Machine.execNmuVadd st u e s
  | .nmuVsub st u e => Sys2Proof.Machine.execNmuVsub st u e s
  | .nmuVmul st u e => Sys2Proof.Machine.execNmuVmul st u e s
  | .nmuVfma st u e => Sys2Proof.Machine.execNmuVfma st u e s
  | .nmuVmax st u e => Sys2Proof.Machine.execNmuVmax st u e s
  | .vfmas st u e => Sys2Proof.Machine.execVfmas st u e s
  | .vmuls st u e => Sys2Proof.Machine.execVmuls st u e s
  | .vimm st u e => Sys2Proof.Machine.execVimm st u e s
  | .vtail st u e => Sys2Proof.Machine.execVtail st u e s
  | .hsum st u e => Sys2Proof.Machine.execHsum st u e s
  | .hmax st u e => Sys2Proof.Machine.execHmax st u e s
  | .hexp st u e => Sys2Proof.Machine.execHexp st u e s
  | .nmuTransferDone st u errors cycles naw => Sys2Proof.Machine.execNmuTransferDone st u errors cycles naw s
  | .nmuStackClear m d => Sys2Proof.Machine.execNmuStackClear m d s
  | .nmuCountClear m u d => Sys2Proof.Machine.execNmuCountClear m u d s
  | .attLaunch d waited => Sys2Proof.Machine.execAttLaunch d waited s
  | .nmuCompletion st u => Sys2Proof.Machine.execNmuCompletion st u s
  | .kvAppend d => Sys2Proof.Machine.execKvAppend d s
  | .pageRequest d => Sys2Proof.Machine.execPageRequest d s
  | .kvFetch d => Sys2Proof.Machine.execKvFetch d s
  | .kvDecode d => Sys2Proof.Machine.execKvDecode d s
  | .kvFill d => Sys2Proof.Machine.execKvFill d s
  | .attCountClear d w => Sys2Proof.Machine.execAttCountClear d w s
  | .attLabFlush d w => Sys2Proof.Machine.execAttLabFlush d w s
  | .collectiveFire => Sys2Proof.Machine.execCollectiveFire s
  | .collPacket port => Sys2Proof.Machine.execCollPacket port s
  | .collectiveComplete => Sys2Proof.Machine.execCollectiveComplete s
  | .colCountClear e d => Sys2Proof.Machine.execColCountClear e d s
  | .flitReceive port f t => Sys2Proof.Machine.execFlitReceive port f t s
  | .portNoFlitTimeout port t => Sys2Proof.Machine.execPortNoFlitTimeout port t s
  | .portStateDone port f => Sys2Proof.Machine.execPortStateDone port f s
  | .portStateTimeout port => Sys2Proof.Machine.execPortStateTimeout port s
  | .berWindow port => Sys2Proof.Machine.execBerWindow port s
  | .ident port => Sys2Proof.Machine.execIdent port s
  | .topo port => Sys2Proof.Machine.execTopo port s
  | .roleReq port => Sys2Proof.Machine.execRoleReq port s
  | .roleGrant port => Sys2Proof.Machine.execRoleGrant port s
  | .roleCancel port => Sys2Proof.Machine.execRoleCancel port s
  | .peerLost port => Sys2Proof.Machine.execPeerLost port s
  | .tickMarker port phase => Sys2Proof.Machine.execTickMarker port phase s
  | .markerMissing => Sys2Proof.Machine.execMarkerMissing s
  | .fjlCountClear port d => Sys2Proof.Machine.execFjlCountClear port d s
  | .fjsCountClear d => Sys2Proof.Machine.execFjsCountClear d s
  | .controlWindow w => Sys2Proof.Machine.execControlWindow w s
  | .vfTransition c => Sys2Proof.Machine.execVfTransition c s
  | .voltageSettled n mv => Sys2Proof.Machine.execVoltageSettled n mv s
  | .droopCrossing c => Sys2Proof.Machine.execDroopCrossing c s
  | .droopRelease c positions => Sys2Proof.Machine.execDroopRelease c positions s
  | .pmbusPoll readings => Sys2Proof.Machine.execPmbusPoll readings s
  | .pmbusGain pmbus converters => Sys2Proof.Machine.execPmbusGain pmbus converters s
  | .rinWindow n estimates => Sys2Proof.Machine.execRinWindow n estimates s
  | .vrAlert input asserted t => Sys2Proof.Machine.execVrAlert input asserted t s
  | .vrAlertRelease t => Sys2Proof.Machine.execVrAlertRelease t s
  | .sensorConversion n reading toggle => Sys2Proof.Machine.execSensorConversion n reading toggle s
  | .thmTrigger d => Sys2Proof.Machine.execThmTrigger d s
  | .tripSample hot => Sys2Proof.Machine.execTripSample hot s
  | .tripRestart t => Sys2Proof.Machine.execTripRestart t s
  | .coolantPoll readings => Sys2Proof.Machine.execCoolantPoll readings s
  | .rthHour x => Sys2Proof.Machine.execRthHour x s
  | .thermalCycleSecond t x => Sys2Proof.Machine.execThermalCycleSecond t x s
  | .thmRthReset d => Sys2Proof.Machine.execThmRthReset d s
  | .thmCountClear d => Sys2Proof.Machine.execThmCountClear d s
  | .pwrCountClear d => Sys2Proof.Machine.execPwrCountClear d s
  | .cluPwrClear c d => Sys2Proof.Machine.execCluPwrClear c d s
  | .blotterAccept => Sys2Proof.Machine.execBlotterAccept s
  | .recordClose t => Sys2Proof.Machine.execRecordClose t s
  | .bltCountClear d => Sys2Proof.Machine.execBltCountClear d s
  | .outOfService => Sys2Proof.Machine.execOutOfService s
  | .hubWdtKick d t => Sys2Proof.Machine.execHubWdtKick d t s
  | .watchdog t => Sys2Proof.Machine.execWatchdog t s
  | .fwReady => Sys2Proof.Machine.execFwReady s
  | .fwSwitchTimeout => Sys2Proof.Machine.execFwSwitchTimeout s
  | .lifeHour tj poweredSeconds joules => Sys2Proof.Machine.execLifeHour tj poweredSeconds joules s
  | .lifeDay => Sys2Proof.Machine.execLifeDay s
  | .coldBringup => Sys2Proof.Machine.execColdBringup s
  | .bringupStage f => Sys2Proof.Machine.execBringupStage f s
  | .farScrubDone p piece => Sys2Proof.Machine.execFarScrubDone p piece s
  | .brgRecGo d => Sys2Proof.Machine.execBrgRecGo d s
  | .secLcCtrl d => Sys2Proof.Machine.execSecLcCtrl d s
  | .tamper asserted => Sys2Proof.Machine.execTamper asserted s
  | .getVersion body => Sys2Proof.Machine.execGetVersion body s
  | .getCapabilities body => Sys2Proof.Machine.execGetCapabilities body s
  | .negotiateAlgorithms body => Sys2Proof.Machine.execNegotiateAlgorithms body s
  | .getDigests body => Sys2Proof.Machine.execGetDigests body s
  | .getCertificate body => Sys2Proof.Machine.execGetCertificate body s
  | .challenge body => Sys2Proof.Machine.execChallenge body s
  | .getMeasurements body => Sys2Proof.Machine.execGetMeasurements body s
  | .mctpControl body => Sys2Proof.Machine.execMctpControl body s
  | .setEventReceiver receiver => Sys2Proof.Machine.execSetEventReceiver receiver s
  | .pldmSensorRead sensor => Sys2Proof.Machine.execPldmSensorRead sensor s
  | .vpkgUndervoltage => Sys2Proof.Machine.execVpkgUndervoltage s
  | .vpkgRestart t => Sys2Proof.Machine.execVpkgRestart t s
  | .vauxLoss => Sys2Proof.Machine.execVauxLoss s
  | .pinReadback output level => Sys2Proof.Machine.execPinReadback output level s
  | .pinOffWrite d => Sys2Proof.Machine.execPinOffWrite d s
  | .pinCountClear d => Sys2Proof.Machine.execPinCountClear d s
  | .dbgToken token => Sys2Proof.Machine.execDbgToken token s
  | .dbgAccess update => Sys2Proof.Machine.execDbgAccess update s
  | .dbgAccessDone => Sys2Proof.Machine.execDbgAccessDone s
  | .dbgHalt => Sys2Proof.Machine.execDbgHalt s
  | .dbgResume => Sys2Proof.Machine.execDbgResume s
  | .extest chain => Sys2Proof.Machine.execExtest chain s
  | .samplePreload chain => Sys2Proof.Machine.execSamplePreload chain s
  | .cluTrcClear c d => Sys2Proof.Machine.execCluTrcClear c d s
  | .cluPerfClear c d => Sys2Proof.Machine.execCluPerfClear c d s
  | .bar2Access fn off size write => Sys2Proof.Machine.execBar2Access fn off size write s
  | .resizableBarSelect fn gib => Sys2Proof.Machine.execResizableBarSelect fn gib s
  | .vfEnableSet numVfs => Sys2Proof.Machine.execVfEnableSet numVfs s
  | .cxlLinkTrained p flit256 speed width => Sys2Proof.Machine.execCxlLinkTrained p flit256 speed width s
  | .refresh m ch bank t => Sys2Proof.Machine.execRefresh m ch bank t s
  | .verificationFail => Sys2Proof.Machine.execVerificationFail s

end Sys2Proof.Machine
end

