-- ==== Sys2Proof/Safety.lean ====
section
/-!
DEFINITION. What a run of the block keeps, in the terms that claims use: the canonical form of memory and of the register file, and what one step
may not do to time, to the queue and to the log.
-/
namespace Sys2Proof.Machine

/-- The canonical form of a memory: addresses strictly rising, and no entry equal to what an unlisted address reads as (0x00). -/
def Memory.wf (m : List Host.Cell) : Bool := kvWf (fun _ => 0#8) m

/-- Device memory, host memory, blot bits, granules that do not decode and the register file are in canonical form. -/
def State.canonical (s : State) : Bool :=
  Memory.wf s.mem && Memory.wf s.host && kvWf (fun _ => false) s.blots && kvWf (fun _ => false) s.uncorr && kvWf regReset s.regs

/-- An outcome is a next state with a property. -/
def Completes (o : Out) (p : State → Prop) : Prop := ∃ t, o = .next t ∧ p t

/-- A run is safe where it never stops: no step of it ends in a fault or a refusal. -/
def safeStep (s : State) : Bool :=
  match step s with
  | .next _ => true
  | _ => false

/-! ### The parts of the state, one bit each -/

/-- Part: the register file. -/
abbrev Part.regs : Nat := 1
/-- Part: the latched halves of 64-bit reads. -/
abbrev Part.latches : Nat := 2
/-- Part: device memory with its blots. -/
abbrev Part.memory : Nat := 4
/-- Part: host memory. -/
abbrev Part.host : Nat := 8
/-- Part: time. -/
abbrev Part.time : Nat := 16
/-- Part: the count of free values. -/
abbrev Part.frees : Nat := 32
/-- Part: the log of what left the device. -/
abbrev Part.log : Nat := 64
/-- Part: reports and fault records. -/
abbrev Part.records : Nat := 128
/-- Part: the pace engine. -/
abbrev Part.pace : Nat := 256
/-- Part: Scribe and the functions. -/
abbrev Part.queues : Nat := 512
/-- Part: schedules and jobs. -/
abbrev Part.jobs : Nat := 1024
/-- Part: clusters, runners and their written granules. -/
abbrev Part.clusters : Nat := 2048
/-- Part: address bases. -/
abbrev Part.bases : Nat := 4096
/-- Part: M-cores. -/
abbrev Part.mcores : Nat := 8192
/-- Part: V-core runners. -/
abbrev Part.vcores : Nat := 16384
/-- Part: S-core runners. -/
abbrev Part.scores : Nat := 32768
/-- Part: transfers. -/
abbrev Part.xfers : Nat := 65536
/-- Part: near-memory units. -/
abbrev Part.nmus : Nat := 131072
/-- Part: attention controllers. -/
abbrev Part.atts : Nat := 262144
/-- Part: hurdles and their waits. -/
abbrev Part.hurdles : Nat := 524288
/-- Part: towers. -/
abbrev Part.towers : Nat := 1048576
/-- Part: stacks, PIM regions and far pieces. -/
abbrev Part.stacks : Nat := 2097152
/-- Part: the hub. -/
abbrev Part.hub : Nat := 4194304
/-- Part: ports and peers. -/
abbrev Part.links : Nat := 8388608
/-- Part: collectives. -/
abbrev Part.coll : Nat := 16777216
/-- Part: the supervisor and the pins. -/
abbrev Part.sup : Nat := 33554432
/-- Part: security. -/
abbrev Part.sec : Nat := 67108864
/-- Part: debug. -/
abbrev Part.dbg : Nat := 134217728

/-- What leads from one state to a later one without touching the queue, turning time back, taking back an output, a used free value, a fused
security version or an owner key, or breaking the canonical form, and without changing any part outside `m`. -/
structure Keeps (m : Nat) (s t : State) : Prop where
  pending : t.pending = s.pending
  now : s.now ≤ t.now
  frees : s.frees ≤ t.frees
  out : s.out <+: t.out
  svn : s.sec.fusedSvn ≤ t.sec.fusedSvn
  owners : s.sec.owners <+: t.sec.owners
  slots : s.sec.owners.length ≤ 4 → t.sec.owners.length ≤ 4
  regs : kvWf regReset s.regs = true → kvWf regReset t.regs = true
  mem : kvWf (fun _ => 0#8) s.mem = true → kvWf (fun _ => 0#8) t.mem = true
  host : kvWf (fun _ => 0#8) s.host = true → kvWf (fun _ => 0#8) t.host = true
  blots : kvWf (fun _ => false) s.blots = true → kvWf (fun _ => false) t.blots = true
  uncorr : kvWf (fun _ => false) s.uncorr = true → kvWf (fun _ => false) t.uncorr = true
  sameRegs : m.testBit 0 = false → t.regs = s.regs
  sameLatches : m.testBit 1 = false → t.latches = s.latches
  sameMem : m.testBit 2 = false → t.mem = s.mem
  sameBlots : m.testBit 2 = false → t.blots = s.blots
  sameUncorr : m.testBit 2 = false → t.uncorr = s.uncorr
  sameHost : m.testBit 3 = false → t.host = s.host
  sameNow : m.testBit 4 = false → t.now = s.now
  sameFrees : m.testBit 5 = false → t.frees = s.frees
  sameOut : m.testBit 6 = false → t.out = s.out
  sameReports : m.testBit 7 = false → t.reports = s.reports
  sameRecs : m.testBit 7 = false → t.recs = s.recs
  samePace : m.testBit 8 = false → t.pace = s.pace
  sameScribe : m.testBit 9 = false → t.scribe = s.scribe
  sameFns : m.testBit 9 = false → t.fns = s.fns
  sameScheds : m.testBit 10 = false → t.scheds = s.scheds
  sameJobs : m.testBit 10 = false → t.jobs = s.jobs
  sameClusters : m.testBit 11 = false → t.clusters = s.clusters
  sameRunners : m.testBit 11 = false → t.runners = s.runners
  sameWritten : m.testBit 11 = false → t.written = s.written
  sameAbase : m.testBit 12 = false → t.abase = s.abase
  sameAbtag : m.testBit 12 = false → t.abtag = s.abtag
  sameMcores : m.testBit 13 = false → t.mcores = s.mcores
  sameVruns : m.testBit 14 = false → t.vruns = s.vruns
  sameSruns : m.testBit 15 = false → t.sruns = s.sruns
  sameXfers : m.testBit 16 = false → t.xfers = s.xfers
  sameNmus : m.testBit 17 = false → t.nmus = s.nmus
  sameAtts : m.testBit 18 = false → t.atts = s.atts
  sameHurdles : m.testBit 19 = false → t.hurdles = s.hurdles
  sameHwaits : m.testBit 19 = false → t.hwaits = s.hwaits
  sameTowers : m.testBit 20 = false → t.towers = s.towers
  sameStk : m.testBit 21 = false → t.stk = s.stk
  sameRegions : m.testBit 21 = false → t.regions = s.regions
  sameFarReady : m.testBit 21 = false → t.farReady = s.farReady
  sameHub : m.testBit 22 = false → t.hub = s.hub
  samePorts : m.testBit 23 = false → t.ports = s.ports
  sameLinks : m.testBit 23 = false → t.links = s.links
  sameColl : m.testBit 24 = false → t.coll = s.coll
  sameSup : m.testBit 25 = false → t.sup = s.sup
  samePins : m.testBit 25 = false → t.pins = s.pins
  sameSec : m.testBit 26 = false → t.sec = s.sec
  sameDbg : m.testBit 27 = false → t.dbg = s.dbg

/-- An outcome is a next state that keeps what `Keeps` names. -/
def KeepsOut (m : Nat) (s : State) (o : Out) : Prop := ∃ t, o = .next t ∧ Keeps m s t

/-! ### When a command has its own effect -/

/-- A stroke of a row may issue on a runner: the word carries the row's unit and opcode, its runner is the one that its core chooses (R199), it is
the ready head of the runner (R198), and it is no stage of a relay (R222). -/
def mayIssue (unit op : Nat) (r : RunnerRef) (w : StrokeWord) (s : State) : Bool :=
  isOp w unit op && myTurn (refNo r) s && ready (refNo r) w s && !sRelay w
/-- The same for a stroke that its core may hold (R241, R250, R294, R752). -/
def vMayIssue (op : Nat) (r : RunnerRef) (w : StrokeWord) (s : State) : Bool := mayIssue 1 op r w s && !vHeld (refNo r) w s
def mMayIssue (op : Nat) (r : RunnerRef) (w : StrokeWord) (s : State) : Bool := mayIssue 0 op r w s && !mHeld (refNo r) w s
def sMayIssue (op : Nat) (r : RunnerRef) (w : StrokeWord) (s : State) : Bool := mayIssue 2 op r w s && !sHeld (refNo r) w s

/-- What the issue of a stroke leaves after its effect: its waits are counted, the head is taken, the stroke is traced, counted and in flight. -/
def issued (r : RunnerRef) (w : StrokeWord) (o : StrokeOut) : State :=
  settleSkip 256 (refNo r) (launchStroke (refNo r) w { o with s := popHead (refNo r) (noteWaits (refNo r) r.waited o.s) })

/-- An effect that starts nothing, waits for nothing and meets no bus error. -/
def plainOut (s : State) : StrokeOut := { s := s }

/-- Every ready stroke of a row issues with an effect. -/
def IssuesAs (may : RunnerRef → StrokeWord → State → Bool) (c : RunnerRef → StrokeWord → Instr)
    (e : Nat → StrokeWord → State → StrokeOut) : Prop :=
  ∀ (r : RunnerRef) (w : StrokeWord) (s : State), may r w s = true → exec (c r w) s = .next (issued r w (e (refNo r) w s))
/-- The same for an effect that may stall on a ring (R221). -/
def IssuesWhen (may : RunnerRef → StrokeWord → State → Bool) (c : RunnerRef → StrokeWord → Instr)
    (e : Nat → StrokeWord → State → Option StrokeOut) : Prop :=
  ∀ (r : RunnerRef) (w : StrokeWord) (s : State) (o : StrokeOut), may r w s = true → e (refNo r) w s = some o →
    exec (c r w) s = .next (issued r w o)
/-- Every ready stroke of a V-core row issues with an effect on the state that the parity error of its register reads leaves (R324). -/
def VIssuesAs (op : Nat) (c : RunnerRef → StrokeWord → Option (Nat × Nat) → Instr) (e : Nat → StrokeWord → State → StrokeOut) : Prop :=
  ∀ p, IssuesAs (vMayIssue op) (fun r w => c r w p) (fun k w s => e k w (vParity p k w s))
/-- The same for an effect that may stall on a ring. -/
def VIssuesWhen (op : Nat) (c : RunnerRef → StrokeWord → Option (Nat × Nat) → Instr) (e : Nat → StrokeWord → State → Option StrokeOut) : Prop :=
  ∀ p, IssuesWhen (vMayIssue op) (fun r w => c r w p) (fun k w s => e k w (vParity p k w s))
/-- Every ready stroke of an S-core row issues with an effect on the state that the parity error of its register reads leaves (R324). -/
def SIssuesAs (op : Nat) (c : RunnerRef → StrokeWord → Option Nat → Instr) (e : Nat → StrokeWord → State → StrokeOut) : Prop :=
  ∀ p, IssuesAs (sMayIssue op) (fun r w => c r w p) (fun k w s => e k w (sParity p k w s))
/-- The same for an effect that may stall on a ring or a unit. -/
def SIssuesWhen (op : Nat) (c : RunnerRef → StrokeWord → Option Nat → Instr) (e : Nat → StrokeWord → State → Option StrokeOut) : Prop :=
  ∀ p, IssuesWhen (sMayIssue op) (fun r w => c r w p) (fun k w s => e k w (sParity p k w s))
/-- A stroke that writes lanes of VD (R292, R297). -/
def laneStroke (srcs : VFields → List Nat) (g : State → Nat → VFields → Nat → Nat) (k : Nat) (w : StrokeWord) (s : State) : StrokeOut :=
  { s := laneOp k (vFields w) (srcs (vFields w)) (g s k (vFields w)) s }

/-- A unit's next word is w, of an opcode of its row, and the unit may run it: it does not wait for END, for a latch in the background, or for a
throttled stack (R435, R438). -/
def nmuReady (opc st u : Nat) (w : DWord) (r : NRun) (s : State) : Bool :=
  decide ((getNmu s st u).run = some r) && !r.ending && decide (wordAt s st r = some w) && decide (nOpc w = opc) &&
    !(decide (stackLevel s (4 + st) = 4) && computeWord opc) && !(usesLatch w && decide ((r.latch (nLsel w)).busy ≠ 0))
/-- The state on which a word of a row has its effect: an error of one bit of the store is counted, then a parity error of the register that the
word reads, then the word's cycles (R435, R438, R459, R463). -/
def wordState (opc st u : Nat) (w : DWord) (x : NmuErr) (s : State) : State :=
  countWord opc st u x (parityHit st u w x.parity (if x.store = 1 then addReg (nmuArea st u + 0xC) 1 s else s))
/-- The run on which a word has its effect, with the tags that a parity error has set. -/
def wordRun (opc st u : Nat) (w : DWord) (x : NmuErr) (r : NRun) (s : State) : NRun := (getNmu (wordState opc st u w x s) st u).run.getD r
/-- Every word of a row that may run has an effect on the unit; a word that the program store gives with two wrong bits ends the launch in an error
instead (R463). -/
def RunsWith (opc : Nat) (c : Fin 4 → Fin 256 → NmuErr → Instr) (e : Nat → Nat → DWord → NRun → State → State) : Prop :=
  ∀ (st : Fin 4) (u : Fin 256) (x : NmuErr) (w : DWord) (r : NRun) (s : State), nmuReady opc st u w r s = true →
    (x.store < 2 → exec (c st u x) s = .next (e st u w (wordRun opc st u w x r s) (wordState opc st u w x s))) ∧
    (2 ≤ x.store → exec (c st u x) s = .next (storeFault st u r s))
/-- The same where the run and the state on which the word has its effect meet a condition. -/
def RunsWhere (opc : Nat) (g : Nat → Nat → DWord → NRun → State → Prop) (c : Fin 4 → Fin 256 → NmuErr → Instr) (e : Nat → Nat → DWord → NRun → State → State) : Prop :=
  ∀ (st : Fin 4) (u : Fin 256) (x : NmuErr) (w : DWord) (r : NRun) (s : State), nmuReady opc st u w r s = true → x.store < 2 →
    g st u w (wordRun opc st u w x r s) (wordState opc st u w x s) → exec (c st u x) s = .next (e st u w (wordRun opc st u w x r s) (wordState opc st u w x s))
/-- A background transfer for a page: the bank of its local address enters NMU mode, and the run, with the transfer queued behind the others, goes on. -/
def transferQueued (st u lam : Nat) (l : Bool) (r : NRun) (s : State) : State :=
  enterBank st u (lamOdd lam) (goOn st u ({ r with order := r.order ++ [b2n l] }, s))
/-- Every word of a row that may run goes on with an effect on its run. -/
def RunsAs (opc : Nat) (c : Fin 4 → Fin 256 → NmuErr → Instr) (e : NEffect) : Prop :=
  RunsWith opc c (fun st u w r s => goOn st u (e st u w r s))

/-- A home has no request waiting, none of this line under way, and room for the line in its directory. -/
def homeFree (s : State) (m line : Nat) : Bool := (getStack s m).queue.isEmpty && !lineBusy s m line && (fullSet s m line).isEmpty
/-- The state after a request of a line has gone through the empty queue of its home. -/
def throughHome (m line : Nat) (w : HomeWant) (s : State) : State :=
  modStack m (fun x => { x with queue := [] }) (modStack m (fun x => { x with queue := x.queue ++ [(line, w)] }) s)

/-- An outcome is a next state that differs from s in the parts m at most, with a property. -/
def Gives (s : State) (o : Out) (m : Nat) (p : State → Prop) : Prop := ∃ t, o = .next t ∧ Keeps m s t ∧ p t
/-- The word registers from lo to hi (last included), with a value for each. -/
def wordsAt (lo hi : Nat) (v : Word) (o : Nat) : Option Word := if lo ≤ o ∧ o ≤ hi ∧ (o - lo) % 4 = 0 then some v else none
/-- One register with a value, the others as in f. -/
def wordAnd (a : Nat) (v : Word) (f : Nat → Option Word) (o : Nat) : Option Word := if o = a then some v else f o
/-- A clear register: a write of 1 gives the registers that f names their values and changes nothing else, any other value changes nothing. -/
def ClearsOnOne (c : Word → Instr) (f : Nat → Option Word) : Prop :=
  (∀ s, Gives s (exec (c 1#32) s) Part.regs (fun t => ∀ o, rawReg t o = (f o).getD (rawReg s o))) ∧ (∀ d s, d ≠ 1#32 → exec (c d) s = .next s)
/-- Scribe and the firmware take the command with these parameters: it runs now with them (R159), and nothing of R158, R176, R622, R648 and R697 turns
it away. -/
def accepted (s : State) (h : CmdHdr) (op : Nat) (params : List Nat) : Prop :=
  runsNow s h op params = true ∧ turnedAway s h.fn h.pair op = none
/-- An accepted command under a condition completes with an effect. -/
def Serves (h : CmdHdr) (op : Nat) (params : List Nat) (c : Instr) (g : State → Prop) (e : State → State) : Prop :=
  ∀ s, accepted s h op params → g s → exec c s = .next (e s)

/-- A command that Scribe or the firmware turns away only replies, with the status of the check that failed (R158, R176, R622, R648, R697). -/
def TurnsAway (h : CmdHdr) (op : Nat) (params : List Nat) (c : Instr) : Prop :=
  ∀ (s : State) (st : Nat), runsNow s h op params = true → turnedAway s h.fn h.pair op = some st → exec c s = .next (fail h op st s)

/-- An SPDM request of a row's code is taken: it is whole, in order and of the agreed version (R699). -/
def spdmTaken (code least : Nat) (body : List (BitVec 8)) (s : State) : Prop :=
  4 ≤ body.length ∧ field body 1 1 = code ∧ least ≤ s.sec.spdmState ∧ (s.sec.spdmVersion = 0 ∨ field body 0 1 = s.sec.spdmVersion)

/-- The head of a port's VC0 buffer is the packet k, the next of the neighbour c on that port (R546). -/
def nextPacket (s : State) (p : Nat) (k : Packet) (rest : List Packet) (c : Nat) : Prop :=
  (getPort s p).rx0 = k :: rest ∧ peerOf s p = some c ∧ (k.nseq + 65536 - kvGet (fun _ => 0) s.links.nseqRx c) % 65536 = 0
/-- The state after a port's VC0 packet of a neighbour is taken, with its credit returned. -/
def packetTaken (p : Nat) (k : Packet) (rest : List Packet) (c : Nat) (s : State) : State :=
  let t := returnCredit p k (modPort p (fun x => { x with rx0 := rest }) s)
  { t with links := { t.links with nseqRx := kvPut (fun _ => 0) t.links.nseqRx c ((kvGet (fun _ => 0) s.links.nseqRx c + 1) % 65536) } }

/-- The parts of the state that a command may change; every other part it leaves as it was. -/
def frameOf : Instr → Nat
  | .tick => Part.regs ||| Part.memory ||| Part.time ||| Part.frees ||| Part.log ||| Part.records ||| Part.pace ||| Part.queues ||| Part.jobs ||| Part.clusters ||| Part.bases ||| Part.mcores ||| Part.vcores ||| Part.xfers ||| Part.atts ||| Part.hurdles ||| Part.hub ||| Part.links ||| Part.coll ||| Part.sup
  | .startLine => Part.regs ||| Part.memory ||| Part.time ||| Part.log ||| Part.records ||| Part.pace ||| Part.queues ||| Part.jobs ||| Part.clusters ||| Part.bases ||| Part.mcores ||| Part.vcores ||| Part.scores ||| Part.xfers ||| Part.atts ||| Part.hurdles ||| Part.towers ||| Part.stacks ||| Part.hub ||| Part.links ||| Part.coll ||| Part.sup
  | .clusterFirstIssue _ => Part.time ||| Part.clusters
  | .rampInterval _ => Part.clusters
  | .rampRestart _ => Part.clusters
  | .lapDone _ _ => Part.regs ||| Part.memory ||| Part.time ||| Part.log ||| Part.pace ||| Part.queues ||| Part.jobs ||| Part.clusters ||| Part.bases ||| Part.mcores ||| Part.vcores ||| Part.xfers ||| Part.atts ||| Part.hurdles ||| Part.links ||| Part.coll ||| Part.sup
  | .tickHeaderReceive _ => Part.regs ||| Part.memory ||| Part.log ||| Part.records ||| Part.pace ||| Part.queues ||| Part.jobs ||| Part.clusters ||| Part.bases ||| Part.mcores ||| Part.vcores ||| Part.scores ||| Part.xfers ||| Part.atts ||| Part.hurdles ||| Part.stacks ||| Part.links ||| Part.coll ||| Part.sup
  | .paceInEdge _ => Part.regs ||| Part.memory ||| Part.time ||| Part.frees ||| Part.log ||| Part.records ||| Part.pace ||| Part.queues ||| Part.jobs ||| Part.clusters ||| Part.bases ||| Part.mcores ||| Part.vcores ||| Part.xfers ||| Part.atts ||| Part.hurdles ||| Part.hub ||| Part.links ||| Part.coll ||| Part.sup
  | .paceMissing => Part.regs ||| Part.memory ||| Part.time ||| Part.frees ||| Part.log ||| Part.records ||| Part.pace ||| Part.queues ||| Part.jobs ||| Part.clusters ||| Part.bases ||| Part.mcores ||| Part.vcores ||| Part.xfers ||| Part.atts ||| Part.hurdles ||| Part.hub ||| Part.links ||| Part.coll ||| Part.sup
  | .paceCountClear _ => Part.regs
  | .registerWrite _ _ _ _ => Part.regs ||| Part.latches ||| Part.memory ||| Part.time ||| Part.frees ||| Part.log ||| Part.records ||| Part.pace ||| Part.queues ||| Part.jobs ||| Part.clusters ||| Part.bases ||| Part.mcores ||| Part.vcores ||| Part.scores ||| Part.xfers ||| Part.nmus ||| Part.atts ||| Part.hurdles ||| Part.towers ||| Part.stacks ||| Part.hub ||| Part.links ||| Part.coll ||| Part.sup ||| Part.sec ||| Part.dbg
  | .blkLock _ _ _ => Part.regs ||| Part.latches ||| Part.log ||| Part.records ||| Part.queues ||| Part.clusters ||| Part.scores ||| Part.hurdles ||| Part.hub ||| Part.coll
  | .loReadLatch _ _ _ => Part.latches ||| Part.log ||| Part.records
  | .afBar2BaseApply _ => Part.regs ||| Part.latches ||| Part.log ||| Part.records ||| Part.queues ||| Part.clusters ||| Part.scores ||| Part.hurdles ||| Part.hub ||| Part.coll
  | .warmReset => Part.regs ||| Part.latches ||| Part.log ||| Part.records ||| Part.pace ||| Part.queues ||| Part.jobs ||| Part.clusters ||| Part.bases ||| Part.mcores ||| Part.vcores ||| Part.scores ||| Part.xfers ||| Part.nmus ||| Part.atts ||| Part.hurdles ||| Part.towers ||| Part.stacks ||| Part.hub ||| Part.links ||| Part.coll ||| Part.sup ||| Part.sec ||| Part.dbg
  | .sqDoorbell _ _ _ => Part.regs ||| Part.queues
  | .cqHeadDoorbell _ _ _ => Part.queues
  | .commandDispatch => Part.regs ||| Part.log ||| Part.records ||| Part.queues ||| Part.clusters ||| Part.scores ||| Part.hurdles ||| Part.links ||| Part.coll
  | .commandWaitRelease => Part.queues ||| Part.hurdles
  | .firmwareInboxServe => Part.queues
  | .statusReplyWrite => Part.regs ||| Part.memory ||| Part.host ||| Part.log ||| Part.records ||| Part.queues ||| Part.clusters ||| Part.scores ||| Part.hurdles ||| Part.stacks ||| Part.links ||| Part.coll
  | .cqCoalTimeout _ _ _ => Part.regs ||| Part.time ||| Part.log ||| Part.queues
  | .nop _ => Part.regs ||| Part.queues
  | .createQueue _ _ => Part.regs ||| Part.queues
  | .deleteQueue _ _ => Part.regs ||| Part.queues ||| Part.hurdles
  | .flushQueue _ _ => Part.regs ||| Part.queues
  | .viCreate _ _ _ => Part.regs ||| Part.log ||| Part.queues
  | .viDestroy _ _ => Part.regs ||| Part.memory ||| Part.frees ||| Part.log ||| Part.records ||| Part.queues ||| Part.clusters ||| Part.xfers ||| Part.nmus ||| Part.atts ||| Part.hurdles ||| Part.towers ||| Part.stacks ||| Part.hub ||| Part.links ||| Part.coll
  | .viReset _ _ => Part.regs ||| Part.memory ||| Part.frees ||| Part.log ||| Part.records ||| Part.queues ||| Part.clusters ||| Part.xfers ||| Part.nmus ||| Part.atts ||| Part.hurdles ||| Part.towers ||| Part.stacks ||| Part.hub ||| Part.links ||| Part.coll
  | .viQuery _ _ _ => Part.regs ||| Part.memory ||| Part.records ||| Part.queues ||| Part.stacks
  | .loadSchedule _ _ _ => Part.regs ||| Part.memory ||| Part.frees ||| Part.records ||| Part.queues ||| Part.jobs ||| Part.towers ||| Part.stacks ||| Part.hub
  | .unloadSchedule _ _ => Part.regs ||| Part.queues ||| Part.jobs ||| Part.clusters ||| Part.bases ||| Part.mcores ||| Part.vcores
  | .startJob _ _ _ _ _ => Part.regs ||| Part.memory ||| Part.log ||| Part.records ||| Part.pace ||| Part.queues ||| Part.jobs ||| Part.clusters ||| Part.bases ||| Part.mcores ||| Part.vcores ||| Part.scores ||| Part.xfers ||| Part.atts ||| Part.hurdles ||| Part.links ||| Part.coll ||| Part.sup
  | .launchLap _ _ _ => Part.regs ||| Part.queues ||| Part.jobs
  | .stopJob _ _ => Part.regs ||| Part.memory ||| Part.log ||| Part.pace ||| Part.queues ||| Part.jobs ||| Part.clusters ||| Part.bases ||| Part.mcores ||| Part.vcores ||| Part.xfers ||| Part.atts ||| Part.hurdles ||| Part.links ||| Part.coll ||| Part.sup
  | .haltAtLap _ _ _ => Part.regs ||| Part.queues ||| Part.jobs
  | .hurdleArrive _ _ _ => Part.regs ||| Part.log ||| Part.records ||| Part.queues ||| Part.clusters ||| Part.scores ||| Part.hurdles ||| Part.links ||| Part.coll
  | .hurdleWait _ _ => Part.regs ||| Part.records ||| Part.queues ||| Part.clusters ||| Part.scores ||| Part.hurdles ||| Part.coll
  | .copy _ _ _ _ _ => Part.regs ||| Part.memory ||| Part.host ||| Part.frees ||| Part.log ||| Part.records ||| Part.queues ||| Part.towers ||| Part.stacks ||| Part.hub
  | .fill _ _ _ _ => Part.regs ||| Part.memory ||| Part.records ||| Part.queues ||| Part.stacks
  | .retiredPagesRead _ _ _ => Part.regs ||| Part.memory ||| Part.records ||| Part.queues ||| Part.stacks
  | .kvPoolSet _ _ _ _ => Part.regs ||| Part.memory ||| Part.records ||| Part.queues ||| Part.atts ||| Part.stacks
  | .kvSeqCreate _ _ _ => Part.regs ||| Part.memory ||| Part.records ||| Part.queues ||| Part.atts ||| Part.stacks
  | .kvSeqFork _ _ _ _ => Part.regs ||| Part.memory ||| Part.records ||| Part.queues ||| Part.atts ||| Part.towers ||| Part.stacks ||| Part.hub
  | .kvSeqFree _ _ => Part.regs ||| Part.memory ||| Part.records ||| Part.queues ||| Part.atts ||| Part.stacks
  | .kvSpillPolicy _ _ _ _ _ => Part.regs ||| Part.memory ||| Part.records ||| Part.queues ||| Part.stacks
  | .shardExport _ _ _ _ _ => Part.regs ||| Part.memory ||| Part.frees ||| Part.records ||| Part.queues ||| Part.towers ||| Part.stacks ||| Part.hub
  | .shardImport _ _ _ => Part.regs ||| Part.memory ||| Part.frees ||| Part.records ||| Part.queues ||| Part.towers ||| Part.stacks ||| Part.hub
  | .seedSet _ _ _ => Part.regs ||| Part.queues
  | .configBaseLoad _ _ _ _ => Part.regs ||| Part.memory ||| Part.frees ||| Part.records ||| Part.queues ||| Part.towers ||| Part.stacks ||| Part.hub
  | .overlayApply _ _ _ _ _ => Part.regs ||| Part.memory ||| Part.frees ||| Part.records ||| Part.queues ||| Part.towers ||| Part.stacks ||| Part.hub
  | .overlayRemove _ _ _ => Part.regs ||| Part.queues ||| Part.hub
  | .configRead _ _ _ => Part.regs ||| Part.memory ||| Part.records ||| Part.queues ||| Part.stacks
  | .telemetrySnapshot _ _ _ => Part.regs ||| Part.memory ||| Part.log ||| Part.records ||| Part.queues ||| Part.stacks
  | .countersRead _ _ _ => Part.regs ||| Part.memory ||| Part.records ||| Part.queues ||| Part.stacks
  | .blotterRead _ _ _ => Part.regs ||| Part.memory ||| Part.records ||| Part.queues ||| Part.stacks
  | .lifeRecordRead _ _ _ => Part.regs ||| Part.memory ||| Part.records ||| Part.queues ||| Part.stacks
  | .powerCapSet _ _ _ => Part.regs ||| Part.queues ||| Part.hub
  | .powerPlanSet _ _ _ _ _ _ => Part.regs ||| Part.queues ||| Part.jobs
  | .park _ => Part.regs ||| Part.memory ||| Part.log ||| Part.queues ||| Part.towers ||| Part.sup ||| Part.sec
  | .unpark _ => Part.regs ||| Part.log ||| Part.queues ||| Part.towers ||| Part.sup ||| Part.sec
  | .unitOut _ _ _ => Part.regs ||| Part.queues ||| Part.hub
  | .unitIn _ _ _ => Part.regs ||| Part.queues ||| Part.hub
  | .unitTestDone _ _ _ _ => Part.regs ||| Part.memory ||| Part.log ||| Part.records ||| Part.queues ||| Part.jobs ||| Part.clusters ||| Part.bases ||| Part.mcores ||| Part.vcores ||| Part.towers ||| Part.hub ||| Part.sup
  | .marchRun _ _ _ _ _ => Part.regs ||| Part.queues ||| Part.towers
  | .portRetrain _ _ => Part.regs ||| Part.memory ||| Part.log ||| Part.records ||| Part.queues ||| Part.jobs ||| Part.clusters ||| Part.scores ||| Part.hurdles ||| Part.stacks ||| Part.hub ||| Part.links ||| Part.coll
  | .fwStage _ _ _ => Part.regs ||| Part.memory ||| Part.frees ||| Part.records ||| Part.queues ||| Part.towers ||| Part.stacks ||| Part.hub ||| Part.sec
  | .fwSwitch _ _ => Part.regs ||| Part.queues ||| Part.hub
  | .timeSet _ _ => Part.regs ||| Part.queues ||| Part.stacks ||| Part.hub
  | .viFlr _ => Part.regs ||| Part.memory ||| Part.frees ||| Part.log ||| Part.records ||| Part.queues ||| Part.clusters ||| Part.xfers ||| Part.nmus ||| Part.atts ||| Part.hurdles ||| Part.towers ||| Part.stacks ||| Part.hub ||| Part.links ||| Part.coll
  | .afFlr => Part.regs ||| Part.memory ||| Part.frees ||| Part.log ||| Part.records ||| Part.pace ||| Part.queues ||| Part.jobs ||| Part.clusters ||| Part.bases ||| Part.mcores ||| Part.vcores ||| Part.xfers ||| Part.nmus ||| Part.atts ||| Part.hurdles ||| Part.towers ||| Part.stacks ||| Part.hub ||| Part.links ||| Part.coll ||| Part.sup
  | .viResetDrainDone _ => Part.regs ||| Part.memory ||| Part.log ||| Part.records ||| Part.pace ||| Part.queues ||| Part.jobs ||| Part.clusters ||| Part.bases ||| Part.mcores ||| Part.vcores ||| Part.xfers ||| Part.atts ||| Part.hurdles ||| Part.links ||| Part.coll ||| Part.sup
  | .viScrubDone _ => Part.regs ||| Part.memory ||| Part.log ||| Part.queues ||| Part.stacks
  | .viQ0Enable _ _ => Part.regs ||| Part.queues ||| Part.hurdles
  | .viCountClear _ _ => Part.regs
  | .quillFetch _ => Part.regs ||| Part.records ||| Part.clusters ||| Part.scores
  | .strokeComplete _ _ => Part.regs ||| Part.records ||| Part.clusters ||| Part.bases ||| Part.scores
  | .commonNop _ _ => Part.regs ||| Part.frees ||| Part.records ||| Part.jobs ||| Part.clusters ||| Part.scores ||| Part.towers
  | .lapEnd _ _ => Part.regs ||| Part.frees ||| Part.records ||| Part.jobs ||| Part.clusters ||| Part.scores ||| Part.towers
  | .delay _ _ => Part.regs ||| Part.frees ||| Part.records ||| Part.jobs ||| Part.clusters ||| Part.scores ||| Part.towers
  | .relayFire _ _ _ => Part.regs ||| Part.memory ||| Part.frees ||| Part.log ||| Part.records ||| Part.queues ||| Part.jobs ||| Part.clusters ||| Part.bases ||| Part.mcores ||| Part.vcores ||| Part.scores ||| Part.xfers ||| Part.atts ||| Part.hurdles ||| Part.towers ||| Part.stacks ||| Part.hub ||| Part.links ||| Part.coll ||| Part.sup
  | .relayComplete _ _ => Part.records ||| Part.clusters
  | .msetb _ _ => Part.regs ||| Part.frees ||| Part.records ||| Part.jobs ||| Part.clusters ||| Part.bases ||| Part.scores ||| Part.towers
  | .mlda _ _ => Part.regs ||| Part.memory ||| Part.frees ||| Part.records ||| Part.jobs ||| Part.clusters ||| Part.mcores ||| Part.scores ||| Part.towers ||| Part.stacks ||| Part.hub
  | .mlds _ _ => Part.regs ||| Part.memory ||| Part.frees ||| Part.records ||| Part.jobs ||| Part.clusters ||| Part.mcores ||| Part.scores ||| Part.towers ||| Part.stacks ||| Part.hub
  | .mpass _ _ _ => Part.regs ||| Part.memory ||| Part.frees ||| Part.log ||| Part.records ||| Part.jobs ||| Part.clusters ||| Part.bases ||| Part.mcores ||| Part.vcores ||| Part.scores ||| Part.towers ||| Part.stacks ||| Part.hub ||| Part.sup
  | .macl _ _ => Part.regs ||| Part.memory ||| Part.frees ||| Part.records ||| Part.jobs ||| Part.clusters ||| Part.mcores ||| Part.scores ||| Part.towers ||| Part.stacks ||| Part.hub
  | .mwb _ _ => Part.regs ||| Part.memory ||| Part.frees ||| Part.records ||| Part.jobs ||| Part.clusters ||| Part.mcores ||| Part.scores ||| Part.atts ||| Part.towers ||| Part.stacks ||| Part.hub
  | .weightRowRequest _ _ => Part.mcores
  | .weightRowArrive _ _ _ => Part.regs ||| Part.clusters ||| Part.mcores
  | .mcCountClear _ _ _ => Part.regs
  | .vadd _ _ _ => Part.regs ||| Part.memory ||| Part.frees ||| Part.log ||| Part.records ||| Part.jobs ||| Part.clusters ||| Part.bases ||| Part.mcores ||| Part.vcores ||| Part.scores ||| Part.towers ||| Part.hub ||| Part.sup
  | .vsub _ _ _ => Part.regs ||| Part.memory ||| Part.frees ||| Part.log ||| Part.records ||| Part.jobs ||| Part.clusters ||| Part.bases ||| Part.mcores ||| Part.vcores ||| Part.scores ||| Part.towers ||| Part.hub ||| Part.sup
  | .vmul _ _ _ => Part.regs ||| Part.memory ||| Part.frees ||| Part.log ||| Part.records ||| Part.jobs ||| Part.clusters ||| Part.bases ||| Part.mcores ||| Part.vcores ||| Part.scores ||| Part.towers ||| Part.hub ||| Part.sup
  | .vfma _ _ _ => Part.regs ||| Part.memory ||| Part.frees ||| Part.log ||| Part.records ||| Part.jobs ||| Part.clusters ||| Part.bases ||| Part.mcores ||| Part.vcores ||| Part.scores ||| Part.towers ||| Part.hub ||| Part.sup
  | .vmax _ _ _ => Part.regs ||| Part.memory ||| Part.frees ||| Part.log ||| Part.records ||| Part.jobs ||| Part.clusters ||| Part.bases ||| Part.mcores ||| Part.vcores ||| Part.scores ||| Part.towers ||| Part.hub ||| Part.sup
  | .vmin _ _ _ => Part.regs ||| Part.memory ||| Part.frees ||| Part.log ||| Part.records ||| Part.jobs ||| Part.clusters ||| Part.bases ||| Part.mcores ||| Part.vcores ||| Part.scores ||| Part.towers ||| Part.hub ||| Part.sup
  | .vabs _ _ _ => Part.regs ||| Part.memory ||| Part.frees ||| Part.log ||| Part.records ||| Part.jobs ||| Part.clusters ||| Part.bases ||| Part.mcores ||| Part.vcores ||| Part.scores ||| Part.towers ||| Part.hub ||| Part.sup
  | .vneg _ _ _ => Part.regs ||| Part.memory ||| Part.frees ||| Part.log ||| Part.records ||| Part.jobs ||| Part.clusters ||| Part.bases ||| Part.mcores ||| Part.vcores ||| Part.scores ||| Part.towers ||| Part.hub ||| Part.sup
  | .vand _ _ _ => Part.regs ||| Part.memory ||| Part.frees ||| Part.log ||| Part.records ||| Part.jobs ||| Part.clusters ||| Part.bases ||| Part.mcores ||| Part.vcores ||| Part.scores ||| Part.towers ||| Part.hub ||| Part.sup
  | .vor _ _ _ => Part.regs ||| Part.memory ||| Part.frees ||| Part.log ||| Part.records ||| Part.jobs ||| Part.clusters ||| Part.bases ||| Part.mcores ||| Part.vcores ||| Part.scores ||| Part.towers ||| Part.hub ||| Part.sup
  | .vxor _ _ _ => Part.regs ||| Part.memory ||| Part.frees ||| Part.log ||| Part.records ||| Part.jobs ||| Part.clusters ||| Part.bases ||| Part.mcores ||| Part.vcores ||| Part.scores ||| Part.towers ||| Part.hub ||| Part.sup
  | .vshift _ _ _ => Part.regs ||| Part.memory ||| Part.frees ||| Part.log ||| Part.records ||| Part.jobs ||| Part.clusters ||| Part.bases ||| Part.mcores ||| Part.vcores ||| Part.scores ||| Part.towers ||| Part.hub ||| Part.sup
  | .vcmp _ _ _ => Part.regs ||| Part.memory ||| Part.frees ||| Part.log ||| Part.records ||| Part.jobs ||| Part.clusters ||| Part.bases ||| Part.mcores ||| Part.vcores ||| Part.scores ||| Part.towers ||| Part.hub ||| Part.sup
  | .vsel _ _ _ => Part.regs ||| Part.memory ||| Part.frees ||| Part.log ||| Part.records ||| Part.jobs ||| Part.clusters ||| Part.bases ||| Part.mcores ||| Part.vcores ||| Part.scores ||| Part.towers ||| Part.hub ||| Part.sup
  | .vrot _ _ _ => Part.regs ||| Part.memory ||| Part.frees ||| Part.log ||| Part.records ||| Part.jobs ||| Part.clusters ||| Part.bases ||| Part.mcores ||| Part.vcores ||| Part.scores ||| Part.towers ||| Part.hub ||| Part.sup
  | .vcvt _ _ _ => Part.regs ||| Part.memory ||| Part.frees ||| Part.log ||| Part.records ||| Part.jobs ||| Part.clusters ||| Part.bases ||| Part.mcores ||| Part.vcores ||| Part.scores ||| Part.towers ||| Part.hub ||| Part.sup
  | .vrgen _ _ _ => Part.regs ||| Part.memory ||| Part.frees ||| Part.log ||| Part.records ||| Part.jobs ||| Part.clusters ||| Part.bases ||| Part.mcores ||| Part.vcores ||| Part.scores ||| Part.towers ||| Part.hub ||| Part.sup
  | .vexp _ _ _ => Part.regs ||| Part.memory ||| Part.frees ||| Part.log ||| Part.records ||| Part.jobs ||| Part.clusters ||| Part.bases ||| Part.mcores ||| Part.vcores ||| Part.scores ||| Part.towers ||| Part.hub ||| Part.sup
  | .vlog _ _ _ => Part.regs ||| Part.memory ||| Part.frees ||| Part.log ||| Part.records ||| Part.jobs ||| Part.clusters ||| Part.bases ||| Part.mcores ||| Part.vcores ||| Part.scores ||| Part.towers ||| Part.hub ||| Part.sup
  | .vrsq _ _ _ => Part.regs ||| Part.memory ||| Part.frees ||| Part.log ||| Part.records ||| Part.jobs ||| Part.clusters ||| Part.bases ||| Part.mcores ||| Part.vcores ||| Part.scores ||| Part.towers ||| Part.hub ||| Part.sup
  | .vrcp _ _ _ => Part.regs ||| Part.memory ||| Part.frees ||| Part.log ||| Part.records ||| Part.jobs ||| Part.clusters ||| Part.bases ||| Part.mcores ||| Part.vcores ||| Part.scores ||| Part.towers ||| Part.hub ||| Part.sup
  | .vtanh _ _ _ => Part.regs ||| Part.memory ||| Part.frees ||| Part.log ||| Part.records ||| Part.jobs ||| Part.clusters ||| Part.bases ||| Part.mcores ||| Part.vcores ||| Part.scores ||| Part.towers ||| Part.hub ||| Part.sup
  | .vrsum _ _ _ => Part.regs ||| Part.memory ||| Part.frees ||| Part.log ||| Part.records ||| Part.jobs ||| Part.clusters ||| Part.bases ||| Part.mcores ||| Part.vcores ||| Part.scores ||| Part.towers ||| Part.hub ||| Part.sup
  | .vrmax _ _ _ => Part.regs ||| Part.memory ||| Part.frees ||| Part.log ||| Part.records ||| Part.jobs ||| Part.clusters ||| Part.bases ||| Part.mcores ||| Part.vcores ||| Part.scores ||| Part.towers ||| Part.hub ||| Part.sup
  | .vrmin _ _ _ => Part.regs ||| Part.memory ||| Part.frees ||| Part.log ||| Part.records ||| Part.jobs ||| Part.clusters ||| Part.bases ||| Part.mcores ||| Part.vcores ||| Part.scores ||| Part.towers ||| Part.hub ||| Part.sup
  | .vperm _ _ _ => Part.regs ||| Part.memory ||| Part.frees ||| Part.log ||| Part.records ||| Part.jobs ||| Part.clusters ||| Part.bases ||| Part.mcores ||| Part.vcores ||| Part.scores ||| Part.towers ||| Part.hub ||| Part.sup
  | .vbcast _ _ _ => Part.regs ||| Part.memory ||| Part.frees ||| Part.log ||| Part.records ||| Part.jobs ||| Part.clusters ||| Part.bases ||| Part.mcores ||| Part.vcores ||| Part.scores ||| Part.towers ||| Part.hub ||| Part.sup
  | .vld _ _ _ => Part.regs ||| Part.memory ||| Part.frees ||| Part.log ||| Part.records ||| Part.jobs ||| Part.clusters ||| Part.bases ||| Part.mcores ||| Part.vcores ||| Part.scores ||| Part.towers ||| Part.stacks ||| Part.hub ||| Part.sup
  | .vst _ _ _ => Part.regs ||| Part.memory ||| Part.frees ||| Part.log ||| Part.records ||| Part.jobs ||| Part.clusters ||| Part.bases ||| Part.mcores ||| Part.vcores ||| Part.scores ||| Part.towers ||| Part.stacks ||| Part.hub ||| Part.sup
  | .vgath _ _ _ => Part.regs ||| Part.memory ||| Part.frees ||| Part.log ||| Part.records ||| Part.jobs ||| Part.clusters ||| Part.bases ||| Part.mcores ||| Part.vcores ||| Part.scores ||| Part.towers ||| Part.stacks ||| Part.hub ||| Part.sup
  | .vscat _ _ _ => Part.regs ||| Part.memory ||| Part.frees ||| Part.log ||| Part.records ||| Part.jobs ||| Part.clusters ||| Part.bases ||| Part.mcores ||| Part.vcores ||| Part.scores ||| Part.towers ||| Part.stacks ||| Part.hub ||| Part.sup
  | .vsetb _ _ => Part.regs ||| Part.frees ||| Part.records ||| Part.jobs ||| Part.clusters ||| Part.bases ||| Part.scores ||| Part.towers
  | .vsetk _ _ => Part.regs ||| Part.frees ||| Part.records ||| Part.jobs ||| Part.clusters ||| Part.vcores ||| Part.scores ||| Part.towers
  | .vsetc _ _ => Part.regs ||| Part.frees ||| Part.records ||| Part.jobs ||| Part.clusters ||| Part.vcores ||| Part.scores ||| Part.towers
  | .vsetm _ _ => Part.regs ||| Part.frees ||| Part.records ||| Part.jobs ||| Part.clusters ||| Part.vcores ||| Part.scores ||| Part.towers
  | .vadamw _ _ _ => Part.regs ||| Part.memory ||| Part.frees ||| Part.log ||| Part.records ||| Part.jobs ||| Part.clusters ||| Part.bases ||| Part.mcores ||| Part.vcores ||| Part.scores ||| Part.towers ||| Part.hub ||| Part.sup
  | .vsgdm _ _ _ => Part.regs ||| Part.memory ||| Part.frees ||| Part.log ||| Part.records ||| Part.jobs ||| Part.clusters ||| Part.bases ||| Part.mcores ||| Part.vcores ||| Part.scores ||| Part.towers ||| Part.hub ||| Part.sup
  | .vcCountClear _ _ _ => Part.regs
  | .scCountClear _ _ _ => Part.regs
  | .salu _ _ _ => Part.regs ||| Part.memory ||| Part.frees ||| Part.log ||| Part.records ||| Part.jobs ||| Part.clusters ||| Part.bases ||| Part.mcores ||| Part.vcores ||| Part.scores ||| Part.towers ||| Part.hub ||| Part.sup
  | .sli _ _ => Part.regs ||| Part.frees ||| Part.records ||| Part.jobs ||| Part.clusters ||| Part.scores ||| Part.towers
  | .sget _ _ => Part.regs ||| Part.frees ||| Part.records ||| Part.jobs ||| Part.clusters ||| Part.scores ||| Part.towers
  | .sld _ _ _ => Part.regs ||| Part.memory ||| Part.frees ||| Part.log ||| Part.records ||| Part.jobs ||| Part.clusters ||| Part.bases ||| Part.mcores ||| Part.vcores ||| Part.scores ||| Part.towers ||| Part.stacks ||| Part.hub ||| Part.sup
  | .sst _ _ _ => Part.regs ||| Part.memory ||| Part.frees ||| Part.log ||| Part.records ||| Part.jobs ||| Part.clusters ||| Part.bases ||| Part.mcores ||| Part.vcores ||| Part.scores ||| Part.towers ||| Part.stacks ||| Part.hub ||| Part.sup
  | .spush _ _ _ => Part.regs ||| Part.memory ||| Part.frees ||| Part.log ||| Part.records ||| Part.jobs ||| Part.clusters ||| Part.bases ||| Part.mcores ||| Part.vcores ||| Part.scores ||| Part.towers ||| Part.hub ||| Part.sup
  | .sidx _ _ _ => Part.regs ||| Part.memory ||| Part.frees ||| Part.log ||| Part.records ||| Part.jobs ||| Part.clusters ||| Part.bases ||| Part.mcores ||| Part.vcores ||| Part.scores ||| Part.towers ||| Part.hub ||| Part.sup
  | .ssetb _ _ _ => Part.regs ||| Part.memory ||| Part.frees ||| Part.log ||| Part.records ||| Part.jobs ||| Part.clusters ||| Part.bases ||| Part.mcores ||| Part.vcores ||| Part.scores ||| Part.towers ||| Part.hub ||| Part.sup
  | .sskip _ _ _ => Part.regs ||| Part.memory ||| Part.frees ||| Part.log ||| Part.records ||| Part.jobs ||| Part.clusters ||| Part.bases ||| Part.mcores ||| Part.vcores ||| Part.scores ||| Part.towers ||| Part.hub ||| Part.sup
  | .sloop _ _ _ => Part.regs ||| Part.memory ||| Part.frees ||| Part.log ||| Part.records ||| Part.jobs ||| Part.clusters ||| Part.bases ||| Part.mcores ||| Part.vcores ||| Part.scores ||| Part.towers ||| Part.hub ||| Part.sup
  | .sarrive _ _ _ => Part.regs ||| Part.memory ||| Part.frees ||| Part.log ||| Part.records ||| Part.queues ||| Part.jobs ||| Part.clusters ||| Part.bases ||| Part.mcores ||| Part.vcores ||| Part.scores ||| Part.hurdles ||| Part.towers ||| Part.hub ||| Part.links ||| Part.coll ||| Part.sup
  | .swait _ _ _ => Part.regs ||| Part.memory ||| Part.frees ||| Part.log ||| Part.records ||| Part.jobs ||| Part.clusters ||| Part.bases ||| Part.mcores ||| Part.vcores ||| Part.scores ||| Part.hurdles ||| Part.towers ||| Part.hub ||| Part.sup
  | .sreset _ _ => Part.regs ||| Part.frees ||| Part.log ||| Part.records ||| Part.queues ||| Part.jobs ||| Part.clusters ||| Part.scores ||| Part.hurdles ||| Part.towers ||| Part.links ||| Part.coll
  | .shread _ _ => Part.regs ||| Part.frees ||| Part.records ||| Part.jobs ||| Part.clusters ||| Part.scores ||| Part.towers
  | .shtarget _ _ _ => Part.regs ||| Part.memory ||| Part.frees ||| Part.log ||| Part.records ||| Part.queues ||| Part.jobs ||| Part.clusters ||| Part.bases ||| Part.mcores ||| Part.vcores ||| Part.scores ||| Part.hurdles ||| Part.towers ||| Part.hub ||| Part.coll ||| Part.sup
  | .sxfer _ _ _ => Part.regs ||| Part.memory ||| Part.frees ||| Part.log ||| Part.records ||| Part.jobs ||| Part.clusters ||| Part.bases ||| Part.mcores ||| Part.vcores ||| Part.scores ||| Part.xfers ||| Part.atts ||| Part.towers ||| Part.stacks ||| Part.hub ||| Part.sup
  | .transferComplete _ => Part.regs ||| Part.memory ||| Part.frees ||| Part.log ||| Part.records ||| Part.queues ||| Part.jobs ||| Part.clusters ||| Part.scores ||| Part.xfers ||| Part.hurdles ||| Part.towers ||| Part.stacks ||| Part.hub ||| Part.links ||| Part.coll
  | .hurdleOpApply _ _ => Part.regs ||| Part.records ||| Part.queues ||| Part.clusters ||| Part.scores ||| Part.hurdles ||| Part.coll
  | .hdlCtrlReset _ _ => Part.regs ||| Part.log ||| Part.records ||| Part.queues ||| Part.clusters ||| Part.scores ||| Part.hurdles ||| Part.links ||| Part.coll
  | .hdlCtrlArrive _ _ => Part.regs ||| Part.log ||| Part.records ||| Part.queues ||| Part.clusters ||| Part.scores ||| Part.hurdles ||| Part.links ||| Part.coll
  | .hurdlePacket _ => Part.regs ||| Part.log ||| Part.records ||| Part.queues ||| Part.clusters ||| Part.scores ||| Part.hurdles ||| Part.links ||| Part.coll
  | .bankAccess _ _ _ _ => Part.regs ||| Part.memory ||| Part.frees ||| Part.log ||| Part.records ||| Part.towers ||| Part.stacks ||| Part.hub
  | .sramPatrolRow _ _ => Part.regs ||| Part.memory ||| Part.frees ||| Part.log ||| Part.records ||| Part.towers ||| Part.stacks ||| Part.hub
  | .bankWakeDone _ _ => Part.towers
  | .gets _ _ _ _ => Part.regs ||| Part.memory ||| Part.frees ||| Part.log ||| Part.records ||| Part.towers ||| Part.stacks ||| Part.hub
  | .getx _ _ _ _ _ => Part.regs ||| Part.memory ||| Part.frees ||| Part.log ||| Part.records ||| Part.towers ||| Part.stacks ||| Part.hub
  | .writeBack _ _ _ _ => Part.regs ||| Part.memory ||| Part.frees ||| Part.log ||| Part.records ||| Part.towers ||| Part.stacks ||| Part.hub
  | .homeExternalRead _ _ _ _ => Part.regs ||| Part.memory ||| Part.frees ||| Part.log ||| Part.records ||| Part.towers ||| Part.stacks ||| Part.hub
  | .homeExternalWrite _ _ _ _ _ _ => Part.regs ||| Part.memory ||| Part.frees ||| Part.log ||| Part.records ||| Part.towers ||| Part.stacks ||| Part.hub
  | .recallS _ _ _ => Part.regs ||| Part.memory ||| Part.frees ||| Part.log ||| Part.records ||| Part.towers ||| Part.stacks ||| Part.hub
  | .recallInv _ _ _ => Part.regs ||| Part.memory ||| Part.frees ||| Part.log ||| Part.records ||| Part.towers ||| Part.stacks ||| Part.hub
  | .invLine _ _ _ => Part.regs ||| Part.memory ||| Part.frees ||| Part.log ||| Part.records ||| Part.towers ||| Part.stacks ||| Part.hub
  | .recallNack _ _ _ => Part.regs ||| Part.stacks
  | .wbAck _ _ _ => Part.towers ||| Part.stacks
  | .lineGrantArrive _ _ _ => Part.frees ||| Part.clusters ||| Part.xfers ||| Part.towers ||| Part.stacks
  | .marchStart _ _ _ => Part.regs ||| Part.towers
  | .marchDone _ _ => Part.regs ||| Part.memory ||| Part.records ||| Part.queues ||| Part.towers ||| Part.stacks ||| Part.hub
  | .cluBankClear _ _ => Part.regs
  | .twrProtClear _ _ => Part.regs
  | .twrConfClear _ _ => Part.regs
  | .dirCountClear _ _ => Part.regs
  | .pageAccess _ _ _ _ _ _ => Part.regs ||| Part.memory ||| Part.time ||| Part.records ||| Part.atts ||| Part.towers ||| Part.stacks ||| Part.hub
  | .regionConvert _ => Part.regs ||| Part.memory ||| Part.records ||| Part.atts ||| Part.towers ||| Part.stacks ||| Part.hub
  | .stackPatrolPass _ _ => Part.regs ||| Part.time ||| Part.stacks
  | .mscEccClear _ _ => Part.regs
  | .mscSrcClear _ _ => Part.regs
  | .farAccess _ _ _ _ _ _ => Part.regs ||| Part.memory ||| Part.frees ||| Part.log ||| Part.records ||| Part.queues ||| Part.jobs ||| Part.towers ||| Part.stacks ||| Part.hub
  | .cxlCompletionTimeout _ _ _ => Part.regs ||| Part.log ||| Part.records ||| Part.jobs
  | .cxlDown _ _ => Part.regs ||| Part.memory ||| Part.records ||| Part.stacks ||| Part.sup
  | .cxlEvent _ _ _ => Part.records
  | .cxlCountClear _ _ => Part.regs
  | .nmuLaunch _ _ => Part.regs ||| Part.nmus
  | .nmuNop _ _ _ => Part.regs ||| Part.memory ||| Part.records ||| Part.nmus ||| Part.atts ||| Part.towers ||| Part.stacks ||| Part.hub
  | .nmuEnd _ _ _ => Part.regs ||| Part.memory ||| Part.records ||| Part.nmus ||| Part.atts ||| Part.towers ||| Part.stacks ||| Part.hub
  | .nmuYield _ _ _ _ _ => Part.regs ||| Part.memory ||| Part.records ||| Part.nmus ||| Part.atts ||| Part.towers ||| Part.stacks ||| Part.hub
  | .nmuLoop _ _ _ => Part.regs ||| Part.memory ||| Part.records ||| Part.nmus ||| Part.atts ||| Part.towers ||| Part.stacks ||| Part.hub
  | .saddi _ _ _ => Part.regs ||| Part.memory ||| Part.records ||| Part.nmus ||| Part.atts ||| Part.towers ||| Part.stacks ||| Part.hub
  | .sadd _ _ _ => Part.regs ||| Part.memory ||| Part.records ||| Part.nmus ||| Part.atts ||| Part.towers ||| Part.stacks ||| Part.hub
  | .sshl _ _ _ => Part.regs ||| Part.memory ||| Part.records ||| Part.nmus ||| Part.atts ||| Part.towers ||| Part.stacks ||| Part.hub
  | .nopen _ _ _ => Part.regs ||| Part.memory ||| Part.records ||| Part.nmus ||| Part.atts ||| Part.towers ||| Part.stacks ||| Part.hub
  | .nclr _ _ _ => Part.regs ||| Part.memory ||| Part.records ||| Part.nmus ||| Part.atts ||| Part.towers ||| Part.stacks ||| Part.hub
  | .nwb _ _ _ => Part.regs ||| Part.memory ||| Part.records ||| Part.nmus ||| Part.atts ||| Part.towers ||| Part.stacks ||| Part.hub
  | .nld _ _ _ => Part.regs ||| Part.memory ||| Part.frees ||| Part.records ||| Part.nmus ||| Part.atts ||| Part.towers ||| Part.stacks ||| Part.hub
  | .nldi _ _ _ => Part.regs ||| Part.memory ||| Part.records ||| Part.nmus ||| Part.atts ||| Part.towers ||| Part.stacks ||| Part.hub
  | .nst _ _ _ => Part.regs ||| Part.memory ||| Part.frees ||| Part.records ||| Part.nmus ||| Part.atts ||| Part.towers ||| Part.stacks ||| Part.hub
  | .nres _ _ _ => Part.regs ||| Part.memory ||| Part.records ||| Part.nmus ||| Part.atts ||| Part.towers ||| Part.stacks ||| Part.hub
  | .nress _ _ _ => Part.regs ||| Part.memory ||| Part.records ||| Part.nmus ||| Part.atts ||| Part.towers ||| Part.stacks ||| Part.hub
  | .nmuVadd _ _ _ => Part.regs ||| Part.memory ||| Part.frees ||| Part.records ||| Part.nmus ||| Part.atts ||| Part.towers ||| Part.stacks ||| Part.hub
  | .nmuVsub _ _ _ => Part.regs ||| Part.memory ||| Part.frees ||| Part.records ||| Part.nmus ||| Part.atts ||| Part.towers ||| Part.stacks ||| Part.hub
  | .nmuVmul _ _ _ => Part.regs ||| Part.memory ||| Part.frees ||| Part.records ||| Part.nmus ||| Part.atts ||| Part.towers ||| Part.stacks ||| Part.hub
  | .nmuVfma _ _ _ => Part.regs ||| Part.memory ||| Part.frees ||| Part.records ||| Part.nmus ||| Part.atts ||| Part.towers ||| Part.stacks ||| Part.hub
  | .nmuVmax _ _ _ => Part.regs ||| Part.memory ||| Part.frees ||| Part.records ||| Part.nmus ||| Part.atts ||| Part.towers ||| Part.stacks ||| Part.hub
  | .vfmas _ _ _ => Part.regs ||| Part.memory ||| Part.frees ||| Part.records ||| Part.nmus ||| Part.atts ||| Part.towers ||| Part.stacks ||| Part.hub
  | .vmuls _ _ _ => Part.regs ||| Part.memory ||| Part.frees ||| Part.records ||| Part.nmus ||| Part.atts ||| Part.towers ||| Part.stacks ||| Part.hub
  | .vimm _ _ _ => Part.regs ||| Part.memory ||| Part.records ||| Part.nmus ||| Part.atts ||| Part.towers ||| Part.stacks ||| Part.hub
  | .vtail _ _ _ => Part.regs ||| Part.memory ||| Part.records ||| Part.nmus ||| Part.atts ||| Part.towers ||| Part.stacks ||| Part.hub
  | .hsum _ _ _ => Part.regs ||| Part.memory ||| Part.records ||| Part.nmus ||| Part.atts ||| Part.towers ||| Part.stacks ||| Part.hub
  | .hmax _ _ _ => Part.regs ||| Part.memory ||| Part.records ||| Part.nmus ||| Part.atts ||| Part.towers ||| Part.stacks ||| Part.hub
  | .hexp _ _ _ => Part.regs ||| Part.memory ||| Part.records ||| Part.nmus ||| Part.atts ||| Part.towers ||| Part.stacks ||| Part.hub
  | .nmuTransferDone _ _ _ _ _ => Part.regs ||| Part.memory ||| Part.frees ||| Part.records ||| Part.nmus ||| Part.atts ||| Part.towers ||| Part.stacks ||| Part.hub
  | .nmuStackClear _ _ => Part.regs
  | .nmuCountClear _ _ _ => Part.regs
  | .attLaunch _ _ => Part.regs ||| Part.memory ||| Part.records ||| Part.jobs ||| Part.clusters ||| Part.xfers ||| Part.nmus ||| Part.atts ||| Part.towers ||| Part.stacks ||| Part.hub
  | .nmuCompletion _ _ => Part.regs ||| Part.memory ||| Part.frees ||| Part.records ||| Part.jobs ||| Part.clusters ||| Part.xfers ||| Part.nmus ||| Part.atts ||| Part.stacks
  | .kvAppend _ => Part.regs ||| Part.memory ||| Part.frees ||| Part.log ||| Part.records ||| Part.jobs ||| Part.clusters ||| Part.atts ||| Part.towers ||| Part.stacks ||| Part.hub
  | .pageRequest _ => Part.regs ||| Part.memory ||| Part.frees ||| Part.log ||| Part.records ||| Part.atts ||| Part.towers ||| Part.stacks ||| Part.hub
  | .kvFetch _ => Part.regs ||| Part.memory ||| Part.records ||| Part.jobs ||| Part.clusters ||| Part.xfers ||| Part.atts ||| Part.towers ||| Part.stacks ||| Part.hub
  | .kvDecode _ => Part.regs ||| Part.memory ||| Part.records ||| Part.jobs ||| Part.clusters ||| Part.xfers ||| Part.atts ||| Part.towers ||| Part.stacks ||| Part.hub
  | .kvFill _ => Part.regs ||| Part.memory ||| Part.records ||| Part.atts ||| Part.towers ||| Part.stacks ||| Part.hub
  | .attCountClear _ _ => Part.regs
  | .attLabFlush _ _ => Part.atts
  | .collectiveFire => Part.regs ||| Part.memory ||| Part.frees ||| Part.log ||| Part.records ||| Part.jobs ||| Part.towers ||| Part.stacks ||| Part.hub ||| Part.links ||| Part.coll
  | .collPacket _ => Part.regs ||| Part.memory ||| Part.frees ||| Part.log ||| Part.records ||| Part.jobs ||| Part.towers ||| Part.stacks ||| Part.hub ||| Part.links ||| Part.coll
  | .collectiveComplete => Part.regs ||| Part.log ||| Part.records ||| Part.queues ||| Part.jobs ||| Part.clusters ||| Part.scores ||| Part.hurdles ||| Part.links ||| Part.coll
  | .colCountClear _ _ => Part.regs
  | .flitReceive _ _ _ => Part.regs ||| Part.memory ||| Part.time ||| Part.log ||| Part.records ||| Part.queues ||| Part.jobs ||| Part.clusters ||| Part.scores ||| Part.hurdles ||| Part.stacks ||| Part.hub ||| Part.links ||| Part.coll
  | .portNoFlitTimeout _ _ => Part.regs ||| Part.memory ||| Part.time ||| Part.log ||| Part.records ||| Part.queues ||| Part.jobs ||| Part.clusters ||| Part.scores ||| Part.hurdles ||| Part.stacks ||| Part.hub ||| Part.links ||| Part.coll
  | .portStateDone _ _ => Part.regs ||| Part.log ||| Part.records ||| Part.queues ||| Part.hub ||| Part.links
  | .portStateTimeout _ => Part.regs ||| Part.records ||| Part.queues ||| Part.links
  | .berWindow _ => Part.regs ||| Part.memory ||| Part.log ||| Part.records ||| Part.queues ||| Part.jobs ||| Part.clusters ||| Part.scores ||| Part.hurdles ||| Part.stacks ||| Part.hub ||| Part.links ||| Part.coll
  | .ident _ => Part.regs ||| Part.records ||| Part.queues ||| Part.links
  | .topo _ => Part.regs ||| Part.log ||| Part.links
  | .roleReq _ => Part.regs ||| Part.log ||| Part.links
  | .roleGrant _ => Part.regs ||| Part.log ||| Part.links
  | .roleCancel _ => Part.regs ||| Part.log ||| Part.records ||| Part.links
  | .peerLost _ => Part.regs ||| Part.memory ||| Part.log ||| Part.records ||| Part.queues ||| Part.jobs ||| Part.clusters ||| Part.scores ||| Part.hurdles ||| Part.stacks ||| Part.links ||| Part.coll
  | .tickMarker _ _ => Part.regs ||| Part.links
  | .markerMissing => Part.regs ||| Part.links
  | .fjlCountClear _ _ => Part.regs
  | .fjsCountClear _ => Part.regs
  | .controlWindow _ => Part.regs ||| Part.frees ||| Part.records ||| Part.clusters ||| Part.sup
  | .vfTransition _ => Part.regs ||| Part.sup
  | .voltageSettled _ _ => Part.regs ||| Part.sup
  | .droopCrossing _ => Part.regs ||| Part.clusters ||| Part.sup
  | .droopRelease _ _ => Part.regs ||| Part.towers ||| Part.sup
  | .pmbusPoll _ => Part.records ||| Part.sup
  | .pmbusGain _ _ => Part.regs ||| Part.frees
  | .rinWindow _ _ => Part.regs ||| Part.records
  | .vrAlert _ _ _ => Part.regs ||| Part.time ||| Part.records ||| Part.hub ||| Part.sup
  | .vrAlertRelease _ => Part.regs ||| Part.time ||| Part.sup
  | .sensorConversion _ _ _ => Part.regs ||| Part.records ||| Part.hub ||| Part.sup
  | .thmTrigger _ => Part.regs
  | .tripSample _ => Part.regs ||| Part.memory ||| Part.log ||| Part.records ||| Part.pace ||| Part.queues ||| Part.jobs ||| Part.clusters ||| Part.bases ||| Part.mcores ||| Part.vcores ||| Part.scores ||| Part.xfers ||| Part.atts ||| Part.hurdles ||| Part.stacks ||| Part.hub ||| Part.links ||| Part.coll ||| Part.sup
  | .tripRestart _ => Part.regs ||| Part.latches ||| Part.time ||| Part.records ||| Part.pace ||| Part.queues ||| Part.jobs ||| Part.clusters ||| Part.bases ||| Part.mcores ||| Part.vcores ||| Part.scores ||| Part.xfers ||| Part.nmus ||| Part.atts ||| Part.hurdles ||| Part.towers ||| Part.stacks ||| Part.hub ||| Part.links ||| Part.coll ||| Part.sup ||| Part.sec ||| Part.dbg
  | .coolantPoll _ => Part.regs ||| Part.sup
  | .rthHour _ => Part.regs ||| Part.log ||| Part.records ||| Part.sup ||| Part.sec
  | .thermalCycleSecond _ _ => Part.hub ||| Part.sup
  | .thmRthReset _ => Part.regs ||| Part.sup
  | .thmCountClear _ => Part.regs
  | .pwrCountClear _ => Part.regs
  | .cluPwrClear _ _ => Part.regs
  | .blotterAccept => Part.regs ||| Part.log ||| Part.records ||| Part.hub ||| Part.sec
  | .recordClose _ => Part.regs ||| Part.time ||| Part.log ||| Part.records ||| Part.hub ||| Part.sec
  | .bltCountClear _ => Part.regs
  | .outOfService => Part.regs ||| Part.memory ||| Part.log ||| Part.records ||| Part.pace ||| Part.queues ||| Part.jobs ||| Part.clusters ||| Part.bases ||| Part.mcores ||| Part.vcores ||| Part.xfers ||| Part.atts ||| Part.hurdles ||| Part.hub ||| Part.links ||| Part.coll ||| Part.sup ||| Part.sec
  | .hubWdtKick _ _ => Part.time ||| Part.hub
  | .watchdog _ => Part.regs ||| Part.time ||| Part.records ||| Part.hub
  | .fwReady => Part.regs ||| Part.memory ||| Part.log ||| Part.records ||| Part.pace ||| Part.queues ||| Part.jobs ||| Part.clusters ||| Part.bases ||| Part.mcores ||| Part.vcores ||| Part.xfers ||| Part.atts ||| Part.hurdles ||| Part.towers ||| Part.stacks ||| Part.hub ||| Part.links ||| Part.coll ||| Part.sup ||| Part.sec
  | .fwSwitchTimeout => Part.regs ||| Part.memory ||| Part.log ||| Part.records ||| Part.queues ||| Part.jobs ||| Part.clusters ||| Part.atts ||| Part.towers ||| Part.stacks ||| Part.hub ||| Part.sup
  | .lifeHour _ _ _ => Part.hub
  | .lifeDay => Part.records ||| Part.hub
  | .coldBringup => Part.regs ||| Part.latches ||| Part.records ||| Part.pace ||| Part.queues ||| Part.jobs ||| Part.clusters ||| Part.bases ||| Part.mcores ||| Part.vcores ||| Part.scores ||| Part.xfers ||| Part.nmus ||| Part.atts ||| Part.hurdles ||| Part.towers ||| Part.stacks ||| Part.hub ||| Part.links ||| Part.coll ||| Part.sup ||| Part.sec ||| Part.dbg
  | .bringupStage _ => Part.regs ||| Part.memory ||| Part.time ||| Part.log ||| Part.records ||| Part.pace ||| Part.queues ||| Part.jobs ||| Part.clusters ||| Part.bases ||| Part.mcores ||| Part.vcores ||| Part.scores ||| Part.xfers ||| Part.atts ||| Part.hurdles ||| Part.towers ||| Part.stacks ||| Part.hub ||| Part.links ||| Part.coll ||| Part.sup ||| Part.sec
  | .farScrubDone _ _ => Part.memory ||| Part.stacks
  | .brgRecGo _ => Part.regs ||| Part.latches ||| Part.records ||| Part.pace ||| Part.queues ||| Part.jobs ||| Part.clusters ||| Part.bases ||| Part.mcores ||| Part.vcores ||| Part.scores ||| Part.xfers ||| Part.nmus ||| Part.atts ||| Part.hurdles ||| Part.towers ||| Part.stacks ||| Part.hub ||| Part.links ||| Part.coll ||| Part.sup ||| Part.sec ||| Part.dbg
  | .secLcCtrl _ => Part.regs ||| Part.memory ||| Part.frees ||| Part.log ||| Part.records ||| Part.pace ||| Part.queues ||| Part.jobs ||| Part.clusters ||| Part.bases ||| Part.mcores ||| Part.vcores ||| Part.xfers ||| Part.atts ||| Part.hurdles ||| Part.towers ||| Part.stacks ||| Part.hub ||| Part.links ||| Part.coll ||| Part.sup ||| Part.sec
  | .tamper _ => Part.regs ||| Part.memory ||| Part.log ||| Part.pace ||| Part.queues ||| Part.jobs ||| Part.clusters ||| Part.bases ||| Part.mcores ||| Part.vcores ||| Part.xfers ||| Part.atts ||| Part.hurdles ||| Part.towers ||| Part.links ||| Part.coll ||| Part.sup ||| Part.sec
  | .getVersion _ => Part.log ||| Part.sec
  | .getCapabilities _ => Part.frees ||| Part.log ||| Part.sec
  | .negotiateAlgorithms _ => Part.log ||| Part.sec
  | .getDigests _ => Part.log
  | .getCertificate _ => Part.log
  | .challenge _ => Part.frees ||| Part.log ||| Part.sec
  | .getMeasurements _ => Part.frees ||| Part.log ||| Part.sec
  | .mctpControl _ => Part.log ||| Part.sec
  | .setEventReceiver _ => Part.log ||| Part.sec
  | .pldmSensorRead _ => Part.log
  | .vpkgUndervoltage => Part.regs ||| Part.memory ||| Part.log ||| Part.records ||| Part.pace ||| Part.queues ||| Part.jobs ||| Part.clusters ||| Part.bases ||| Part.mcores ||| Part.vcores ||| Part.scores ||| Part.xfers ||| Part.atts ||| Part.hurdles ||| Part.stacks ||| Part.hub ||| Part.links ||| Part.coll ||| Part.sup
  | .vpkgRestart _ => Part.regs ||| Part.time ||| Part.queues ||| Part.hub ||| Part.sup
  | .vauxLoss => Part.regs ||| Part.latches ||| Part.records ||| Part.pace ||| Part.queues ||| Part.jobs ||| Part.clusters ||| Part.bases ||| Part.mcores ||| Part.vcores ||| Part.scores ||| Part.xfers ||| Part.nmus ||| Part.atts ||| Part.hurdles ||| Part.towers ||| Part.stacks ||| Part.hub ||| Part.links ||| Part.coll ||| Part.sup ||| Part.sec ||| Part.dbg
  | .pinReadback _ _ => Part.regs ||| Part.memory ||| Part.log ||| Part.records ||| Part.pace ||| Part.queues ||| Part.jobs ||| Part.clusters ||| Part.bases ||| Part.mcores ||| Part.vcores ||| Part.scores ||| Part.xfers ||| Part.atts ||| Part.hurdles ||| Part.stacks ||| Part.hub ||| Part.links ||| Part.coll ||| Part.sup
  | .pinOffWrite _ => Part.regs ||| Part.memory ||| Part.log ||| Part.records ||| Part.pace ||| Part.queues ||| Part.jobs ||| Part.clusters ||| Part.bases ||| Part.mcores ||| Part.vcores ||| Part.scores ||| Part.xfers ||| Part.atts ||| Part.hurdles ||| Part.stacks ||| Part.hub ||| Part.links ||| Part.coll ||| Part.sup
  | .pinCountClear _ => Part.regs
  | .dbgToken _ => Part.regs ||| Part.sec ||| Part.dbg
  | .dbgAccess _ => Part.dbg
  | .dbgAccessDone => Part.regs ||| Part.latches ||| Part.memory ||| Part.time ||| Part.frees ||| Part.log ||| Part.records ||| Part.pace ||| Part.queues ||| Part.jobs ||| Part.clusters ||| Part.bases ||| Part.mcores ||| Part.vcores ||| Part.scores ||| Part.xfers ||| Part.nmus ||| Part.atts ||| Part.hurdles ||| Part.towers ||| Part.stacks ||| Part.hub ||| Part.links ||| Part.coll ||| Part.sup ||| Part.sec ||| Part.dbg
  | .dbgHalt => Part.hub
  | .dbgResume => Part.regs ||| Part.memory ||| Part.log ||| Part.records ||| Part.jobs ||| Part.clusters ||| Part.atts ||| Part.towers ||| Part.stacks ||| Part.hub ||| Part.sup
  | .extest _ => Part.dbg
  | .samplePreload _ => Part.dbg
  | .cluTrcClear _ _ => Part.regs ||| Part.clusters
  | .cluPerfClear _ _ => Part.regs
  | .bar2Access _ _ _ _ => Part.regs ||| Part.memory ||| Part.frees ||| Part.log ||| Part.records ||| Part.towers ||| Part.stacks ||| Part.hub
  | .resizableBarSelect _ _ => Part.queues
  | .vfEnableSet _ => Part.queues
  | .cxlLinkTrained _ _ _ _ => Part.regs ||| Part.sup
  | .refresh _ _ _ _ => Part.time ||| Part.stacks
  | .verificationFail => Part.regs ||| Part.memory ||| Part.log ||| Part.records ||| Part.queues ||| Part.jobs ||| Part.clusters ||| Part.atts ||| Part.towers ||| Part.stacks ||| Part.hub ||| Part.sup

end Sys2Proof.Machine
end

