-- ==== Sys2Proof/Certificates/Slice0/Obligations.lean ====
section
/-!
DEFINITION. The statements for the provers, from the rules of the spec: what each command leaves and where it completes, what no command may change,
what every step keeps, and the maps and operations that the commands share.
-/
open Sys2Proof Sys2Proof.Machine

/-- A step takes the command at the front of the queue and runs it on the state with the queue's rest. -/
def Obligations.StepRunsTheFrontCommand : Prop := ∀ (c : Instr) (r : List Instr) (s : State), s.pending = c :: r → step s = exec c { s with pending := r }

/-- On an empty queue the block idles (log 1: the model's choice). -/
def Obligations.EmptyQueueIdles : Prop := ∀ s : State, s.pending = [] → step s = .next s

/-- What reset leaves: canonical memories and registers, nothing waiting, nothing sent, every register of the window at its reset value, no block locked. -/
def Obligations.ResetLeavesTheResetValues : Prop :=
  State.reset.canonical = true ∧ State.reset.pending = [] ∧ State.reset.mem = [] ∧ State.reset.host = [] ∧ State.reset.out = [] ∧ State.reset.reports = [] ∧ State.reset.recs = [] ∧
  (∀ o, rawReg State.reset o = regReset o) ∧ (∀ n : Fin 6, rawReg State.reset (0x300 + 4 * n) = 0#32) ∧ rawReg State.reset (pwrBlk + 4) = 0x0A28#32 ∧ rawReg State.reset (bltBlk + 4) = 0x03E8#32 ∧
  (∀ c : Fin 64, locked State.reset (cluBlk c) = false) ∧ locked State.reset 0 = false ∧ locked State.reset pwrBlk = false

/-- Every step keeps the canonical form of the memories, the blot bits and the register file. -/
def Obligations.EveryStepKeepsTheForm : Prop := ∀ s t : State, s.canonical = true → step s = .next t → t.canonical = true

/-- Every command answers a next state: it leaves the queue, turns neither time nor the count of free values back, takes back no output, and changes
no part of the state outside those that `frameOf` names for it. -/
def Obligations.EveryCommandKeepsItsFrame : Prop := ∀ (c : Instr) (s : State), KeepsOut (frameOf c) s (exec c s)

/-- No step ends in a fault or a refusal; a step takes one command off the queue and takes back neither time nor an output. -/
def Obligations.EveryStepGoesOn : Prop :=
  ∀ s : State, ∃ t, step s = .next t ∧ t.pending = s.pending.tail ∧ s.now ≤ t.now ∧ s.out <+: t.out

/-- No step lowers the fused security version or takes an owner key back, and the four key slots are never exceeded (R691, R693). -/
def Obligations.SecurityNeverFallsBack : Prop :=
  ∀ s t : State, step s = .next t → s.sec.fusedSvn ≤ t.sec.fusedSvn ∧ s.sec.owners <+: t.sec.owners ∧ (s.sec.owners.length ≤ 4 → t.sec.owners.length ≤ 4)

/-- A command that is turned away replies with its status and changes nothing else, for each of the 46 opcodes (R158, R176, R622, R648, R697). -/
def Obligations.TurnedAwayCommandsOnlyReply : Prop :=
  (∀ h, TurnsAway h 0x00 [] (.nop h)) ∧
  (∀ h q, TurnsAway h 0x01 (queueParams q) (.createQueue h q)) ∧
  (∀ h pair, TurnsAway h 0x02 [pair] (.deleteQueue h pair)) ∧
  (∀ h pair, TurnsAway h 0x03 [pair] (.flushQueue h pair)) ∧
  (∀ h count hurdle, TurnsAway h 0x16 [count, hurdle] (.hurdleArrive h count hurdle)) ∧
  (∀ h hurdle, TurnsAway h 0x17 [hurdle] (.hurdleWait h hurdle)) ∧
  (∀ h base pages pageBytes, TurnsAway h 0x30 [base, pages, pageBytes] (.kvPoolSet h base pages pageBytes)) ∧
  (∀ h seq layers, TurnsAway h 0x31 [seq, layers] (.kvSeqCreate h seq layers)) ∧
  (∀ h src dst tokens, TurnsAway h 0x32 [src, dst, tokens] (.kvSeqFork h src dst tokens)) ∧
  (∀ h seq, TurnsAway h 0x33 [seq] (.kvSeqFree h seq)) ∧
  (∀ h farBase farPages high low, TurnsAway h 0x34 [farBase, farPages, high, low] (.kvSpillPolicy h farBase farPages high low)) ∧
  (∀ h first banks tower mode, TurnsAway h 0x82 [first, banks, tower, mode] (.marchRun h first banks tower mode)) ∧
  (∀ h seed step, TurnsAway h 0x42 [seed, step] (.seedSet h seed step)) ∧
  (∀ h dst len first count, TurnsAway h 0x40 [dst, len, first, count] (.shardExport h dst len first count)) ∧
  (∀ h src len, TurnsAway h 0x41 [src, len] (.shardImport h src len)) ∧
  (∀ h dst max, TurnsAway h 0x62 [dst, max] (.blotterRead h dst max)) ∧
  (∀ h dst max, TurnsAway h 0x22 [dst, max] (.retiredPagesRead h dst max)) ∧
  (∀ h dst len, TurnsAway h 0x63 [dst, len] (.lifeRecordRead h dst len)) ∧
  (∀ h utc, TurnsAway h 0x86 [utc] (.timeSet h utc)) ∧
  (∀ h image len, TurnsAway h 0x10 [image, len] (.loadSchedule h image len)) ∧
  (∀ h sched, TurnsAway h 0x11 [sched] (.unloadSchedule h sched)) ∧
  (∀ h sched laps mode kind, TurnsAway h 0x12 [sched, laps, mode, kind] (.startJob h sched laps mode kind)) ∧
  (∀ h sched count, TurnsAway h 0x13 [sched, count] (.launchLap h sched count)) ∧
  (∀ h sched, TurnsAway h 0x14 [sched] (.stopJob h sched)) ∧
  (∀ h sched lap, TurnsAway h 0x15 [sched, lap] (.haltAtLap h sched lap)) ∧
  (∀ h port, TurnsAway h 0x83 [port] (.portRetrain h port)) ∧
  (∀ h src len target, TurnsAway h 0x50 [src, len, target] (.configBaseLoad h src len target)) ∧
  (∀ h src len target slot, TurnsAway h 0x51 [src, len, target, slot] (.overlayApply h src len target slot)) ∧
  (∀ h target slot, TurnsAway h 0x52 [target, slot] (.overlayRemove h target slot)) ∧
  (∀ h dst len, TurnsAway h 0x53 [dst, len] (.configRead h dst len)) ∧
  (∀ h target watts, TurnsAway h 0x70 [target, watts] (.powerCapSet h target watts)) ∧
  (∀ h sched compute memory link floorStep, TurnsAway h 0x71 [sched, compute, memory, link, floorStep] (.powerPlanSet h sched compute memory link floorStep)) ∧
  (∀ h, TurnsAway h 0x72 [] (.park h)) ∧
  (∀ h, TurnsAway h 0x73 [] (.unpark h)) ∧
  (∀ h src len, TurnsAway h 0x84 [src, len] (.fwStage h src len)) ∧
  (∀ h target, TurnsAway h 0x85 [target] (.fwSwitch h target)) ∧
  (∀ h target unit, TurnsAway h 0x80 [target, unit] (.unitOut h target unit)) ∧
  (∀ h target unit, TurnsAway h 0x81 [target, unit] (.unitIn h target unit)) ∧
  (∀ h src dst len host, TurnsAway h 0x20 [src, dst, len, host] (.copy h src dst len host)) ∧
  (∀ h dst len pattern, TurnsAway h 0x21 [dst, len, pattern] (.fill h dst len pattern)) ∧
  (∀ h dst cluster, TurnsAway h 0x61 [dst, cluster] (.countersRead h dst cluster)) ∧
  (∀ h dst sets, TurnsAway h 0x60 [dst, sets] (.telemetrySnapshot h dst sets)) ∧
  (∀ h vi payload, TurnsAway h 0x04 [vi, leNat payload] (.viCreate h vi payload)) ∧
  (∀ h dst vi, TurnsAway h 0x07 [dst, vi] (.viQuery h dst vi)) ∧
  (∀ h vi, TurnsAway h 0x05 [vi] (.viDestroy h vi)) ∧
  (∀ h vi, TurnsAway h 0x06 [vi] (.viReset h vi))

/-- What a lane operation leaves (R292, R297): each enabled lane of VD takes its result, each other lane and each other register holds. -/
def Obligations.LaneOperationsWriteEnabledLanes : Prop :=
  ∀ (k : Nat) (f : VFields) (srcs : List Nat) (g : Nat → Nat) (s : State),
    (∀ i, i < 2048 / laneBits f.ty → vOn s k f i = true → lane (vx (laneOp k f srcs g s) k f.vd) (laneBits f.ty) i = g i % 2 ^ laneBits f.ty) ∧
    (∀ i, i < 2048 / laneBits f.ty → vOn s k f i = false → lane (vx (laneOp k f srcs g s) k f.vd) (laneBits f.ty) i = lane (vx s k f.vd) (laneBits f.ty) i) ∧
    (∀ r, r ≠ f.vd → vx (laneOp k f srcs g s) k r = vx s k r)

/-- Integer lane operations (R301): sums, differences, products and negations wrap to the lane, the absolute value of the least value is that value, and
the greater and the lesser compare as signed numbers. -/
def Obligations.IntegerLanesWrap : Prop :=
  ∀ ty a b c : Nat, (ty = 3 ∨ ty = 4) → a < 2 ^ laneBits ty → b < 2 ^ laneBits ty → c < 2 ^ laneBits ty →
    vaddLane ty a b = (a + b) % 2 ^ laneBits ty ∧ vsubLane ty a b = (a + 2 ^ laneBits ty - b) % 2 ^ laneBits ty ∧
    vmulLane ty a b = a * b % 2 ^ laneBits ty ∧ vfmaLane ty a b c = (a * b + c) % 2 ^ laneBits ty ∧ vnegLane ty a = (2 ^ laneBits ty - a) % 2 ^ laneBits ty ∧
    vabsLane ty (2 ^ (laneBits ty - 1)) = 2 ^ (laneBits ty - 1) ∧ sext (laneBits ty) (vabsLane ty 1) = 1 ∧
    sext (laneBits ty) (vmaxLane ty a b) = max (sext (laneBits ty) a) (sext (laneBits ty) b) ∧
    sext (laneBits ty) (vminLane ty a b) = min (sext (laneBits ty) a) (sext (laneBits ty) b)

/-- The map of stack addresses to DRAM (R59) loses no address: from the stack, the logical page and the byte the address comes back, in every
mode; and in both modes a PIM region keeps the slots 4r to 4r + 3 of the bank pairs. -/
def Obligations.StackMapInverts : Prop :=
  (∀ (s : State) (a : Nat), a < 0x004000000000 → pageAddr s (plainLoc a).stack (plainLoc a).lpi + (plainLoc a).byte = a ∧
    (plainLoc a).stack < 4 ∧ (plainLoc a).channel < 32 ∧ (plainLoc a).bank < 16 ∧ (plainLoc a).page < 65536) ∧
  (∀ (s : State) (o : Nat), o < 0x003000000000 → pageAddr s (pimLoc (pimLocal s (o >>> 30)) o).stack (pimLoc (pimLocal s (o >>> 30)) o).lpi + (pimLoc (pimLocal s (o >>> 30)) o).byte = pimBase + o ∧
    4 ≤ (pimLoc (pimLocal s (o >>> 30)) o).stack ∧ (pimLoc (pimLocal s (o >>> 30)) o).stack < 8 ∧ (pimLoc (pimLocal s (o >>> 30)) o).channel < 32 ∧
    (pimLoc (pimLocal s (o >>> 30)) o).bank < 16 ∧ (pimLoc (pimLocal s (o >>> 30)) o).page < 49152) ∧
  (∀ (l : Bool) (o : Nat), o < 0x003000000000 → (pimLoc l o).page / 64 / 4 = o >>> 30)

/-- A unit's local addresses (R428): a PIM-local address lies under its unit at ⌊o / 2^28⌋ × 2^18 + o mod 2^18, and an address past the banks has no place. -/
def Obligations.UnitLocalAddresses : Prop :=
  (∀ o : Nat, o < 0x003000000000 → lamLoc ((pimLoc true o).stack - 4) (pimLoc true o).nmu ((o >>> 28) * 2 ^ 18 + o % 2 ^ 18) = some (pimLoc true o)) ∧
  (∀ st u lam : Nat, 0x0C000000 ≤ lam → lamLoc st u lam = none)

/-- The banks of a tower (R327): byte q of piece p lies in bank 128p + (u mod 128), in row ⌊u / 128⌋, at byte q mod 512, where u = ⌊q / 512⌋; from bank, row and
granule the offset comes back. -/
def Obligations.TowerBanksHoldPieces : Prop :=
  ∀ p q : Nat, q < 2 ^ 26 → bankOf (2 ^ 26 * p + q) = 128 * p + q / 512 % 128 ∧ bankRow (2 ^ 26 * p + q) = q / 512 / 128 ∧
    bankOffset (bankOf (2 ^ 26 * p + q)) (bankRow (2 ^ 26 * p + q)) (q % 512 / 64) + q % 64 = 2 ^ 26 * p + q

/-- What a granule write leaves (R228): the bytes that are given, every other byte of memory as it was, and the blot bit of the data for a whole granule, or
a blotted granule where the data or the granule was blotted before. -/
def Obligations.GranuleWritesLand : Prop :=
  (∀ (g : Nat) (l : List (Option (BitVec 8))) (b : Bool) (s : State), badPage s (64 * g) = false → kvGet (fun _ => false) s.uncorr g = false → l.length ≤ 64 →
    ∀ x, memByte (storeGran (64 * g) l b s) x = if 64 * g ≤ x ∧ x < 64 * g + l.length then ((l[x - 64 * g]?).getD none).getD (memByte s x) else memByte s x) ∧
  (∀ (g : Nat) (l : List (Option (BitVec 8))) (b : Bool) (s : State), l.all (fun x => x.isSome) = true → blotAt (storeGran (64 * g) l b s) (64 * g) = b) ∧
  (∀ (g : Nat) (l : List (Option (BitVec 8))) (b : Bool) (s : State), l.all (fun x => x.isSome) = false → badPage s (64 * g) = false → kvGet (fun _ => false) s.uncorr g = false →
    blotAt (storeGran (64 * g) l b s) (64 * g) = (blotAt s (64 * g) || b)) ∧
  (∀ (g : Nat) (l : List (Option (BitVec 8))) (b : Bool) (s : State), l.all (fun x => x.isSome) = false → (blotAt s (64 * g) || b) = true → blotAt (storeGran (64 * g) l b s) (64 * g) = true) ∧
  (∀ (g h : Nat) (l : List (Option (BitVec 8))) (b : Bool) (s : State), badPage s (64 * g) = false → h ≠ g → blotAt (storeGran (64 * g) l b s) (64 * h) = blotAt s (64 * h))

/-- CONFIG_READ (R687): the base image and then each overlay image in list order, each as stored; where these need more than LEN bytes nothing is written and
the command completes with QUOTA. -/
def Obligations.ConfigReadReturnsTheImages : Prop :=
  ∀ h dst len (s : State), accepted s h 0x53 [dst, len] →
    let l := s.hub.base ++ s.hub.overlays.flatMap (fun x => x.2)
    (l.length ≤ len → exec (.configRead h dst len) s = .next (replyData h 0x53 dst l l.length s)) ∧
    (len < l.length → exec (.configRead h dst len) s = .next (fail h 0x53 stQuota s))

/-- RESET of a hurdle (R209): COUNT is 0, GEN, TARGET and MODE hold, and in CYCLE and TOKEN mode a TARGET of 0 acts as 1. GEN is a field of 16 bits. -/
def Obligations.HurdleResetKeepsItsSetting : Prop :=
  (∀ h : Hurdle, h.gen < 65536 → h.applyOps [.reset] = { h with count := 0 }) ∧
  (∀ h : Hurdle, (h.mode = 1 ∨ h.mode = 2) → h.target = 0 → h.goal = 1) ∧ (∀ h : Hurdle, 0 < h.target → h.goal = h.target) ∧ (∀ h : Hurdle, h.mode = 0 → h.goal = h.target)

/-- The pages of a KV pool (R467): C is the control area in whole blocks of 256 KiB, page k lies at BASE + C + ⌊k / n⌋ × 262,144 + (k mod n) × PAGE_BYTES, the
area has ⌈PAGES / n⌉ blocks after it, no page crosses a block, and an offset in a page names that page. -/
def Obligations.KvPagesLieInTheirBlocks : Prop :=
  ∀ (s : State) (f k : Nat), 0 < kvPageBytes s f → kvPageBytes s f ≤ 262144 → 0 < kvPages s f →
    let n := 262144 / kvPageBytes s f
    kvPageAt s f k = kvBase s f + kvControl (kvPages s f) + k / n * 262144 + k % n * kvPageBytes s f ∧
    262144 ∣ kvControl (kvPages s f) ∧ 0x81000 + 8 * kvPages s f ≤ kvControl (kvPages s f) ∧ kvControl (kvPages s f) < 0x81000 + 8 * kvPages s f + 262144 ∧
    kvAreaLen (kvPages s f) (kvPageBytes s f) = kvControl (kvPages s f) + (kvPages s f + n - 1) / n * 262144 ∧
    kvOffset s f k / 262144 = (kvOffset s f k + kvPageBytes s f - 1) / 262144 ∧
    ∀ j, j < kvPageBytes s f → kvPageOf s f (kvOffset s f k + j) = k
/-- The strokes common to all cores (Table 5.8) issue when ready: NOP and DELAY have no effect of their own, LAP_END ends the runner's lap. -/
def Obligations.CommonStrokesIssue : Prop :=
  IssuesAs (mayIssue 3 0) .commonNop (fun _ _ s => { s := s }) ∧
  IssuesAs (mayIssue 3 2) .delay (fun _ _ s => { s := s }) ∧
  IssuesAs (mayIssue 3 1) .lapEnd (fun k _ s => { s := modRunner k (fun r => { r with busy := false, skip := 0, ended := true }) s })

/-- Lane strokes of Table 7.5: a ready one issues, and each enabled lane of VD takes the operation on the operand lanes, after
the parity error that its register reads meet, if any (R324). -/
def Obligations.VectorLaneStrokesIssue : Prop :=
  VIssuesAs 0x01 .vadd
    (laneStroke srcAB (fun s k f i => vaddLane f.ty (vA s k f i) (vB s k f i))) ∧
  VIssuesAs 0x02 .vsub (laneStroke srcAB (fun s k f i => vsubLane f.ty (vA s k f i) (vB s k f i))) ∧
  VIssuesAs 0x03 .vmul (laneStroke srcAB (fun s k f i => vmulLane f.ty (vA s k f i) (vB s k f i))) ∧
  VIssuesAs 0x04 .vfma
    (laneStroke (fun f => f.vc :: srcAB f) (fun s k f i => vfmaLane f.ty (vA s k f i) (vB s k f i) (vC s k f i))) ∧
  VIssuesAs 0x05 .vmax (laneStroke srcAB (fun s k f i => vmaxLane f.ty (vA s k f i) (vB s k f i))) ∧
  VIssuesAs 0x06 .vmin (laneStroke srcAB (fun s k f i => vminLane f.ty (vA s k f i) (vB s k f i))) ∧
  VIssuesAs 0x07 .vabs (laneStroke srcA (fun s k f i => vabsLane f.ty (vA s k f i))) ∧
  VIssuesAs 0x08 .vneg (laneStroke srcA (fun s k f i => vnegLane f.ty (vA s k f i))) ∧
  VIssuesAs 0x09 .vand (laneStroke srcAB (fun s k f i => vA s k f i &&& vB s k f i)) ∧
  VIssuesAs 0x0A .vor (laneStroke srcAB (fun s k f i => vA s k f i ||| vB s k f i)) ∧
  VIssuesAs 0x0B .vxor (laneStroke srcAB (fun s k f i => vA s k f i ^^^ vB s k f i)) ∧
  VIssuesAs 0x0C .vshift
    (laneStroke srcAB (fun s k f i => vshiftLane f.func (laneBits f.ty) (vA s k f i) (vB s k f i))) ∧
  VIssuesAs 0x0F .vrot (laneStroke srcAB (fun s k f i => vrotLane f.ty (vA s k f) (vB s k f) i))

/-- The transcendental strokes (R307): an enabled lane takes the function of a, or of a minus b with FUNC[0], in binary32 and rounded to
TYPE. -/
def Obligations.TranscendentalStrokesIssue : Prop :=
  ∀ e ∈ ([(0x20, Instr.vexp, vexp), (0x21, .vlog, vlog), (0x22, .vrsq, vrsq), (0x23, .vrcp, vrcp), (0x24, .vtanh, vtanh)] :
      List (Nat × (RunnerRef → StrokeWord → Option (Nat × Nat) → Instr) × (Nat → Nat))),
    VIssuesAs e.1 e.2.1 (fun k w s =>
      laneStroke (fun f => if f.func % 2 = 1 then srcAB f else srcA f) (fun s k f i =>
        let x := enc32 (vVal f.ty (vA s k f i))
        let y := e.2.2 (if f.func % 2 = 1 then f32sub x (enc32 (vVal f.ty (vB s k f i))) else x)
        if f.ty = 0 then y else fpEnc (vFmt f.ty) .rne false (dec32 y)) k w s)

/-- Strokes across lanes (R303, Table 7.5): reductions put the value of the tree in lane 0, or in every lane with FUNC[0]; VBCAST puts one lane
of a in every lane; VPERM moves lanes of a by the lanes of b; VSEL chooses by the mask. -/
def Obligations.CrossLaneStrokesIssue : Prop :=
  VIssuesWhen 0x30 .vrsum vrsumEffect ∧ VIssuesWhen 0x31 .vrmax vrmaxEffect ∧
  VIssuesWhen 0x32 .vrmin vrminEffect ∧
  (∀ k w s, ∃ o, vrsumEffect k w s = some o ∧ lane (vx o.s k (vFields w).vd) 32 0 =
    tree (if vFloat (vFields w).ty then f32add else fun x y => (x + y) % 2 ^ 32) ((List.range (laneCount (vFields w).ty)).map (fun i =>
      if vOn s k (vFields w) i then
        (if vFloat (vFields w).ty then enc32 (vVal (vFields w).ty (vA s k (vFields w) i))
         else wrapInt 32 (sext (laneBits (vFields w).ty) (vA s k (vFields w) i)))
      else if vFloat (vFields w).ty then 0x80000000 else 0)) % 2 ^ 32) ∧
  VIssuesAs 0x39 .vbcast (fun k w s =>
    let f := vFields w
    let j := f.imm % 128 % laneCount f.ty
    { s := vWrite k f.vd (laneBits f.ty) (fun _ => some (vA s k f j))
        (List.replicate 4 (maskTag s k f.mask || vTag s k f.va (quarterOf (laneBits f.ty) j))) s }) ∧
  VIssuesWhen 0x38 .vperm vpermEffect ∧
  VIssuesAs 0x0E .vsel (fun k w s =>
    let f := vFields w
    { s := vWrite k f.vd (laneBits f.ty) (fun i => some (if vOn s k f i then vA s k f i else vB s k f i))
        (laneTags s k f (laneBits f.ty) (srcAB f) (fun _ => true)) s })

/-- Strokes that set masks, bases, keys and CB, and those that draw random lanes (R309 to R312). -/
def Obligations.VectorSetupStrokesIssue : Prop :=
  IssuesAs (vMayIssue 0x53) .vsetm (fun k w s =>
    let f := vFields w
    { s := setMask k (f.vd % 8) (BitVec.ofNat 128 (((List.range 128).map (fun i =>
        b2n (decide (f.imm % 256 ≤ i ∧ i < f.imm % 256 + f.imm / 256 % 256)) * 2 ^ i)).sum)) false s }) ∧
  IssuesAs (vMayIssue 0x50) .vsetb (fun k w s =>
    { s := if sb w 83 then setAb k (sf w 80 3) (getAb s k (sf w 80 3) + sf w 32 48) (getAbTag s k (sf w 80 3)) s
           else setAb k (sf w 80 3) (sf w 32 48) false s }) ∧
  IssuesAs (vMayIssue 0x52) .vsetc (fun k w s =>
    { s := setCb k (if sb w 32 then (getV s k).cb + BitVec.ofNat 64 (sf w 64 64) else BitVec.ofNat 64 (sf w 64 64)) s }) ∧
  (∀ r w s, vMayIssue 0x51 r w s = true → sf w 34 2 = 0 →
    exec (.vsetk r w) s = .next (issued r w { s := setKey (refNo r) (sf w 32 2) (BitVec.ofNat 64 (sf w 64 64)) s })) ∧
  (∀ r w s, vMayIssue 0x51 r w s = true → sf w 34 2 = 1 →
    exec (.vsetk r w) s = .next (issued r w
      { s := setKey (refNo r) (sf w 32 2) (rgen (vKey s (refNo r) (sf w 36 2)) (BitVec.ofNat 64 (sf w 64 64))) s })) ∧
  VIssuesAs 0x11 .vrgen (fun k w s =>
    let f := { vFields w with ty := 0 }
    { s := advance k f 64 (laneOp k f []
        (fun i => (rgen (vKey s k f.key) ((getV s k).cb + BitVec.ofNat 64 i)).toNat % 2 ^ 32) s) }) ∧
  VIssuesWhen 0x0D .vcmp vcmpEffect ∧ VIssuesWhen 0x10 .vcvt vcvtEffect ∧
  (∀ k w s, (vcmpEffect k w s).isSome ∧ (vcvtEffect k w s).isSome)

/-- Memory strokes and optimizer strokes of the V-core issue with their effects (R305, R306, R519 to R524), on the state t that the parity error of
their register reads leaves (R324): a load to an aligned address in memory reads LEN + 1 granules into VREG, and a store writes them. -/
def Obligations.VectorMemoryStrokesIssue : Prop :=
  (∀ r w p s, vMayIssue 0x40 r w s = true → (vMem w).chan = false →
    let t := vParity p (refNo r) w s
    let m := vMem w
    vAddr t (refNo r) m % 64 = 0 →
    let x := coreRead (refNo r) (vAddr t (refNo r) m) (64 * (m.len + 1)) (vAddrTag t (refNo r) m) t
    exec (.vld r w p) s = .next (issued r w { s := vLoad (refNo r) m x.data false x.s, busErr := !x.ok })) ∧
  (∀ r w p s, vMayIssue 0x41 r w s = true → (vMem w).chan = false → (vMem w).aop = 0 →
    let t := vParity p (refNo r) w s
    vAddr t (refNo r) (vMem w) % 64 = 0 →
    let x := vstStore (refNo r) (vMem w) (vAddr t (refNo r) (vMem w)) t
    exec (.vst r w p) s = .next (issued r w { s := x.s, busErr := !x.ok, blots := x.blots })) ∧
  VIssuesWhen 0x40 .vld vldEffect ∧ VIssuesWhen 0x41 .vst vstEffect ∧
  VIssuesWhen 0x42 .vgath vgathEffect ∧ VIssuesWhen 0x43 .vscat vscatEffect ∧
  VIssuesWhen 0x60 .vadamw (optEffect true) ∧ VIssuesWhen 0x61 .vsgdm (optEffect false) ∧
  (∀ k w s, (vMem w).idxChan = false → (vgathEffect k w s).isSome ∧ (vscatEffect k w s).isSome) ∧
  (∀ b k w s, (optEffect b k w s).isSome)

/-- The M-core strokes (Tables 6.10 to 6.15): bases, loads of tiles and scales from memory, passes, accumulator entries and write-backs. -/
def Obligations.MatrixStrokesIssue : Prop :=
  IssuesAs (mayIssue 0 0x08) .msetb (fun k w s =>
    { s := if sb w 83 then setAb k (sf w 80 3) (getAb s k (sf w 80 3) + sf w 32 48) (getAbTag s k (sf w 80 3)) s
           else setAb k (sf w 80 3) (sf w 32 48) false s }) ∧
  IssuesWhen (mMayIssue 0x10) .mlda mldaEffect ∧ IssuesWhen (mMayIssue 0x11) .mlds mldsEffect ∧
  (∀ k w s, sb w 80 = false → (mldaEffect k w s).isSome ∧ (mldsEffect k w s).isSome) ∧
  (∀ b, IssuesWhen (mMayIssue 0x20) (fun r w => .mpass r w b) (mpassEffect b)) ∧
  (∀ b k w s, (mpassEffect b k w s).isSome) ∧
  (∀ r w s, mMayIssue 0x30 r w s = true → sb w 80 = true →
    exec (.macl r w) s = .next (issued r w { s := modM (refNo r) (fun m => (rowsOf (accArrays w)).foldl (fun m x =>
      m.putAcc x.1 x.2 (accCol w) (List.replicate (accN w) (0#32, false))) m) s })) ∧
  IssuesWhen (mMayIssue 0x30) .macl maclEffect ∧
  (∀ r w s, mMayIssue 0x40 r w s = true → sf w 80 2 = 0 →
    let x := wbStore (refNo r) w s
    exec (.mwb r w) s = .next (issued r w
      { s := modM (refNo r) (wbClear w) x.s, busErr := !x.ok, blots := x.blots })) ∧
  IssuesWhen (mMayIssue 0x40) .mwb mwbEffect

/-- The scalar strokes (Table 7.7) that write SD, memory, or a base that lands at completion (R320). -/
def Obligations.ScalarStrokesIssue : Prop :=
  SIssuesAs 0x01 .salu (fun k w s =>
    let f := sFields w
    { s := setSx k f.sd (saluOp f.func (sx s k f.sa) (opB s k w)) (sxTag s k f.sa || opBTag s k w) s }) ∧
  IssuesAs (sMayIssue 0x02) .sli (fun k w s => { s := setSx k (sFields w).sd (BitVec.ofNat 64 (sFields w).imm) false s }) ∧
  IssuesAs (sMayIssue 0x03) .sget (fun k w s =>
    { s := setSx k (sFields w).sd (BitVec.ofNat 64 (sgetValue s k (sFields w).func)) false s }) ∧
  (∀ r w p s, sMayIssue 0x10 r w s = true → (sFields w).func = 0 →
    let t := sParity p (refNo r) w s
    sAddr t (refNo r) w % 8 = 0 →
    let x := coreRead (refNo r) (sAddr t (refNo r) w) 8 (sxTag t (refNo r) (sFields w).sa) t
    exec (.sld r w p) s = .next (issued r w
      { s := setSx (refNo r) (sFields w).sd (BitVec.ofNat 64 (leNat (tBytes x.data))) (tBlot x.data) x.s, busErr := !x.ok })) ∧
  (∀ r w p s, sMayIssue 0x11 r w s = true → (sFields w).func = 0 →
    let t := sParity p (refNo r) w s
    let f := sFields w
    let k := refNo r
    sAddr t k w % 8 = 0 →
    let x := coreWrite k (sAddr t k w) (leBytes 8 (sx t k f.sb).toNat) (sxTag t k f.sb || sxTag t k f.sa) (.start t)
    exec (.sst r w p) s = .next (issued r w { s := x.s, busErr := !x.ok, blots := x.blots })) ∧
  SIssuesAs 0x14 .ssetb (fun k w s =>
    let f := sFields w
    let core := f.imm / 2 ^ 8 % 2 ^ 8
    { s := s, landing := some (runnerNo (noCluster k) (core / 64) (core % 16) (f.imm / 8 % 8), f.imm % 8, (sx s k f.sa).toNat, sxTag s k f.sa) })

/-- Strokes that fill rings, skip, loop and transfer (R317, R318, R207, R314, R321): they issue with their effects, which need room in the ring
that they fill and, for SLOOP, its body in the queue. -/
def Obligations.ScalarFlowStrokesIssue : Prop :=
  SIssuesWhen 0x12 .spush spushEffect ∧ SIssuesWhen 0x13 .sidx sidxEffect ∧
  (∀ r w p s g, sMayIssue 0x12 r w s = true →
    let t := sParity p (refNo r) w s
    pushBytes (refNo r) ((sFields w).imm % 8) (sRelay w) ((List.range 8).flatMap (fun i =>
      (leBytes 8 (sx t (refNo r) ((sFields w).sb + i)).toNat).map (fun b =>
        (b, (List.range 8).any (fun i => sxTag t (refNo r) ((sFields w).sb + i)))))) t = some g →
    exec (.spush r w p) s = .next (issued r w { s := g, chan := some ((sFields w).imm % 8) })) ∧
  (∀ r w p s, sMayIssue 0x20 r w s = true →
    let t := sParity p (refNo r) w s
    sxTag t (refNo r) (sFields w).sa = false → opBTag t (refNo r) w = false →
    exec (.sskip r w p) s = .next (issued r w
      { s := if skipCond (sFields w).func (sx t (refNo r) (sFields w).sa) (opB t (refNo r) w)
          then modRunner (refNo r) (fun x => { x with skip := (sFields w).imm % 256 }) t else t })) ∧
  SIssuesWhen 0x20 .sskip sskipEffect ∧ SIssuesWhen 0x21 .sloop sloopEffect ∧
  (∀ r w s, sMayIssue 0x21 r w s = true → (sFields w).immb = true → 0 < (sFields w).imm % 2 ^ 16 →
    let q := (getRunner s (refNo r)).queue
    let n := (sFields w).imm / 2 ^ 16 % 32
    let l : LoopState :=
      ⟨(q.drop 1).take n, w :: (q.drop 1).take n, (sFields w).imm % 2 ^ 16, (sFields w).sd, 0⟩
    n ≤ (q.drop 1).length →
    exec (.sloop r w none) s = .next (issued r w (plainOut (modRunner (refNo r)
      (fun x => { x with queue := q.drop (1 + n), loop := some l }) (setSx (refNo r) (sFields w).sd 0#64 false s))))) ∧
  SIssuesWhen 0x40 .sxfer sxferEffect

/-- Hurdle strokes (Table 7.7, R213): SARRIVE, SWAIT, SRESET, SHREAD and SHTARGET act on the hurdle that their index names, on the state t that the
parity error of their register reads leaves (R324). -/
def Obligations.HurdleStrokesIssue : Prop :=
  (∀ (r : RunnerRef) (w : StrokeWord) (p : Option Nat) (s : State) (n : Nat),
    let k := refNo r
    let f := sFields w
    let t := sParity p k w s
    let h := getHurdle t n
    strokeHurdle t k w = some n →
    (sMayIssue 0x30 r w s = true → opBTag t k w = false →
      exec (.sarrive r w p) s = .next (issued r w
        { s := arrive n (if f.immb then f.imm / 2 ^ 32 % 2 ^ 16 else (sx t k f.sb).toNat % 2 ^ 32) t })) ∧
    (sMayIssue 0x31 r w s = true → h.mode ≠ 1 → h.released ((sx t k f.sb).toNat % 2 ^ 16) = true → f.func % 2 = 0 →
      exec (.swait r w p) s = .next (issued r w { s := putHurdle n h.take t })) ∧
    (sMayIssue 0x31 r w s = true → h.mode ≠ 1 → h.released ((sx t k f.sb).toNat % 2 ^ 16) = false →
      exec (.swait r w p) s = .next (issued r w
        { s := { t with hwaits := t.hwaits ++ [{ hurdle := n, who := k, expect := (sx t k f.sb).toNat % 2 ^ 16, word := w, cmd := none }] }, waiting := true })) ∧
    (sMayIssue 0x34 r w s = true → sxTag t k f.sb = false → exec (.shtarget r w p) s = .next (issued r w
      { s := hurdleCycle n [.setTarget (BitVec.ofNat 32 (sx t k f.sb).toNat)] t }))) ∧
  (∀ (r : RunnerRef) (w : StrokeWord) (s : State) (n : Nat),
    let k := refNo r
    let f := sFields w
    let h := getHurdle s n
    strokeHurdle s k w = some n →
    (sMayIssue 0x32 r w s = true → exec (.sreset r w) s = .next (issued r w { s := hurdleReset n s })) ∧
    (sMayIssue 0x33 r w s = true → exec (.shread r w) s = .next (issued r w
      { s := setSx k f.sd (BitVec.ofNat 64 (if f.func = 0 then h.count else if f.func = 1 then h.gen else h.target)) false s }))) ∧
  (∀ (r : RunnerRef) (w : StrokeWord) (p : Option Nat) (s : State), strokeHurdle (sParity p (refNo r) w s) (refNo r) w = none →
    sMayIssue 0x30 r w s = true → exec (.sarrive r w p) s = .next (issued r w (hurdleBusError (refNo r) w (sParity p (refNo r) w s))))

/-- Control and scalar words of a near-memory unit (Table 10.5): NOP, END, YIELD, LOOP, SADDI, SADD and SSHL. -/
def Obligations.NmuControlWordsRun : Prop :=
  RunsAs 0x00 .nmuNop (fun _ _ _ r s => (r, s)) ∧
  RunsWith 0x01 .nmuEnd (fun st u _ r s =>
    if r.order = [] then endRun st u false s else modNmu st u (fun x => { x with run := some { r with ending := true } }) s) ∧
  (∀ even odd, RunsWhere 0x02 (fun _ _ _ r _ => r.ended = false ∧ r.even = false ∧ r.odd = false) (fun st u x => .nmuYield st u x even odd)
    (fun st u _ r s => modNmu st u (fun x => { x with run := some (r.advance r.pc) }) (addReg (nmuArea st u + 0x14) 1 s))) ∧
  (∀ even odd, RunsWhere 0x02 (fun _ _ _ r _ => r.ended = true) (fun st u x => .nmuYield st u x even odd)
    (fun st u _ _ s => endRun st u false (addReg (nmuArea st u + 0x14) 1 s))) ∧
  RunsWhere 0x03 (fun _ _ w _ _ => nImm w ≠ 0) .nmuLoop (fun st u w r s => modNmu st u (fun x => { x with run := some { r with
    loops := { first := r.pc + 1, last := r.pc + nBody w, left := nImm w } :: r.loops, pc := r.pc + 1 } }) s) ∧
  RunsAs 0x08 .saddi (fun _ _ w r s => (r.putSr (nSd w) (r.srOf (nSa w) + wrapInt 32 (sext 16 (nImm w))) (r.srTag (nSa w)), s)) ∧
  RunsAs 0x09 .sadd (fun _ _ w r s =>
    (r.putSr (nSd w) (r.srOf (nSa w) + r.srOf (nVb w % 16)) (r.srTag (nSa w) || r.srTag (nVb w % 16)), s)) ∧
  RunsAs 0x0A .sshl (fun _ _ w r s => (r.putSr (nSd w) (r.srOf (nSa w) * 2 ^ (nImm w % 32)) (r.srTag (nSa w)), s))

/-- Words that move data between latches, registers, the input buffer and results (Tables 10.5 and 10.6, R437 to R440, R459). -/
def Obligations.NmuDataWordsRun : Prop :=
  RunsWhere 0x10 (fun st u w r s => (lamPage s st u r.launch.fn (lamOf r w)).isSome ∧ mayEnter s st u (lamOf r w) = true) .nopen
    (fun st u w r s => transferQueued st u (lamOf r w) (nLsel w)
      (r.putLatch (nLsel w) { forced := r.srTag (nSa w), lam := lamOf r w, busy := 1 }) s) ∧
  RunsWhere 0x11 (fun st u w r s => (lamPage s st u r.launch.fn (lamOf r w)).isSome ∧ mayEnter s st u (lamOf r w) = true) .nclr
    (fun st u w r s => enterBank st u (lamOdd (lamOf r w)) (goOn st u (r.putLatch (nLsel w)
      { valid := true, forced := r.srTag (nSa w), lam := lamOf r w, data := List.replicate 2048 0#8, dirty := true }, s))) ∧
  RunsWhere 0x12 (fun st u w r s => (r.latch (nLsel w)).valid = true ∧ (lamPage s st u r.launch.fn (r.latch (nLsel w)).lam).isSome ∧
      mayEnter s st u (r.latch (nLsel w)).lam = true) .nwb
    (fun st u w r s => transferQueued st u (r.latch (nLsel w)).lam (nLsel w) (r.putLatch (nLsel w) { r.latch (nLsel w) with busy := 2 }) s) ∧
  RunsAs 0x13 .nld nldWord ∧
  RunsAs 0x14 .nldi (fun _ _ w r s => (r.putVr (nVd w) (nvOf ((List.range 32).map (fun i =>
    widen 0 (field r.launch.input (nImm w % 4 * 64 + 2 * i) 2)))) false, s)) ∧
  RunsAs 0x15 .nst nstWord ∧
  RunsAs 0x16 .nres (fun _ _ w r s => ({ r with
    slots := kvPut (fun _ => 0#1024) r.slots (nImm w % 4) (r.vrOf (nVa w)),
    slotTag := kvPut (fun _ => false) r.slotTag (nImm w % 4) (r.vrTag (nVa w) || r.blotLatch),
    written := kvPut (fun _ => false) r.written (nImm w % 4) true }, s)) ∧
  RunsWhere 0x17 (fun _ _ w _ _ => nImm w % 2 = 0) .nress (fun st u w r s => goOn st u ({ r with
    res0 := BitVec.ofNat 32 (nvGet (r.vrOf (nVa w)) (r.laneNo w)), res0Tag := r.vrTag (nVa w) || r.laneTag w || r.blotLatch }, s))

/-- Lane words with a register as operand B (R435, R436, R458): D takes the operation on every lane, and the OR of the tags read. -/
def Obligations.NmuLaneWordsRun : Prop :=
  (∀ e ∈ ([(0x20, Instr.nmuVadd, f32add), (0x21, .nmuVsub, f32sub), (0x22, .nmuVmul, f32mul), (0x24, .nmuVmax, f32max)] :
      List (Nat × (Fin 4 → Fin 256 → NmuErr → Instr) × (Nat → Nat → Nat))),
    RunsWhere e.1 (fun _ _ w _ _ => nLat w = false) e.2.1 (fun st u w r s => goOn st u (r.putVr (nVd w)
      (nvOf ((List.range 32).map (fun i => e.2.2 (nvGet (r.vrOf (nVa w)) i) (nvGet (r.vrOf (nVb w)) i))))
      (r.vrTag (nVa w) || r.vrTag (nVb w)), s)) ∧
    RunsAs e.1 e.2.1 (laneWord e.2.2)) ∧
  RunsWhere 0x23 (fun _ _ w _ _ => nLat w = false) .nmuVfma (fun st u w r s => goOn st u (r.putVr (nVd w) (nvOf ((List.range 32).map (fun i =>
      f32fma (nvGet (r.vrOf (nVa w)) i) (nvGet (r.vrOf (nVb w)) i) (nvGet (r.vrOf (nVd w)) i))))
      (r.vrTag (nVa w) || r.vrTag (nVb w) || r.vrTag (nVd w)), s)) ∧
  RunsAs 0x23 .nmuVfma vfmaWord ∧
  RunsAs 0x25 .vfmas vfmasWord ∧ RunsAs 0x26 .vmuls vmulsWord ∧
  RunsAs 0x27 .vimm (fun _ _ w r s => (r.putVr (nVd w) (nvOf (List.replicate 32 (2 ^ 16 * nImm w))) false, s)) ∧
  RunsAs 0x28 .vtail (fun _ _ w r s => (r.putVr (nVd w) (nvOf ((List.range 32).map (fun (i : Nat) =>
    if sext 32 (r.srOf (nSa w)) ≤ (i : Int) then 2 ^ 16 * nImm w else nvGet (r.vrOf (nVd w)) i)))
    (r.vrTag (nVd w) || r.srTag (nSa w)), s)) ∧
  RunsAs 0x30 .hsum (treeWord f32add) ∧ RunsAs 0x31 .hmax (treeWord f32max) ∧
  RunsAs 0x32 .hexp (fun _ _ w r s => (r.putVr (nVd w) (nvOf ((List.range 32).map (fun i =>
    vexp (f32sub (nvGet (r.vrOf (nVa w)) i) (nvGet (r.vrOf (nVb w)) (r.laneNo w))))))
    (r.vrTag (nVa w) || r.vrTag (nVb w) || r.laneTag w), s))

/-- Launches and completions of near-memory units and their controllers (R451, R438, R455, R490). -/
def Obligations.NmuLaunchesComplete : Prop :=
  (∀ (st : Fin 4) (u : Fin 256) (s : State) l rest, (getNmu s st u).queued = none → (getNmu s st u).run = none →
    (getNmu s st u).arriving = l :: rest → (getNmu s st u).done = [] → nmuBad s st u = false →
    ∃ t, exec (.nmuLaunch st u) s = .next t ∧ (getNmu t st u).run = some (startRun st u l) ∧ (getNmu t st u).arriving = rest ∧
      t.mem = s.mem ∧ t.out = s.out) ∧
  (∀ (st : Fin 4) (u : Fin 256) (s : State) l rest, (getNmu s st u).queued = none → (getNmu s st u).arriving = l :: rest → nmuBad s st u = true →
    exec (.nmuLaunch st u) s = .next (putDone st u (plainDone l 6) (modNmu st u (fun x => { x with arriving := rest }) s))) ∧
  (∀ (st : Fin 4) (u : Fin 256) (s : State) (dn : NDone) rest, (getNmu s st u).done = dn :: rest →
    let t := startQueued st u (modNmu st u (fun x => { x with done := rest }) s)
    (findFlying t dn.tag = none → exec (.nmuCompletion st u) s = .next t) ∧
    (∀ home i x key qblot, findFlying t dn.tag = some (home, i, x, key, qblot) →
      let p := partialOf x.hdim dn (qblot || ((x.blocks[key / 256]?).map (fun b => b.blot)).getD true)
      exec (.nmuCompletion st u) s = .next (putDecode home i
        { x with flying := x.flying.filter (fun e => e.1 ≠ dn.tag), partials := kvInsert x.partials key p,
                 busErr := x.busErr || [2, 3, 5].contains dn.status, busy := x.busy || decide (dn.status = 7),
                 wblots := sat32 x.wblots dn.wblots } (bumpFree t)))) ∧
  (∀ (d : Fin 2) (waited : Nat) (s : State) home i x n, dueLaunch s d = some (home, i, x, n) → partialsHeld s home < 4096 →
    exec (.attLaunch d waited) s = .next (sendLaunch d home i n x (addReg (attBlk d + 0x1C) waited s))) ∧
  (∀ (st : Fin 4) (u : Fin 256) (s : State) (r : NRun) k rest errors cycles naw, (getNmu s st u).run = some r → r.order = k :: rest → r.ending = false →
    let t := addReg (nmuBlk st + 8) naw s
    let x := if (r.latch (decide (k = 1))).busy = 1 then openDone st u (decide (k = 1)) errors r t else backDone st u (decide (k = 1)) r t
    exec (.nmuTransferDone st u errors cycles naw) s =
      .next (modNmu st u (fun y => { y with run := some { x.1 with order := rest } }) x.2)) ∧
  (∀ (st : Fin 4) (u : Fin 256) (s : State) (r : NRun) k errors cycles naw, (getNmu s st u).run = some r → r.order = [k] → r.ending = true →
    let t := addReg (nmuBlk st + 8) naw (addReg (nmuArea st u + 0x10) cycles s)
    let x := if (r.latch (decide (k = 1))).busy = 1 then openDone st u (decide (k = 1)) errors r t else backDone st u (decide (k = 1)) r t
    exec (.nmuTransferDone st u errors cycles naw) s =
      .next (endRun st u false (modNmu st u (fun y => { y with run := some { x.1 with order := [] } }) x.2)))

/-- Clear registers of the clusters and of the towers: 1 clears their counters, another value does nothing (R286, R325, R377, R378, R632, R743). -/
def Obligations.CoreCountersClear : Prop :=
  (∀ (c : Fin 64) (k : Fin 18), ClearsOnOne (.mcCountClear c k) (wordsAt (mcBlk c k + 4) (mcBlk c k + 0xC) 0#32)) ∧
  (∀ (c : Fin 64) (k : Fin 9), ClearsOnOne (.vcCountClear c k) (wordsAt (vcBlk c k + 4) (vcBlk c k + 8) 0#32)) ∧
  (∀ (c : Fin 64) (k : Fin 4), ClearsOnOne (.scCountClear c k) (wordsAt (scBlk c k + 4) (scBlk c k + 8) 0#32)) ∧
  (∀ c : Fin 64, ClearsOnOne (.cluBankClear c) (wordsAt (cluBlk c + 0x81000) (cluBlk c + 0x81104) 0#32)) ∧
  (∀ c : Fin 64, ClearsOnOne (.cluPwrClear c) (wordsAt (vfBlk c + 0x10) (vfBlk c + 0x18) 0#32)) ∧
  (∀ c : Fin 64, ClearsOnOne (.cluPerfClear c) (wordAnd (cluBlk c + 0x80230) 0x7FFFFFFF#32 (wordsAt (cluBlk c + 0x80200) (cluBlk c + 0x8022C) 0#32))) ∧
  (∀ (c : Fin 64) (s : State), Gives s (exec (.cluTrcClear c 1#32) s) (Part.regs ||| Part.clusters) (fun t =>
    (getCluster t c).traces = [] ∧ t.runners = s.runners ∧ t.written = s.written ∧
    ∀ o, rawReg t o = (wordsAt (cluBlk c + 0x80100) (cluBlk c + 0x80178) 0#32 o).getD (rawReg s o))) ∧
  (∀ (c : Fin 64) (d : Word) (s : State), d ≠ 1#32 → exec (.cluTrcClear c d) s = .next s) ∧
  (∀ t : Fin 16, ClearsOnOne (.twrProtClear t) (fun o => (wordsAt (twrBlk t + 0x2014) (twrBlk t + 0x2018) 0#32 o).or
    ((wordsAt (twrBlk t + 0x2000) (twrBlk t + 0x2008) 0#32 o).or (wordsAt (twrBlk t + 8) (twrBlk t + 8) 0#32 o)))) ∧
  (∀ t : Fin 16, ClearsOnOne (.twrConfClear t) (wordsAt (twrBlk t + 0x3000) (twrBlk t + 0x3034) 0#32))

/-- Clear registers of the pace engine, of the functions, of memory and of the near-memory units. -/
def Obligations.MemoryCountersClear : Prop :=
  ClearsOnOne .paceCountClear (wordAnd (0x434) 0x7FFFFFFF#32 (wordsAt 0x424 0x438 0#32)) ∧
  (∀ fn : Fin 65, ClearsOnOne (.viCountClear fn) (wordAnd (viPage fn + 0x24) 0x7FFFFFFF#32 (wordsAt (viPage fn + 0x14) (viPage fn + 0x20) 0#32))) ∧
  (∀ m : Fin 8, ClearsOnOne (.dirCountClear m) (wordsAt (mscBlk m + 0x40000) (mscBlk m + 0x40008) 0#32)) ∧
  (∀ m : Fin 8, ClearsOnOne (.mscEccClear m) (wordsAt (mscBlk m + 0x2000) (mscBlk m + 0x2014) 0#32)) ∧
  (∀ m : Fin 8, ClearsOnOne (.mscSrcClear m) (wordsAt (mscBlk m + 0x10000) (mscBlk m + 0x10224) 0#32)) ∧
  (∀ p : Fin 2, ClearsOnOne (.cxlCountClear p) (wordsAt (cxlBlk p + 0xC) (cxlBlk p + 0x14) 0#32)) ∧
  (∀ m : Fin 8, 4 ≤ m.val → ClearsOnOne (.nmuStackClear m) (wordsAt (mscBlk m + 0x50004) (mscBlk m + 0x5001C) 0#32)) ∧
  (∀ (m : Fin 8) (u : Fin 256), 4 ≤ m.val → ClearsOnOne (.nmuCountClear m u)
    (wordsAt (mscBlk m + 0x80000 + 0x100 * u + 4) (mscBlk m + 0x80000 + 0x100 * u + 0x14) 0#32)) ∧
  (∀ (m : Fin 8) (u : Fin 256) (d : Word) (s : State), m.val < 4 →
    exec (.nmuStackClear m d) s = .next s ∧ exec (.nmuCountClear m u d) s = .next s) ∧
  (∀ d : Fin 2, ClearsOnOne (.attCountClear d) (wordsAt (attBlk d + 4) (attBlk d + 0x28) 0#32)) ∧
  (∀ (d : Fin 2) (s : State), Gives s (exec (.attLabFlush d 1#32) s) Part.atts (fun t => (getAtt t d).lab = [] ∧
    ∀ e : Nat, e ≠ d.val → getAtt t e = getAtt s e)) ∧
  (∀ (d : Fin 2) (w : Word) (s : State), w ≠ 1#32 → exec (.attLabFlush d w) s = .next s)

/-- Clear registers of the links, of power and heat, of the Blotter and of the pins (R587 to R589, R626, R631, R665, R735). -/
def Obligations.SystemCountersClear : Prop :=
  (∀ e : Fin 2, ClearsOnOne (.colCountClear e) (wordsAt (colBlk e + 4) (colBlk e + 0x10) 0#32)) ∧
  (∀ p : Fin 12, ClearsOnOne (.fjlCountClear p) (wordsAt (fjlBlk p + 0x14) (fjlBlk p + 0x2C) 0#32)) ∧
  ClearsOnOne .fjsCountClear (wordsAt 0x610 0x610 0#32) ∧
  ClearsOnOne .pwrCountClear (wordsAt (pwrBlk + 0x20) (pwrBlk + 0x2C) 0#32) ∧
  ClearsOnOne .thmCountClear (wordsAt (pwrBlk + 0x2008) (pwrBlk + 0x2008) 0#32) ∧
  ClearsOnOne .bltCountClear (wordsAt (bltBlk + 8) (bltBlk + 0xC) 0#32) ∧
  ClearsOnOne .pinCountClear (wordsAt 0x804 0x804 0#32) ∧
  (∀ s : State, Gives s (exec (.thmRthReset 1#32) s) (Part.regs ||| Part.sup) (fun t =>
    getF t (pwrBlk + 0x200C) 16 16 = 0 ∧ t.sup.rthHours = [] ∧ (∀ o, o ≠ pwrBlk + 0x200C → rawReg t o = rawReg s o) ∧ t.pins = s.pins)) ∧
  (∀ (d : Word) (s : State), d ≠ 1#32 → exec (.thmRthReset d) s = .next s)

/-- Doorbells (R148, R155) and pair 0's control register (Table 4.13): what is accepted moves the tail or the head, what is refused is counted. -/
def Obligations.DoorbellsAnswer : Prop :=
  (∀ (fn : Fin 65) (q : Fin 8) (d : Word) (s : State) (p : QPair), fnCreated s fn = true → resetting s fn = false → getPair s fn q = some p →
    fld d 16 16 = sqEpoch s fn q → sqEpoch s fn q ≠ 0 → fld d 0 16 < p.slots →
    (fld d 0 16 + p.slots - p.tail) % p.slots + (p.tail + p.slots - p.head) % p.slots ≤ p.slots - 1 →
    exec (.sqDoorbell fn q d) s = .next (setPair fn q { p with tail := fld d 0 16 } s)) ∧
  (∀ (fn : Fin 65) (q : Fin 8) (d : Word) (s : State), fnCreated s fn = true → resetting s fn = false → fld d 16 16 ≠ sqEpoch s fn q →
    exec (.sqDoorbell fn q d) s = .next (addReg (viPage fn + 0x14) 1 s)) ∧
  (∀ (fn : Fin 65) (q : Fin 8) (d : Word) (s : State) (p : QPair), fnCreated s fn = true → resetting s fn = false → getPair s fn q = some p →
    fld d 16 16 = sqEpoch s fn q → sqEpoch s fn q ≠ 0 →
    p.slots - 1 < (fld d 0 16 + p.slots - p.tail) % p.slots + (p.tail + p.slots - p.head) % p.slots →
    exec (.sqDoorbell fn q d) s = .next (addReg (viPage fn + 0x18) 1 s)) ∧
  (∀ (fn : Fin 65) (q : Fin 8) (d : Word) (s : State) (p : QPair), fnCreated s fn = true → resetting s fn = false → getPair s fn q = some p →
    fld d 16 16 = cqEpoch s fn q → fld d 0 16 < p.entries → (fld d 0 16 + p.entries - p.cqHead) % p.entries ≤ cqUsed p →
    exec (.cqHeadDoorbell fn q d) s = .next (setPair fn q { p with cqHead := fld d 0 16 } s)) ∧
  (∀ (fn : Fin 65) (d : Word) (s : State), resetting s fn = false → getB s (viPage fn + 0x94) 0 = true → fld d 0 1 = 0 →
    exec (.viQ0Enable fn d) s = .next (deletePair fn 0 (setReg (viPage fn + 0x94) (d &&& 0xFF01#32) s)))

/-- Commands on queues and hurdles (R150, R151, R214): each accepted one completes with OK and its effect. -/
def Obligations.QueueCommandsComplete : Prop :=
  (∀ h, Serves h 0x00 [] (.nop h) (fun _ => True) (fail h 0x00 stOk)) ∧
  (∀ h q, Serves h 0x01 (queueParams q) (.createQueue h q) (fun s => 1 ≤ q.pair ∧ q.pair ≤ 7 ∧ queueOk h.fn q = true ∧ getPair s h.fn q.pair = none)
    (fun s => finish h 0x01 stOk 0 0 1 (setEpochs h.fn q.pair 1 1 (setPair h.fn q.pair (newPair q) s)))) ∧
  (∀ h k, Serves h 0x02 [k] (.deleteQueue h k) (fun s => 1 ≤ k ∧ k ≤ 7 ∧ (getPair s h.fn k).isSome = true)
    (fun s => fail h 0x02 stOk (deletePair h.fn k s))) ∧
  (∀ h k p, Serves h 0x03 [k] (.flushQueue h k) (fun s => k ≤ 7 ∧ getPair s h.fn k = some p)
    (fun s => finish h 0x03 stOk 0 (countCommands p.slots s h.fn p p.head 0) (nextEpoch (sqEpoch s h.fn k))
      (setEpochs h.fn k (nextEpoch (sqEpoch s h.fn k)) (cqEpoch s h.fn k) (setPair h.fn k { p with head := p.tail } s)))) ∧
  (∀ h n k, Serves h 0x16 [n, k] (.hurdleArrive h n k) (fun s => hurdleAllowed s h.fn k = true)
    (fun s => fail h 0x16 stOk (arrive k (n % 2 ^ 32) s))) ∧
  (∀ h k, Serves h 0x17 [k] (.hurdleWait h k) (fun s => hurdleAllowed s h.fn k = true)
    (fun s =>
      let e := ((s.scribe.started.find? (fun c => decide (c.h = h ∧ c.op = 0x17 ∧ c.raw ≠ []))).map (fun c => c.gen)).getD (getHurdle s k).gen
      hurdleCycle k [] { s with hwaits := s.hwaits ++ [{ hurdle := k, who := 0x8000 + h.fn.val, expect := e, word := 0#128, cmd := some h }] }))

/-- Scribe's own events (R168, R169, R155, R172, R214): dispatch, release of a WAIT, service of the inbox, replies and coalescing. -/
def Obligations.ScribeEventsComplete : Prop :=
  (∀ (s : State) k p raw, s.scribe.consuming = true → pickQueue s = some (k, p, raw) →
    let h := hdrOf (k / 8) (k % 8) raw
    let c : Cmd := { h := h, op := field raw 0 1, raw := raw, gen := (getHurdle s (field raw 16 2)).gen }
    let t := modScribe (fun x => { x with turn := k }) (setPair (k / 8) (k % 8) { p with head := (p.head + raw.length / 64) % p.slots } s)
    (∀ st, headerCheck t (k / 8) (k % 8) raw = some st → hurdleAllowed t (k / 8) (field raw 14 2) = true →
      exec .commandDispatch s = .next (fail h (field raw 0 1) st t)) ∧
    (headerCheck t (k / 8) (k % 8) raw = none → bit (field raw 1 1) 2 = false → exec .commandDispatch s = .next (startCmd c t)) ∧
    (headerCheck t (k / 8) (k % 8) raw = none → bit (field raw 1 1) 2 = true →
      let n := field raw 12 2
      let e := (getHurdle t n).gen
      let u := modScribe (fun x => { x with waits := x.waits ++ [{ cmd := c, hurdle := n, expect := e }] }) t
      exec .commandDispatch s = .next (hurdleCycle n []
        { u with hwaits := t.hwaits ++ [{ hurdle := n, who := 0x8000 + k / 8, expect := e, word := 1#128, cmd := some h }] }))) ∧
  (∀ (s : State) w rest, takeFirst (mayStart s) s.scribe.waits = some (w, rest) →
    exec .commandWaitRelease s = .next (startCmd w.cmd (modScribe (fun x => { x with waits := rest }) s))) ∧
  (∀ (s : State) c r, getB s 0x708 25 = true → getB s 0x708 26 = false → s.hub.halted = false → s.scribe.inbox = c :: r →
    Gives s (exec .firmwareInboxServe s) Part.queues (fun t => t.scribe = { s.scribe with inbox := r, started := s.scribe.started ++ [c] })) ∧
  (∀ (s : State) r rest, takeFirst (writable s) s.scribe.replies = some (r, rest) →
    exec .statusReplyWrite s = .next (writeReply r (modScribe (fun x => { x with replies := rest }) s))) ∧
  (∀ (fn : Fin 65) (q : Fin 8) (t : Nat) (s : State) p, getPair s fn q = some p → 0 < p.unsig → p.unsigSince + 1000 * coalTimeOf p ≤ max s.now t →
    exec (.cqCoalTimeout fn q t) s = .next (signal fn p.vector (setPair fn q { p with unsig := 0 } { s with now := max s.now t })))

/-- Commands that move or return data (R165, R233, R510, R529, R638, R657, R749): each accepted one completes with what it wrote. -/
def Obligations.DataCommandsComplete : Prop :=
  (∀ h src dst len host, Serves h 0x20 [src, dst, len, host] (.copy h src dst len host) (fun _ => len % 64 = 0 ∧ bit host 0 = true ∧ bit host 1 = true)
    (fun s => finish h 0x20 stOk 0 0 0 (hostWrite true dst (hostRead s src len) (bumpFree s)))) ∧
  (∀ h src dst len host, Serves h 0x20 [src, dst, len, host] (.copy h src dst len host) (fun _ => len % 64 = 0 ∧ bit host 0 = false ∧ bit host 1 = true)
    (fun s => let r := readT (hostAcc h.fn) src len false s
      finish h 0x20 (dataStatus r.ok (blottedGrans r.data)) (blottedGrans r.data) 0 0 (hostWrite true dst (tBytes r.data) (bumpFree r.s)))) ∧
  (∀ h src dst len host, Serves h 0x20 [src, dst, len, host] (.copy h src dst len host) (fun _ => len % 64 = 0 ∧ bit host 0 = false ∧ bit host 1 = false)
    (fun s => let r := readT (hostAcc h.fn) src len false s
      let w := writeT (hostAcc h.fn) dst r.data false (Wrote.start (bumpFree r.s))
      finish h 0x20 (dataStatus (r.ok && w.ok) w.blots) w.blots 0 0 w.s)) ∧
  (∀ h dst len pattern, Serves h 0x21 [dst, len, pattern] (.fill h dst len pattern) (fun _ => len % 64 = 0)
    (fun s => let w := writeSpan (hostAcc h.fn) dst ((List.replicate (len / 8) (leBytes 8 pattern)).flatten) false (Wrote.start s)
      finish h 0x21 (dataStatus w.ok w.blots) w.blots 0 0 w.s)) ∧
  (∀ h dst i c, Serves h 0x61 [dst, i] (.countersRead h dst i) (fun s => (ownedClusters s h.fn)[i]? = some c)
    (fun s => replyData h 0x61 dst (counterRecord s i c) 0 s)) ∧
  (∀ h dst sets, Serves h 0x60 [dst, sets] (.telemetrySnapshot h dst sets) (fun s => 0 < sets ∧ sets < 128 ∧ dst % 64 = 0 ∧ h.fn.val = 0 ∧
      ∀ c, s.scribe.started.find? (fun c => decide (c.op = 0x60 ∧ c.h.fn.val = 0)) = some c → c.h = h)
    (fun s => ((dropCmd h s.scribe.started).filter (fun c => decide (c.op = 0x60 ∧ c.h.fn.val = 0))).foldl
      (fun s c => finish c.h 0x60 stCoalesced 0 dst 0 s) (replyData h 0x60 dst (snapshot s 0 sets) dst s))) ∧
  (∀ h dst max, Serves h 0x62 [dst, max] (.blotterRead h dst max) (fun _ => True)
    (fun s => let l := (s.recs.filter (unreadBy h.fn)).take max
      replyData h 0x62 dst (l.flatMap recordBytes) l.length { s with recs := markRead h.fn l.length s.recs })) ∧
  (∀ h dst max, Serves h 0x22 [dst, max] (.retiredPagesRead h dst max) (fun _ => True)
    (fun s => replyData h 0x22 dst ((s.hub.retired.take max).flatMap (retiredBytes s)) (s.hub.retired.take max).length s)) ∧
  (∀ h dst len, Serves h 0x63 [dst, len] (.lifeRecordRead h dst len) (fun _ => True)
    (fun s => replyData h 0x63 dst ((lifeBytes s).take len) ((lifeBytes s).take len).length s)) ∧
  (∀ h dst len, Serves h 0x53 [dst, len] (.configRead h dst len) (fun s => (s.hub.base ++ s.hub.overlays.flatMap (fun x => x.2)).length ≤ len)
    (fun s => replyData h 0x53 dst (s.hub.base ++ s.hub.overlays.flatMap (fun x => x.2))
      (s.hub.base ++ s.hub.overlays.flatMap (fun x => x.2)).length s)) ∧
  (∀ h dst n, Serves h 0x07 [dst, n] (.viQuery h dst n) (fun _ => 1 ≤ n ∧ n ≤ 64 ∧ (h.fn.val = 0 ∨ h.fn.val = n))
    (fun s => replyData h 0x07 dst (viRecord s n) 0 s)) ∧
  (∀ h seed step, Serves h 0x42 [seed, step] (.seedSet h seed step) (fun _ => True)
    (fun s => fail h 0x42 stOk (modFn h.fn (fun x => { x with seed := seed % 2 ^ 64, step := step % 2 ^ 64 }) s))) ∧
  (∀ h src len tab, Serves h 0x41 [src, len] (.shardImport h src len) (fun s => tensorTable s h.fn = some tab)
    (fun s => let r := readT (fwAcc h.fn) src len false s
      let o := importRecords (fwAcc h.fn) tab (len / 128 + 1) r.data 0 { s := bumpFree r.s, ok := r.ok, blots := 0 }
      finish h 0x41 (if o.2.1 then dataStatus o.2.2.ok o.2.2.blots else stBadImage) o.2.2.blots 0 o.1 o.2.2.s)) ∧
  (∀ h dst len first count s tab, accepted s h 0x40 [dst, len, first, count] → tensorTable s h.fn = some tab → first + count ≤ tab.length →
    let rs := ((tab.drop first).take count).flatMap (fun t => (shardBoxes t).map (fun b => (t, b)))
    let total := (rs.map (fun r => 128 + payloadBytes r.1.size r.2.ext)).sum
    let o := rs.foldl (fun (o : Wrote × Nat × Nat) r =>
      let x := shardRecord (fwAcc h.fn) r.1 r.2 o.1.s
      (writeT (fwAcc h.fn) (dst + o.2.1) x.1 false { o.1 with s := x.2.2.2, ok := o.1.ok && x.2.2.1 }, o.2.1 + x.1.length, o.2.2 + b2n x.2.1))
      (Wrote.start (bumpFree s), 0, 0)
    let blots := sat32 o.1.blots o.2.2
    total ≤ len → exec (.shardExport h dst len first count) s = .next (finish h 0x40 (dataStatus o.1.ok blots) blots total 0 o.1.s))

/-- KV pool and sequence commands (R465 to R474, R500, R503): each accepted one completes with its tables written. -/
def Obligations.KvCommandsComplete : Prop :=
  (∀ h base pages bytes, Serves h 0x30 [base, pages, bytes] (.kvPoolSet h base pages bytes) (fun s => bytes % 2048 = 0 ∧ 0 < bytes ∧ bytes ≤ 262144 ∧ base % 262144 = 0 ∧
      1 ≤ pages ∧ pages ≤ poolMax s h.fn ∧ areaPimLocal s h.fn base (kvAreaLen pages bytes) = true ∧ (hasPool s h.fn = true → kvHead s h.fn 24 4 = 0))
    (fun s => fail h 0x30 stOk (initPool h.fn base pages bytes s))) ∧
  (∀ h seq layers s pages t, accepted s h 0x31 [seq, layers] → hasPool s h.fn = true → seq < 65536 → seqExists s h.fn seq = false → 0 < layers →
    layers ≤ maxLayers s h.fn → walkersFree s [seq] = true →
    kvPopMany (ceilDiv ((1 + layers) * tableBytes s h.fn) (kvPageBytes s h.fn)) h.fn (seq % 2) s = some (pages, t) →
    let u := setKvHead h.fn 24 4 (kvHead t h.fn 24 4 + 1) (newTables h.fn seq layers pages t)
    exec (.kvSeqCreate h seq layers) s = .next (finish h 0x31 stOk 0 (dirAt u h.fn seq) 0 u)) ∧
  (∀ h src dst tokens, Serves h 0x32 [src, dst, tokens] (.kvSeqFork h src dst tokens) (fun s => seqExists s h.fn src = true ∧ seqExists s h.fn dst = true ∧
      seqLayers s h.fn src = seqLayers s h.fn dst ∧ (∀ l < seqLayers s h.fn dst, eFill (layerEnt s h.fn dst l) = 0) ∧
      walkersFree s [src, dst] = true ∧ seqSpilled s h.fn src = false ∧
      ∀ x ∈ forkBlocks s h.fn src tokens, eSpilled (blockEnt s h.fn src x.1 x.2.1) = false ∧
        wRefs (kvWord s h.fn (ePage (blockEnt s h.fn src x.1 x.2.1))) < 65535)
    (fun s => finish h 0x32 stOk 0 0 (forkBlocks s h.fn src tokens).length (forkLayers h.fn src dst tokens
      ((forkBlocks s h.fn src tokens).foldl (fun s x => shareBlock h.fn src dst x s) (labDrop h.fn (some dst) (labDrop h.fn (some src) s)))))) ∧
  (∀ h seq, Serves h 0x33 [seq] (.kvSeqFree h seq) (fun s => seqExists s h.fn seq = true ∧ walkersFree s [seq] = true)
    (fun s =>
      let x := (seqBlocks (labDrop h.fn (some seq) s) h.fn seq).foldl (freeBlock h.fn seq) (0, labDrop h.fn (some seq) s)
      let y := (tablePages (labDrop h.fn (some seq) s) h.fn seq).foldl (freePage h.fn) (x.1, kvWr h.fn (dirAt x.2 h.fn seq) 8 0 x.2)
      finish h 0x33 stOk 0 0 y.1 (setKvHead h.fn 24 4 (kvHead y.2 h.fn 24 4 - 1) y.2))) ∧
  (∀ h base pages high low, Serves h 0x34 [base, pages, high, low] (.kvSpillPolicy h base pages high low) (fun s => hasPool s h.fn = true ∧ low < high ∧ high ≤ 1024 ∧
      base % kvPageBytes s h.fn = 0 ∧ pages < 2 ^ 32 ∧ kvHead s h.fn 28 4 = 0 ∧ areaFar s h.fn base
        (if pages = 0 then 0 else ceilDiv (4 * pages) (kvPageBytes s h.fn) * kvPageBytes s h.fn + pages * kvPageBytes s h.fn) = true)
    (fun s => fail h 0x34 stOk ((List.range pages).foldl (fun s i => kvWr h.fn (base + 4 * i) 4 (pages - 1 - i) s)
      (setKvHead h.fn 46 2 low (setKvHead h.fn 44 2 high (setKvHead h.fn 40 4 pages (setKvHead h.fn 32 8 base s)))))))

/-- Schedules and jobs (R162, R163, R166, R183, R184, R746): loading, unloading, starting, launching, stopping and halting. -/
def Obligations.JobCommandsComplete : Prop :=
  (∀ h image len s x map, accepted s h 0x10 [image, len] →
    let a := fwAcc h.fn
    let hd := readT a image (min len 256) false s
    let n := field (tBytes hd.data) 40 8
    let r := readT a image n false (bumpFree s)
    let sc := scheduleOf h.fn (tBytes r.data) x map
    hd.ok = true → 256 ≤ len → 256 ≤ n → n ≤ len → r.ok = true → parseImage (tBytes r.data) = some x → hurdlesOk r.s h.fn x = true →
    mapFor r.s h.fn x.shape = some map → scratchFits r.s h.fn map x.streams = true → imageNondet (tBytes r.data) x = false →
    isParked r.s = false → findSched r.s h.fn sc.id = none → (r.s.scheds.filter (fun y => y.fn = h.fn.val)).length < 4 →
    (∀ y ∈ r.s.scheds, y.fn = h.fn.val → schedsOverlap y sc = false) → (placeSchedule h.fn sc x.datas r.s).ok = true →
    let w := placeSchedule h.fn sc x.datas r.s
    exec (.loadSchedule h image len) s = .next (finish h 0x10 stOk 0 sc.id 0 { w.s with scheds := w.s.scheds ++ [sc] })) ∧
  (∀ h id x, Serves h 0x11 [id] (.unloadSchedule h id) (fun s => findSched s h.fn id = some x ∧ findJob s h.fn id = none ∧ x.haltBy = none)
    (fun s =>
      let t := { s with scheds := s.scheds.filter (fun y => !decide (y.fn = x.fn ∧ y.id = x.id)) }
      fail h 0x11 stOk (x.map.foldl (fun s c => if loadedMaps s c then s else moveCores c s) t))) ∧
  (∀ h id laps mode x map, Serves h 0x12 [id, laps, mode, 0] (.startJob h id laps mode 0) (fun s => findSched s h.fn id = some x ∧ isParked s = false ∧ mode < 2 ∧
      x.system = false ∧ laps ≤ x.lapCount ∧ 0 < x.lapCount ∧ x.det = false ∧ x.shapeKind ≠ 2 ∧ mapFor s h.fn ⟨x.shapeKind, x.counts⟩ = some map ∧
      ∀ c ∈ map, jobMaps s c = false ∧ clusterOut s c = false ∧ towerOut s (c / 4) = false)
    (fun s =>
      let t := map.foldl (fun s c => clearCores c false (stopCluster c s)) (applyInits h.fn x.inits (modSched h.fn id (fun y => { y with map := map }) s))
      let j : Job := { fn := h.fn, sched := id, system := false, stepped := decide (mode = 1), laps := if laps = 0 then x.lapCount else laps, hdr := h, haltAt := x.haltAt, haltBy := x.haltBy }
      modSched h.fn id (fun y => { y with haltAt := none, haltBy := none }) { t with jobs := t.jobs ++ [j] })) ∧
  (∀ h id count j, Serves h 0x13 [id, count] (.launchLap h id count) (fun s => findJob s h.fn id = some j ∧ j.stepped = true ∧ 0 < count ∧ j.running = false ∧ j.launch = none)
    (fun s => modJob j.fn j.sched (fun y => { y with launch := some { hdr := h, left := count, flags := {}, inHalt := y.halted } }) s)) ∧
  (∀ h id j, Serves h 0x14 [id] (.stopJob h id) (fun s => findJob s h.fn id = some j ∧ j.stopBy = none ∧ j.halted = false)
    (fun s => modJob j.fn j.sched (fun y => { y with stopBy := some h }) s)) ∧
  (∀ h id lap x, Serves h 0x15 [id, lap] (.haltAtLap h id lap) (fun s => findSched s h.fn id = some x ∧ lap < x.lapCount ∧ lap ≠ 0xFFFFFFFF ∧ x.haltBy = none ∧ findJob s h.fn id = none)
    (fun s => modSched h.fn id (fun y => { y with haltAt := some lap, haltBy := some h }) s)) ∧
  (∀ (job t : Nat) (s : State) j, s.jobs[job]? = some j → j.running = true → lapComplete { s with now := max s.now t } j = true →
    j.launch = none → j.endAtLap = false → j.next < j.laps →
    let a := { s with now := max s.now t }
    let b := (jobClusters a j).foldl (fun s c => clusterLapDone j.due (j.next - 1) c s) a
    let u := noteSlack j.due (if j.system then 0x434 else viPage j.fn + 0x24) (if j.system then some 0x438 else none) b.now (j.next - 1) b
    exec (.lapDone job t) s = .next (modJob j.fn j.sched (fun y => { y with running := false })
      ((jobClusters u j).foldl (fun s c => modCluster c (fun x => { x with started := false }) s) u)))

/-- Commands on the configuration, power, time and firmware (R644 to R646, R606, R608, R630, R653): each accepted one is staged or completes. -/
def Obligations.ServiceCommandsComplete : Prop :=
  (∀ h src len target x, Serves h 0x50 [src, len, target] (.configBaseLoad h src len target) (fun s => (readT (fwAcc h.fn) src len false s).ok = true ∧
      parseConfig (tBytes (readT (fwAcc h.fn) src len false s).data) = some x ∧ signatureOk s x = true ∧ x.kind = 0)
    (fun s => stageChange h target (.base x.bytes) (bumpFree (readT (fwAcc h.fn) src len false s).s))) ∧
  (∀ h src len target slot x, Serves h 0x51 [src, len, target, slot] (.overlayApply h src len target slot) (fun s => (readT (fwAcc h.fn) src len false s).ok = true ∧
      parseConfig (tBytes (readT (fwAcc h.fn) src len false s).data) = some x ∧ signatureOk s x = true ∧
      x.kind = 1 ∧ x.mode = slot)
    (fun s => stageChange h target (.overlay slot x.bytes) (bumpFree (readT (fwAcc h.fn) src len false s).s))) ∧
  (∀ h target slot, Serves h 0x52 [target, slot] (.overlayRemove h target slot) (fun s => (projected target s).2.any (fun x => x.1 = slot) = true)
    (fun s => stageChange h target (.overlayRemove slot) s)) ∧
  (∀ h target watts, Serves h 0x70 [target, watts] (.powerCapSet h target watts) (fun _ => 1200 ≤ watts ∧ watts ≤ 3000)
    (fun s => modHub (fun x => { x with staged := x.staged ++ [{ what := .powerCap watts, target := target, hdr := h }] })
      (startCmd { h := h, op := 0x70, raw := [] } s))) ∧
  (∀ h id a b c step, Serves h 0x71 [id, a, b, c, step] (.powerPlanSet h id a b c step) (fun s => (findSched s h.fn id).isSome = true ∧ a + b + c = 1024 ∧ (step ≤ 16 ∨ step = 0xFF))
    (fun s => fail h 0x71 stOk (modSched h.fn id (fun x => { x with plan := some { compute := a, memory := b, link := c, floorStep := step } }) s))) ∧
  (∀ h s, accepted s h 0x72 [] → s.scheds = [] → isParked s = false →
    Gives s (exec (.park h) s) (frameOf (.park h)) (fun t => isParked t = true)) ∧
  (∀ h s, accepted s h 0x73 [] → isParked s = true →
    Gives s (exec (.unpark h) s) (frameOf (.unpark h)) (fun t => isParked t = false)) ∧
  (∀ h target unit a i, unitOf unit = some (a, i) →
    Serves h 0x80 [target, unit] (.unitOut h target unit) (fun _ => True) (stageChange h target (.unitOut a i)) ∧
    Serves h 0x81 [target, unit] (.unitIn h target unit) (fun _ => True) (stageChange h target (.unitIn a i))) ∧
  (∀ h first banks tower mode, Serves h 0x82 [first, banks, tower, mode] (.marchRun h first banks tower mode) (fun s => tower < 16 ∧ mode ≤ 2 ∧ 1 ≤ banks ∧ first + banks ≤ 1536 ∧
      (getTower s tower).march = none ∧ (mode = 2 ∨ marchFree s tower = true))
    (fun s => startMarch tower mode first banks (some h) (setReg (twrBlk tower + 0x20004) (BitVec.ofNat 32 (65536 * first + banks)) s))) ∧
  (∀ h port, Serves h 0x83 [port] (.portRetrain h port) (fun s => port < 12 ∧ portOut s port = false ∧ portState s port ≠ 0 ∧ (getPort s port).reply = none ∧ portSpare s port = true)
    (fun s => retrain port (modPort port (fun x => { x with reply := some (h, 0x83), returns := 0 }) s))) ∧
  (∀ h src len, Serves h 0x84 [src, len] (.fwStage h src len) (fun s => (readT (fwAcc h.fn) src len false s).ok = true)
    (fun s =>
      let k := 1 - s.hub.active
      let r := readT (fwAcc h.fn) src len false s
      let t := bumpFree r.s
      if fwVerifies t (tBytes r.data) then
        fail h 0x84 stOk (raiseSvn (showFw (noteFw k 0 (setB 0x708 28 true (setSlot k (fwSlotOf (tBytes r.data)) t)))))
      else fail h 0x84 stBadImage (showFw (setB 0x708 28 false (setSlot k FwSlot.none t))))) ∧
  (∀ h target, Serves h 0x85 [target] (.fwSwitch h target) (fun s => getB s 0x708 28 = true ∧ getB s 0x708 27 = false)
    (fun s => setB 0x708 27 true (stageChange h target .fwSwitch s))) ∧
  (∀ h utc s, accepted s h 0x86 [utc] → ∃ t, exec (.timeSet h utc) s = .next (fail h 0x86 stOk t) ∧ Keeps (Part.regs ||| Part.stacks ||| Part.hub) s t ∧
    t.hub.utcOffset = (((utc : Int) - rtcCount s) % 2 ^ 64).toNat ∧ t.hub.calendarStale = false ∧ getB t 0x708 24 = false)

/-- Instances and functions (R136, R174 to R178, R150, R510): creation, resets, drains, scrubs, and what the host selects. -/
def Obligations.InstanceCommandsComplete : Prop :=
  (∀ h n payload l, Serves h 0x04 [n, leNat payload] (.viCreate h n payload) (fun s => 1 ≤ n ∧ n ≤ 64 ∧ (getFn s n).enabled = true ∧ viArgsOk s (viArgs payload) payload = true ∧
      getB s (viPage n) 31 = false ∧ viBusy s (viArgs payload) = false ∧ viFree s (viArgs payload) = true ∧ viExtents s (viArgs payload) = some l)
    (fun s =>
      let a := viArgs payload
      let t := setReg (viPage n + 0x10) (BitVec.ofNat 32 (65536 * a.hCount + a.hFirst)) (setReg64 (viPage n + 8) a.clusters (writeRank n a.rank (writeExtents n l s)))
      let t := setB (viPage n) 31 true (setB (viPage n) 30 true (setB (viPage n) 27 (decide (a.system = 1)) t))
      let u := modFn n (fun x => { x with rank := a.rank, kvPoolMax := a.kvMax, plain := a.plain, far0 := a.far0, far1 := a.far1, pim := a.pim, scratch := a.scratch }) t
      fail h 0x04 stOk (signal 0 100 u))) ∧
  (∀ h n, Serves h 0x05 [n] (.viDestroy h n) (fun s => 1 ≤ n ∧ n ≤ 64 ∧ getB s (viPage n) 31 = true)
    (acceptReset n true [(h, 0x05)])) ∧
  (∀ h n, Serves h 0x06 [n] (.viReset h n) (fun s => 1 ≤ n ∧ n ≤ 64 ∧ getB s (viPage n) 31 = true)
    (acceptReset n false [(h, 0x06)])) ∧
  (∀ (n : Fin 64) (s : State), getB s (viPage (n + 1)) 31 = true → exec (.viFlr n) s = .next (acceptReset (n + 1) false [] s)) ∧
  (∀ s : State, ∃ t, exec .afFlr s = .next t ∧ t.pending = s.pending ∧ s.out <+: t.out ∧ (getFn t 0).seed = 0 ∧ (getFn t 0).step = 0) ∧
  (∀ (n : Fin 64) (s : State), getB s (viPage (n + 1)) 29 = true → exec (.viResetDrainDone n) s = .next (drainDone (n + 1) s)) ∧
  (∀ (n : Fin 64) (s : State), getB s (viPage (n + 1)) 28 = true → exec (.viScrubDone n) s = .next (scrubDone (n + 1) s)) ∧
  (∀ (g : Nat) (s : State), g ∈ [1, 2, 4, 8, 16, 32, 64, 128, 256, 512] → Gives s (exec (.resizableBarSelect 0 g) s) Part.queues (fun t => (getFn t 0).barGiB = g ∧
      ∀ f, f ≠ 0 → getFn t f = getFn s f)) ∧
  (∀ (fn : Fin 65) (g : Nat) (s : State), fn.val ≠ 0 → g ∈ [1, 2, 4, 8, 16, 32, 64, 128, 256, 512] →
    Gives s (exec (.resizableBarSelect fn g) s) Part.queues (fun t => (∀ i < 64, (getFn t (i + 1)).barGiB = g) ∧ getFn t 0 = getFn s 0)) ∧
  (∀ (n : Fin 65) (s : State), Gives s (exec (.vfEnableSet n) s) Part.queues (fun t => (∀ i < 64, (getFn t (i + 1)).enabled = decide (i < n.val)) ∧
    getFn t 0 = getFn s 0))

/-- The sequencers of a cluster (R111 to R114, R191, R194, R203, R221, R222, R283, R321): row fetches, completions, relays, weight rows, transfers and
the starting block. -/
def Obligations.SequencersAdvance : Prop :=
  (∀ (c : Fin 64) (s : State) j sc i x, jobOf s c = some j → schedOf s j = some sc →
    let n := sc.streams.length
    let t := (getCluster s c).quillTurn
    let v := turnAhead sc j s
    (List.range n).find? (fun i => match sc.streams[(t + 1 + i) % n]? with
      | none => false
      | some x => nth 64 sc.map x.lcluster = c && wantsFetch v (streamRunner sc x)) = some i → sc.streams[(t + 1 + i) % n]? = some x → x.scratch = false →
    (getCluster v c).quillTurn = t →
    exec (.quillFetch c) s = .next (settleAll c (modCluster c (fun y => { y with quillTurn := (t + 1 + i) % n }) (fetchRow (streamRunner sc x) x v)))) ∧
  (∀ (r : RunnerRef) (i : Nat) (s : State) f, (getRunner s (refNo r)).flight[i]? = some f → canComplete s r.cluster f = true →
    exec (.strokeComplete r i) s = .next (strokeDone (refNo r) i f s)) ∧
  (∀ (c : Fin 64) (id : Fin 16) waits (s : State) e, relayOf s c id = some e → (∀ f ∈ (getCluster s c).firings, f.id ≠ id.val) →
    (∀ k ∈ relayRunners c e, stageReady id k s = true) →
    let heads := (relayRunners c e).filterMap (fun k => (headOf (getRunner s k)).map (fun w => (k, w)))
    let chans := (heads.flatMap (fun x => strokeChannels s x.1 x.2)).dedup
    let a := heads.foldl (fun s x => popHead x.1 s) (((relayRunners c e).zip waits).foldl (fun s x => noteWaits x.1 x.2 s) s)
    let b := modCluster c (fun x => { x with firings := x.firings ++ [{ id := id, stages := relayRunners c e, channels := chans }] }) a
    let r := fireRounds (heads.length + 1) heads b
    exec (.relayFire c id waits) s = .next (r.1.foldl (fun s x => fireStage x.1 x.2 { s := s, waiting := true }) r.2)) ∧
  (∀ (c : Fin 64) (id : Fin 16) (s : State) f, (getCluster s c).firings.find? (fun f => f.id = id.val) = some f →
    (∀ k ∈ f.stages, ∀ x ∈ (getRunner s k).flight, sRelay x.word = true → sRelayId x.word ≠ id.val) → (∀ ch ∈ f.channels, ring s c ch = []) →
    exec (.relayComplete c id) s = .next (modCluster c (fun x => { x with firings := x.firings.filter (fun y => y.id ≠ id.val) }) s)) ∧
  (∀ (c : Fin 64) (core : Fin 16) (s : State) a l, rowsAhead s c core = a :: l →
    (getM s (runnerNo c 0 core 0)).requested.length + (getM s (runnerNo c 0 core 0)).held.length < 8 →
    exec (.weightRowRequest c core) s = .next (modM (runnerNo c 0 core 0) (fun m => { m with requested := m.requested ++ [a] }) s)) ∧
  (∀ (c : Fin 64) (core : Fin 16) (stall : Nat) (s : State) a rest, (getM s (runnerNo c 0 core 0)).requested = a :: rest →
    let t := modM (runnerNo c 0 core 0) (fun m => { m with requested := rest }) s
    (streaming t c core = none →
      exec (.weightRowArrive c core stall) s = .next (modM (runnerNo c 0 core 0) (fun m => { m with held := m.held ++ [a] }) t)) ∧
    (∀ k w n, streaming t c core = some (k, w, n) → a ∈ weightRows k w t → 0 < stall →
      exec (.weightRowArrive c core stall) s = .next (
        let u := addReg (cluBlk c + 0x8022C) stall (markFree c t)
        addReg (mcBlk c (physCore u c 0 core) + 12) stall (modRunner k (fun x => { x with flight := feedRow x.flight }) u)))) ∧
  (∀ (c : Fin 64) (s : State) x rest, takeMoved c (moveWaiting c s).xfers = some (x, rest) →
    let r := descArrive x.runner x.desc { moveWaiting c s with xfers := rest }
    r.2 = false →
    exec (.transferComplete c) s = .next (modRunner x.runner (fun y => { y with flight := dropTransfer x.word y.flight }) r.1)) ∧
  (∀ (c : Fin 64) (s : State) j, jobOf s c = some j → j.running = true → (getCluster s c).started = false →
    Gives s (exec (.clusterFirstIssue c) s) (Part.time ||| Part.clusters) (fun t =>
      t.now = max s.now (s.pace.lineAt + 32 * (c.val % 16)) ∧ (getCluster t c).started = true ∧ (getCluster t c).firstIssue = t.now ∧
      (getCluster t c).ramp = 8 ∧ (getCluster t c).free = false ∧ ∀ e : Nat, e ≠ c.val → getCluster t e = getCluster s e)) ∧
  (∀ (c : Fin 64) (s : State), (getCluster s c).started = true → Gives s (exec (.rampInterval c) s) Part.clusters (fun t =>
      getCluster t c = { getCluster s c with ramp := min 32 ((getCluster s c).ramp + 3) } ∧ ∀ e : Nat, e ≠ c.val → getCluster t e = getCluster s e)) ∧
  (∀ (c : Fin 64) (s : State), (getCluster s c).started = true → Gives s (exec (.rampRestart c) s) Part.clusters (fun t =>
      getCluster t c = { getCluster s c with ramp := 8 } ∧ ∀ e : Nat, e ≠ c.val → getCluster t e = getCluster s e))

/-- Ticks, edges and start lines (R85 to R94, R98, R107, R571): when each happens, when it is ignored, and what it leaves of time. -/
def Obligations.PaceEventsComplete : Prop :=
  (∀ s : State, paceOn s = true → wired s = false →
    exec .tick s = .next (tickBody { s with now := max s.now (s.pace.lastTick + 1000 * periodUs s) })) ∧
  (∀ s : State, paceOn s = false → exec .tick s = .next s ∧ exec .startLine s = .next s ∧ exec .paceMissing s = .next s) ∧
  (∀ s : State, paceOn s = true → s.pace.startPassed = false → s.jobs = [] → s.pace.raisedHold = false → s.pace.gotHold = false →
    s.pace.raisedDiscord = false → s.pace.gotDiscord = false →
    let line := s.pace.lastTick + windowTime s
    let a := showHeld false false (modPace (fun p => { p with startPassed := true, lineAt := line }) { s with now := max s.now line })
    (takeBoundary (paceNumber s) a).jobs = [] →
    exec .startLine s = .next ((List.range 64).foldl (fun s c => evalCeil c s) (takeBoundary (paceNumber s) a))) ∧
  (∀ (t : Nat) (s : State), paceOn s = true → wired s = true → max s.now t + 1000 < s.pace.lastTick + 1000 * periodUs s →
    exec (.paceInEdge t) s = .next (addReg 0x430 1 { s with now := max s.now t })) ∧
  (∀ (t : Nat) (s : State), paceOn s = true → wired s = true → s.pace.lastTick + 1000 * periodUs s ≤ max s.now t + 1000 →
    let u := tickBody { s with now := max s.now t }
    exec (.paceInEdge t) s = .next (if paceMaster u then u else alignStep true u)) ∧
  (∀ s : State, paceOn s = true → wired s = true →
    let u := tickBody { s with now := max s.now (s.pace.lastTick + 1000 * periodUs s + 1000) }
    exec .paceMissing s = .next (report 0x304 (oHub 1 0) fnDevice 0 (if paceMaster u then u else alignStep false u))) ∧
  (∀ (port : Fin 12) (phase : Int) (s : State), inService s port = true → followerPort s = some port.val → wired s = false →
    let u := setReg 0x60C (BitVec.ofInt 32 phase) s
    wired u = false → exec (.tickMarker port phase) s = .next (alignStep (decide (-500 ≤ phase ∧ phase ≤ 500))
      (setB 0x608 30 false { u with links := { u.links with marked := true, missed := 0 } }))) ∧
  (∀ s : State, wired s = false → getB s 0x40C 30 = false → topoKind s ≠ 0 → s.links.marked = false → s.links.missed < 15 →
    exec .markerMissing s = .next (setB 0x608 30 true { s with links := { s.links with missed := s.links.missed + 1, marked := true } }))

/-- Hurdles and towers (R208 to R215, R345, R351, R352, R372, R374, Tables 5.13 and 8.4): each operation acts. -/
def Obligations.HurdlesAndTowersAct : Prop :=
  (∀ (n : Fin 8192) ops (s : State), exec (.hurdleOpApply n ops) s = .next (hurdleCycle n ops s)) ∧
  (∀ (n : Fin 8192) (d : Word) (s : State), n.val < 7680 → fld d 31 1 = 1 → fld d 0 16 = 0 → exec (.hdlCtrlReset n d) s = .next (hurdleCycle n [.reset] s)) ∧
  (∀ (n : Fin 8192) (d : Word) (s : State), n.val < 7680 → fld d 31 1 = 0 → fld d 0 16 ≠ 0 →
    exec (.hdlCtrlArrive n d) s = .next (hurdleCycle n [.arrive (fld d 0 16)] s)) ∧
  (∀ (n : Fin 8192) (d : Word) (s : State), fld d 31 1 = 1 → fld d 0 16 ≠ 0 → n.val < 7680 →
    exec (.hdlCtrlArrive n d) s = .next (hurdleCycle n [.reset, .arrive (fld d 0 16)] s) ∧
    exec (.hdlCtrlReset n d) s = .next (hurdleCycle n [.reset, .arrive (fld d 0 16)] s)) ∧
  (∀ (t : Fin 16) (lane : Fin 8) (cycle : Nat) reqs (s : State) r, (∀ x ∈ reqs, x.bank.val % 8 = lane.val) → laneServes s t lane cycle reqs = [r] →
    exec (.bankAccess t lane cycle reqs) s =
      .next (bankServe t cycle r ((reqs.filter (fun x => x ≠ r)).foldl (fun s x => addReg (masterReg t x + 4) 1 s) s))) ∧
  (∀ (t : Fin 16) (lane : Fin 8) (cycle : Nat) (s : State) r, r.bank.val % 8 = lane.val → kvGet (fun _ => 0) (getTower s t).busy r.bank ≤ cycle →
    portHeld s t r.port = false → exec (.bankAccess t lane cycle [r]) s = .next (bankServe t cycle r s)) ∧
  (∀ (t : Fin 16) (s : State), s.uncorr = [] →
    let a := addReg (twrBlk t + 0x3028) (1536 - ((getTower s t).power.filter (fun e => decide (e.2 ≠ 0 ∧ e.1 < 1536))).length) s
    let row := (getTower s t).patrolRow
    exec (.sramPatrolRow t []) s = .next (modTower t (fun x => { x with patrolRow := (row + 1) % 1024 }) a) ∧
    ∀ bank g n line, bank < 1536 → g < 8 → bankOn a t bank = true →
      exec (.sramPatrolRow t [(bank, g, n, line)]) s = .next (modTower t (fun x => { x with patrolRow := (row + 1) % 1024 }) (eccRead t bank row g n line false a))) ∧
  (∀ (t : Fin 16) (bank : Fin 1536) (s : State), kvGet (fun _ => 0) (getTower s t).target bank = 1 → Gives s (exec (.bankWakeDone t bank) s) Part.towers (fun u =>
    kvGet (fun _ => 0) (getTower u t).power bank = 0 ∧ kvGet (fun _ => 0) (getTower u t).target bank = 0)) ∧
  (∀ (q : Requester) (t : Fin 16) (d : Word) (s : State), fld d 31 1 = 1 → (locked s (twrBlk t) && lockBinds q) = false → fld d 0 2 ≠ 3 →
    (getTower s t).march = none → (fld d 0 2 = 2 ∨ marchFree s t = true) →
    exec (.marchStart q t d) s = .next (startMarch t (fld d 0 2) (getF s (twrBlk t + 0x20004) 16 11) (getF s (twrBlk t + 0x20004) 0 12) none s)) ∧
  (∀ (q : Requester) (t : Fin 16) (d : Word) (s : State), fld d 31 1 = 1 → (locked s (twrBlk t) && lockBinds q) = true →
    exec (.marchStart q t d) s = .next (setB (twrBlk t + 0xFFC) 1 true s)) ∧
  (∀ (t : Fin 16) (s : State) m, (getTower s t).march = some m → m.reply = none →
    let u := modTower t (fun x => { x with march := none }) (marchLeaves t m (addReg (twrBlk t + 0x3020) (marchOps m) s))
    let v := setReg (twrBlk t + 0x20008) (BitVec.ofNat 32 (2 ^ 30 + m.banks % 2 ^ 11)) u
    exec (.marchDone t []) s = .next (setReg (twrBlk t + 0x2000C) 0#32
      (setB (twrBlk t) 28 false (setB (twrBlk t) 29 false (setB (twrBlk t + 0x20000) 31 false v)))))

/-- The coherence messages of a tower line and its home (Table 8.7, R361, R363 to R368): what a request does at a home with nothing waiting, what the
answers and acknowledgements do, and when a grant makes a line the tower's. -/
def Obligations.CoherenceMessagesAct : Prop :=
  (∀ (m : Fin 8) (t : Fin 16) line (s : State), mayAsk s m t line = true → homeFree s m line = true → lineOf s t line = 0 →
    let q := throughHome m line (.tower t false false) s
    (dirOf s m line = none → exec (.gets m t line []) s = .next (grantLine m t line 2 true (setDir m line (.owned t) (touchDir m line q)))) ∧
    (∀ l u, dirOf s m line = some (.shared l) → u ∈ l → u ≠ t.val → exec (.gets m t line []) s =
      .next (grantLine m t line 1 true (setDir m line (.shared (l.filter (fun x => x ≠ t.val) ++ [t.val])) (touchDir m line q)))) ∧
    (∀ o, dirOf s m line = some (.owned o) → o ≠ t.val → exec (.gets m t line []) s = .next (askTowers m line (.tower t false false) [(o, 0)] [] q))) ∧
  (∀ (m : Fin 8) (t : Fin 16) line whole (s : State), mayAsk s m t line = true → homeFree s m line = true → lineOf s t line < 2 →
    let q := throughHome m line (.tower t true whole) s
    (dirOf s m line = none → exec (.getx m t line whole []) s = .next (grantLine m t line 3 (!whole) (setDir m line (.owned t) (touchDir m line q)))) ∧
    (∀ l, dirOf s m line = some (.shared l) → exec (.getx m t line whole []) s =
      .next (askTowers m line (.tower t true whole) ((l.filter (fun x => x ≠ t.val)).map (fun x => (x, 2))) [] q)) ∧
    (∀ o, dirOf s m line = some (.owned o) → o ≠ t.val → exec (.getx m t line whole []) s = .next (askTowers m line (.tower t true whole) [(o, 1)] [] q))) ∧
  (∀ (m : Fin 8) (t : Fin 16) line (s : State), homedAt s m line = true → lineOf s t line = 3 → writingBack s m t line = false →
    let u := modStack m (fun x => { x with writebacks := x.writebacks ++ [(line, t.val)] }) s
    ((getStack s m).recalls.find? (fun r => r.line = line && (r.left.contains (t.val, 0) || r.left.contains (t.val, 1))) = none →
      exec (.writeBack m t line []) s = .next (if dirOf u m line = some (.owned t) then homeGoesOn m (freeDir m line u) else u)) ∧
    (∀ r, (getStack s m).recalls.find? (fun r => r.line = line && (r.left.contains (t.val, 0) || r.left.contains (t.val, 1))) = some r →
      exec (.writeBack m t line []) s = .next (answer m t line (if r.left.contains (t.val, 0) then 0 else 1) false
        (modStack m (fun x => { x with nacks := x.nacks ++ [(line, t.val)] }) (freeDir m line u))))) ∧
  (∀ (m : Fin 8) (t : Fin 16) line (s : State), writingBack s m t line = true →
    exec (.wbAck m t line) s = .next (setLine t line 0 (modStack m (fun x => { x with writebacks := x.writebacks.filter (fun e => e ≠ (line, t.val)) }) s))) ∧
  (∀ (m : Fin 8) (t : Fin 16) line (s : State), (line, t.val) ∈ (getStack s m).nacks →
    exec (.recallNack m t line) s = .next (addReg (dirReg m 2) 1 (modStack m (fun x => { x with nacks := x.nacks.erase (line, t.val) }) s))) ∧
  (∀ (m : Fin 8) (t : Fin 16) line (s : State), asked s m t line 0 = true → writingBack s m t line = false →
    exec (.recallS m t line) s = .next (answer m t line 0 true (if lineOf s t line = 0 then s else setLine t line 1 s))) ∧
  (∀ (m : Fin 8) (t : Fin 16) line (s : State), asked s m t line 1 = true → writingBack s m t line = false →
    exec (.recallInv m t line) s = .next (answer m t line 1 false (setLine t line 0 s))) ∧
  (∀ (m : Fin 8) (t : Fin 16) line (s : State), asked s m t line 2 = true → exec (.invLine m t line) s = .next (answer m t line 2 false (setLine t line 0 s))) ∧
  (∀ (m : Fin 8) (t : Fin 16) line (s : State) g, (getStack s m).grants.find? (fun g => decide (g.line = line ∧ g.tower = t.val)) = some g →
    (setMates s t line).length < 16 →
    let st := if g.state = 2 && lineWaited t line s then 3 else g.state
    exec (.lineGrantArrive m t line) s = .next (lineComes t line (decide (2 ≤ st))
      (setLine t line st (modStack m (fun x => { x with grants := x.grants.filter (fun h => h ≠ g) }) s)))) ∧
  (∀ (m : Fin 8) (fn : Fin 65) addr (s : State) line, homeLine s m fn addr = some line → homeFree s m line = true → resetting s fn = false →
    let q := throughHome m line (.extRead fn addr) s
    (∀ o, dirOf s m line = some (.owned o) → exec (.homeExternalRead m fn addr []) s = .next (askTowers m line (.extRead fn addr) [(o, 0)] [] q)) ∧
    (∀ u l, dirOf s m line = some (.shared (u :: l)) → exec (.homeExternalRead m fn addr []) s =
      .next (serveQueue 1 m (outsideRead fn addr (setDir m line (.shared (u :: l)) (touchDir m line q))))) ∧
    (dirOf s m line = none → exec (.homeExternalRead m fn addr []) s = .next (serveQueue 1 m (outsideRead fn addr (freeDir m line q))))) ∧
  (∀ (m : Fin 8) (fn : Fin 65) addr data blot (s : State) line, homeLine s m fn addr = some line → homeFree s m line = true → resetting s fn = false →
    let w : HomeWant := .extWrite fn addr (data.take (64 - addr % 64)) blot
    let q := throughHome m line w s
    (∀ o, dirOf s m line = some (.owned o) → exec (.homeExternalWrite m fn addr data blot []) s = .next (askTowers m line w [(o, 1)] [] q)) ∧
    (∀ u l, dirOf s m line = some (.shared (u :: l)) →
      exec (.homeExternalWrite m fn addr data blot []) s = .next (askTowers m line w ((u :: l).map (fun t => (t, 2))) [] q)) ∧
    (dirOf s m line = none → exec (.homeExternalWrite m fn addr data blot []) s =
      .next (serveQueue 1 m (writeSpan (hostAcc fn) addr (data.take (64 - addr % 64)) blot (.start (freeDir m line q))).s)))

/-- Stacks, far memory and the expansion ports (R380, R382, R393, R405, R408 to R410, R414, R418 to R422): each event acts. -/
def Obligations.StackAndFarEventsAct : Prop :=
  (∀ (m : Fin 8) (t : Nat) (s : State),
    let a := { s with now := max s.now t }
    let due := a.now + scrubInterval s m
    (getStack s m).scrubDue ≤ a.now →
    (getB s (mscBlk m) 28 = true →
      exec (.stackPatrolPass m t) s = .next (addReg (mscBlk m + 0x2010) 1 (modStack m (fun x => { x with scrubAgain := true, scrubDue := due }) a))) ∧
    (getB s (mscBlk m) 28 = false →
      exec (.stackPatrolPass m t) s = .next (setB (mscBlk m) 28 true (modStack m (fun x => { x with scrubPos := 0, scrubWrites := [], scrubDue := due }) a)))) ∧
  (∀ (m : Fin 8) (ch : Fin 32) (bank : Fin 16) (t : Nat) (s : State), inNmuMode { s with now := max s.now t } m ch bank = false →
    exec (.refresh m ch bank t) s = .next (startRefresh m ch bank { s with now := max s.now t })) ∧
  (∀ (m : Fin 8) (ch : Fin 32) (bank : Fin 16) (t : Nat) (s : State), inNmuMode { s with now := max s.now t } m ch bank = true →
    exec (.refresh m ch bank t) s = .next (modStack m (fun x => { x with refreshing := kvInsert x.refreshing (ch.val * 16 + bank) 0 }) { s with now := max s.now t })) ∧
  (∀ (m : Fin 8) (ch : Fin 32) new errs (cycles t : Nat) (s : State),
    let a := { s with now := max s.now t }
    (∀ r ∈ new, requestStands a m ch r = true ∧ r.op ≠ .scrubWrite ∧ r.op ≠ .scrub ∧ (r.source.val < 65 → resetting s r.source = false)) →
    let q := new.foldl (fun s r => queuePage m ch r s) a
    (∀ r, bufferHit q m ch = some r → exec (.pageAccess m ch new errs cycles t) s = .next (servePage m ch r errs (unqueue m ch r q))) ∧
    (∀ r kept, bufferHit q m ch = none → arbitrate q m ch (competing q m ch) = some (r, kept) →
      let lpi := pageMeant q m ch r
      let b := ((competing q m ch).filter (fun x => x.source ≠ r.source)).foldl (fun s x => addReg (mscBlk m + 0x10004 + 8 * x.source) cycles s) q
      exec (.pageAccess m ch new errs cycles t) s = .next (scrubMove m ch r (servePage m ch r errs (unqueue m ch r
        (grantChannel m ch r kept (accessRows b m lpi (buffered b m ch lpi) r) b)))))) ∧
  (∀ (s : State) x rest, s.hub.convert = x :: rest → (∀ m < 8, (getStack s m).bad.filter (fun e => regionHas x.1 m e.1) = []) →
    (getRegion s x.1).strength ≠ 3 → x.2.1 ≠ 3 →
    exec (.regionConvert []) s = .next (showConvert (modHub (fun h => { h with convert := rest })
      (putRegion x.1 { strength := x.2.1, gen := ((getRegion s x.1).gen + 1) % 16 } s)))) ∧
  (∀ (fn : Fin 65) by_ addr poison (s : State) p d, resetting s fn = false → farPort s fn addr = some p → reach s (hostAcc fn) false (addr / 64 * 64) allBytes = some d →
    let r := readT (hostAcc fn) (addr / 64 * 64) 64 false (if poison then poisonGran d s else s)
    exec (.farAccess fn by_ addr none poison false) s = .next (bumpFree (emit (.streamData fn (tBytes r.data) (tBlot r.data)) r.s)) ∧
    exec (.farAccess fn by_ addr none poison true) s = .next (farFail fn addr by_ true s)) ∧
  (∀ (fn : Fin 65) by_ addr l blot poison (s : State) p d, resetting s fn = false → farPort s fn addr = some p →
    reach s (hostAcc fn) true (addr / 64 * 64) (spanBytes addr (l.take (64 - addr % 64)).length (addr / 64 * 64)) = some d →
    exec (.farAccess fn by_ addr (some (l, blot)) poison false) s = .next ((writeSpan (hostAcc fn) addr (l.take (64 - addr % 64)) blot (.start s)).s) ∧
    exec (.farAccess fn by_ addr (some (l, blot)) poison true) s = .next (farFail fn addr by_ false s)) ∧
  (∀ (fn : Fin 65) by_ addr poison fail (s : State) p, resetting s fn = false → farPort s fn addr = some p → reach s (hostAcc fn) false (addr / 64 * 64) allBytes = none →
    exec (.farAccess fn by_ addr none poison fail) s = .next (farError fn addr by_ true s)) ∧
  (∀ (fn : Fin 65) by_ addr (s : State), exec (.cxlCompletionTimeout fn by_ addr) s = .next (farFail fn addr by_ true s)) ∧
  (∀ (p : Fin 2) lost (s : State), getB s (cxlBlk p) 31 = true →
    let u := report 0x20B (oCxl p 0) fnDevice 0 (driveRefclk p false (setF (cxlBlk p) 28 2 0 (setB (cxlBlk p) 31 false s)))
    exec (.cxlDown p lost) s = .next (lost.foldl (fun s e => if e < 2 then expanderLost p e s else s) u)) ∧
  (∀ (p e : Fin 2) kind (s : State), getB s (cxlBlk p) (21 + e) = true → exec (.cxlEvent p e kind) s = .next (report 0x20C (oCxl p e) fnDevice kind s)) ∧
  (∀ (p : Fin 2) flit (speed : Nat) (width : Nat) (s : State), cxlOut s p = false → linkMode flit speed width = true →
    Gives s (exec (.cxlLinkTrained p flit speed width) s) (Part.regs ||| Part.sup) (fun t => getB t (cxlBlk p) 31 = true ∧ getB t (cxlBlk p) 30 = flit ∧
      getF t (cxlBlk p) 28 2 = speed ∧ getF t (cxlBlk p) 23 5 = width ∧ (∀ o, o ≠ cxlBlk p → rawReg t o = rawReg s o) ∧
      kvGet (fun _ => false) t.pins.cxlClk (2 * p) = true ∧ kvGet (fun _ => false) t.pins.cxlClk (2 * p + 1) = true)) ∧
  (∀ (p : Fin 2) (piece : Nat) (s : State), piece < 0x8000 → farBacked s p (2 ^ 26 * piece) = true → kvGet (fun _ => false) s.farReady (0x8000 * p + piece) = false →
    ∃ t, exec (.farScrubDone p piece) s = .next t ∧ kvGet (fun _ => false) t.farReady (0x8000 * p + piece) = true ∧ t.regs = s.regs)

/-- The attention walkers (R469, R480, R485, R488, R503, R526): each serves the head of its queue. -/
def Obligations.AttentionWalkersServe : Prop :=
  (∀ (d : Fin 2) (s : State) a rest, (getAtt s d).asks = a :: rest →
    walkHead ((serveAsk a.fn d a.what (modAtt d (fun x => { x with asks := rest }) s)).map (fun x => x.2.2) |>.getD (modAtt d (fun x => { x with asks := rest }) s)) (1 - d.val) = none →
    exec (.pageRequest d) s = .next ((serveAsk a.fn d a.what (modAtt d (fun x => { x with asks := rest }) s)).map (fun x => x.2.2) |>.getD (modAtt d (fun x => { x with asks := rest }) s))) ∧
  (∀ (d : Fin 2) (s : State) x ofmt ncol rows, walkHead s d = some x → x.kind = .append ofmt ncol rows → x.asked = false →
    appendBad s x.fn x.seq ofmt ncol (appDesc x.desc).rows (appDesc x.desc) = false → meetsSpilled s x = false →
    let a := appDesc x.desc
    let rest := (rows.take a.rows).drop x.placed
    exec (.kvAppend d) s = .next (placeRows rest.length d x.seq a ncol rest x (.start (setGeometry x.fn x.seq a s)))) ∧
  (∀ (d : Fin 2) (s : State) x, walkHead s d = some x → meetsSpilled s x = true →
    exec (.kvFill d) s = .next (setWalk d { x with filled := true } (fillSeq x.fn x.seq s))) ∧
  (∀ (d : Fin 2) (s : State) x, walkHead s d = some x → x.kind = .attention → field x.desc 40 1 = 0x11 → seqExists s x.fn x.seq = true →
    field x.desc 20 2 < seqLayers s x.fn x.seq → field x.desc 22 1 < recHkv s x.fn x.seq → field x.desc 0 8 % 64 = 0 → field x.desc 28 4 ≠ 0 →
    meetsSpilled s x = false →
    ∃ (w : Wrote) (spilled : Bool), exec (.kvFetch d) s = .next (descDone x w.ok false spilled w.blots (popWalk d (touchSeq x.fn x.seq w.s)))) ∧
  (∀ (d : Fin 2) (s : State) x, walkHead s d = some x → x.kind = .attention → field x.desc 40 1 = 0x10 → decodeBad s x.fn x.seq (decDesc x.desc) = false →
    meetsSpilled s x = false →
    ∃ dec t, exec (.kvDecode d) s = .next (putDecode d (getAtt t d).decodes.length dec (modAtt d (fun b => { b with decodes := b.decodes ++ [dec] }) t)) ∧
      dec.req = x ∧ dec.blocks = decodeBlocks s x.fn x.seq (decDesc x.desc) ∧ dec.heads.length = (decDesc x.desc).heads)

/-- Packets of the fabric in their order (R98, R546, R567, R568, R572, R582): each is taken with its credit and has its effect; a duplicate has none. -/
def Obligations.FabricPacketsAct : Prop :=
  (∀ (p : Fin 12) (s : State) k rest c h, nextPacket s p k rest c → k.body = .tick h →
    exec (.tickHeaderReceive p) s = .next (takeHeader p h (packetTaken p k rest c s))) ∧
  (∀ (p : Fin 12) (s : State) k rest c i reset n org, nextPacket s p k rest c → k.body = .hurdle i reset n org → i < 512 →
    exec (.hurdlePacket p) s = .next (mirror (7680 + i) reset n org (some p.val)
      (hurdleCycle (7680 + i) (if reset then [.reset] else [.arrive n]) (packetTaken p k rest c s)))) ∧
  (∀ (p : Fin 12) (s : State) k rest c r d f, nextPacket s p k rest c → k.body = .topo r d f →
    exec (.topo p) s = .next (updateTree (modPort p (fun x => { x with topo := some (r, d), follows := f }) (packetTaken p k rest c s)))) ∧
  (∀ (p : Fin 12) (s : State) k rest c, nextPacket s p k rest c → k.body = .roleReq →
    let t := packetTaken p k rest c s
    exec (.roleReq p) s = .next (if (getPort t p).roleReq && decide (ownCoord t < k.src) then sendPort p .roleCancel t else sendPort p .roleGrant t)) ∧
  (∀ (p : Fin 12) (s : State) k rest c, nextPacket s p k rest c → k.body = .roleGrant →
    let t := packetTaken p k rest c s
    let u := modPort p (fun x => { x with roleReq := false }) t
    (getPort t p).roleReq = true → systemLoaded u = false → exec (.roleGrant p) s = .next (setFollower (some p.val) u)) ∧
  (∀ (p : Fin 12) (s : State) k rest c, nextPacket s p k rest c → k.body = .roleCancel →
    exec (.roleCancel p) s = .next (report 0x308 (oPort p 15) fnDevice 0 (addReg (fjlBlk p + 0x2C) 1
      (modPort p (fun x => { x with roleReq := false }) (packetTaken p k rest c s))))) ∧
  (∀ (p : Fin 12) (s : State) k rest c d, nextPacket s p k rest c → k.body = .peerLost d →
    exec (.peerLost p) s = .next (learnDeparture d [0xFF] (some p.val) (packetTaken p k rest c s))) ∧
  (∀ (p : Fin 12) (s : State) k rest c, (getPort s p).rx0 = k :: rest → peerOf s p = some c → isTickPacket k.body = true →
    32768 ≤ (k.nseq + 65536 - kvGet (fun _ => 0) s.links.nseqRx c) % 65536 →
    exec (.tickHeaderReceive p) s = .next (returnCredit p k (modPort p (fun x => { x with rx0 := rest }) s)))

/-- Ports and collectives (R535, R549, R552, R554 to R556, R575 to R578, Tables 13.5 and 13.6): flits, training, windows and firings. -/
def Obligations.PortAndCollectiveEventsAct : Prop :=
  (∀ (p : Fin 12) (x : FlitIn) (t : Nat) (s : State), 4 ≤ portState s p → portState s p ≤ 6 →
    let f := decodeFlit x
    let h := field f.bytes 0 6
    let a := countFlit p f { s with now := max s.now t }
    let b := modPort p (fun x => { x with lastGood := a.now }) a
    let c := takeAck p (bits h 12 10) (bits h 33 6) (bits h 39 7) b
    let d := modPort p (fun x => { x with nakRun := 0 }) c
    (flitGood f = false → exec (.flitReceive p x t) s = .next (askReplay p a)) ∧
    (flitGood f = true → bits h 0 2 = 3 → exec (.flitReceive p x t) s = .next b) ∧
    (flitGood f = true → bits h 0 2 = 0 → bit h 22 = false → exec (.flitReceive p x t) s = .next d) ∧
    (flitGood f = true → bits h 0 2 = 0 → bit h 22 = true → exec (.flitReceive p x t) s = .next (takeNak p (bits h 12 10) c)) ∧
    (∀ kind, flitGood f = true → bits h 0 2 = kind → 0 < kind → kind < 3 →
      exec (.flitReceive p x t) s = .next (takeData p kind (bits h 2 10) f.bytes (if bit h 22 then takeNak p (bits h 12 10) c else d)))) ∧
  (∀ (p : Fin 12) (x : FlitIn), x.errors = [] → (decodeFlit x).bytes = x.bytes ∧ (decodeFlit x).uncorrectable = 0) ∧
  (∀ (p : Fin 12) (t : Nat) (s : State), inService s p = true → (getPort s p).lastGood + 1000 ≤ max s.now t →
    exec (.portNoFlitTimeout p t) s = .next (breakPort p { s with now := max s.now t })) ∧
  (∀ (p : Fin 12) f (s : State), portState s p = 1 → 8 ≤ f.detectTx → 8 ≤ f.detectRx → exec (.portStateDone p f) s = .next (setPortState p 2 s)) ∧
  (∀ (p : Fin 12) (s : State), 2 ≤ portState s p → portState s p ≤ 5 → exec (.portStateTimeout p) s = .next (returnEqualize p s)) ∧
  (∀ (p : Fin 12) (s : State) k c q d i x, portState s p = 4 → (getPort s p).ident = some k → k.body = .ident c q d i x →
    let t := modPort p (fun x => { x with ident := none }) s
    (portPeer t p = some (c, d, i) → portDir (topoKind t) q = some (d, i) →
      exec (.ident p) s = .next (setReg (fjlBlk p + 8) (BitVec.ofNat 32 (2 ^ 31 + 2 ^ 24 * q + c)) t)) ∧
    (portPeer t p ≠ some (c, d, i) → exec (.ident p) s = .next (portFailed p 4 (setB (fjlBlk p) 28 true t)))) ∧
  (∀ (p : Fin 12) (s : State), inService s p = true → (∀ i < 9, nth 0 (getPort s p).laneBits i ≤ laneBound) → (getPort s p).symbols ≤ symbolBound → (getPort s p).bad ≤ 10 →
    exec (.berWindow p) s = .next (clearWindow p ((List.range 9).foldl (fun s' i => setReg (fjlBlk p + 0x40 + 4 * i) (BitVec.ofNat 32 (nth 0 (getPort s p).laneBits i)) s') s))) ∧
  (∀ (s : State) i r e, s.coll.released = i :: r → s.coll.entries[i]? = some e → s.coll.firings.length < 4 →
    let c : Coll := { s.coll with released := r, entries := s.coll.entries.set i { e with fired := e.fired + 1 }, firings := s.coll.firings ++ [{ entry := i, n := e.fired }] }
    exec .collectiveFire s = .next (beginFiring i e.fired (collParam e.raw) { s with coll := c })) ∧
  (∀ (p : Fin 12) (s : State) k r e n ph c st off dest data blots, (getPort s p).rx1 = k :: r → k.body = .coll e n ph c st off dest data blots → dest ≠ ownCoord s →
    exec (.collPacket p) s = .next (sendColl k dest (returnCredit p k (modPort p (fun x => { x with rx1 := r }) s)))) ∧
  (∀ (p : Fin 12) (s : State) k r e n ph c st off data blots en f, (getPort s p).rx1 = k :: r → k.body = .coll e n ph c st off (ownCoord s) data blots →
    s.coll.entries[e]? = some en → s.coll.firings.find? (fun f => decide (f.entry = e ∧ f.n % 65536 = n)) = some f →
    exec (.collPacket p) s = .next (takeColl f (collParam en.raw) ph c st off { data := data, blots := blots }
      (returnCredit p k (modPort p (fun x => { x with rx1 := r }) s)))) ∧
  (∀ (s : State) f, s.coll.firings.find? (firingDone s) = some f → exec .collectiveComplete s = .next (endFiring f s))

/-- Power (R594 to R613): control windows, steps and transitions, droop, measurement and regulator alerts; each event completes with its effect. -/
def Obligations.PowerEventsAct : Prop :=
  (∀ w (s : State),
    let a := (List.range 64).foldl (fun s c => modClu c (fun x => { x with raised := false }) s) s
    let b := (List.range 64).foldl (fun s c => countHeld w c s) (showPackage w (showDomains w a))
    let c := if sharesExceeded b w then addReg (pwrBlk + 0x2C) 1 b else b
    let d := setF (pwrBlk + 0x18) 0 16 (min 65535 ((domSum w 80 4 + w.aux) / 1000))
      (setReg (pwrBlk + 0x14) (BitVec.ofNat 32 (65536 * min 65535 (domSum w 84 8 / 1000) + min 65535 (domSum w 92 4 / 1000))) c)
    let e := (List.range 16).foldl (fun s t => towerLoop w t s) d
    exec (.controlWindow w) s = .next (setB pwrBlk 29 ((List.range 16).any (fun t => (getTow e t).forcing)) e)) ∧
  (∀ w (t : Fin 16) (s : State), towerShareOf s w t ≠ 0 →
    let bt := towerShareOf s w t
    let d : Int := max (-4) (min 4 (Int.fdiv (128 * towerOver s w t + bt) (2 * bt)))
    ((getTow (towerLoop w t s) t).b : Int) = max 0 (min 56 ((getTow s t).b + d)) ∧ (towerLoop w t s).mem = s.mem ∧ (towerLoop w t s).jobs = s.jobs) ∧
  (∀ (c : Fin 64) (s : State), (getClu s c).move = none → domainOn s c = true → curStep s c < vfTarget s c →
    let held := getB s (vfBlk c) 30 && !forcedPf s c
    let m : VfMove := { step := vfTarget s c, rise := false, held := held, back := setMvOf s c }
    let a := changeM c (vfTarget s c) s
    exec (.vfTransition c) s = .next (setB (vfBlk c) 31 true (modClu c (fun x => { x with move := some m })
      (if held then a else setVolt c (setPoint a c (vfTarget s c)) a)))) ∧
  (∀ (c : Fin 64) (s : State), (getClu s c).move = none → domainOn s c = true → vfTarget s c < curStep s c → getB s (vfBlk c) 30 = false → (getClu s c).raised = false →
    let m : VfMove := { step := curStep s c - 1, rise := true, back := setMvOf s c }
    exec (.vfTransition c) s = .next (setB (vfBlk c) 31 true (modClu c (fun x => { x with raised := true, move := some m })
      (setVolt c (setPoint s c (curStep s c - 1)) s)))) ∧
  (∀ (n : Fin 96) mv (s : State), domainOn s n = true →
    let a := setB (domReg n) 30 true (setF (domReg n) 0 10 mv s)
    (64 ≤ n.val → exec (.voltageSettled n mv) s = .next a) ∧
    (n.val < 64 → (getClu s n).move = none → exec (.voltageSettled n mv) s = .next a) ∧
    (∀ m, n.val < 64 → (getClu s n).move = some m → m.held = true → exec (.voltageSettled n mv) s = .next a) ∧
    (∀ m, n.val < 64 → (getClu s n).move = some m → m.held = false → exec (.voltageSettled n mv) s =
      .next (evalCeil n (addReg (vfBlk n + 0x18) 1 (setB (vfBlk n) 31 false (modClu n (fun x => { x with move := none })
        (if m.rise then changeM n m.step a else a))))))) ∧
  (∀ (c : Fin 64) (s : State), getB s (vfBlk c) 30 = false → domainOn s c = true →
    let a := markFree c (addReg (vfBlk c + 0x10) 1 (setB (vfBlk c) 30 true s))
    ((getClu s c).move = none → exec (.droopCrossing c) s = .next a) ∧
    (∀ m, (getClu s c).move = some m → m.rise = true → exec (.droopCrossing c) s = .next (setB (vfBlk c) 31 false
      (modClu c (fun x => { x with move := none, raised := true }) (addReg (pwrBlk + 0x24) 1 (setVolt c m.back a))))) ∧
    (∀ m, (getClu s c).move = some m → m.rise = false → forcedPf a c = true → exec (.droopCrossing c) s = .next a) ∧
    (∀ m, (getClu s c).move = some m → m.rise = false → forcedPf a c = false →
      exec (.droopCrossing c) s = .next (setVolt c m.back (modClu c (fun x => { x with move := some { m with held := true } }) a)))) ∧
  (∀ (c : Fin 64) n (s : State), getB s (vfBlk c) 30 = true →
    let a := capturePort c (addReg (vfBlk c + 0x14) n (setB (vfBlk c) 30 false s))
    ((getClu s c).move = none → exec (.droopRelease c n) s = .next a) ∧
    (∀ m, (getClu s c).move = some m → exec (.droopRelease c n) s =
      .next (if m.held then setVolt c (setPoint a c m.step) (modClu c (fun x => { x with move := some { m with held := false } }) a) else a))) ∧
  (∀ l (s : State), firmwareActs s = true → bit (paramIn (listsOf s) 0x10 0) 31 = true → Gives s (exec (.pmbusPoll [some l]) s) (Part.records ||| Part.sup) (fun t =>
    kvGet (fun _ => ({} : Regulator)) t.sup.regs 0 = { words := l })) ∧
  (∀ (s : State), firmwareActs s = true → bit (paramIn (listsOf s) 0x10 0) 31 = true →
    let r := kvGet (fun _ => ({} : Regulator)) s.sup.regs 0
    r.fails = 2 → r.lost = false → Gives s (exec (.pmbusPoll [none]) s) (Part.records ||| Part.sup ||| frameOf (.pmbusPoll [none])) (fun t =>
      (kvGet (fun _ => ({} : Regulator)) t.sup.regs 0).lost = true)) ∧
  (∀ p c (s : State), firmwareActs s = true → s.sup.regs.any (fun e => e.2.lost) = false →
    Gives s (exec (.pmbusGain p c) s) (Part.regs ||| Part.frees) (fun t => (∀ o, o ≠ pwrBlk + 0x1C → rawReg t o = rawReg s o) ∧
      31130 ≤ getF t (pwrBlk + 0x1C) 0 16 ∧ getF t (pwrBlk + 0x1C) 0 16 ≤ 34406 ∧ (c ≠ 0 → getF t (pwrBlk + 0x1C) 0 16 = max 31130 (min 34406 (32768 * p / c))))) ∧
  (∀ (n : Fin 96) e (s : State), firmwareActs s = true → s.hub.readyAt + 1000000000 ≤ s.now →
    let o := pwrBlk + 0x1400 + 4 * n
    let model := getF s o 14 14
    let a := setF o 0 14 (min e 0x3FFF) s
    (4 * e ≤ 5 * model → exec (.rinWindow n [some e, none, none, none]) s = .next (if 2 * model < e then setB o 30 true a else a)) ∧
    (5 * model < 4 * e →
      let b := setF o 28 2 0 (setB o 31 true a)
      exec (.rinWindow n [some e, none, none, none]) s = .next (report 0x403 (oDomain n 0) fnDevice e (if 2 * model < e then setB o 30 true b else b)))) ∧
  (∀ (i : Fin 4) t (s : State),
    let a := setB pwrBlk 31 true (setB pwrBlk (20 + i) true { s with now := max s.now t })
    let b := modSup (fun u => { u with alertEnd := none }) a
    (getB s pwrBlk (20 + i) = false → exec (.vrAlert i true t) s =
      .next (applyForce (modHub (fun h => { h with vrAlerts := h.vrAlerts + 1 }) (report 0x401 (oHub 2 i) fnDevice 0 (addReg (pwrBlk + 0x28) 1 b))))) ∧
    (getB s pwrBlk (20 + i) = true → exec (.vrAlert i true t) s = .next (applyForce b))) ∧
  (∀ (i : Fin 4) t (s : State), getB s pwrBlk (20 + i) = true →
    let a := setB pwrBlk (20 + i) false { s with now := max s.now t }
    exec (.vrAlert i false t) s = .next (if getF a pwrBlk 20 4 = 0 then modSup (fun u => { u with alertEnd := some (max s.now t) }) a else a)) ∧
  (∀ t (s : State) e, s.sup.alertEnd = some e → e + 1000000 ≤ max s.now t → getF s pwrBlk 20 4 = 0 →
    exec (.vrAlertRelease t) s = .next (setB pwrBlk 31 false (modSup (fun u => { u with alertEnd := none }) { s with now := max s.now t })))

/-- Heat (R614 to R628): conversions, triggers, trips, coolant, thermal resistance and cycles. -/
def Obligations.ThermalEventsAct : Prop :=
  (∀ (n : Fin 428) (x : Int) (tg : Bool) (s : State), sensorBroken (converted n x tg s) n = true → exec (.sensorConversion n x tg) s = .next (converted n x tg s)) ∧
  (∀ (n : Fin 428) (x : Int) (tg : Bool) (s : State), getB (converted n x tg s) (sensorReg n) 30 = decide (1440 ≤ x) ∧
    getB (converted n x tg s) (sensorReg n) 27 = false ∧ getB (converted n x tg s) (sensorReg n) 26 = tg ∧ getF (converted n x tg s) (sensorReg n) 0 16 = wrapInt 16 x % 2 ^ 16) ∧
  (∀ (n : Fin 428) (x : Int) (tg : Bool) (s : State),
    let r := sensorReg n
    let u := converted n x tg s
    let h := threshold (getB u r 29) (decide (1520 ≤ x)) (decide (x ≤ 1472)) (getSensor u n).hot (getSensor u n).cool
    let c := threshold (getB u r 28) (decide (1680 ≤ x)) (decide (x ≤ 1632)) (getSensor u n).crit (getSensor u n).uncrit
    let v := modSensor n (fun y => { y with seen := true, hot := h.1, cool := h.2.1, crit := c.1, uncrit := c.2.1, bad := 0, cold := if x < 1280 then min 3 ((getSensor u n).cold + 1) else 0 }) u
    let w := showThermal (moveLimit n h.2.2 (setB r 29 h.2.2 (setB r 28 c.2.2 v)))
    sensorBroken u n = false → badSample s n x tg = false → (c.2.2 && !getB u r 28) = false →
    (getSensor (setB r 29 h.2.2 (setB r 28 c.2.2 v)) n).bad < 2 → w.sup.tripHeld = false →
    exec (.sensorConversion n x tg) s = .next (applyForce w)) ∧
  (∀ (n : Fin 428) (x : Int) (tg : Bool) (s : State), sensorBroken (converted n x tg s) n = false →
    exec (.sensorConversion n x tg) s = .next (sensorChecks n x (badSample s n x tg) (converted n x tg s))) ∧
  (∀ (d : Word) (s : State), fld d 0 9 < 428 → getB s (sensorReg (fld d 0 9)) 27 = false → exec (.thmTrigger d) s = .next (setB (sensorReg (fld d 0 9)) 27 true s)) ∧
  (∀ (d : Word) (s : State), fld d 0 9 < 428 → getB s (sensorReg (fld d 0 9)) 27 = true → exec (.thmTrigger d) s = .next (addReg (pwrBlk + 0x2008) 1 s)) ∧
  (∀ hot (s : State) n,
    let u := (List.range 428).foldl (fun t n => if (hot.filter (fun n => decide (n < 428) && !sensorBroken s n)).contains n then modSensor n (fun x => { x with trip := min 3 (x.trip + 1) }) t
      else if (getSensor t n).trip = 0 then t else modSensor n (fun x => { x with trip := 0 }) t) s
    (List.range 428).find? (fun n => decide (3 ≤ (getSensor u n).trip)) = some n → u.hub.tripped = false → exec (.tripSample hot) s = .next (trip n u)) ∧
  (∀ t (s : State), s.hub.tripped = true → s.sup.tripAt + 10000000000 ≤ max s.now t → trips24h { s with now := max s.now t } < 3 →
    (validSensors s).all (fun n => decide (sensorTemp s n < 1280)) = true →
    exec (.tripRestart t) s = .next (report 0x407 (oSensor s.sup.tripSensor) fnDevice s.sup.tripReading (coldStart { s with now := max s.now t }))) ∧
  (∀ v (s : State), firmwareActs s = true → getB s (pwrBlk + 0x2020) 31 = true → Gives s (exec (.coolantPoll [some v]) s) (Part.regs ||| Part.sup) (fun t =>
    getF t (pwrBlk + 0x2020) 0 16 = v % 2 ^ 16 ∧ getB t (pwrBlk + 0x2020) 30 = true ∧ kvGet (fun _ => 0) t.sup.coolFails 0 = 0)) ∧
  (∀ x (s : State), inletPresent s = false → exec (.rthHour x) s = .next (setB (pwrBlk + 0x2000) 28 false s)) ∧
  (∀ (x : RthHour) (s : State), inletPresent s = true → x.inletValid = true → 800 ≤ x.loadPermille → x.mw ≠ 0 → 100 ≤ s.sup.rthHours.length →
    let r := (max 0 (min 65535 (1000 * (x.tj - x.tin) / (x.mw : Int)))).toNat
    exec (.rthHour x) s = .next (coolingWarning r (setF (pwrBlk + 0x200C) 0 16 r (setB (pwrBlk + 0x2000) 28 true s)))) ∧
  (∀ (t : Fin 16) (x : Int) (s : State), (getTow s t).up = true → (getTow s t).peak < x → exec (.thermalCycleSecond t x) s = .next (modTow t (fun w => { w with peak := x }) s)) ∧
  (∀ (t : Fin 16) (x : Int) (s : State), (getTow s t).up = true → x + 80 ≤ (getTow s t).peak →
    exec (.thermalCycleSecond t x) s = .next (modHub (fun h => { h with cycles := kvMod (fun _ => 0) h.cycles (t * 6 + cycleBin ((getTow s t).peak - (getTow s t).valley)) (fun n => n + 1) }) (modTow t (fun w => { w with valley := x, up := false }) s)))

/-- Fault records (R635, R636): a report is merged into its open record or opens one, and a record closes when its window ends. -/
def Obligations.BlotterActs : Prop :=
  (∀ s : State, s.reports = [] → exec .blotterAccept s = .next s) ∧
  (∀ (s : State) r, nextReport s.reports = some r → s.recs.any (fun x => !x.closed && decide (x.origin = r.origin ∧ x.cls = r.cls ∧ x.fn = r.fn)) = true →
    Gives s (exec .blotterAccept s) (Part.regs ||| Part.log ||| Part.records ||| Part.hub ||| Part.sec) (fun t => t.reports = dropReport r s.reports ∧
      t.recs = s.recs.map (fun x => if !x.closed && decide (x.origin = r.origin ∧ x.cls = r.cls ∧ x.fn = r.fn) then { x with count := sat32 x.count r.count } else x))) ∧
  (∀ (s : State) r, nextReport s.reports = some r → s.recs.any (fun x => !x.closed && decide (x.origin = r.origin ∧ x.cls = r.cls ∧ x.fn = r.fn)) = false →
    exec .blotterAccept s = .next (openRecord r (addReg (bltBlk + 0xC) 1 { s with reports := dropReport r s.reports }))) ∧
  (∀ t (s : State), s.recs.filter (fun r => !r.closed && decide (r.opened + windowNs s ≤ max s.now t)) = [] → exec (.recordClose t) s = .next { s with now := max s.now t }) ∧
  (∀ t (s : State) r, s.recs = [r] → r.closed = false → r.opened + windowNs s ≤ max s.now t →
    exec (.recordClose t) s = .next (closing r { s with now := max s.now t, recs := [{ r with closed := true }] }))

/-- Life counters, the watchdog, firmware switches, unit tests and leaving service (R647 to R650, R654, R656, R659, R661, R693). -/
def Obligations.HubEventsAct : Prop :=
  (∀ tj p j (s : State), Gives s (exec (.lifeHour tj p j) s) Part.hub (fun t => t.hub.lifeClock = s.hub.lifeClock + 3600 ∧ t.hub.powerOn = s.hub.powerOn + min 3600 p ∧
    t.hub.energy = s.hub.energy + j ∧ t.hub.tjHours = s.hub.tjHours.set (tjBin tj) (nth 0 s.hub.tjHours (tjBin tj) + 1))) ∧
  (∀ s : State, max (min 65535 (lifeT s.hub.tjHours)) (min 65535 (lifeC s)) < 5000 → exec .lifeDay s =
    .next (modHub (fun h => { h with lifeT := min 65535 (lifeT s.hub.tjHours), lifeC := min 65535 (lifeC s), thresholds := h.thresholds }) s)) ∧
  (∀ s : State, s.hub.outPending = false → exec .outOfService s = .next s) ∧
  (∀ s : State, s.hub.outPending = true → exec .outOfService s = .next (
    let u := pinDrive 25 false (setB 0x200 29 false (setB 0x200 30 false (setB 0x200 31 true ((List.range 64).foldl (fun s c => clusterOff c s)
      (endAllJobs (modPace (fun p => { p with leave := true }) (modHub (fun h => { h with outPending := false }) s)))))))
    stateEvent 2 1 (report 0x506 oDevice fnDevice u.hub.outCause u))) ∧
  (∀ (d : Word) t (s : State), d ≠ 0x5A5A#32 → exec (.hubWdtKick d t) s = .next { s with now := max s.now t }) ∧
  (∀ t (s : State), Gives s (exec (.hubWdtKick 0x5A5A#32 t) s) (Part.time ||| Part.hub) (fun u => u.now = max s.now t ∧ u.hub = { s.hub with lastKick := max s.now t })) ∧
  (∀ t (s : State), s.hub.running = true → s.hub.halted = false → max s.now t < s.hub.lastKick + 10000000 → exec (.watchdog t) s = .next { s with now := max s.now t }) ∧
  (∀ s : State, s.hub.booting = none → exec .fwReady s = .next s) ∧
  (∀ (s : State) k h, s.hub.booting = some k → s.hub.switchBy = some h → exec .fwReady s = .next (
    let a := modHub (fun x => { x with switchBy := none, switches := x.switches + 1 }) (setB 0x708 28 false (fwRuns s))
    let b := noteFw k 1 (report 0x502 (oHub 0 0) fnDevice (slotOf a k).build a)
    finish h 0x85 stOk 0 b.hub.switchAt 0 (raiseSvn (showFw b)))) ∧
  (∀ (s : State) k, s.hub.booting = some k → s.hub.switchBy = none → exec .fwReady s = .next (endAllJobs (noteFw k 3 (showFw (fwRuns s))))) ∧
  (∀ s : State, s.hub.switchBy = none → exec .fwSwitchTimeout s = .next s ∧ exec .verificationFail s = .next s) ∧
  (∀ (s : State) k h, s.hub.booting = some k → s.hub.switchBy = some h → 
    let a := setSlot k FwSlot.none (modHub (fun x => { x with active := x.previous, switchBy := none }) s)
    let b := showFw (setB 0x708 28 false (fwRuns a))
    let u := fail h 0x85 stFwError (noteFw b.hub.active 2 (report 0x503 (oHub 0 0) fnDevice (slotOf s k).build b))
    exec .fwSwitchTimeout s = .next u ∧ exec .verificationFail s = .next u) ∧
  (∀ k i l sw (s : State), s.hub.testing.find? (fun e => decide (e.1 = k ∧ e.2.1 = i)) = none → exec (.unitTestDone k i l sw) s = .next s) ∧
  (∀ i sw (s : State) e, s.hub.testing.find? (fun e => decide (e.1 = 4 ∧ e.2.1 = i)) = some e →
    let a := modHub (fun h => { h with testing := h.testing.filter (fun x => !decide (x.1 = 4 ∧ x.2.1 = i)) }) s
    exec (.unitTestDone 4 i [] sw) s =
      .next (finish e.2.2.2 0x81 stOk 0 e.2.2.1 0 (driveRefclk i true (setB (cxlBlk i) 31 true (setUnitOut 4 i false a)))) ∧
    ∀ x l, exec (.unitTestDone 4 i (x :: l) sw) s = .next (fail e.2.2.2 0x81 stFwError (report 0x505 (oCxl i 0) fnDevice (x :: l).length a))) ∧
  (∀ (d : Word) (s : State), d ≠ 1#32 → exec (.secLcCtrl d) s = .next s) ∧
  (∀ s : State, reg64 s (secBlk + 4) % 64 ≠ 0 → (readSpan s { fn := 0, org := oHub 0 0 } (reg64 s (secBlk + 4)) 320).ok = true →
    exec (.secLcCtrl 1#32) s = .next (freshNonce (setF secBlk 28 3 2 (bumpFree s)))) ∧
  (∀ s : State, reg64 s (secBlk + 4) % 64 = 0 → (readSpan s { fn := 0, org := oHub 0 0 } (reg64 s (secBlk + 4)) 320).ok = true →
    let l := (readSpan s { fn := 0, org := oHub 0 0 } (reg64 s (secBlk + 4)) 320).data
    let key := (l.drop 48).take 96
    let a := setF secBlk 28 3 (tokenResult s l) (bumpFree s)
    exec (.secLcCtrl 1#32) s = .next (freshNonce (if tokenResult s l = 1 then changeState (field l 7 1) (if zeroBytes key then a else addOwner key a) else a)))

/-- Bring-up and warm reset (R667 to R679, R690): the supervisor starts at stage 0, a warm reset at stage 1, each stage leads to the next, and stage 6 ends it. -/
def Obligations.BringupProceeds : Prop :=
  (∀ s : State, s.hub.vauxLost = true → s.hub.stage = none → s.hub.recovery = false → s.hub.running = false → exec .coldBringup s = .next (coldStart s)) ∧
  (∀ s : State, s.hub.running = true → s.hub.stage = none → s.hub.recovery = false → exec .coldBringup s = .next s) ∧
  (∀ s : State, s.hub.running = true → s.hub.stage ≠ some 0 → s.hub.recovery = false → exec .warmReset s = .next (emit (.configRetry true) (modHub (fun h => { h with stage := some 1, fast := true }) (showStage 1 (resetState true s))))) ∧
  (∀ (f : StageFindings) (s : State), s.hub.recovery = true ∨ s.hub.stage = none → exec (.bringupStage f) s = .next s) ∧
  (∀ (f : StageFindings) (s : State), s.hub.recovery = false → s.hub.stage = some 0 → f.rails % 8 ≠ 7 → exec (.bringupStage f) s = .next (setRails f.rails (stageTime f s))) ∧
  (∀ (f : StageFindings) (s t : State), s.hub.recovery = false → s.hub.stage = some 0 → stage0 f (stageTime f s) = some t → exec (.bringupStage f) s = .next (stageTurn 0 t)) ∧
  (∀ (f : StageFindings) (s : State), s.hub.recovery = false → s.hub.stage = some 1 → (stage1 f (stageTime f s)).hub.recovery = false → exec (.bringupStage f) s = .next (stageTurn 1 (stage1 f (stageTime f s)))) ∧
  (∀ (f : StageFindings) (s t : State), s.hub.recovery = false → s.hub.stage = some 2 → stage2 f (stageTime f s) = some t → exec (.bringupStage f) s = .next (stageTurn 2 t)) ∧
  (∀ (f : StageFindings) (s : State), s.hub.recovery = false → s.hub.stage = some 3 → exec (.bringupStage f) s = .next (stageTurn 3 (stage3 f (stageTime f s)))) ∧
  (∀ (f : StageFindings) (s : State), s.hub.recovery = false → s.hub.stage = some 4 → exec (.bringupStage f) s = .next (stageTurn 4 (stage4 f (stageTime f s)))) ∧
  (∀ (f : StageFindings) (s : State), s.hub.recovery = false → s.hub.stage = some 5 → exec (.bringupStage f) s = .next (stageTurn 5 (stage5 f (stageTime f s)))) ∧
  (∀ (f : StageFindings) (s : State), s.hub.recovery = false → s.hub.stage = some 6 → exec (.bringupStage f) s = .next (stage6 (stageTime f s))) ∧
  (∀ k (s : State), (stageTurn k s).hub.stage = some (k + 1) ∧ getF (stageTurn k s) fuseBlk 20 4 = (k + 1) % 16) ∧
  (∀ d (s : State), d ≠ 1#32 ∨ s.hub.recovery = false → exec (.brgRecGo d) s = .next s) ∧
  (∀ s : State, s.hub.recovery = true → 64 + field (recoveryBytes s 20) 16 4 + 96 ≤ 2 ^ 24 →
    let l := recoveryBytes s (64 + field (recoveryBytes s 20) 16 4 + 96)
    exec (.brgRecGo 1#32) s = .next (if fwVerifies s l then coldStart (modHub (fun h => { h with active := 0 }) (setSlot 0 (fwSlotOf l) s)) else s))

/-- Pins, supplies and the tamper input (R696, R717, R718, R726). -/
def Obligations.PinsAndSuppliesAct : Prop :=
  (∀ s : State, getB s 0x800 24 = true → s.pins.offAt = none → exec .vpkgUndervoltage s = .next (vpkgDown s)) ∧
  (∀ s : State, getB s 0x800 24 = false → exec .vpkgUndervoltage s = .next s) ∧
  (∀ t a (s : State), s.pins.offAt = some a → a + 100000000 ≤ max s.now t → s.hub.running = true → exec (.vpkgRestart t) s =
    .next (showStage 2 (modHub (fun h => { h with stage := some 2, fast := false }) (modScribe (fun x => { x with consuming := false }) (setB fuseBlk 30 false (setB fuseBlk 31 false
      (modPins (fun p => { p with offAt := none }) (pinDrive 24 true { s with now := max s.now t }))))))) ) ∧
  (∀ s : State, let u := restoreSummary (resetState false s)
    let t := modHub (fun h => { h with vauxLost := true }) { u with dbg := {} }
    exec .vauxLoss s = .next t ∧ t.mem = s.mem ∧ t.host = s.host ∧ t.hub.running = false ∧ t.jobs = [] ∧ t.pins.offAt = none) ∧
  (∀ (o : Fin 2) l (s : State), getB (setB 0x800 (26 + offBit o) l s) 0x800 (offBit o) = true → exec (.pinReadback o l) s =
    .next (modPins (fun p => if o = 0 then { p with readyBad := 0 } else { p with enBad := 0 }) (setB 0x800 (26 + offBit o) l s))) ∧
  (∀ s : State, getB (setB 0x800 (26 + offBit 0) true s) 0x800 (offBit 0) = false → getB (setB 0x800 (26 + offBit 0) true s) 0x800 (24 + offBit 0) = false → s.pins.readyBad = 2 →
    exec (.pinReadback 0 true) s = .next (threeState 0 (addReg 0x804 1 (modPins (fun p => { p with readyBad := 0 }) (setB 0x800 (26 + offBit 0) true s))))) ∧
  (∀ (d : Word) (s : State), d.getLsbD (offBit 0) = false → d.getLsbD (offBit 1) = false → exec (.pinOffWrite d) s = .next (setB 0x800 (offBit 1) false (setB 0x800 (offBit 0) false s))) ∧
  (∀ (d : Word) (s : State), d.getLsbD (offBit 0) = true → getB s 0x800 (offBit 0) = false → d.getLsbD (offBit 1) = true → getB (threeState 0 s) 0x800 (offBit 1) = false →
    exec (.pinOffWrite d) s = .next (threeState 1 (threeState 0 s))) ∧
  (∀ s : State, exec (.tamper false) s = .next (setB (secBlk + 0x30) 31 false s)) ∧
  (∀ s : State, getB s (secBlk + 0x30) 31 = true → exec (.tamper true) s = .next s) ∧
  (∀ s : State, getB s (secBlk + 0x30) 31 = false → lifeState s = 2 → exec (.tamper true) s =
    .next (changeState 3 (setB (secBlk + 0x30) 31 true (setF (secBlk + 0x30) 0 16 (min 0xFFFF (getF s (secBlk + 0x30) 0 16 + 1)) s))))

/-- Management requests over SPDM, MCTP and PLDM (R698 to R702): a request in order and of the agreed version is answered as its row says. -/
def Obligations.ManagementRequestsAnswered : Prop :=
  (∀ (b : List (BitVec 8)) (s : State), 4 ≤ b.length → field b 1 1 = 0x84 → field b 0 1 = 0x10 → exec (.getVersion b) s =
    .next (sendSpdm [0x10#8, 0x04#8, 0#8, 0#8, 0#8, 2#8, 0#8, 0x12#8, 0#8, 0x13#8] (modSec (fun x => { x with spdmState := 1, spdmVersion := 0 }) s))) ∧
  (∀ (b : List (BitVec 8)) (s : State), spdmTaken 0xE1 1 b s → (field b 0 1 = 0x12 ∨ field b 0 1 = 0x13) →
    Gives s (exec (.getCapabilities b) s) (Part.frees ||| Part.log ||| Part.sec) (fun t => t.sec = { s.sec with spdmState := 2, spdmVersion := field b 0 1 } ∧
      ∃ l, t.out = s.out ++ [.management 5 (leBytes 1 (field b 0 1) ++ [0x61#8] ++ l)])) ∧
  (∀ (b : List (BitVec 8)) (s : State), spdmTaken 0xE3 2 b s → exec (.negotiateAlgorithms b) s =
    .next (sendSpdm (leBytes 1 s.sec.spdmVersion ++ [0x63#8, 0#8, 0#8] ++ leBytes 2 36 ++ [1#8, 0#8] ++ leBytes 4 4 ++ leBytes 4 (field b 8 4 &&& 0x80) ++
      leBytes 4 (field b 12 4 &&& 2) ++ List.replicate 16 0#8) (modSec (fun x => { x with spdmState := 3 }) s))) ∧
  (∀ (b : List (BitVec 8)) (s : State), spdmTaken 0x81 3 b s → exec (.getDigests b) s = .next (sendSpdm (leBytes 1 s.sec.spdmVersion ++ [0x01#8, 0#8, 1#8] ++ sha384 Config.certChain) s)) ∧
  (∀ (b : List (BitVec 8)) (s : State), spdmTaken 0x82 3 b s → field b 2 1 % 16 = 0 → exec (.getCertificate b) s =
    .next (sendSpdm (leBytes 1 s.sec.spdmVersion ++ [0x02#8, 0#8, 0#8] ++ leBytes 2 ((Config.certChain.drop (field b 4 2)).take (field b 6 2)).length ++
      leBytes 2 (Config.certChain.length - field b 4 2 - ((Config.certChain.drop (field b 4 2)).take (field b 6 2)).length) ++ (Config.certChain.drop (field b 4 2)).take (field b 6 2)) s)) ∧
  (∀ (b : List (BitVec 8)) (s : State), spdmTaken 0x83 3 b s → field b 2 1 = 0 → Gives s (exec (.challenge b) s) (Part.frees ||| Part.log ||| Part.sec) (fun t =>
    t.sec = { s.sec with draws := s.sec.draws + 1 } ∧
    ∃ l, t.out = s.out ++ [.management 5 (leBytes 1 s.sec.spdmVersion ++ [0x03#8, 0#8, 1#8] ++ sha384 Config.certChain ++ l)])) ∧
  (∀ (b : List (BitVec 8)) (s : State), spdmTaken 0xE0 3 b s → (field b 3 1 ≤ 8 ∨ field b 3 1 = 0xFF) →
    Gives s (exec (.getMeasurements b) s) (Part.frees ||| Part.log ||| Part.sec) (fun t => t.sec = { s.sec with draws := s.sec.draws + 1 } ∧
      ∃ l, t.out = s.out ++ [.management 5 (leBytes 1 s.sec.spdmVersion ++ [0x60#8] ++ l)])) ∧
  (∀ (b : List (BitVec 8)) (s : State), 2 ≤ b.length → field b 1 1 = 1 → 8 ≤ field b 3 1 → field b 3 1 < 0xFF → exec (.mctpControl b) s =
    .next (emit (.management 0 (leBytes 1 (field b 0 1 % 32) ++ leBytes 1 1 ++ ([0#8, 0#8] ++ leBytes 1 (field b 3 1) ++ [0#8]))) (modSec (fun x => { x with eid := field b 3 1 }) s))) ∧
  (∀ (b : List (BitVec 8)) (s : State), 2 ≤ b.length → field b 1 1 = 2 → exec (.mctpControl b) s =
    .next (emit (.management 0 (leBytes 1 (field b 0 1 % 32) ++ leBytes 1 2 ++ ([0#8] ++ leBytes 1 s.sec.eid ++ [0#8, 0#8]))) s)) ∧
  (∀ n (s : State), Gives s (exec (.setEventReceiver n) s) (Part.log ||| Part.sec) (fun t => t.sec = { s.sec with receiver := some n, events := [] } ∧
    t.out = s.out ++ s.sec.events.map (fun p => .management 2 p))) ∧
  (∀ n (s : State), Gives s (exec (.pldmSensorRead n) s) Part.log (fun t => t.out = s.out ++ [.management 1 (leBytes 2 n ++ (match pldmReading s n with
    | some v => [0#8] ++ leBytes 4 (wrapInt 32 v)
    | none => [1#8]))]))

/-- Debug (R736 to R740): tokens, the access register, halt and resume, and the boundary scan. -/
def Obligations.DebugCommandsAct : Prop :=
  (∀ l (s : State), Gives s (exec (.dbgToken l) s) (Part.regs ||| Part.sec ||| Part.dbg) (fun t => t.dbg = { s.dbg with token := l } ∧
    t.sec = { s.sec with tokenScope := if debugTokenOk s l then some (field l 6 1) else none, draws := s.sec.draws + 1 })) ∧
  (∀ (u : BitVec 96) (s : State), s.dbg.busy = false → ((u.extractLsb' 12 4).toNat = 1 ∨ (u.extractLsb' 12 4).toNat = 2) → exec (.dbgAccess u) s = .next (modDbg (fun d => { d with
    addr := (u.extractLsb' 48 48).toNat, data := (u.extractLsb' 16 32).toNat, op := (u.extractLsb' 12 4).toNat, busy := true, status := 4 }) s)) ∧
  (∀ (u : BitVec 96) (s : State), s.dbg.busy = true → exec (.dbgAccess u) s = .next s) ∧
  (∀ (s : State), s.dbg.busy = true → bit (debugScope s) (s.dbg.op - 1) = false → Gives s (exec .dbgAccessDone s) Part.dbg (fun t => t.dbg = { s.dbg with busy := false, status := 3 })) ∧
  (∀ (s : State), s.dbg.busy = true → bit (debugScope s) (s.dbg.op - 1) = true → s.dbg.addr % 4 ≠ 0 → Gives s (exec .dbgAccessDone s) Part.dbg (fun t => t.dbg = { s.dbg with busy := false, status := 1 })) ∧
  (∀ (s : State) (o b : Nat), s.dbg.busy = true → s.dbg.op = 1 → bit (debugScope s) 0 = true → o % 4 = 0 → o < 2 ^ 32 → s.dbg.addr = windowBase + o → blockOf o = some b →
    exec .dbgAccessDone s = .next (dbgEnd 0 (some (readBy .jtag o s).1.toNat) (readBy .jtag o s).2)) ∧
  (∀ (s : State) (o b : Nat), s.dbg.busy = true → s.dbg.op = 2 → bit (debugScope s) 1 = true → o % 4 = 0 → o < 2 ^ 32 → s.dbg.addr = windowBase + o → blockOf o = some b →
    exec .dbgAccessDone s = .next (dbgEnd (if locked s b && decide ((regRow o).rwl ≠ 0) then 2 else 0) none (writeWord .jtag o (BitVec.ofNat 32 s.dbg.data) s))) ∧
  (∀ (s : State), bit (debugScope s) 2 = true → systemLoaded s = false → Gives s (exec .dbgHalt s) Part.hub (fun t => t.hub = { s.hub with halted := true })) ∧
  (∀ (s : State), bit (debugScope s) 2 = false → exec .dbgHalt s = .next s ∧ exec .dbgResume s = .next s) ∧
  (∀ (s : State), bit (debugScope s) 2 = true → s.hub.halted = true →
    exec .dbgResume s = .next (actOnHeld (modHub (fun h => { h with halted := false, lastKick := s.now }) s))) ∧
  (∀ (s : State), s.dbg.busy = true → s.dbg.op = 1 → bit (debugScope s) 0 = true → s.dbg.addr % 4 = 0 → ¬ (windowBase ≤ s.dbg.addr ∧ s.dbg.addr < windowBase + 2 ^ 32) →
    let k : Acc := { fn := fnHub, org := oDevice }
    let r := readSpan s k s.dbg.addr 4
    exec .dbgAccessDone s = .next (if r.ok then dbgEnd 0 (some (leNat r.data)) (bumpFree s) else dbgEnd 1 none (readError k s.dbg.addr s))) ∧
  (∀ (s : State), s.dbg.busy = true → s.dbg.op = 2 → bit (debugScope s) 1 = true → s.dbg.addr % 4 = 0 → ¬ (windowBase ≤ s.dbg.addr ∧ s.dbg.addr < windowBase + 2 ^ 32) →
    let w := writeSpan { fn := fnHub, org := oDevice } s.dbg.addr (leBytes 4 s.dbg.data) false (.start s)
    exec .dbgAccessDone s = .next (dbgEnd (if w.ok then 0 else 1) none w.s)) ∧
  (∀ c (s : State), Gives s (exec (.extest c) s) Part.dbg (fun t => t.dbg = { s.dbg with scan := c, extest := true })) ∧
  (∀ c (s : State), Gives s (exec (.samplePreload c) s) Part.dbg (fun t => t.dbg = { s.dbg with scan := c, extest := false }))

/-- Register and BAR2 accesses of a requester (R62, R64, R65, R76, R79, R239): aligned words, the host's 64 bits as two words with the lower first, the
latch of a _HI half, the bus error of every other access, the locks that a requester reaches, the AF's BAR2 base. -/
def Obligations.RegisterAccessesAct : Prop :=
  (∀ q a (d : BitVec 64) (s : State) o, hostDark s q = false → s.hub.recovery = false → a % 4 = 0 → windowOff s q a = some o → ownWrite q o (d.truncate 32) s = none →
    exec (.registerWrite q a 4 d) s = .next (writeReg q o (d.truncate 32) s)) ∧
  (∀ q a (d : BitVec 64) (s t : State), hostDark s q = false → s.hub.recovery = false → a % 8 = 0 → reqNo q < 65 → exec (.registerWrite q a 4 d) s = .next t →
    exec (.registerWrite q a 8 d) s = .next (writeAt q (a + 4) ((d >>> 32).truncate 32) t)) ∧
  (∀ q a n (d : BitVec 64) (s : State), hostDark s q = false → s.hub.recovery = false → (n ≠ 4 ∧ n ≠ 8) ∨ a % 4 ≠ 0 ∨ (n = 8 ∧ (a % 8 ≠ 0 ∨ 65 ≤ reqNo q)) →
    exec (.registerWrite q a n d) s = .next (regBusError q a false s) ∧ exec (.loReadLatch q a n) s = .next (regBusError q a true s)) ∧
  (∀ q b (d : Word) (s : State), reachesBlock q b = true → (regRow (b + 0xFFC)).w1s = 1 → blockOf (b + 0xFFC) = some b → exec (.blkLock q b d) s = .next (writeReg q (b + 0xFFC) d s)) ∧
  (∀ q b (d : Word) (s : State), reachesBlock q b = false → exec (.blkLock q b d) s = .next (regBusError q (b + 0xFFC) false s)) ∧
  (∀ q a o b (s : State), hostDark s q = false → s.hub.recovery = false → windowOff s q a = some o → a % 4 = 0 → blockOf o = some b →
    (isLo o = true → Gives s (exec (.loReadLatch q a 4) s) (Part.latches ||| Part.log) (fun t =>
      t.out = s.out ++ [.readData (reqFn q) (leBytes 4 (readReg s o).toNat)] ∧ t.latches = kvInsert s.latches (latchKey q (o + 4)) (readReg s (o + 4)))) ∧
    (∀ v, isLo o = false → kvFind s.latches (latchKey q o) = some v → Gives s (exec (.loReadLatch q a 4) s) (Part.latches ||| Part.log) (fun t =>
      t.out = s.out ++ [.readData (reqFn q) (leBytes 4 v.toNat)] ∧ t.latches = kvErase s.latches (latchKey q o))) ∧
    (isLo o = false → kvFind s.latches (latchKey q o) = none → Gives s (exec (.loReadLatch q a 4) s) Part.log (fun t =>
      t.out = s.out ++ [.readData (reqFn q) (leBytes 4 (readReg s o).toNat)]))) ∧
  (∀ q a o b b' (s : State), hostDark s q = false → s.hub.recovery = false → windowOff s q a = some o → windowOff s q (a + 4) = some (o + 4) → a % 8 = 0 → reqNo q < 65 →
    blockOf o = some b → blockOf (o + 4) = some b' → isLo o = true → isLo (o + 4) = false → Gives s (exec (.loReadLatch q a 8) s) (Part.latches ||| Part.log) (fun t =>
      t.out = s.out ++ [.readData (reqFn q) (leBytes 4 (readReg s o).toNat ++ leBytes 4 (readReg s (o + 4)).toNat)])) ∧
  (∀ q a (s : State), hostDark s q = false → s.hub.recovery = false → a % 4 = 0 → (windowOff s q a).bind blockOf = none → exec (.loReadLatch q a 4) s = .next (regBusError q a true s)) ∧
  (∀ (d : Word) (s : State), Gives s (exec (.afBar2BaseApply d) s) (Part.regs ||| Part.latches) (fun t =>
    afBar2Base t = fld (rawReg s 0x18) 30 2 * 2 ^ 30 + fld d 0 16 * 2 ^ 32)) ∧
  (∀ (fn : Fin 65) off n (s : State) a, bar2Addr s fn.val off n = some a →
    ((readSpan s (hostAcc fn) a n).ok = true → exec (.bar2Access fn off n none) s = .next (bumpFree (emit (.readData fn (readSpan s (hostAcc fn) a n).data) s))) ∧
    ((readSpan s (hostAcc fn) a n).ok = false → exec (.bar2Access fn off n none) s = .next (emit (.unsupportedRequest fn) (readError (hostAcc fn) a s)))) ∧
  (∀ (fn : Fin 65) off n (s : State), bar2Addr s fn.val off n = none → exec (.bar2Access fn off n none) s = .next (bar2Error fn off true s)) ∧
  (∀ (fn : Fin 65) off n l (s : State) a, bar2Addr s fn.val off l.length = some a → (writeSpan (hostAcc fn) a l false (.start s)).ok = true →
    exec (.bar2Access fn off n (some l)) s = .next ((writeSpan (hostAcc fn) a l false (.start s)).s)) ∧
  (∀ (fn : Fin 65) off n l (s : State), bar2Addr s fn.val off l.length = none → exec (.bar2Access fn off n (some l)) s = .next (bar2Error fn off false s))

/-- What a write leaves in a register without staging (R66 to R69), bit by bit: a bit that the row lets be written takes the value, a write-one-to-clear
bit clears on 1, a write-one-to-set bit sets on 1, every other bit holds, and a locked field holds and sets REFUSED. -/
def Obligations.AccessCodesHold : Prop :=
  (∀ (r : RegRow) (lk : Bool) (old v : Word) (i : Nat), i < 32 → (r.rw ||| r.rws ||| (if lk then 0 else r.rwl)).testBit i = true → r.w1c.testBit i = false → r.w1s.testBit i = false →
    (maskWrite r lk old v).getLsbD i = v.getLsbD i) ∧
  (∀ (r : RegRow) (lk : Bool) (old v : Word) (i : Nat), i < 32 → (r.rw ||| r.rws ||| (if lk then 0 else r.rwl)).testBit i = false → r.w1c.testBit i = false → r.w1s.testBit i = false →
    (maskWrite r lk old v).getLsbD i = old.getLsbD i) ∧
  (∀ (r : RegRow) (lk : Bool) (old v : Word) (i : Nat), i < 32 → (r.rw ||| r.rws ||| r.rwl).testBit i = false → r.w1c.testBit i = true → r.w1s.testBit i = false →
    (maskWrite r lk old v).getLsbD i = (old.getLsbD i && !v.getLsbD i)) ∧
  (∀ (r : RegRow) (lk : Bool) (old v : Word) (i : Nat), i < 32 → (r.rw ||| r.rws ||| r.rwl).testBit i = false → r.w1c.testBit i = false → r.w1s.testBit i = true →
    (maskWrite r lk old v).getLsbD i = (old.getLsbD i || v.getLsbD i)) ∧
  (∀ q o b (v : Word) (s : State), blockOf o = some b → ¬ (hdlBlk ≤ o ∧ o < hdlBlk + 0x20000) → q0Held s o = false → o ≠ 0x1C → stagedReg o = false → lapStagedReg o = false →
    (locked s b && lockBinds q && decide ((regRow o).rwl ≠ 0)) = false →
    writeReg q o v s = msixUnmask o (setReg o (fixWrite s o (rawReg s o) (maskWrite (regRow o) (locked s b && lockBinds q) (rawReg s o) v)) s)) ∧
  (∀ q o b (v : Word) (s : State), blockOf o = some b → ¬ (hdlBlk ≤ o ∧ o < hdlBlk + 0x20000) → q0Held s o = false → o ≠ 0x404 → o < 0x40000000 → stagedReg o = true → lapStagedReg o = false →
    (locked s b && lockBinds q && decide ((regRow o).rwl ≠ 0)) = false →
    let new := fixWrite s o (stagedValue s o) (maskWrite (regRow o) (locked s b && lockBinds q) (stagedValue s o) v)
    writeReg q o v s = modHub (fun h => { h with stagedRegs := kvInsert h.stagedRegs o new }) s) ∧
  (∀ q o b (v : Word) (s : State), blockOf o = some b → ¬ (hdlBlk ≤ o ∧ o < hdlBlk + 0x20000) → q0Held s o = false → (stagedReg o || lapStagedReg o) = true →
    (locked s b && lockBinds q && decide ((regRow o).rwl ≠ 0)) = true → writeReg q o v s = setB (b + 0xFFC) 1 true s) ∧
  (∀ q o (v : Word) (s : State), blockOf o = none → writeReg q o v s = regBusError q o false s)
end

