-- ==== Sys2Proof/Laws/Sparse.lean ====
section
/-!
SUPPORT. The laws of sparse maps: reading after writing, and the canonical form.
-/
namespace Sys2Proof.Machine

variable {α : Type}

/-! ### Reading after writing -/

theorem kvFind_kvInsert (m : List (Nat × α)) (k j : Nat) (v : α) :
    kvFind (kvInsert m k v) j = if j = k then some v else kvFind m j := by
  induction m with
  | nil => simp only [kvInsert, kvFind, eq_comm]
  | cons e r ih =>
    obtain ⟨a, b⟩ := e
    simp only [kvInsert]
    split
    · simp only [kvFind]; split <;> split <;> grind
    · split
      · subst_vars; simp only [kvFind]; split <;> split <;> grind
      · simp only [kvFind, ih]; split <;> split <;> grind

theorem kvFind_filter (m : List (Nat × α)) (p : Nat → Bool) (j : Nat) :
    kvFind (m.filter (fun e => p e.1)) j = if p j then kvFind m j else none := by
  induction m with
  | nil => simp [kvFind]
  | cons e r ih =>
    obtain ⟨a, b⟩ := e
    simp only [List.filter_cons]
    split
    · simp only [kvFind, ih]; grind
    · rw [ih]; simp only [kvFind]; grind

theorem kvFind_kvErase (m : List (Nat × α)) (k j : Nat) :
    kvFind (kvErase m k) j = if j = k then none else kvFind m j := by
  have h := kvFind_filter m (fun a => !(decide (a = k))) j
  simp only [kvErase] at *
  rw [h]; by_cases hj : j = k <;> simp [hj]

theorem kvFind_kvKeep (m : List (Nat × α)) (p : Nat → Bool) (j : Nat) :
    kvFind (kvKeep m p) j = if p j then kvFind m j else none := kvFind_filter m p j

/-- What a key reads as after a write: the value at the key written, and what it was elsewhere. -/
theorem kvGet_kvPut [DecidableEq α] (d : Nat → α) (m : List (Nat × α)) (k j : Nat) (v : α) :
    kvGet d (kvPut d m k v) j = if j = k then v else kvGet d m j := by
  unfold kvPut kvGet
  split
  · rw [kvFind_kvErase]; split <;> simp_all
  · rw [kvFind_kvInsert]; split <;> simp_all

@[simp] theorem kvGet_kvPut_same [DecidableEq α] (d : Nat → α) (m : List (Nat × α)) (k : Nat) (v : α) :
    kvGet d (kvPut d m k v) k = v := by simp [kvGet_kvPut]

theorem kvGet_kvPut_other [DecidableEq α] (d : Nat → α) (m : List (Nat × α)) {k j : Nat} (v : α) (h : j ≠ k) :
    kvGet d (kvPut d m k v) j = kvGet d m j := by simp [kvGet_kvPut, h]

/-- What a key reads as after a function has been applied at one key. -/
theorem kvGet_kvMod [DecidableEq α] (d : Nat → α) (m : List (Nat × α)) (k j : Nat) (f : α → α) :
    kvGet d (kvMod d m k f) j = if j = k then f (kvGet d m k) else kvGet d m j := kvGet_kvPut d m k j _

/-! ### The canonical form -/

theorem kvAbove_mono {a b : Nat} (h : a ≤ b) : ∀ {m : List (Nat × α)}, kvAbove b m = true → kvAbove a m = true
  | [], _ => rfl
  | (k, v) :: r, hm => by
    simp only [kvAbove, Bool.and_eq_true, decide_eq_true_eq] at *
    exact ⟨by omega, hm.2⟩

theorem kvSorted_of_kvAbove {b : Nat} : ∀ {m : List (Nat × α)}, kvAbove b m = true → kvSorted m = true
  | [], _ => rfl
  | (k, v) :: r, hm => by simp [kvAbove] at hm; simp [kvSorted, hm]

theorem kvAbove_kvInsert {b k : Nat} {v : α} (hb : b < k) :
    ∀ {m : List (Nat × α)}, kvAbove b m = true → kvAbove b (kvInsert m k v) = true
  | [], _ => by simp [kvInsert, kvAbove, hb]
  | (k', v') :: r, hm => by
    simp only [kvAbove, Bool.and_eq_true, decide_eq_true_eq] at hm
    simp only [kvInsert]
    split
    · simp [kvAbove, hb, hm.2]; omega
    · split
      · subst_vars; simp [kvAbove, hm.1, hm.2]
      · simp only [kvAbove, Bool.and_eq_true, decide_eq_true_eq]
        exact ⟨hm.1, kvAbove_kvInsert (by omega) hm.2⟩

theorem kvSorted_kvInsert {k : Nat} {v : α} : ∀ {m : List (Nat × α)}, kvSorted m = true → kvSorted (kvInsert m k v) = true
  | [], _ => by simp [kvInsert, kvSorted, kvAbove]
  | (k', v') :: r, hm => by
    simp only [kvSorted] at hm
    simp only [kvInsert]
    split
    · simp [kvSorted, kvAbove, hm]; omega
    · split
      · subst_vars; simpa [kvSorted] using hm
      · simpa [kvSorted] using kvAbove_kvInsert (by omega) hm

theorem kvAbove_filter {b : Nat} (p : Nat × α → Bool) :
    ∀ {m : List (Nat × α)}, kvAbove b m = true → kvAbove b (m.filter p) = true
  | [], _ => rfl
  | (k, v) :: r, hm => by
    simp only [kvAbove, Bool.and_eq_true, decide_eq_true_eq] at hm
    simp only [List.filter_cons]
    split
    · simp only [kvAbove, Bool.and_eq_true, decide_eq_true_eq]; exact ⟨hm.1, kvAbove_filter p hm.2⟩
    · exact kvAbove_mono (by omega) (kvAbove_filter p hm.2)

theorem kvSorted_filter (p : Nat × α → Bool) : ∀ {m : List (Nat × α)}, kvSorted m = true → kvSorted (m.filter p) = true
  | [], _ => rfl
  | (k, v) :: r, hm => by
    simp only [kvSorted] at hm
    simp only [List.filter_cons]
    split
    · simpa [kvSorted] using kvAbove_filter p hm
    · exact kvSorted_of_kvAbove (kvAbove_filter p hm)

theorem mem_kvInsert {m : List (Nat × α)} {k : Nat} {v : α} {e : Nat × α} (h : e ∈ kvInsert m k v) : e = (k, v) ∨ e ∈ m := by
  induction m with
  | nil => simpa [kvInsert] using h
  | cons a r ih =>
    obtain ⟨k', v'⟩ := a
    simp only [kvInsert] at h
    split at h
    · simpa using h
    · split at h
      · rcases List.mem_cons.1 h with h | h
        · exact .inl h
        · exact .inr (List.mem_cons_of_mem _ h)
      · rcases List.mem_cons.1 h with h | h
        · exact .inr (by simp [h])
        · exact (ih h).imp id (List.mem_cons_of_mem _)

/-- Dropping entries keeps the canonical form. -/
theorem kvWf_filter [DecidableEq α] {d : Nat → α} {m : List (Nat × α)} (p : Nat × α → Bool) (h : kvWf d m = true) :
    kvWf d (m.filter p) = true := by
  simp only [kvWf, Bool.and_eq_true, List.all_eq_true] at *
  exact ⟨kvSorted_filter p h.1, fun e he => h.2 e (List.mem_of_mem_filter he)⟩

theorem kvWf_kvErase [DecidableEq α] {d : Nat → α} {m : List (Nat × α)} (k : Nat) (h : kvWf d m = true) :
    kvWf d (kvErase m k) = true := kvWf_filter _ h

theorem kvWf_kvKeep [DecidableEq α] {d : Nat → α} {m : List (Nat × α)} (p : Nat → Bool) (h : kvWf d m = true) :
    kvWf d (kvKeep m p) = true := kvWf_filter _ h

theorem kvWf_kvClear [DecidableEq α] {d : Nat → α} {m : List (Nat × α)} (lo hi : Nat) (h : kvWf d m = true) :
    kvWf d (kvClear m lo hi) = true := kvWf_filter _ h

/-- A write keeps the canonical form. -/
theorem kvWf_kvPut [DecidableEq α] {d : Nat → α} {m : List (Nat × α)} (k : Nat) (v : α) (h : kvWf d m = true) :
    kvWf d (kvPut d m k v) = true := by
  unfold kvPut
  split
  · exact kvWf_kvErase k h
  · simp only [kvWf, Bool.and_eq_true, List.all_eq_true, Bool.not_eq_true', decide_eq_false_iff_not] at *
    refine ⟨kvSorted_kvInsert h.1, fun e he => ?_⟩
    rcases mem_kvInsert he with rfl | he
    · assumption
    · exact h.2 e he

theorem kvWf_kvMod [DecidableEq α] {d : Nat → α} {m : List (Nat × α)} (k : Nat) (f : α → α) (h : kvWf d m = true) :
    kvWf d (kvMod d m k f) = true := kvWf_kvPut k _ h

theorem kvWf_nil [DecidableEq α] (d : Nat → α) : kvWf d ([] : List (Nat × α)) = true := rfl

theorem kvSorted_map (f : α → α) : ∀ {m : List (Nat × α)}, kvSorted m = true → kvSorted (m.map (fun e => (e.1, f e.2))) = true
  | [], _ => rfl
  | (k, v) :: r, hm => by
    have go : ∀ {b : Nat} {m : List (Nat × α)}, kvAbove b m = true → kvAbove b (m.map (fun e => (e.1, f e.2))) = true := by
      intro b m
      induction m generalizing b with
      | nil => intro _; rfl
      | cons e r ih => intro h; simp only [List.map_cons, kvAbove, Bool.and_eq_true] at *; exact ⟨h.1, ih h.2⟩
    simpa [kvSorted] using go hm

theorem kvWf_kvMapAll [DecidableEq α] {d : Nat → α} {m : List (Nat × α)} (f : α → α) (h : kvWf d m = true) :
    kvWf d (kvMapAll d m f) = true := by
  simp only [kvWf, Bool.and_eq_true] at h
  simp only [kvWf, kvMapAll, Bool.and_eq_true, List.all_eq_true]
  refine ⟨kvSorted_filter _ (kvSorted_map f h.1), fun e he => ?_⟩
  simpa using (List.mem_filter.1 he).2

end Sys2Proof.Machine
end

