-- ==== Sys2Proof/Laws/Keep.lean ====
section
/-!
SUPPORT. What every operation of the block keeps: the queue, the order of time, the log, the free-value counter, the fused security version,
the owner key slots, the canonical form of the memories and of the register file, and every part of the state that it does not name. Each
operation of the Machine files has one lemma `<operation>_keeps` in the Laws/Keep… files, which names the parts that it may change; a
claim about a command, or about all of them, cites these in place of unfolding.
-/
namespace Sys2Proof.Machine

theorem Keeps.refl (m : Nat) (s : State) : Keeps m s s :=
  ⟨rfl, le_refl _, le_refl _, List.prefix_rfl, le_refl _, List.prefix_rfl, id, id, id, id, id, id,
   fun _ => rfl, fun _ => rfl, fun _ => rfl, fun _ => rfl, fun _ => rfl, fun _ => rfl, fun _ => rfl, fun _ => rfl, fun _ => rfl, fun _ => rfl, fun _ => rfl, fun _ => rfl, fun _ => rfl, fun _ => rfl, fun _ => rfl, fun _ => rfl, fun _ => rfl, fun _ => rfl, fun _ => rfl, fun _ => rfl, fun _ => rfl, fun _ => rfl, fun _ => rfl, fun _ => rfl, fun _ => rfl, fun _ => rfl, fun _ => rfl, fun _ => rfl, fun _ => rfl, fun _ => rfl, fun _ => rfl, fun _ => rfl, fun _ => rfl, fun _ => rfl, fun _ => rfl, fun _ => rfl, fun _ => rfl, fun _ => rfl, fun _ => rfl, fun _ => rfl, fun _ => rfl⟩

theorem Keeps.trans {m : Nat} {a b c : State} (h : Keeps m a b) (g : Keeps m b c) : Keeps m a c :=
  ⟨g.pending.trans h.pending, h.now.trans g.now, h.frees.trans g.frees, h.out.trans g.out, h.svn.trans g.svn,
   h.owners.trans g.owners, fun x => g.slots (h.slots x), fun x => g.regs (h.regs x), fun x => g.mem (h.mem x),
   fun x => g.host (h.host x), fun x => g.blots (h.blots x), fun x => g.uncorr (h.uncorr x),
   fun x => (g.sameRegs x).trans (h.sameRegs x),
   fun x => (g.sameLatches x).trans (h.sameLatches x),
   fun x => (g.sameMem x).trans (h.sameMem x),
   fun x => (g.sameBlots x).trans (h.sameBlots x),
   fun x => (g.sameUncorr x).trans (h.sameUncorr x),
   fun x => (g.sameHost x).trans (h.sameHost x),
   fun x => (g.sameNow x).trans (h.sameNow x),
   fun x => (g.sameFrees x).trans (h.sameFrees x),
   fun x => (g.sameOut x).trans (h.sameOut x),
   fun x => (g.sameReports x).trans (h.sameReports x),
   fun x => (g.sameRecs x).trans (h.sameRecs x),
   fun x => (g.samePace x).trans (h.samePace x),
   fun x => (g.sameScribe x).trans (h.sameScribe x),
   fun x => (g.sameFns x).trans (h.sameFns x),
   fun x => (g.sameScheds x).trans (h.sameScheds x),
   fun x => (g.sameJobs x).trans (h.sameJobs x),
   fun x => (g.sameClusters x).trans (h.sameClusters x),
   fun x => (g.sameRunners x).trans (h.sameRunners x),
   fun x => (g.sameWritten x).trans (h.sameWritten x),
   fun x => (g.sameAbase x).trans (h.sameAbase x),
   fun x => (g.sameAbtag x).trans (h.sameAbtag x),
   fun x => (g.sameMcores x).trans (h.sameMcores x),
   fun x => (g.sameVruns x).trans (h.sameVruns x),
   fun x => (g.sameSruns x).trans (h.sameSruns x),
   fun x => (g.sameXfers x).trans (h.sameXfers x),
   fun x => (g.sameNmus x).trans (h.sameNmus x),
   fun x => (g.sameAtts x).trans (h.sameAtts x),
   fun x => (g.sameHurdles x).trans (h.sameHurdles x),
   fun x => (g.sameHwaits x).trans (h.sameHwaits x),
   fun x => (g.sameTowers x).trans (h.sameTowers x),
   fun x => (g.sameStk x).trans (h.sameStk x),
   fun x => (g.sameRegions x).trans (h.sameRegions x),
   fun x => (g.sameFarReady x).trans (h.sameFarReady x),
   fun x => (g.sameHub x).trans (h.sameHub x),
   fun x => (g.samePorts x).trans (h.samePorts x),
   fun x => (g.sameLinks x).trans (h.sameLinks x),
   fun x => (g.sameColl x).trans (h.sameColl x),
   fun x => (g.sameSup x).trans (h.sameSup x),
   fun x => (g.samePins x).trans (h.samePins x),
   fun x => (g.sameSec x).trans (h.sameSec x),
   fun x => (g.sameDbg x).trans (h.sameDbg x)⟩

theorem testBit_part {n m : Nat} (h : n ||| m = m) {i : Nat} (x : m.testBit i = false) : n.testBit i = false := by
  rw [← h, Nat.testBit_or, Bool.or_eq_false_iff] at x
  exact x.1

/-- More parts may change. -/
theorem Keeps.mono {n m : Nat} {a b : State} (g : Keeps n a b) (h : n ||| m = m) : Keeps m a b :=
  { g with
    sameRegs := fun x => g.sameRegs (testBit_part h x)
    sameLatches := fun x => g.sameLatches (testBit_part h x)
    sameMem := fun x => g.sameMem (testBit_part h x)
    sameBlots := fun x => g.sameBlots (testBit_part h x)
    sameUncorr := fun x => g.sameUncorr (testBit_part h x)
    sameHost := fun x => g.sameHost (testBit_part h x)
    sameNow := fun x => g.sameNow (testBit_part h x)
    sameFrees := fun x => g.sameFrees (testBit_part h x)
    sameOut := fun x => g.sameOut (testBit_part h x)
    sameReports := fun x => g.sameReports (testBit_part h x)
    sameRecs := fun x => g.sameRecs (testBit_part h x)
    samePace := fun x => g.samePace (testBit_part h x)
    sameScribe := fun x => g.sameScribe (testBit_part h x)
    sameFns := fun x => g.sameFns (testBit_part h x)
    sameScheds := fun x => g.sameScheds (testBit_part h x)
    sameJobs := fun x => g.sameJobs (testBit_part h x)
    sameClusters := fun x => g.sameClusters (testBit_part h x)
    sameRunners := fun x => g.sameRunners (testBit_part h x)
    sameWritten := fun x => g.sameWritten (testBit_part h x)
    sameAbase := fun x => g.sameAbase (testBit_part h x)
    sameAbtag := fun x => g.sameAbtag (testBit_part h x)
    sameMcores := fun x => g.sameMcores (testBit_part h x)
    sameVruns := fun x => g.sameVruns (testBit_part h x)
    sameSruns := fun x => g.sameSruns (testBit_part h x)
    sameXfers := fun x => g.sameXfers (testBit_part h x)
    sameNmus := fun x => g.sameNmus (testBit_part h x)
    sameAtts := fun x => g.sameAtts (testBit_part h x)
    sameHurdles := fun x => g.sameHurdles (testBit_part h x)
    sameHwaits := fun x => g.sameHwaits (testBit_part h x)
    sameTowers := fun x => g.sameTowers (testBit_part h x)
    sameStk := fun x => g.sameStk (testBit_part h x)
    sameRegions := fun x => g.sameRegions (testBit_part h x)
    sameFarReady := fun x => g.sameFarReady (testBit_part h x)
    sameHub := fun x => g.sameHub (testBit_part h x)
    samePorts := fun x => g.samePorts (testBit_part h x)
    sameLinks := fun x => g.sameLinks (testBit_part h x)
    sameColl := fun x => g.sameColl (testBit_part h x)
    sameSup := fun x => g.sameSup (testBit_part h x)
    samePins := fun x => g.samePins (testBit_part h x)
    sameSec := fun x => g.sameSec (testBit_part h x)
    sameDbg := fun x => g.sameDbg (testBit_part h x) }

theorem Keeps.via {n m : Nat} {a b c : State} (g : Keeps n b c) (e : n ||| m = m) (h : Keeps m a b) : Keeps m a c := h.trans (g.mono e)

theorem Keeps.putLatches (s : State) (x : List (Nat × Word)) : Keeps Part.latches s { s with latches := x } :=
  { Keeps.refl 0 s with
    sameLatches := fun h => absurd h (by decide) }
theorem Keeps.putPace (s : State) (x : Pace) : Keeps Part.pace s { s with pace := x } :=
  { Keeps.refl 0 s with
    samePace := fun h => absurd h (by decide) }
theorem Keeps.putScribe (s : State) (x : Scribe) : Keeps Part.queues s { s with scribe := x } :=
  { Keeps.refl 0 s with
    sameScribe := fun h => absurd h (by decide)
    sameFns := fun h => absurd h (by decide) }
theorem Keeps.putFns (s : State) (x : List (Nat × Fn)) : Keeps Part.queues s { s with fns := x } :=
  { Keeps.refl 0 s with
    sameScribe := fun h => absurd h (by decide)
    sameFns := fun h => absurd h (by decide) }
theorem Keeps.putScheds (s : State) (x : List Schedule) : Keeps Part.jobs s { s with scheds := x } :=
  { Keeps.refl 0 s with
    sameScheds := fun h => absurd h (by decide)
    sameJobs := fun h => absurd h (by decide) }
theorem Keeps.putJobs (s : State) (x : List Job) : Keeps Part.jobs s { s with jobs := x } :=
  { Keeps.refl 0 s with
    sameScheds := fun h => absurd h (by decide)
    sameJobs := fun h => absurd h (by decide) }
theorem Keeps.putClusters (s : State) (x : List (Nat × Cluster)) : Keeps Part.clusters s { s with clusters := x } :=
  { Keeps.refl 0 s with
    sameClusters := fun h => absurd h (by decide)
    sameRunners := fun h => absurd h (by decide)
    sameWritten := fun h => absurd h (by decide) }
theorem Keeps.putRunners (s : State) (x : List (Nat × Runner)) : Keeps Part.clusters s { s with runners := x } :=
  { Keeps.refl 0 s with
    sameClusters := fun h => absurd h (by decide)
    sameRunners := fun h => absurd h (by decide)
    sameWritten := fun h => absurd h (by decide) }
theorem Keeps.putAbase (s : State) (x : List (Nat × Nat)) : Keeps Part.bases s { s with abase := x } :=
  { Keeps.refl 0 s with
    sameAbase := fun h => absurd h (by decide)
    sameAbtag := fun h => absurd h (by decide) }
theorem Keeps.putAbtag (s : State) (x : List (Nat × Bool)) : Keeps Part.bases s { s with abtag := x } :=
  { Keeps.refl 0 s with
    sameAbase := fun h => absurd h (by decide)
    sameAbtag := fun h => absurd h (by decide) }
theorem Keeps.putMcores (s : State) (x : List (Nat × MCore)) : Keeps Part.mcores s { s with mcores := x } :=
  { Keeps.refl 0 s with
    sameMcores := fun h => absurd h (by decide) }
theorem Keeps.putVruns (s : State) (x : List (Nat × VRun)) : Keeps Part.vcores s { s with vruns := x } :=
  { Keeps.refl 0 s with
    sameVruns := fun h => absurd h (by decide) }
theorem Keeps.putSruns (s : State) (x : List (Nat × SRun)) : Keeps Part.scores s { s with sruns := x } :=
  { Keeps.refl 0 s with
    sameSruns := fun h => absurd h (by decide) }
theorem Keeps.putXfers (s : State) (x : List Xfer) : Keeps Part.xfers s { s with xfers := x } :=
  { Keeps.refl 0 s with
    sameXfers := fun h => absurd h (by decide) }
theorem Keeps.putWritten (s : State) (x : List (Nat × List Nat)) : Keeps Part.clusters s { s with written := x } :=
  { Keeps.refl 0 s with
    sameClusters := fun h => absurd h (by decide)
    sameRunners := fun h => absurd h (by decide)
    sameWritten := fun h => absurd h (by decide) }
theorem Keeps.putNmus (s : State) (x : List (Nat × Nmu)) : Keeps Part.nmus s { s with nmus := x } :=
  { Keeps.refl 0 s with
    sameNmus := fun h => absurd h (by decide) }
theorem Keeps.putAtts (s : State) (x : List (Nat × Attention)) : Keeps Part.atts s { s with atts := x } :=
  { Keeps.refl 0 s with
    sameAtts := fun h => absurd h (by decide) }
theorem Keeps.putHurdles (s : State) (x : List (Nat × Hurdle)) : Keeps Part.hurdles s { s with hurdles := x } :=
  { Keeps.refl 0 s with
    sameHurdles := fun h => absurd h (by decide)
    sameHwaits := fun h => absurd h (by decide) }
theorem Keeps.putHwaits (s : State) (x : List HurdleWait) : Keeps Part.hurdles s { s with hwaits := x } :=
  { Keeps.refl 0 s with
    sameHurdles := fun h => absurd h (by decide)
    sameHwaits := fun h => absurd h (by decide) }
theorem Keeps.putTowers (s : State) (x : List (Nat × Tower)) : Keeps Part.towers s { s with towers := x } :=
  { Keeps.refl 0 s with
    sameTowers := fun h => absurd h (by decide) }
theorem Keeps.putStk (s : State) (x : List (Nat × Stack)) : Keeps Part.stacks s { s with stk := x } :=
  { Keeps.refl 0 s with
    sameStk := fun h => absurd h (by decide)
    sameRegions := fun h => absurd h (by decide)
    sameFarReady := fun h => absurd h (by decide) }
theorem Keeps.putRegions (s : State) (x : List (Nat × Region)) : Keeps Part.stacks s { s with regions := x } :=
  { Keeps.refl 0 s with
    sameStk := fun h => absurd h (by decide)
    sameRegions := fun h => absurd h (by decide)
    sameFarReady := fun h => absurd h (by decide) }
theorem Keeps.putFarReady (s : State) (x : List (Nat × Bool)) : Keeps Part.stacks s { s with farReady := x } :=
  { Keeps.refl 0 s with
    sameStk := fun h => absurd h (by decide)
    sameRegions := fun h => absurd h (by decide)
    sameFarReady := fun h => absurd h (by decide) }
theorem Keeps.putReports (s : State) (x : List Report) : Keeps Part.records s { s with reports := x } :=
  { Keeps.refl 0 s with
    sameReports := fun h => absurd h (by decide)
    sameRecs := fun h => absurd h (by decide) }
theorem Keeps.putRecs (s : State) (x : List FaultRec) : Keeps Part.records s { s with recs := x } :=
  { Keeps.refl 0 s with
    sameReports := fun h => absurd h (by decide)
    sameRecs := fun h => absurd h (by decide) }
theorem Keeps.putHub (s : State) (x : Hub) : Keeps Part.hub s { s with hub := x } :=
  { Keeps.refl 0 s with
    sameHub := fun h => absurd h (by decide) }
theorem Keeps.putPorts (s : State) (x : List (Nat × Port)) : Keeps Part.links s { s with ports := x } :=
  { Keeps.refl 0 s with
    samePorts := fun h => absurd h (by decide)
    sameLinks := fun h => absurd h (by decide) }
theorem Keeps.putLinks (s : State) (x : Links) : Keeps Part.links s { s with links := x } :=
  { Keeps.refl 0 s with
    samePorts := fun h => absurd h (by decide)
    sameLinks := fun h => absurd h (by decide) }
theorem Keeps.putColl (s : State) (x : Coll) : Keeps Part.coll s { s with coll := x } :=
  { Keeps.refl 0 s with
    sameColl := fun h => absurd h (by decide) }
theorem Keeps.putSup (s : State) (x : Supervisor) : Keeps Part.sup s { s with sup := x } :=
  { Keeps.refl 0 s with
    sameSup := fun h => absurd h (by decide)
    samePins := fun h => absurd h (by decide) }
theorem Keeps.putPins (s : State) (x : Pins) : Keeps Part.sup s { s with pins := x } :=
  { Keeps.refl 0 s with
    sameSup := fun h => absurd h (by decide)
    samePins := fun h => absurd h (by decide) }
theorem Keeps.putDbg (s : State) (x : Debug) : Keeps Part.dbg s { s with dbg := x } :=
  { Keeps.refl 0 s with
    sameDbg := fun h => absurd h (by decide) }

/-- An update of several fields. -/
theorem Keeps.rest (m : Nat) (s : State)
    (latches' : List (Nat × Word)) (pace' : Pace) (scribe' : Scribe) (fns' : List (Nat × Fn)) (scheds' : List Schedule) (jobs' : List
    Job) (clusters' : List (Nat × Cluster)) (runners' : List (Nat × Runner)) (abase' : List (Nat × Nat)) (abtag' : List (Nat × Bool))
    (mcores' : List (Nat × MCore)) (vruns' : List (Nat × VRun)) (sruns' : List (Nat × SRun)) (xfers' : List Xfer) (written' : List (Nat × List Nat)) (nmus' : List (Nat × Nmu)) (atts' : List (Nat × Attention)) (hurdles' : List (Nat × Hurdle)) (hwaits' : List
    HurdleWait) (towers' : List (Nat × Tower)) (stk' : List (Nat × Stack)) (regions' : List (Nat × Region)) (farReady' : List (Nat ×
    Bool)) (reports' : List Report) (recs' : List FaultRec) (hub' : Hub) (ports' : List (Nat × Port)) (links' : Links) (coll' : Coll)
    (sup' : Supervisor) (pins' : Pins) (dbg' : Debug)
    (eLatches : m.testBit 1 = true ∨ latches' = s.latches) (ePace : m.testBit 8 = true ∨ pace' = s.pace) (eScribe : m.testBit 9 = true
    ∨ scribe' = s.scribe) (eFns : m.testBit 9 = true ∨ fns' = s.fns) (eScheds : m.testBit 10 = true ∨ scheds' = s.scheds) (eJobs :
    m.testBit 10 = true ∨ jobs' = s.jobs) (eClusters : m.testBit 11 = true ∨ clusters' = s.clusters) (eRunners : m.testBit 11 = true ∨
    runners' = s.runners) (eAbase : m.testBit 12 = true ∨ abase' = s.abase) (eAbtag : m.testBit 12 = true ∨ abtag' = s.abtag) (eMcores
    : m.testBit 13 = true ∨ mcores' = s.mcores) (eVruns : m.testBit 14 = true ∨ vruns' = s.vruns) (eSruns : m.testBit 15 = true ∨
    sruns' = s.sruns) (eXfers : m.testBit 16 = true ∨ xfers' = s.xfers) (eWritten : m.testBit 11 = true ∨ written' = s.written) (eNmus
    : m.testBit 17 = true ∨ nmus' = s.nmus) (eAtts : m.testBit 18 = true ∨ atts' = s.atts) (eHurdles : m.testBit 19 = true ∨ hurdles'
    = s.hurdles) (eHwaits : m.testBit 19 = true ∨ hwaits' = s.hwaits) (eTowers : m.testBit 20 = true ∨ towers' = s.towers) (eStk :
    m.testBit 21 = true ∨ stk' = s.stk) (eRegions : m.testBit 21 = true ∨ regions' = s.regions) (eFarReady : m.testBit 21 = true ∨
    farReady' = s.farReady) (eReports : m.testBit 7 = true ∨ reports' = s.reports) (eRecs : m.testBit 7 = true ∨ recs' = s.recs) (eHub
    : m.testBit 22 = true ∨ hub' = s.hub) (ePorts : m.testBit 23 = true ∨ ports' = s.ports) (eLinks : m.testBit 23 = true ∨ links' =
    s.links) (eColl : m.testBit 24 = true ∨ coll' = s.coll) (eSup : m.testBit 25 = true ∨ sup' = s.sup) (ePins : m.testBit 25 = true ∨
    pins' = s.pins) (eDbg : m.testBit 27 = true ∨ dbg' = s.dbg) :
    Keeps m s
      { pending := s.pending, now := s.now, regs := s.regs, latches := latches', mem := s.mem, blots := s.blots, uncorr := s.uncorr, host
        := s.host, pace := pace', scribe := scribe', fns := fns', scheds := scheds', jobs := jobs', clusters := clusters', runners :=
        runners', abase := abase', abtag := abtag', mcores := mcores', vruns := vruns', sruns := sruns', xfers := xfers', written :=
        written', nmus := nmus', atts := atts', hurdles := hurdles', hwaits := hwaits', towers := towers', stk := stk', regions :=
        regions', farReady := farReady', reports := reports', recs := recs', hub := hub', ports := ports', links := links', coll := coll',
        sup := sup', pins := pins', sec := s.sec, dbg := dbg', out := s.out, frees := s.frees } :=
  { Keeps.refl m s with
    sameLatches := fun h => eLatches.resolve_left (by rw [h]; decide)
    samePace := fun h => ePace.resolve_left (by rw [h]; decide)
    sameScribe := fun h => eScribe.resolve_left (by rw [h]; decide)
    sameFns := fun h => eFns.resolve_left (by rw [h]; decide)
    sameScheds := fun h => eScheds.resolve_left (by rw [h]; decide)
    sameJobs := fun h => eJobs.resolve_left (by rw [h]; decide)
    sameClusters := fun h => eClusters.resolve_left (by rw [h]; decide)
    sameRunners := fun h => eRunners.resolve_left (by rw [h]; decide)
    sameAbase := fun h => eAbase.resolve_left (by rw [h]; decide)
    sameAbtag := fun h => eAbtag.resolve_left (by rw [h]; decide)
    sameMcores := fun h => eMcores.resolve_left (by rw [h]; decide)
    sameVruns := fun h => eVruns.resolve_left (by rw [h]; decide)
    sameSruns := fun h => eSruns.resolve_left (by rw [h]; decide)
    sameXfers := fun h => eXfers.resolve_left (by rw [h]; decide)
    sameWritten := fun h => eWritten.resolve_left (by rw [h]; decide)
    sameNmus := fun h => eNmus.resolve_left (by rw [h]; decide)
    sameAtts := fun h => eAtts.resolve_left (by rw [h]; decide)
    sameHurdles := fun h => eHurdles.resolve_left (by rw [h]; decide)
    sameHwaits := fun h => eHwaits.resolve_left (by rw [h]; decide)
    sameTowers := fun h => eTowers.resolve_left (by rw [h]; decide)
    sameStk := fun h => eStk.resolve_left (by rw [h]; decide)
    sameRegions := fun h => eRegions.resolve_left (by rw [h]; decide)
    sameFarReady := fun h => eFarReady.resolve_left (by rw [h]; decide)
    sameReports := fun h => eReports.resolve_left (by rw [h]; decide)
    sameRecs := fun h => eRecs.resolve_left (by rw [h]; decide)
    sameHub := fun h => eHub.resolve_left (by rw [h]; decide)
    samePorts := fun h => ePorts.resolve_left (by rw [h]; decide)
    sameLinks := fun h => eLinks.resolve_left (by rw [h]; decide)
    sameColl := fun h => eColl.resolve_left (by rw [h]; decide)
    sameSup := fun h => eSup.resolve_left (by rw [h]; decide)
    samePins := fun h => ePins.resolve_left (by rw [h]; decide)
    sameDbg := fun h => eDbg.resolve_left (by rw [h]; decide) }

/-- Time that moves on. -/
theorem Keeps.later (s : State) (t : Nat) : Keeps Part.time s { s with now := max s.now t } :=
  { Keeps.refl 0 s with now := Nat.le_max_left _ _, sameNow := fun h => absurd h (by decide) }
theorem Keeps.after (s : State) (t : Nat) : Keeps Part.time s { s with now := s.now + t } :=
  { Keeps.refl 0 s with now := Nat.le_add_right _ _, sameNow := fun h => absurd h (by decide) }

/-! ### Outcomes and values that may be absent -/

/-- A state taken from a value that may be absent keeps it. -/
def KeepsOpt {α : Type} (m : Nat) (π : α → State) (s : State) (o : Option α) : Prop := ∀ r, o = some r → Keeps m s (π r)
/-- An outcome that may be absent keeps it. -/
def KeepsOptOut (m : Nat) (s : State) (o : Option Out) : Prop := ∀ r, o = some r → KeepsOut m s r

variable {n m : Nat} {a b c s t : State} {α β γ : Type} {π : α → State}

theorem Keeps.viaH (g : Keeps m b c) (h : Keeps m a b) : Keeps m a c := h.trans g
/-- Parts that are named. -/
theorem Part.named (h : n ||| m = m) : n ||| m = m := h
/-- Parts of parts. -/
theorem Part.sub {k : Nat} (h : n ||| m = m) (g : k ||| n = n) : k ||| m = m := by
  rw [← h, ← Nat.or_assoc, g]
theorem Keeps.next (h : Keeps m s t) : KeepsOut m s (.next t) := ⟨t, rfl, h⟩
theorem KeepsOut.mono {o : Out} (g : KeepsOut n s o) (e : n ||| m = m) : KeepsOut m s o := by
  obtain ⟨t, rfl, g⟩ := g
  exact ⟨t, rfl, g.mono e⟩
theorem KeepsOut.via {o : Out} (g : KeepsOut n b o) (e : n ||| m = m) (h : Keeps m a b) : KeepsOut m a o := by
  obtain ⟨t, rfl, g⟩ := g
  exact ⟨t, rfl, h.trans (g.mono e)⟩
theorem KeepsOut.viaH {o : Out} (g : KeepsOut m b o) (h : Keeps m a b) : KeepsOut m a o := by
  obtain ⟨t, rfl, g⟩ := g
  exact ⟨t, rfl, h.trans g⟩
theorem KeepsOut.ite {c : Prop} [Decidable c] {x y : Out} (hx : KeepsOut m s x) (hy : KeepsOut m s y) :
    KeepsOut m s (if c then x else y) := by split <;> assumption

theorem Keeps.elim {o : Option α} {d : State} {f : α → State} (hd : Keeps m s d) (hf : ∀ x, Keeps m s (f x)) : Keeps m s (o.elim d f) := by
  cases o <;> [exact hd; exact hf _]

theorem KeepsOpt.none : KeepsOpt m π s none := by intro r h; cases h
theorem KeepsOpt.some {x : α} (h : Keeps m s (π x)) : KeepsOpt m π s (some x) := by
  intro r e; cases e; exact h
theorem KeepsOpt.via {o : Option α} (g : KeepsOpt n π b o) (e : n ||| m = m) (h : Keeps m a b) : KeepsOpt m π a o :=
  fun r x => h.trans ((g r x).mono e)
theorem KeepsOpt.viaH {o : Option α} (g : KeepsOpt m π b o) (h : Keeps m a b) : KeepsOpt m π a o := fun r x => h.trans (g r x)
theorem KeepsOpt.getH {o : Option α} {r : α} (g : KeepsOpt m π b o) (x : o = Option.some r) (h : Keeps m a b) :
    Keeps m a (π r) := h.trans (g r x)
theorem KeepsOpt.get {o : Option α} {r : α} (g : KeepsOpt n π b o) (x : o = Option.some r) (e : n ||| m = m) (h : Keeps m a b) :
    Keeps m a (π r) := h.trans ((g r x).mono e)
theorem KeepsOpt.ite {c : Prop} [Decidable c] {x y : Option α} (hx : KeepsOpt m π s x) (hy : KeepsOpt m π s y) :
    KeepsOpt m π s (if c then x else y) := by split <;> assumption
theorem KeepsOpt.mapAny {f : β → α} {o : Option β} (h : ∀ x, Keeps m s (π (f x))) : KeepsOpt m π s (o.map f) := by
  cases o with
  | none => exact KeepsOpt.none
  | some x => exact KeepsOpt.some (h x)
/-- The state that a value which may be absent gives, or another. -/
theorem KeepsOpt.getD {o : Option α} (g : KeepsOpt n π b o) (e : n ||| m = m) (h : Keeps m a b) : Keeps m a ((o.map π).getD b) := by
  cases o with
  | none => exact h
  | some x => exact h.trans ((g x rfl).mono e)
theorem KeepsOpt.mapVia {ρ : β → State} {f : β → α} {o : Option β} (g : KeepsOpt n ρ b o) (e : n ||| m = m)
    (h : Keeps m a b) (hf : ∀ x, Keeps m (ρ x) (π (f x))) : KeepsOpt m π a (o.map f) := by
  cases o with
  | none => exact KeepsOpt.none
  | some x => exact KeepsOpt.some ((h.trans ((g x rfl).mono e)).trans (hf x))
theorem KeepsOpt.bind {f : β → Option α} {o : Option β} (h : ∀ x, o = Option.some x → KeepsOpt m π s (f x)) :
    KeepsOpt m π s (o.bind f) := by
  cases o with
  | none => exact KeepsOpt.none
  | some x => exact h x rfl

theorem KeepsOptOut.none : KeepsOptOut m s none := by intro r h; cases h
theorem KeepsOptOut.some {x : Out} (h : KeepsOut m s x) : KeepsOptOut m s (some x) := by intro r e; cases e; exact h
theorem KeepsOptOut.ite {c : Prop} [Decidable c] {x y : Option Out} (hx : KeepsOptOut m s x) (hy : KeepsOptOut m s y) :
    KeepsOptOut m s (if c then x else y) := by split <;> assumption
theorem KeepsOptOut.via {o : Option Out} (g : KeepsOptOut n b o) (e : n ||| m = m) (h : Keeps m a b) : KeepsOptOut m a o :=
  fun r x => KeepsOut.via (g r x) e h
theorem KeepsOut.get {o : Option Out} {r : Out} (g : KeepsOptOut n b o) (x : o = Option.some r) (e : n ||| m = m) (h : Keeps m a b) :
    KeepsOut m a r := KeepsOut.via (g r x) e h

/-! ### States taken from pairs and triples -/

theorem KeepsOpt.get1 {o : Option (State × β)} {x : β} (g : KeepsOpt n (fun r => r.1) b o)
    (y : o = Option.some (t, x)) (e : n ||| m = m) (h : Keeps m c b) : Keeps m c t := h.trans ((g _ y).mono e)
theorem KeepsOpt.get2 {o : Option (β × State)} {x : β} (g : KeepsOpt n (fun r => r.2) b o)
    (y : o = Option.some (x, t)) (e : n ||| m = m) (h : Keeps m c b) : Keeps m c t := h.trans ((g _ y).mono e)
theorem KeepsOpt.get3 {o : Option (β × γ × State)} {x : β} {z : γ} (g : KeepsOpt n (fun r => r.2.2) b o)
    (y : o = Option.some (x, z, t)) (e : n ||| m = m) (h : Keeps m c b) : Keeps m c t := h.trans ((g _ y).mono e)
theorem KeepsOpt.getW {o : Option (Wrote × β)} {w : Wrote} {x : β} (g : KeepsOpt n (fun r => r.1.s) b o)
    (y : o = Option.some (w, x)) (e : n ||| m = m) (h : Keeps m c b) : Keeps m c w.s := h.trans ((g _ y).mono e)
theorem keepsEq (π : α → State) {p r : α} (g : Keeps n s (π p)) (x : p = r) (e : n ||| m = m) (h : Keeps m a s) : Keeps m a (π r) :=
  h.trans (x ▸ g.mono e)
theorem keepsEq1 {p : State × β} {x : β} (g : Keeps n b p.1) (y : p = (t, x)) (e : n ||| m = m) (h : Keeps m c b) : Keeps m c t := by
  subst y; exact h.trans (g.mono e)
theorem keepsEq2 {p : β × State} {x : β} (g : Keeps n b p.2) (y : p = (x, t)) (e : n ||| m = m) (h : Keeps m c b) : Keeps m c t := by
  subst y; exact h.trans (g.mono e)
theorem keepsEq3 {p : β × γ × State} {x : β} {z : γ} (g : Keeps n b p.2.2) (y : p = (x, z, t)) (e : n ||| m = m) (h : Keeps m c b) :
    Keeps m c t := by
  subst y; exact h.trans (g.mono e)
theorem keepsEqW {p : β × γ × Wrote} {x : β} {z : γ} {w : Wrote} (g : Keeps n b p.2.2.s) (y : p = (x, z, w)) (e : n ||| m = m)
    (h : Keeps m c b) : Keeps m c w.s := by
  subst y; exact h.trans (g.mono e)

/-- A named intermediate state. -/
theorem keepsLet {x : State} (h : Keeps m s x) (g : Keeps m s x → Keeps m s t) : Keeps m s t := g h
theorem keepsLetO {x : State} {o : Out} (h : Keeps m s x) (g : Keeps m s x → KeepsOut m s o) : KeepsOut m s o := g h
theorem keepsLetP {x : State} {o : Option α} (h : Keeps m s x) (g : Keeps m s x → KeepsOpt m π s o) : KeepsOpt m π s o := g h

/-! ### Choices and repetitions -/

theorem Keeps.ite {d : Prop} [Decidable d] (ha : Keeps m s a) (hb : Keeps m s b) : Keeps m s (if d then a else b) := by
  split <;> assumption

/-- A fold, by what each of its steps keeps of the state that a projection takes from its value. -/
theorem Keeps.foldlBy {σ : Type} (π : σ → State) {f : σ → α → σ} (h : ∀ x e, Keeps m (π x) (π (f x e))) (l : List α) (x : σ) :
    Keeps m (π x) (π (l.foldl f x)) := by
  induction l generalizing x with
  | nil => exact Keeps.refl _ _
  | cons e l ih => exact (h x e).trans (ih _)
theorem Keeps.foldl_via {f : State → α → State} {l : List α} (h : ∀ s e, Keeps m s (f s e)) (g : Keeps m a s) :
    Keeps m a (l.foldl f s) := g.trans (Keeps.foldlBy id h l s)
theorem Keeps.foldl1_via {f : State × β → α → State × β} {l : List α} {x : State × β}
    (h : ∀ x e, Keeps m x.1 (f x e).1) (g : Keeps m a x.1) : Keeps m a (l.foldl f x).1 := g.trans (Keeps.foldlBy Prod.fst h l x)
theorem Keeps.foldl2_via {f : β × State → α → β × State} {l : List α} {x : β × State}
    (h : ∀ x e, Keeps m x.2 (f x e).2) (g : Keeps m a x.2) : Keeps m a (l.foldl f x).2 := g.trans (Keeps.foldlBy Prod.snd h l x)
theorem Keeps.foldl3_via {f : β × γ × State → α → β × γ × State} {l : List α} {x : β × γ × State}
    (h : ∀ x e, Keeps m x.2.2 (f x e).2.2) (g : Keeps m a x.2.2) : Keeps m a (l.foldl f x).2.2 :=
  g.trans (Keeps.foldlBy (fun y => y.2.2) h l x)
theorem Keeps.foldlW_via {f : Wrote → α → Wrote} {l : List α} {w : Wrote} (h : ∀ w e, Keeps m w.s (f w e).s) (g : Keeps m a w.s) :
    Keeps m a (l.foldl f w).s := g.trans (Keeps.foldlBy Wrote.s h l w)
theorem Keeps.foldlW1_via {f : Wrote × β → α → Wrote × β} {l : List α} {w : Wrote × β}
    (h : ∀ w e, Keeps m w.1.s (f w e).1.s) (g : Keeps m a w.1.s) : Keeps m a (l.foldl f w).1.s :=
  g.trans (Keeps.foldlBy (fun y => y.1.s) h l w)
theorem Keeps.iter_via {f : Nat → State → State} {k : Nat} (h : ∀ n s, Keeps m s (f n s)) (g : Keeps m a s) :
    Keeps m a (iter k f s) := by
  induction k with
  | zero => exact g
  | succ n ih => exact ih.trans (h n _)

/-- The canonical form is kept. -/
theorem Keeps.canonical (h : Keeps m s t) (c : s.canonical = true) : t.canonical = true := by
  simp only [State.canonical, Memory.wf, Bool.and_eq_true] at *
  obtain ⟨⟨⟨⟨a, b⟩, c⟩, d⟩, e⟩ := c
  exact ⟨⟨⟨⟨h.mem a, h.host b⟩, h.blots c⟩, h.uncorr d⟩, h.regs e⟩

/-! ### Operations that write the fields that `Keeps` names -/

theorem kvWf_foldl [DecidableEq α] (d : Nat → α) (f : List (Nat × α) → β → List (Nat × α))
    (h : ∀ m e, kvWf d m = true → kvWf d (f m e) = true) (l : List β) (m : List (Nat × α)) (hm : kvWf d m = true) :
    kvWf d (l.foldl f m) = true := by
  induction l generalizing m with
  | nil => exact hm
  | cons e l ih => exact ih _ (h m e hm)

theorem setReg_keeps (o : Nat) (v : Word) (s : State) : Keeps Part.regs s (setReg o v s) :=
  { Keeps.refl 0 s with regs := fun h => kvWf_kvPut _ _ h, sameRegs := fun h => absurd h (by decide) }
theorem setF_keeps (o lo w v : Nat) (s : State) : Keeps Part.regs s (setF o lo w v s) := setReg_keeps _ _ _
theorem setB_keeps (o lo : Nat) (b : Bool) (s : State) : Keeps Part.regs s (setB o lo b s) := setReg_keeps _ _ _
theorem addReg_keeps (o n : Nat) (s : State) : Keeps Part.regs s (addReg o n s) := setReg_keeps _ _ _
theorem zeroRegs_keeps (l : List Nat) (s : State) : Keeps Part.regs s (zeroRegs l s) :=
  Keeps.foldl_via (fun _ _ => setReg_keeps _ _ _) (Keeps.refl _ s)
theorem setReg64_keeps (o v : Nat) (s : State) : Keeps Part.regs s (setReg64 o v s) := (setReg_keeps _ _ _).trans (setReg_keeps _ _ _)
theorem resetRegs_keeps (p : Nat → Bool) (s : State) : Keeps Part.regs s (resetRegs p s) :=
  { Keeps.refl 0 s with regs := fun h => kvWf_kvKeep (fun o => !p o) h, sameRegs := fun h => absurd h (by decide) }
theorem modSec_keeps (g : Security → Security) (s : State) (h : (g s.sec).fusedSvn = s.sec.fusedSvn) (h' : (g s.sec).owners = s.sec.owners) :
    Keeps Part.sec s (modSec g s) :=
  { Keeps.refl 0 s with
    svn := h.ge
    owners := by simp only [modSec, h', List.prefix_rfl]
    slots := fun x => by simpa only [modSec, h'] using x
    sameSec := fun h => absurd h (by decide) }
theorem emit_keeps (o : Output) (s : State) : Keeps Part.log s (emit o s) :=
  { Keeps.refl 0 s with out := List.prefix_append _ _, sameOut := fun h => absurd h (by decide) }
theorem bumpFree_keeps (s : State) : Keeps Part.frees s (bumpFree s) :=
  { Keeps.refl 0 s with frees := Nat.le_succ _, sameFrees := fun h => absurd h (by decide) }

/-- A change of device memory that keeps its canonical form. -/
theorem Keeps.stores (s : State) (x : List Host.Cell) (b u : List (Nat × Bool))
    (hm : kvWf (fun _ => 0#8) s.mem = true → kvWf (fun _ => 0#8) x = true)
    (hb : kvWf (fun _ => false) s.blots = true → kvWf (fun _ => false) b = true)
    (hu : kvWf (fun _ => false) s.uncorr = true → kvWf (fun _ => false) u = true) :
    Keeps Part.memory s { s with mem := x, blots := b, uncorr := u } :=
  { Keeps.refl 0 s with
    mem := hm, blots := hb, uncorr := hu
    sameMem := fun h => absurd h (by decide)
    sameBlots := fun h => absurd h (by decide)
    sameUncorr := fun h => absurd h (by decide) }
theorem markBlot_keeps (d : Nat) (s : State) : Keeps Part.memory s (markBlot d s) :=
  Keeps.stores s s.mem _ s.uncorr id (kvWf_kvPut (d / 64) true) id
theorem markBad_keeps (d : Nat) (s : State) : Keeps Part.memory s (markBad d s) :=
  Keeps.stores s s.mem s.blots _ id id (kvWf_kvPut (d / 64) true)
/-- Storing bytes keeps the canonical form of a memory. -/
theorem kvWf_putMem (l : List Byte) (d : Nat) (m : List Host.Cell) (h : kvWf (fun _ => 0#8) m = true) :
    kvWf (fun _ => 0#8) (putMem d l m) = true := by
  induction l generalizing d m with
  | nil => exact h
  | cons b l ih => exact ih _ _ (kvWf_kvPut _ _ h)
theorem kvWf_putGran (l : List (Option Byte)) (d : Nat) (m : List Host.Cell) (h : kvWf (fun _ => 0#8) m = true) :
    kvWf (fun _ => 0#8) (putGran d l m) = true := by
  induction l generalizing d m with
  | nil => exact h
  | cons b l ih =>
    cases b with
    | none => exact ih _ _ h
    | some b => exact ih _ _ (kvWf_kvPut _ _ h)
theorem hostWrite_keeps (b : Bool) (a : Nat) (l : List Byte) (s : State) : Keeps (Part.host ||| Part.log) s (hostWrite b a l s) :=
  { Keeps.refl 0 s with
    out := ⟨_, rfl⟩, sameOut := fun h => absurd h (by decide)
    host := fun h => kvWf_putMem _ _ _ h, sameHost := fun h => absurd h (by decide) }
theorem zeroRange_keeps (lo len : Nat) (s : State) : Keeps Part.memory s (zeroRange lo len s) :=
  Keeps.stores s _ _ _ (kvWf_kvClear _ _) (kvWf_kvClear _ _) (kvWf_kvClear _ _)
theorem kvWf_puts {β : Type} (k : β → Nat) (b : Bool) (l : List β) (m : List (Nat × Bool)) (h : kvWf (fun _ => false) m = true) :
    kvWf (fun _ => false) (l.foldl (fun m e => kvPut (fun _ => false) m (k e) b) m) = true :=
  kvWf_foldl _ _ (fun _ _ h => kvWf_kvPut _ _ h) _ _ h
/-- A page whose granules are zeroed and blotted. -/
theorem Keeps.blankPage (s : State) (g : Nat) : Keeps Part.memory s { s with
      mem := kvClear s.mem g (g + 2048)
      blots := (List.range 32).foldl (fun b i => kvPut (fun _ => false) b (g / 64 + i) true) s.blots } :=
  Keeps.stores s _ _ _ (kvWf_kvClear g (g + 2048)) (kvWf_puts (fun i => g / 64 + i) true (List.range 32) s.blots) id
theorem healPage_keeps (d : Nat) (s : State) : Keeps (Part.memory ||| Part.stacks) s (healPage d s) := by
  unfold healPage
  refine Keeps.ite ?_ (Keeps.refl _ s)
  extract_lets g s1
  have h1 : Keeps (Part.memory ||| Part.stacks) s s1 := (Keeps.blankPage s g).mono (by decide)
  clear_value s1
  split
  · exact h1.trans ((Keeps.putStk _ _).mono (by decide))
  · exact h1
theorem storeGran_keeps (d : Nat) (bytes : List (Option Byte)) (blot : Bool) (s : State) :
    Keeps (Part.memory ||| Part.stacks) s (storeGran d bytes blot s) := by
  unfold storeGran
  extract_lets t g whole bad b
  refine Keeps.trans (b := t) (healPage_keeps d s) (Keeps.mono ?_ (n := Part.memory) (by decide))
  exact Keeps.stores t _ _ _ (kvWf_putGran _ g t.mem) (kvWf_kvPut (g / 64) b) (kvWf_kvPut (g / 64) false)

end Sys2Proof.Machine
end

