-- ==== Sys2Proof/Laws/KeepOps.lean ====
section
/-!
SUPPORT. What each operation and meaning of Machine/Ops.lean keeps (Laws/Keep.lean).
-/
namespace Sys2Proof.Machine

theorem modFn_keeps (f : Nat) (g : Fn → Fn) (s : State) : Keeps Part.queues s (modFn f g s) := by
  unfold modFn
  repeat' with_reducible first
      | apply Keeps.refl | assumption | (apply Part.named; decide)
      | fail_if_no_progress (apply Keeps.via (Keeps.putFns _ _))

theorem modCluster_keeps (c : Nat) (g : Cluster → Cluster) (s : State) : Keeps Part.clusters s (modCluster c g s) := by
  unfold modCluster
  repeat' with_reducible first
      | apply Keeps.refl | assumption | (apply Part.named; decide)
      | fail_if_no_progress (apply Keeps.via (Keeps.putClusters _ _))

theorem modRunner_keeps (k : Nat) (g : Runner → Runner) (s : State) : Keeps Part.clusters s (modRunner k g s) := by
  unfold modRunner
  repeat' with_reducible first
      | apply Keeps.refl | assumption | (apply Part.named; decide)
      | fail_if_no_progress (apply Keeps.via (Keeps.putRunners _ _))

theorem putHurdle_keeps (n : Nat) (h : Hurdle) (s : State) : Keeps Part.hurdles s (putHurdle n h s) := by
  unfold putHurdle
  repeat' with_reducible first
      | apply Keeps.refl | assumption | (apply Part.named; decide)
      | fail_if_no_progress (apply Keeps.via (Keeps.putHurdles _ _))

theorem modTower_keeps (t : Nat) (g : Tower → Tower) (s : State) : Keeps Part.towers s (modTower t g s) := by
  unfold modTower
  repeat' with_reducible first
      | apply Keeps.refl | assumption | (apply Part.named; decide)
      | fail_if_no_progress (apply Keeps.via (Keeps.putTowers _ _))

theorem modStack_keeps (m : Nat) (g : Stack → Stack) (s : State) : Keeps Part.stacks s (modStack m g s) := by
  unfold modStack
  repeat' with_reducible first
      | apply Keeps.refl | assumption | (apply Part.named; decide)
      | fail_if_no_progress (apply Keeps.via (Keeps.putStk _ _))

theorem putRegion_keeps (r : Nat) (g : Region) (s : State) : Keeps Part.stacks s (putRegion r g s) := by
  unfold putRegion
  repeat' with_reducible first
      | apply Keeps.refl | assumption | (apply Part.named; decide)
      | fail_if_no_progress (apply Keeps.via (Keeps.putRegions _ _))

theorem modHub_keeps (g : Hub → Hub) (s : State) : Keeps Part.hub s (modHub g s) := by
  unfold modHub
  repeat' with_reducible first
      | apply Keeps.refl | assumption | (apply Part.named; decide)
      | fail_if_no_progress (apply Keeps.via (Keeps.putHub _ _))

theorem modScribe_keeps (g : Scribe → Scribe) (s : State) : Keeps Part.queues s (modScribe g s) := by
  unfold modScribe
  repeat' with_reducible first
      | apply Keeps.refl | assumption | (apply Part.named; decide)
      | fail_if_no_progress (apply Keeps.via (Keeps.putScribe _ _))

theorem modPace_keeps (g : Pace → Pace) (s : State) : Keeps Part.pace s (modPace g s) := by
  unfold modPace
  repeat' with_reducible first
      | apply Keeps.refl | assumption | (apply Part.named; decide)
      | fail_if_no_progress (apply Keeps.via (Keeps.putPace _ _))

theorem signal_keeps (f v : Nat) (s : State) : Keeps (Part.regs ||| Part.log) s (signal f v s) := by
  unfold signal
  repeat' with_reducible first
      | apply Keeps.refl | assumption | (apply Part.named; decide)
      | apply Keeps.via (setB_keeps _ _ _ _)
      | apply Keeps.via (emit_keeps _ _)
      | apply Keeps.ite

theorem report_keeps (cls org fn detail : Nat) (s : State) : Keeps Part.records s (report cls org fn detail s) := by
  unfold report
  repeat' with_reducible first
      | apply Keeps.refl | assumption | (apply Part.named; decide)
      | (extract_lets +onlyGivenNames x; first | (refine keepsLet (x := x) ?_ ?_; (on_goal 2 => (clear_value x; intro _)); (on_goal 1 => (unfold x; clear x))) | skip)
      | fail_if_no_progress (apply Keeps.via (Keeps.putReports _ _))

theorem countViolation_keeps (k : Acc) (a : Nat) (s : State) : Keeps Part.regs s (countViolation k a s) := by
  unfold countViolation
  repeat' with_reducible first
      | apply Keeps.refl | assumption | (apply Part.named; decide)
      | apply Keeps.via (addReg_keeps _ _ _)
      | apply Keeps.ite

theorem accessError_keeps (k : Acc) (a : Nat) (s : State) : Keeps (Part.regs ||| Part.records) s (accessError k a s) := by
  unfold accessError
  repeat' with_reducible first
      | apply Keeps.refl | assumption | (apply Part.named; decide)
      | apply Keeps.via (report_keeps _ _ _ _ _)
      | apply Keeps.via (countViolation_keeps _ _ _)

theorem busError_keeps (k : Acc) (a : Nat) (s : State) : Keeps (Part.regs ||| Part.records) s (busError k a s) := by
  unfold busError
  repeat' with_reducible first
      | apply Keeps.refl | assumption | (apply Part.named; decide)
      | (extract_lets +onlyGivenNames x; first | (refine keepsLet (x := x) ?_ ?_; (on_goal 2 => (clear_value x; intro _)); (on_goal 1 => (unfold x; clear x))) | skip)
      | apply Keeps.via (addReg_keeps _ _ _)
      | apply Keeps.via (report_keeps _ _ _ _ _)
      | apply Keeps.via (accessError_keeps _ _ _)
      | apply Keeps.ite
      | split

theorem writeGran_keeps (k : Acc) (a : Nat) (bytes : List (Option Byte)) (blot : Bool) (w : Wrote) :
    Keeps (Part.regs ||| Part.memory ||| Part.records ||| Part.stacks) w.s (writeGran k a bytes blot w).s := by
  unfold writeGran
  repeat' with_reducible first
      | apply Keeps.refl | assumption | (apply Part.named; decide)
      | (extract_lets +onlyGivenNames x; first | (refine keepsLet (x := x) ?_ ?_; (on_goal 2 => (clear_value x; intro _)); (on_goal 1 => (unfold x; clear x))) | skip)
      | apply Keeps.via (busError_keeps _ _ _)
      | apply Keeps.via (storeGran_keeps _ _ _ _)
      | apply Keeps.via (addReg_keeps _ _ _)
      | apply Keeps.ite
      | split

theorem writeSpan_keeps (k : Acc) (a : Nat) (bytes : List Byte) (blot : Bool) (w : Wrote) :
    Keeps (Part.regs ||| Part.memory ||| Part.records ||| Part.stacks) w.s (writeSpan k a bytes blot w).s := by
  unfold writeSpan
  repeat' with_reducible first
      | apply Keeps.refl | assumption | (apply Part.named; decide)
      | apply Keeps.via (writeGran_keeps _ _ _ _ _)
      | (apply keepsEq (fun r => r.s) (writeGran_keeps _ _ _ _ _); on_goal 1 => assumption)
      | apply Keeps.ite
      | apply Keeps.foldlW_via
      | intro _

theorem Wrote.start_keeps (s : State) : Keeps 0 s (Wrote.start s).s := by
  unfold Wrote.start
  repeat' with_reducible first
      | apply Keeps.refl | assumption | (apply Part.named; decide)

end Sys2Proof.Machine
end

