-- ==== Sys2Proof/Laws/KeepOperands.lean ====
section
/-!
SUPPORT. What each operation and meaning of Machine/Operands.lean keeps (Laws/Keep.lean).
-/
namespace Sys2Proof.Machine

theorem setAb_keeps (k i v : Nat) (tag : Bool) (s : State) : Keeps Part.bases s (setAb k i v tag s) := by
  unfold setAb
  repeat' with_reducible first
      | apply Keeps.refl | assumption | (apply Part.named; decide)
      | (fail_if_no_progress (apply Keeps.via (Keeps.rest (m := Part.bases) ..)) <;> first | exact Or.inr rfl | exact Or.inl rfl | skip)
      | fail_if_no_progress (apply Keeps.via (Keeps.putAbase _ _))
      | fail_if_no_progress (apply Keeps.via (Keeps.putAbtag _ _))

theorem setRing_keeps (c ch : Nat) (l : List Granule) (s : State) : Keeps Part.clusters s (setRing c ch l s) := by
  unfold setRing
  repeat' with_reducible first
      | apply Keeps.refl | assumption | (apply Part.named; decide)
      | apply Keeps.via (modCluster_keeps _ _ _)

theorem takeRing_keeps (c ch n : Nat) (s : State) : KeepsOpt Part.clusters (fun r => r.2) s (takeRing c ch n s) := by
  unfold takeRing
  repeat' with_reducible first
      | apply Keeps.refl | assumption | (apply Part.named; decide)
      | apply KeepsOpt.none | apply KeepsOpt.some
      | (extract_lets +onlyGivenNames x; first | (refine keepsLet (x := x) ?_ ?_; (on_goal 2 => (clear_value x; intro _)); (on_goal 1 => (unfold x; clear x))) | skip)
      | apply Keeps.via (setRing_keeps _ _ _ _)
      | apply Keeps.ite
      | split

theorem pushRing_keeps (c ch : Nat) (relay : Bool) (g : List Granule) (s : State) :
    KeepsOpt Part.clusters (fun r => r) s (pushRing c ch relay g s) := by
  unfold pushRing
  repeat' with_reducible first
      | apply Keeps.refl | assumption | (apply Part.named; decide)
      | apply KeepsOpt.none | apply KeepsOpt.some
      | (extract_lets +onlyGivenNames x; first | (refine keepsLet (x := x) ?_ ?_; (on_goal 2 => (clear_value x; intro _)); (on_goal 1 => (unfold x; clear x))) | skip)
      | apply Keeps.via (setRing_keeps _ _ _ _)
      | apply Keeps.ite
      | split

theorem modS_keeps (k : Nat) (g : SRun → SRun) (s : State) : Keeps Part.scores s (modS k g s) := by
  unfold modS
  repeat' with_reducible first
      | apply Keeps.refl | assumption | (apply Part.named; decide)
      | fail_if_no_progress (apply Keeps.via (Keeps.putSruns _ _))

theorem setSx_keeps (k i : Nat) (v : DWord) (tag : Bool) (s : State) : Keeps Part.scores s (setSx k i v tag s) := by
  unfold setSx
  repeat' with_reducible first
      | apply Keeps.refl | assumption | (apply Part.named; decide)
      | apply Keeps.via (modS_keeps _ _ _)

theorem modV_keeps (k : Nat) (g : VRun → VRun) (s : State) : Keeps Part.vcores s (modV k g s) := by
  unfold modV
  repeat' with_reducible first
      | apply Keeps.refl | assumption | (apply Part.named; decide)
      | fail_if_no_progress (apply Keeps.via (Keeps.putVruns _ _))

theorem healVx_keeps (k i : Nat) (whole : Nat → Bool) (s : State) : Keeps Part.vcores s (healVx k i whole s) := by
  unfold healVx
  repeat' with_reducible first
      | apply Keeps.refl | assumption | (apply Part.named; decide)
      | apply Keeps.via (modV_keeps _ _ _)
      | apply Keeps.ite
      | apply Keeps.foldl_via
      | intro _

theorem setVx_keeps (k i : Nat) (v : VWord) (tags : List Bool) (s : State) : Keeps Part.vcores s (setVx k i v tags s) := by
  unfold setVx
  repeat' with_reducible first
      | apply Keeps.refl | assumption | (apply Part.named; decide)
      | apply Keeps.via (modV_keeps _ _ _)
      | apply Keeps.foldl_via
      | intro _

theorem setMask_keeps (k i : Nat) (v : BitVec 128) (tag : Bool) (s : State) : Keeps Part.vcores s (setMask k i v tag s) := by
  unfold setMask
  repeat' with_reducible first
      | apply Keeps.refl | assumption | (apply Part.named; decide)
      | apply Keeps.via (modV_keeps _ _ _)
      | apply Keeps.ite

end Sys2Proof.Machine
end

