-- ==== Sys2Proof/Laws/KeepFlags.lean ====
section
/-!
SUPPORT. What each operation and meaning of Machine/Flags.lean keeps (Laws/Keep.lean).
-/
namespace Sys2Proof.Machine

theorem noteJob_keeps (c : Nat) (g : RunFlags → RunFlags) (s : State) : Keeps Part.jobs s (noteJob c g s) := by
  unfold noteJob
  repeat' with_reducible first
      | apply Keeps.refl | assumption | (apply Part.named; decide)
      | apply Keeps.ite
      | fail_if_no_progress (apply Keeps.via (Keeps.putJobs _ _))

theorem noteBusErr_keeps (c : Nat) (s : State) : Keeps (Part.regs ||| Part.records ||| Part.jobs) s (noteBusErr c s) := by
  unfold noteBusErr
  repeat' with_reducible first
      | apply Keeps.refl | assumption | (apply Part.named; decide)
      | apply Keeps.via (noteJob_keeps _ _ _)
      | apply Keeps.via (busError_keeps _ _ _)

theorem noteBlots_keeps (c n : Nat) (s : State) : Keeps Part.jobs s (noteBlots c n s) := by
  unfold noteBlots
  repeat' with_reducible first
      | apply Keeps.refl | assumption | (apply Part.named; decide)
      | apply Keeps.via (noteJob_keeps _ _ _)
      | apply Keeps.ite

end Sys2Proof.Machine
end

