-- ==== Sys2Proof/Laws/KeepNmuRegs.lean ====
section
/-!
SUPPORT. What each operation and meaning of Machine/NmuRegs.lean keeps (Laws/Keep.lean).
-/
namespace Sys2Proof.Machine

theorem modNmu_keeps (st u : Nat) (g : Nmu → Nmu) (s : State) : Keeps Part.nmus s (modNmu st u g s) := by
  unfold modNmu
  repeat' with_reducible first
      | apply Keeps.refl | assumption | (apply Part.named; decide)
      | fail_if_no_progress (apply Keeps.via (Keeps.putNmus _ _))

end Sys2Proof.Machine
end

