-- ==== Sys2Proof/Laws/KeepRepair.lean ====
section
/-!
SUPPORT. What each operation and meaning of Machine/Repair.lean keeps (Laws/Keep.lean).
-/
namespace Sys2Proof.Machine

theorem byFirmware_keeps (e : HeldEvent) (act : State → State) (s : State) {m : Nat} (hm : Part.hub ||| m = m)
    (hact : ∀ x0, Keeps m x0 (act x0)) : Keeps m s (byFirmware e act s) := by
  unfold byFirmware
  repeat' with_reducible first
      | apply Keeps.refl | assumption | (apply Part.named; decide)
      | apply Keeps.viaH (hact _)
      | apply Keeps.via (modHub_keeps _ _)
      | apply Keeps.ite

theorem noteEvent_keeps (u : Nat) (s : State) : Keeps Part.hub s (noteEvent u s).2 := by
  unfold noteEvent
  repeat' with_reducible first
      | apply Keeps.refl | assumption | (apply Part.named; decide)
      | (extract_lets +onlyGivenNames x; first | (refine keepsLet (x := x) ?_ ?_; (on_goal 2 => (clear_value x; intro _)); (on_goal 1 => (unfold x; clear x))) | skip)
      | apply Keeps.via (modHub_keeps _ _)
      | apply Keeps.ite
      | split

theorem softFuse_keeps (kind source loc : Nat) (s : State) : Keeps Part.hub s (softFuse kind source loc s) := by
  unfold softFuse
  repeat' with_reducible first
      | apply Keeps.refl | assumption | (apply Part.named; decide)
      | apply Keeps.via (modHub_keeps _ _)
      | apply Keeps.ite

theorem declareOut_keeps (cause : Nat) (s : State) : Keeps Part.hub s (declareOut cause s) := by
  unfold declareOut
  repeat' with_reducible first
      | apply Keeps.refl | assumption | (apply Part.named; decide)
      | apply Keeps.via (modHub_keeps _ _)
      | apply Keeps.ite

theorem towerLost_keeps (t : Nat) (s : State) : Keeps (Part.regs ||| Part.hub) s (towerLost t s) := by
  unfold towerLost
  repeat' with_reducible first
      | apply Keeps.refl | assumption | (apply Part.named; decide)
      | apply Keeps.via (declareOut_keeps _ _)
      | apply Keeps.via (setB_keeps _ _ _ _)
      | apply Keeps.ite

theorem stackLost_keeps (m : Nat) (s : State) : Keeps (Part.regs ||| Part.hub) s (stackLost m s) := by
  unfold stackLost
  repeat' with_reducible first
      | apply Keeps.refl | assumption | (apply Part.named; decide)
      | apply Keeps.via (declareOut_keeps _ _)
      | apply Keeps.via (setB_keeps _ _ _ _)
      | apply Keeps.ite

theorem showSpares_keeps (t : Nat) (s : State) : Keeps Part.regs s (showSpares t s) := by
  unfold showSpares
  repeat' with_reducible first
      | apply Keeps.refl | assumption | (apply Part.named; decide)
      | (extract_lets +onlyGivenNames x; first | (refine keepsLet (x := x) ?_ ?_; (on_goal 2 => (clear_value x; intro _)); (on_goal 1 => (unfold x; clear x))) | skip)
      | apply Keeps.via (setF_keeps _ _ _ _ _)
      | apply Keeps.via (setReg_keeps _ _ _)
      | apply Keeps.foldl_via
      | intro _

theorem copyRow_keeps (t b row : Nat) (s : State) : Keeps (Part.memory ||| Part.stacks) s (copyRow t b row s) := by
  unfold copyRow
  repeat' with_reducible first
      | apply Keeps.refl | assumption | (apply Part.named; decide)
      | (extract_lets +onlyGivenNames x; first | (refine keepsLet (x := x) ?_ ?_; (on_goal 2 => (clear_value x; intro _)); (on_goal 1 => (unfold x; clear x))) | skip)
      | apply Keeps.via (storeGran_keeps _ _ _ _)
      | apply Keeps.ite
      | apply Keeps.foldl_via
      | intro _

theorem spoilSpare_keeps (t b i : Nat) (s : State) : Keeps Part.towers s (spoilSpare t b i s) := by
  unfold spoilSpare
  repeat' with_reducible first
      | apply Keeps.refl | assumption | (apply Part.named; decide)
      | apply Keeps.via (modTower_keeps _ _ _)

theorem moveRow_keeps (t b row : Nat) (s : State) : Keeps (Part.regs ||| Part.memory ||| Part.records ||| Part.towers ||| Part.stacks ||| Part.hub) s (moveRow t b row s) := by
  unfold moveRow
  repeat' with_reducible first
      | apply Keeps.refl | assumption | (apply Part.named; decide)
      | apply Keeps.elim
      | intro _
      | (extract_lets +onlyGivenNames x; first | (refine keepsLet (x := x) ?_ ?_; (on_goal 2 => (clear_value x; intro _)); (on_goal 1 => (unfold x; clear x))) | skip)
      | apply Keeps.via (spoilSpare_keeps _ _ _ _)
      | apply Keeps.via (showSpares_keeps _ _)
      | apply Keeps.via (towerLost_keeps _ _)
      | apply Keeps.via (copyRow_keeps _ _ _ _)
      | apply Keeps.via (modTower_keeps _ _ _)
      | apply Keeps.via (softFuse_keeps _ _ _ _)
      | apply Keeps.via (report_keeps _ _ _ _ _)
      | apply Keeps.ite
      | split

theorem replaceRow_keeps (t b row : Nat) (s : State) :
    Keeps (Part.regs ||| Part.memory ||| Part.records ||| Part.towers ||| Part.stacks ||| Part.hub) s (replaceRow t b row s) := by
  unfold replaceRow
  repeat' with_reducible first
      | apply Keeps.refl | assumption | (apply Part.named; decide)
      | (extract_lets +onlyGivenNames x; first | (refine keepsLet (x := x) ?_ ?_; (on_goal 2 => (clear_value x; intro _)); (on_goal 1 => (unfold x; clear x))) | skip)
      | apply Keeps.via (showSpares_keeps _ _)
      | apply Keeps.via (modTower_keeps _ _ _)
      | apply Keeps.via (towerLost_keeps _ _)
      | apply Keeps.via (copyRow_keeps _ _ _ _)
      | apply Keeps.via (softFuse_keeps _ _ _ _)
      | apply Keeps.via (report_keeps _ _ _ _ _)
      | apply Keeps.via (moveRow_keeps _ _ _ _)
      | apply Keeps.via (spoilSpare_keeps _ _ _ _)
      | apply Keeps.ite
      | split

theorem rowEvent_keeps (t b row : Nat) (s : State) :
    Keeps (Part.regs ||| Part.memory ||| Part.records ||| Part.towers ||| Part.stacks ||| Part.hub) s (rowEvent t b row s) := by
  unfold rowEvent
  repeat' with_reducible first
      | apply Keeps.refl | assumption | (apply Part.named; decide)
      | (extract_lets +onlyGivenNames x; first | (refine keepsLet (x := x) ?_ ?_; (on_goal 2 => (clear_value x; intro _)); (on_goal 1 => (unfold x; clear x))) | skip)
      | apply Keeps.via (setReg_keeps _ _ _)
      | apply Keeps.via (noteEvent_keeps _ _)
      | (apply keepsEq2 (noteEvent_keeps _ _); on_goal 1 => assumption)
      | apply Keeps.via (replaceRow_keeps _ _ _ _)
      | apply Keeps.viaH (byFirmware_keeps _ _ _ ?_ ?_)
      | intro _
      | apply Keeps.ite

theorem readError_keeps (k : Acc) (a : Nat) (s : State) : Keeps (Part.regs ||| Part.memory ||| Part.records ||| Part.towers ||| Part.stacks ||| Part.hub) s (readError k a s) := by
  unfold readError
  repeat' with_reducible first
      | apply Keeps.refl | assumption | (apply Part.named; decide)
      | (extract_lets +onlyGivenNames x; first | (refine keepsLet (x := x) ?_ ?_; (on_goal 2 => (clear_value x; intro _)); (on_goal 1 => (unfold x; clear x))) | skip)
      | apply Keeps.via (busError_keeps _ _ _)
      | apply Keeps.via (rowEvent_keeps _ _ _ _)
      | apply Keeps.ite
      | split

end Sys2Proof.Machine
end

