-- ==== Sys2Proof/Laws/KeepLinks.lean ====
section
/-!
SUPPORT. What each operation and meaning of Machine/Links.lean keeps (Laws/Keep.lean).
-/
namespace Sys2Proof.Machine

theorem modPort_keeps (p : Nat) (g : Port → Port) (s : State) : Keeps Part.links s (modPort p g s) := by
  unfold modPort
  repeat' with_reducible first
      | apply Keeps.refl | assumption | (apply Part.named; decide)
      | fail_if_no_progress (apply Keeps.via (Keeps.putPorts _ _))

theorem markDesignated_keeps (s : State) : Keeps Part.regs s (markDesignated s) := by
  unfold markDesignated
  repeat' with_reducible first
      | apply Keeps.refl | assumption | (apply Part.named; decide)
      | apply Keeps.via (setB_keeps _ _ _ _)
      | apply Keeps.foldl_via
      | intro _
      | split

theorem sendFlit_keeps (p kind seq : Nat) (mark : Bool) (offset : Nat) (slots : List (List Byte × Bool)) (s : State) : Keeps (Part.regs ||| Part.log ||| Part.links) s (sendFlit p kind seq mark offset slots s) := by
  unfold sendFlit
  repeat' with_reducible first
      | apply Keeps.refl | assumption | (apply Part.named; decide)
      | (extract_lets +onlyGivenNames x; first | (refine keepsLet (x := x) ?_ ?_; (on_goal 2 => (clear_value x; intro _)); (on_goal 1 => (unfold x; clear x))) | skip)
      | apply Keeps.via (modPort_keeps _ _ _)
      | apply Keeps.via (emit_keeps _ _)
      | apply Keeps.via (addReg_keeps _ _ _)
      | apply Keeps.ite

theorem sendIdle_keeps (p : Nat) (mark : Bool) (offset : Nat) (s : State) : Keeps (Part.regs ||| Part.log ||| Part.links) s (sendIdle p mark offset s) := by
  unfold sendIdle
  repeat' with_reducible first
      | apply Keeps.refl | assumption | (apply Part.named; decide)
      | apply Keeps.via (sendFlit_keeps _ _ _ _ _ _ _)

theorem sendNow_keeps (p : Nat) (k : Packet) (s : State) : Keeps (Part.regs ||| Part.log ||| Part.links) s (sendNow p k s) := by
  unfold sendNow
  repeat' with_reducible first
      | apply Keeps.refl | assumption | (apply Part.named; decide)
      | (extract_lets +onlyGivenNames x; first | (refine keepsLet (x := x) ?_ ?_; (on_goal 2 => (clear_value x; intro _)); (on_goal 1 => (unfold x; clear x))) | skip)
      | apply Keeps.via (modPort_keeps _ _ _)
      | apply Keeps.via (emit_keeps _ _)
      | apply Keeps.via (addReg_keeps _ _ _)
      | apply Keeps.via (sendFlit_keeps _ _ _ _ _ _ _)
      | apply Keeps.ite

theorem pump_keeps (y0 : Nat) (y1 : Nat) (y2 : State) : Keeps (Part.regs ||| Part.log ||| Part.links) y2 (pump y0 y1 y2) := by
  induction y0 generalizing y1 y2 with
  | zero =>
    unfold pump
    repeat' with_reducible first
        | apply Keeps.refl | assumption | (apply Part.named; decide)
        | apply Keeps.via (sendNow_keeps _ _ _)
        | apply Keeps.via (modPort_keeps _ _ _)
        | apply Keeps.via (ih _ _)
        | apply Keeps.ite
        | split
  | succ n ih =>
    unfold pump
    repeat' with_reducible first
        | apply Keeps.refl | assumption | (apply Part.named; decide)
        | apply Keeps.via (sendNow_keeps _ _ _)
        | apply Keeps.via (modPort_keeps _ _ _)
        | apply Keeps.via (ih _ _)
        | apply Keeps.ite
        | split

theorem sendOn_keeps (p : Nat) (k : Packet) (s : State) : Keeps (Part.regs ||| Part.log ||| Part.links) s (sendOn p k s) := by
  unfold sendOn
  repeat' with_reducible first
      | apply Keeps.refl | assumption | (apply Part.named; decide)
      | (extract_lets +onlyGivenNames x; first | (refine keepsLet (x := x) ?_ ?_; (on_goal 2 => (clear_value x; intro _)); (on_goal 1 => (unfold x; clear x))) | skip)
      | apply Keeps.via (modPort_keeps _ _ _)
      | apply Keeps.via (pump_keeps _ _ _)

theorem nextNseq_keeps (c : Nat) (s : State) : Keeps Part.links s (nextNseq c s).2 := by
  unfold nextNseq
  repeat' with_reducible first
      | apply Keeps.refl | assumption | (apply Part.named; decide)
      | (extract_lets +onlyGivenNames x; first | (refine keepsLet (x := x) ?_ ?_; (on_goal 2 => (clear_value x; intro _)); (on_goal 1 => (unfold x; clear x))) | skip)
      | fail_if_no_progress (apply Keeps.via (Keeps.putLinks _ _))

theorem sendVc0_keeps (c : Nat) (ps : List Nat) (b : PacketBody) (s : State) :
    Keeps (Part.regs ||| Part.log ||| Part.links) s (sendVc0 c ps b s) := by
  unfold sendVc0
  repeat' with_reducible first
      | apply Keeps.refl | assumption | (apply Part.named; decide)
      | (extract_lets +onlyGivenNames x; first | (refine keepsLet (x := x) ?_ ?_; (on_goal 2 => (clear_value x; intro _)); (on_goal 1 => (unfold x; clear x))) | skip)
      | apply Keeps.via (nextNseq_keeps _ _)
      | (apply keepsEq2 (nextNseq_keeps _ _); on_goal 1 => assumption)
      | apply Keeps.via (sendOn_keeps _ _ _)
      | apply Keeps.ite
      | apply Keeps.foldl_via
      | intro _

theorem sendPort_keeps (p : Nat) (b : PacketBody) (s : State) : Keeps (Part.regs ||| Part.log ||| Part.links) s (sendPort p b s) := by
  unfold sendPort
  repeat' with_reducible first
      | apply Keeps.refl | assumption | (apply Part.named; decide)
      | apply Keeps.via (sendVc0_keeps _ _ _ _)
      | split

theorem sendAll_keeps (but : Option Nat) (b : PacketBody) (s : State) :
    Keeps (Part.regs ||| Part.log ||| Part.links) s (sendAll but b s) := by
  unfold sendAll
  repeat' with_reducible first
      | apply Keeps.refl | assumption | (apply Part.named; decide)
      | apply Keeps.via (sendVc0_keeps _ _ _ _)
      | apply Keeps.foldl_via
      | intro _

theorem returnCredit_keeps (p : Nat) (k : Packet) (s : State) : Keeps (Part.regs ||| Part.log ||| Part.links) s (returnCredit p k s) := by
  unfold returnCredit
  repeat' with_reducible first
      | apply Keeps.refl | assumption | (apply Part.named; decide)
      | apply Keeps.via (emit_keeps _ _)
      | apply Keeps.via (sendIdle_keeps _ _ _ _)
      | apply Keeps.via (modPort_keeps _ _ _)
      | apply Keeps.ite

theorem takeVc0_keeps (p : Nat) (want : PacketBody → Bool) (act : Packet → State → State) (s : State) {m : Nat} (hm : (Part.regs ||| Part.log ||| Part.links) ||| m = m) (hact : ∀ x0 x1, Keeps m x1 (act x0 x1)) :
    Keeps m s (takeVc0 p want act s) := by
  unfold takeVc0
  repeat' with_reducible first
      | apply Keeps.refl | assumption | (apply Part.named; decide) | exact Part.sub hm (by decide)
      | (extract_lets +onlyGivenNames x; first | (refine keepsLet (x := x) ?_ ?_; (on_goal 2 => (clear_value x; intro _)); (on_goal 1 => (unfold x; clear x))) | skip)
      | apply Keeps.via (returnCredit_keeps _ _ _)
      | apply Keeps.via (modPort_keeps _ _ _)
      | apply Keeps.viaH (hact _ _)
      | apply Keeps.ite
      | split
      | fail_if_no_progress (apply Keeps.via (Keeps.putLinks _ _))

end Sys2Proof.Machine
end

