-- ==== Sys2Proof/Laws/KeepSync.lean ====
section
/-!
SUPPORT. What each operation and meaning of Machine/Sync.lean keeps (Laws/Keep.lean).
-/
namespace Sys2Proof.Machine

theorem Keeps.foldlO_via {m : Nat} {α : Type} {f : StrokeOut → α → StrokeOut} {l : List α} {a : State} {w : StrokeOut}
    (h : ∀ w e, Keeps m w.s (f w e).s) (g : Keeps m a w.s) : Keeps m a (l.foldl f w).s := g.trans (Keeps.foldlBy StrokeOut.s h l w)
theorem KeepsOpt.iteApp {m : Nat} {c : Prop} [Decidable c] {f g : Nat → StrokeWord → State → Option StrokeOut} {k : Nat} {w : StrokeWord}
    {a s : State} (hf : KeepsOpt m (fun r => r.s) a (f k w s)) (hg : KeepsOpt m (fun r => r.s) a (g k w s)) :
    KeepsOpt m (fun r => r.s) a ((if c then f else g) k w s) := by split <;> assumption

theorem finish_keeps (h : CmdHdr) (op status blots r0 r1 : Nat) (s : State) :
    Keeps (Part.regs ||| Part.queues) s (finish h op status blots r0 r1 s) := by
  unfold finish
  repeat' with_reducible first
      | apply Keeps.refl | assumption | (apply Part.named; decide)
      | (extract_lets +onlyGivenNames x; first | (refine keepsLet (x := x) ?_ ?_; (on_goal 2 => (clear_value x; intro _)); (on_goal 1 => (unfold x; clear x))) | skip)
      | apply Keeps.via (addReg_keeps _ _ _)
      | apply Keeps.via (modScribe_keeps _ _)
      | apply Keeps.via (Wrote.start_keeps _)
      | apply Keeps.ite

theorem fail_keeps (h : CmdHdr) (op status : Nat) (s : State) : Keeps (Part.regs ||| Part.queues) s (fail h op status s) := by
  unfold fail
  repeat' with_reducible first
      | apply Keeps.refl | assumption | (apply Part.named; decide)
      | apply Keeps.via (finish_keeps _ _ _ _ _ _ _)

theorem completeWait_keeps (x : HurdleWait) (gen : Nat) (s : State) :
    Keeps (Part.regs ||| Part.queues ||| Part.clusters ||| Part.scores) s (completeWait x gen s) := by
  unfold completeWait
  repeat' with_reducible first
      | apply Keeps.refl | assumption | (apply Part.named; decide)
      | (extract_lets +onlyGivenNames x; first | (refine keepsLet (x := x) ?_ ?_; (on_goal 2 => (clear_value x; intro _)); (on_goal 1 => (unfold x; clear x))) | skip)
      | apply Keeps.via (finish_keeps _ _ _ _ _ _ _)
      | apply Keeps.via (modRunner_keeps _ _ _)
      | apply Keeps.via (setSx_keeps _ _ _ _ _)
      | apply Keeps.via (modScribe_keeps _ _)
      | apply Keeps.ite
      | split

theorem serveWaits_keeps (y0 : Nat) (y1 : Nat) (y2 : State) :
    Keeps (Part.regs ||| Part.queues ||| Part.clusters ||| Part.scores ||| Part.hurdles) y2 (serveWaits y0 y1 y2) := by
  induction y0 generalizing y1 y2 with
  | zero =>
    unfold serveWaits
    repeat' with_reducible first
        | apply Keeps.refl | assumption | (apply Part.named; decide)
        | (extract_lets +onlyGivenNames x; first | (refine keepsLet (x := x) ?_ ?_; (on_goal 2 => (clear_value x; intro _)); (on_goal 1 => (unfold x; clear x))) | skip)
        | apply Keeps.via (putHurdle_keeps _ _ _)
        | apply Keeps.via (completeWait_keeps _ _ _)
        | apply Keeps.via (ih _ _)
        | split
  | succ n ih =>
    unfold serveWaits
    repeat' with_reducible first
        | apply Keeps.refl | assumption | (apply Part.named; decide)
        | (extract_lets +onlyGivenNames x; first | (refine keepsLet (x := x) ?_ ?_; (on_goal 2 => (clear_value x; intro _)); (on_goal 1 => (unfold x; clear x))) | skip)
        | apply Keeps.via (putHurdle_keeps _ _ _)
        | apply Keeps.via (completeWait_keeps _ _ _)
        | apply Keeps.via (ih _ _)
        | split
        | fail_if_no_progress (apply Keeps.via (Keeps.putHwaits _ _))

theorem releaseColl_keeps (n times : Nat) (s : State) : Keeps Part.coll s (releaseColl n times s) := by
  unfold releaseColl
  repeat' with_reducible first
      | apply Keeps.refl | assumption | (apply Part.named; decide)
      | (extract_lets +onlyGivenNames x; first | (refine keepsLet (x := x) ?_ ?_; (on_goal 2 => (clear_value x; intro _)); (on_goal 1 => (unfold x; clear x))) | skip)
      | fail_if_no_progress (apply Keeps.via (Keeps.putColl _ _))

theorem hurdleCycle_keeps (n : Nat) (ops : List HurdleOp) (s : State) :
    Keeps (Part.regs ||| Part.records ||| Part.queues ||| Part.clusters ||| Part.scores ||| Part.hurdles ||| Part.coll) s (hurdleCycle n ops s) := by
  unfold hurdleCycle
  repeat' with_reducible first
      | apply Keeps.refl | assumption | (apply Part.named; decide)
      | (extract_lets +onlyGivenNames x; first | (refine keepsLet (x := x) ?_ ?_; (on_goal 2 => (clear_value x; intro _)); (on_goal 1 => (unfold x; clear x))) | skip)
      | apply Keeps.via (putHurdle_keeps _ _ _)
      | apply Keeps.via (report_keeps _ _ _ _ _)
      | apply Keeps.via (releaseColl_keeps _ _ _)
      | apply Keeps.via (serveWaits_keeps _ _ _)
      | apply Keeps.ite
      | split

theorem mirror_keeps (n : Nat) (reset : Bool) (count org : Nat) (but : Option Nat) (s : State) :
    Keeps (Part.regs ||| Part.log ||| Part.links) s (mirror n reset count org but s) := by
  unfold mirror
  repeat' with_reducible first
      | apply Keeps.refl | assumption | (apply Part.named; decide)
      | (extract_lets +onlyGivenNames x; first | (refine keepsLet (x := x) ?_ ?_; (on_goal 2 => (clear_value x; intro _)); (on_goal 1 => (unfold x; clear x))) | skip)
      | apply Keeps.via (sendVc0_keeps _ _ _ _)
      | apply Keeps.foldl_via
      | intro _

theorem arrive_keeps (n count : Nat) (s : State) :
    Keeps (Part.regs ||| Part.log ||| Part.records ||| Part.queues ||| Part.clusters ||| Part.scores ||| Part.hurdles ||| Part.links ||| Part.coll) s (arrive n count s) := by
  unfold arrive
  repeat' with_reducible first
      | apply Keeps.refl | assumption | (apply Part.named; decide)
      | (extract_lets +onlyGivenNames x; first | (refine keepsLet (x := x) ?_ ?_; (on_goal 2 => (clear_value x; intro _)); (on_goal 1 => (unfold x; clear x))) | skip)
      | apply Keeps.via (hurdleCycle_keeps _ _ _)
      | apply Keeps.via (mirror_keeps _ _ _ _ _ _)
      | apply Keeps.ite

theorem hurdleReset_keeps (n : Nat) (s : State) :
    Keeps (Part.regs ||| Part.log ||| Part.records ||| Part.queues ||| Part.clusters ||| Part.scores ||| Part.hurdles ||| Part.links ||| Part.coll) s (hurdleReset n s) := by
  unfold hurdleReset
  repeat' with_reducible first
      | apply Keeps.refl | assumption | (apply Part.named; decide)
      | (extract_lets +onlyGivenNames x; first | (refine keepsLet (x := x) ?_ ?_; (on_goal 2 => (clear_value x; intro _)); (on_goal 1 => (unfold x; clear x))) | skip)
      | apply Keeps.via (hurdleCycle_keeps _ _ _)
      | apply Keeps.via (mirror_keeps _ _ _ _ _ _)
      | apply Keeps.ite

theorem setMark_keeps (c m v : Nat) (s : State) : Keeps Part.clusters s (setMark c m v s) := by
  unfold setMark
  repeat' with_reducible first
      | apply Keeps.refl | assumption | (apply Part.named; decide)
      | apply Keeps.via (modCluster_keeps _ _ _)

theorem signalMark_keeps (c m : Nat) (s : State) : Keeps (Part.records ||| Part.clusters) s (signalMark c m s) := by
  unfold signalMark
  repeat' with_reducible first
      | apply Keeps.refl | assumption | (apply Part.named; decide)
      | apply Keeps.via (setMark_keeps _ _ _ _)
      | apply Keeps.via (report_keeps _ _ _ _ _)
      | apply Keeps.via (modCluster_keeps _ _ _)
      | apply Keeps.ite

theorem countWaits_keeps (c : Nat) (l : List (Nat × Nat)) (s : State) : Keeps Part.regs s (countWaits c l s) := by
  unfold countWaits
  repeat' with_reducible first
      | apply Keeps.refl | assumption | (apply Part.named; decide)
      | apply Keeps.elim
      | intro _
      | apply Keeps.via (addReg_keeps _ _ _)
      | apply Keeps.foldl_via
      | intro _

theorem trace_keeps (k kind : Nat) (w : StrokeWord) (wrote : Bool) (s : State) :
    Keeps (Part.regs ||| Part.clusters) s (trace k kind w wrote s) := by
  unfold trace
  repeat' with_reducible first
      | apply Keeps.refl | assumption | (apply Part.named; decide)
      | (extract_lets +onlyGivenNames x; first | (refine keepsLet (x := x) ?_ ?_; (on_goal 2 => (clear_value x; intro _)); (on_goal 1 => (unfold x; clear x))) | skip)
      | apply Keeps.via (modCluster_keeps _ _ _)
      | apply Keeps.via (setF_keeps _ _ _ _ _)
      | apply Keeps.via (setB_keeps _ _ _ _)
      | apply Keeps.ite
      | split

theorem loopTurn_keeps (k : Nat) (s : State) : Keeps (Part.clusters ||| Part.scores) s (loopTurn k s) := by
  unfold loopTurn
  repeat' with_reducible first
      | apply Keeps.refl | assumption | (apply Part.named; decide)
      | (extract_lets +onlyGivenNames x; first | (refine keepsLet (x := x) ?_ ?_; (on_goal 2 => (clear_value x; intro _)); (on_goal 1 => (unfold x; clear x))) | skip)
      | apply Keeps.via (modRunner_keeps _ _ _)
      | apply Keeps.via (setSx_keeps _ _ _ _ _)
      | apply Keeps.ite
      | split

theorem popHead_keeps (k : Nat) (s : State) : Keeps (Part.clusters ||| Part.scores) s (popHead k s) := by
  unfold popHead
  repeat' with_reducible first
      | apply Keeps.refl | assumption | (apply Part.named; decide)
      | apply Keeps.via (loopTurn_keeps _ _)
      | apply Keeps.via (modRunner_keeps _ _ _)
      | split

theorem settleSkip_keeps (y0 : Nat) (y1 : Nat) (y2 : State) :
    Keeps (Part.regs ||| Part.records ||| Part.clusters ||| Part.scores) y2 (settleSkip y0 y1 y2) := by
  induction y0 generalizing y1 y2 with
  | zero =>
    unfold settleSkip
    repeat' with_reducible first
        | apply Keeps.refl | assumption | (apply Part.named; decide)
        | (extract_lets +onlyGivenNames x; first | (refine keepsLet (x := x) ?_ ?_; (on_goal 2 => (clear_value x; intro _)); (on_goal 1 => (unfold x; clear x))) | skip)
        | apply Keeps.via (modRunner_keeps _ _ _)
        | apply Keeps.via (setMark_keeps _ _ _ _)
        | apply Keeps.via (trace_keeps _ _ _ _ _)
        | apply Keeps.via (popHead_keeps _ _)
        | apply Keeps.via (signalMark_keeps _ _ _)
        | apply Keeps.via (ih _ _)
        | apply Keeps.ite
        | split
  | succ n ih =>
    unfold settleSkip
    repeat' with_reducible first
        | apply Keeps.refl | assumption | (apply Part.named; decide)
        | (extract_lets +onlyGivenNames x; first | (refine keepsLet (x := x) ?_ ?_; (on_goal 2 => (clear_value x; intro _)); (on_goal 1 => (unfold x; clear x))) | skip)
        | apply Keeps.via (modRunner_keeps _ _ _)
        | apply Keeps.via (setMark_keeps _ _ _ _)
        | apply Keeps.via (trace_keeps _ _ _ _ _)
        | apply Keeps.via (popHead_keeps _ _)
        | apply Keeps.via (signalMark_keeps _ _ _)
        | apply Keeps.via (ih _ _)
        | apply Keeps.ite
        | split

theorem setLine_keeps (t line v : Nat) (s : State) : Keeps Part.towers s (setLine t line v s) := by
  unfold setLine
  repeat' with_reducible first
      | apply Keeps.refl | assumption | (apply Part.named; decide)
      | apply Keeps.via (modTower_keeps _ _ _)

theorem noteLine_keeps (c : Nat) (write : Bool) (d : Nat) (s : State) : Keeps Part.clusters s (noteLine c write d s) := by
  unfold noteLine
  repeat' with_reducible first
      | apply Keeps.refl | assumption | (apply Part.named; decide)
      | (extract_lets +onlyGivenNames x; first | (refine keepsLet (x := x) ?_ ?_; (on_goal 2 => (clear_value x; intro _)); (on_goal 1 => (unfold x; clear x))) | skip)
      | apply Keeps.via (modCluster_keeps _ _ _)
      | apply Keeps.ite
      | split

theorem settleLines_keeps (c : Nat) (s : State) : Keeps (Part.clusters ||| Part.towers) s (settleLines c s) := by
  unfold settleLines
  repeat' with_reducible first
      | apply Keeps.refl | assumption | (apply Part.named; decide)
      | (extract_lets +onlyGivenNames x; first | (refine keepsLet (x := x) ?_ ?_; (on_goal 2 => (clear_value x; intro _)); (on_goal 1 => (unfold x; clear x))) | skip)
      | apply Keeps.via (setLine_keeps _ _ _ _)
      | apply Keeps.via (modCluster_keeps _ _ _)
      | apply Keeps.ite
      | apply Keeps.foldl_via
      | intro _

theorem noteWaits_keeps (k : Nat) (l : List (Fin 8 × Nat)) (s : State) : Keeps Part.clusters s (noteWaits k l s) := by
  unfold noteWaits
  repeat' with_reducible first
      | apply Keeps.refl | assumption | (apply Part.named; decide)
      | apply Keeps.via (modRunner_keeps _ _ _)

theorem markFree_keeps (c : Nat) (s : State) : Keeps Part.clusters s (markFree c s) := by
  unfold markFree
  repeat' with_reducible first
      | apply Keeps.refl | assumption | (apply Part.named; decide)
      | apply Keeps.via (modCluster_keeps _ _ _)

theorem launchStroke_keeps (k : Nat) (w : StrokeWord) (o : StrokeOut) :
    Keeps (Part.regs ||| Part.frees ||| Part.records ||| Part.jobs ||| Part.clusters ||| Part.towers) o.s (launchStroke k w o) := by
  unfold launchStroke
  repeat' with_reducible first
      | apply Keeps.refl | assumption | (apply Part.named; decide)
      | (extract_lets +onlyGivenNames x; first | (refine keepsLet (x := x) ?_ ?_; (on_goal 2 => (clear_value x; intro _)); (on_goal 1 => (unfold x; clear x))) | skip)
      | apply Keeps.via (setMark_keeps _ _ _ _)
      | apply Keeps.via (addReg_keeps _ _ _)
      | apply Keeps.via (trace_keeps _ _ _ _ _)
      | apply Keeps.via (noteBlots_keeps _ _ _)
      | apply Keeps.via (noteBusErr_keeps _ _)
      | apply Keeps.via (modRunner_keeps _ _ _)
      | apply Keeps.via (bumpFree_keeps _)
      | apply Keeps.via (countWaits_keeps _ _ _)
      | apply Keeps.via (markFree_keeps _ _)
      | apply Keeps.via (settleLines_keeps _ _)
      | apply Keeps.via (modCluster_keeps _ _ _)
      | apply Keeps.ite

theorem issue_keeps (r : RunnerRef) (w : StrokeWord) (eff : Nat → StrokeWord → State → Option StrokeOut) (s : State) {m : Nat} (hm : (Part.regs ||| Part.frees ||| Part.records ||| Part.jobs ||| Part.clusters ||| Part.scores ||| Part.towers) ||| m = m) (heff : ∀ x0 x1 x2, KeepsOpt m (fun r => r.s) x2 (eff x0 x1 x2)) :
    Keeps m s (issue r w eff s) := by
  unfold issue
  repeat' with_reducible first
      | apply Keeps.refl | assumption | (apply Part.named; decide) | exact Part.sub hm (by decide)
      | (extract_lets +onlyGivenNames x; first | (refine keepsLet (x := x) ?_ ?_; (on_goal 2 => (clear_value x; intro _)); (on_goal 1 => (unfold x; clear x))) | skip)
      | apply Keeps.via (settleSkip_keeps _ _ _)
      | apply Keeps.via (launchStroke_keeps _ _ _)
      | apply Keeps.via (popHead_keeps _ _)
      | (apply KeepsOpt.getH (heff _ _ _); on_goal 1 => assumption)
      | apply Keeps.via (noteWaits_keeps _ _ _)
      | apply Keeps.ite
      | split

theorem plainEffect_keeps (f : Nat → StrokeWord → State → State) (k : Nat) (w : StrokeWord) (s : State) {m : Nat} (hm : 0 ||| m = m) (hf : ∀ x0 x1 x2, Keeps m x2 (f x0 x1 x2)) :
    KeepsOpt m (fun r => r.s) s (plainEffect f k w s) := by
  unfold plainEffect
  repeat' with_reducible first
      | apply Keeps.refl | assumption | (apply Part.named; decide)
      | apply KeepsOpt.some
      | apply Keeps.viaH (hf _ _ _)

end Sys2Proof.Machine
end

