-- ==== Sys2Proof/Laws/KeepAccess.lean ====
section
/-!
SUPPORT. What each operation and meaning of Machine/Access.lean keeps (Laws/Keep.lean).
-/
namespace Sys2Proof.Machine

theorem regBusError_keeps (q : Requester) (a : Nat) (read : Bool) (s : State) :
    Keeps (Part.log ||| Part.records) s (regBusError q a read s) := by
  unfold regBusError
  repeat' with_reducible first
      | apply Keeps.refl | assumption | (apply Part.named; decide)
      | (extract_lets +onlyGivenNames x; first | (refine keepsLet (x := x) ?_ ?_; (on_goal 2 => (clear_value x; intro _)); (on_goal 1 => (unfold x; clear x))) | skip)
      | apply Keeps.via (report_keeps _ _ _ _ _)
      | apply Keeps.via (emit_keeps _ _)
      | apply Keeps.ite

theorem readBy_keeps (q : Requester) (o : Nat) (s : State) : Keeps Part.latches s (readBy q o s).2 := by
  unfold readBy
  repeat' with_reducible first
      | apply Keeps.refl | assumption | (apply Part.named; decide)
      | apply Keeps.ite
      | split
      | fail_if_no_progress (apply Keeps.via (Keeps.putLatches _ _))

theorem readWordAt_keeps (q : Requester) (a : Nat) (s : State) : KeepsOpt Part.latches (fun r => r.2) s (readWordAt q a s) := by
  unfold readWordAt
  repeat' with_reducible first
      | apply Keeps.refl | assumption | (apply Part.named; decide)
      | apply KeepsOpt.bind
      | apply KeepsOpt.mapAny
      | apply Keeps.via (readBy_keeps _ _ _)
      | intro _

theorem execLoReadLatch_keeps (q : Requester) (off size : Nat) (s : State) : KeepsOut (Part.latches ||| Part.log ||| Part.records) s (execLoReadLatch q off size s) := by
  unfold execLoReadLatch
  repeat' with_reducible first
      | apply Keeps.refl | assumption | (apply Part.named; decide)
      | apply Keeps.next
      | (extract_lets +onlyGivenNames x; first | (refine keepsLet (x := x) ?_ ?_; (on_goal 2 => (clear_value x; intro _)); (on_goal 1 => (unfold x; clear x))) | (refine keepsLetO (x := x) ?_ ?_; (on_goal 2 => (clear_value x; intro _)); (on_goal 1 => (unfold x; clear x))) | skip)
      | apply Keeps.via (emit_keeps _ _)
      | apply Keeps.via (regBusError_keeps _ _ _ _)
      | apply Keeps.via (readBy_keeps _ _ _)
      | (apply keepsEq2 (readBy_keeps _ _ _); on_goal 1 => assumption)
      | (apply KeepsOpt.get (readWordAt_keeps _ _ _); on_goal 1 => assumption)
      | apply Keeps.ite
      | apply KeepsOut.ite
      | split

theorem msixUnmask_keeps (o : Nat) (s : State) : Keeps (Part.regs ||| Part.log) s (msixUnmask o s) := by
  unfold msixUnmask
  repeat' with_reducible first
      | apply Keeps.refl | assumption | (apply Part.named; decide)
      | (extract_lets +onlyGivenNames x; first | (refine keepsLet (x := x) ?_ ?_; (on_goal 2 => (clear_value x; intro _)); (on_goal 1 => (unfold x; clear x))) | skip)
      | apply Keeps.via (emit_keeps _ _)
      | apply Keeps.via (setB_keeps _ _ _ _)
      | apply Keeps.ite

theorem writeHurdleReg_keeps (n i : Nat) (v : Word) (s : State) :
    Keeps (Part.regs ||| Part.records ||| Part.queues ||| Part.clusters ||| Part.scores ||| Part.hurdles ||| Part.coll) s (writeHurdleReg n i v s) := by
  unfold writeHurdleReg
  repeat' with_reducible first
      | apply Keeps.refl | assumption | (apply Part.named; decide)
      | (extract_lets +onlyGivenNames x; first | (refine keepsLet (x := x) ?_ ?_; (on_goal 2 => (clear_value x; intro _)); (on_goal 1 => (unfold x; clear x))) | skip)
      | apply Keeps.via (hurdleCycle_keeps _ _ _)
      | apply Keeps.via (putHurdle_keeps _ _ _)
      | apply Keeps.ite

theorem writeStaged_keeps (o : Nat) (lk : Bool) (v : Word) (s : State) : Keeps (Part.regs ||| Part.hub) s (writeStaged o lk v s) := by
  unfold writeStaged
  repeat' with_reducible first
      | apply Keeps.refl | assumption | (apply Part.named; decide)
      | (extract_lets +onlyGivenNames x; first | (refine keepsLet (x := x) ?_ ?_; (on_goal 2 => (clear_value x; intro _)); (on_goal 1 => (unfold x; clear x))) | skip)
      | apply Keeps.via (setB_keeps _ _ _ _)
      | apply Keeps.via (modHub_keeps _ _)
      | apply Keeps.ite

theorem writePlain_keeps (o : Nat) (lk : Bool) (v : Word) (s : State) : Keeps (Part.regs ||| Part.latches ||| Part.log) s (writePlain o lk v s) := by
  have h : ∀ t, Keeps (Part.regs ||| Part.latches ||| Part.log) s t →
      Keeps (Part.regs ||| Part.latches ||| Part.log) s (msixUnmask o (setReg o (fixWrite t o (rawReg t o) (maskWrite (regRow o) lk (rawReg t o) v)) t)) :=
    fun t g => (g.trans ((setReg_keeps _ _ _).mono (by decide))).trans ((msixUnmask_keeps _ _).mono (by decide))
  exact h _ (Keeps.ite ((Keeps.putLatches _ _).mono (by decide)) (Keeps.refl _ _))

theorem writeReg_keeps (q : Requester) (o : Nat) (v : Word) (s : State) :
    Keeps (Part.regs ||| Part.latches ||| Part.log ||| Part.records ||| Part.queues ||| Part.clusters ||| Part.scores ||| Part.hurdles ||| Part.hub ||| Part.coll) s (writeReg q o v s) := by
  unfold writeReg
  repeat' with_reducible first
      | apply Keeps.refl | assumption | (apply Part.named; decide)
      | (extract_lets +onlyGivenNames x; first | (refine keepsLet (x := x) ?_ ?_; (on_goal 2 => (clear_value x; intro _)); (on_goal 1 => (unfold x; clear x))) | skip)
      | apply Keeps.via (regBusError_keeps _ _ _ _)
      | apply Keeps.via (writeHurdleReg_keeps _ _ _ _)
      | apply Keeps.via (setB_keeps _ _ _ _)
      | apply Keeps.via (writeStaged_keeps _ _ _ _)
      | apply Keeps.via (writePlain_keeps _ _ _ _)
      | apply Keeps.ite
      | split

theorem execBlkLock_keeps (q : Requester) (block : Nat) (d : BitVec 32) (s : State) :
    KeepsOut (Part.regs ||| Part.latches ||| Part.log ||| Part.records ||| Part.queues ||| Part.clusters ||| Part.scores ||| Part.hurdles ||| Part.hub ||| Part.coll) s (execBlkLock q block d s) := by
  unfold execBlkLock
  repeat' with_reducible first
      | apply Keeps.refl | assumption | (apply Part.named; decide)
      | apply Keeps.next
      | apply Keeps.via (writeReg_keeps _ _ _ _)
      | apply Keeps.via (regBusError_keeps _ _ _ _)
      | apply Keeps.ite
      | apply KeepsOut.ite

theorem execAfBar2BaseApply_keeps (d : BitVec 32) (s : State) :
    KeepsOut (Part.regs ||| Part.latches ||| Part.log ||| Part.records ||| Part.queues ||| Part.clusters ||| Part.scores ||| Part.hurdles ||| Part.hub ||| Part.coll) s (execAfBar2BaseApply d s) := by
  unfold execAfBar2BaseApply
  repeat' with_reducible first
      | apply Keeps.refl | assumption | (apply Part.named; decide)
      | apply Keeps.next
      | apply Keeps.via (writeReg_keeps _ _ _ _)

theorem bar2Error_keeps (f off : Nat) (read : Bool) (s : State) :
    Keeps (Part.regs ||| Part.log ||| Part.records) s (bar2Error f off read s) := by
  unfold bar2Error
  repeat' with_reducible first
      | apply Keeps.refl | assumption | (apply Part.named; decide)
      | (extract_lets +onlyGivenNames x; first | (refine keepsLet (x := x) ?_ ?_; (on_goal 2 => (clear_value x; intro _)); (on_goal 1 => (unfold x; clear x))) | skip)
      | apply Keeps.via (addReg_keeps _ _ _)
      | apply Keeps.via (report_keeps _ _ _ _ _)
      | apply Keeps.via (emit_keeps _ _)
      | apply Keeps.ite

theorem bar2Read_keeps (fn off size : Nat) (s : State) :
    Keeps (Part.regs ||| Part.memory ||| Part.frees ||| Part.log ||| Part.records ||| Part.towers ||| Part.stacks ||| Part.hub) s (bar2Read fn off size s) := by
  unfold bar2Read
  repeat' with_reducible first
      | apply Keeps.refl | assumption | (apply Part.named; decide)
      | (extract_lets +onlyGivenNames x; first | (refine keepsLet (x := x) ?_ ?_; (on_goal 2 => (clear_value x; intro _)); (on_goal 1 => (unfold x; clear x))) | skip)
      | apply Keeps.via (bar2Error_keeps _ _ _ _)
      | apply Keeps.via (bumpFree_keeps _)
      | apply Keeps.via (emit_keeps _ _)
      | apply Keeps.via (busError_keeps _ _ _)
      | apply Keeps.via (readError_keeps _ _ _)
      | apply Keeps.ite
      | split

theorem bar2Write_keeps (fn off : Nat) (l : List Byte) (s : State) :
    Keeps (Part.regs ||| Part.memory ||| Part.log ||| Part.records ||| Part.stacks) s (bar2Write fn off l s) := by
  unfold bar2Write
  repeat' with_reducible first
      | apply Keeps.refl | assumption | (apply Part.named; decide)
      | apply Keeps.via (bar2Error_keeps _ _ _ _)
      | apply Keeps.via (writeSpan_keeps _ _ _ _ _)
      | (apply keepsEq (fun r => r.s) (writeSpan_keeps _ _ _ _ _); on_goal 1 => assumption)
      | apply Keeps.via (Wrote.start_keeps _)
      | apply Keeps.via (busError_keeps _ _ _)
      | (extract_lets +onlyGivenNames x; first | (refine keepsLet (x := x) ?_ ?_; (on_goal 2 => (clear_value x; intro _)); (on_goal 1 => (unfold x; clear x))) | skip)
      | apply Keeps.ite
      | apply Keeps.foldl_via
      | intro _
      | split

theorem execBar2Access_keeps (fn : Fin 65) (off size : Nat) (write : Option (List (BitVec 8))) (s : State) :
    KeepsOut (Part.regs ||| Part.memory ||| Part.frees ||| Part.log ||| Part.records ||| Part.towers ||| Part.stacks ||| Part.hub) s (execBar2Access fn off size write s) := by
  unfold execBar2Access
  repeat' with_reducible first
      | apply Keeps.refl | assumption | (apply Part.named; decide)
      | apply Keeps.next
      | apply Keeps.via (bar2Read_keeps _ _ _ _)
      | apply Keeps.via (bar2Write_keeps _ _ _ _)
      | split

theorem execResizableBarSelect_keeps (fn : Fin 65) (gib : Nat) (s : State) : KeepsOut Part.queues s (execResizableBarSelect fn gib s) := by
  unfold execResizableBarSelect
  repeat' with_reducible first
      | apply Keeps.refl | assumption | (apply Part.named; decide)
      | apply Keeps.next
      | apply Keeps.via (modFn_keeps _ _ _)
      | apply Keeps.ite
      | apply KeepsOut.ite
      | apply Keeps.foldl_via
      | intro _

theorem execVfEnableSet_keeps (numVfs : Fin 65) (s : State) : KeepsOut Part.queues s (execVfEnableSet numVfs s) := by
  unfold execVfEnableSet
  repeat' with_reducible first
      | apply Keeps.refl | assumption | (apply Part.named; decide)
      | apply Keeps.next
      | apply Keeps.via (modFn_keeps _ _ _)
      | apply Keeps.foldl_via
      | intro _

end Sys2Proof.Machine
end

