-- ==== Sys2Proof/Laws/KeepDomains.lean ====
section
/-!
SUPPORT. What each operation and meaning of Machine/Domains.lean keeps (Laws/Keep.lean).
-/
namespace Sys2Proof.Machine

theorem modClu_keeps (c : Nat) (g : CluPower → CluPower) (s : State) : Keeps Part.sup s (modClu c g s) := by
  unfold modClu
  repeat' with_reducible first
      | apply Keeps.refl | assumption | (apply Part.named; decide)
      | fail_if_no_progress (apply Keeps.via (Keeps.putSup _ _))

theorem modTow_keeps (t : Nat) (g : TowerPower → TowerPower) (s : State) : Keeps Part.sup s (modTow t g s) := by
  unfold modTow
  repeat' with_reducible first
      | apply Keeps.refl | assumption | (apply Part.named; decide)
      | fail_if_no_progress (apply Keeps.via (Keeps.putSup _ _))

theorem modSup_keeps (g : Supervisor → Supervisor) (s : State) : Keeps Part.sup s (modSup g s) := by
  unfold modSup
  repeat' with_reducible first
      | apply Keeps.refl | assumption | (apply Part.named; decide)
      | fail_if_no_progress (apply Keeps.via (Keeps.putSup _ _))

theorem setVolt_keeps (n mv : Nat) (s : State) : Keeps Part.regs s (setVolt n mv s) := by
  unfold setVolt
  repeat' with_reducible first
      | apply Keeps.refl | assumption | (apply Part.named; decide)
      | apply Keeps.via (setB_keeps _ _ _ _)
      | apply Keeps.via (setF_keeps _ _ _ _ _)
      | apply Keeps.ite

theorem changeM_keeps (c i : Nat) (s : State) : Keeps (Part.regs ||| Part.sup) s (changeM c i s) := by
  unfold changeM
  repeat' with_reducible first
      | apply Keeps.refl | assumption | (apply Part.named; decide)
      | (extract_lets +onlyGivenNames x; first | (refine keepsLet (x := x) ?_ ?_; (on_goal 2 => (clear_value x; intro _)); (on_goal 1 => (unfold x; clear x))) | skip)
      | apply Keeps.via (modClu_keeps _ _ _)
      | apply Keeps.via (setF_keeps _ _ _ _ _)

theorem clusterOff_keeps (c : Nat) (s : State) : Keeps (Part.regs ||| Part.memory ||| Part.sup) s (clusterOff c s) := by
  unfold clusterOff
  repeat' with_reducible first
      | apply Keeps.refl | assumption | (apply Part.named; decide)
      | (extract_lets +onlyGivenNames x; first | (refine keepsLet (x := x) ?_ ?_; (on_goal 2 => (clear_value x; intro _)); (on_goal 1 => (unfold x; clear x))) | skip)
      | apply Keeps.via (setB_keeps _ _ _ _)
      | apply Keeps.via (modClu_keeps _ _ _)
      | apply Keeps.via (zeroRange_keeps _ _ _)

theorem clusterOn_keeps (c : Nat) (s : State) : Keeps (Part.regs ||| Part.sup) s (clusterOn c s) := by
  unfold clusterOn
  repeat' with_reducible first
      | apply Keeps.refl | assumption | (apply Part.named; decide)
      | (extract_lets +onlyGivenNames x; first | (refine keepsLet (x := x) ?_ ?_; (on_goal 2 => (clear_value x; intro _)); (on_goal 1 => (unfold x; clear x))) | skip)
      | apply Keeps.via (changeM_keeps _ _ _)
      | apply Keeps.via (setB_keeps _ _ _ _)
      | apply Keeps.via (setF_keeps _ _ _ _ _)
      | apply Keeps.via (modClu_keeps _ _ _)

end Sys2Proof.Machine
end

