-- ==== Sys2Proof/Laws/KeepUnits.lean ====
section
/-!
SUPPORT. What each operation and meaning of Machine/Units.lean keeps (Laws/Keep.lean).
-/
namespace Sys2Proof.Machine

theorem logGran_keeps (k : Nat) (acc : Acc) (t : Touch) (a : Nat) (s : State) : Keeps Part.clusters s (logGran k acc t a s) := by
  unfold logGran
  repeat' with_reducible first
      | apply Keeps.refl | assumption | (apply Part.named; decide)
      | (extract_lets +onlyGivenNames x; first | (refine keepsLet (x := x) ?_ ?_; (on_goal 2 => (clear_value x; intro _)); (on_goal 1 => (unfold x; clear x))) | skip)
      | split
      | fail_if_no_progress (apply Keeps.via (Keeps.putWritten _ _))

theorem noteGran_keeps (k : Nat) (acc : Acc) (write first : Bool) (d : Nat) (s : State) : Keeps (Part.regs ||| Part.clusters) s (noteGran k acc write first d s) := by
  unfold noteGran
  repeat' with_reducible first
      | apply Keeps.refl | assumption | (apply Part.named; decide)
      | apply Keeps.via (addReg_keeps _ _ _)
      | apply Keeps.via (noteLine_keeps _ _ _ _)
      | apply Keeps.ite
      | split

theorem noteSpan_keeps (k : Nat) (acc : Acc) (write : Bool) (unit a n : Nat) (s : State) : Keeps (Part.regs ||| Part.clusters) s (noteSpan k acc write unit a n s) := by
  unfold noteSpan
  repeat' with_reducible first
      | apply Keeps.refl | assumption | (apply Part.named; decide)
      | (extract_lets +onlyGivenNames x; first | (refine keepsLet (x := x) ?_ ?_; (on_goal 2 => (clear_value x; intro _)); (on_goal 1 => (unfold x; clear x))) | skip)
      | apply Keeps.via (noteGran_keeps _ _ _ _ _ _)
      | apply Keeps.ite
      | split
      | apply Keeps.foldl_via
      | intro _

theorem coreWrite_keeps (k a : Nat) (bytes : List Byte) (blot : Bool) (w : Wrote) :
    Keeps (Part.regs ||| Part.memory ||| Part.records ||| Part.clusters ||| Part.stacks) w.s (coreWrite k a bytes blot w).s := by
  unfold coreWrite
  repeat' with_reducible first
      | apply Keeps.refl | assumption | (apply Part.named; decide)
      | (extract_lets +onlyGivenNames x; first | (refine keepsLet (x := x) ?_ ?_; (on_goal 2 => (clear_value x; intro _)); (on_goal 1 => (unfold x; clear x))) | skip)
      | apply Keeps.via (writeSpan_keeps _ _ _ _ _)
      | (apply keepsEq (fun r => r.s) (writeSpan_keeps _ _ _ _ _); on_goal 1 => assumption)
      | apply Keeps.via (logGran_keeps _ _ _ _ _)
      | apply Keeps.via (noteSpan_keeps _ _ _ _ _ _ _)
      | apply Keeps.ite
      | apply Keeps.foldl_via
      | intro _

theorem blotWritten_keeps (p : Nat → Bool) (s : State) : Keeps (Part.memory ||| Part.jobs ||| Part.clusters) s (blotWritten p s) := by
  have h : ∀ (l : List (Nat × List Nat)) (b : List (Nat × Bool)), kvWf (fun _ => false) b = true →
      kvWf (fun _ => false) (l.foldl (fun b e => kvPut (fun _ => false) b e.1 true) b) = true :=
    fun l b => kvWf_foldl _ _ (fun m e h => kvWf_kvPut _ _ h) l b
  unfold blotWritten
  extract_lets hit s1 s2 mark
  have h1 : Keeps (Part.memory ||| Part.jobs ||| Part.clusters) s s1 :=
    (Keeps.stores s s.mem _ s.uncorr id (h hit s.blots) id).mono (by decide)
  have h2 : Keeps (Part.memory ||| Part.jobs ||| Part.clusters) s s2 :=
    Keeps.foldl_via (fun _ _ => (noteBlots_keeps _ _ _).mono (by decide)) h1
  exact h2.trans ((Keeps.putClusters _ _).mono (by decide))

theorem forgetWritten_keeps (p : Nat → Bool) (s : State) : Keeps Part.clusters s (forgetWritten p s) := by
  unfold forgetWritten
  repeat' with_reducible first
      | apply Keeps.refl | assumption | (apply Part.named; decide)
      | fail_if_no_progress (apply Keeps.via (Keeps.putWritten _ _))

theorem setMap_keeps (c kind i p : Nat) (s : State) : Keeps Part.regs s (setMap c kind i p s) := by
  unfold setMap
  repeat' with_reducible first
      | apply Keeps.refl | assumption | (apply Part.named; decide)
      | apply Keeps.via (setF_keeps _ _ _ _ _)
      | apply Keeps.ite

theorem freshCore_keeps (c kind i : Nat) (s : State) :
    Keeps (Part.clusters ||| Part.bases ||| Part.mcores ||| Part.vcores) s (freshCore c kind i s) := by
  unfold freshCore
  repeat' with_reducible first
      | apply Keeps.refl | assumption | (apply Part.named; decide)
      | (extract_lets +onlyGivenNames x; first | (refine keepsLet (x := x) ?_ ?_; (on_goal 2 => (clear_value x; intro _)); (on_goal 1 => (unfold x; clear x))) | skip)
      | apply Keeps.via (modV_keeps _ _ _)
      | apply Keeps.via (modRunner_keeps _ _ _)
      | apply Keeps.ite
      | apply Keeps.foldl_via
      | intro _
      | (fail_if_no_progress (apply Keeps.via (Keeps.rest (m := (Part.clusters ||| Part.bases ||| Part.mcores ||| Part.vcores)) ..)) <;> first | exact Or.inr rfl | exact Or.inl rfl | skip)
      | fail_if_no_progress (apply Keeps.via (Keeps.putMcores _ _))
      | fail_if_no_progress (apply Keeps.via (Keeps.putAbase _ _))
      | fail_if_no_progress (apply Keeps.via (Keeps.putAbtag _ _))

theorem moveCores_keeps (c : Nat) (s : State) :
    Keeps (Part.regs ||| Part.clusters ||| Part.bases ||| Part.mcores ||| Part.vcores) s (moveCores c s) := by
  unfold moveCores
  repeat' with_reducible first
      | apply Keeps.refl | assumption | (apply Part.named; decide)
      | apply Keeps.via (freshCore_keeps _ _ _ _)
      | apply Keeps.via (setMap_keeps _ _ _ _ _)
      | apply Keeps.ite
      | apply Keeps.foldl_via
      | intro _
      | split

theorem setFences_keeps (l : List Nat) (s : State) : Keeps (Part.regs ||| Part.memory ||| Part.sup) s (setFences l s) := by
  unfold setFences
  repeat' with_reducible first
      | apply Keeps.refl | assumption | (apply Part.named; decide)
      | (extract_lets +onlyGivenNames x; first | (refine keepsLet (x := x) ?_ ?_; (on_goal 2 => (clear_value x; intro _)); (on_goal 1 => (unfold x; clear x))) | skip)
      | apply Keeps.via (setReg64_keeps _ _ _)
      | apply Keeps.via (clusterOff_keeps _ _)
      | apply Keeps.via (clusterOn_keeps _ _)
      | apply Keeps.ite
      | apply Keeps.foldl_via
      | intro _

theorem retireJob_keeps (c : Nat) (s : State) : Keeps (Part.regs ||| Part.log ||| Part.jobs) s (retireJob c s) := by
  unfold retireJob
  repeat' with_reducible first
      | apply Keeps.refl | assumption | (apply Part.named; decide)
      | (extract_lets +onlyGivenNames x; first | (refine keepsLet (x := x) ?_ ?_; (on_goal 2 => (clear_value x; intro _)); (on_goal 1 => (unfold x; clear x))) | skip)
      | apply Keeps.via (signal_keeps _ _ _)
      | apply Keeps.ite
      | split
      | fail_if_no_progress (apply Keeps.via (Keeps.putJobs _ _))

theorem idleFences_keeps (s : State) : Keeps (Part.regs ||| Part.memory ||| Part.sup) s (idleFences s) := by
  unfold idleFences
  repeat' with_reducible first
      | apply Keeps.refl | assumption | (apply Part.named; decide)
      | (extract_lets +onlyGivenNames x; first | (refine keepsLet (x := x) ?_ ?_; (on_goal 2 => (clear_value x; intro _)); (on_goal 1 => (unfold x; clear x))) | skip)
      | apply Keeps.via (setFences_keeps _ _)
      | apply Keeps.ite

theorem leaveVi_keeps (c : Nat) (s : State) : Keeps Part.regs s (leaveVi c s) := by
  unfold leaveVi
  repeat' with_reducible first
      | apply Keeps.refl | assumption | (apply Part.named; decide)
      | (extract_lets +onlyGivenNames x; first | (refine keepsLet (x := x) ?_ ?_; (on_goal 2 => (clear_value x; intro _)); (on_goal 1 => (unfold x; clear x))) | skip)
      | apply Keeps.via (setB_keeps _ _ _ _)
      | apply Keeps.via (setReg64_keeps _ _ _)
      | apply Keeps.ite

theorem retireCluster_keeps (c source : Nat) (s : State) :
    Keeps (Part.regs ||| Part.memory ||| Part.log ||| Part.records ||| Part.jobs ||| Part.clusters ||| Part.hub ||| Part.sup) s (retireCluster c source s) := by
  unfold retireCluster
  repeat' with_reducible first
      | apply Keeps.refl | assumption | (apply Part.named; decide)
      | (extract_lets +onlyGivenNames x; first | (refine keepsLet (x := x) ?_ ?_; (on_goal 2 => (clear_value x; intro _)); (on_goal 1 => (unfold x; clear x))) | skip)
      | apply Keeps.via (setReg64_keeps _ _ _)
      | apply Keeps.via (setB_keeps _ _ _ _)
      | apply Keeps.via (report_keeps _ _ _ _ _)
      | apply Keeps.via (softFuse_keeps _ _ _ _)
      | apply Keeps.via (blotWritten_keeps _ _)
      | apply Keeps.via (modCluster_keeps _ _ _)
      | apply Keeps.via (leaveVi_keeps _ _)
      | apply Keeps.via (retireJob_keeps _ _)
      | apply Keeps.via (setFences_keeps _ _)
      | apply Keeps.via (declareOut_keeps _ _)
      | apply Keeps.via (clusterOff_keeps _ _)
      | apply Keeps.via (idleFences_keeps _)
      | apply Keeps.ite

theorem coreFailed_keeps (c kind phys source : Nat) (s : State) :
    Keeps (Part.regs ||| Part.memory ||| Part.log ||| Part.records ||| Part.jobs ||| Part.clusters ||| Part.bases ||| Part.mcores ||| Part.vcores ||| Part.hub ||| Part.sup) s (coreFailed c kind phys source s) := by
  unfold coreFailed
  repeat' with_reducible first
      | apply Keeps.refl | assumption | (apply Part.named; decide)
      | (extract_lets +onlyGivenNames x; first | (refine keepsLet (x := x) ?_ ?_; (on_goal 2 => (clear_value x; intro _)); (on_goal 1 => (unfold x; clear x))) | (have y : Option _ := x; clear y; clear_value (h : x = _)))
      | apply Keeps.via (setB_keeps _ _ _ _)
      | apply Keeps.via (softFuse_keeps _ _ _ _)
      | apply Keeps.via (modHub_keeps _ _)
      | apply Keeps.via (report_keeps _ _ _ _ _)
      | apply Keeps.via (retireCluster_keeps _ _ _)
      | apply Keeps.via (blotWritten_keeps _ _)
      | apply Keeps.via (modRunner_keeps _ _ _)
      | apply Keeps.via (moveCores_keeps _ _)
      | apply Keeps.viaH (byFirmware_keeps _ _ _ ?_ ?_)
      | intro _
      | apply Keeps.ite
      | apply Keeps.foldl_via
      | intro _
      | split

theorem coreEvent_keeps (c kind phys : Nat) (s : State) :
    Keeps (Part.regs ||| Part.memory ||| Part.log ||| Part.records ||| Part.jobs ||| Part.clusters ||| Part.bases ||| Part.mcores ||| Part.vcores ||| Part.hub ||| Part.sup) s (coreEvent c kind phys s) := by
  unfold coreEvent
  repeat' with_reducible first
      | apply Keeps.refl | assumption | (apply Part.named; decide)
      | (extract_lets +onlyGivenNames x; first | (refine keepsLet (x := x) ?_ ?_; (on_goal 2 => (clear_value x; intro _)); (on_goal 1 => (unfold x; clear x))) | skip)
      | apply Keeps.via (noteEvent_keeps _ _)
      | (apply keepsEq2 (noteEvent_keeps _ _); on_goal 1 => assumption)
      | apply Keeps.via (coreFailed_keeps _ _ _ _ _)
      | apply Keeps.ite

end Sys2Proof.Machine
end

