-- ==== Sys2Proof/Laws/KeepQuill.lean ====
section
/-!
SUPPORT. What each operation and meaning of Machine/Quill.lean keeps (Laws/Keep.lean).
-/
namespace Sys2Proof.Machine

theorem settleAll_keeps (c : Nat) (s : State) : Keeps (Part.regs ||| Part.records ||| Part.clusters ||| Part.scores) s (settleAll c s) := by
  unfold settleAll
  repeat' with_reducible first
      | apply Keeps.refl | assumption | (apply Part.named; decide)
      | (extract_lets +onlyGivenNames x; first | (refine keepsLet (x := x) ?_ ?_; (on_goal 2 => (clear_value x; intro _)); (on_goal 1 => (unfold x; clear x))) | skip)
      | apply Keeps.via (settleSkip_keeps _ _ _)
      | apply Keeps.foldl_via
      | intro _

theorem turnAhead_keeps (sc : Schedule) (j : Job) (s : State) : Keeps Part.clusters s (turnAhead sc j s) := by
  unfold turnAhead
  repeat' with_reducible first
      | apply Keeps.refl | assumption | (apply Part.named; decide)
      | apply Keeps.via (modRunner_keeps _ _ _)
      | apply Keeps.ite
      | split
      | apply Keeps.foldl_via
      | intro _

theorem fetchRow_keeps (k : Nat) (x : Stream) (s : State) : Keeps Part.clusters s (fetchRow k x s) := by
  unfold fetchRow
  repeat' with_reducible first
      | apply Keeps.refl | assumption | (apply Part.named; decide)
      | (extract_lets +onlyGivenNames x; first | (refine keepsLet (x := x) ?_ ?_; (on_goal 2 => (clear_value x; intro _)); (on_goal 1 => (unfold x; clear x))) | skip)
      | apply Keeps.via (modRunner_keeps _ _ _)

theorem execQuillFetch_keeps (c : Fin 64) (s : State) :
    KeepsOut (Part.regs ||| Part.records ||| Part.clusters ||| Part.scores) s (execQuillFetch c s) := by
  unfold execQuillFetch
  repeat' with_reducible first
      | apply Keeps.refl | assumption | (apply Part.named; decide)
      | apply Keeps.next
      | (extract_lets +onlyGivenNames x; first | (refine keepsLet (x := x) ?_ ?_; (on_goal 2 => (clear_value x; intro _)); (on_goal 1 => (unfold x; clear x))) | (refine keepsLetO (x := x) ?_ ?_; (on_goal 2 => (clear_value x; intro _)); (on_goal 1 => (unfold x; clear x))) | skip)
      | apply Keeps.via (fetchRow_keeps _ _ _)
      | apply Keeps.via (settleAll_keeps _ _)
      | apply Keeps.via (modCluster_keeps _ _ _)
      | apply Keeps.via (turnAhead_keeps _ _ _)
      | apply Keeps.via (addReg_keeps _ _ _)
      | split

theorem nopEffect_keeps (u0 : Nat) (u1 : StrokeWord) (s : State) : KeepsOpt 0 (fun r => r.s) s (nopEffect u0 u1 s) := by
  unfold nopEffect
  repeat' with_reducible first
      | apply Keeps.refl | assumption | (apply Part.named; decide)
      | apply KeepsOpt.some

theorem lapEndEffect_keeps (k : Nat) (u0 : StrokeWord) (s : State) : KeepsOpt Part.clusters (fun r => r.s) s (lapEndEffect k u0 s) := by
  unfold lapEndEffect
  repeat' with_reducible first
      | apply Keeps.refl | assumption | (apply Part.named; decide)
      | apply KeepsOpt.some
      | apply Keeps.via (modRunner_keeps _ _ _)

theorem delayEffect_keeps (u0 : Nat) (u1 : StrokeWord) (s : State) : KeepsOpt 0 (fun r => r.s) s (delayEffect u0 u1 s) := by
  unfold delayEffect
  repeat' with_reducible first
      | apply Keeps.refl | assumption | (apply Part.named; decide)
      | apply KeepsOpt.some

theorem landBase_keeps (f : Flight) (s : State) : Keeps Part.bases s (landBase f s) := by
  unfold landBase
  repeat' with_reducible first
      | apply Keeps.refl | assumption | (apply Part.named; decide)
      | apply Keeps.via (setAb_keeps _ _ _ _ _)
      | split

theorem strokeDone_keeps (k i : Nat) (f : Flight) (s : State) :
    Keeps (Part.regs ||| Part.records ||| Part.clusters ||| Part.bases ||| Part.scores) s (strokeDone k i f s) := by
  unfold strokeDone
  repeat' with_reducible first
      | apply Keeps.refl | assumption | (apply Part.named; decide)
      | (extract_lets +onlyGivenNames x; first | (refine keepsLet (x := x) ?_ ?_; (on_goal 2 => (clear_value x; intro _)); (on_goal 1 => (unfold x; clear x))) | skip)
      | apply Keeps.via (trace_keeps _ _ _ _ _)
      | apply Keeps.via (modRunner_keeps _ _ _)
      | apply Keeps.via (modCluster_keeps _ _ _)
      | apply Keeps.via (settleAll_keeps _ _)
      | apply Keeps.via (signalMark_keeps _ _ _)
      | apply Keeps.via (landBase_keeps _ _)
      | apply Keeps.ite

theorem execStrokeComplete_keeps (r : RunnerRef) (i : Nat) (s : State) :
    KeepsOut (Part.regs ||| Part.records ||| Part.clusters ||| Part.bases ||| Part.scores) s (execStrokeComplete r i s) := by
  unfold execStrokeComplete
  repeat' with_reducible first
      | apply Keeps.refl | assumption | (apply Part.named; decide)
      | apply Keeps.next
      | apply Keeps.via (strokeDone_keeps _ _ _ _)
      | apply Keeps.ite
      | apply KeepsOut.ite
      | split

end Sys2Proof.Machine
end

