-- ==== Sys2Proof/Laws/KeepStream.lean ====
section
/-!
SUPPORT. What each operation and meaning of Machine/Stream.lean keeps (Laws/Keep.lean).
-/
namespace Sys2Proof.Machine

theorem countPoison_keeps (acc : Acc) (a : Nat) (blot : Bool) (s : State) : Keeps Part.regs s (countPoison acc a blot s) := by
  unfold countPoison
  repeat' with_reducible first
      | apply Keeps.refl | assumption | (apply Part.named; decide)
      | apply Keeps.via (addReg_keeps _ _ _)
      | apply Keeps.ite
      | split

theorem readT_keeps (acc : Acc) (a n : Nat) (blot : Bool) (s : State) : Keeps (Part.regs ||| Part.memory ||| Part.records ||| Part.towers ||| Part.stacks ||| Part.hub) s (readT acc a n blot s).s := by
  unfold readT
  repeat' with_reducible first
      | apply Keeps.refl | assumption | (apply Part.named; decide)
      | (extract_lets +onlyGivenNames x; first | (refine keepsLet (x := x) ?_ ?_; (on_goal 2 => (clear_value x; intro _)); (on_goal 1 => (unfold x; clear x))) | skip)
      | apply Keeps.via (countPoison_keeps _ _ _ _)
      | apply Keeps.via (busError_keeps _ _ _)
      | apply Keeps.via (readError_keeps _ _ _)
      | apply Keeps.ite
      | apply Keeps.foldl_via
      | intro _

theorem coreReadAs_keeps (acc : Acc) (k a n : Nat) (blot : Bool) (s : State) :
    Keeps (Part.regs ||| Part.memory ||| Part.records ||| Part.clusters ||| Part.towers ||| Part.stacks ||| Part.hub) s (coreReadAs acc k a n blot s).s := by
  unfold coreReadAs
  exact ((readT_keeps _ _ _ _ _).mono (by decide)).trans ((noteSpan_keeps _ _ _ _ _ _ _).mono (by decide))

theorem coreRead_keeps (k a n : Nat) (blot : Bool) (s : State) :
    Keeps (Part.regs ||| Part.memory ||| Part.records ||| Part.clusters ||| Part.towers ||| Part.stacks ||| Part.hub) s (coreRead k a n blot s).s :=
  coreReadAs_keeps _ _ _ _ _ _

theorem writeT_keeps (acc : Acc) (a : Nat) (l : List TByte) (blot : Bool) (w : Wrote) :
    Keeps (Part.regs ||| Part.memory ||| Part.records ||| Part.stacks) w.s (writeT acc a l blot w).s := by
  unfold writeT
  repeat' with_reducible first
      | apply Keeps.refl | assumption | (apply Part.named; decide)
      | (extract_lets +onlyGivenNames x; first | (refine keepsLet (x := x) ?_ ?_; (on_goal 2 => (clear_value x; intro _)); (on_goal 1 => (unfold x; clear x))) | skip)
      | apply Keeps.via (writeGran_keeps _ _ _ _ _)
      | (apply keepsEq (fun r => r.s) (writeGran_keeps _ _ _ _ _); on_goal 1 => assumption)
      | apply Keeps.ite
      | apply Keeps.foldlW_via
      | intro _

theorem coreWriteAs_keeps (acc : Acc) (k a : Nat) (l : List TByte) (blot : Bool) (w : Wrote) :
    Keeps (Part.regs ||| Part.memory ||| Part.records ||| Part.clusters ||| Part.stacks) w.s (coreWriteAs acc k a l blot w).s := by
  unfold coreWriteAs
  repeat' with_reducible first
      | apply Keeps.refl | assumption | (apply Part.named; decide)
      | (extract_lets +onlyGivenNames x; first | (refine keepsLet (x := x) ?_ ?_; (on_goal 2 => (clear_value x; intro _)); (on_goal 1 => (unfold x; clear x))) | skip)
      | apply Keeps.via (writeT_keeps _ _ _ _ _)
      | (apply keepsEq (fun r => r.s) (writeT_keeps _ _ _ _ _); on_goal 1 => assumption)
      | apply Keeps.via (logGran_keeps _ _ _ _ _)
      | apply Keeps.via (noteSpan_keeps _ _ _ _ _ _ _)
      | apply Keeps.foldl_via
      | intro _

theorem coreWriteT_keeps (k a : Nat) (l : List TByte) (blot : Bool) (w : Wrote) :
    Keeps (Part.regs ||| Part.memory ||| Part.records ||| Part.clusters ||| Part.stacks) w.s (coreWriteT k a l blot w).s := by
  unfold coreWriteT
  repeat' with_reducible first
      | apply Keeps.refl | assumption | (apply Part.named; decide)
      | apply Keeps.via (coreWriteAs_keeps _ _ _ _ _ _)
      | (apply keepsEq (fun r => r.s) (coreWriteAs_keeps _ _ _ _ _ _); on_goal 1 => assumption)

theorem refuseWrite_keeps (k a : Nat) (w : Wrote) : Keeps Part.records w.s (refuseWrite k a w).s := by
  unfold refuseWrite
  repeat' with_reducible first
      | apply Keeps.refl | assumption | (apply Part.named; decide)
      | apply Keeps.via (report_keeps _ _ _ _ _)

theorem takeBytes_keeps (c ch n : Nat) (s : State) : KeepsOpt Part.clusters (fun r => r.2) s (takeBytes c ch n s) := by
  unfold takeBytes
  repeat' with_reducible first
      | apply Keeps.refl | assumption | (apply Part.named; decide)
      | (apply KeepsOpt.get2 (takeRing_keeps _ _ _ _); on_goal 1 => assumption)
      | (apply KeepsOpt.get (takeRing_keeps _ _ _ _); on_goal 1 => assumption)
      | apply KeepsOpt.mapVia (takeRing_keeps _ _ _ _)
      | intro _

theorem pushBytes_keeps (k ch : Nat) (relay : Bool) (l : List TByte) (s : State) :
    KeepsOpt Part.clusters (fun r => r) s (pushBytes k ch relay l s) := by
  unfold pushBytes
  repeat' with_reducible first
      | apply Keeps.refl | assumption | (apply Part.named; decide)
      | (extract_lets +onlyGivenNames x; first | (refine keepsLet (x := x) ?_ ?_; (on_goal 2 => (clear_value x; intro _)); (on_goal 1 => (unfold x; clear x))) | skip)
      | (apply KeepsOpt.get (pushRing_keeps _ _ _ _ _); on_goal 1 => assumption)
      | apply KeepsOpt.via (pushRing_keeps _ _ _ _ _)

theorem countAtomic_keeps (d code : Nat) (s : State) : Keeps Part.regs s (countAtomic d code s) := by
  unfold countAtomic
  repeat' with_reducible first
      | apply Keeps.refl | assumption | (apply Part.named; decide)
      | (extract_lets +onlyGivenNames x; first | (refine keepsLet (x := x) ?_ ?_; (on_goal 2 => (clear_value x; intro _)); (on_goal 1 => (unfold x; clear x))) | skip)
      | apply Keeps.via (addReg_keeps _ _ _)
      | apply Keeps.ite
      | split

theorem atomicGran_keeps (acc : Acc) (a code : Nat) (words : List (Option Word)) (blot : Bool) (w : Wrote) :
    Keeps (Part.regs ||| Part.memory ||| Part.records ||| Part.towers ||| Part.stacks ||| Part.hub) w.s (atomicGran acc a code words blot w).w.s := by
  unfold atomicGran
  repeat' with_reducible first
      | apply Keeps.refl | assumption | (apply Part.named; decide)
      | (extract_lets +onlyGivenNames x; first | (refine keepsLet (x := x) ?_ ?_; (on_goal 2 => (clear_value x; intro _)); (on_goal 1 => (unfold x; clear x))) | skip)
      | apply Keeps.via (busError_keeps _ _ _)
      | apply Keeps.via (report_keeps _ _ _ _ _)
      | apply Keeps.via (storeGran_keeps _ _ _ _)
      | apply Keeps.via (countAtomic_keeps _ _ _)
      | apply Keeps.via (readError_keeps _ _ _)
      | apply Keeps.ite
      | split

theorem coreAtomicAs_keeps (acc : Acc) (k a code : Nat) (words : List (Option Word)) (blot : Bool) (w : Wrote) :
    Keeps (Part.regs ||| Part.memory ||| Part.records ||| Part.clusters ||| Part.towers ||| Part.stacks ||| Part.hub) w.s (coreAtomicAs acc k a code words blot w).w.s := by
  unfold coreAtomicAs
  repeat' with_reducible first
      | apply Keeps.refl | assumption | (apply Part.named; decide)
      | (extract_lets +onlyGivenNames x; first | (refine keepsLet (x := x) ?_ ?_; (on_goal 2 => (clear_value x; intro _)); (on_goal 1 => (unfold x; clear x))) | skip)
      | apply Keeps.via (atomicGran_keeps _ _ _ _ _ _)
      | (apply keepsEq (fun r => r.w.s) (atomicGran_keeps _ _ _ _ _ _); on_goal 1 => assumption)
      | apply Keeps.via (logGran_keeps _ _ _ _ _)
      | apply Keeps.via (noteSpan_keeps _ _ _ _ _ _ _)

theorem coreAtomic_keeps (k a code : Nat) (words : List (Option Word)) (blot : Bool) (w : Wrote) :
    Keeps (Part.regs ||| Part.memory ||| Part.records ||| Part.clusters ||| Part.towers ||| Part.stacks ||| Part.hub) w.s (coreAtomic k a code words blot w).w.s := by
  unfold coreAtomic
  repeat' with_reducible first
      | apply Keeps.refl | assumption | (apply Part.named; decide)
      | apply Keeps.via (coreAtomicAs_keeps _ _ _ _ _ _ _)
      | (apply keepsEq (fun r => r.w.s) (coreAtomicAs_keeps _ _ _ _ _ _ _); on_goal 1 => assumption)

end Sys2Proof.Machine
end

