-- ==== Sys2Proof/Laws/KeepHome.lean ====
section
/-!
SUPPORT. What each operation and meaning of Machine/Home.lean keeps (Laws/Keep.lean).
-/
namespace Sys2Proof.Machine

theorem setDir_keeps (m line : Nat) (e : DirEntry) (s : State) : Keeps Part.stacks s (setDir m line e s) := by
  unfold setDir
  repeat' with_reducible first
      | apply Keeps.refl | assumption | (apply Part.named; decide)
      | apply Keeps.via (modStack_keeps _ _ _)

theorem freeDir_keeps (m line : Nat) (s : State) : Keeps Part.stacks s (freeDir m line s) := by
  unfold freeDir
  repeat' with_reducible first
      | apply Keeps.refl | assumption | (apply Part.named; decide)
      | apply Keeps.via (modStack_keeps _ _ _)

theorem touchDir_keeps (m line : Nat) (s : State) : Keeps Part.stacks s (touchDir m line s) := by
  unfold touchDir
  repeat' with_reducible first
      | apply Keeps.refl | assumption | (apply Part.named; decide)
      | apply Keeps.via (modStack_keeps _ _ _)

theorem grantLine_keeps (m t line st : Nat) (data : Bool) (s : State) : Keeps (Part.regs ||| Part.stacks) s (grantLine m t line st data s) := by
  unfold grantLine
  repeat' with_reducible first
      | apply Keeps.refl | assumption | (apply Part.named; decide)
      | (extract_lets +onlyGivenNames x; first | (refine keepsLet (x := x) ?_ ?_; (on_goal 2 => (clear_value x; intro _)); (on_goal 1 => (unfold x; clear x))) | skip)
      | apply Keeps.via (modStack_keeps _ _ _)
      | apply Keeps.via (setF_keeps _ _ _ _ _)

theorem outsideRead_keeps (fn addr : Nat) (s : State) : Keeps (Part.regs ||| Part.memory ||| Part.frees ||| Part.log ||| Part.records ||| Part.towers ||| Part.stacks ||| Part.hub) s (outsideRead fn addr s) := by
  unfold outsideRead
  repeat' with_reducible first
      | apply Keeps.refl | assumption | (apply Part.named; decide)
      | (extract_lets +onlyGivenNames x; first | (refine keepsLet (x := x) ?_ ?_; (on_goal 2 => (clear_value x; intro _)); (on_goal 1 => (unfold x; clear x))) | skip)
      | apply Keeps.via (readT_keeps _ _ _ _ _)
      | (apply keepsEq (fun r => r.s) (readT_keeps _ _ _ _ _); on_goal 1 => assumption)
      | apply Keeps.via (bumpFree_keeps _)
      | apply Keeps.via (emit_keeps _ _)

theorem serveWant_keeps (m line : Nat) (w : HomeWant) (keeps : List Nat) (s : State) :
    Keeps (Part.regs ||| Part.memory ||| Part.frees ||| Part.log ||| Part.records ||| Part.towers ||| Part.stacks ||| Part.hub) s (serveWant m line w keeps s) := by
  unfold serveWant
  repeat' with_reducible first
      | apply Keeps.refl | assumption | (apply Part.named; decide)
      | (extract_lets +onlyGivenNames x; first | (refine keepsLet (x := x) ?_ ?_; (on_goal 2 => (clear_value x; intro _)); (on_goal 1 => (unfold x; clear x))) | skip)
      | apply Keeps.via (grantLine_keeps _ _ _ _ _ _)
      | apply Keeps.via (setDir_keeps _ _ _ _)
      | apply Keeps.via (freeDir_keeps _ _ _)
      | apply Keeps.via (bumpFree_keeps _)
      | apply Keeps.via (emit_keeps _ _)
      | apply Keeps.via (busError_keeps _ _ _)
      | apply Keeps.via (writeSpan_keeps _ _ _ _ _)
      | (apply keepsEq (fun r => r.s) (writeSpan_keeps _ _ _ _ _); on_goal 1 => assumption)
      | apply Keeps.via (Wrote.start_keeps _)
      | apply Keeps.via (touchDir_keeps _ _ _)
      | apply Keeps.via (outsideRead_keeps _ _ _)
      | apply Keeps.via (addReg_keeps _ _ _)
      | apply Keeps.ite
      | split
      | apply Keeps.foldl_via
      | intro _

theorem askTowers_keeps (m line : Nat) (w : HomeWant) (left : List (Nat × Nat)) (keeps : List Nat) (s : State) :
    Keeps (Part.regs ||| Part.memory ||| Part.frees ||| Part.log ||| Part.records ||| Part.towers ||| Part.stacks ||| Part.hub) s (askTowers m line w left keeps s) := by
  unfold askTowers
  repeat' with_reducible first
      | apply Keeps.refl | assumption | (apply Part.named; decide)
      | (extract_lets +onlyGivenNames x; first | (refine keepsLet (x := x) ?_ ?_; (on_goal 2 => (clear_value x; intro _)); (on_goal 1 => (unfold x; clear x))) | skip)
      | apply Keeps.via (serveWant_keeps _ _ _ _ _)
      | apply Keeps.via (modStack_keeps _ _ _)
      | apply Keeps.via (addReg_keeps _ _ _)
      | apply Keeps.ite

theorem beginWant_keeps (m line : Nat) (w : HomeWant) (s : State) : Keeps (Part.regs ||| Part.memory ||| Part.frees ||| Part.log ||| Part.records ||| Part.towers ||| Part.stacks ||| Part.hub) s (beginWant m line w s) := by
  unfold beginWant
  repeat' with_reducible first
      | apply Keeps.refl | assumption | (apply Part.named; decide)
      | (extract_lets +onlyGivenNames x; first | (refine keepsLet (x := x) ?_ ?_; (on_goal 2 => (clear_value x; intro _)); (on_goal 1 => (unfold x; clear x))) | skip)
      | apply Keeps.via (serveWant_keeps _ _ _ _ _)
      | apply Keeps.via (modStack_keeps _ _ _)
      | apply Keeps.via (askTowers_keeps _ _ _ _ _ _)
      | apply Keeps.ite
      | split

theorem serveQueue_keeps (n m : Nat) (s : State) : Keeps (Part.regs ||| Part.memory ||| Part.frees ||| Part.log ||| Part.records ||| Part.towers ||| Part.stacks ||| Part.hub) s (serveQueue n m s) := by
  induction n generalizing s with
  | zero => exact Keeps.refl _ _
  | succ n ih =>
    rw [serveQueue]
    split
    · exact Keeps.refl _ _
    · exact (((modStack_keeps _ _ _).mono (by decide)).trans (beginWant_keeps _ _ _ _)).trans (ih _)

theorem homeGoesOn_keeps (m : Nat) (s : State) : Keeps (Part.regs ||| Part.memory ||| Part.frees ||| Part.log ||| Part.records ||| Part.towers ||| Part.stacks ||| Part.hub) s (homeGoesOn m s) :=
  serveQueue_keeps _ _ _

theorem homeRequest_keeps (m line : Nat) (w : HomeWant) (s : State) : Keeps (Part.regs ||| Part.memory ||| Part.frees ||| Part.log ||| Part.records ||| Part.towers ||| Part.stacks ||| Part.hub) s (homeRequest m line w s) := by
  unfold homeRequest
  repeat' with_reducible first
      | apply Keeps.refl | assumption | (apply Part.named; decide)
      | apply Keeps.via (homeGoesOn_keeps _ _)
      | apply Keeps.via (modStack_keeps _ _ _)

theorem towerMiss_keeps (m t line : Nat) (excl whole : Bool) (s : State) : Keeps (Part.regs ||| Part.memory ||| Part.frees ||| Part.log ||| Part.records ||| Part.towers ||| Part.stacks ||| Part.hub) s (towerMiss m t line excl whole s) := by
  unfold towerMiss
  repeat' with_reducible first
      | apply Keeps.refl | assumption | (apply Part.named; decide)
      | apply Keeps.via (homeRequest_keeps _ _ _ _)
      | apply Keeps.ite

theorem outsideAsk_keeps (m fn addr : Nat) (w : HomeWant) (s : State) : Keeps (Part.regs ||| Part.memory ||| Part.frees ||| Part.log ||| Part.records ||| Part.towers ||| Part.stacks ||| Part.hub) s (outsideAsk m fn addr w s) := by
  unfold outsideAsk
  repeat' with_reducible first
      | apply Keeps.refl | assumption | (apply Part.named; decide)
      | apply Keeps.via (homeRequest_keeps _ _ _ _)
      | apply Keeps.ite
      | split

theorem answer_keeps (m t line kind : Nat) (keep : Bool) (s : State) :
    Keeps (Part.regs ||| Part.memory ||| Part.frees ||| Part.log ||| Part.records ||| Part.towers ||| Part.stacks ||| Part.hub) s (answer m t line kind keep s) := by
  unfold answer
  repeat' with_reducible first
      | apply Keeps.refl | assumption | (apply Part.named; decide)
      | (extract_lets +onlyGivenNames x; first | (refine keepsLet (x := x) ?_ ?_; (on_goal 2 => (clear_value x; intro _)); (on_goal 1 => (unfold x; clear x))) | skip)
      | apply Keeps.via (modStack_keeps _ _ _)
      | apply Keeps.via (serveWant_keeps _ _ _ _ _)
      | apply Keeps.via (homeGoesOn_keeps _ _)
      | apply Keeps.ite
      | split

theorem takeBack_keeps (m t line : Nat) (s : State) : Keeps (Part.regs ||| Part.memory ||| Part.frees ||| Part.log ||| Part.records ||| Part.towers ||| Part.stacks ||| Part.hub) s (takeBack m t line s) := by
  unfold takeBack
  repeat' with_reducible first
      | apply Keeps.refl | assumption | (apply Part.named; decide)
      | (extract_lets +onlyGivenNames x; first | (refine keepsLet (x := x) ?_ ?_; (on_goal 2 => (clear_value x; intro _)); (on_goal 1 => (unfold x; clear x))) | skip)
      | apply Keeps.via (modStack_keeps _ _ _)
      | apply Keeps.via (freeDir_keeps _ _ _)
      | apply Keeps.via (answer_keeps _ _ _ _ _ _)
      | apply Keeps.via (homeGoesOn_keeps _ _)
      | apply Keeps.ite
      | split

theorem takeArrival_keeps (m : Nat) (s : State) (a : HomeArrival) : Keeps (Part.regs ||| Part.memory ||| Part.frees ||| Part.log ||| Part.records ||| Part.towers ||| Part.stacks ||| Part.hub) s (takeArrival m s a) := by
  cases a <;> unfold takeArrival <;> first
    | exact (takeBack_keeps _ _ _ _).mono (by decide)
    | exact (towerMiss_keeps _ _ _ _ _ _).mono (by decide)
    | exact (outsideAsk_keeps _ _ _ _ _).mono (by decide)

theorem homeCycle_keeps (m : Nat) (l : List HomeArrival) (s : State) : Keeps (Part.regs ||| Part.memory ||| Part.frees ||| Part.log ||| Part.records ||| Part.towers ||| Part.stacks ||| Part.hub) s (homeCycle m l s) :=
  Keeps.foldl_via (fun _ _ => takeArrival_keeps _ _ _) (Keeps.refl _ _)

theorem bufferPut_keeps (m ch lpi : Nat) (s : State) : Keeps Part.stacks s (bufferPut m ch lpi s) := by
  unfold bufferPut
  repeat' with_reducible first
      | apply Keeps.refl | assumption | (apply Part.named; decide)
      | apply Keeps.via (modStack_keeps _ _ _)

theorem bufferDrop_keeps (m ch lpi : Nat) (s : State) : Keeps Part.stacks s (bufferDrop m ch lpi s) := by
  unfold bufferDrop
  repeat' with_reducible first
      | apply Keeps.refl | assumption | (apply Part.named; decide)
      | apply Keeps.via (modStack_keeps _ _ _)

theorem queuePage_keeps (m ch : Nat) (r : PageReq) (s : State) : Keeps Part.stacks s (queuePage m ch r s) := by
  unfold queuePage
  repeat' with_reducible first
      | apply Keeps.refl | assumption | (apply Part.named; decide)
      | apply Keeps.via (modStack_keeps _ _ _)

theorem queueRead_keeps (fn : Nat) (l : DramLoc) (s : State) : Keeps Part.stacks s (queueRead fn l s) := by
  unfold queueRead
  repeat' with_reducible first
      | apply Keeps.refl | assumption | (apply Part.named; decide)
      | apply Keeps.via (queuePage_keeps _ _ _ _)
      | apply Keeps.ite

theorem mcastLines_keeps (fn : Nat) (towers : List Nat) (gs : List Nat) (s : State) : Keeps (Part.regs ||| Part.memory ||| Part.frees ||| Part.log ||| Part.records ||| Part.towers ||| Part.stacks ||| Part.hub) s (mcastLines fn towers gs s) := by
  unfold mcastLines
  repeat' with_reducible first
      | apply Keeps.refl | assumption | (apply Part.named; decide)
      | (extract_lets +onlyGivenNames x; first | (refine keepsLet (x := x) ?_ ?_; (on_goal 2 => (clear_value x; intro _)); (on_goal 1 => (unfold x; clear x))) | skip)
      | apply Keeps.via (queueRead_keeps _ _ _)
      | apply Keeps.via (homeRequest_keeps _ _ _ _)
      | apply Keeps.ite
      | split
      | apply Keeps.foldl_via
      | intro _

end Sys2Proof.Machine
end

