-- ==== Sys2Proof/Laws/KeepMCore.lean ====
section
/-!
SUPPORT. What each operation and meaning of Machine/MCore.lean keeps (Laws/Keep.lean).
-/
namespace Sys2Proof.Machine

theorem modM_keeps (k : Nat) (g : MCore → MCore) (s : State) : Keeps Part.mcores s (modM k g s) := by
  unfold modM
  repeat' with_reducible first
      | apply Keeps.refl | assumption | (apply Part.named; decide)
      | fail_if_no_progress (apply Keeps.via (Keeps.putMcores _ _))

theorem mEffect_keeps (f : Nat → StrokeWord → State → Option StrokeOut) (k : Nat) (w : StrokeWord) (s : State) {m : Nat} (hm : 0 ||| m = m) (hf : ∀ x0 x1 x2, KeepsOpt m (fun r => r.s) x2 (f x0 x1 x2)) :
    KeepsOpt m (fun r => r.s) s (mEffect f k w s) := by
  unfold mEffect
  repeat' with_reducible first
      | apply Keeps.refl | assumption | (apply Part.named; decide)
      | apply KeepsOpt.none
      | apply KeepsOpt.viaH (hf _ _ _)
      | (apply KeepsOpt.getH (hf _ _ _); on_goal 1 => assumption)
      | apply Keeps.ite
      | split

theorem msetbEffect_keeps (k : Nat) (w : StrokeWord) (s : State) : KeepsOpt Part.bases (fun r => r.s) s (msetbEffect k w s) := by
  unfold msetbEffect
  repeat' with_reducible first
      | apply Keeps.refl | assumption | (apply Part.named; decide)
      | apply KeepsOpt.some
      | (extract_lets +onlyGivenNames x; first | (refine keepsLet (x := x) ?_ ?_; (on_goal 2 => (clear_value x; intro _)); (on_goal 1 => (unfold x; clear x))) | skip)
      | apply Keeps.via (setAb_keeps _ _ _ _ _)
      | apply Keeps.ite

theorem mldaEffect_keeps (k : Nat) (w : StrokeWord) (s : State) :
    KeepsOpt (Part.regs ||| Part.memory ||| Part.records ||| Part.clusters ||| Part.mcores ||| Part.towers ||| Part.stacks ||| Part.hub) (fun r => r.s) s (mldaEffect k w s) := by
  unfold mldaEffect
  repeat' with_reducible first
      | apply Keeps.refl | assumption | (apply Part.named; decide)
      | apply KeepsOpt.some
      | (extract_lets +onlyGivenNames x; first | (refine keepsLet (x := x) ?_ ?_; (on_goal 2 => (clear_value x; intro _)); (on_goal 1 => (unfold x; clear x))) | skip)
      | (apply KeepsOpt.get2 (takeBytes_keeps _ _ _ _); on_goal 1 => assumption)
      | (apply KeepsOpt.get (takeBytes_keeps _ _ _ _); on_goal 1 => assumption)
      | apply KeepsOpt.mapVia (takeBytes_keeps _ _ _ _)
      | apply Keeps.via (modM_keeps _ _ _)
      | apply Keeps.via (coreRead_keeps _ _ _ _ _)
      | (apply keepsEq (fun r => r.s) (coreRead_keeps _ _ _ _ _); on_goal 1 => assumption)
      | apply Keeps.ite
      | apply Keeps.foldlO_via
      | intro _
      | split

theorem mldsEffect_keeps (k : Nat) (w : StrokeWord) (s : State) :
    KeepsOpt (Part.regs ||| Part.memory ||| Part.records ||| Part.clusters ||| Part.mcores ||| Part.towers ||| Part.stacks ||| Part.hub) (fun r => r.s) s (mldsEffect k w s) := by
  unfold mldsEffect
  repeat' with_reducible first
      | apply Keeps.refl | assumption | (apply Part.named; decide)
      | apply KeepsOpt.some
      | (extract_lets +onlyGivenNames x; first | (refine keepsLet (x := x) ?_ ?_; (on_goal 2 => (clear_value x; intro _)); (on_goal 1 => (unfold x; clear x))) | skip)
      | (apply KeepsOpt.get2 (takeBytes_keeps _ _ _ _); on_goal 1 => assumption)
      | (apply KeepsOpt.get (takeBytes_keeps _ _ _ _); on_goal 1 => assumption)
      | apply KeepsOpt.mapVia (takeBytes_keeps _ _ _ _)
      | apply Keeps.via (modM_keeps _ _ _)
      | apply Keeps.via (coreRead_keeps _ _ _ _ _)
      | (apply keepsEq (fun r => r.s) (coreRead_keeps _ _ _ _ _); on_goal 1 => assumption)
      | apply Keeps.ite
      | apply Keeps.foldlO_via
      | intro _
      | split

theorem weightRead_keeps (k a n : Nat) (tag bad : Bool) (s : State) : Keeps (Part.regs ||| Part.memory ||| Part.records ||| Part.clusters ||| Part.towers ||| Part.stacks ||| Part.hub) s (weightRead k a n tag bad s).s := by
  unfold weightRead
  repeat' with_reducible first
      | apply Keeps.refl | assumption | (apply Part.named; decide)
      | (extract_lets +onlyGivenNames x; first | (refine keepsLet (x := x) ?_ ?_; (on_goal 2 => (clear_value x; intro _)); (on_goal 1 => (unfold x; clear x))) | skip)
      | apply Keeps.via (report_keeps _ _ _ _ _)
      | apply Keeps.via (busError_keeps _ _ _)
      | apply Keeps.via (noteSpan_keeps _ _ _ _ _ _ _)
      | apply Keeps.via (accessError_keeps _ _ _)
      | apply Keeps.via (readError_keeps _ _ _)
      | apply Keeps.ite
      | apply Keeps.foldl_via
      | intro _

theorem weightCols_keeps (k : Nat) (w : StrokeWord) (s : State) : Keeps (Part.regs ||| Part.memory ||| Part.records ||| Part.clusters ||| Part.towers ||| Part.stacks ||| Part.hub) s (weightCols k w s).2.2 := by
  unfold weightCols
  repeat' with_reducible first
      | apply Keeps.refl | assumption | (apply Part.named; decide)
      | (extract_lets +onlyGivenNames x; first | (refine keepsLet (x := x) ?_ ?_; (on_goal 2 => (clear_value x; intro _)); (on_goal 1 => (unfold x; clear x))) | (refine keepsLet (x := x.s) ?_ ?_; (on_goal 2 => (clear_value x; intro _)); (on_goal 1 => (unfold x; clear x))))
      | apply Keeps.via (weightRead_keeps _ _ _ _ _ _)
      | (apply keepsEq (fun r => r.s) (weightRead_keeps _ _ _ _ _ _); on_goal 1 => assumption)
      | apply Keeps.ite
      | split

theorem proofMismatch_keeps (k : Nat) (w : StrokeWord) (x : Nat × Nat) (s : State) :
    Keeps (Part.regs ||| Part.memory ||| Part.log ||| Part.records ||| Part.jobs ||| Part.clusters ||| Part.bases ||| Part.mcores ||| Part.vcores ||| Part.hub ||| Part.sup) s (proofMismatch k w x s) := by
  unfold proofMismatch
  repeat' with_reducible first
      | apply Keeps.refl | assumption | (apply Part.named; decide)
      | (extract_lets +onlyGivenNames x; first | (refine keepsLet (x := x) ?_ ?_; (on_goal 2 => (clear_value x; intro _)); (on_goal 1 => (unfold x; clear x))) | skip)
      | apply Keeps.via (modM_keeps _ _ _)
      | apply Keeps.via (addReg_keeps _ _ _)
      | apply Keeps.via (report_keeps _ _ _ _ _)
      | apply Keeps.via (coreEvent_keeps _ _ _ _)

theorem mpassEffect_keeps (faulty : List (Nat × Nat)) (k : Nat) (w : StrokeWord) (s : State) :
    KeepsOpt (Part.regs ||| Part.memory ||| Part.log ||| Part.records ||| Part.jobs ||| Part.clusters ||| Part.bases ||| Part.mcores ||| Part.vcores ||| Part.towers ||| Part.stacks ||| Part.hub ||| Part.sup) (fun r => r.s) s (mpassEffect faulty k w s) := by
  unfold mpassEffect
  repeat' with_reducible first
      | apply Keeps.refl | assumption | (apply Part.named; decide)
      | apply KeepsOpt.some
      | (extract_lets +onlyGivenNames x; first | (refine keepsLet (x := x) ?_ ?_; (on_goal 2 => (clear_value x; intro _)); (on_goal 1 => (unfold x; clear x))) | skip)
      | apply Keeps.via (weightCols_keeps _ _ _)
      | (apply keepsEq3 (weightCols_keeps _ _ _); on_goal 1 => assumption)
      | apply Keeps.via (modM_keeps _ _ _)
      | apply Keeps.via (addReg_keeps _ _ _)
      | apply Keeps.via (proofMismatch_keeps _ _ _ _)
      | apply Keeps.via (report_keeps _ _ _ _ _)
      | apply Keeps.foldl_via
      | intro _
      | split
      | apply Keeps.ite

theorem maclEffect_keeps (k : Nat) (w : StrokeWord) (s : State) :
    KeepsOpt (Part.regs ||| Part.memory ||| Part.records ||| Part.clusters ||| Part.mcores ||| Part.towers ||| Part.stacks ||| Part.hub) (fun r => r.s) s (maclEffect k w s) := by
  unfold maclEffect
  repeat' with_reducible first
      | apply Keeps.refl | assumption | (apply Part.named; decide)
      | apply KeepsOpt.some
      | (extract_lets +onlyGivenNames x; first | (refine keepsLet (x := x) ?_ ?_; (on_goal 2 => (clear_value x; intro _)); (on_goal 1 => (unfold x; clear x))) | skip)
      | apply Keeps.via (modM_keeps _ _ _)
      | apply Keeps.via (coreRead_keeps _ _ _ _ _)
      | (apply keepsEq (fun r => r.s) (coreRead_keeps _ _ _ _ _); on_goal 1 => assumption)
      | apply Keeps.ite
      | apply Keeps.foldlO_via
      | intro _
      | split

theorem wbStore_keeps (k : Nat) (w : StrokeWord) (s : State) :
    Keeps (Part.regs ||| Part.memory ||| Part.records ||| Part.clusters ||| Part.stacks) s (wbStore k w s).s := by
  unfold wbStore
  repeat' with_reducible first
      | apply Keeps.refl | assumption | (apply Part.named; decide)
      | (extract_lets +onlyGivenNames x; first | (refine keepsLet (x := x) ?_ ?_; (on_goal 2 => (clear_value x; intro _)); (on_goal 1 => (unfold x; clear x))) | skip)
      | apply Keeps.via (refuseWrite_keeps _ _ _)
      | (apply keepsEq (fun r => r.s) (refuseWrite_keeps _ _ _); on_goal 1 => assumption)
      | apply Keeps.via (coreWriteT_keeps _ _ _ _ _)
      | (apply keepsEq (fun r => r.s) (coreWriteT_keeps _ _ _ _ _); on_goal 1 => assumption)
      | apply Keeps.via (Wrote.start_keeps _)
      | apply Keeps.ite
      | apply Keeps.foldlW_via
      | intro _
      | split

theorem wbAdd_keeps (k : Nat) (w : StrokeWord) (s : State) :
    Keeps (Part.regs ||| Part.memory ||| Part.records ||| Part.clusters ||| Part.towers ||| Part.stacks ||| Part.hub) s (wbAdd k w s).s := by
  unfold wbAdd
  repeat' with_reducible first
      | apply Keeps.refl | assumption | (apply Part.named; decide)
      | (extract_lets +onlyGivenNames x; first | (refine keepsLet (x := x) ?_ ?_; (on_goal 2 => (clear_value x; intro _)); (on_goal 1 => (unfold x; clear x))) | skip)
      | apply Keeps.via (refuseWrite_keeps _ _ _)
      | (apply keepsEq (fun r => r.s) (refuseWrite_keeps _ _ _); on_goal 1 => assumption)
      | apply Keeps.via (coreRead_keeps _ _ _ _ _)
      | (apply keepsEq (fun r => r.s) (coreRead_keeps _ _ _ _ _); on_goal 1 => assumption)
      | apply Keeps.via (coreWriteT_keeps _ _ _ _ _)
      | (apply keepsEq (fun r => r.s) (coreWriteT_keeps _ _ _ _ _); on_goal 1 => assumption)
      | apply Keeps.via (Wrote.start_keeps _)
      | apply Keeps.ite
      | apply Keeps.foldlW_via
      | intro _
      | split

theorem queueWalk_keeps (x : WalkReq) (s : State) : Keeps Part.atts s (queueWalk x s) := by
  unfold queueWalk
  repeat' with_reducible first
      | apply Keeps.refl | assumption | (apply Part.named; decide)
      | (extract_lets +onlyGivenNames x; first | (refine keepsLet (x := x) ?_ ?_; (on_goal 2 => (clear_value x; intro _)); (on_goal 1 => (unfold x; clear x))) | skip)
      | fail_if_no_progress (apply Keeps.via (Keeps.putAtts _ _))

theorem wbKv_keeps (k : Nat) (w : StrokeWord) (s : State) :
    KeepsOpt (Part.regs ||| Part.memory ||| Part.records ||| Part.clusters ||| Part.atts ||| Part.towers ||| Part.stacks ||| Part.hub) (fun r => r.s) s (wbKv k w s) := by
  unfold wbKv
  repeat' with_reducible first
      | apply Keeps.refl | assumption | (apply Part.named; decide)
      | apply KeepsOpt.some
      | (extract_lets +onlyGivenNames x; first | (refine keepsLet (x := x) ?_ ?_; (on_goal 2 => (clear_value x; intro _)); (on_goal 1 => (unfold x; clear x))) | skip)
      | apply Keeps.via (coreRead_keeps _ _ _ _ _)
      | (apply keepsEq (fun r => r.s) (coreRead_keeps _ _ _ _ _); on_goal 1 => assumption)
      | apply Keeps.via (queueWalk_keeps _ _)

theorem mwbEffect_keeps (k : Nat) (w : StrokeWord) (s : State) :
    KeepsOpt (Part.regs ||| Part.memory ||| Part.records ||| Part.clusters ||| Part.mcores ||| Part.atts ||| Part.towers ||| Part.stacks ||| Part.hub) (fun r => r.s) s (mwbEffect k w s) := by
  unfold mwbEffect
  repeat' with_reducible first
      | apply Keeps.refl | assumption | (apply Part.named; decide)
      | apply KeepsOpt.some
      | (extract_lets +onlyGivenNames x; first | (refine keepsLet (x := x) ?_ ?_; (on_goal 2 => (clear_value x; intro _)); (on_goal 1 => (unfold x; clear x))) | (refine keepsLetP (x := x.s) ?_ ?_; (on_goal 2 => (clear_value x; intro _)); (on_goal 1 => (unfold x; clear x))) | skip)
      | apply Keeps.via (modM_keeps _ _ _)
      | apply Keeps.via (wbStore_keeps _ _ _)
      | (apply keepsEq (fun r => r.s) (wbStore_keeps _ _ _); on_goal 1 => assumption)
      | apply Keeps.via (wbAdd_keeps _ _ _)
      | (apply keepsEq (fun r => r.s) (wbAdd_keeps _ _ _); on_goal 1 => assumption)
      | (apply KeepsOpt.get (wbKv_keeps _ _ _); on_goal 1 => assumption)
      | apply KeepsOpt.mapVia (wbKv_keeps _ _ _)
      | (apply KeepsOpt.get (pushBytes_keeps _ _ _ _ _); on_goal 1 => assumption)
      | apply KeepsOpt.mapVia (pushBytes_keeps _ _ _ _ _)
      | apply Keeps.ite
      | intro _
      | split

theorem execWeightRowRequest_keeps (c : Fin 64) (core : Fin 16) (s : State) : KeepsOut Part.mcores s (execWeightRowRequest c core s) := by
  unfold execWeightRowRequest
  repeat' with_reducible first
      | apply Keeps.refl | assumption | (apply Part.named; decide)
      | apply Keeps.next
      | (extract_lets +onlyGivenNames x; first | (refine keepsLet (x := x) ?_ ?_; (on_goal 2 => (clear_value x; intro _)); (on_goal 1 => (unfold x; clear x))) | (refine keepsLetO (x := x) ?_ ?_; (on_goal 2 => (clear_value x; intro _)); (on_goal 1 => (unfold x; clear x))) | skip)
      | apply Keeps.via (modM_keeps _ _ _)
      | apply Keeps.ite
      | apply KeepsOut.ite
      | split

theorem execWeightRowArrive_keeps (c : Fin 64) (core : Fin 16) (stall : Nat) (s : State) : KeepsOut (Part.regs ||| Part.clusters ||| Part.mcores) s (execWeightRowArrive c core stall s) := by
  unfold execWeightRowArrive
  repeat' with_reducible first
      | apply Keeps.refl | assumption | (apply Part.named; decide)
      | apply Keeps.next
      | (extract_lets +onlyGivenNames x; first | (refine keepsLet (x := x) ?_ ?_; (on_goal 2 => (clear_value x; intro _)); (on_goal 1 => (unfold x; clear x))) | (refine keepsLetO (x := x) ?_ ?_; (on_goal 2 => (clear_value x; intro _)); (on_goal 1 => (unfold x; clear x))) | skip)
      | apply Keeps.via (modM_keeps _ _ _)
      | apply Keeps.via (addReg_keeps _ _ _)
      | apply Keeps.via (markFree_keeps _ _)
      | apply Keeps.via (modRunner_keeps _ _ _)
      | apply Keeps.ite
      | apply KeepsOut.ite
      | split

end Sys2Proof.Machine
end

