-- ==== Sys2Proof/Laws/KeepSCore.lean ====
section
/-!
SUPPORT. What each operation and meaning of Machine/SCore.lean keeps (Laws/Keep.lean).
-/
namespace Sys2Proof.Machine

theorem sParity_keeps (p : Option Nat) (k : Nat) (w : StrokeWord) (s : State) :
    Keeps (Part.regs ||| Part.memory ||| Part.log ||| Part.records ||| Part.jobs ||| Part.clusters ||| Part.bases ||| Part.mcores ||| Part.vcores ||| Part.scores ||| Part.hub ||| Part.sup) s (sParity p k w s) := by
  unfold sParity
  repeat' with_reducible first
      | apply Keeps.refl | assumption | (apply Part.named; decide)
      | (extract_lets +onlyGivenNames x; first | (refine keepsLet (x := x) ?_ ?_; (on_goal 2 => (clear_value x; intro _)); (on_goal 1 => (unfold x; clear x))) | skip)
      | apply Keeps.via (modS_keeps _ _ _)
      | apply Keeps.via (report_keeps _ _ _ _ _)
      | apply Keeps.via (coreEvent_keeps _ _ _ _)
      | apply Keeps.ite
      | split

theorem sEffect_keeps (p : Option Nat) (f : Nat → StrokeWord → State → Option StrokeOut) (k : Nat) (w : StrokeWord) (s : State) {m : Nat} (hm : (Part.regs ||| Part.memory ||| Part.log ||| Part.records ||| Part.jobs ||| Part.clusters ||| Part.bases ||| Part.mcores ||| Part.vcores ||| Part.scores ||| Part.hub ||| Part.sup) ||| m = m) (hf : ∀ x0 x1 x2, KeepsOpt m (fun r => r.s) x2 (f x0 x1 x2)) :
    KeepsOpt m (fun r => r.s) s (sEffect p f k w s) := by
  unfold sEffect
  repeat' with_reducible first
      | apply Keeps.refl | assumption | (apply Part.named; decide)
      | apply KeepsOpt.none
      | apply KeepsOpt.viaH (hf _ _ _)
      | (apply KeepsOpt.getH (hf _ _ _); on_goal 1 => assumption)
      | apply Keeps.via (sParity_keeps _ _ _ _)
      | apply Keeps.ite
      | split


theorem sPlain_keeps (f : Nat → StrokeWord → State → Option StrokeOut) (k : Nat) (w : StrokeWord) (s : State) {m : Nat} (hm : 0 ||| m = m) (hf : ∀ x0 x1 x2, KeepsOpt m (fun r => r.s) x2 (f x0 x1 x2)) :
    KeepsOpt m (fun r => r.s) s (sPlain f k w s) := by
  unfold sPlain
  split
  · exact KeepsOpt.none
  · exact hf _ _ _

theorem setLatch_keeps (k : Nat) (b : Bool) (s : State) : Keeps Part.clusters s (setLatch k b s) := by
  unfold setLatch
  repeat' with_reducible first
      | apply Keeps.refl | assumption | (apply Part.named; decide)
      | apply Keeps.via (modRunner_keeps _ _ _)
      | apply Keeps.ite

theorem saluEffect_keeps (k : Nat) (w : StrokeWord) (s : State) :
    KeepsOpt Part.scores (fun r => r.s) s (saluEffect k w s) := by
  unfold saluEffect
  repeat' with_reducible first
      | apply Keeps.refl | assumption | (apply Part.named; decide)
      | apply KeepsOpt.some
      | (extract_lets +onlyGivenNames x; first | (refine keepsLet (x := x) ?_ ?_; (on_goal 2 => (clear_value x; intro _)); (on_goal 1 => (unfold x; clear x))) | skip)
      | apply Keeps.via (setSx_keeps _ _ _ _ _)

theorem sliEffect_keeps (k : Nat) (w : StrokeWord) (s : State) : KeepsOpt Part.scores (fun r => r.s) s (sliEffect k w s) := by
  unfold sliEffect
  repeat' with_reducible first
      | apply Keeps.refl | assumption | (apply Part.named; decide)
      | apply KeepsOpt.some
      | apply Keeps.via (setSx_keeps _ _ _ _ _)

theorem sgetEffect_keeps (k : Nat) (w : StrokeWord) (s : State) : KeepsOpt Part.scores (fun r => r.s) s (sgetEffect k w s) := by
  unfold sgetEffect
  repeat' with_reducible first
      | apply Keeps.refl | assumption | (apply Part.named; decide)
      | apply KeepsOpt.some
      | apply Keeps.via (setSx_keeps _ _ _ _ _)

theorem coreBusError_keeps (k a : Nat) (s : State) : Keeps Part.records s (coreBusError k a s) := by
  unfold coreBusError
  repeat' with_reducible first
      | apply Keeps.refl | assumption | (apply Part.named; decide)
      | apply Keeps.via (report_keeps _ _ _ _ _)

theorem sldEffect_keeps (k : Nat) (w : StrokeWord) (s : State) :
    KeepsOpt (Part.regs ||| Part.memory ||| Part.records ||| Part.clusters ||| Part.scores ||| Part.towers ||| Part.stacks ||| Part.hub) (fun r => r.s) s (sldEffect k w s) := by
  unfold sldEffect
  repeat' with_reducible first
      | apply Keeps.refl | assumption | (apply Part.named; decide)
      | apply KeepsOpt.some
      | (extract_lets +onlyGivenNames x; first | (refine keepsLet (x := x) ?_ ?_; (on_goal 2 => (clear_value x; intro _)); (on_goal 1 => (unfold x; clear x))) | skip)
      | apply Keeps.via (setSx_keeps _ _ _ _ _)
      | apply Keeps.via (coreBusError_keeps _ _ _)
      | apply Keeps.via (coreRead_keeps _ _ _ _ _)
      | (apply keepsEq (fun r => r.s) (coreRead_keeps _ _ _ _ _); on_goal 1 => assumption)
      | apply Keeps.via (accessError_keeps _ _ _)
      | apply Keeps.ite
      | split

theorem sstEffect_keeps (k : Nat) (w : StrokeWord) (s : State) :
    KeepsOpt (Part.regs ||| Part.memory ||| Part.records ||| Part.clusters ||| Part.stacks) (fun r => r.s) s (sstEffect k w s) := by
  unfold sstEffect
  repeat' with_reducible first
      | apply Keeps.refl | assumption | (apply Part.named; decide)
      | apply KeepsOpt.some
      | (extract_lets +onlyGivenNames x; first | (refine keepsLet (x := x) ?_ ?_; (on_goal 2 => (clear_value x; intro _)); (on_goal 1 => (unfold x; clear x))) | skip)
      | apply Keeps.via (coreBusError_keeps _ _ _)
      | apply Keeps.via (coreWrite_keeps _ _ _ _ _)
      | (apply keepsEq (fun r => r.s) (coreWrite_keeps _ _ _ _ _); on_goal 1 => assumption)
      | apply Keeps.via (Wrote.start_keeps _)
      | apply Keeps.via (accessError_keeps _ _ _)
      | apply Keeps.ite
      | split

theorem spushEffect_keeps (k : Nat) (w : StrokeWord) (s : State) : KeepsOpt Part.clusters (fun r => r.s) s (spushEffect k w s) := by
  unfold spushEffect
  repeat' with_reducible first
      | apply Keeps.refl | assumption | (apply Part.named; decide)
      | (extract_lets +onlyGivenNames x; first | (refine keepsLet (x := x) ?_ ?_; (on_goal 2 => (clear_value x; intro _)); (on_goal 1 => (unfold x; clear x))) | skip)
      | (apply KeepsOpt.get (pushBytes_keeps _ _ _ _ _); on_goal 1 => assumption)
      | apply KeepsOpt.mapVia (pushBytes_keeps _ _ _ _ _)

theorem sidxEffect_keeps (k : Nat) (w : StrokeWord) (s : State) : KeepsOpt Part.clusters (fun r => r.s) s (sidxEffect k w s) := by
  unfold sidxEffect
  repeat' with_reducible first
      | apply Keeps.refl | assumption | (apply Part.named; decide)
      | (extract_lets +onlyGivenNames x; first | (refine keepsLet (x := x) ?_ ?_; (on_goal 2 => (clear_value x; intro _)); (on_goal 1 => (unfold x; clear x))) | skip)
      | (apply KeepsOpt.get (pushBytes_keeps _ _ _ _ _); on_goal 1 => assumption)
      | apply KeepsOpt.mapVia (pushBytes_keeps _ _ _ _ _)

theorem ssetbEffect_keeps (k : Nat) (w : StrokeWord) (s : State) : KeepsOpt Part.bases (fun r => r.s) s (ssetbEffect k w s) := by
  unfold ssetbEffect
  repeat' with_reducible first
      | apply Keeps.refl | assumption | (apply Part.named; decide)
      | apply KeepsOpt.some
      | (extract_lets +onlyGivenNames x; first | (refine keepsLet (x := x) ?_ ?_; (on_goal 2 => (clear_value x; intro _)); (on_goal 1 => (unfold x; clear x))) | skip)
      | apply Keeps.via (setAb_keeps _ _ _ _ _)

theorem sskipEffect_keeps (k : Nat) (w : StrokeWord) (s : State) : KeepsOpt Part.clusters (fun r => r.s) s (sskipEffect k w s) := by
  unfold sskipEffect
  repeat' with_reducible first
      | apply Keeps.refl | assumption | (apply Part.named; decide)
      | apply KeepsOpt.some
      | (extract_lets +onlyGivenNames x; first | (refine keepsLet (x := x) ?_ ?_; (on_goal 2 => (clear_value x; intro _)); (on_goal 1 => (unfold x; clear x))) | skip)
      | apply Keeps.via (setLatch_keeps _ _ _)
      | apply Keeps.via (modRunner_keeps _ _ _)
      | apply Keeps.ite
      | split

theorem sloopEffect_keeps (k : Nat) (w : StrokeWord) (s : State) :
    KeepsOpt (Part.clusters ||| Part.scores) (fun r => r.s) s (sloopEffect k w s) := by
  unfold sloopEffect
  repeat' with_reducible first
      | apply Keeps.refl | assumption | (apply Part.named; decide)
      | apply KeepsOpt.none | apply KeepsOpt.some
      | (extract_lets +onlyGivenNames x; first | (refine keepsLet (x := x) ?_ ?_; (on_goal 2 => (clear_value x; intro _)); (on_goal 1 => (unfold x; clear x))) | skip)
      | apply Keeps.via (setLatch_keeps _ _ _)
      | apply Keeps.via (modRunner_keeps _ _ _)
      | apply Keeps.via (setSx_keeps _ _ _ _ _)
      | apply Keeps.ite
      | split

theorem hurdleBusError_keeps (k : Nat) (w : StrokeWord) (s : State) : Keeps (Part.records ||| Part.clusters) s (hurdleBusError k w s).s := by
  unfold hurdleBusError
  repeat' with_reducible first
      | apply Keeps.refl | assumption | (apply Part.named; decide)
      | apply Keeps.via (setLatch_keeps _ _ _)
      | apply Keeps.via (coreBusError_keeps _ _ _)

theorem sarriveEffect_keeps (k : Nat) (w : StrokeWord) (s : State) :
    KeepsOpt (Part.regs ||| Part.log ||| Part.records ||| Part.queues ||| Part.clusters ||| Part.scores ||| Part.hurdles ||| Part.links ||| Part.coll) (fun r => r.s) s (sarriveEffect k w s) := by
  unfold sarriveEffect
  repeat' with_reducible first
      | apply Keeps.refl | assumption | (apply Part.named; decide)
      | apply KeepsOpt.some
      | (extract_lets +onlyGivenNames x; first | (refine keepsLet (x := x) ?_ ?_; (on_goal 2 => (clear_value x; intro _)); (on_goal 1 => (unfold x; clear x))) | skip)
      | apply Keeps.via (hurdleBusError_keeps _ _ _)
      | (apply keepsEq (fun r => r.s) (hurdleBusError_keeps _ _ _); on_goal 1 => assumption)
      | apply Keeps.via (arrive_keeps _ _ _)
      | apply Keeps.via (setLatch_keeps _ _ _)
      | apply Keeps.ite
      | split

theorem swaitEffect_keeps (k : Nat) (w : StrokeWord) (s : State) :
    KeepsOpt (Part.records ||| Part.clusters ||| Part.scores ||| Part.hurdles) (fun r => r.s) s (swaitEffect k w s) := by
  unfold swaitEffect
  repeat' with_reducible first
      | apply Keeps.refl | assumption | (apply Part.named; decide)
      | apply KeepsOpt.some
      | (extract_lets +onlyGivenNames x; first | (refine keepsLet (x := x) ?_ ?_; (on_goal 2 => (clear_value x; intro _)); (on_goal 1 => (unfold x; clear x))) | skip)
      | apply Keeps.via (hurdleBusError_keeps _ _ _)
      | (apply keepsEq (fun r => r.s) (hurdleBusError_keeps _ _ _); on_goal 1 => assumption)
      | apply Keeps.via (setLatch_keeps _ _ _)
      | apply Keeps.via (putHurdle_keeps _ _ _)
      | apply Keeps.via (setSx_keeps _ _ _ _ _)
      | apply Keeps.ite
      | split
      | fail_if_no_progress (apply Keeps.via (Keeps.putHwaits _ _))

theorem sresetEffect_keeps (k : Nat) (w : StrokeWord) (s : State) :
    KeepsOpt (Part.regs ||| Part.log ||| Part.records ||| Part.queues ||| Part.clusters ||| Part.scores ||| Part.hurdles ||| Part.links ||| Part.coll) (fun r => r.s) s (sresetEffect k w s) := by
  unfold sresetEffect
  repeat' with_reducible first
      | apply Keeps.refl | assumption | (apply Part.named; decide)
      | apply KeepsOpt.some
      | apply Keeps.via (hurdleBusError_keeps _ _ _)
      | (apply keepsEq (fun r => r.s) (hurdleBusError_keeps _ _ _); on_goal 1 => assumption)
      | apply Keeps.via (hurdleReset_keeps _ _)
      | split

theorem shreadEffect_keeps (k : Nat) (w : StrokeWord) (s : State) :
    KeepsOpt (Part.records ||| Part.clusters ||| Part.scores) (fun r => r.s) s (shreadEffect k w s) := by
  unfold shreadEffect
  repeat' with_reducible first
      | apply Keeps.refl | assumption | (apply Part.named; decide)
      | apply KeepsOpt.some
      | (extract_lets +onlyGivenNames x; first | (refine keepsLet (x := x) ?_ ?_; (on_goal 2 => (clear_value x; intro _)); (on_goal 1 => (unfold x; clear x))) | skip)
      | apply Keeps.via (hurdleBusError_keeps _ _ _)
      | (apply keepsEq (fun r => r.s) (hurdleBusError_keeps _ _ _); on_goal 1 => assumption)
      | apply Keeps.via (setSx_keeps _ _ _ _ _)
      | apply Keeps.ite
      | split

theorem shtargetEffect_keeps (k : Nat) (w : StrokeWord) (s : State) :
    KeepsOpt (Part.regs ||| Part.records ||| Part.queues ||| Part.clusters ||| Part.scores ||| Part.hurdles ||| Part.coll) (fun r => r.s) s (shtargetEffect k w s) := by
  unfold shtargetEffect
  repeat' with_reducible first
      | apply Keeps.refl | assumption | (apply Part.named; decide)
      | apply KeepsOpt.some
      | (extract_lets +onlyGivenNames x; first | (refine keepsLet (x := x) ?_ ?_; (on_goal 2 => (clear_value x; intro _)); (on_goal 1 => (unfold x; clear x))) | skip)
      | apply Keeps.via (hurdleBusError_keeps _ _ _)
      | (apply keepsEq (fun r => r.s) (hurdleBusError_keeps _ _ _); on_goal 1 => assumption)
      | apply Keeps.via (setLatch_keeps _ _ _)
      | apply Keeps.via (hurdleCycle_keeps _ _ _)
      | split

theorem mcastFill_keeps (acc : Acc) (d : XDesc) (gs : List Nat) (s : State) : Keeps (Part.regs ||| Part.memory ||| Part.frees ||| Part.log ||| Part.records ||| Part.towers ||| Part.stacks ||| Part.hub) s (mcastFill acc d gs s).s := by
  refine Keeps.trans (Keeps.foldl2_via (fun x a => ?_) (Keeps.refl _ _)) ((mcastLines_keeps _ _ _ _).mono (by decide))
  split
  · exact (accessError_keeps _ _ _).mono (by decide)
  · exact (readT_keeps _ _ _ false _).mono (by decide)

theorem xferRead_keeps (k : Nat) (d : XDesc) (blot : Bool) (s : State) : KeepsOpt Part.clusters (fun r => r.2.2) s (xferRead k d blot s) := by
  unfold xferRead
  repeat' with_reducible first
      | apply Keeps.refl | assumption | (apply Part.named; decide)
      | apply KeepsOpt.none | apply KeepsOpt.some
      | (extract_lets +onlyGivenNames x; first | (refine keepsLet (x := x) ?_ ?_; (on_goal 2 => (clear_value x; intro _)); (on_goal 1 => (unfold x; clear x))) | skip)
      | (apply KeepsOpt.get2 (takeBytes_keeps _ _ _ _); on_goal 1 => assumption)
      | (apply KeepsOpt.get (takeBytes_keeps _ _ _ _); on_goal 1 => assumption)
      | apply KeepsOpt.mapVia (takeBytes_keeps _ _ _ _)
      | apply Keeps.ite
      | intro _
      | split

theorem xferGran_keeps (k : Nat) (d : XDesc) (blot : Bool) (given : Option (List TByte)) (src dst ret : Nat) (w : Wrote) :
    Keeps (Part.regs ||| Part.memory ||| Part.records ||| Part.clusters ||| Part.towers ||| Part.stacks ||| Part.hub) w.s (xferGran k d blot given src dst ret w).s := by
  unfold xferGran
  repeat' with_reducible first
      | apply Keeps.refl | assumption | (apply Part.named; decide)
      | (extract_lets +onlyGivenNames x; first | (refine keepsLet (x := x) ?_ ?_; (on_goal 2 => (clear_value x; intro _)); (on_goal 1 => (unfold x; clear x))) | (refine keepsLet (x := x.s) ?_ ?_; (on_goal 2 => (clear_value x; intro _)); (on_goal 1 => (unfold x; clear x))))
      | apply Keeps.via (readT_keeps _ _ _ _ _)
      | (apply keepsEq (fun r => r.s) (readT_keeps _ _ _ _ _); on_goal 1 => assumption)
      | apply Keeps.via (coreAtomicAs_keeps _ _ _ _ _ _ _)
      | (apply keepsEq (fun r => r.w.s) (coreAtomicAs_keeps _ _ _ _ _ _ _); on_goal 1 => assumption)
      | apply Keeps.via (coreWriteAs_keeps _ _ _ _ _ _)
      | (apply keepsEq (fun r => r.s) (coreWriteAs_keeps _ _ _ _ _ _); on_goal 1 => assumption)
      | apply Keeps.via (coreReadAs_keeps _ _ _ _ _ _)
      | apply Keeps.ite
      | split

theorem xferFirst_keeps (k : Nat) (d : XDesc) (blot : Bool) (s : State) :
    KeepsOpt Part.clusters (fun r => r.2.2) s (xferFirst k d blot s) := by
  unfold xferFirst
  repeat' with_reducible first
      | apply Keeps.refl | assumption | (apply Part.named; decide)
      | apply KeepsOpt.some
      | (apply KeepsOpt.get3 (xferRead_keeps _ _ _ _); on_goal 1 => assumption)
      | (apply KeepsOpt.get (xferRead_keeps _ _ _ _); on_goal 1 => assumption)
      | apply KeepsOpt.via (xferRead_keeps _ _ _ _)
      | apply Keeps.ite
      | split

theorem runXfer_keeps (k : Nat) (l : List Byte) (blot relay : Bool) (s : State) :
    KeepsOpt (Part.regs ||| Part.memory ||| Part.frees ||| Part.log ||| Part.records ||| Part.clusters ||| Part.towers ||| Part.stacks ||| Part.hub) (fun r => r.1.s) s (runXfer k l blot relay s) := by
  unfold runXfer
  repeat' with_reducible first
      | apply Keeps.refl | assumption | (apply Part.named; decide)
      | apply KeepsOpt.none | apply KeepsOpt.some
      | (extract_lets +onlyGivenNames x; first | (refine keepsLet (x := x) ?_ ?_; (on_goal 2 => (clear_value x; intro _)); (on_goal 1 => (unfold x; clear x))) | (refine keepsLetP (x := x.2.2) ?_ ?_; (on_goal 2 => (clear_value x; intro _)); (on_goal 1 => (unfold x; clear x))) | skip)
      | apply Keeps.via (report_keeps _ _ _ _ _)
      | apply Keeps.via (mcastFill_keeps _ _ _ _)
      | (apply KeepsOpt.get3 (xferFirst_keeps _ _ _ _); on_goal 1 => assumption)
      | (apply KeepsOpt.get (xferFirst_keeps _ _ _ _); on_goal 1 => assumption)
      | apply KeepsOpt.mapVia (xferFirst_keeps _ _ _ _)
      | apply Keeps.via (readT_keeps _ _ _ _ _)
      | (apply keepsEq (fun r => r.s) (readT_keeps _ _ _ _ _); on_goal 1 => assumption)
      | (apply KeepsOpt.get (pushBytes_keeps _ _ _ _ _); on_goal 1 => assumption)
      | apply KeepsOpt.mapVia (pushBytes_keeps _ _ _ _ _)
      | apply Keeps.via (xferGran_keeps _ _ _ _ _ _ _ _)
      | (apply keepsEq (fun r => r.s) (xferGran_keeps _ _ _ _ _ _ _ _); on_goal 1 => assumption)
      | apply Keeps.via (Wrote.start_keeps _)
      | apply Keeps.via (coreReadAs_keeps _ _ _ _ _ _)
      | (apply keepsEq (fun r => r.s) (mcastFill_keeps _ _ _ _); on_goal 1 => assumption)
      | apply Keeps.ite
      | apply Keeps.foldl3_via | apply Keeps.foldlW_via
      | intro _
      | split
      | apply Keeps.elim
      | intro _

theorem sxferDesc_keeps (k : Nat) (w : StrokeWord) (s : State) :
    Keeps (Part.regs ||| Part.memory ||| Part.records ||| Part.clusters ||| Part.towers ||| Part.stacks ||| Part.hub) s (sxferDesc k w s).s := by
  unfold sxferDesc
  repeat' with_reducible first
      | apply Keeps.refl | assumption | (apply Part.named; decide)
      | (extract_lets +onlyGivenNames x; first | (refine keepsLet (x := x) ?_ ?_; (on_goal 2 => (clear_value x; intro _)); (on_goal 1 => (unfold x; clear x))) | skip)
      | apply Keeps.via (coreRead_keeps _ _ _ _ _)
      | split

theorem addXfer_keeps (x : Xfer) (s : State) : Keeps Part.xfers s (addXfer x s) := by
  unfold addXfer
  repeat' with_reducible first
      | apply Keeps.refl | assumption | (apply Part.named; decide)
      | fail_if_no_progress (apply Keeps.via (Keeps.putXfers _ _))

theorem startXfer_keeps (k : Nat) (w : StrokeWord) (desc : List Byte) (blot bad : Bool) (s : State) :
    KeepsOpt (Part.regs ||| Part.memory ||| Part.frees ||| Part.log ||| Part.records ||| Part.clusters ||| Part.xfers ||| Part.atts ||| Part.towers ||| Part.stacks ||| Part.hub) (fun r => r.s) s (startXfer k w desc blot bad s) := by
  have g : ∀ c, KeepsOpt (Part.regs ||| Part.memory ||| Part.frees ||| Part.log ||| Part.records ||| Part.clusters ||| Part.xfers ||| Part.atts |||
      Part.towers ||| Part.stacks ||| Part.hub) (fun r => r.1.s) s (if xferWaits s c then none else runXfer k desc blot (sRelay w) s) :=
    fun c => KeepsOpt.ite KeepsOpt.none (KeepsOpt.via (runXfer_keeps _ _ _ _ _) (by decide) (Keeps.refl _ _))
  unfold startXfer
  repeat' with_reducible first
      | apply Keeps.refl | assumption | (apply Part.named; decide)
      | apply KeepsOpt.none | apply KeepsOpt.some
      | (extract_lets +onlyGivenNames x; first | (refine keepsLet (x := x) ?_ ?_; (on_goal 2 => (clear_value x; intro _)); (on_goal 1 => (unfold x; clear x)))| (refine keepsLetP (x := x) ?_ ?_; (on_goal 2 => (clear_value x; intro _)); (on_goal 1 => (unfold x; clear x))) | skip)
      | apply Keeps.via (addReg_keeps _ _ _)
      | apply Keeps.via (queueWalk_keeps _ _)
      | apply Keeps.via (addXfer_keeps _ _)
      | (apply KeepsOpt.getW (g _); on_goal 1 => assumption)
      | apply Keeps.via (settleLines_keeps _ _)
      | apply Keeps.ite
      | split

theorem sxferEffect_keeps (k : Nat) (w : StrokeWord) (s : State) :
    KeepsOpt (Part.regs ||| Part.memory ||| Part.frees ||| Part.log ||| Part.records ||| Part.clusters ||| Part.xfers ||| Part.atts ||| Part.towers ||| Part.stacks ||| Part.hub) (fun r => r.s) s (sxferEffect k w s) := by
  unfold sxferEffect
  repeat' with_reducible first
      | apply Keeps.refl | assumption | (apply Part.named; decide)
      | (extract_lets +onlyGivenNames x)
      | apply KeepsOpt.via (startXfer_keeps _ _ _ _ _ _)
      | apply Keeps.via (setLatch_keeps _ _ _)
      | apply Keeps.via (addReg_keeps _ _ _)
      | apply Keeps.via (sxferDesc_keeps _ _ _)

theorem moveWaiting_keeps (c : Nat) (s : State) : Keeps (Part.regs ||| Part.memory ||| Part.frees ||| Part.log ||| Part.records ||| Part.jobs ||| Part.clusters ||| Part.xfers ||| Part.towers ||| Part.stacks ||| Part.hub) s (moveWaiting c s) := by
  unfold moveWaiting
  repeat' with_reducible first
      | apply Keeps.refl | assumption | (apply Part.named; decide)
      | (extract_lets +onlyGivenNames x; first | (refine keepsLet (x := x) ?_ ?_; (on_goal 2 => (clear_value x; intro _)); (on_goal 1 => (unfold x; clear x))) | skip)
      | (apply KeepsOpt.getW (runXfer_keeps _ _ _ _ _); on_goal 1 => assumption)
      | (apply KeepsOpt.get (runXfer_keeps _ _ _ _ _); on_goal 1 => assumption)
      | apply Keeps.via (noteBlots_keeps _ _ _)
      | apply Keeps.via (noteBusErr_keeps _ _)
      | apply Keeps.via (addReg_keeps _ _ _)
      | apply Keeps.via (settleLines_keeps _ _)
      | apply Keeps.via (modRunner_keeps _ _ _)
      | apply Keeps.ite
      | split
      | fail_if_no_progress (apply Keeps.via (Keeps.putXfers _ _))

theorem descArrive_keeps (k : Nat) (l : List Byte) (s : State) :
    Keeps (Part.regs ||| Part.log ||| Part.records ||| Part.queues ||| Part.clusters ||| Part.scores ||| Part.hurdles ||| Part.links ||| Part.coll) s (descArrive k l s).1 := by
  unfold descArrive
  repeat' with_reducible first
      | apply Keeps.refl | assumption | (apply Part.named; decide)
      | apply Keeps.via (coreBusError_keeps _ _ _)
      | apply Keeps.via (arrive_keeps _ _ _)
      | apply Keeps.ite
      | split

theorem execTransferComplete_keeps (c : Fin 64) (s : State) :
    KeepsOut (Part.regs ||| Part.memory ||| Part.frees ||| Part.log ||| Part.records ||| Part.queues ||| Part.jobs ||| Part.clusters ||| Part.scores ||| Part.xfers ||| Part.hurdles ||| Part.towers ||| Part.stacks ||| Part.hub ||| Part.links ||| Part.coll) s (execTransferComplete c s) := by
  unfold execTransferComplete
  repeat' with_reducible first
      | apply Keeps.refl | assumption | (apply Part.named; decide)
      | apply Keeps.next
      | (extract_lets +onlyGivenNames x; first | (refine keepsLet (x := x) ?_ ?_; (on_goal 2 => (clear_value x; intro _)); (on_goal 1 => (unfold x; clear x))) | (refine keepsLetO (x := x) ?_ ?_; (on_goal 2 => (clear_value x; intro _)); (on_goal 1 => (unfold x; clear x))) | skip)
      | apply Keeps.via (descArrive_keeps _ _ _)
      | (apply keepsEq1 (descArrive_keeps _ _ _); on_goal 1 => assumption)
      | apply Keeps.via (setLatch_keeps _ _ _)
      | apply Keeps.via (noteBusErr_keeps _ _)
      | apply Keeps.via (modRunner_keeps _ _ _)
      | apply Keeps.via (moveWaiting_keeps _ _)
      | apply Keeps.via (addReg_keeps _ _ _)
      | apply Keeps.ite
      | apply KeepsOut.ite
      | split
      | fail_if_no_progress (apply Keeps.via (Keeps.putXfers _ _))

end Sys2Proof.Machine
end

