-- ==== Sys2Proof/Laws/KeepKvPool.lean ====
section
/-!
SUPPORT. What each operation and meaning of Machine/KvPool.lean keeps (Laws/Keep.lean).
-/
namespace Sys2Proof.Machine

theorem kvWr_keeps (f a n v : Nat) (s : State) :
    Keeps (Part.regs ||| Part.memory ||| Part.records ||| Part.stacks) s (kvWr f a n v s) := by
  unfold kvWr
  repeat' with_reducible first
      | apply Keeps.refl | assumption | (apply Part.named; decide)
      | apply Keeps.via (writeSpan_keeps _ _ _ _ _)
      | (apply keepsEq (fun r => r.s) (writeSpan_keeps _ _ _ _ _); on_goal 1 => assumption)
      | apply Keeps.via (Wrote.start_keeps _)

theorem setKvHead_keeps (f off n v : Nat) (s : State) :
    Keeps (Part.regs ||| Part.memory ||| Part.records ||| Part.stacks) s (setKvHead f off n v s) := by
  unfold setKvHead
  repeat' with_reducible first
      | apply Keeps.refl | assumption | (apply Part.named; decide)
      | apply Keeps.via (kvWr_keeps _ _ _ _ _)

theorem setKvWord_keeps (f k v : Nat) (s : State) :
    Keeps (Part.regs ||| Part.memory ||| Part.records ||| Part.stacks) s (setKvWord f k v s) := by
  unfold setKvWord
  repeat' with_reducible first
      | apply Keeps.refl | assumption | (apply Part.named; decide)
      | apply Keeps.via (kvWr_keeps _ _ _ _ _)

theorem kvPush_keeps (f k : Nat) (s : State) : Keeps (Part.regs ||| Part.memory ||| Part.records ||| Part.stacks) s (kvPush f k s) := by
  unfold kvPush
  repeat' with_reducible first
      | apply Keeps.refl | assumption | (apply Part.named; decide)
      | (extract_lets +onlyGivenNames x; first | (refine keepsLet (x := x) ?_ ?_; (on_goal 2 => (clear_value x; intro _)); (on_goal 1 => (unfold x; clear x))) | skip)
      | apply Keeps.via (kvWr_keeps _ _ _ _ _)
      | apply Keeps.via (setKvWord_keeps _ _ _ _)
      | apply Keeps.via (setKvHead_keeps _ _ _ _ _)

theorem kvPop_keeps (f d : Nat) (s : State) :
    KeepsOpt (Part.regs ||| Part.memory ||| Part.records ||| Part.stacks) (fun r => r.2) s (kvPop f d s) := by
  unfold kvPop
  repeat' with_reducible first
      | apply Keeps.refl | assumption | (apply Part.named; decide)
      | apply KeepsOpt.none | apply KeepsOpt.some
      | (extract_lets +onlyGivenNames x; first | (refine keepsLet (x := x) ?_ ?_; (on_goal 2 => (clear_value x; intro _)); (on_goal 1 => (unfold x; clear x))) | skip)
      | apply Keeps.via (setKvHead_keeps _ _ _ _ _)
      | apply Keeps.via (setKvWord_keeps _ _ _ _)
      | apply Keeps.via (addReg_keeps _ _ _)
      | apply Keeps.ite
      | split

theorem kvPopMany_keeps (y0 : Nat) (y1 : Nat) (y2 : Nat) (y3 : State) :
    KeepsOpt (Part.regs ||| Part.memory ||| Part.records ||| Part.stacks) (fun r => r.2) y3 (kvPopMany y0 y1 y2 y3) := by
  induction y0 generalizing y1 y2 y3 with
  | zero =>
    unfold kvPopMany
    repeat' with_reducible first
        | apply Keeps.refl | assumption | (apply Part.named; decide)
        | apply KeepsOpt.none | apply KeepsOpt.some
        | (apply KeepsOpt.get2 (kvPop_keeps _ _ _); on_goal 1 => assumption)
        | (apply KeepsOpt.get (kvPop_keeps _ _ _); on_goal 1 => assumption)
        | apply KeepsOpt.mapVia (kvPop_keeps _ _ _)
        | (apply KeepsOpt.get2 (ih _ _ _); on_goal 1 => assumption)
        | apply KeepsOpt.mapVia (ih _ _ _)
        | intro _
        | split
  | succ n ih =>
    unfold kvPopMany
    repeat' with_reducible first
        | apply Keeps.refl | assumption | (apply Part.named; decide)
        | apply KeepsOpt.none | apply KeepsOpt.some
        | (apply KeepsOpt.get2 (kvPop_keeps _ _ _); on_goal 1 => assumption)
        | (apply KeepsOpt.get (kvPop_keeps _ _ _); on_goal 1 => assumption)
        | apply KeepsOpt.mapVia (kvPop_keeps _ _ _)
        | (apply KeepsOpt.get2 (ih _ _ _); on_goal 1 => assumption)
        | apply KeepsOpt.mapVia (ih _ _ _)
        | intro _
        | split

theorem kvDrop_keeps (f k : Nat) (s : State) : Keeps (Part.regs ||| Part.memory ||| Part.records ||| Part.stacks) s (kvDrop f k s).2 := by
  unfold kvDrop
  repeat' with_reducible first
      | apply Keeps.refl | assumption | (apply Part.named; decide)
      | (extract_lets +onlyGivenNames x; first | (refine keepsLet (x := x) ?_ ?_; (on_goal 2 => (clear_value x; intro _)); (on_goal 1 => (unfold x; clear x))) | skip)
      | apply Keeps.via (setKvWord_keeps _ _ _ _)
      | apply Keeps.via (kvPush_keeps _ _ _)
      | apply Keeps.ite

theorem kvZeroPage_keeps (f k : Nat) (s : State) : Keeps Part.memory s (kvZeroPage f k s) := by
  unfold kvZeroPage
  repeat' with_reducible first
      | apply Keeps.refl | assumption | (apply Part.named; decide)
      | apply Keeps.via (zeroRange_keeps _ _ _)
      | split

theorem setBlockEnt_keeps (f q l j v : Nat) (s : State) :
    Keeps (Part.regs ||| Part.memory ||| Part.records ||| Part.stacks) s (setBlockEnt f q l j v s) := by
  unfold setBlockEnt
  repeat' with_reducible first
      | apply Keeps.refl | assumption | (apply Part.named; decide)
      | apply Keeps.via (kvWr_keeps _ _ _ _ _)

theorem touchSeq_keeps (f q : Nat) (s : State) : Keeps (Part.regs ||| Part.memory ||| Part.records ||| Part.stacks) s (touchSeq f q s) := by
  unfold touchSeq
  repeat' with_reducible first
      | apply Keeps.refl | assumption | (apply Part.named; decide)
      | apply Keeps.via (kvWr_keeps _ _ _ _ _)

theorem modAtt_keeps (d : Nat) (g : Attention → Attention) (s : State) : Keeps Part.atts s (modAtt d g s) := by
  unfold modAtt
  repeat' with_reducible first
      | apply Keeps.refl | assumption | (apply Part.named; decide)
      | fail_if_no_progress (apply Keeps.via (Keeps.putAtts _ _))

theorem labDrop_keeps (f : Nat) (q : Option Nat) (s : State) : Keeps Part.atts s (labDrop f q s) := by
  unfold labDrop
  repeat' with_reducible first
      | apply Keeps.refl | assumption | (apply Part.named; decide)
      | apply Keeps.via (modAtt_keeps _ _ _)
      | apply Keeps.foldl_via
      | intro _

theorem kvCopy_keeps (f src dst n : Nat) (s : State) :
    Keeps (Part.regs ||| Part.memory ||| Part.records ||| Part.towers ||| Part.stacks ||| Part.hub) s (kvCopy f src dst n s).2 := by
  unfold kvCopy
  repeat' with_reducible first
      | apply Keeps.refl | assumption | (apply Part.named; decide)
      | (extract_lets +onlyGivenNames x; first | (refine keepsLet (x := x) ?_ ?_; (on_goal 2 => (clear_value x; intro _)); (on_goal 1 => (unfold x; clear x))) | skip)
      | apply Keeps.via (busError_keeps _ _ _)
      | apply Keeps.via (writeSpan_keeps _ _ _ _ _)
      | (apply keepsEq (fun r => r.s) (writeSpan_keeps _ _ _ _ _); on_goal 1 => assumption)
      | apply Keeps.via (Wrote.start_keeps _)
      | apply Keeps.via (readError_keeps _ _ _)
      | apply Keeps.ite
      | apply Keeps.foldl2_via
      | intro _

theorem unstack_keeps (f d k : Nat) (s : State) :
    Keeps (Part.regs ||| Part.memory ||| Part.records ||| Part.stacks) s (unstack f d k s) := by
  unfold unstack
  repeat' with_reducible first
      | apply Keeps.refl | assumption | (apply Part.named; decide)
      | (extract_lets +onlyGivenNames x; first | (refine keepsLet (x := x) ?_ ?_; (on_goal 2 => (clear_value x; intro _)); (on_goal 1 => (unfold x; clear x))) | skip)
      | apply Keeps.via (kvWr_keeps _ _ _ _ _)
      | apply Keeps.via (setKvHead_keeps _ _ _ _ _)
      | apply Keeps.foldl_via
      | intro _

theorem renameBlocks_keeps (f old new : Nat) (blot : Bool) (s : State) :
    Keeps (Part.regs ||| Part.memory ||| Part.records ||| Part.stacks) s (renameBlocks f old new blot s) := by
  unfold renameBlocks
  repeat' with_reducible first
      | apply Keeps.refl | assumption | (apply Part.named; decide)
      | (extract_lets +onlyGivenNames x; first | (refine keepsLet (x := x) ?_ ?_; (on_goal 2 => (clear_value x; intro _)); (on_goal 1 => (unfold x; clear x))) | skip)
      | apply Keeps.via (setBlockEnt_keeps _ _ _ _ _ _)
      | apply Keeps.ite
      | apply Keeps.foldl_via
      | intro _

theorem renameTables_keeps (f old new : Nat) (s : State) :
    Keeps (Part.regs ||| Part.memory ||| Part.records ||| Part.stacks) s (renameTables f old new s) := by
  unfold renameTables
  repeat' with_reducible first
      | apply Keeps.refl | assumption | (apply Part.named; decide)
      | (extract_lets +onlyGivenNames x; first | (refine keepsLet (x := x) ?_ ?_; (on_goal 2 => (clear_value x; intro _)); (on_goal 1 => (unfold x; clear x))) | skip)
      | apply Keeps.via (kvWr_keeps _ _ _ _ _)
      | apply Keeps.ite
      | apply Keeps.foldl_via
      | intro _

theorem movePage_keeps (f k : Nat) (s : State) :
    Keeps (Part.regs ||| Part.memory ||| Part.records ||| Part.atts ||| Part.towers ||| Part.stacks ||| Part.hub) s (movePage f k s) := by
  unfold movePage
  repeat' with_reducible first
      | apply Keeps.refl | assumption | (apply Part.named; decide)
      | (extract_lets +onlyGivenNames x; first | (refine keepsLet (x := x) ?_ ?_; (on_goal 2 => (clear_value x; intro _)); (on_goal 1 => (unfold x; clear x))) | skip)
      | (apply KeepsOpt.get2 (kvPop_keeps _ _ _); on_goal 1 => assumption)
      | (apply KeepsOpt.get (kvPop_keeps _ _ _); on_goal 1 => assumption)
      | apply Keeps.via (kvCopy_keeps _ _ _ _ _)
      | (apply keepsEq2 (kvCopy_keeps _ _ _ _ _); on_goal 1 => assumption)
      | apply Keeps.via (setKvWord_keeps _ _ _ _)
      | apply Keeps.via (renameTables_keeps _ _ _ _)
      | apply Keeps.via (renameBlocks_keeps _ _ _ _ _)
      | apply Keeps.via (labDrop_keeps _ _ _)
      | apply Keeps.ite
      | split

theorem withdrawPage_keeps (f k : Nat) (s : State) :
    Keeps (Part.regs ||| Part.memory ||| Part.records ||| Part.atts ||| Part.towers ||| Part.stacks ||| Part.hub) s (withdrawPage f k s) := by
  unfold withdrawPage
  repeat' with_reducible first
      | apply Keeps.refl | assumption | (apply Part.named; decide)
      | (extract_lets +onlyGivenNames x; first | (refine keepsLet (x := x) ?_ ?_; (on_goal 2 => (clear_value x; intro _)); (on_goal 1 => (unfold x; clear x))) | skip)
      | apply Keeps.via (setKvHead_keeps _ _ _ _ _)
      | apply Keeps.via (setKvWord_keeps _ _ _ _)
      | apply Keeps.via (unstack_keeps _ _ _ _)
      | apply Keeps.via (movePage_keeps _ _ _)
      | apply Keeps.ite

theorem withdrawAll_keeps (p : DramLoc → Bool) (s : State) :
    Keeps (Part.regs ||| Part.memory ||| Part.records ||| Part.atts ||| Part.towers ||| Part.stacks ||| Part.hub) s (withdrawAll p s) := by
  unfold withdrawAll
  repeat' with_reducible first
      | apply Keeps.refl | assumption | (apply Part.named; decide)
      | apply Keeps.via (withdrawPage_keeps _ _ _)
      | apply Keeps.foldl_via
      | intro _

theorem popSlot_keeps (f : Nat) (s : State) :
    KeepsOpt (Part.regs ||| Part.memory ||| Part.records ||| Part.stacks) (fun r => r.2) s (popSlot f s) := by
  unfold popSlot
  repeat' with_reducible first
      | apply Keeps.refl | assumption | (apply Part.named; decide)
      | apply KeepsOpt.none | apply KeepsOpt.some
      | (extract_lets +onlyGivenNames x; first | (refine keepsLet (x := x) ?_ ?_; (on_goal 2 => (clear_value x; intro _)); (on_goal 1 => (unfold x; clear x))) | skip)
      | apply Keeps.via (setKvHead_keeps _ _ _ _ _)
      | apply Keeps.ite
      | split

theorem pushSlot_keeps (f k : Nat) (s : State) : Keeps (Part.regs ||| Part.memory ||| Part.records ||| Part.stacks) s (pushSlot f k s) := by
  unfold pushSlot
  repeat' with_reducible first
      | apply Keeps.refl | assumption | (apply Part.named; decide)
      | (extract_lets +onlyGivenNames x; first | (refine keepsLet (x := x) ?_ ?_; (on_goal 2 => (clear_value x; intro _)); (on_goal 1 => (unfold x; clear x))) | skip)
      | apply Keeps.via (setKvHead_keeps _ _ _ _ _)
      | apply Keeps.via (kvWr_keeps _ _ _ _ _)

theorem spillBlock_keeps (f q l j : Nat) (s : State) :
    Keeps (Part.regs ||| Part.memory ||| Part.records ||| Part.towers ||| Part.stacks ||| Part.hub) s (spillBlock f q l j s) := by
  unfold spillBlock
  repeat' with_reducible first
      | apply Keeps.refl | assumption | (apply Part.named; decide)
      | (extract_lets +onlyGivenNames x; first | (refine keepsLet (x := x) ?_ ?_; (on_goal 2 => (clear_value x; intro _)); (on_goal 1 => (unfold x; clear x))) | skip)
      | (apply KeepsOpt.get2 (popSlot_keeps _ _); on_goal 1 => assumption)
      | (apply KeepsOpt.get (popSlot_keeps _ _); on_goal 1 => assumption)
      | apply Keeps.via (kvCopy_keeps _ _ _ _ _)
      | (apply keepsEq2 (kvCopy_keeps _ _ _ _ _); on_goal 1 => assumption)
      | apply Keeps.via (setBlockEnt_keeps _ _ _ _ _ _)
      | apply Keeps.via (addReg_keeps _ _ _)
      | apply Keeps.via (kvDrop_keeps _ _ _)
      | (apply keepsEq2 (kvDrop_keeps _ _ _); on_goal 1 => assumption)
      | apply Keeps.ite
      | split

theorem spillSeq_keeps (f q : Nat) (s : State) :
    Keeps (Part.regs ||| Part.memory ||| Part.records ||| Part.atts ||| Part.towers ||| Part.stacks ||| Part.hub) s (spillSeq f q s) := by
  unfold spillSeq
  repeat' with_reducible first
      | apply Keeps.refl | assumption | (apply Part.named; decide)
      | apply Keeps.via (labDrop_keeps _ _ _)
      | apply Keeps.via (spillBlock_keeps _ _ _ _ _)
      | apply Keeps.foldl_via
      | intro _

theorem spillUntil_keeps (y0 : Nat) (y1 : Nat) (y2 : Nat) (y3 : List Nat) (y4 : State) :
    Keeps (Part.regs ||| Part.memory ||| Part.records ||| Part.atts ||| Part.towers ||| Part.stacks ||| Part.hub) y4 (spillUntil y0 y1 y2 y3 y4) := by
  induction y0 generalizing y1 y2 y3 y4 with
  | zero =>
    unfold spillUntil
    repeat' with_reducible first
        | apply Keeps.refl | assumption | (apply Part.named; decide)
        | apply Keeps.via (spillSeq_keeps _ _ _)
        | apply Keeps.via (ih _ _ _ _)
        | apply Keeps.ite
        | split
  | succ n ih =>
    unfold spillUntil
    repeat' with_reducible first
        | apply Keeps.refl | assumption | (apply Part.named; decide)
        | apply Keeps.via (spillSeq_keeps _ _ _)
        | apply Keeps.via (ih _ _ _ _)
        | apply Keeps.ite
        | split

theorem signalKv_keeps (f : Nat) (s : State) : Keeps (Part.regs ||| Part.log) s (signalKv f s) := by
  unfold signalKv
  repeat' with_reducible first
      | apply Keeps.refl | assumption | (apply Part.named; decide)
      | apply Keeps.via (signal_keeps _ _ _)
      | apply Keeps.ite

theorem spillCheck_keeps (f : Nat) (s : State) :
    Keeps (Part.regs ||| Part.memory ||| Part.log ||| Part.records ||| Part.atts ||| Part.towers ||| Part.stacks ||| Part.hub) s (spillCheck f s) := by
  unfold spillCheck
  repeat' with_reducible first
      | apply Keeps.refl | assumption | (apply Part.named; decide)
      | (extract_lets +onlyGivenNames x; first | (refine keepsLet (x := x) ?_ ?_; (on_goal 2 => (clear_value x; intro _)); (on_goal 1 => (unfold x; clear x))) | skip)
      | apply Keeps.via (spillUntil_keeps _ _ _ _ _)
      | apply Keeps.via (signalKv_keeps _ _)
      | apply Keeps.ite

theorem fillBlock_keeps (f q l j : Nat) (s : State) :
    Keeps (Part.regs ||| Part.memory ||| Part.records ||| Part.atts ||| Part.towers ||| Part.stacks ||| Part.hub) s (fillBlock f q l j s) := by
  unfold fillBlock
  repeat' with_reducible first
      | apply Keeps.refl | assumption | (apply Part.named; decide)
      | (extract_lets +onlyGivenNames x; first | (refine keepsLet (x := x) ?_ ?_; (on_goal 2 => (clear_value x; intro _)); (on_goal 1 => (unfold x; clear x))) | skip)
      | apply Keeps.via (spillUntil_keeps _ _ _ _ _)
      | (apply KeepsOpt.get2 (kvPop_keeps _ _ _); on_goal 1 => assumption)
      | (apply KeepsOpt.get (kvPop_keeps _ _ _); on_goal 1 => assumption)
      | apply Keeps.via (kvCopy_keeps _ _ _ _ _)
      | (apply keepsEq2 (kvCopy_keeps _ _ _ _ _); on_goal 1 => assumption)
      | apply Keeps.via (setBlockEnt_keeps _ _ _ _ _ _)
      | apply Keeps.via (addReg_keeps _ _ _)
      | apply Keeps.via (pushSlot_keeps _ _ _)
      | apply Keeps.ite
      | split

theorem fillSeq_keeps (f q : Nat) (s : State) :
    Keeps (Part.regs ||| Part.memory ||| Part.records ||| Part.atts ||| Part.towers ||| Part.stacks ||| Part.hub) s (fillSeq f q s) := by
  unfold fillSeq
  repeat' with_reducible first
      | apply Keeps.refl | assumption | (apply Part.named; decide)
      | apply Keeps.via (labDrop_keeps _ _ _)
      | apply Keeps.via (fillBlock_keeps _ _ _ _ _)
      | apply Keeps.foldl_via
      | intro _

end Sys2Proof.Machine
end

