-- ==== Sys2Proof/Laws/KeepScribe.lean ====
section
/-!
SUPPORT. What each operation and meaning of Machine/Scribe.lean keeps (Laws/Keep.lean).
-/
namespace Sys2Proof.Machine

theorem runOp_keeps (h : CmdHdr) (op : Nat) (params : List Nat) (eff : State → State) (s : State) {m : Nat} (hm : (Part.regs ||| Part.queues) ||| m = m) (heff : ∀ x0, Keeps m x0 (eff x0)) :
    KeepsOut m s (runOp h op params eff s) := by
  unfold runOp
  repeat' with_reducible first
      | apply Keeps.refl | assumption | (apply Part.named; decide)
      | apply Keeps.next
      | apply Keeps.via (fail_keeps _ _ _ _)
      | apply Keeps.viaH (heff _)
      | apply Keeps.ite
      | split

theorem setPair_keeps (f p : Nat) (x : QPair) (s : State) : Keeps Part.queues s (setPair f p x s) := by
  unfold setPair
  repeat' with_reducible first
      | apply Keeps.refl | assumption | (apply Part.named; decide)
      | apply Keeps.via (modScribe_keeps _ _)

theorem dropPair_keeps (f p : Nat) (s : State) : Keeps Part.queues s (dropPair f p s) := by
  unfold dropPair
  repeat' with_reducible first
      | apply Keeps.refl | assumption | (apply Part.named; decide)
      | apply Keeps.via (modScribe_keeps _ _)

theorem setEpochs_keeps (f p sq cq : Nat) (s : State) : Keeps Part.regs s (setEpochs f p sq cq s) := by
  unfold setEpochs
  repeat' with_reducible first
      | apply Keeps.refl | assumption | (apply Part.named; decide)
      | apply Keeps.via (setReg_keeps _ _ _)

theorem execSqDoorbell_keeps (fn : Fin 65) (pair : Fin 8) (d : BitVec 32) (s : State) :
    KeepsOut (Part.regs ||| Part.queues) s (execSqDoorbell fn pair d s) := by
  unfold execSqDoorbell
  repeat' with_reducible first
      | apply Keeps.refl | assumption | (apply Part.named; decide)
      | apply Keeps.next
      | (extract_lets +onlyGivenNames x; first | (refine keepsLet (x := x) ?_ ?_; (on_goal 2 => (clear_value x; intro _)); (on_goal 1 => (unfold x; clear x))) | (refine keepsLetO (x := x) ?_ ?_; (on_goal 2 => (clear_value x; intro _)); (on_goal 1 => (unfold x; clear x))) | skip)
      | apply Keeps.via (addReg_keeps _ _ _)
      | apply Keeps.via (setPair_keeps _ _ _ _)
      | apply Keeps.ite
      | apply KeepsOut.ite
      | split

theorem execCqHeadDoorbell_keeps (fn : Fin 65) (pair : Fin 8) (d : BitVec 32) (s : State) :
    KeepsOut Part.queues s (execCqHeadDoorbell fn pair d s) := by
  unfold execCqHeadDoorbell
  repeat' with_reducible first
      | apply Keeps.refl | assumption | (apply Part.named; decide)
      | apply Keeps.next
      | (extract_lets +onlyGivenNames x; first | (refine keepsLet (x := x) ?_ ?_; (on_goal 2 => (clear_value x; intro _)); (on_goal 1 => (unfold x; clear x))) | (refine keepsLetO (x := x) ?_ ?_; (on_goal 2 => (clear_value x; intro _)); (on_goal 1 => (unfold x; clear x))) | skip)
      | apply Keeps.via (setPair_keeps _ _ _ _)
      | apply Keeps.ite
      | apply KeepsOut.ite
      | split

theorem startCmd_keeps (c : Cmd) (s : State) : Keeps Part.queues s (startCmd c s) := by
  unfold startCmd
  repeat' with_reducible first
      | apply Keeps.refl | assumption | (apply Part.named; decide)
      | apply Keeps.via (modScribe_keeps _ _)
      | apply Keeps.via (Wrote.start_keeps _)
      | apply Keeps.ite

theorem execCommandDispatch_keeps (s : State) :
    KeepsOut (Part.regs ||| Part.log ||| Part.records ||| Part.queues ||| Part.clusters ||| Part.scores ||| Part.hurdles ||| Part.links ||| Part.coll) s (execCommandDispatch s) := by
  unfold execCommandDispatch
  repeat' with_reducible first
      | apply Keeps.refl | assumption | (apply Part.named; decide)
      | apply Keeps.next
      | (extract_lets +onlyGivenNames x; first | (refine keepsLet (x := x) ?_ ?_; (on_goal 2 => (clear_value x; intro _)); (on_goal 1 => (unfold x; clear x))) | (refine keepsLetO (x := x) ?_ ?_; (on_goal 2 => (clear_value x; intro _)); (on_goal 1 => (unfold x; clear x))) | skip)
      | apply Keeps.via (setPair_keeps _ _ _ _)
      | apply Keeps.via (modScribe_keeps _ _)
      | apply Keeps.via (arrive_keeps _ _ _)
      | apply Keeps.via (fail_keeps _ _ _ _)
      | apply Keeps.via (startCmd_keeps _ _)
      | apply Keeps.via (hurdleCycle_keeps _ _ _)
      | apply Keeps.ite
      | apply KeepsOut.ite
      | split
      | fail_if_no_progress (apply Keeps.via (Keeps.putHwaits _ _))

theorem execCommandWaitRelease_keeps (s : State) : KeepsOut (Part.queues ||| Part.hurdles) s (execCommandWaitRelease s) := by
  unfold execCommandWaitRelease
  repeat' with_reducible first
      | apply Keeps.refl | assumption | (apply Part.named; decide)
      | apply Keeps.next
      | (extract_lets +onlyGivenNames x; first | (refine keepsLet (x := x) ?_ ?_; (on_goal 2 => (clear_value x; intro _)); (on_goal 1 => (unfold x; clear x))) | (refine keepsLetO (x := x) ?_ ?_; (on_goal 2 => (clear_value x; intro _)); (on_goal 1 => (unfold x; clear x))) | skip)
      | apply Keeps.via (putHurdle_keeps _ _ _)
      | apply Keeps.via (startCmd_keeps _ _)
      | apply Keeps.via (modScribe_keeps _ _)
      | split

theorem execFirmwareInboxServe_keeps (s : State) : KeepsOut Part.queues s (execFirmwareInboxServe s) := by
  unfold execFirmwareInboxServe
  repeat' with_reducible first
      | apply Keeps.refl | assumption | (apply Part.named; decide)
      | apply Keeps.next
      | apply Keeps.via (modScribe_keeps _ _)
      | apply Keeps.via (Wrote.start_keeps _)
      | apply Keeps.ite
      | apply KeepsOut.ite
      | split

theorem coalesce_keeps (f q : Nat) (p : QPair) (s : State) : Keeps (Part.regs ||| Part.log ||| Part.queues) s (coalesce f q p s) := by
  unfold coalesce
  repeat' with_reducible first
      | apply Keeps.refl | assumption | (apply Part.named; decide)
      | (extract_lets +onlyGivenNames x; first | (refine keepsLet (x := x) ?_ ?_; (on_goal 2 => (clear_value x; intro _)); (on_goal 1 => (unfold x; clear x))) | skip)
      | apply Keeps.via (signal_keeps _ _ _)
      | apply Keeps.via (setPair_keeps _ _ _ _)
      | apply Keeps.ite

theorem writeReply_keeps (r : Reply) (s : State) :
    Keeps (Part.regs ||| Part.memory ||| Part.host ||| Part.log ||| Part.records ||| Part.queues ||| Part.clusters ||| Part.scores ||| Part.hurdles ||| Part.stacks ||| Part.links ||| Part.coll) s (writeReply r s) := by
  unfold writeReply
  repeat' with_reducible first
      | apply Keeps.refl | assumption | (apply Part.named; decide)
      | (extract_lets +onlyGivenNames x; first | (refine keepsLet (x := x) ?_ ?_; (on_goal 2 => (clear_value x; intro _)); (on_goal 1 => (unfold x; clear x))) | skip)
      | apply Keeps.via (writeSpan_keeps _ _ _ _ _)
      | (apply keepsEq (fun r => r.s) (writeSpan_keeps _ _ _ _ _); on_goal 1 => assumption)
      | apply Keeps.via (hostWrite_keeps _ _ _ _)
      | apply Keeps.via (coalesce_keeps _ _ _ _)
      | apply Keeps.via (arrive_keeps _ _ _)
      | apply Keeps.via (Wrote.start_keeps _)
      | apply Keeps.ite
      | split

theorem execStatusReplyWrite_keeps (s : State) :
    KeepsOut (Part.regs ||| Part.memory ||| Part.host ||| Part.log ||| Part.records ||| Part.queues ||| Part.clusters ||| Part.scores ||| Part.hurdles ||| Part.stacks ||| Part.links ||| Part.coll) s (execStatusReplyWrite s) := by
  unfold execStatusReplyWrite
  repeat' with_reducible first
      | apply Keeps.refl | assumption | (apply Part.named; decide)
      | apply Keeps.next
      | apply Keeps.via (writeReply_keeps _ _)
      | apply Keeps.via (modScribe_keeps _ _)
      | split

theorem execCqCoalTimeout_keeps (fn : Fin 65) (pair : Fin 8) (t : Nat) (s : State) :
    KeepsOut (Part.regs ||| Part.time ||| Part.log ||| Part.queues) s (execCqCoalTimeout fn pair t s) := by
  unfold execCqCoalTimeout
  repeat' with_reducible first
      | apply Keeps.refl | assumption | (apply Part.named; decide)
      | apply Keeps.next
      | (extract_lets +onlyGivenNames x; first | (refine keepsLet (x := x) ?_ ?_; (on_goal 2 => (clear_value x; intro _)); (on_goal 1 => (unfold x; clear x))) | (refine keepsLetO (x := x) ?_ ?_; (on_goal 2 => (clear_value x; intro _)); (on_goal 1 => (unfold x; clear x))) | skip)
      | apply Keeps.via (signal_keeps _ _ _)
      | apply Keeps.via (setPair_keeps _ _ _ _)
      | apply Keeps.ite
      | apply KeepsOut.ite
      | apply Keeps.via (Keeps.later _ _)
      | split

theorem execNop_keeps (h : CmdHdr) (s : State) : KeepsOut (Part.regs ||| Part.queues) s (execNop h s) := by
  unfold execNop
  repeat' with_reducible first
      | apply Keeps.refl | assumption | (apply Part.named; decide)
      | apply Keeps.next
      | apply KeepsOut.viaH (runOp_keeps _ _ _ _ _ ?_ ?_)
      | apply Keeps.via (fail_keeps _ _ _ _)
      | intro _

theorem execCreateQueue_keeps (h : CmdHdr) (q : QueueArgs) (s : State) : KeepsOut (Part.regs ||| Part.queues) s (execCreateQueue h q s) := by
  unfold execCreateQueue
  repeat' with_reducible first
      | apply Keeps.refl | assumption | (apply Part.named; decide)
      | apply Keeps.next
      | apply KeepsOut.viaH (runOp_keeps _ _ _ _ _ ?_ ?_)
      | apply Keeps.via (fail_keeps _ _ _ _)
      | apply Keeps.via (finish_keeps _ _ _ _ _ _ _)
      | apply Keeps.via (setEpochs_keeps _ _ _ _ _)
      | apply Keeps.via (setPair_keeps _ _ _ _)
      | apply Keeps.ite
      | apply KeepsOut.ite
      | intro _

theorem deletePair_keeps (f q : Nat) (s : State) : Keeps (Part.regs ||| Part.queues ||| Part.hurdles) s (deletePair f q s) := by
  unfold deletePair
  repeat' with_reducible first
      | apply Keeps.refl | assumption | (apply Part.named; decide)
      | (extract_lets +onlyGivenNames x; first | (refine keepsLet (x := x) ?_ ?_; (on_goal 2 => (clear_value x; intro _)); (on_goal 1 => (unfold x; clear x))) | skip)
      | apply Keeps.via (modScribe_keeps _ _)
      | apply Keeps.via (fail_keeps _ _ _ _)
      | apply Keeps.via (setReg_keeps _ _ _)
      | apply Keeps.via (dropPair_keeps _ _ _)
      | apply Keeps.foldl_via
      | intro _
      | fail_if_no_progress (apply Keeps.via (Keeps.putHwaits _ _))

theorem execDeleteQueue_keeps (h : CmdHdr) (pair : Nat) (s : State) : KeepsOut (Part.regs ||| Part.queues ||| Part.hurdles) s (execDeleteQueue h pair s) := by
  unfold execDeleteQueue
  repeat' with_reducible first
      | apply Keeps.refl | assumption | (apply Part.named; decide)
      | apply Keeps.next
      | apply KeepsOut.viaH (runOp_keeps _ _ _ _ _ ?_ ?_)
      | apply Keeps.via (fail_keeps _ _ _ _)
      | apply Keeps.via (deletePair_keeps _ _ _)
      | apply Keeps.ite
      | apply KeepsOut.ite
      | intro _

theorem execFlushQueue_keeps (h : CmdHdr) (pair : Nat) (s : State) : KeepsOut (Part.regs ||| Part.queues) s (execFlushQueue h pair s) := by
  unfold execFlushQueue
  repeat' with_reducible first
      | apply Keeps.refl | assumption | (apply Part.named; decide)
      | apply Keeps.next
      | (extract_lets +onlyGivenNames x; first | (refine keepsLet (x := x) ?_ ?_; (on_goal 2 => (clear_value x; intro _)); (on_goal 1 => (unfold x; clear x))) | (refine keepsLetO (x := x) ?_ ?_; (on_goal 2 => (clear_value x; intro _)); (on_goal 1 => (unfold x; clear x))) | skip)
      | apply KeepsOut.viaH (runOp_keeps _ _ _ _ _ ?_ ?_)
      | apply Keeps.via (fail_keeps _ _ _ _)
      | apply Keeps.via (finish_keeps _ _ _ _ _ _ _)
      | apply Keeps.via (setEpochs_keeps _ _ _ _ _)
      | apply Keeps.via (setPair_keeps _ _ _ _)
      | apply Keeps.ite
      | apply KeepsOut.ite
      | intro _
      | split

theorem execViQ0Enable_keeps (fn : Fin 65) (d : BitVec 32) (s : State) : KeepsOut (Part.regs ||| Part.queues ||| Part.hurdles) s (execViQ0Enable fn d s) := by
  unfold execViQ0Enable
  repeat' with_reducible first
      | apply Keeps.refl | assumption | (apply Part.named; decide)
      | apply Keeps.next
      | (extract_lets +onlyGivenNames x; first | (refine keepsLet (x := x) ?_ ?_; (on_goal 2 => (clear_value x; intro _)); (on_goal 1 => (unfold x; clear x))) | (refine keepsLetO (x := x) ?_ ?_; (on_goal 2 => (clear_value x; intro _)); (on_goal 1 => (unfold x; clear x))) | skip)
      | apply Keeps.via (setReg_keeps _ _ _)
      | apply Keeps.via (setEpochs_keeps _ _ _ _ _)
      | apply Keeps.via (setPair_keeps _ _ _ _)
      | apply Keeps.via (deletePair_keeps _ _ _)
      | apply Keeps.ite
      | apply KeepsOut.ite
      | split

theorem execHurdleArrive_keeps (h : CmdHdr) (count hurdle : Nat) (s : State) :
    KeepsOut (Part.regs ||| Part.log ||| Part.records ||| Part.queues ||| Part.clusters ||| Part.scores ||| Part.hurdles ||| Part.links ||| Part.coll) s (execHurdleArrive h count hurdle s) := by
  unfold execHurdleArrive
  repeat' with_reducible first
      | apply Keeps.refl | assumption | (apply Part.named; decide)
      | apply Keeps.next
      | apply KeepsOut.viaH (runOp_keeps _ _ _ _ _ ?_ ?_)
      | apply Keeps.via (fail_keeps _ _ _ _)
      | apply Keeps.via (arrive_keeps _ _ _)
      | apply Keeps.ite
      | apply KeepsOut.ite
      | intro _

theorem execHurdleWait_keeps (h : CmdHdr) (hurdle : Nat) (s : State) :
    KeepsOut (Part.regs ||| Part.records ||| Part.queues ||| Part.clusters ||| Part.scores ||| Part.hurdles ||| Part.coll) s (execHurdleWait h hurdle s) := by
  unfold execHurdleWait
  repeat' with_reducible first
      | apply Keeps.refl | assumption | (apply Part.named; decide)
      | apply Keeps.next
      | (extract_lets +onlyGivenNames x; first | (refine keepsLet (x := x) ?_ ?_; (on_goal 2 => (clear_value x; intro _)); (on_goal 1 => (unfold x; clear x))) | (refine keepsLetO (x := x) ?_ ?_; (on_goal 2 => (clear_value x; intro _)); (on_goal 1 => (unfold x; clear x))) | skip)
      | apply KeepsOut.viaH (runOp_keeps _ _ _ _ _ ?_ ?_)
      | apply Keeps.via (fail_keeps _ _ _ _)
      | apply Keeps.via (hurdleCycle_keeps _ _ _)
      | apply Keeps.ite
      | apply KeepsOut.ite
      | intro _
      | fail_if_no_progress (apply Keeps.via (Keeps.putHwaits _ _))

end Sys2Proof.Machine
end

