-- ==== Sys2Proof/Laws/KeepKvCommands.lean ====
section
/-!
SUPPORT. What each operation and meaning of Machine/KvCommands.lean keeps (Laws/Keep.lean).
-/
namespace Sys2Proof.Machine

theorem kvServe_keeps (h : CmdHdr) (op : Nat) (l : List Nat) (eff : State → State) (s : State) {m : Nat} (hm : Part.atts ||| m = m)
    (heff : ∀ x0, Keeps m x0 (eff x0)) : Keeps m s (kvServe h op l eff s) := by
  unfold kvServe
  repeat' with_reducible first
      | apply Keeps.refl | assumption | (apply Part.named; decide)
      | (extract_lets +onlyGivenNames x; first | (refine keepsLet (x := x) ?_ ?_; (on_goal 2 => (clear_value x; intro _)); (on_goal 1 => (unfold x; clear x))) | skip)
      | apply Keeps.via (modAtt_keeps _ _ _)
      | apply Keeps.viaH (heff _)
      | apply Keeps.ite
      | apply Keeps.foldl_via
      | intro _

theorem zeroBlocks_keeps (f a n : Nat) (s : State) : Keeps Part.memory s (zeroBlocks f a n s) := by
  unfold zeroBlocks
  repeat' with_reducible first
      | apply Keeps.refl | assumption | (apply Part.named; decide)
      | apply Keeps.via (zeroRange_keeps _ _ _)
      | apply Keeps.foldl_via
      | intro _
      | split

theorem initPool_keeps (f base pages pageBytes : Nat) (s : State) :
    Keeps (Part.regs ||| Part.memory ||| Part.records ||| Part.queues ||| Part.atts ||| Part.stacks) s (initPool f base pages pageBytes s) := by
  unfold initPool
  repeat' with_reducible first
      | apply Keeps.refl | assumption | (apply Part.named; decide)
      | (extract_lets +onlyGivenNames x; first | (refine keepsLet (x := x) ?_ ?_; (on_goal 2 => (clear_value x; intro _)); (on_goal 1 => (unfold x; clear x))) | skip)
      | apply Keeps.via (modFn_keeps _ _ _)
      | apply Keeps.via (zeroBlocks_keeps _ _ _ _)
      | apply Keeps.via (setKvHead_keeps _ _ _ _ _)
      | apply Keeps.via (labDrop_keeps _ _ _)
      | apply Keeps.via (setKvWord_keeps _ _ _ _)
      | apply Keeps.via (kvPush_keeps _ _ _)
      | apply Keeps.ite
      | apply Keeps.foldl_via
      | intro _

theorem execKvPoolSet_keeps (h : CmdHdr) (base pages pageBytes : Nat) (s : State) :
    KeepsOut (Part.regs ||| Part.memory ||| Part.records ||| Part.queues ||| Part.atts ||| Part.stacks) s (execKvPoolSet h base pages pageBytes s) := by
  unfold execKvPoolSet
  repeat' with_reducible first
      | apply Keeps.refl | assumption | (apply Part.named; decide)
      | apply Keeps.next
      | (extract_lets +onlyGivenNames x; first | (refine keepsLet (x := x) ?_ ?_; (on_goal 2 => (clear_value x; intro _)); (on_goal 1 => (unfold x; clear x))) | (refine keepsLetO (x := x) ?_ ?_; (on_goal 2 => (clear_value x; intro _)); (on_goal 1 => (unfold x; clear x))) | skip)
      | apply KeepsOut.viaH (runOp_keeps _ _ _ _ _ ?_ ?_)
      | apply Keeps.via (fail_keeps _ _ _ _)
      | apply Keeps.via (initPool_keeps _ _ _ _ _)
      | apply Keeps.ite
      | apply KeepsOut.ite
      | intro _

theorem newTables_keeps (f q layers : Nat) (pages : List Nat) (s : State) :
    Keeps (Part.regs ||| Part.memory ||| Part.records ||| Part.stacks) s (newTables f q layers pages s) := by
  unfold newTables
  repeat' with_reducible first
      | apply Keeps.refl | assumption | (apply Part.named; decide)
      | (extract_lets +onlyGivenNames x; first | (refine keepsLet (x := x) ?_ ?_; (on_goal 2 => (clear_value x; intro _)); (on_goal 1 => (unfold x; clear x))) | skip)
      | apply Keeps.via (setKvWord_keeps _ _ _ _)
      | apply Keeps.via (kvZeroPage_keeps _ _ _)
      | apply Keeps.via (kvWr_keeps _ _ _ _ _)
      | apply Keeps.foldl_via
      | intro _

theorem execKvSeqCreate_keeps (h : CmdHdr) (seq layers : Nat) (s : State) :
    KeepsOut (Part.regs ||| Part.memory ||| Part.records ||| Part.queues ||| Part.atts ||| Part.stacks) s (execKvSeqCreate h seq layers s) := by
  unfold execKvSeqCreate
  repeat' with_reducible first
      | apply Keeps.refl | assumption | (apply Part.named; decide)
      | apply Keeps.next
      | (extract_lets +onlyGivenNames x; first | (refine keepsLet (x := x) ?_ ?_; (on_goal 2 => (clear_value x; intro _)); (on_goal 1 => (unfold x; clear x))) | (refine keepsLetO (x := x) ?_ ?_; (on_goal 2 => (clear_value x; intro _)); (on_goal 1 => (unfold x; clear x))) | skip)
      | apply KeepsOut.viaH (runOp_keeps _ _ _ _ _ ?_ ?_)
      | apply Keeps.via (fail_keeps _ _ _ _)
      | (apply KeepsOpt.get2 (kvPopMany_keeps _ _ _ _); on_goal 1 => assumption)
      | (apply KeepsOpt.get (kvPopMany_keeps _ _ _ _); on_goal 1 => assumption)
      | apply Keeps.via (setKvHead_keeps _ _ _ _ _)
      | apply Keeps.via (newTables_keeps _ _ _ _ _)
      | apply Keeps.via (finish_keeps _ _ _ _ _ _ _)
      | apply Keeps.viaH (kvServe_keeps _ _ _ _ _ ?_ ?_)
      | apply Keeps.ite
      | apply KeepsOut.ite
      | intro _
      | split

theorem shareBlock_keeps (f src dst : Nat) (x : Nat × Nat × Nat) (s : State) :
    Keeps (Part.regs ||| Part.memory ||| Part.records ||| Part.stacks) s (shareBlock f src dst x s) := by
  unfold shareBlock
  repeat' with_reducible first
      | apply Keeps.refl | assumption | (apply Part.named; decide)
      | (extract_lets +onlyGivenNames x; first | (refine keepsLet (x := x) ?_ ?_; (on_goal 2 => (clear_value x; intro _)); (on_goal 1 => (unfold x; clear x))) | skip)
      | apply Keeps.via (kvDrop_keeps _ _ _)
      | (apply keepsEq2 (kvDrop_keeps _ _ _); on_goal 1 => assumption)
      | apply Keeps.via (setBlockEnt_keeps _ _ _ _ _ _)
      | apply Keeps.via (setKvWord_keeps _ _ _ _)
      | apply Keeps.ite

theorem forkLayers_keeps (f src dst tokens : Nat) (s : State) :
    Keeps (Part.regs ||| Part.memory ||| Part.records ||| Part.stacks) s (forkLayers f src dst tokens s) := by
  unfold forkLayers
  repeat' with_reducible first
      | apply Keeps.refl | assumption | (apply Part.named; decide)
      | (extract_lets +onlyGivenNames x; first | (refine keepsLet (x := x) ?_ ?_; (on_goal 2 => (clear_value x; intro _)); (on_goal 1 => (unfold x; clear x))) | skip)
      | apply Keeps.via (kvWr_keeps _ _ _ _ _)
      | apply Keeps.ite
      | apply Keeps.foldl_via
      | intro _

theorem execKvSeqFork_keeps (h : CmdHdr) (src dst tokens : Nat) (s : State) :
    KeepsOut (Part.regs ||| Part.memory ||| Part.records ||| Part.queues ||| Part.atts ||| Part.towers ||| Part.stacks ||| Part.hub) s (execKvSeqFork h src dst tokens s) := by
  unfold execKvSeqFork
  repeat' with_reducible first
      | apply Keeps.refl | assumption | (apply Part.named; decide)
      | apply Keeps.next
      | (extract_lets +onlyGivenNames x; first | (refine keepsLet (x := x) ?_ ?_; (on_goal 2 => (clear_value x; intro _)); (on_goal 1 => (unfold x; clear x))) | (refine keepsLetO (x := x) ?_ ?_; (on_goal 2 => (clear_value x; intro _)); (on_goal 1 => (unfold x; clear x))) | skip)
      | apply KeepsOut.viaH (runOp_keeps _ _ _ _ _ ?_ ?_)
      | apply Keeps.via (fail_keeps _ _ _ _)
      | apply Keeps.via (fillSeq_keeps _ _ _)
      | apply Keeps.via (labDrop_keeps _ _ _)
      | apply Keeps.via (shareBlock_keeps _ _ _ _ _)
      | apply Keeps.via (finish_keeps _ _ _ _ _ _ _)
      | apply Keeps.via (forkLayers_keeps _ _ _ _ _)
      | apply Keeps.viaH (kvServe_keeps _ _ _ _ _ ?_ ?_)
      | apply Keeps.ite
      | apply KeepsOut.ite
      | apply Keeps.foldl_via
      | intro _

theorem freePage_keeps (f : Nat) (x : Nat × State) (k : Nat) :
    Keeps (Part.regs ||| Part.memory ||| Part.records ||| Part.stacks) x.2 (freePage f x k).2 := by
  unfold freePage
  repeat' with_reducible first
      | apply Keeps.refl | assumption | (apply Part.named; decide)
      | apply Keeps.via (kvDrop_keeps _ _ _)
      | (apply keepsEq2 (kvDrop_keeps _ _ _); on_goal 1 => assumption)

theorem freeBlock_keeps (f q : Nat) (x : Nat × State) (b : Nat × Nat) : Keeps (Part.regs ||| Part.memory ||| Part.records ||| Part.stacks) x.2 (freeBlock f q x b).2 := by
  unfold freeBlock
  generalize blockEnt x.2 f q b.1 b.2 = e
  cases eSpilled e with
  | true => exact (pushSlot_keeps _ _ _).mono (by decide)
  | false => exact (freePage_keeps _ _ _).mono (by decide)

theorem execKvSeqFree_keeps (h : CmdHdr) (seq : Nat) (s : State) :
    KeepsOut (Part.regs ||| Part.memory ||| Part.records ||| Part.queues ||| Part.atts ||| Part.stacks) s (execKvSeqFree h seq s) := by
  unfold execKvSeqFree
  repeat' with_reducible first
      | apply Keeps.refl | assumption | (apply Part.named; decide)
      | apply Keeps.next
      | (extract_lets +onlyGivenNames x; first | (refine keepsLet (x := x) ?_ ?_; (on_goal 2 => (clear_value x; intro _)); (on_goal 1 => (unfold x; clear x))) | (refine keepsLetO (x := x) ?_ ?_; (on_goal 2 => (clear_value x; intro _)); (on_goal 1 => (unfold x; clear x))) | skip)
      | apply KeepsOut.viaH (runOp_keeps _ _ _ _ _ ?_ ?_)
      | apply Keeps.via (fail_keeps _ _ _ _)
      | apply Keeps.via (labDrop_keeps _ _ _)
      | apply Keeps.via (freeBlock_keeps _ _ _ _)
      | (apply keepsEq2 (freeBlock_keeps _ _ _ _); on_goal 1 => assumption)
      | apply Keeps.via (kvWr_keeps _ _ _ _ _)
      | apply Keeps.via (freePage_keeps _ _ _)
      | (apply keepsEq2 (freePage_keeps _ _ _); on_goal 1 => assumption)
      | apply Keeps.via (finish_keeps _ _ _ _ _ _ _)
      | apply Keeps.via (setKvHead_keeps _ _ _ _ _)
      | apply Keeps.viaH (kvServe_keeps _ _ _ _ _ ?_ ?_)
      | apply Keeps.ite
      | apply KeepsOut.ite
      | apply Keeps.foldl2_via
      | intro _

theorem execKvSpillPolicy_keeps (h : CmdHdr) (farBase farPages high low : Nat) (s : State) :
    KeepsOut (Part.regs ||| Part.memory ||| Part.records ||| Part.queues ||| Part.stacks) s (execKvSpillPolicy h farBase farPages high low s) := by
  unfold execKvSpillPolicy
  repeat' with_reducible first
      | apply Keeps.refl | assumption | (apply Part.named; decide)
      | apply Keeps.next
      | (extract_lets +onlyGivenNames x; first | (refine keepsLet (x := x) ?_ ?_; (on_goal 2 => (clear_value x; intro _)); (on_goal 1 => (unfold x; clear x))) | (refine keepsLetO (x := x) ?_ ?_; (on_goal 2 => (clear_value x; intro _)); (on_goal 1 => (unfold x; clear x))) | skip)
      | apply KeepsOut.viaH (runOp_keeps _ _ _ _ _ ?_ ?_)
      | apply Keeps.via (fail_keeps _ _ _ _)
      | apply Keeps.via (setKvHead_keeps _ _ _ _ _)
      | apply Keeps.via (kvWr_keeps _ _ _ _ _)
      | apply Keeps.ite
      | apply KeepsOut.ite
      | apply Keeps.foldl_via
      | intro _

end Sys2Proof.Machine
end

