-- ==== Sys2Proof/Laws/KeepClears.lean ====
section
/-!
SUPPORT. What each operation and meaning of Machine/Clears.lean keeps (Laws/Keep.lean).
-/
namespace Sys2Proof.Machine

theorem clearWords_keeps (lo hi : Nat) (s : State) : Keeps Part.regs s (clearWords lo hi s) := by
  unfold clearWords
  repeat' with_reducible first
      | apply Keeps.refl | assumption | (apply Part.named; decide)
      | apply Keeps.via (setReg_keeps _ _ _)
      | apply Keeps.foldl_via
      | intro _

theorem onOne_keeps (d : Word) (f : State → State) (s : State) {m : Nat} (hm : 0 ||| m = m) (hf : ∀ x0, Keeps m x0 (f x0)) :
    Keeps m s (onOne d f s) := by
  unfold onOne
  repeat' with_reducible first
      | apply Keeps.refl | assumption | (apply Part.named; decide)
      | apply Keeps.viaH (hf _)
      | apply Keeps.ite

theorem execPaceCountClear_keeps (d : BitVec 32) (s : State) : KeepsOut Part.regs s (execPaceCountClear d s) := by
  unfold execPaceCountClear
  repeat' with_reducible first
      | apply Keeps.refl | assumption | (apply Part.named; decide)
      | apply Keeps.next
      | apply Keeps.viaH (onOne_keeps _ _ _ ?_ ?_)
      | apply Keeps.via (setReg_keeps _ _ _)
      | apply Keeps.via (clearWords_keeps _ _ _)
      | intro _

theorem execViCountClear_keeps (fn : Fin 65) (d : BitVec 32) (s : State) : KeepsOut Part.regs s (execViCountClear fn d s) := by
  unfold execViCountClear
  repeat' with_reducible first
      | apply Keeps.refl | assumption | (apply Part.named; decide)
      | apply Keeps.next
      | apply Keeps.viaH (onOne_keeps _ _ _ ?_ ?_)
      | apply Keeps.via (setReg_keeps _ _ _)
      | apply Keeps.via (clearWords_keeps _ _ _)
      | intro _

theorem execMcCountClear_keeps (c : Fin 64) (core : Fin 18) (d : BitVec 32) (s : State) : KeepsOut Part.regs s (execMcCountClear c core d s) := by
  unfold execMcCountClear
  repeat' with_reducible first
      | apply Keeps.refl | assumption | (apply Part.named; decide)
      | apply Keeps.next
      | apply Keeps.viaH (onOne_keeps _ _ _ ?_ ?_)
      | apply Keeps.via (clearWords_keeps _ _ _)
      | intro _

theorem execVcCountClear_keeps (c : Fin 64) (core : Fin 9) (d : BitVec 32) (s : State) : KeepsOut Part.regs s (execVcCountClear c core d s) := by
  unfold execVcCountClear
  repeat' with_reducible first
      | apply Keeps.refl | assumption | (apply Part.named; decide)
      | apply Keeps.next
      | apply Keeps.viaH (onOne_keeps _ _ _ ?_ ?_)
      | apply Keeps.via (clearWords_keeps _ _ _)
      | intro _

theorem execScCountClear_keeps (c : Fin 64) (core : Fin 4) (d : BitVec 32) (s : State) : KeepsOut Part.regs s (execScCountClear c core d s) := by
  unfold execScCountClear
  repeat' with_reducible first
      | apply Keeps.refl | assumption | (apply Part.named; decide)
      | apply Keeps.next
      | apply Keeps.viaH (onOne_keeps _ _ _ ?_ ?_)
      | apply Keeps.via (clearWords_keeps _ _ _)
      | intro _

theorem execCluBankClear_keeps (c : Fin 64) (d : BitVec 32) (s : State) : KeepsOut Part.regs s (execCluBankClear c d s) := by
  unfold execCluBankClear
  repeat' with_reducible first
      | apply Keeps.refl | assumption | (apply Part.named; decide)
      | apply Keeps.next
      | apply Keeps.viaH (onOne_keeps _ _ _ ?_ ?_)
      | apply Keeps.via (clearWords_keeps _ _ _)
      | intro _

theorem execTwrProtClear_keeps (t : Fin 16) (d : BitVec 32) (s : State) : KeepsOut Part.regs s (execTwrProtClear t d s) := by
  unfold execTwrProtClear
  repeat' with_reducible first
      | apply Keeps.refl | assumption | (apply Part.named; decide)
      | apply Keeps.next
      | apply Keeps.viaH (onOne_keeps _ _ _ ?_ ?_)
      | apply Keeps.via (clearWords_keeps _ _ _)
      | apply Keeps.via (setReg_keeps _ _ _)
      | intro _

theorem execTwrConfClear_keeps (t : Fin 16) (d : BitVec 32) (s : State) : KeepsOut Part.regs s (execTwrConfClear t d s) := by
  unfold execTwrConfClear
  repeat' with_reducible first
      | apply Keeps.refl | assumption | (apply Part.named; decide)
      | apply Keeps.next
      | apply Keeps.viaH (onOne_keeps _ _ _ ?_ ?_)
      | apply Keeps.via (clearWords_keeps _ _ _)
      | intro _

theorem execDirCountClear_keeps (m : Fin 8) (d : BitVec 32) (s : State) : KeepsOut Part.regs s (execDirCountClear m d s) := by
  unfold execDirCountClear
  repeat' with_reducible first
      | apply Keeps.refl | assumption | (apply Part.named; decide)
      | apply Keeps.next
      | apply Keeps.viaH (onOne_keeps _ _ _ ?_ ?_)
      | apply Keeps.via (clearWords_keeps _ _ _)
      | intro _

theorem execMscEccClear_keeps (m : Fin 8) (d : BitVec 32) (s : State) : KeepsOut Part.regs s (execMscEccClear m d s) := by
  unfold execMscEccClear
  repeat' with_reducible first
      | apply Keeps.refl | assumption | (apply Part.named; decide)
      | apply Keeps.next
      | apply Keeps.viaH (onOne_keeps _ _ _ ?_ ?_)
      | apply Keeps.via (clearWords_keeps _ _ _)
      | intro _

theorem execMscSrcClear_keeps (m : Fin 8) (d : BitVec 32) (s : State) : KeepsOut Part.regs s (execMscSrcClear m d s) := by
  unfold execMscSrcClear
  repeat' with_reducible first
      | apply Keeps.refl | assumption | (apply Part.named; decide)
      | apply Keeps.next
      | apply Keeps.viaH (onOne_keeps _ _ _ ?_ ?_)
      | apply Keeps.via (clearWords_keeps _ _ _)
      | intro _

theorem execCxlCountClear_keeps (p : Fin 2) (d : BitVec 32) (s : State) : KeepsOut Part.regs s (execCxlCountClear p d s) := by
  unfold execCxlCountClear
  repeat' with_reducible first
      | apply Keeps.refl | assumption | (apply Part.named; decide)
      | apply Keeps.next
      | apply Keeps.viaH (onOne_keeps _ _ _ ?_ ?_)
      | apply Keeps.via (clearWords_keeps _ _ _)
      | intro _

theorem execBltCountClear_keeps (d : BitVec 32) (s : State) : KeepsOut Part.regs s (execBltCountClear d s) := by
  unfold execBltCountClear
  repeat' with_reducible first
      | apply Keeps.refl | assumption | (apply Part.named; decide)
      | apply Keeps.next
      | apply Keeps.viaH (onOne_keeps _ _ _ ?_ ?_)
      | apply Keeps.via (clearWords_keeps _ _ _)
      | intro _

theorem execCluTrcClear_keeps (c : Fin 64) (d : BitVec 32) (s : State) : KeepsOut (Part.regs ||| Part.clusters) s (execCluTrcClear c d s) := by
  unfold execCluTrcClear
  repeat' with_reducible first
      | apply Keeps.refl | assumption | (apply Part.named; decide)
      | apply Keeps.next
      | apply Keeps.viaH (onOne_keeps _ _ _ ?_ ?_)
      | apply Keeps.via (modCluster_keeps _ _ _)
      | apply Keeps.via (clearWords_keeps _ _ _)
      | intro _

theorem execCluPerfClear_keeps (c : Fin 64) (d : BitVec 32) (s : State) : KeepsOut Part.regs s (execCluPerfClear c d s) := by
  unfold execCluPerfClear
  repeat' with_reducible first
      | apply Keeps.refl | assumption | (apply Part.named; decide)
      | apply Keeps.next
      | apply Keeps.viaH (onOne_keeps _ _ _ ?_ ?_)
      | apply Keeps.via (setReg_keeps _ _ _)
      | apply Keeps.via (clearWords_keeps _ _ _)
      | intro _

theorem execColCountClear_keeps (e : Fin 2) (d : BitVec 32) (s : State) : KeepsOut Part.regs s (execColCountClear e d s) := by
  unfold execColCountClear
  repeat' with_reducible first
      | apply Keeps.refl | assumption | (apply Part.named; decide)
      | apply Keeps.next
      | apply Keeps.viaH (onOne_keeps _ _ _ ?_ ?_)
      | apply Keeps.via (clearWords_keeps _ _ _)
      | intro _

theorem execFjlCountClear_keeps (port : Fin 12) (d : BitVec 32) (s : State) : KeepsOut Part.regs s (execFjlCountClear port d s) := by
  unfold execFjlCountClear
  repeat' with_reducible first
      | apply Keeps.refl | assumption | (apply Part.named; decide)
      | apply Keeps.next
      | apply Keeps.viaH (onOne_keeps _ _ _ ?_ ?_)
      | apply Keeps.via (clearWords_keeps _ _ _)
      | intro _

theorem execFjsCountClear_keeps (d : BitVec 32) (s : State) : KeepsOut Part.regs s (execFjsCountClear d s) := by
  unfold execFjsCountClear
  repeat' with_reducible first
      | apply Keeps.refl | assumption | (apply Part.named; decide)
      | apply Keeps.next
      | apply Keeps.viaH (onOne_keeps _ _ _ ?_ ?_)
      | apply Keeps.via (setReg_keeps _ _ _)
      | intro _

theorem execPwrCountClear_keeps (d : BitVec 32) (s : State) : KeepsOut Part.regs s (execPwrCountClear d s) := by
  unfold execPwrCountClear
  repeat' with_reducible first
      | apply Keeps.refl | assumption | (apply Part.named; decide)
      | apply Keeps.next
      | apply Keeps.viaH (onOne_keeps _ _ _ ?_ ?_)
      | apply Keeps.via (clearWords_keeps _ _ _)
      | intro _

theorem execThmCountClear_keeps (d : BitVec 32) (s : State) : KeepsOut Part.regs s (execThmCountClear d s) := by
  unfold execThmCountClear
  repeat' with_reducible first
      | apply Keeps.refl | assumption | (apply Part.named; decide)
      | apply Keeps.next
      | apply Keeps.viaH (onOne_keeps _ _ _ ?_ ?_)
      | apply Keeps.via (setReg_keeps _ _ _)
      | intro _

theorem execCluPwrClear_keeps (c : Fin 64) (d : BitVec 32) (s : State) : KeepsOut Part.regs s (execCluPwrClear c d s) := by
  unfold execCluPwrClear
  repeat' with_reducible first
      | apply Keeps.refl | assumption | (apply Part.named; decide)
      | apply Keeps.next
      | apply Keeps.viaH (onOne_keeps _ _ _ ?_ ?_)
      | apply Keeps.via (clearWords_keeps _ _ _)
      | intro _

theorem execPinCountClear_keeps (d : BitVec 32) (s : State) : KeepsOut Part.regs s (execPinCountClear d s) := by
  unfold execPinCountClear
  repeat' with_reducible first
      | apply Keeps.refl | assumption | (apply Part.named; decide)
      | apply Keeps.next
      | apply Keeps.viaH (onOne_keeps _ _ _ ?_ ?_)
      | apply Keeps.via (setReg_keeps _ _ _)
      | intro _

end Sys2Proof.Machine
end

