-- ==== Sys2Proof/Laws/KeepTower.lean ====
section
/-!
SUPPORT. What each operation and meaning of Machine/Tower.lean keeps (Laws/Keep.lean).
-/
namespace Sys2Proof.Machine

theorem lineFails_keeps (t b row g line : Nat) (s : State) : Keeps (Part.regs ||| Part.memory ||| Part.frees ||| Part.log ||| Part.records ||| Part.towers ||| Part.stacks ||| Part.hub) s (lineFails t b row g line s) := by
  unfold lineFails
  repeat' with_reducible first
      | apply Keeps.refl | assumption | (apply Part.named; decide)
      | (extract_lets +onlyGivenNames x; first | (refine keepsLet (x := x) ?_ ?_; (on_goal 2 => (clear_value x; intro _)); (on_goal 1 => (unfold x; clear x))) | skip)
      | apply Keeps.via (takeBack_keeps _ _ _ _)
      | apply Keeps.via (markBlot_keeps _ _)
      | apply Keeps.via (report_keeps _ _ _ _ _)
      | apply Keeps.via (towerMiss_keeps _ _ _ _ _ _)
      | apply Keeps.via (setLine_keeps _ _ _ _)
      | apply Keeps.ite

theorem eccRead_keeps (t b row g n : Nat) (line : Option Nat) (quiet : Bool) (s : State) : Keeps (Part.regs ||| Part.memory ||| Part.frees ||| Part.log ||| Part.records ||| Part.towers ||| Part.stacks ||| Part.hub) s (eccRead t b row g n line quiet s) := by
  unfold eccRead
  repeat' with_reducible first
      | apply Keeps.refl | assumption | (apply Part.named; decide)
      | apply Keeps.elim
      | intro _
      | (extract_lets +onlyGivenNames x; first | (refine keepsLet (x := x) ?_ ?_; (on_goal 2 => (clear_value x; intro _)); (on_goal 1 => (unfold x; clear x))) | skip)
      | apply Keeps.via (addReg_keeps _ _ _)
      | apply Keeps.via (rowEvent_keeps _ _ _ _)
      | apply Keeps.via (report_keeps _ _ _ _ _)
      | apply Keeps.via (markBad_keeps _ _)
      | apply Keeps.via (markBlot_keeps _ _)
      | apply Keeps.via (modTower_keeps _ _ _)
      | apply Keeps.via (modStack_keeps _ _ _)
      | apply Keeps.via (lineFails_keeps _ _ _ _ _ _)
      | apply Keeps.ite
      | split

theorem returnData_keeps (t lane p : Nat) (l : BankData) (s : State) : Keeps Part.towers s (returnData t lane p l s) := by
  unfold returnData
  repeat' with_reducible first
      | apply Keeps.refl | assumption | (apply Part.named; decide)
      | apply Keeps.via (modTower_keeps _ _ _)
      | apply Keeps.ite

theorem capturePort_keeps (c : Nat) (s : State) : Keeps Part.towers s (capturePort c s) := by
  unfold capturePort
  repeat' with_reducible first
      | apply Keeps.refl | assumption | (apply Part.named; decide)
      | (extract_lets +onlyGivenNames x; first | (refine keepsLet (x := x) ?_ ?_; (on_goal 2 => (clear_value x; intro _)); (on_goal 1 => (unfold x; clear x))) | skip)
      | apply Keeps.via (modTower_keeps _ _ _)
      | apply Keeps.elim
      | intro _

theorem bankEffect_keeps (t : Nat) (r : BankReq) (s : State) :
    Keeps (Part.regs ||| Part.memory ||| Part.records ||| Part.towers ||| Part.stacks ||| Part.hub) s (bankEffect t r s).2 := by
  unfold bankEffect
  repeat' with_reducible first
      | apply Keeps.refl | assumption | (apply Part.named; decide)
      | (extract_lets +onlyGivenNames x; first | (refine keepsLet (x := x) ?_ ?_; (on_goal 2 => (clear_value x; intro _)); (on_goal 1 => (unfold x; clear x))) | skip)
      | apply Keeps.via (storeGran_keeps _ _ _ _)
      | (apply keepsEq (fun r => r.w.s) (atomicGran_keeps _ _ _ _ _ _); on_goal 1 => assumption)
      | apply Keeps.via (atomicGran_keeps _ _ _ _ _ _)
      | apply Keeps.via (Wrote.start_keeps _)
      | split
      | apply Keeps.ite
      | apply Keeps.foldl_via
      | intro _

theorem bankServe_keeps (t cycle : Nat) (r : BankReq) (s : State) : Keeps (Part.regs ||| Part.memory ||| Part.frees ||| Part.log ||| Part.records ||| Part.towers ||| Part.stacks ||| Part.hub) s (bankServe t cycle r s) := by
  unfold bankServe
  repeat' with_reducible first
      | apply Keeps.refl | assumption | (apply Part.named; decide)
      | (extract_lets +onlyGivenNames x; first | (refine keepsLet (x := x) ?_ ?_; (on_goal 2 => (clear_value x; intro _)); (on_goal 1 => (unfold x; clear x))) | skip)
      | apply Keeps.via (modTower_keeps _ _ _)
      | apply Keeps.via (addReg_keeps _ _ _)
      | apply Keeps.via (report_keeps _ _ _ _ _)
      | apply Keeps.via (replaceRow_keeps _ _ _ _)
      | apply Keeps.via (eccRead_keeps _ _ _ _ _ _ _ _)
      | apply Keeps.via (bankEffect_keeps _ _ _)
      | apply Keeps.via (returnData_keeps _ _ _ _ _)
      | apply Keeps.via (bumpFree_keeps _)
      | apply Keeps.ite
      | split
      | apply Keeps.foldl_via
      | intro _

theorem execBankAccess_keeps (t : Fin 16) (lane : Fin 8) (cycle : Nat) (reqs : List BankReq) (s : State) : KeepsOut (Part.regs ||| Part.memory ||| Part.frees ||| Part.log ||| Part.records ||| Part.towers ||| Part.stacks ||| Part.hub) s (execBankAccess t lane cycle reqs s) := by
  unfold execBankAccess
  repeat' with_reducible first
      | apply Keeps.refl | assumption | (apply Part.named; decide)
      | apply Keeps.next
      | (extract_lets +onlyGivenNames x; first | (refine keepsLet (x := x) ?_ ?_; (on_goal 2 => (clear_value x; intro _)); (on_goal 1 => (unfold x; clear x))) | (refine keepsLetO (x := x) ?_ ?_; (on_goal 2 => (clear_value x; intro _)); (on_goal 1 => (unfold x; clear x))) | skip)
      | apply Keeps.via (addReg_keeps _ _ _)
      | apply Keeps.via (bankServe_keeps _ _ _ _)
      | apply Keeps.foldl_via
      | intro _
      | split

theorem execSramPatrolRow_keeps (t : Fin 16) (errs : List (Nat × Nat × Nat × Option Nat)) (s : State) : KeepsOut (Part.regs ||| Part.memory ||| Part.frees ||| Part.log ||| Part.records ||| Part.towers ||| Part.stacks ||| Part.hub) s (execSramPatrolRow t errs s) := by
  unfold execSramPatrolRow
  repeat' with_reducible first
      | apply Keeps.refl | assumption | (apply Part.named; decide)
      | apply Keeps.next
      | (extract_lets +onlyGivenNames x; first | (refine keepsLet (x := x) ?_ ?_; (on_goal 2 => (clear_value x; intro _)); (on_goal 1 => (unfold x; clear x))) | (refine keepsLetO (x := x) ?_ ?_; (on_goal 2 => (clear_value x; intro _)); (on_goal 1 => (unfold x; clear x))) | skip)
      | apply Keeps.via (eccRead_keeps _ _ _ _ _ _ _ _)
      | apply Keeps.via (modTower_keeps _ _ _)
      | apply Keeps.via (addReg_keeps _ _ _)
      | apply Keeps.ite
      | apply KeepsOut.ite
      | apply Keeps.foldl_via
      | intro _
      | split

theorem clearBank_keeps (t b : Nat) (s : State) : Keeps Part.memory s (clearBank t b s) := by
  unfold clearBank
  repeat' with_reducible first
      | apply Keeps.refl | assumption | (apply Part.named; decide)
      | apply Keeps.via (zeroRange_keeps _ _ _)
      | apply Keeps.foldl_via
      | intro _

theorem bankPower_keeps (t b v : Nat) (s : State) : Keeps (Part.memory ||| Part.towers) s (bankPower t b v s) := by
  unfold bankPower
  repeat' with_reducible first
      | apply Keeps.refl | assumption | (apply Part.named; decide)
      | (extract_lets +onlyGivenNames x; first | (refine keepsLet (x := x) ?_ ?_; (on_goal 2 => (clear_value x; intro _)); (on_goal 1 => (unfold x; clear x))) | skip)
      | apply Keeps.via (modTower_keeps _ _ _)
      | apply Keeps.via (clearBank_keeps _ _ _)
      | apply Keeps.ite

theorem execBankWakeDone_keeps (t : Fin 16) (bank : Fin 1536) (s : State) : KeepsOut Part.towers s (execBankWakeDone t bank s) := by
  unfold execBankWakeDone
  repeat' with_reducible first
      | apply Keeps.refl | assumption | (apply Part.named; decide)
      | apply Keeps.next
      | apply Keeps.via (modTower_keeps _ _ _)
      | apply Keeps.ite
      | apply KeepsOut.ite

theorem applyBankPwr_keeps (t n : Nat) (v : Word) (s : State) : Keeps (Part.regs ||| Part.memory ||| Part.towers) s (applyBankPwr t n v s) := by
  unfold applyBankPwr
  repeat' with_reducible first
      | apply Keeps.refl | assumption | (apply Part.named; decide)
      | (extract_lets +onlyGivenNames x; first | (refine keepsLet (x := x) ?_ ?_; (on_goal 2 => (clear_value x; intro _)); (on_goal 1 => (unfold x; clear x))) | skip)
      | apply Keeps.via (setReg_keeps _ _ _)
      | apply Keeps.via (bankPower_keeps _ _ _ _)
      | apply Keeps.foldl_via
      | intro _
      | apply Keeps.ite

theorem forgiveLines_keeps (t : Nat) (s : State) : Keeps (Part.clusters ||| Part.xfers) s (forgiveLines t s) := by
  unfold forgiveLines
  repeat' with_reducible first
      | apply Keeps.refl | assumption | (apply Part.named; decide)
      | (extract_lets +onlyGivenNames x; first | (refine keepsLet (x := x) ?_ ?_; (on_goal 2 => (clear_value x; intro _)); (on_goal 1 => (unfold x; clear x))) | skip)
      | apply Keeps.ite
      | (fail_if_no_progress (apply Keeps.via (Keeps.rest (m := (Part.clusters ||| Part.xfers)) ..)) <;> first | exact Or.inr rfl | exact Or.inl rfl | skip)
      | fail_if_no_progress (apply Keeps.via (Keeps.putRunners _ _))
      | fail_if_no_progress (apply Keeps.via (Keeps.putXfers _ _))

theorem flushCache_keeps (t : Nat) (s : State) : Keeps (Part.clusters ||| Part.xfers ||| Part.towers ||| Part.stacks) s (flushCache t s) := by
  unfold flushCache
  repeat' with_reducible first
      | apply Keeps.refl | assumption | (apply Part.named; decide)
      | (extract_lets +onlyGivenNames x; first | (refine keepsLet (x := x) ?_ ?_; (on_goal 2 => (clear_value x; intro _)); (on_goal 1 => (unfold x; clear x))) | skip)
      | apply Keeps.via (modStack_keeps _ _ _)
      | apply Keeps.via (modTower_keeps _ _ _)
      | apply Keeps.via (forgiveLines_keeps _ _)
      | apply Keeps.foldl_via
      | intro _

theorem zeroSecure_keeps (t n : Nat) (s : State) : Keeps Part.memory s (zeroSecure t n s) := by
  unfold zeroSecure
  repeat' with_reducible first
      | apply Keeps.refl | assumption | (apply Part.named; decide)
      | apply Keeps.via (zeroRange_keeps _ _ _)

theorem wakeCache_keeps (t lo hi : Nat) (s : State) : Keeps (Part.memory ||| Part.towers) s (wakeCache t lo hi s) := by
  unfold wakeCache
  repeat' with_reducible first
      | apply Keeps.refl | assumption | (apply Part.named; decide)
      | apply Keeps.via (bankPower_keeps _ _ _ _)
      | apply Keeps.foldl_via
      | intro _

theorem applySplit_keeps (t n : Nat) (s : State) : Keeps (Part.regs ||| Part.memory ||| Part.clusters ||| Part.xfers ||| Part.towers ||| Part.stacks) s (applySplit t n s) := by
  unfold applySplit
  repeat' with_reducible first
      | apply Keeps.refl | assumption | (apply Part.named; decide)
      | (extract_lets +onlyGivenNames x; first | (refine keepsLet (x := x) ?_ ?_; (on_goal 2 => (clear_value x; intro _)); (on_goal 1 => (unfold x; clear x))) | skip)
      | apply Keeps.via (setB_keeps _ _ _ _)
      | apply Keeps.via (setReg_keeps _ _ _)
      | apply Keeps.via (flushCache_keeps _ _)
      | apply Keeps.via (zeroSecure_keeps _ _ _)
      | apply Keeps.via (zeroRange_keeps _ _ _)
      | apply Keeps.via (setF_keeps _ _ _ _ _)
      | apply Keeps.via (modTower_keeps _ _ _)
      | apply Keeps.via (wakeCache_keeps _ _ _ _)
      | apply Keeps.ite

theorem startMarch_keeps (t mode first n : Nat) (reply : Option CmdHdr) (s : State) :
    Keeps (Part.regs ||| Part.towers) s (startMarch t mode first n reply s) := by
  unfold startMarch
  repeat' with_reducible first
      | apply Keeps.refl | assumption | (apply Part.named; decide)
      | (extract_lets +onlyGivenNames x; first | (refine keepsLet (x := x) ?_ ?_; (on_goal 2 => (clear_value x; intro _)); (on_goal 1 => (unfold x; clear x))) | skip)
      | apply Keeps.via (modTower_keeps _ _ _)
      | apply Keeps.via (setB_keeps _ _ _ _)
      | apply Keeps.via (setF_keeps _ _ _ _ _)
      | apply Keeps.via (setReg_keeps _ _ _)

theorem execMarchStart_keeps (q : Requester) (t : Fin 16) (d : BitVec 32) (s : State) :
    KeepsOut (Part.regs ||| Part.towers) s (execMarchStart q t d s) := by
  unfold execMarchStart
  repeat' with_reducible first
      | apply Keeps.refl | assumption | (apply Part.named; decide)
      | apply Keeps.next
      | (extract_lets +onlyGivenNames x; first | (refine keepsLet (x := x) ?_ ?_; (on_goal 2 => (clear_value x; intro _)); (on_goal 1 => (unfold x; clear x))) | (refine keepsLetO (x := x) ?_ ?_; (on_goal 2 => (clear_value x; intro _)); (on_goal 1 => (unfold x; clear x))) | skip)
      | apply Keeps.via (setB_keeps _ _ _ _)
      | apply Keeps.via (setF_keeps _ _ _ _ _)
      | apply Keeps.via (startMarch_keeps _ _ _ _ _ _)
      | apply Keeps.ite
      | apply KeepsOut.ite

theorem execMarchRun_keeps (h : CmdHdr) (first banks tower mode : Nat) (s : State) :
    KeepsOut (Part.regs ||| Part.queues ||| Part.towers) s (execMarchRun h first banks tower mode s) := by
  unfold execMarchRun
  repeat' with_reducible first
      | apply Keeps.refl | assumption | (apply Part.named; decide)
      | apply Keeps.next
      | (extract_lets +onlyGivenNames x; first | (refine keepsLet (x := x) ?_ ?_; (on_goal 2 => (clear_value x; intro _)); (on_goal 1 => (unfold x; clear x))) | (refine keepsLetO (x := x) ?_ ?_; (on_goal 2 => (clear_value x; intro _)); (on_goal 1 => (unfold x; clear x))) | skip)
      | apply KeepsOut.viaH (runOp_keeps _ _ _ _ _ ?_ ?_)
      | apply Keeps.via (fail_keeps _ _ _ _)
      | apply Keeps.via (setReg_keeps _ _ _)
      | apply Keeps.via (startMarch_keeps _ _ _ _ _ _)
      | apply Keeps.ite
      | apply KeepsOut.ite
      | intro _

theorem marchLeaves_keeps (t : Nat) (m : March) (s : State) : Keeps (Part.memory ||| Part.stacks) s (marchLeaves t m s) := by
  unfold marchLeaves
  repeat' with_reducible first
      | apply Keeps.refl | assumption | (apply Part.named; decide)
      | apply Keeps.via (zeroSecure_keeps _ _ _)
      | apply Keeps.via (clearBank_keeps _ _ _)
      | apply Keeps.via (storeGran_keeps _ _ _ _)
      | apply Keeps.ite
      | apply Keeps.foldl_via
      | intro _
      | split

theorem replaceRows_keeps (t : Nat) (bad : List (Nat × Nat)) (s : State) :
    Keeps (Part.regs ||| Part.memory ||| Part.records ||| Part.towers ||| Part.stacks ||| Part.hub) s (replaceRows t bad s).2 := by
  unfold replaceRows
  exact Keeps.foldl2_via (fun _ _ => replaceRow_keeps _ _ _ _) (Keeps.refl _ _)

theorem execMarchDone_keeps (t : Fin 16) (failing : List (Nat × Nat)) (s : State) :
    KeepsOut (Part.regs ||| Part.memory ||| Part.records ||| Part.queues ||| Part.towers ||| Part.stacks ||| Part.hub) s (execMarchDone t failing s) := by
  unfold execMarchDone
  repeat' with_reducible first
      | apply Keeps.refl | assumption | (apply Part.named; decide)
      | apply Keeps.next
      | (extract_lets +onlyGivenNames x; first | (refine keepsLet (x := x) ?_ ?_; (on_goal 2 => (clear_value x; intro _)); (on_goal 1 => (unfold x; clear x))) | (refine keepsLetO (x := x) ?_ ?_; (on_goal 2 => (clear_value x; intro _)); (on_goal 1 => (unfold x; clear x))) | skip)
      | apply Keeps.via (marchLeaves_keeps _ _ _)
      | apply Keeps.via (replaceRow_keeps _ _ _ _)
      | apply Keeps.via (modTower_keeps _ _ _)
      | apply Keeps.via (setReg_keeps _ _ _)
      | apply Keeps.via (setB_keeps _ _ _ _)
      | apply Keeps.via (finish_keeps _ _ _ _ _ _ _)
      | apply Keeps.via (addReg_keeps _ _ _)
      | apply Keeps.via (replaceRows_keeps _ _ _)
      | apply Keeps.foldl_via
      | intro _
      | split

theorem wipeTower_keeps (t : Nat) (s : State) : Keeps (Part.regs ||| Part.memory ||| Part.towers) s (wipeTower t s) := by
  unfold wipeTower
  repeat' with_reducible first
      | apply Keeps.refl | assumption | (apply Part.named; decide)
      | (extract_lets +onlyGivenNames x; first | (refine keepsLet (x := x) ?_ ?_; (on_goal 2 => (clear_value x; intro _)); (on_goal 1 => (unfold x; clear x))) | skip)
      | apply Keeps.via (modTower_keeps _ _ _)
      | apply Keeps.via (setB_keeps _ _ _ _)
      | apply Keeps.via (zeroSecure_keeps _ _ _)
      | apply Keeps.via (startMarch_keeps _ _ _ _ _ _)
      | apply Keeps.ite
      | apply Keeps.foldl_via
      | intro _

theorem secureWipe_keeps (s : State) : Keeps (Part.regs ||| Part.memory ||| Part.towers) s (secureWipe s) := by
  unfold secureWipe
  repeat' with_reducible first
      | apply Keeps.refl | assumption | (apply Part.named; decide)
      | apply Keeps.via (zeroSecure_keeps _ _ _)
      | apply Keeps.via (wipeTower_keeps _ _)
      | apply Keeps.foldl_via
      | intro _

end Sys2Proof.Machine
end

