-- ==== Sys2Proof/Laws/KeepCoherence.lean ====
section
/-!
SUPPORT. What each operation and meaning of Machine/Coherence.lean keeps (Laws/Keep.lean).
-/
namespace Sys2Proof.Machine

theorem execGets_keeps (m : Fin 8) (tower : Fin 16) (line : Nat) (along : List HomeArrival) (s : State) : KeepsOut (Part.regs ||| Part.memory ||| Part.frees ||| Part.log ||| Part.records ||| Part.towers ||| Part.stacks ||| Part.hub) s (execGets m tower line along s) := by
  unfold execGets
  repeat' with_reducible first
      | apply Keeps.refl | assumption | (apply Part.named; decide)
      | apply Keeps.next
      | (extract_lets +onlyGivenNames x; first | (refine keepsLet (x := x) ?_ ?_; (on_goal 2 => (clear_value x; intro _)); (on_goal 1 => (unfold x; clear x))) | (refine keepsLetO (x := x) ?_ ?_; (on_goal 2 => (clear_value x; intro _)); (on_goal 1 => (unfold x; clear x))) | skip)
      | apply Keeps.via (dirEvict_keeps _ _ _)
      | apply Keeps.via (serveWant_keeps _ _ _ _ _)
      | apply Keeps.via (askTowers_keeps _ _ _ _ _ _)
      | apply Keeps.via (homeCycle_keeps _ _ _)
      | apply Keeps.ite
      | apply KeepsOut.ite
      | split

theorem execGetx_keeps (m : Fin 8) (tower : Fin 16) (line : Nat) (whole : Bool) (along : List HomeArrival) (s : State) : KeepsOut (Part.regs ||| Part.memory ||| Part.frees ||| Part.log ||| Part.records ||| Part.towers ||| Part.stacks ||| Part.hub) s (execGetx m tower line whole along s) := by
  unfold execGetx
  repeat' with_reducible first
      | apply Keeps.refl | assumption | (apply Part.named; decide)
      | apply Keeps.next
      | (extract_lets +onlyGivenNames x; first | (refine keepsLet (x := x) ?_ ?_; (on_goal 2 => (clear_value x; intro _)); (on_goal 1 => (unfold x; clear x))) | (refine keepsLetO (x := x) ?_ ?_; (on_goal 2 => (clear_value x; intro _)); (on_goal 1 => (unfold x; clear x))) | skip)
      | apply Keeps.via (dirEvict_keeps _ _ _)
      | apply Keeps.via (serveWant_keeps _ _ _ _ _)
      | apply Keeps.via (askTowers_keeps _ _ _ _ _ _)
      | apply Keeps.via (homeCycle_keeps _ _ _)
      | apply Keeps.ite
      | apply KeepsOut.ite
      | split

theorem execWriteBack_keeps (m : Fin 8) (tower : Fin 16) (line : Nat) (along : List HomeArrival) (s : State) : KeepsOut (Part.regs ||| Part.memory ||| Part.frees ||| Part.log ||| Part.records ||| Part.towers ||| Part.stacks ||| Part.hub) s (execWriteBack m tower line along s) := by
  unfold execWriteBack
  repeat' with_reducible first
      | apply Keeps.refl | assumption | (apply Part.named; decide)
      | apply Keeps.next
      | (extract_lets +onlyGivenNames x; first | (refine keepsLet (x := x) ?_ ?_; (on_goal 2 => (clear_value x; intro _)); (on_goal 1 => (unfold x; clear x))) | (refine keepsLetO (x := x) ?_ ?_; (on_goal 2 => (clear_value x; intro _)); (on_goal 1 => (unfold x; clear x))) | skip)
      | apply Keeps.via (modStack_keeps _ _ _)
      | apply Keeps.via (freeDir_keeps _ _ _)
      | apply Keeps.via (answer_keeps _ _ _ _ _ _)
      | apply Keeps.via (homeCycle_keeps _ _ _)
      | apply Keeps.ite
      | apply KeepsOut.ite
      | split

theorem execWbAck_keeps (m : Fin 8) (tower : Fin 16) (line : Nat) (s : State) :
    KeepsOut (Part.towers ||| Part.stacks) s (execWbAck m tower line s) := by
  unfold execWbAck
  repeat' with_reducible first
      | apply Keeps.refl | assumption | (apply Part.named; decide)
      | apply Keeps.next
      | apply Keeps.via (setLine_keeps _ _ _ _)
      | apply Keeps.via (modStack_keeps _ _ _)
      | apply Keeps.ite
      | apply KeepsOut.ite

theorem execRecallNack_keeps (m : Fin 8) (tower : Fin 16) (line : Nat) (s : State) :
    KeepsOut (Part.regs ||| Part.stacks) s (execRecallNack m tower line s) := by
  unfold execRecallNack
  repeat' with_reducible first
      | apply Keeps.refl | assumption | (apply Part.named; decide)
      | apply Keeps.next
      | apply Keeps.via (addReg_keeps _ _ _)
      | apply Keeps.via (modStack_keeps _ _ _)
      | apply Keeps.ite
      | apply KeepsOut.ite

theorem execRecallS_keeps (m : Fin 8) (tower : Fin 16) (line : Nat) (s : State) :
    KeepsOut (Part.regs ||| Part.memory ||| Part.frees ||| Part.log ||| Part.records ||| Part.towers ||| Part.stacks ||| Part.hub) s (execRecallS m tower line s) := by
  unfold execRecallS
  repeat' with_reducible first
      | apply Keeps.refl | assumption | (apply Part.named; decide)
      | apply Keeps.next
      | apply Keeps.via (answer_keeps _ _ _ _ _ _)
      | apply Keeps.via (setLine_keeps _ _ _ _)
      | apply Keeps.ite
      | apply KeepsOut.ite

theorem execRecallInv_keeps (m : Fin 8) (tower : Fin 16) (line : Nat) (s : State) :
    KeepsOut (Part.regs ||| Part.memory ||| Part.frees ||| Part.log ||| Part.records ||| Part.towers ||| Part.stacks ||| Part.hub) s (execRecallInv m tower line s) := by
  unfold execRecallInv
  repeat' with_reducible first
      | apply Keeps.refl | assumption | (apply Part.named; decide)
      | apply Keeps.next
      | apply Keeps.via (answer_keeps _ _ _ _ _ _)
      | apply Keeps.via (setLine_keeps _ _ _ _)
      | apply Keeps.ite
      | apply KeepsOut.ite

theorem execInvLine_keeps (m : Fin 8) (tower : Fin 16) (line : Nat) (s : State) :
    KeepsOut (Part.regs ||| Part.memory ||| Part.frees ||| Part.log ||| Part.records ||| Part.towers ||| Part.stacks ||| Part.hub) s (execInvLine m tower line s) := by
  unfold execInvLine
  repeat' with_reducible first
      | apply Keeps.refl | assumption | (apply Part.named; decide)
      | apply Keeps.next
      | apply Keeps.via (answer_keeps _ _ _ _ _ _)
      | apply Keeps.via (setLine_keeps _ _ _ _)
      | apply Keeps.ite
      | apply KeepsOut.ite

theorem freeWay_keeps (t line : Nat) (s : State) : KeepsOpt (Part.frees ||| Part.towers) (fun r => r) s (freeWay t line s) := by
  unfold freeWay
  repeat' with_reducible first
      | apply KeepsOpt.none
      | apply KeepsOpt.some
      | apply Keeps.refl | assumption | (apply Part.named; decide)
      | (extract_lets +onlyGivenNames x; clear_value x)
      | apply Keeps.via (bumpFree_keeps _)
      | apply Keeps.via (setLine_keeps _ _ _ _)
      | split

theorem lineComes_keeps (t line : Nat) (owned : Bool) (s : State) : Keeps (Part.clusters ||| Part.xfers) s (lineComes t line owned s) := by
  unfold lineComes
  repeat' with_reducible first
      | apply Keeps.refl | assumption | (apply Part.named; decide)
      | (extract_lets +onlyGivenNames x; first | (refine keepsLet (x := x) ?_ ?_; (on_goal 2 => (clear_value x; intro _)); (on_goal 1 => (unfold x; clear x))) | skip)
      | apply Keeps.ite
      | (fail_if_no_progress (apply Keeps.via (Keeps.rest (m := (Part.clusters ||| Part.xfers)) ..)) <;> first | exact Or.inr rfl | exact Or.inl rfl | skip)
      | fail_if_no_progress (apply Keeps.via (Keeps.putRunners _ _))
      | fail_if_no_progress (apply Keeps.via (Keeps.putXfers _ _))

theorem execLineGrantArrive_keeps (m : Fin 8) (tower : Fin 16) (line : Nat) (s : State) :
    KeepsOut (Part.frees ||| Part.clusters ||| Part.xfers ||| Part.towers ||| Part.stacks) s (execLineGrantArrive m tower line s) := by
  unfold execLineGrantArrive
  repeat' with_reducible first
      | apply Keeps.refl | assumption | (apply Part.named; decide)
      | (extract_lets +onlyGivenNames x; first | (refine keepsLet (x := x) ?_ ?_; (on_goal 2 => (clear_value x; intro _)); (on_goal 1 => (unfold x; clear x))) | (refine keepsLetO (x := x) ?_ ?_; (on_goal 2 => (clear_value x; intro _)); (on_goal 1 => (unfold x; clear x))) | skip)
      | apply Keeps.next
      | apply Keeps.via (setLine_keeps _ _ _ _)
      | apply Keeps.via (modStack_keeps _ _ _)
      | apply Keeps.via (lineComes_keeps _ _ _ _)
      | (apply KeepsOpt.get (freeWay_keeps _ _ _); on_goal 1 => assumption)
      | split

theorem execHomeExternalRead_keeps (m : Fin 8) (fn : Fin 65) (addr : Nat) (along : List HomeArrival) (s : State) : KeepsOut (Part.regs ||| Part.memory ||| Part.frees ||| Part.log ||| Part.records ||| Part.towers ||| Part.stacks ||| Part.hub) s (execHomeExternalRead m fn addr along s) := by
  unfold execHomeExternalRead
  repeat' with_reducible first
      | apply Keeps.refl | assumption | (apply Part.named; decide)
      | apply Keeps.next
      | apply Keeps.via (askTowers_keeps _ _ _ _ _ _)
      | apply Keeps.via (serveWant_keeps _ _ _ _ _)
      | apply Keeps.via (homeCycle_keeps _ _ _)
      | apply Keeps.ite
      | apply KeepsOut.ite
      | split

theorem execHomeExternalWrite_keeps (m : Fin 8) (fn : Fin 65) (addr : Nat) (data : List (BitVec 8)) (blot : Bool) (along : List HomeArrival) (s : State) : KeepsOut (Part.regs ||| Part.memory ||| Part.frees ||| Part.log ||| Part.records ||| Part.towers ||| Part.stacks ||| Part.hub) s (execHomeExternalWrite m fn addr data blot along s) := by
  unfold execHomeExternalWrite
  repeat' with_reducible first
      | apply Keeps.refl | assumption | (apply Part.named; decide)
      | apply Keeps.next
      | (extract_lets +onlyGivenNames x; first | (refine keepsLet (x := x) ?_ ?_; (on_goal 2 => (clear_value x; intro _)); (on_goal 1 => (unfold x; clear x))) | (refine keepsLetO (x := x) ?_ ?_; (on_goal 2 => (clear_value x; intro _)); (on_goal 1 => (unfold x; clear x))) | skip)
      | apply Keeps.via (askTowers_keeps _ _ _ _ _ _)
      | apply Keeps.via (serveWant_keeps _ _ _ _ _)
      | apply Keeps.via (homeCycle_keeps _ _ _)
      | apply Keeps.ite
      | apply KeepsOut.ite
      | split

end Sys2Proof.Machine
end

