-- ==== Sys2Proof/Laws/KeepStack.lean ====
section
/-!
SUPPORT. What each operation and meaning of Machine/Stack.lean keeps (Laws/Keep.lean).
-/
namespace Sys2Proof.Machine

theorem showRemaps_keeps (m : Nat) (s : State) : Keeps Part.regs s (showRemaps m s) := by
  unfold showRemaps
  repeat' with_reducible first
      | apply Keeps.refl | assumption | (apply Part.named; decide)
      | (extract_lets +onlyGivenNames x; first | (refine keepsLet (x := x) ?_ ?_; (on_goal 2 => (clear_value x; intro _)); (on_goal 1 => (unfold x; clear x))) | skip)
      | apply Keeps.via (setF_keeps _ _ _ _ _)
      | apply Keeps.via (setReg_keeps _ _ _)
      | apply Keeps.foldl_via
      | intro _

theorem blotPage_keeps (d : Nat) (s : State) : Keeps Part.memory s (blotPage d s) := Keeps.blankPage s (d / 2048 * 2048)

theorem clearBad_keeps (m lpi : Nat) (s : State) : Keeps Part.stacks s (clearBad m lpi s) := by
  unfold clearBad
  repeat' with_reducible first
      | apply Keeps.refl | assumption | (apply Part.named; decide)
      | apply Keeps.via (modStack_keeps _ _ _)

theorem setBad_keeps (m lpi : Nat) (s : State) : Keeps Part.stacks s (setBad m lpi s) := by
  unfold setBad
  repeat' with_reducible first
      | apply Keeps.refl | assumption | (apply Part.named; decide)
      | apply Keeps.via (modStack_keeps _ _ _)

theorem retirePage_keeps (m lpi cause : Nat) (s : State) :
    Keeps (Part.regs ||| Part.memory ||| Part.records ||| Part.atts ||| Part.towers ||| Part.stacks ||| Part.hub) s (retirePage m lpi cause s) := by
  unfold retirePage
  repeat' with_reducible first
      | apply Keeps.refl | assumption | (apply Part.named; decide)
      | (extract_lets +onlyGivenNames x; first | (refine keepsLet (x := x) ?_ ?_; (on_goal 2 => (clear_value x; intro _)); (on_goal 1 => (unfold x; clear x))) | skip)
      | apply Keeps.via (modHub_keeps _ _)
      | apply Keeps.via (report_keeps _ _ _ _ _)
      | apply Keeps.via (showRemaps_keeps _ _)
      | apply Keeps.via (bufferDrop_keeps _ _ _ _)
      | apply Keeps.via (declareOut_keeps _ _)
      | apply Keeps.via (withdrawAll_keeps _ _)
      | apply Keeps.ite

theorem dropHistory_keeps (m page : Nat) (s : State) : Keeps Part.stacks s (dropHistory m page s) := by
  unfold dropHistory
  repeat' with_reducible first
      | apply Keeps.refl | assumption | (apply Part.named; decide)
      | apply Keeps.via (modStack_keeps _ _ _)

theorem copyToSpare_keeps (m lpi : Nat) (s : State) : Keeps (Part.memory ||| Part.stacks) s (copyToSpare m lpi s) := by
  unfold copyToSpare
  repeat' with_reducible first
      | apply Keeps.refl | assumption | (apply Part.named; decide)
      | apply Keeps.via (clearBad_keeps _ _ _)
      | apply Keeps.via (blotPage_keeps _ _)
      | apply Keeps.ite

theorem remapPage_keeps (m lpi : Nat) (s : State) :
    Keeps (Part.regs ||| Part.memory ||| Part.records ||| Part.atts ||| Part.towers ||| Part.stacks ||| Part.hub) s (remapPage m lpi s) := by
  unfold remapPage
  repeat' with_reducible first
      | apply Keeps.refl | assumption | (apply Part.named; decide)
      | (extract_lets +onlyGivenNames x; first | (refine keepsLet (x := x) ?_ ?_; (on_goal 2 => (clear_value x; intro _)); (on_goal 1 => (unfold x; clear x))) | skip)
      | apply Keeps.via (copyToSpare_keeps _ _ _)
      | apply Keeps.via (setReg_keeps _ _ _)
      | apply Keeps.via (showRemaps_keeps _ _)
      | apply Keeps.via (dropHistory_keeps _ _ _)
      | apply Keeps.via (report_keeps _ _ _ _ _)
      | apply Keeps.via (modStack_keeps _ _ _)
      | apply Keeps.via (retirePage_keeps _ _ _ _)
      | split

theorem notePage_keeps (m page : Nat) (s : State) : Keeps (Part.regs ||| Part.stacks) s (notePage m page s).2.2 := by
  unfold notePage
  repeat' with_reducible first
      | apply Keeps.refl | assumption | (apply Part.named; decide)
      | (extract_lets +onlyGivenNames x; first | (refine keepsLet (x := x) ?_ ?_; (on_goal 2 => (clear_value x; intro _)); (on_goal 1 => (unfold x; clear x))) | skip)
      | apply Keeps.via (addReg_keeps _ _ _)
      | apply Keeps.via (modStack_keeps _ _ _)
      | apply Keeps.ite
      | split

theorem pageSecond_keeps (m page : Nat) (s : State) : Keeps (Part.regs ||| Part.memory ||| Part.records ||| Part.atts ||| Part.towers ||| Part.stacks ||| Part.hub) s (pageSecond m page s) := by
  unfold pageSecond
  repeat' with_reducible first
      | apply Keeps.refl | assumption | (apply Part.named; decide)
      | (extract_lets +onlyGivenNames x; first | (refine keepsLet (x := x) ?_ ?_; (on_goal 2 => (clear_value x; intro _)); (on_goal 1 => (unfold x; clear x))) | skip)
      | apply Keeps.via (remapPage_keeps _ _ _)
      | apply Keeps.via (modStack_keeps _ _ _)
      | apply Keeps.via (showRemaps_keeps _ _)
      | apply Keeps.via (dropHistory_keeps _ _ _)
      | apply Keeps.ite

theorem pageEvent_keeps (m page kind : Nat) (s : State) :
    Keeps (Part.regs ||| Part.memory ||| Part.records ||| Part.atts ||| Part.towers ||| Part.stacks ||| Part.hub) s (pageEvent m page kind s) := by
  unfold pageEvent
  repeat' with_reducible first
      | apply Keeps.refl | assumption | (apply Part.named; decide)
      | (extract_lets +onlyGivenNames x; first | (refine keepsLet (x := x) ?_ ?_; (on_goal 2 => (clear_value x; intro _)); (on_goal 1 => (unfold x; clear x))) | skip)
      | apply Keeps.via (notePage_keeps _ _ _)
      | (apply keepsEq3 (notePage_keeps _ _ _); on_goal 1 => assumption)
      | apply Keeps.via (addReg_keeps _ _ _)
      | apply Keeps.via (setReg_keeps _ _ _)
      | apply Keeps.via (remapPage_keeps _ _ _)
      | apply Keeps.via (modStack_keeps _ _ _)
      | apply Keeps.via (showRemaps_keeps _ _)
      | apply Keeps.via (dropHistory_keeps _ _ _)
      | apply Keeps.viaH (byFirmware_keeps _ _ _ ?_ ?_)
      | intro _
      | apply Keeps.via (pageSecond_keeps _ _ _)
      | apply Keeps.ite

theorem changePage_keeps (d str : Nat) (changed : List (Nat × Nat)) (s : State) : Keeps Part.memory s (changePage d str changed s) := by
  unfold changePage
  exact Keeps.stores s _ _ s.uncorr (fun h => kvWf_foldl _ _ (fun _ _ h => kvWf_kvPut _ _ h) _ _ h)
    (fun h => kvWf_foldl _ _ (fun _ _ h => by split; exacts [kvWf_kvPut _ _ h, h]) _ _ h) id

theorem decodePage_keeps (m lpi : Nat) (errs : List (Nat × Nat)) (s : State) : Keeps (Part.regs ||| Part.memory ||| Part.records ||| Part.atts ||| Part.towers ||| Part.stacks ||| Part.hub) s (decodePage m lpi errs s) := by
  unfold decodePage
  repeat' with_reducible first
      | apply Keeps.refl | assumption | (apply Part.named; decide)
      | (extract_lets +onlyGivenNames x; first | (refine keepsLet (x := x) ?_ ?_; (on_goal 2 => (clear_value x; intro _)); (on_goal 1 => (unfold x; clear x))) | skip)
      | apply Keeps.via (bufferDrop_keeps _ _ _ _)
      | apply Keeps.via (setBad_keeps _ _ _)
      | apply Keeps.via (addReg_keeps _ _ _)
      | apply Keeps.via (pageEvent_keeps _ _ _ _)
      | apply Keeps.via (report_keeps _ _ _ _ _)
      | apply Keeps.via (miscorrect_keeps _ _)
      | apply Keeps.via (changePage_keeps _ _ _ _)
      | apply Keeps.ite
      | split

theorem decodeSpare_keeps (m bank k : Nat) (errs : List (Nat × Nat)) (s : State) : Keeps (Part.regs ||| Part.memory ||| Part.records ||| Part.atts ||| Part.towers ||| Part.stacks ||| Part.hub) s (decodeSpare m bank k errs s) := by
  unfold decodeSpare
  repeat' with_reducible first
      | apply Keeps.refl | assumption | (apply Part.named; decide)
      | (extract_lets +onlyGivenNames x; first | (refine keepsLet (x := x) ?_ ?_; (on_goal 2 => (clear_value x; intro _)); (on_goal 1 => (unfold x; clear x))) | skip)
      | apply Keeps.via (pageEvent_keeps _ _ _ _)
      | apply Keeps.via (addReg_keeps _ _ _)
      | apply Keeps.ite
      | split

theorem scrubEnd_keeps (m : Nat) (s : State) : Keeps (Part.regs ||| Part.stacks) s (scrubEnd m s) := by
  unfold scrubEnd
  repeat' with_reducible first
      | apply Keeps.refl | assumption | (apply Part.named; decide)
      | apply Keeps.via (modStack_keeps _ _ _)
      | apply Keeps.via (setB_keeps _ _ _ _)
      | apply Keeps.ite

theorem execStackPatrolPass_keeps (m : Fin 8) (t : Nat) (s : State) : KeepsOut (Part.regs ||| Part.time ||| Part.stacks) s (execStackPatrolPass m t s) := by
  unfold execStackPatrolPass
  repeat' with_reducible first
      | apply Keeps.refl | assumption | (apply Part.named; decide)
      | (extract_lets +onlyGivenNames x; first | (refine keepsLet (x := x) ?_ ?_; (on_goal 2 => (clear_value x; intro _)); (on_goal 1 => (unfold x; clear x))) | (refine keepsLetO (x := x) ?_ ?_; (on_goal 2 => (clear_value x; intro _)); (on_goal 1 => (unfold x; clear x))) | skip)
      | apply Keeps.next
      | apply Keeps.via (addReg_keeps _ _ _)
      | apply Keeps.via (modStack_keeps _ _ _)
      | apply Keeps.via (setB_keeps _ _ _ _)
      | apply Keeps.via (Keeps.later _ _)
      | apply Keeps.ite
      | apply KeepsOut.ite

theorem startRefresh_keeps (m ch bank : Nat) (s : State) : Keeps Part.stacks s (startRefresh m ch bank s) := by
  unfold startRefresh
  repeat' with_reducible first
      | apply Keeps.refl | assumption | (apply Part.named; decide)
      | apply Keeps.via (modStack_keeps _ _ _)

theorem leaveNmuMode_keeps (m ch bank : Nat) (s : State) : Keeps Part.stacks s (leaveNmuMode m ch bank s) := by
  unfold leaveNmuMode
  repeat' with_reducible first
      | apply Keeps.refl | assumption | (apply Part.named; decide)
      | apply Keeps.via (startRefresh_keeps _ _ _ _)
      | apply Keeps.ite

theorem execRefresh_keeps (m : Fin 8) (ch : Fin 32) (bank : Fin 16) (t : Nat) (s : State) :
    KeepsOut (Part.time ||| Part.stacks) s (execRefresh m ch bank t s) := by
  unfold execRefresh
  repeat' with_reducible first
      | apply Keeps.refl | assumption | (apply Part.named; decide)
      | apply Keeps.next
      | (extract_lets +onlyGivenNames x; first | (refine keepsLet (x := x) ?_ ?_; (on_goal 2 => (clear_value x; intro _)); (on_goal 1 => (unfold x; clear x))) | (refine keepsLetO (x := x) ?_ ?_; (on_goal 2 => (clear_value x; intro _)); (on_goal 1 => (unfold x; clear x))) | skip)
      | apply Keeps.via (modStack_keeps _ _ _)
      | apply Keeps.via (startRefresh_keeps _ _ _ _)
      | apply Keeps.ite
      | apply KeepsOut.ite
      | apply Keeps.via (Keeps.later _ _)

theorem grantChannel_keeps (m ch : Nat) (r : PageReq) (kept : Bool) (rows : Nat) (s : State) :
    Keeps (Part.regs ||| Part.stacks) s (grantChannel m ch r kept rows s) := by
  unfold grantChannel
  repeat' with_reducible first
      | apply Keeps.refl | assumption | (apply Part.named; decide)
      | (extract_lets +onlyGivenNames x; first | (refine keepsLet (x := x) ?_ ?_; (on_goal 2 => (clear_value x; intro _)); (on_goal 1 => (unfold x; clear x))) | skip)
      | apply Keeps.via (addReg_keeps _ _ _)
      | apply Keeps.via (modStack_keeps _ _ _)
      | apply Keeps.ite

theorem storePage_keeps (d : Nat) (l : List (List (Option Byte) × Bool)) (s : State) :
    Keeps (Part.memory ||| Part.stacks) s (storePage d l s) := by
  unfold storePage
  repeat' with_reducible first
      | apply Keeps.refl | assumption | (apply Part.named; decide)
      | (extract_lets +onlyGivenNames x; first | (refine keepsLet (x := x) ?_ ?_; (on_goal 2 => (clear_value x; intro _)); (on_goal 1 => (unfold x; clear x))) | skip)
      | apply Keeps.via (storeGran_keeps _ _ _ _)
      | apply Keeps.ite
      | apply Keeps.foldl_via
      | intro _
      | split

theorem scrubOwed_keeps (m page : Nat) (due : Bool) (s : State) : Keeps Part.stacks s (scrubOwed m page due s) := by
  unfold scrubOwed
  repeat' with_reducible first
      | apply Keeps.refl | assumption | (apply Part.named; decide)
      | apply Keeps.via (modStack_keeps _ _ _)
      | apply Keeps.ite

theorem writePage_keeps (m ch lpi : Nat) (hit : Bool) (errs : List (Nat × Nat)) (l : List (List (Option Byte) × Bool)) (s : State) : Keeps (Part.regs ||| Part.memory ||| Part.records ||| Part.atts ||| Part.towers ||| Part.stacks ||| Part.hub) s (writePage m ch lpi hit errs l s) := by
  unfold writePage
  repeat' with_reducible first
      | apply Keeps.refl | assumption | (apply Part.named; decide)
      | (extract_lets +onlyGivenNames x; first | (refine keepsLet (x := x) ?_ ?_; (on_goal 2 => (clear_value x; intro _)); (on_goal 1 => (unfold x; clear x))) | skip)
      | apply Keeps.via (clearBad_keeps _ _ _)
      | apply Keeps.via (decodePage_keeps _ _ _ _)
      | apply Keeps.via (modStack_keeps _ _ _)
      | apply Keeps.via (bufferPut_keeps _ _ _ _)
      | apply Keeps.via (storePage_keeps _ _ _)
      | apply Keeps.via (scrubOwed_keeps _ _ _ _)
      | apply Keeps.ite

theorem servePage_keeps (m ch : Nat) (r : PageReq) (errs : List (Nat × Nat)) (s : State) : Keeps (Part.regs ||| Part.memory ||| Part.records ||| Part.atts ||| Part.towers ||| Part.stacks ||| Part.hub) s (servePage m ch r errs s) := by
  unfold servePage
  repeat' with_reducible first
      | apply Keeps.refl | assumption | (apply Part.named; decide)
      | (extract_lets +onlyGivenNames x; first | (refine keepsLet (x := x) ?_ ?_; (on_goal 2 => (clear_value x; intro _)); (on_goal 1 => (unfold x; clear x))) | skip)
      | apply Keeps.via (decodeSpare_keeps _ _ _ _ _)
      | apply Keeps.via (report_keeps _ _ _ _ _)
      | apply Keeps.via (bufferPut_keeps _ _ _ _)
      | apply Keeps.via (decodePage_keeps _ _ _ _)
      | apply Keeps.via (writePage_keeps _ _ _ _ _ _ _)
      | apply Keeps.via (modStack_keeps _ _ _)
      | apply Keeps.via (scrubOwed_keeps _ _ _ _)
      | apply Keeps.ite
      | split

theorem scrubMove_keeps (m ch : Nat) (r : PageReq) (s : State) : Keeps (Part.regs ||| Part.stacks) s (scrubMove m ch r s) := by
  unfold scrubMove
  repeat' with_reducible first
      | apply Keeps.refl | assumption | (apply Part.named; decide)
      | apply Keeps.via (scrubEnd_keeps _ _)
      | apply Keeps.via (modStack_keeps _ _ _)
      | apply Keeps.ite

theorem unqueue_keeps (m ch : Nat) (r : PageReq) (s : State) : Keeps Part.stacks s (unqueue m ch r s) := by
  unfold unqueue
  repeat' with_reducible first
      | apply Keeps.refl | assumption | (apply Part.named; decide)
      | apply Keeps.via (modStack_keeps _ _ _)

theorem grantNext_keeps (m ch : Nat) (errs : List (Nat × Nat)) (cycles : Nat) (s : State) : Keeps (Part.regs ||| Part.memory ||| Part.records ||| Part.atts ||| Part.towers ||| Part.stacks ||| Part.hub) s (grantNext m ch errs cycles s) := by
  unfold grantNext
  repeat' with_reducible first
      | apply Keeps.refl | assumption | (apply Part.named; decide)
      | (extract_lets +onlyGivenNames x; first | (refine keepsLet (x := x) ?_ ?_; (on_goal 2 => (clear_value x; intro _)); (on_goal 1 => (unfold x; clear x))) | skip)
      | apply Keeps.via (modStack_keeps _ _ _)
      | apply Keeps.via (addReg_keeps _ _ _)
      | apply Keeps.via (grantChannel_keeps _ _ _ _ _ _)
      | apply Keeps.via (scrubMove_keeps _ _ _ _)
      | apply Keeps.via (servePage_keeps _ _ _ _ _)
      | apply Keeps.via (unqueue_keeps _ _ _ _)
      | split
      | apply Keeps.foldl_via
      | intro _

theorem execPageAccess_keeps (m : Fin 8) (ch : Fin 32) (arrivals : List PageReq) (errors : List (Nat × Nat)) (cycles t : Nat) (s : State) : KeepsOut (Part.regs ||| Part.memory ||| Part.time ||| Part.records ||| Part.atts ||| Part.towers ||| Part.stacks ||| Part.hub) s (execPageAccess m ch arrivals errors cycles t s) := by
  unfold execPageAccess
  repeat' with_reducible first
      | apply Keeps.refl | assumption | (apply Part.named; decide)
      | apply Keeps.next
      | (extract_lets +onlyGivenNames x; first | (refine keepsLet (x := x) ?_ ?_; (on_goal 2 => (clear_value x; intro _)); (on_goal 1 => (unfold x; clear x))) | (refine keepsLetO (x := x) ?_ ?_; (on_goal 2 => (clear_value x; intro _)); (on_goal 1 => (unfold x; clear x))) | skip)
      | apply Keeps.via (servePage_keeps _ _ _ _ _)
      | apply Keeps.via (addReg_keeps _ _ _)
      | apply Keeps.via (grantChannel_keeps _ _ _ _ _ _)
      | apply Keeps.via (scrubMove_keeps _ _ _ _)
      | apply Keeps.via (queuePage_keeps _ _ _ _)
      | apply Keeps.via (unqueue_keeps _ _ _ _)
      | apply Keeps.via (grantNext_keeps _ _ _ _ _)
      | apply Keeps.foldl_via
      | apply Keeps.via (Keeps.later _ _)
      | intro _
      | split

theorem showConvert_keeps (s : State) : Keeps Part.regs s (showConvert s) := by
  unfold showConvert
  repeat' with_reducible first
      | apply Keeps.refl | assumption | (apply Part.named; decide)
      | apply Keeps.via (setReg_keeps _ _ _)
      | split

theorem applyStrength_keeps (n : Nat) (v : Word) (s : State) : Keeps (Part.regs ||| Part.hub) s (applyStrength n v s) := by
  unfold applyStrength
  repeat' with_reducible first
      | apply Keeps.refl | assumption | (apply Part.named; decide)
      | (extract_lets +onlyGivenNames x; first | (refine keepsLet (x := x) ?_ ?_; (on_goal 2 => (clear_value x; intro _)); (on_goal 1 => (unfold x; clear x))) | skip)
      | apply Keeps.via (setReg_keeps _ _ _)
      | apply Keeps.via (showConvert_keeps _)
      | apply Keeps.via (modHub_keeps _ _)
      | apply Keeps.ite
      | apply Keeps.foldl_via
      | intro _

theorem zeroLast_keeps (r : Nat) (s : State) : Keeps Part.memory s (zeroLast r s) := by
  unfold zeroLast
  repeat' with_reducible first
      | apply Keeps.refl | assumption | (apply Part.named; decide)
      | apply Keeps.via (zeroRange_keeps _ _ _)
      | apply Keeps.foldl_via
      | intro _

theorem execRegionConvert_keeps (found : List (Fin 8 × Fin 33554432 × List (Nat × Nat))) (s : State) : KeepsOut (Part.regs ||| Part.memory ||| Part.records ||| Part.atts ||| Part.towers ||| Part.stacks ||| Part.hub) s (execRegionConvert found s) := by
  unfold execRegionConvert
  repeat' with_reducible first
      | apply Keeps.refl | assumption | (apply Part.named; decide)
      | apply Keeps.next
      | (extract_lets +onlyGivenNames x; first | (refine keepsLet (x := x) ?_ ?_; (on_goal 2 => (clear_value x; intro _)); (on_goal 1 => (unfold x; clear x))) | (refine keepsLetO (x := x) ?_ ?_; (on_goal 2 => (clear_value x; intro _)); (on_goal 1 => (unfold x; clear x))) | skip)
      | apply Keeps.via (pageEvent_keeps _ _ _ _)
      | apply Keeps.via (report_keeps _ _ _ _ _)
      | apply Keeps.via (addReg_keeps _ _ _)
      | apply Keeps.via (setBad_keeps _ _ _)
      | apply Keeps.via (clearBad_keeps _ _ _)
      | apply Keeps.via (blotPage_keeps _ _)
      | apply Keeps.via (zeroRange_keeps _ _ _)
      | apply Keeps.via (putRegion_keeps _ _ _)
      | apply Keeps.via (showConvert_keeps _)
      | apply Keeps.via (modHub_keeps _ _)
      | apply Keeps.via (decodePage_keeps _ _ _ _)
      | apply Keeps.via (zeroLast_keeps _ _)
      | apply Keeps.ite
      | apply KeepsOut.ite
      | apply Keeps.foldl_via
      | intro _
      | split

end Sys2Proof.Machine
end

