-- ==== Sys2Proof/Laws/KeepCxl.lean ====
section
/-!
SUPPORT. What each operation and meaning of Machine/Cxl.lean keeps (Laws/Keep.lean).
-/
namespace Sys2Proof.Machine

theorem farLost_keeps (fn : Nat) (by_ : Option (Fin 64)) (read : Bool) (s : State) : Keeps (Part.regs ||| Part.log ||| Part.records ||| Part.jobs) s (farLost fn by_ read s) := by
  unfold farLost
  repeat' with_reducible first
      | apply Keeps.refl | assumption | (apply Part.named; decide)
      | apply Keeps.elim
      | intro _
      | (extract_lets +onlyGivenNames x; first | (refine keepsLet (x := x) ?_ ?_; (on_goal 2 => (clear_value x; intro _)); (on_goal 1 => (unfold x; clear x))) | skip)
      | apply Keeps.via (noteBusErr_keeps _ _)
      | apply Keeps.via (emit_keeps _ _)
      | apply Keeps.ite

theorem farError_keeps (fn a : Nat) (by_ : Option (Fin 64)) (read : Bool) (s : State) : Keeps (Part.regs ||| Part.log ||| Part.records ||| Part.jobs) s (farError fn a by_ read s) := by
  unfold farError
  repeat' with_reducible first
      | apply Keeps.refl | assumption | (apply Part.named; decide)
      | (extract_lets +onlyGivenNames x; first | (refine keepsLet (x := x) ?_ ?_; (on_goal 2 => (clear_value x; intro _)); (on_goal 1 => (unfold x; clear x))) | skip)
      | apply Keeps.via (busError_keeps _ _ _)
      | apply Keeps.via (emit_keeps _ _)
      | apply Keeps.via (farLost_keeps _ _ _ _)
      | apply Keeps.ite

theorem farFail_keeps (fn a : Nat) (by_ : Option (Fin 64)) (read : Bool) (s : State) : Keeps (Part.regs ||| Part.log ||| Part.records ||| Part.jobs) s (farFail fn a by_ read s) := by
  unfold farFail
  repeat' with_reducible first
      | apply Keeps.refl | assumption | (apply Part.named; decide)
      | (extract_lets +onlyGivenNames x; first | (refine keepsLet (x := x) ?_ ?_; (on_goal 2 => (clear_value x; intro _)); (on_goal 1 => (unfold x; clear x))) | skip)
      | apply Keeps.via (report_keeps _ _ _ _ _)
      | apply Keeps.via (addReg_keeps _ _ _)
      | apply Keeps.via (emit_keeps _ _)
      | apply Keeps.via (farLost_keeps _ _ _ _)
      | apply Keeps.ite
      | split

theorem poisonGran_keeps (d : Nat) (s : State) : Keeps Part.memory s (poisonGran d s) := by
  unfold poisonGran
  repeat' with_reducible first
      | apply Keeps.refl | assumption | (apply Part.named; decide)
      | apply Keeps.via (markBlot_keeps _ _)

theorem execFarAccess_keeps (fn : Fin 65) (by_ : Option (Fin 64)) (addr : Nat) (write : Option (List (BitVec 8) × Bool)) (poison fail : Bool)
    (s : State) : KeepsOut (Part.regs ||| Part.memory ||| Part.frees ||| Part.log ||| Part.records ||| Part.queues ||| Part.jobs ||| Part.towers ||| Part.stacks ||| Part.hub) s (execFarAccess fn by_ addr write poison fail s) := by
  unfold execFarAccess
  repeat' with_reducible first
      | apply Keeps.refl | assumption | (apply Part.named; decide)
      | apply Keeps.next
      | (extract_lets +onlyGivenNames x; first | (refine keepsLet (x := x) ?_ ?_; (on_goal 2 => (clear_value x; intro _)); (on_goal 1 => (unfold x; clear x))) | (refine keepsLetO (x := x) ?_ ?_; (on_goal 2 => (clear_value x; intro _)); (on_goal 1 => (unfold x; clear x))) | skip)
      | apply Keeps.via (farError_keeps _ _ _ _ _)
      | apply Keeps.via (fail_keeps _ _ _ _)
      | apply Keeps.via (farFail_keeps _ _ _ _ _)
      | apply Keeps.via (poisonGran_keeps _ _)
      | apply Keeps.via (readT_keeps _ _ _ _ _)
      | (apply keepsEq (fun r => r.s) (readT_keeps _ _ _ _ _); on_goal 1 => assumption)
      | apply Keeps.via (bumpFree_keeps _)
      | apply Keeps.via (emit_keeps _ _)
      | apply Keeps.via (writeSpan_keeps _ _ _ _ _)
      | (apply keepsEq (fun r => r.s) (writeSpan_keeps _ _ _ _ _); on_goal 1 => assumption)
      | apply Keeps.via (Wrote.start_keeps _)
      | apply Keeps.ite
      | apply KeepsOut.ite
      | split

theorem execCxlCompletionTimeout_keeps (fn : Fin 65) (by_ : Option (Fin 64)) (addr : Nat) (s : State) : KeepsOut (Part.regs ||| Part.log ||| Part.records ||| Part.jobs) s (execCxlCompletionTimeout fn by_ addr s) := by
  unfold execCxlCompletionTimeout
  repeat' with_reducible first
      | apply Keeps.refl | assumption | (apply Part.named; decide)
      | apply Keeps.next
      | apply Keeps.via (farFail_keeps _ _ _ _ _)

theorem expanderLost_keeps (p e : Nat) (s : State) : Keeps (Part.memory ||| Part.records ||| Part.stacks) s (expanderLost p e s) := by
  unfold expanderLost
  repeat' with_reducible first
      | apply Keeps.refl | assumption | (apply Part.named; decide)
      | (extract_lets +onlyGivenNames x; first | (refine keepsLet (x := x) ?_ ?_; (on_goal 2 => (clear_value x; intro _)); (on_goal 1 => (unfold x; clear x))) | skip)
      | apply Keeps.via (zeroRange_keeps _ _ _)
      | apply Keeps.via (report_keeps _ _ _ _ _)
      | apply Keeps.foldl_via
      | intro _
      | fail_if_no_progress (apply Keeps.via (Keeps.putFarReady _ _))

theorem driveRefclk_keeps (p : Nat) (on : Bool) (s : State) : Keeps Part.sup s (driveRefclk p on s) := by
  unfold driveRefclk
  repeat' with_reducible first
      | apply Keeps.refl | assumption | (apply Part.named; decide)
      | apply Keeps.foldl_via
      | intro _
      | fail_if_no_progress (apply Keeps.via (Keeps.putPins _ _))

theorem cxlDown_keeps (p : Nat) (powerLost : List Nat) (s : State) :
    Keeps (Part.regs ||| Part.memory ||| Part.records ||| Part.stacks ||| Part.sup) s (cxlDown p powerLost s) := by
  unfold cxlDown
  repeat' with_reducible first
      | apply Keeps.refl | assumption | (apply Part.named; decide)
      | (extract_lets +onlyGivenNames x; first | (refine keepsLet (x := x) ?_ ?_; (on_goal 2 => (clear_value x; intro _)); (on_goal 1 => (unfold x; clear x))) | skip)
      | apply Keeps.via (setF_keeps _ _ _ _ _)
      | apply Keeps.via (setB_keeps _ _ _ _)
      | apply Keeps.via (report_keeps _ _ _ _ _)
      | apply Keeps.via (expanderLost_keeps _ _ _)
      | apply Keeps.via (driveRefclk_keeps _ _ _)
      | apply Keeps.ite
      | apply Keeps.foldl_via
      | intro _

theorem execCxlDown_keeps (p : Fin 2) (powerLost : List Nat) (s : State) :
    KeepsOut (Part.regs ||| Part.memory ||| Part.records ||| Part.stacks ||| Part.sup) s (execCxlDown p powerLost s) := by
  unfold execCxlDown
  repeat' with_reducible first
      | apply Keeps.refl | assumption | (apply Part.named; decide)
      | apply Keeps.next
      | apply Keeps.via (cxlDown_keeps _ _ _)

theorem execCxlEvent_keeps (p : Fin 2) (expander : Fin 2) (kind : Nat) (s : State) :
    KeepsOut Part.records s (execCxlEvent p expander kind s) := by
  unfold execCxlEvent
  repeat' with_reducible first
      | apply Keeps.refl | assumption | (apply Part.named; decide)
      | apply Keeps.next
      | apply Keeps.via (report_keeps _ _ _ _ _)
      | apply Keeps.ite
      | apply KeepsOut.ite

theorem execCxlLinkTrained_keeps (p : Fin 2) (flit256 : Bool) (speed width : Nat) (s : State) :
    KeepsOut (Part.regs ||| Part.sup) s (execCxlLinkTrained p flit256 speed width s) := by
  unfold execCxlLinkTrained
  repeat' with_reducible first
      | apply Keeps.refl | assumption | (apply Part.named; decide)
      | apply Keeps.next
      | (extract_lets +onlyGivenNames x; first | (refine keepsLet (x := x) ?_ ?_; (on_goal 2 => (clear_value x; intro _)); (on_goal 1 => (unfold x; clear x))) | (refine keepsLetO (x := x) ?_ ?_; (on_goal 2 => (clear_value x; intro _)); (on_goal 1 => (unfold x; clear x))) | skip)
      | apply Keeps.via (setB_keeps _ _ _ _)
      | apply Keeps.via (setF_keeps _ _ _ _ _)
      | apply Keeps.via (driveRefclk_keeps _ _ _)
      | apply Keeps.ite
      | apply KeepsOut.ite

end Sys2Proof.Machine
end

