-- ==== Sys2Proof/Laws/KeepVCore.lean ====
section
/-!
SUPPORT. What each operation and meaning of Machine/VCore.lean keeps (Laws/Keep.lean).
-/
namespace Sys2Proof.Machine

theorem Keeps.foldlG_via {m : Nat} {α : Type} {f : GathOut → α → GathOut} {l : List α} {a : State} {w : GathOut}
    (h : ∀ w e, Keeps m w.s (f w e).s) (g : Keeps m a w.s) : Keeps m a (l.foldl f w).s := g.trans (Keeps.foldlBy GathOut.s h l w)

theorem vWrite_keeps (k vd wd : Nat) (vals : Nat → Option Nat) (tags : List Bool) (s : State) :
    Keeps Part.vcores s (vWrite k vd wd vals tags s) := by
  unfold vWrite
  repeat' with_reducible first
      | apply Keeps.refl | assumption | (apply Part.named; decide)
      | (extract_lets +onlyGivenNames x; first | (refine keepsLet (x := x) ?_ ?_; (on_goal 2 => (clear_value x; intro _)); (on_goal 1 => (unfold x; clear x))) | skip)
      | apply Keeps.via (setVx_keeps _ _ _ _ _)
      | apply Keeps.via (healVx_keeps _ _ _ _)

theorem laneOp_keeps (k : Nat) (f : VFields) (srcs : List Nat) (g : Nat → Nat) (s : State) : Keeps Part.vcores s (laneOp k f srcs g s) := by
  unfold laneOp
  repeat' with_reducible first
      | apply Keeps.refl | assumption | (apply Part.named; decide)
      | (extract_lets +onlyGivenNames x; first | (refine keepsLet (x := x) ?_ ?_; (on_goal 2 => (clear_value x; intro _)); (on_goal 1 => (unfold x; clear x))) | skip)
      | apply Keeps.via (vWrite_keeps _ _ _ _ _ _)
      | apply Keeps.ite

theorem vParity_keeps (p : Option (Nat × Nat)) (k : Nat) (w : StrokeWord) (s : State) :
    Keeps (Part.regs ||| Part.memory ||| Part.log ||| Part.records ||| Part.jobs ||| Part.clusters ||| Part.bases ||| Part.mcores ||| Part.vcores ||| Part.hub ||| Part.sup) s (vParity p k w s) := by
  unfold vParity
  repeat' with_reducible first
      | apply Keeps.refl | assumption | (apply Part.named; decide)
      | (extract_lets +onlyGivenNames x; first | (refine keepsLet (x := x) ?_ ?_; (on_goal 2 => (clear_value x; intro _)); (on_goal 1 => (unfold x; clear x))) | skip)
      | apply Keeps.via (modV_keeps _ _ _)
      | apply Keeps.via (addReg_keeps _ _ _)
      | apply Keeps.via (report_keeps _ _ _ _ _)
      | apply Keeps.via (coreEvent_keeps _ _ _ _)
      | apply Keeps.ite
      | split

theorem vEffect_keeps (p : Option (Nat × Nat)) (f : Nat → StrokeWord → State → Option StrokeOut) (k : Nat) (w : StrokeWord) (s : State) {m : Nat} (hm : (Part.regs ||| Part.memory ||| Part.log ||| Part.records ||| Part.jobs ||| Part.clusters ||| Part.bases ||| Part.mcores ||| Part.vcores ||| Part.hub ||| Part.sup) ||| m = m) (hf : ∀ x0 x1 x2, KeepsOpt m (fun r => r.s) x2 (f x0 x1 x2)) :
    KeepsOpt m (fun r => r.s) s (vEffect p f k w s) := by
  unfold vEffect
  repeat' with_reducible first
      | apply Keeps.refl | assumption | (apply Part.named; decide)
      | apply KeepsOpt.none
      | apply KeepsOpt.viaH (hf _ _ _)
      | (apply KeepsOpt.getH (hf _ _ _); on_goal 1 => assumption)
      | apply Keeps.via (vParity_keeps _ _ _ _)
      | apply Keeps.ite
      | split

theorem vPlain_keeps (f : Nat → StrokeWord → State → Option StrokeOut) (k : Nat) (w : StrokeWord) (s : State) {m : Nat} (hm : 0 ||| m = m) (hf : ∀ x0 x1 x2, KeepsOpt m (fun r => r.s) x2 (f x0 x1 x2)) :
    KeepsOpt m (fun r => r.s) s (vPlain f k w s) := by
  unfold vPlain
  split
  · exact KeepsOpt.none
  · exact hf _ _ _

theorem binEffect_keeps (g : Nat → Nat → Nat → Nat) (k : Nat) (w : StrokeWord) (s : State) :
    KeepsOpt Part.vcores (fun r => r.s) s (binEffect g k w s) := by
  unfold binEffect
  repeat' with_reducible first
      | apply Keeps.refl | assumption | (apply Part.named; decide)
      | apply KeepsOpt.some
      | (extract_lets +onlyGivenNames x; first | (refine keepsLet (x := x) ?_ ?_; (on_goal 2 => (clear_value x; intro _)); (on_goal 1 => (unfold x; clear x))) | skip)
      | apply Keeps.via (laneOp_keeps _ _ _ _ _)

theorem unEffect_keeps (g : Nat → Nat → Nat) (k : Nat) (w : StrokeWord) (s : State) :
    KeepsOpt Part.vcores (fun r => r.s) s (unEffect g k w s) := by
  unfold unEffect
  repeat' with_reducible first
      | apply Keeps.refl | assumption | (apply Part.named; decide)
      | apply KeepsOpt.some
      | (extract_lets +onlyGivenNames x; first | (refine keepsLet (x := x) ?_ ?_; (on_goal 2 => (clear_value x; intro _)); (on_goal 1 => (unfold x; clear x))) | skip)
      | apply Keeps.via (laneOp_keeps _ _ _ _ _)

theorem vfmaEffect_keeps (k : Nat) (w : StrokeWord) (s : State) : KeepsOpt Part.vcores (fun r => r.s) s (vfmaEffect k w s) := by
  unfold vfmaEffect
  repeat' with_reducible first
      | apply Keeps.refl | assumption | (apply Part.named; decide)
      | apply KeepsOpt.some
      | (extract_lets +onlyGivenNames x; first | (refine keepsLet (x := x) ?_ ?_; (on_goal 2 => (clear_value x; intro _)); (on_goal 1 => (unfold x; clear x))) | skip)
      | apply Keeps.via (laneOp_keeps _ _ _ _ _)

theorem vshiftEffect_keeps (k : Nat) (w : StrokeWord) (s : State) : KeepsOpt Part.vcores (fun r => r.s) s (vshiftEffect k w s) := by
  unfold vshiftEffect
  repeat' with_reducible first
      | apply Keeps.refl | assumption | (apply Part.named; decide)
      | apply KeepsOpt.some
      | (extract_lets +onlyGivenNames x; first | (refine keepsLet (x := x) ?_ ?_; (on_goal 2 => (clear_value x; intro _)); (on_goal 1 => (unfold x; clear x))) | skip)
      | apply Keeps.via (laneOp_keeps _ _ _ _ _)

theorem vcmpEffect_keeps (k : Nat) (w : StrokeWord) (s : State) : KeepsOpt Part.vcores (fun r => r.s) s (vcmpEffect k w s) := by
  unfold vcmpEffect
  repeat' with_reducible first
      | apply Keeps.refl | assumption | (apply Part.named; decide)
      | apply KeepsOpt.some
      | (extract_lets +onlyGivenNames x; first | (refine keepsLet (x := x) ?_ ?_; (on_goal 2 => (clear_value x; intro _)); (on_goal 1 => (unfold x; clear x))) | skip)
      | apply Keeps.via (setMask_keeps _ _ _ _ _)
      | apply Keeps.ite

theorem vselEffect_keeps (k : Nat) (w : StrokeWord) (s : State) : KeepsOpt Part.vcores (fun r => r.s) s (vselEffect k w s) := by
  unfold vselEffect
  repeat' with_reducible first
      | apply Keeps.refl | assumption | (apply Part.named; decide)
      | apply KeepsOpt.some
      | (extract_lets +onlyGivenNames x; first | (refine keepsLet (x := x) ?_ ?_; (on_goal 2 => (clear_value x; intro _)); (on_goal 1 => (unfold x; clear x))) | skip)
      | apply Keeps.via (vWrite_keeps _ _ _ _ _ _)
      | apply Keeps.ite

theorem vrotEffect_keeps (k : Nat) (w : StrokeWord) (s : State) : KeepsOpt Part.vcores (fun r => r.s) s (vrotEffect k w s) := by
  unfold vrotEffect
  repeat' with_reducible first
      | apply Keeps.refl | assumption | (apply Part.named; decide)
      | apply KeepsOpt.some
      | (extract_lets +onlyGivenNames x; first | (refine keepsLet (x := x) ?_ ?_; (on_goal 2 => (clear_value x; intro _)); (on_goal 1 => (unfold x; clear x))) | skip)
      | apply Keeps.via (laneOp_keeps _ _ _ _ _)

theorem setKey_keeps (k i : Nat) (v : BitVec 64) (s : State) : Keeps Part.vcores s (setKey k i v s) := by
  unfold setKey
  repeat' with_reducible first
      | apply Keeps.refl | assumption | (apply Part.named; decide)
      | apply Keeps.via (modV_keeps _ _ _)

theorem setCb_keeps (k : Nat) (v : BitVec 64) (s : State) : Keeps Part.vcores s (setCb k v s) := by
  unfold setCb
  repeat' with_reducible first
      | apply Keeps.refl | assumption | (apply Part.named; decide)
      | apply Keeps.via (modV_keeps _ _ _)

theorem advance_keeps (k : Nat) (f : VFields) (n : Nat) (s : State) : Keeps Part.vcores s (advance k f n s) := by
  unfold advance
  repeat' with_reducible first
      | apply Keeps.refl | assumption | (apply Part.named; decide)
      | apply Keeps.via (setCb_keeps _ _ _)
      | apply Keeps.ite

theorem vrgenEffect_keeps (k : Nat) (w : StrokeWord) (s : State) : KeepsOpt Part.vcores (fun r => r.s) s (vrgenEffect k w s) := by
  unfold vrgenEffect
  repeat' with_reducible first
      | apply Keeps.refl | assumption | (apply Part.named; decide)
      | apply KeepsOpt.some
      | (extract_lets +onlyGivenNames x; first | (refine keepsLet (x := x) ?_ ?_; (on_goal 2 => (clear_value x; intro _)); (on_goal 1 => (unfold x; clear x))) | skip)
      | apply Keeps.via (advance_keeps _ _ _ _)
      | apply Keeps.via (laneOp_keeps _ _ _ _ _)

theorem vcvtEffect_keeps (k : Nat) (w : StrokeWord) (s : State) : KeepsOpt Part.vcores (fun r => r.s) s (vcvtEffect k w s) := by
  unfold vcvtEffect
  repeat' with_reducible first
      | apply Keeps.refl | assumption | (apply Part.named; decide)
      | apply KeepsOpt.some
      | (extract_lets +onlyGivenNames x; first | (refine keepsLet (x := x) ?_ ?_; (on_goal 2 => (clear_value x; intro _)); (on_goal 1 => (unfold x; clear x))) | skip)
      | apply Keeps.via (advance_keeps _ _ _ _)
      | apply Keeps.via (vWrite_keeps _ _ _ _ _ _)
      | apply Keeps.ite

theorem vxuEffect_keeps (g : Nat → Nat) (k : Nat) (w : StrokeWord) (s : State) :
    KeepsOpt Part.vcores (fun r => r.s) s (vxuEffect g k w s) := by
  unfold vxuEffect
  repeat' with_reducible first
      | apply Keeps.refl | assumption | (apply Part.named; decide)
      | apply KeepsOpt.some
      | (extract_lets +onlyGivenNames x; first | (refine keepsLet (x := x) ?_ ?_; (on_goal 2 => (clear_value x; intro _)); (on_goal 1 => (unfold x; clear x))) | skip)
      | apply Keeps.via (laneOp_keeps _ _ _ _ _)
      | apply Keeps.ite

theorem reduceEffect_keeps (fop iop : Nat → Nat → Nat) (fid iid : Nat) (k : Nat) (w : StrokeWord) (s : State) :
    KeepsOpt Part.vcores (fun r => r.s) s (reduceEffect fop iop fid iid k w s) := by
  unfold reduceEffect
  repeat' with_reducible first
      | apply Keeps.refl | assumption | (apply Part.named; decide)
      | apply KeepsOpt.some
      | (extract_lets +onlyGivenNames x; first | (refine keepsLet (x := x) ?_ ?_; (on_goal 2 => (clear_value x; intro _)); (on_goal 1 => (unfold x; clear x))) | skip)
      | apply Keeps.via (vWrite_keeps _ _ _ _ _ _)
      | apply Keeps.ite

theorem vrsumEffect_keeps (y0 : Nat) (y1 : StrokeWord) (y2 : State) : KeepsOpt Part.vcores (fun r => r.s) y2 (vrsumEffect y0 y1 y2) := by
  unfold vrsumEffect
  repeat' with_reducible first
      | apply Keeps.refl | assumption | (apply Part.named; decide)
      | (apply KeepsOpt.get (reduceEffect_keeps _ _ _ _ _ _ _); on_goal 1 => assumption)
      | apply KeepsOpt.via (reduceEffect_keeps _ _ _ _ _ _ _)

theorem vrmaxEffect_keeps (y0 : Nat) (y1 : StrokeWord) (y2 : State) : KeepsOpt Part.vcores (fun r => r.s) y2 (vrmaxEffect y0 y1 y2) := by
  unfold vrmaxEffect
  repeat' with_reducible first
      | apply Keeps.refl | assumption | (apply Part.named; decide)
      | (apply KeepsOpt.get (reduceEffect_keeps _ _ _ _ _ _ _); on_goal 1 => assumption)
      | apply KeepsOpt.via (reduceEffect_keeps _ _ _ _ _ _ _)

theorem vrminEffect_keeps (y0 : Nat) (y1 : StrokeWord) (y2 : State) : KeepsOpt Part.vcores (fun r => r.s) y2 (vrminEffect y0 y1 y2) := by
  unfold vrminEffect
  repeat' with_reducible first
      | apply Keeps.refl | assumption | (apply Part.named; decide)
      | (apply KeepsOpt.get (reduceEffect_keeps _ _ _ _ _ _ _); on_goal 1 => assumption)
      | apply KeepsOpt.via (reduceEffect_keeps _ _ _ _ _ _ _)

theorem vpermEffect_keeps (k : Nat) (w : StrokeWord) (s : State) : KeepsOpt Part.vcores (fun r => r.s) s (vpermEffect k w s) := by
  unfold vpermEffect
  repeat' with_reducible first
      | apply Keeps.refl | assumption | (apply Part.named; decide)
      | apply KeepsOpt.some
      | (extract_lets +onlyGivenNames x; first | (refine keepsLet (x := x) ?_ ?_; (on_goal 2 => (clear_value x; intro _)); (on_goal 1 => (unfold x; clear x))) | skip)
      | apply Keeps.via (vWrite_keeps _ _ _ _ _ _)
      | apply Keeps.ite

theorem vbcastEffect_keeps (k : Nat) (w : StrokeWord) (s : State) : KeepsOpt Part.vcores (fun r => r.s) s (vbcastEffect k w s) := by
  unfold vbcastEffect
  repeat' with_reducible first
      | apply Keeps.refl | assumption | (apply Part.named; decide)
      | apply KeepsOpt.some
      | (extract_lets +onlyGivenNames x; first | (refine keepsLet (x := x) ?_ ?_; (on_goal 2 => (clear_value x; intro _)); (on_goal 1 => (unfold x; clear x))) | skip)
      | apply Keeps.via (vWrite_keeps _ _ _ _ _ _)

theorem vBusError_keeps (k a : Nat) (s : State) : Keeps (Part.regs ||| Part.records) s (vBusError k a s) := by
  unfold vBusError
  repeat' with_reducible first
      | apply Keeps.refl | assumption | (apply Part.named; decide)
      | apply Keeps.via (report_keeps _ _ _ _ _)
      | apply Keeps.via (accessError_keeps _ _ _)

theorem vLoad_keeps (k : Nat) (m : VMem) (l : List TByte) (tag : Bool) (s : State) : Keeps Part.vcores s (vLoad k m l tag s) := by
  unfold vLoad
  repeat' with_reducible first
      | apply Keeps.refl | assumption | (apply Part.named; decide)
      | (extract_lets +onlyGivenNames x; first | (refine keepsLet (x := x) ?_ ?_; (on_goal 2 => (clear_value x; intro _)); (on_goal 1 => (unfold x; clear x))) | skip)
      | apply Keeps.via (vWrite_keeps _ _ _ _ _ _)
      | apply Keeps.ite

theorem vldEffect_keeps (k : Nat) (w : StrokeWord) (s : State) :
    KeepsOpt (Part.regs ||| Part.memory ||| Part.records ||| Part.clusters ||| Part.vcores ||| Part.towers ||| Part.stacks ||| Part.hub) (fun r => r.s) s (vldEffect k w s) := by
  unfold vldEffect
  repeat' with_reducible first
      | apply Keeps.refl | assumption | (apply Part.named; decide)
      | apply KeepsOpt.some
      | (extract_lets +onlyGivenNames x; first | (refine keepsLet (x := x) ?_ ?_; (on_goal 2 => (clear_value x; intro _)); (on_goal 1 => (unfold x; clear x))) | skip)
      | (apply KeepsOpt.get2 (takeBytes_keeps _ _ _ _); on_goal 1 => assumption)
      | (apply KeepsOpt.get (takeBytes_keeps _ _ _ _); on_goal 1 => assumption)
      | apply KeepsOpt.mapVia (takeBytes_keeps _ _ _ _)
      | apply Keeps.via (vLoad_keeps _ _ _ _ _)
      | apply Keeps.via (vBusError_keeps _ _ _)
      | apply Keeps.via (coreRead_keeps _ _ _ _ _)
      | (apply keepsEq (fun r => r.s) (coreRead_keeps _ _ _ _ _); on_goal 1 => assumption)
      | apply Keeps.ite
      | intro _
      | split

theorem vstStore_keeps (k : Nat) (m : VMem) (a : Nat) (s : State) :
    Keeps (Part.regs ||| Part.memory ||| Part.records ||| Part.clusters ||| Part.stacks) s (vstStore k m a s).s := by
  unfold vstStore
  repeat' with_reducible first
      | apply Keeps.refl | assumption | (apply Part.named; decide)
      | (extract_lets +onlyGivenNames x; first | (refine keepsLet (x := x) ?_ ?_; (on_goal 2 => (clear_value x; intro _)); (on_goal 1 => (unfold x; clear x))) | skip)
      | apply Keeps.via (writeGran_keeps _ _ _ _ _)
      | (apply keepsEq (fun r => r.s) (writeGran_keeps _ _ _ _ _); on_goal 1 => assumption)
      | apply Keeps.via (logGran_keeps _ _ _ _ _)
      | apply Keeps.via (Wrote.start_keeps _)
      | apply Keeps.foldlW_via
      | apply Keeps.via (noteSpan_keeps _ _ _ _ _ _ _)
      | intro _
      | split

theorem vstAtomic_keeps (k : Nat) (m : VMem) (a : Nat) (s : State) :
    Keeps (Part.regs ||| Part.memory ||| Part.records ||| Part.clusters ||| Part.vcores ||| Part.towers ||| Part.stacks ||| Part.hub) s (vstAtomic k m a s).s := by
  unfold vstAtomic
  repeat' with_reducible first
      | apply Keeps.refl | assumption | (apply Part.named; decide)
      | (extract_lets +onlyGivenNames x; first | (refine keepsLet (x := x) ?_ ?_; (on_goal 2 => (clear_value x; intro _)); (on_goal 1 => (unfold x; clear x))) | skip)
      | apply Keeps.via (coreAtomic_keeps _ _ _ _ _ _)
      | (apply keepsEq (fun r => r.w.s) (coreAtomic_keeps _ _ _ _ _ _); on_goal 1 => assumption)
      | apply Keeps.via (vWrite_keeps _ _ _ _ _ _)
      | apply Keeps.via (Wrote.start_keeps _)
      | apply Keeps.ite
      | apply Keeps.foldlW_via
      | intro _
      | split

theorem vstLost_keeps (k : Nat) (m : VMem) (s : State) : Keeps Part.vcores s (vstLost k m s) := by
  unfold vstLost
  repeat' with_reducible first
      | apply Keeps.refl | assumption | (apply Part.named; decide)
      | apply Keeps.via (vLoad_keeps _ _ _ _ _)
      | apply Keeps.ite

theorem vstEffect_keeps (k : Nat) (w : StrokeWord) (s : State) :
    KeepsOpt (Part.regs ||| Part.memory ||| Part.records ||| Part.clusters ||| Part.vcores ||| Part.towers ||| Part.stacks ||| Part.hub) (fun r => r.s) s (vstEffect k w s) := by
  unfold vstEffect
  repeat' with_reducible first
      | apply Keeps.refl | assumption | (apply Part.named; decide)
      | apply KeepsOpt.some
      | (extract_lets +onlyGivenNames x; first | (refine keepsLet (x := x) ?_ ?_; (on_goal 2 => (clear_value x; intro _)); (on_goal 1 => (unfold x; clear x))) | (refine keepsLetP (x := x.s) ?_ ?_; (on_goal 2 => (clear_value x; intro _)); (on_goal 1 => (unfold x; clear x))) | skip)
      | apply Keeps.via (vstLost_keeps _ _ _)
      | apply Keeps.via (vBusError_keeps _ _ _)
      | (apply KeepsOpt.get (pushBytes_keeps _ _ _ _ _); on_goal 1 => assumption)
      | apply KeepsOpt.mapVia (pushBytes_keeps _ _ _ _ _)
      | apply Keeps.via (vstStore_keeps _ _ _ _)
      | (apply keepsEq (fun r => r.s) (vstStore_keeps _ _ _ _); on_goal 1 => assumption)
      | apply Keeps.via (vstAtomic_keeps _ _ _ _)
      | (apply keepsEq (fun r => r.s) (vstAtomic_keeps _ _ _ _); on_goal 1 => assumption)
      | apply Keeps.ite
      | split

theorem vIndices_keeps (k : Nat) (m : VMem) (s : State) : KeepsOpt Part.clusters (fun r => r.2) s (vIndices k m s) := by
  unfold vIndices
  repeat' with_reducible first
      | apply Keeps.refl | assumption | (apply Part.named; decide)
      | apply KeepsOpt.some
      | (extract_lets +onlyGivenNames x; first | (refine keepsLet (x := x) ?_ ?_; (on_goal 2 => (clear_value x; intro _)); (on_goal 1 => (unfold x; clear x))) | skip)
      | (apply KeepsOpt.get2 (takeBytes_keeps _ _ _ _); on_goal 1 => assumption)
      | (apply KeepsOpt.get (takeBytes_keeps _ _ _ _); on_goal 1 => assumption)
      | apply KeepsOpt.mapVia (takeBytes_keeps _ _ _ _)
      | apply Keeps.ite
      | intro _
      | split

theorem vgathEffect_keeps (k : Nat) (w : StrokeWord) (s : State) :
    KeepsOpt (Part.regs ||| Part.memory ||| Part.records ||| Part.clusters ||| Part.vcores ||| Part.towers ||| Part.stacks ||| Part.hub) (fun r => r.s) s (vgathEffect k w s) := by
  unfold vgathEffect
  repeat' with_reducible first
      | apply Keeps.refl | assumption | (apply Part.named; decide)
      | (extract_lets +onlyGivenNames x; first | (refine keepsLet (x := x) ?_ ?_; (on_goal 2 => (clear_value x; intro _)); (on_goal 1 => (unfold x; clear x))) | skip)
      | (apply KeepsOpt.get2 (vIndices_keeps _ _ _); on_goal 1 => assumption)
      | (apply KeepsOpt.get (vIndices_keeps _ _ _); on_goal 1 => assumption)
      | apply KeepsOpt.mapVia (vIndices_keeps _ _ _)
      | apply Keeps.via (vBusError_keeps _ _ _)
      | apply Keeps.via (coreRead_keeps _ _ _ _ _)
      | (apply keepsEq (fun r => r.s) (coreRead_keeps _ _ _ _ _); on_goal 1 => assumption)
      | apply Keeps.via (vWrite_keeps _ _ _ _ _ _)
      | apply Keeps.ite
      | apply Keeps.foldlG_via
      | intro _
      | split

theorem vscatEffect_keeps (k : Nat) (w : StrokeWord) (s : State) :
    KeepsOpt (Part.regs ||| Part.memory ||| Part.records ||| Part.clusters ||| Part.stacks) (fun r => r.s) s (vscatEffect k w s) := by
  unfold vscatEffect
  repeat' with_reducible first
      | apply Keeps.refl | assumption | (apply Part.named; decide)
      | (extract_lets +onlyGivenNames x; first | (refine keepsLet (x := x) ?_ ?_; (on_goal 2 => (clear_value x; intro _)); (on_goal 1 => (unfold x; clear x))) | skip)
      | (apply KeepsOpt.get2 (vIndices_keeps _ _ _); on_goal 1 => assumption)
      | (apply KeepsOpt.get (vIndices_keeps _ _ _); on_goal 1 => assumption)
      | apply KeepsOpt.mapVia (vIndices_keeps _ _ _)
      | apply Keeps.via (vBusError_keeps _ _ _)
      | apply Keeps.via (coreWrite_keeps _ _ _ _ _)
      | (apply keepsEq (fun r => r.s) (coreWrite_keeps _ _ _ _ _); on_goal 1 => assumption)
      | apply Keeps.via (addReg_keeps _ _ _)
      | apply Keeps.via (Wrote.start_keeps _)
      | apply Keeps.ite
      | apply Keeps.foldlW_via
      | intro _
      | split

theorem vsetbEffect_keeps (k : Nat) (w : StrokeWord) (s : State) : KeepsOpt Part.bases (fun r => r.s) s (vsetbEffect k w s) := by
  unfold vsetbEffect
  repeat' with_reducible first
      | apply Keeps.refl | assumption | (apply Part.named; decide)
      | apply KeepsOpt.some
      | (extract_lets +onlyGivenNames x; first | (refine keepsLet (x := x) ?_ ?_; (on_goal 2 => (clear_value x; intro _)); (on_goal 1 => (unfold x; clear x))) | skip)
      | apply Keeps.via (setAb_keeps _ _ _ _ _)
      | apply Keeps.ite

theorem vsetkEffect_keeps (k : Nat) (w : StrokeWord) (s : State) : KeepsOpt Part.vcores (fun r => r.s) s (vsetkEffect k w s) := by
  unfold vsetkEffect
  repeat' with_reducible first
      | apply Keeps.refl | assumption | (apply Part.named; decide)
      | apply KeepsOpt.some
      | (extract_lets +onlyGivenNames x; first | (refine keepsLet (x := x) ?_ ?_; (on_goal 2 => (clear_value x; intro _)); (on_goal 1 => (unfold x; clear x))) | skip)
      | apply Keeps.via (setKey_keeps _ _ _ _)
      | apply Keeps.ite

theorem vsetcEffect_keeps (k : Nat) (w : StrokeWord) (s : State) : KeepsOpt Part.vcores (fun r => r.s) s (vsetcEffect k w s) := by
  unfold vsetcEffect
  repeat' with_reducible first
      | apply Keeps.refl | assumption | (apply Part.named; decide)
      | apply KeepsOpt.some
      | (extract_lets +onlyGivenNames x; first | (refine keepsLet (x := x) ?_ ?_; (on_goal 2 => (clear_value x; intro _)); (on_goal 1 => (unfold x; clear x))) | skip)
      | apply Keeps.via (setCb_keeps _ _ _)
      | apply Keeps.ite

theorem vsetmEffect_keeps (k : Nat) (w : StrokeWord) (s : State) : KeepsOpt Part.vcores (fun r => r.s) s (vsetmEffect k w s) := by
  unfold vsetmEffect
  repeat' with_reducible first
      | apply Keeps.refl | assumption | (apply Part.named; decide)
      | apply KeepsOpt.some
      | (extract_lets +onlyGivenNames x; first | (refine keepsLet (x := x) ?_ ?_; (on_goal 2 => (clear_value x; intro _)); (on_goal 1 => (unfold x; clear x))) | skip)
      | apply Keeps.via (setMask_keeps _ _ _ _ _)

theorem optEffect_keeps (adam : Bool) (k : Nat) (w : StrokeWord) (s : State) :
    KeepsOpt Part.vcores (fun r => r.s) s (optEffect adam k w s) := by
  unfold optEffect
  repeat' with_reducible first
      | apply Keeps.refl | assumption | (apply Part.named; decide)
      | apply KeepsOpt.some
      | (extract_lets +onlyGivenNames x; first | (refine keepsLet (x := x) ?_ ?_; (on_goal 2 => (clear_value x; intro _)); (on_goal 1 => (unfold x; clear x))) | skip)
      | apply Keeps.via (vWrite_keeps _ _ _ _ _ _)
      | apply Keeps.via (advance_keeps _ _ _ _)
      | apply Keeps.ite

end Sys2Proof.Machine
end

