-- ==== Sys2Proof/Laws/KeepNmu.lean ====
section
/-!
SUPPORT. What each operation and meaning of Machine/Nmu.lean keeps (Laws/Keep.lean).
-/
namespace Sys2Proof.Machine

theorem startLaunch_keeps (st u : Nat) (l : NLaunch) (s : State) : Keeps (Part.regs ||| Part.nmus) s (startLaunch st u l s) := by
  unfold startLaunch
  repeat' with_reducible first
      | apply Keeps.refl | assumption | (apply Part.named; decide)
      | apply Keeps.via (addReg_keeps _ _ _)
      | apply Keeps.via (modNmu_keeps _ _ _ _)

theorem startQueued_keeps (st u : Nat) (s : State) : Keeps (Part.regs ||| Part.nmus) s (startQueued st u s) := by
  unfold startQueued
  repeat' with_reducible first
      | apply Keeps.refl | assumption | (apply Part.named; decide)
      | (extract_lets +onlyGivenNames x; first | (refine keepsLet (x := x) ?_ ?_; (on_goal 2 => (clear_value x; intro _)); (on_goal 1 => (unfold x; clear x))) | skip)
      | apply Keeps.via (startLaunch_keeps _ _ _ _)
      | apply Keeps.via (modNmu_keeps _ _ _ _)
      | apply Keeps.ite
      | split

theorem putDone_keeps (st u : Nat) (d : NDone) (s : State) : Keeps Part.nmus s (putDone st u d s) := by
  unfold putDone
  repeat' with_reducible first
      | apply Keeps.refl | assumption | (apply Part.named; decide)
      | apply Keeps.via (modNmu_keeps _ _ _ _)

theorem execNmuLaunch_keeps (st : Fin 4) (u : Fin 256) (s : State) : KeepsOut (Part.regs ||| Part.nmus) s (execNmuLaunch st u s) := by
  unfold execNmuLaunch
  repeat' with_reducible first
      | apply Keeps.refl | assumption | (apply Part.named; decide)
      | apply Keeps.next
      | (extract_lets +onlyGivenNames x; first | (refine keepsLet (x := x) ?_ ?_; (on_goal 2 => (clear_value x; intro _)); (on_goal 1 => (unfold x; clear x))) | (refine keepsLetO (x := x) ?_ ?_; (on_goal 2 => (clear_value x; intro _)); (on_goal 1 => (unfold x; clear x))) | skip)
      | apply Keeps.via (startQueued_keeps _ _ _)
      | apply Keeps.via (modNmu_keeps _ _ _ _)
      | apply Keeps.via (putDone_keeps _ _ _ _)
      | apply Keeps.via (addReg_keeps _ _ _)
      | apply Keeps.via (startLaunch_keeps _ _ _ _)
      | apply Keeps.ite
      | apply KeepsOut.ite
      | split

theorem failUnit_keeps (st u source : Nat) (s : State) :
    Keeps (Part.regs ||| Part.memory ||| Part.records ||| Part.atts ||| Part.towers ||| Part.stacks ||| Part.hub) s (failUnit st u source s) := by
  unfold failUnit
  repeat' with_reducible first
      | apply Keeps.refl | assumption | (apply Part.named; decide)
      | (extract_lets +onlyGivenNames x; first | (refine keepsLet (x := x) ?_ ?_; (on_goal 2 => (clear_value x; intro _)); (on_goal 1 => (unfold x; clear x))) | skip)
      | apply Keeps.via (setB_keeps _ _ _ _)
      | apply Keeps.via (modHub_keeps _ _)
      | apply Keeps.via (softFuse_keeps _ _ _ _)
      | apply Keeps.via (withdrawAll_keeps _ _)
      | apply Keeps.via (report_keeps _ _ _ _ _)
      | apply Keeps.ite

theorem unitEvent_keeps (st u : Nat) (s : State) :
    Keeps (Part.regs ||| Part.memory ||| Part.records ||| Part.atts ||| Part.towers ||| Part.stacks ||| Part.hub) s (unitEvent st u s) := by
  unfold unitEvent
  repeat' with_reducible first
      | apply Keeps.refl | assumption | (apply Part.named; decide)
      | (extract_lets +onlyGivenNames x; first | (refine keepsLet (x := x) ?_ ?_; (on_goal 2 => (clear_value x; intro _)); (on_goal 1 => (unfold x; clear x))) | skip)
      | apply Keeps.via (noteEvent_keeps _ _)
      | (apply keepsEq2 (noteEvent_keeps _ _); on_goal 1 => assumption)
      | apply Keeps.via (failUnit_keeps _ _ _ _)
      | apply Keeps.ite

theorem enterBank_keeps (st u : Nat) (odd : Bool) (s : State) : Keeps (Part.regs ||| Part.nmus) s (enterBank st u odd s) := by
  unfold enterBank
  repeat' with_reducible first
      | apply Keeps.refl | assumption | (apply Part.named; decide)
      | (extract_lets +onlyGivenNames x; first | (refine keepsLet (x := x) ?_ ?_; (on_goal 2 => (clear_value x; intro _)); (on_goal 1 => (unfold x; clear x))) | skip)
      | apply Keeps.via (addReg_keeps _ _ _)
      | apply Keeps.via (modNmu_keeps _ _ _ _)
      | apply Keeps.ite
      | split

theorem leaveBank_keeps (st u : Nat) (odd : Bool) (s : State) : Keeps (Part.regs ||| Part.nmus ||| Part.stacks) s (leaveBank st u odd s) := by
  unfold leaveBank
  repeat' with_reducible first
      | apply Keeps.refl | assumption | (apply Part.named; decide)
      | (extract_lets +onlyGivenNames x; first | (refine keepsLet (x := x) ?_ ?_; (on_goal 2 => (clear_value x; intro _)); (on_goal 1 => (unfold x; clear x))) | skip)
      | apply Keeps.via (addReg_keeps _ _ _)
      | apply Keeps.via (modNmu_keeps _ _ _ _)
      | apply Keeps.via (leaveNmuMode_keeps _ _ _ _)
      | apply Keeps.ite
      | split

theorem endRun_keeps (st u : Nat) (fault : Bool) (s : State) : Keeps (Part.regs ||| Part.nmus ||| Part.stacks) s (endRun st u fault s) := by
  unfold endRun
  repeat' with_reducible first
      | apply Keeps.refl | assumption | (apply Part.named; decide)
      | (extract_lets +onlyGivenNames x; first | (refine keepsLet (x := x) ?_ ?_; (on_goal 2 => (clear_value x; intro _)); (on_goal 1 => (unfold x; clear x))) | skip)
      | apply Keeps.via (leaveBank_keeps _ _ _ _)
      | apply Keeps.via (modNmu_keeps _ _ _ _)
      | apply Keeps.via (startQueued_keeps _ _ _)
      | apply Keeps.via (putDone_keeps _ _ _ _)
      | apply Keeps.ite
      | split

theorem storeFault_keeps (st u : Nat) (r : NRun) (s : State) :
    Keeps (Part.regs ||| Part.memory ||| Part.records ||| Part.nmus ||| Part.atts ||| Part.towers ||| Part.stacks ||| Part.hub) s (storeFault st u r s) := by
  unfold storeFault
  repeat' with_reducible first
      | apply Keeps.refl | assumption | (apply Part.named; decide)
      | (extract_lets +onlyGivenNames x; first | (refine keepsLet (x := x) ?_ ?_; (on_goal 2 => (clear_value x; intro _)); (on_goal 1 => (unfold x; clear x))) | skip)
      | apply Keeps.via (report_keeps _ _ _ _ _)
      | apply Keeps.via (endRun_keeps _ _ _ _)
      | apply Keeps.via (unitEvent_keeps _ _ _)
      | apply Keeps.via (addReg_keeps _ _ _)
      | apply Keeps.ite
      | fail_if_no_progress (apply Keeps.via (Keeps.putAtts _ _))

theorem parityHit_keeps (st u : Nat) (w : DWord) (p : Option Nat) (s : State) : Keeps (Part.regs ||| Part.memory ||| Part.records ||| Part.nmus ||| Part.atts ||| Part.towers ||| Part.stacks ||| Part.hub) s (parityHit st u w p s) := by
  unfold parityHit
  repeat' with_reducible first
      | apply Keeps.refl | assumption | (apply Part.named; decide)
      | (extract_lets +onlyGivenNames x; first | (refine keepsLet (x := x) ?_ ?_; (on_goal 2 => (clear_value x; intro _)); (on_goal 1 => (unfold x; clear x))) | skip)
      | apply Keeps.via (unitEvent_keeps _ _ _)
      | apply Keeps.via (addReg_keeps _ _ _)
      | apply Keeps.via (modNmu_keeps _ _ _ _)
      | apply Keeps.ite
      | split

theorem countWord_keeps (opc st u : Nat) (e : NmuErr) (s : State) : Keeps Part.regs s (countWord opc st u e s) := by
  unfold countWord
  repeat' with_reducible first
      | apply Keeps.refl | assumption | (apply Part.named; decide)
      | (extract_lets +onlyGivenNames x; first | (refine keepsLet (x := x) ?_ ?_; (on_goal 2 => (clear_value x; intro _)); (on_goal 1 => (unfold x; clear x))) | skip)
      | apply Keeps.via (addReg_keeps _ _ _)
      | apply Keeps.ite

theorem goOn_keeps (st u : Nat) (x : NRun × State) : Keeps Part.nmus x.2 (goOn st u x) := by
  unfold goOn
  repeat' with_reducible first
      | apply Keeps.refl | assumption | (apply Part.named; decide)
      | apply Keeps.via (modNmu_keeps _ _ _ _)

theorem runWord_keeps (opc : Nat) (st u : Nat) (e : NmuErr) (act : DWord → NRun → State → State) (s : State) {m : Nat} (hm : (Part.regs ||| Part.memory ||| Part.records ||| Part.nmus ||| Part.atts ||| Part.towers ||| Part.stacks ||| Part.hub) ||| m = m) (hact : ∀ x0 x1 x2, Keeps m x2 (act x0 x1 x2)) :
    KeepsOut m s (runWord opc st u e act s) := by
  unfold runWord
  repeat' with_reducible first
      | apply Keeps.refl | assumption | (apply Part.named; decide) | exact Part.sub hm (by decide)
      | apply Keeps.next
      | (extract_lets +onlyGivenNames x; first | (refine keepsLet (x := x) ?_ ?_; (on_goal 2 => (clear_value x; intro _)); (on_goal 1 => (unfold x; clear x))) | (refine keepsLetO (x := x) ?_ ?_; (on_goal 2 => (clear_value x; intro _)); (on_goal 1 => (unfold x; clear x))) | skip)
      | apply Keeps.via (storeFault_keeps _ _ _ _)
      | apply Keeps.via (addReg_keeps _ _ _)
      | apply Keeps.via (parityHit_keeps _ _ _ _ _)
      | apply Keeps.viaH (hact _ _ _)
      | apply Keeps.via (countWord_keeps _ _ _ _ _)
      | apply Keeps.ite
      | apply KeepsOut.ite
      | split

theorem plainWord_keeps (opc : Nat) (eff : NEffect) (st u : Nat) (e : NmuErr) (s : State) {m : Nat} (hm : (Part.regs ||| Part.memory ||| Part.records ||| Part.nmus ||| Part.atts ||| Part.towers ||| Part.stacks ||| Part.hub) ||| m = m) (heff : ∀ x0 x1 x2 x3 x4, Keeps m x4 (eff x0 x1 x2 x3 x4).2) :
    KeepsOut m s (plainWord opc eff st u e s) := by
  unfold plainWord
  repeat' with_reducible first
      | apply Keeps.refl | assumption | (apply Part.named; decide) | exact Part.sub hm (by decide)
      | apply Keeps.next
      | apply KeepsOut.viaH (runWord_keeps _ _ _ _ _ _ ?_ ?_)
      | apply Keeps.via (goOn_keeps _ _ _)
      | apply Keeps.viaH (heff _ _ _ _ _)
      | intro _

theorem nopWord_keeps (y0 : Nat) (y1 : Nat) (y2 : DWord) (y3 : NRun) (y4 : State) : Keeps 0 y4 (nopWord y0 y1 y2 y3 y4).2 := by
  unfold nopWord
  repeat' with_reducible first
      | apply Keeps.refl | assumption | (apply Part.named; decide)

theorem endWord_keeps (st u : Nat) (r : NRun) (s : State) : Keeps (Part.regs ||| Part.nmus ||| Part.stacks) s (endWord st u r s) := by
  unfold endWord
  repeat' with_reducible first
      | apply Keeps.refl | assumption | (apply Part.named; decide)
      | apply Keeps.via (endRun_keeps _ _ _ _)
      | apply Keeps.via (modNmu_keeps _ _ _ _)
      | apply Keeps.ite

theorem yieldWord_keeps (st u : Nat) (even odd : Bool) (r : NRun) (s : State) :
    Keeps (Part.regs ||| Part.nmus ||| Part.stacks) s (yieldWord st u even odd r s) := by
  unfold yieldWord
  repeat' with_reducible first
      | apply Keeps.refl | assumption | (apply Part.named; decide)
      | (extract_lets +onlyGivenNames x; first | (refine keepsLet (x := x) ?_ ?_; (on_goal 2 => (clear_value x; intro _)); (on_goal 1 => (unfold x; clear x))) | skip)
      | apply Keeps.via (addReg_keeps _ _ _)
      | apply Keeps.via (endRun_keeps _ _ _ _)
      | apply Keeps.via (modNmu_keeps _ _ _ _)
      | apply Keeps.via (leaveBank_keeps _ _ _ _)
      | apply Keeps.ite

theorem loopWord_keeps (st u : Nat) (w : DWord) (r : NRun) (s : State) : Keeps Part.nmus s (loopWord st u w r s) := by
  unfold loopWord
  repeat' with_reducible first
      | apply Keeps.refl | assumption | (apply Part.named; decide)
      | (extract_lets +onlyGivenNames x; first | (refine keepsLet (x := x) ?_ ?_; (on_goal 2 => (clear_value x; intro _)); (on_goal 1 => (unfold x; clear x))) | skip)
      | apply Keeps.via (modNmu_keeps _ _ _ _)
      | apply Keeps.ite

theorem saddiWord_keeps (y0 : Nat) (y1 : Nat) (y2 : DWord) (y3 : NRun) (y4 : State) : Keeps 0 y4 (saddiWord y0 y1 y2 y3 y4).2 := by
  unfold saddiWord
  repeat' with_reducible first
      | apply Keeps.refl | assumption | (apply Part.named; decide)

theorem saddWord_keeps (y0 : Nat) (y1 : Nat) (y2 : DWord) (y3 : NRun) (y4 : State) : Keeps 0 y4 (saddWord y0 y1 y2 y3 y4).2 := by
  unfold saddWord
  repeat' with_reducible first
      | apply Keeps.refl | assumption | (apply Part.named; decide)

theorem sshlWord_keeps (y0 : Nat) (y1 : Nat) (y2 : DWord) (y3 : NRun) (y4 : State) : Keeps 0 y4 (sshlWord y0 y1 y2 y3 y4).2 := by
  unfold sshlWord
  repeat' with_reducible first
      | apply Keeps.refl | assumption | (apply Part.named; decide)

theorem nmuBusError_keeps (st u lam : Nat) (r : NRun) (s : State) : Keeps Part.records s (nmuBusError st u lam r s).2 := by
  unfold nmuBusError
  repeat' with_reducible first
      | apply Keeps.refl | assumption | (apply Part.named; decide)
      | apply Keeps.via (report_keeps _ _ _ _ _)

theorem nopenWord_keeps (st u : Nat) (w : DWord) (r : NRun) (s : State) :
    Keeps (Part.regs ||| Part.records ||| Part.nmus) s (nopenWord st u w r s) := by
  unfold nopenWord
  repeat' with_reducible first
      | apply Keeps.refl | assumption | (apply Part.named; decide)
      | (extract_lets +onlyGivenNames x; first | (refine keepsLet (x := x) ?_ ?_; (on_goal 2 => (clear_value x; intro _)); (on_goal 1 => (unfold x; clear x))) | skip)
      | apply Keeps.via (nmuBusError_keeps _ _ _ _ _)
      | (apply keepsEq2 (nmuBusError_keeps _ _ _ _ _); on_goal 1 => assumption)
      | apply Keeps.via (goOn_keeps _ _ _)
      | apply Keeps.via (enterBank_keeps _ _ _ _)
      | apply Keeps.ite
      | split

theorem nclrWord_keeps (st u : Nat) (w : DWord) (r : NRun) (s : State) :
    Keeps (Part.regs ||| Part.records ||| Part.nmus) s (nclrWord st u w r s) := by
  unfold nclrWord
  repeat' with_reducible first
      | apply Keeps.refl | assumption | (apply Part.named; decide)
      | (extract_lets +onlyGivenNames x; first | (refine keepsLet (x := x) ?_ ?_; (on_goal 2 => (clear_value x; intro _)); (on_goal 1 => (unfold x; clear x))) | skip)
      | apply Keeps.via (nmuBusError_keeps _ _ _ _ _)
      | (apply keepsEq2 (nmuBusError_keeps _ _ _ _ _); on_goal 1 => assumption)
      | apply Keeps.via (goOn_keeps _ _ _)
      | apply Keeps.via (enterBank_keeps _ _ _ _)
      | apply Keeps.ite
      | split

theorem nwbWord_keeps (st u : Nat) (w : DWord) (r : NRun) (s : State) :
    Keeps (Part.regs ||| Part.records ||| Part.nmus) s (nwbWord st u w r s) := by
  unfold nwbWord
  repeat' with_reducible first
      | apply Keeps.refl | assumption | (apply Part.named; decide)
      | (extract_lets +onlyGivenNames x; first | (refine keepsLet (x := x) ?_ ?_; (on_goal 2 => (clear_value x; intro _)); (on_goal 1 => (unfold x; clear x))) | skip)
      | apply Keeps.via (goOn_keeps _ _ _)
      | apply Keeps.via (nmuBusError_keeps _ _ _ _ _)
      | (apply keepsEq2 (nmuBusError_keeps _ _ _ _ _); on_goal 1 => assumption)
      | apply Keeps.via (enterBank_keeps _ _ _ _)
      | apply Keeps.ite
      | split

theorem operandNote_keeps (st u : Nat) (w : DWord) (x : NVal) (r : NRun) (s : State) :
    Keeps (Part.frees ||| Part.records) s (operandNote st u w x r s).2 := by
  unfold operandNote
  repeat' with_reducible first
      | apply Keeps.refl | assumption | (apply Part.named; decide)
      | (extract_lets +onlyGivenNames x; first | (refine keepsLet (x := x) ?_ ?_; (on_goal 2 => (clear_value x; intro _)); (on_goal 1 => (unfold x; clear x))) | skip)
      | apply Keeps.via (bumpFree_keeps _)
      | apply Keeps.via (nmuBusError_keeps _ _ _ _ _)
      | (apply keepsEq2 (nmuBusError_keeps _ _ _ _ _); on_goal 1 => assumption)
      | apply Keeps.ite
      | split

theorem nldWord_keeps (y0 : Nat) (y1 : Nat) (y2 : DWord) (y3 : NRun) (y4 : State) :
    Keeps (Part.frees ||| Part.records) y4 (nldWord y0 y1 y2 y3 y4).2 := by
  unfold nldWord
  repeat' with_reducible first
      | apply Keeps.refl | assumption | (apply Part.named; decide)
      | (extract_lets +onlyGivenNames x; first | (refine keepsLet (x := x) ?_ ?_; (on_goal 2 => (clear_value x; intro _)); (on_goal 1 => (unfold x; clear x))) | skip)
      | apply Keeps.via (operandNote_keeps _ _ _ _ _ _)
      | (apply keepsEq2 (operandNote_keeps _ _ _ _ _ _); on_goal 1 => assumption)

theorem nldiWord_keeps (y0 : Nat) (y1 : Nat) (y2 : DWord) (y3 : NRun) (y4 : State) : Keeps 0 y4 (nldiWord y0 y1 y2 y3 y4).2 := by
  unfold nldiWord
  repeat' with_reducible first
      | apply Keeps.refl | assumption | (apply Part.named; decide)

theorem nstWord_keeps (y0 : Nat) (y1 : Nat) (y2 : DWord) (y3 : NRun) (y4 : State) :
    Keeps (Part.frees ||| Part.records) y4 (nstWord y0 y1 y2 y3 y4).2 := by
  unfold nstWord
  repeat' with_reducible first
      | apply Keeps.refl | assumption | (apply Part.named; decide)
      | (extract_lets +onlyGivenNames x; first | (refine keepsLet (x := x) ?_ ?_; (on_goal 2 => (clear_value x; intro _)); (on_goal 1 => (unfold x; clear x))) | skip)
      | apply Keeps.via (bumpFree_keeps _)
      | apply Keeps.via (nmuBusError_keeps _ _ _ _ _)
      | (apply keepsEq2 (nmuBusError_keeps _ _ _ _ _); on_goal 1 => assumption)
      | apply Keeps.ite
      | split
      | apply Keeps.foldl_via
      | intro _

theorem nresWord_keeps (y0 : Nat) (y1 : Nat) (y2 : DWord) (y3 : NRun) (y4 : State) : Keeps 0 y4 (nresWord y0 y1 y2 y3 y4).2 := by
  unfold nresWord
  repeat' with_reducible first
      | apply Keeps.refl | assumption | (apply Part.named; decide)
      | (extract_lets +onlyGivenNames x; first | (refine keepsLet (x := x) ?_ ?_; (on_goal 2 => (clear_value x; intro _)); (on_goal 1 => (unfold x; clear x))) | skip)

theorem nressWord_keeps (y0 : Nat) (y1 : Nat) (y2 : DWord) (y3 : NRun) (y4 : State) : Keeps 0 y4 (nressWord y0 y1 y2 y3 y4).2 := by
  unfold nressWord
  repeat' with_reducible first
      | apply Keeps.refl | assumption | (apply Part.named; decide)
      | (extract_lets +onlyGivenNames x; first | (refine keepsLet (x := x) ?_ ?_; (on_goal 2 => (clear_value x; intro _)); (on_goal 1 => (unfold x; clear x))) | skip)
      | apply Keeps.ite

theorem laneWord_keeps (f : Nat → Nat → Nat) (y0 : Nat) (y1 : Nat) (y2 : DWord) (y3 : NRun) (y4 : State) :
    Keeps (Part.frees ||| Part.records) y4 (laneWord f y0 y1 y2 y3 y4).2 := by
  unfold laneWord
  repeat' with_reducible first
      | apply Keeps.refl | assumption | (apply Part.named; decide)
      | (extract_lets +onlyGivenNames x; first | (refine keepsLet (x := x) ?_ ?_; (on_goal 2 => (clear_value x; intro _)); (on_goal 1 => (unfold x; clear x))) | skip)
      | apply Keeps.via (operandNote_keeps _ _ _ _ _ _)
      | (apply keepsEq2 (operandNote_keeps _ _ _ _ _ _); on_goal 1 => assumption)

theorem vfmaWord_keeps (y0 : Nat) (y1 : Nat) (y2 : DWord) (y3 : NRun) (y4 : State) :
    Keeps (Part.frees ||| Part.records) y4 (vfmaWord y0 y1 y2 y3 y4).2 := by
  unfold vfmaWord
  repeat' with_reducible first
      | apply Keeps.refl | assumption | (apply Part.named; decide)
      | (extract_lets +onlyGivenNames x; first | (refine keepsLet (x := x) ?_ ?_; (on_goal 2 => (clear_value x; intro _)); (on_goal 1 => (unfold x; clear x))) | skip)
      | apply Keeps.via (operandNote_keeps _ _ _ _ _ _)
      | (apply keepsEq2 (operandNote_keeps _ _ _ _ _ _); on_goal 1 => assumption)

theorem vfmasWord_keeps (y0 : Nat) (y1 : Nat) (y2 : DWord) (y3 : NRun) (y4 : State) :
    Keeps (Part.frees ||| Part.records) y4 (vfmasWord y0 y1 y2 y3 y4).2 := by
  unfold vfmasWord
  repeat' with_reducible first
      | apply Keeps.refl | assumption | (apply Part.named; decide)
      | (extract_lets +onlyGivenNames x; first | (refine keepsLet (x := x) ?_ ?_; (on_goal 2 => (clear_value x; intro _)); (on_goal 1 => (unfold x; clear x))) | skip)
      | apply Keeps.via (operandNote_keeps _ _ _ _ _ _)
      | (apply keepsEq2 (operandNote_keeps _ _ _ _ _ _); on_goal 1 => assumption)
      | apply Keeps.ite

theorem vmulsWord_keeps (y0 : Nat) (y1 : Nat) (y2 : DWord) (y3 : NRun) (y4 : State) :
    Keeps (Part.frees ||| Part.records) y4 (vmulsWord y0 y1 y2 y3 y4).2 := by
  unfold vmulsWord
  repeat' with_reducible first
      | apply Keeps.refl | assumption | (apply Part.named; decide)
      | (extract_lets +onlyGivenNames x; first | (refine keepsLet (x := x) ?_ ?_; (on_goal 2 => (clear_value x; intro _)); (on_goal 1 => (unfold x; clear x))) | skip)
      | apply Keeps.via (operandNote_keeps _ _ _ _ _ _)
      | (apply keepsEq2 (operandNote_keeps _ _ _ _ _ _); on_goal 1 => assumption)

theorem vimmWord_keeps (y0 : Nat) (y1 : Nat) (y2 : DWord) (y3 : NRun) (y4 : State) : Keeps 0 y4 (vimmWord y0 y1 y2 y3 y4).2 := by
  unfold vimmWord
  repeat' with_reducible first
      | apply Keeps.refl | assumption | (apply Part.named; decide)

theorem vtailWord_keeps (y0 : Nat) (y1 : Nat) (y2 : DWord) (y3 : NRun) (y4 : State) : Keeps 0 y4 (vtailWord y0 y1 y2 y3 y4).2 := by
  unfold vtailWord
  repeat' with_reducible first
      | apply Keeps.refl | assumption | (apply Part.named; decide)
      | (extract_lets +onlyGivenNames x; first | (refine keepsLet (x := x) ?_ ?_; (on_goal 2 => (clear_value x; intro _)); (on_goal 1 => (unfold x; clear x))) | skip)
      | apply Keeps.ite

theorem treeWord_keeps (f : Nat → Nat → Nat) (y0 : Nat) (y1 : Nat) (y2 : DWord) (y3 : NRun) (y4 : State) :
    Keeps 0 y4 (treeWord f y0 y1 y2 y3 y4).2 := by
  unfold treeWord
  repeat' with_reducible first
      | apply Keeps.refl | assumption | (apply Part.named; decide)
      | (extract_lets +onlyGivenNames x; first | (refine keepsLet (x := x) ?_ ?_; (on_goal 2 => (clear_value x; intro _)); (on_goal 1 => (unfold x; clear x))) | skip)
      | apply Keeps.ite

theorem hexpWord_keeps (y0 : Nat) (y1 : Nat) (y2 : DWord) (y3 : NRun) (y4 : State) : Keeps 0 y4 (hexpWord y0 y1 y2 y3 y4).2 := by
  unfold hexpWord
  repeat' with_reducible first
      | apply Keeps.refl | assumption | (apply Part.named; decide)
      | (extract_lets +onlyGivenNames x; first | (refine keepsLet (x := x) ?_ ?_; (on_goal 2 => (clear_value x; intro _)); (on_goal 1 => (unfold x; clear x))) | skip)

theorem execNmuNop_keeps (st : Fin 4) (u : Fin 256) (e : NmuErr) (s : State) :
    KeepsOut (Part.regs ||| Part.memory ||| Part.records ||| Part.nmus ||| Part.atts ||| Part.towers ||| Part.stacks ||| Part.hub) s (execNmuNop st u e s) := by
  unfold execNmuNop
  repeat' with_reducible first
      | apply Keeps.refl | assumption | (apply Part.named; decide)
      | apply Keeps.next
      | apply KeepsOut.viaH (plainWord_keeps _ _ _ _ _ _ ?_ ?_)
      | apply Keeps.via (nopWord_keeps _ _ _ _ _)
      | (apply keepsEq2 (nopWord_keeps _ _ _ _ _); on_goal 1 => assumption)
      | intro _

theorem execNmuEnd_keeps (st : Fin 4) (u : Fin 256) (e : NmuErr) (s : State) :
    KeepsOut (Part.regs ||| Part.memory ||| Part.records ||| Part.nmus ||| Part.atts ||| Part.towers ||| Part.stacks ||| Part.hub) s (execNmuEnd st u e s) := by
  unfold execNmuEnd
  repeat' with_reducible first
      | apply Keeps.refl | assumption | (apply Part.named; decide)
      | apply Keeps.next
      | apply KeepsOut.viaH (runWord_keeps _ _ _ _ _ _ ?_ ?_)
      | apply Keeps.via (endWord_keeps _ _ _ _)
      | intro _

theorem execNmuYield_keeps (st : Fin 4) (u : Fin 256) (e : NmuErr) (waitEven waitOdd : Bool) (s : State) :
    KeepsOut (Part.regs ||| Part.memory ||| Part.records ||| Part.nmus ||| Part.atts ||| Part.towers ||| Part.stacks ||| Part.hub) s (execNmuYield st u e waitEven waitOdd s) := by
  unfold execNmuYield
  repeat' with_reducible first
      | apply Keeps.refl | assumption | (apply Part.named; decide)
      | apply Keeps.next
      | apply KeepsOut.viaH (runWord_keeps _ _ _ _ _ _ ?_ ?_)
      | apply Keeps.via (yieldWord_keeps _ _ _ _ _ _)
      | intro _

theorem execNmuLoop_keeps (st : Fin 4) (u : Fin 256) (e : NmuErr) (s : State) :
    KeepsOut (Part.regs ||| Part.memory ||| Part.records ||| Part.nmus ||| Part.atts ||| Part.towers ||| Part.stacks ||| Part.hub) s (execNmuLoop st u e s) := by
  unfold execNmuLoop
  repeat' with_reducible first
      | apply Keeps.refl | assumption | (apply Part.named; decide)
      | apply Keeps.next
      | apply KeepsOut.viaH (runWord_keeps _ _ _ _ _ _ ?_ ?_)
      | apply Keeps.via (loopWord_keeps _ _ _ _ _)
      | intro _

theorem execSaddi_keeps (st : Fin 4) (u : Fin 256) (e : NmuErr) (s : State) :
    KeepsOut (Part.regs ||| Part.memory ||| Part.records ||| Part.nmus ||| Part.atts ||| Part.towers ||| Part.stacks ||| Part.hub) s (execSaddi st u e s) := by
  unfold execSaddi
  repeat' with_reducible first
      | apply Keeps.refl | assumption | (apply Part.named; decide)
      | apply Keeps.next
      | apply KeepsOut.viaH (plainWord_keeps _ _ _ _ _ _ ?_ ?_)
      | apply Keeps.via (saddiWord_keeps _ _ _ _ _)
      | (apply keepsEq2 (saddiWord_keeps _ _ _ _ _); on_goal 1 => assumption)
      | intro _

theorem execSadd_keeps (st : Fin 4) (u : Fin 256) (e : NmuErr) (s : State) :
    KeepsOut (Part.regs ||| Part.memory ||| Part.records ||| Part.nmus ||| Part.atts ||| Part.towers ||| Part.stacks ||| Part.hub) s (execSadd st u e s) := by
  unfold execSadd
  repeat' with_reducible first
      | apply Keeps.refl | assumption | (apply Part.named; decide)
      | apply Keeps.next
      | apply KeepsOut.viaH (plainWord_keeps _ _ _ _ _ _ ?_ ?_)
      | apply Keeps.via (saddWord_keeps _ _ _ _ _)
      | (apply keepsEq2 (saddWord_keeps _ _ _ _ _); on_goal 1 => assumption)
      | intro _

theorem execSshl_keeps (st : Fin 4) (u : Fin 256) (e : NmuErr) (s : State) :
    KeepsOut (Part.regs ||| Part.memory ||| Part.records ||| Part.nmus ||| Part.atts ||| Part.towers ||| Part.stacks ||| Part.hub) s (execSshl st u e s) := by
  unfold execSshl
  repeat' with_reducible first
      | apply Keeps.refl | assumption | (apply Part.named; decide)
      | apply Keeps.next
      | apply KeepsOut.viaH (plainWord_keeps _ _ _ _ _ _ ?_ ?_)
      | apply Keeps.via (sshlWord_keeps _ _ _ _ _)
      | (apply keepsEq2 (sshlWord_keeps _ _ _ _ _); on_goal 1 => assumption)
      | intro _

theorem execNopen_keeps (st : Fin 4) (u : Fin 256) (e : NmuErr) (s : State) :
    KeepsOut (Part.regs ||| Part.memory ||| Part.records ||| Part.nmus ||| Part.atts ||| Part.towers ||| Part.stacks ||| Part.hub) s (execNopen st u e s) := by
  unfold execNopen
  repeat' with_reducible first
      | apply Keeps.refl | assumption | (apply Part.named; decide)
      | apply Keeps.next
      | apply KeepsOut.viaH (runWord_keeps _ _ _ _ _ _ ?_ ?_)
      | apply Keeps.via (nopenWord_keeps _ _ _ _ _)
      | intro _

theorem execNclr_keeps (st : Fin 4) (u : Fin 256) (e : NmuErr) (s : State) :
    KeepsOut (Part.regs ||| Part.memory ||| Part.records ||| Part.nmus ||| Part.atts ||| Part.towers ||| Part.stacks ||| Part.hub) s (execNclr st u e s) := by
  unfold execNclr
  repeat' with_reducible first
      | apply Keeps.refl | assumption | (apply Part.named; decide)
      | apply Keeps.next
      | apply KeepsOut.viaH (runWord_keeps _ _ _ _ _ _ ?_ ?_)
      | apply Keeps.via (nclrWord_keeps _ _ _ _ _)
      | intro _

theorem execNwb_keeps (st : Fin 4) (u : Fin 256) (e : NmuErr) (s : State) :
    KeepsOut (Part.regs ||| Part.memory ||| Part.records ||| Part.nmus ||| Part.atts ||| Part.towers ||| Part.stacks ||| Part.hub) s (execNwb st u e s) := by
  unfold execNwb
  repeat' with_reducible first
      | apply Keeps.refl | assumption | (apply Part.named; decide)
      | apply Keeps.next
      | apply KeepsOut.viaH (runWord_keeps _ _ _ _ _ _ ?_ ?_)
      | apply Keeps.via (nwbWord_keeps _ _ _ _ _)
      | intro _

theorem execNld_keeps (st : Fin 4) (u : Fin 256) (e : NmuErr) (s : State) :
    KeepsOut (Part.regs ||| Part.memory ||| Part.frees ||| Part.records ||| Part.nmus ||| Part.atts ||| Part.towers ||| Part.stacks ||| Part.hub) s (execNld st u e s) := by
  unfold execNld
  repeat' with_reducible first
      | apply Keeps.refl | assumption | (apply Part.named; decide)
      | apply Keeps.next
      | apply KeepsOut.viaH (plainWord_keeps _ _ _ _ _ _ ?_ ?_)
      | apply Keeps.via (nldWord_keeps _ _ _ _ _)
      | (apply keepsEq2 (nldWord_keeps _ _ _ _ _); on_goal 1 => assumption)
      | intro _

theorem execNldi_keeps (st : Fin 4) (u : Fin 256) (e : NmuErr) (s : State) :
    KeepsOut (Part.regs ||| Part.memory ||| Part.records ||| Part.nmus ||| Part.atts ||| Part.towers ||| Part.stacks ||| Part.hub) s (execNldi st u e s) := by
  unfold execNldi
  repeat' with_reducible first
      | apply Keeps.refl | assumption | (apply Part.named; decide)
      | apply Keeps.next
      | apply KeepsOut.viaH (plainWord_keeps _ _ _ _ _ _ ?_ ?_)
      | apply Keeps.via (nldiWord_keeps _ _ _ _ _)
      | (apply keepsEq2 (nldiWord_keeps _ _ _ _ _); on_goal 1 => assumption)
      | intro _

theorem execNst_keeps (st : Fin 4) (u : Fin 256) (e : NmuErr) (s : State) :
    KeepsOut (Part.regs ||| Part.memory ||| Part.frees ||| Part.records ||| Part.nmus ||| Part.atts ||| Part.towers ||| Part.stacks ||| Part.hub) s (execNst st u e s) := by
  unfold execNst
  repeat' with_reducible first
      | apply Keeps.refl | assumption | (apply Part.named; decide)
      | apply Keeps.next
      | apply KeepsOut.viaH (plainWord_keeps _ _ _ _ _ _ ?_ ?_)
      | apply Keeps.via (nstWord_keeps _ _ _ _ _)
      | (apply keepsEq2 (nstWord_keeps _ _ _ _ _); on_goal 1 => assumption)
      | intro _

theorem execNres_keeps (st : Fin 4) (u : Fin 256) (e : NmuErr) (s : State) :
    KeepsOut (Part.regs ||| Part.memory ||| Part.records ||| Part.nmus ||| Part.atts ||| Part.towers ||| Part.stacks ||| Part.hub) s (execNres st u e s) := by
  unfold execNres
  repeat' with_reducible first
      | apply Keeps.refl | assumption | (apply Part.named; decide)
      | apply Keeps.next
      | apply KeepsOut.viaH (plainWord_keeps _ _ _ _ _ _ ?_ ?_)
      | apply Keeps.via (nresWord_keeps _ _ _ _ _)
      | (apply keepsEq2 (nresWord_keeps _ _ _ _ _); on_goal 1 => assumption)
      | intro _

theorem execNress_keeps (st : Fin 4) (u : Fin 256) (e : NmuErr) (s : State) :
    KeepsOut (Part.regs ||| Part.memory ||| Part.records ||| Part.nmus ||| Part.atts ||| Part.towers ||| Part.stacks ||| Part.hub) s (execNress st u e s) := by
  unfold execNress
  repeat' with_reducible first
      | apply Keeps.refl | assumption | (apply Part.named; decide)
      | apply Keeps.next
      | apply KeepsOut.viaH (plainWord_keeps _ _ _ _ _ _ ?_ ?_)
      | apply Keeps.via (nressWord_keeps _ _ _ _ _)
      | (apply keepsEq2 (nressWord_keeps _ _ _ _ _); on_goal 1 => assumption)
      | intro _

theorem execNmuVadd_keeps (st : Fin 4) (u : Fin 256) (e : NmuErr) (s : State) :
    KeepsOut (Part.regs ||| Part.memory ||| Part.frees ||| Part.records ||| Part.nmus ||| Part.atts ||| Part.towers ||| Part.stacks ||| Part.hub) s (execNmuVadd st u e s) := by
  unfold execNmuVadd
  repeat' with_reducible first
      | apply Keeps.refl | assumption | (apply Part.named; decide)
      | apply Keeps.next
      | apply KeepsOut.viaH (plainWord_keeps _ _ _ _ _ _ ?_ ?_)
      | apply Keeps.via (laneWord_keeps _ _ _ _ _ _)
      | (apply keepsEq2 (laneWord_keeps _ _ _ _ _ _); on_goal 1 => assumption)
      | intro _

theorem execNmuVsub_keeps (st : Fin 4) (u : Fin 256) (e : NmuErr) (s : State) :
    KeepsOut (Part.regs ||| Part.memory ||| Part.frees ||| Part.records ||| Part.nmus ||| Part.atts ||| Part.towers ||| Part.stacks ||| Part.hub) s (execNmuVsub st u e s) := by
  unfold execNmuVsub
  repeat' with_reducible first
      | apply Keeps.refl | assumption | (apply Part.named; decide)
      | apply Keeps.next
      | apply KeepsOut.viaH (plainWord_keeps _ _ _ _ _ _ ?_ ?_)
      | apply Keeps.via (laneWord_keeps _ _ _ _ _ _)
      | (apply keepsEq2 (laneWord_keeps _ _ _ _ _ _); on_goal 1 => assumption)
      | intro _

theorem execNmuVmul_keeps (st : Fin 4) (u : Fin 256) (e : NmuErr) (s : State) :
    KeepsOut (Part.regs ||| Part.memory ||| Part.frees ||| Part.records ||| Part.nmus ||| Part.atts ||| Part.towers ||| Part.stacks ||| Part.hub) s (execNmuVmul st u e s) := by
  unfold execNmuVmul
  repeat' with_reducible first
      | apply Keeps.refl | assumption | (apply Part.named; decide)
      | apply Keeps.next
      | apply KeepsOut.viaH (plainWord_keeps _ _ _ _ _ _ ?_ ?_)
      | apply Keeps.via (laneWord_keeps _ _ _ _ _ _)
      | (apply keepsEq2 (laneWord_keeps _ _ _ _ _ _); on_goal 1 => assumption)
      | intro _

theorem execNmuVfma_keeps (st : Fin 4) (u : Fin 256) (e : NmuErr) (s : State) :
    KeepsOut (Part.regs ||| Part.memory ||| Part.frees ||| Part.records ||| Part.nmus ||| Part.atts ||| Part.towers ||| Part.stacks ||| Part.hub) s (execNmuVfma st u e s) := by
  unfold execNmuVfma
  repeat' with_reducible first
      | apply Keeps.refl | assumption | (apply Part.named; decide)
      | apply Keeps.next
      | apply KeepsOut.viaH (plainWord_keeps _ _ _ _ _ _ ?_ ?_)
      | apply Keeps.via (vfmaWord_keeps _ _ _ _ _)
      | (apply keepsEq2 (vfmaWord_keeps _ _ _ _ _); on_goal 1 => assumption)
      | intro _

theorem execNmuVmax_keeps (st : Fin 4) (u : Fin 256) (e : NmuErr) (s : State) :
    KeepsOut (Part.regs ||| Part.memory ||| Part.frees ||| Part.records ||| Part.nmus ||| Part.atts ||| Part.towers ||| Part.stacks ||| Part.hub) s (execNmuVmax st u e s) := by
  unfold execNmuVmax
  repeat' with_reducible first
      | apply Keeps.refl | assumption | (apply Part.named; decide)
      | apply Keeps.next
      | apply KeepsOut.viaH (plainWord_keeps _ _ _ _ _ _ ?_ ?_)
      | apply Keeps.via (laneWord_keeps _ _ _ _ _ _)
      | (apply keepsEq2 (laneWord_keeps _ _ _ _ _ _); on_goal 1 => assumption)
      | intro _

theorem execVfmas_keeps (st : Fin 4) (u : Fin 256) (e : NmuErr) (s : State) :
    KeepsOut (Part.regs ||| Part.memory ||| Part.frees ||| Part.records ||| Part.nmus ||| Part.atts ||| Part.towers ||| Part.stacks ||| Part.hub) s (execVfmas st u e s) := by
  unfold execVfmas
  repeat' with_reducible first
      | apply Keeps.refl | assumption | (apply Part.named; decide)
      | apply Keeps.next
      | apply KeepsOut.viaH (plainWord_keeps _ _ _ _ _ _ ?_ ?_)
      | apply Keeps.via (vfmasWord_keeps _ _ _ _ _)
      | (apply keepsEq2 (vfmasWord_keeps _ _ _ _ _); on_goal 1 => assumption)
      | intro _

theorem execVmuls_keeps (st : Fin 4) (u : Fin 256) (e : NmuErr) (s : State) :
    KeepsOut (Part.regs ||| Part.memory ||| Part.frees ||| Part.records ||| Part.nmus ||| Part.atts ||| Part.towers ||| Part.stacks ||| Part.hub) s (execVmuls st u e s) := by
  unfold execVmuls
  repeat' with_reducible first
      | apply Keeps.refl | assumption | (apply Part.named; decide)
      | apply Keeps.next
      | apply KeepsOut.viaH (plainWord_keeps _ _ _ _ _ _ ?_ ?_)
      | apply Keeps.via (vmulsWord_keeps _ _ _ _ _)
      | (apply keepsEq2 (vmulsWord_keeps _ _ _ _ _); on_goal 1 => assumption)
      | intro _

theorem execVimm_keeps (st : Fin 4) (u : Fin 256) (e : NmuErr) (s : State) :
    KeepsOut (Part.regs ||| Part.memory ||| Part.records ||| Part.nmus ||| Part.atts ||| Part.towers ||| Part.stacks ||| Part.hub) s (execVimm st u e s) := by
  unfold execVimm
  repeat' with_reducible first
      | apply Keeps.refl | assumption | (apply Part.named; decide)
      | apply Keeps.next
      | apply KeepsOut.viaH (plainWord_keeps _ _ _ _ _ _ ?_ ?_)
      | apply Keeps.via (vimmWord_keeps _ _ _ _ _)
      | (apply keepsEq2 (vimmWord_keeps _ _ _ _ _); on_goal 1 => assumption)
      | intro _

theorem execVtail_keeps (st : Fin 4) (u : Fin 256) (e : NmuErr) (s : State) :
    KeepsOut (Part.regs ||| Part.memory ||| Part.records ||| Part.nmus ||| Part.atts ||| Part.towers ||| Part.stacks ||| Part.hub) s (execVtail st u e s) := by
  unfold execVtail
  repeat' with_reducible first
      | apply Keeps.refl | assumption | (apply Part.named; decide)
      | apply Keeps.next
      | apply KeepsOut.viaH (plainWord_keeps _ _ _ _ _ _ ?_ ?_)
      | apply Keeps.via (vtailWord_keeps _ _ _ _ _)
      | (apply keepsEq2 (vtailWord_keeps _ _ _ _ _); on_goal 1 => assumption)
      | intro _

theorem execHsum_keeps (st : Fin 4) (u : Fin 256) (e : NmuErr) (s : State) :
    KeepsOut (Part.regs ||| Part.memory ||| Part.records ||| Part.nmus ||| Part.atts ||| Part.towers ||| Part.stacks ||| Part.hub) s (execHsum st u e s) := by
  unfold execHsum
  repeat' with_reducible first
      | apply Keeps.refl | assumption | (apply Part.named; decide)
      | apply Keeps.next
      | apply KeepsOut.viaH (plainWord_keeps _ _ _ _ _ _ ?_ ?_)
      | apply Keeps.via (treeWord_keeps _ _ _ _ _ _)
      | (apply keepsEq2 (treeWord_keeps _ _ _ _ _ _); on_goal 1 => assumption)
      | intro _

theorem execHmax_keeps (st : Fin 4) (u : Fin 256) (e : NmuErr) (s : State) :
    KeepsOut (Part.regs ||| Part.memory ||| Part.records ||| Part.nmus ||| Part.atts ||| Part.towers ||| Part.stacks ||| Part.hub) s (execHmax st u e s) := by
  unfold execHmax
  repeat' with_reducible first
      | apply Keeps.refl | assumption | (apply Part.named; decide)
      | apply Keeps.next
      | apply KeepsOut.viaH (plainWord_keeps _ _ _ _ _ _ ?_ ?_)
      | apply Keeps.via (treeWord_keeps _ _ _ _ _ _)
      | (apply keepsEq2 (treeWord_keeps _ _ _ _ _ _); on_goal 1 => assumption)
      | intro _

theorem execHexp_keeps (st : Fin 4) (u : Fin 256) (e : NmuErr) (s : State) :
    KeepsOut (Part.regs ||| Part.memory ||| Part.records ||| Part.nmus ||| Part.atts ||| Part.towers ||| Part.stacks ||| Part.hub) s (execHexp st u e s) := by
  unfold execHexp
  repeat' with_reducible first
      | apply Keeps.refl | assumption | (apply Part.named; decide)
      | apply Keeps.next
      | apply KeepsOut.viaH (plainWord_keeps _ _ _ _ _ _ ?_ ?_)
      | apply Keeps.via (hexpWord_keeps _ _ _ _ _)
      | (apply keepsEq2 (hexpWord_keeps _ _ _ _ _); on_goal 1 => assumption)
      | intro _

theorem pageLines_keeps (m lpi : Nat) (write : Bool) (s : State) :
    Keeps (Part.regs ||| Part.towers ||| Part.stacks) s (pageLines m lpi write s) := by
  unfold pageLines
  repeat' with_reducible first
      | apply Keeps.refl | assumption | (apply Part.named; decide)
      | (extract_lets +onlyGivenNames x; first | (refine keepsLet (x := x) ?_ ?_; (on_goal 2 => (clear_value x; intro _)); (on_goal 1 => (unfold x; clear x))) | skip)
      | apply Keeps.via (freeDir_keeps _ _ _)
      | apply Keeps.via (setLine_keeps _ _ _ _)
      | apply Keeps.via (setDir_keeps _ _ _ _)
      | apply Keeps.via (addReg_keeps _ _ _)
      | apply Keeps.ite
      | apply Keeps.foldl_via
      | intro _
      | split

theorem openDone_keeps (st u : Nat) (sel : Bool) (errs : List (Nat × Nat)) (r : NRun) (s : State) :
    Keeps (Part.regs ||| Part.memory ||| Part.frees ||| Part.records ||| Part.atts ||| Part.towers ||| Part.stacks ||| Part.hub) s (openDone st u sel errs r s).2 := by
  unfold openDone
  repeat' with_reducible first
      | apply Keeps.refl | assumption | (apply Part.named; decide)
      | (extract_lets +onlyGivenNames x; first | (refine keepsLet (x := x) ?_ ?_; (on_goal 2 => (clear_value x; intro _)); (on_goal 1 => (unfold x; clear x))) | skip)
      | apply Keeps.via (decodePage_keeps _ _ _ _)
      | apply Keeps.via (pageLines_keeps _ _ _ _)
      | apply Keeps.via (bumpFree_keeps _)
      | apply Keeps.via (nmuBusError_keeps _ _ _ _ _)
      | (apply keepsEq2 (nmuBusError_keeps _ _ _ _ _); on_goal 1 => assumption)
      | apply Keeps.ite
      | split

theorem backDone_keeps (st u : Nat) (sel : Bool) (r : NRun) (s : State) :
    Keeps (Part.regs ||| Part.memory ||| Part.towers ||| Part.stacks) s (backDone st u sel r s).2 := by
  unfold backDone
  repeat' with_reducible first
      | apply Keeps.refl | assumption | (apply Part.named; decide)
      | (extract_lets +onlyGivenNames x; first | (refine keepsLet (x := x) ?_ ?_; (on_goal 2 => (clear_value x; intro _)); (on_goal 1 => (unfold x; clear x))) | skip)
      | apply Keeps.via (clearBad_keeps _ _ _)
      | apply Keeps.via (pageLines_keeps _ _ _ _)
      | apply Keeps.via (storeGran_keeps _ _ _ _)
      | apply Keeps.via (bufferDrop_keeps _ _ _ _)
      | apply Keeps.foldl_via
      | intro _
      | split

theorem execNmuTransferDone_keeps (st : Fin 4) (u : Fin 256) (errors : List (Nat × Nat)) (cycles naw : Nat) (s : State) : KeepsOut (Part.regs ||| Part.memory ||| Part.frees ||| Part.records ||| Part.nmus ||| Part.atts ||| Part.towers ||| Part.stacks ||| Part.hub) s (execNmuTransferDone st u errors cycles naw s) := by
  unfold execNmuTransferDone
  repeat' with_reducible first
      | apply Keeps.refl | assumption | (apply Part.named; decide)
      | apply Keeps.next
      | (extract_lets +onlyGivenNames x; first | (refine keepsLet (x := x) ?_ ?_; (on_goal 2 => (clear_value x; intro _)); (on_goal 1 => (unfold x; clear x))) | (refine keepsLetO (x := x) ?_ ?_; (on_goal 2 => (clear_value x; intro _)); (on_goal 1 => (unfold x; clear x))) | (refine keepsLet (x := x.2) ?_ ?_; (on_goal 2 => (clear_value x; intro _)); (on_goal 1 => (unfold x; clear x))))
      | apply Keeps.via (openDone_keeps _ _ _ _ _ _)
      | (apply keepsEq2 (openDone_keeps _ _ _ _ _ _); on_goal 1 => assumption)
      | apply Keeps.via (backDone_keeps _ _ _ _ _)
      | (apply keepsEq2 (backDone_keeps _ _ _ _ _); on_goal 1 => assumption)
      | apply Keeps.via (modNmu_keeps _ _ _ _)
      | apply Keeps.via (endRun_keeps _ _ _ _)
      | apply Keeps.via (addReg_keeps _ _ _)
      | apply Keeps.ite
      | apply KeepsOut.ite
      | split

theorem execNmuStackClear_keeps (m : Fin 8) (d : BitVec 32) (s : State) : KeepsOut Part.regs s (execNmuStackClear m d s) := by
  unfold execNmuStackClear
  repeat' with_reducible first
      | apply Keeps.refl | assumption | (apply Part.named; decide)
      | apply Keeps.next
      | apply Keeps.viaH (onOne_keeps _ _ _ ?_ ?_)
      | apply Keeps.via (clearWords_keeps _ _ _)
      | apply Keeps.ite
      | apply KeepsOut.ite
      | intro _

theorem execNmuCountClear_keeps (m : Fin 8) (u : Fin 256) (d : BitVec 32) (s : State) : KeepsOut Part.regs s (execNmuCountClear m u d s) := by
  unfold execNmuCountClear
  repeat' with_reducible first
      | apply Keeps.refl | assumption | (apply Part.named; decide)
      | apply Keeps.next
      | apply Keeps.viaH (onOne_keeps _ _ _ ?_ ?_)
      | apply Keeps.via (clearWords_keeps _ _ _)
      | apply Keeps.ite
      | apply KeepsOut.ite
      | intro _

theorem nmuReset_keeps (f : Nat) (s : State) : Keeps Part.nmus s (nmuReset f s) := by
  unfold nmuReset
  repeat' with_reducible first
      | apply Keeps.refl | assumption | (apply Part.named; decide)
      | apply Keeps.ite
      | fail_if_no_progress (apply Keeps.via (Keeps.putNmus _ _))

end Sys2Proof.Machine
end

