-- ==== Sys2Proof/Laws/KeepNmuProg.lean ====
section
/-!
SUPPORT. What each operation and meaning of Machine/NmuProg.lean keeps (Laws/Keep.lean).
-/
namespace Sys2Proof.Machine

theorem installProg_keeps (d : Nat) (ws : List DWord) (s : State) :
    KeepsOpt (Part.regs ||| Part.atts) (fun r => r.1) s (installProg d ws s) := by
  unfold installProg
  repeat' with_reducible first
      | apply Keeps.refl | assumption | (apply Part.named; decide)
      | apply KeepsOpt.none | apply KeepsOpt.some
      | (extract_lets +onlyGivenNames x; first | (refine keepsLet (x := x) ?_ ?_; (on_goal 2 => (clear_value x; intro _)); (on_goal 1 => (unfold x; clear x))) | (have y : Option _ := x; clear y; clear_value (h : x = _)) | skip)
      | apply Keeps.via (addReg_keeps _ _ _)
      | apply Keeps.via (modAtt_keeps _ _ _)
      | apply Keeps.ite
      | apply Keeps.foldl_via
      | intro _
      | split

end Sys2Proof.Machine
end

