-- ==== Sys2Proof/Laws/KeepAttention.lean ====
section
/-!
SUPPORT. What each operation and meaning of Machine/Attention.lean keeps (Laws/Keep.lean).
-/
namespace Sys2Proof.Machine

theorem setWalk_keeps (d : Nat) (x : WalkReq) (s : State) : Keeps Part.atts s (setWalk d x s) := by
  unfold setWalk
  repeat' with_reducible first
      | apply Keeps.refl | assumption | (apply Part.named; decide)
      | apply Keeps.via (modAtt_keeps _ _ _)

theorem popWalk_keeps (d : Nat) (s : State) : Keeps Part.atts s (popWalk d s) := by
  unfold popWalk
  repeat' with_reducible first
      | apply Keeps.refl | assumption | (apply Part.named; decide)
      | apply Keeps.via (modAtt_keeps _ _ _)

theorem walkDone_keeps (d : Nat) (x : WalkReq) (ok noPage : Bool) (blots : Nat) (s : State) :
    Keeps (Part.regs ||| Part.records ||| Part.jobs ||| Part.clusters ||| Part.atts) s (walkDone d x ok noPage blots s) := by
  unfold walkDone
  repeat' with_reducible first
      | apply Keeps.refl | assumption | (apply Part.named; decide)
      | (extract_lets +onlyGivenNames x; first | (refine keepsLet (x := x) ?_ ?_; (on_goal 2 => (clear_value x; intro _)); (on_goal 1 => (unfold x; clear x))) | skip)
      | apply Keeps.via (noteBlots_keeps _ _ _)
      | apply Keeps.via (popWalk_keeps _ _)
      | apply Keeps.via (noteBusErr_keeps _ _)
      | apply Keeps.via (noteJob_keeps _ _ _)
      | apply Keeps.via (addReg_keeps _ _ _)
      | apply Keeps.via (modRunner_keeps _ _ _)
      | apply Keeps.ite

theorem labLook_keeps (d f q l j : Nat) (s : State) : Keeps (Part.regs ||| Part.atts) s (labLook d f q l j s) := by
  unfold labLook
  repeat' with_reducible first
      | apply Keeps.refl | assumption | (apply Part.named; decide)
      | (extract_lets +onlyGivenNames x; first | (refine keepsLet (x := x) ?_ ?_; (on_goal 2 => (clear_value x; intro _)); (on_goal 1 => (unfold x; clear x))) | skip)
      | apply Keeps.via (addReg_keeps _ _ _)
      | apply Keeps.via (modAtt_keeps _ _ _)
      | apply Keeps.ite

theorem preparePage_keeps (f k : Nat) (s : State) :
    KeepsOpt (Part.regs ||| Part.memory ||| Part.records ||| Part.towers ||| Part.stacks ||| Part.hub) (fun r => r.2.2) s (preparePage f k s) := by
  unfold preparePage
  repeat' with_reducible first
      | apply Keeps.refl | assumption | (apply Part.named; decide)
      | apply KeepsOpt.none | apply KeepsOpt.some
      | (extract_lets +onlyGivenNames x; first | (refine keepsLet (x := x) ?_ ?_; (on_goal 2 => (clear_value x; intro _)); (on_goal 1 => (unfold x; clear x))) | skip)
      | (apply KeepsOpt.get2 (kvPop_keeps _ _ _); on_goal 1 => assumption)
      | (apply KeepsOpt.get (kvPop_keeps _ _ _); on_goal 1 => assumption)
      | apply Keeps.via (kvCopy_keeps _ _ _ _ _)
      | (apply keepsEq2 (kvCopy_keeps _ _ _ _ _); on_goal 1 => assumption)
      | apply Keeps.via (addReg_keeps _ _ _)
      | apply Keeps.via (kvDrop_keeps _ _ _)
      | (apply keepsEq2 (kvDrop_keeps _ _ _); on_goal 1 => assumption)
      | apply Keeps.ite
      | split

theorem serveAsk_keeps (f d : Nat) (a : AskKind) (s : State) :
    KeepsOpt (Part.regs ||| Part.memory ||| Part.records ||| Part.towers ||| Part.stacks ||| Part.hub) (fun r => r.2.2) s (serveAsk f d a s) := by
  unfold serveAsk
  repeat' with_reducible first
      | apply Keeps.refl | assumption | (apply Part.named; decide)
      | (apply KeepsOpt.get2 (kvPop_keeps _ _ _); on_goal 1 => assumption)
      | (apply KeepsOpt.get (kvPop_keeps _ _ _); on_goal 1 => assumption)
      | apply KeepsOpt.mapVia (kvPop_keeps _ _ _)
      | apply KeepsOpt.via (kvPop_keeps _ _ _)
      | (apply KeepsOpt.get3 (preparePage_keeps _ _ _); on_goal 1 => assumption)
      | (apply KeepsOpt.get (preparePage_keeps _ _ _); on_goal 1 => assumption)
      | apply KeepsOpt.mapVia (preparePage_keeps _ _ _)
      | apply KeepsOpt.via (preparePage_keeps _ _ _)
      | intro _
      | split

theorem execPageRequest_keeps (d : Fin 2) (s : State) : KeepsOut (Part.regs ||| Part.memory ||| Part.frees ||| Part.log ||| Part.records ||| Part.atts ||| Part.towers ||| Part.stacks ||| Part.hub) s (execPageRequest d s) := by
  unfold execPageRequest
  apply Keeps.next
  split
  · exact Keeps.refl _ s
  · extract_lets s1 r s2
    have h1 : Keeps (Part.regs ||| Part.memory ||| Part.frees ||| Part.log ||| Part.records ||| Part.atts ||| Part.towers ||| Part.stacks ||| Part.hub) s s1 := (modAtt_keeps _ _ _).mono (by decide)
    have h2 : Keeps (Part.regs ||| Part.memory ||| Part.frees ||| Part.log ||| Part.records ||| Part.atts ||| Part.towers ||| Part.stacks ||| Part.hub) s s2 := KeepsOpt.getD (serveAsk_keeps _ _ _ _) (by decide) h1
    clear_value s2
    split
    · exact h2
    · exact Keeps.via (setWalk_keeps _ _ _) (by decide) h2

theorem setGeometry_keeps (f q : Nat) (a : AppDesc) (s : State) :
    Keeps (Part.regs ||| Part.memory ||| Part.records ||| Part.stacks) s (setGeometry f q a s) := by
  unfold setGeometry
  repeat' with_reducible first
      | apply Keeps.refl | assumption | (apply Part.named; decide)
      | apply Keeps.via (kvWr_keeps _ _ _ _ _)
      | apply Keeps.ite

theorem takePage_keeps (f q l j fill : Nat) (blot : Bool) (page : Nat) (s : State) :
    Keeps (Part.regs ||| Part.memory ||| Part.records ||| Part.stacks) s (takePage f q l j fill blot page s) := by
  unfold takePage
  repeat' with_reducible first
      | apply Keeps.refl | assumption | (apply Part.named; decide)
      | (extract_lets +onlyGivenNames x; first | (refine keepsLet (x := x) ?_ ?_; (on_goal 2 => (clear_value x; intro _)); (on_goal 1 => (unfold x; clear x))) | skip)
      | apply Keeps.via (setBlockEnt_keeps _ _ _ _ _ _)
      | apply Keeps.via (kvWr_keeps _ _ _ _ _)

theorem rowPage_keeps {m : Nat} (d f q l j : Nat) (x : WalkReq) (s t a : State) (h : rowPage d f q l j x s = .ready t)
    (hm : (Part.regs ||| Part.memory ||| Part.records ||| Part.towers ||| Part.stacks ||| Part.hub) ||| m = m) (g : Keeps m a s) : Keeps m a t := by
  suffices Keeps (Part.regs ||| Part.memory ||| Part.records ||| Part.towers ||| Part.stacks ||| Part.hub) s t from Keeps.via this hm g
  unfold rowPage at h
  extract_lets e k what fill blot at h
  split at h
  · cases h
  split at h
  · cases h; exact Keeps.refl _ s
  split at h
  · cases h
  · cases h; exact (takePage_keeps _ _ _ _ _ _ _ _).mono (by decide)
  split at h
  · cases h
  split at h
  · cases h
  · cases h
    rename_i u hu
    have g : Keeps (Part.regs ||| Part.memory ||| Part.records ||| Part.towers ||| Part.stacks ||| Part.hub) s u := (serveAsk_keeps _ _ _ _ _ hu).mono (by decide)
    exact Keeps.via (takePage_keeps _ _ _ _ _ _ _ _) (by decide) g

theorem writeRow_keeps (d : Nat) (x : WalkReq) (q : Nat) (a : AppDesc) (ncol : Nat) (row : KvRow) (pos : Nat) (w : Wrote) :
    Keeps (Part.regs ||| Part.memory ||| Part.records ||| Part.clusters ||| Part.stacks) w.s (writeRow d x q a ncol row pos w).s := by
  unfold writeRow
  repeat' with_reducible first
      | apply Keeps.refl | assumption | (apply Part.named; decide)
      | (extract_lets +onlyGivenNames x; first | (refine keepsLet (x := x) ?_ ?_; (on_goal 2 => (clear_value x; intro _)); (on_goal 1 => (unfold x; clear x))) | skip)
      | apply Keeps.via (coreWriteAs_keeps _ _ _ _ _ _)
      | (apply keepsEq (fun r => r.s) (coreWriteAs_keeps _ _ _ _ _ _); on_goal 1 => assumption)
      | apply Keeps.ite
      | apply Keeps.foldlW_via
      | intro _

theorem commitRows_keeps (f q : Nat) (a : AppDesc) (w : Nat) (s : State) :
    Keeps (Part.regs ||| Part.memory ||| Part.records ||| Part.stacks) s (commitRows f q a w s) := by
  unfold commitRows
  repeat' with_reducible first
      | apply Keeps.refl | assumption | (apply Part.named; decide)
      | (extract_lets +onlyGivenNames x; first | (refine keepsLet (x := x) ?_ ?_; (on_goal 2 => (clear_value x; intro _)); (on_goal 1 => (unfold x; clear x))) | skip)
      | apply Keeps.via (kvWr_keeps _ _ _ _ _)
      | apply Keeps.via (setBlockEnt_keeps _ _ _ _ _ _)
      | apply Keeps.via (touchSeq_keeps _ _ _)
      | apply Keeps.ite
      | apply Keeps.foldl_via
      | intro _

theorem placeRows_keeps (y0 : Nat) (y1 : Nat) (y2 : Nat) (y3 : AppDesc) (y4 : Nat) (y5 : List KvRow) (y6 : WalkReq) (y7 : Wrote) :
    Keeps (Part.regs ||| Part.memory ||| Part.frees ||| Part.log ||| Part.records ||| Part.jobs ||| Part.clusters ||| Part.atts ||| Part.towers ||| Part.stacks ||| Part.hub) y7.s (placeRows y0 y1 y2 y3 y4 y5 y6 y7) := by
  induction y0 generalizing y1 y2 y3 y4 y5 y6 y7 with
  | zero =>
    unfold placeRows
    repeat' with_reducible first
        | apply Keeps.refl | assumption | (apply Part.named; decide)
        | (extract_lets +onlyGivenNames x; first | (refine keepsLet (x := x) ?_ ?_; (on_goal 2 => (clear_value x; intro _)); (on_goal 1 => (unfold x; clear x))) | skip)
        | apply Keeps.via (walkDone_keeps _ _ _ _ _ _)
        | apply Keeps.via (commitRows_keeps _ _ _ _ _)
        | apply Keeps.via (labLook_keeps _ _ _ _ _ _)
        | (apply rowPage_keeps; on_goal 1 => assumption)
        | apply Keeps.via (modAtt_keeps _ _ _)
        | apply Keeps.via (noteBusErr_keeps _ _)
        | apply Keeps.via (setWalk_keeps _ _ _)
        | apply Keeps.via (noteBlots_keeps _ _ _)
        | apply Keeps.via (writeRow_keeps _ _ _ _ _ _ _ _)
        | (apply keepsEq (fun r => r.s) (writeRow_keeps _ _ _ _ _ _ _ _); on_goal 1 => assumption)
        | apply Keeps.via (answer_keeps _ _ _ _ _ _)
        | apply Keeps.via (ih _ _ _ _ _ _ _)
        | apply Keeps.ite
        | split
  | succ n ih =>
    unfold placeRows
    repeat' with_reducible first
        | apply Keeps.refl | assumption | (apply Part.named; decide)
        | (extract_lets +onlyGivenNames x; first | (refine keepsLet (x := x) ?_ ?_; (on_goal 2 => (clear_value x; intro _)); (on_goal 1 => (unfold x; clear x))) | skip)
        | apply Keeps.via (walkDone_keeps _ _ _ _ _ _)
        | apply Keeps.via (commitRows_keeps _ _ _ _ _)
        | apply Keeps.via (labLook_keeps _ _ _ _ _ _)
        | (apply rowPage_keeps; on_goal 1 => assumption)
        | apply Keeps.via (modAtt_keeps _ _ _)
        | apply Keeps.via (noteBusErr_keeps _ _)
        | apply Keeps.via (setWalk_keeps _ _ _)
        | apply Keeps.via (noteBlots_keeps _ _ _)
        | apply Keeps.via (writeRow_keeps _ _ _ _ _ _ _ _)
        | (apply keepsEq (fun r => r.s) (writeRow_keeps _ _ _ _ _ _ _ _); on_goal 1 => assumption)
        | apply Keeps.via (answer_keeps _ _ _ _ _ _)
        | apply Keeps.via (ih _ _ _ _ _ _ _)
        | apply Keeps.ite
        | split

theorem execKvAppend_keeps (d : Fin 2) (s : State) :
    KeepsOut (Part.regs ||| Part.memory ||| Part.frees ||| Part.log ||| Part.records ||| Part.jobs ||| Part.clusters ||| Part.atts ||| Part.towers ||| Part.stacks ||| Part.hub) s (execKvAppend d s) := by
  unfold execKvAppend
  repeat' with_reducible first
      | apply Keeps.refl | assumption | (apply Part.named; decide)
      | apply Keeps.next
      | (extract_lets +onlyGivenNames x; first | (refine keepsLet (x := x) ?_ ?_; (on_goal 2 => (clear_value x; intro _)); (on_goal 1 => (unfold x; clear x))) | (refine keepsLetO (x := x) ?_ ?_; (on_goal 2 => (clear_value x; intro _)); (on_goal 1 => (unfold x; clear x))) | skip)
      | apply Keeps.via (walkDone_keeps _ _ _ _ _ _)
      | apply Keeps.via (report_keeps _ _ _ _ _)
      | apply Keeps.via (setGeometry_keeps _ _ _ _)
      | apply Keeps.via (placeRows_keeps _ _ _ _ _ _ _ _)
      | apply Keeps.via (Wrote.start_keeps _)
      | apply Keeps.ite
      | apply KeepsOut.ite
      | split

theorem execKvFill_keeps (d : Fin 2) (s : State) :
    KeepsOut (Part.regs ||| Part.memory ||| Part.records ||| Part.atts ||| Part.towers ||| Part.stacks ||| Part.hub) s (execKvFill d s) := by
  unfold execKvFill
  repeat' with_reducible first
      | apply Keeps.refl | assumption | (apply Part.named; decide)
      | apply Keeps.next
      | apply Keeps.via (setWalk_keeps _ _ _)
      | apply Keeps.via (fillSeq_keeps _ _ _)
      | apply Keeps.ite
      | apply KeepsOut.ite
      | split

theorem descDone_keeps (x : WalkReq) (ok busy noPage : Bool) (blots : Nat) (s : State) :
    Keeps (Part.regs ||| Part.records ||| Part.jobs ||| Part.xfers) s (descDone x ok busy noPage blots s) := by
  unfold descDone
  repeat' with_reducible first
      | apply Keeps.refl | assumption | (apply Part.named; decide)
      | (extract_lets +onlyGivenNames x; first | (refine keepsLet (x := x) ?_ ?_; (on_goal 2 => (clear_value x; intro _)); (on_goal 1 => (unfold x; clear x))) | skip)
      | apply Keeps.via (noteBlots_keeps _ _ _)
      | apply Keeps.via (noteBusErr_keeps _ _)
      | apply Keeps.via (addReg_keeps _ _ _)
      | apply Keeps.via (noteJob_keeps _ _ _)
      | apply Keeps.ite
      | fail_if_no_progress (apply Keeps.via (Keeps.putXfers _ _))

theorem descError_keeps (d : Nat) (x : WalkReq) (s : State) :
    Keeps (Part.regs ||| Part.records ||| Part.jobs ||| Part.xfers) s (descError d x s) := by
  unfold descError
  repeat' with_reducible first
      | apply Keeps.refl | assumption | (apply Part.named; decide)
      | apply Keeps.via (descDone_keeps _ _ _ _ _ _)
      | apply Keeps.via (report_keeps _ _ _ _ _)

theorem fetchPart_keeps (d f g p dim size fill page : Nat) (blot stream isV : Bool) (s : State) :
    Keeps (Part.regs ||| Part.memory ||| Part.records ||| Part.towers ||| Part.stacks ||| Part.hub) s (fetchPart d f g p dim size fill page blot stream isV s).s := by
  unfold fetchPart
  repeat' with_reducible first
      | apply Keeps.refl | assumption | (apply Part.named; decide)
      | (extract_lets +onlyGivenNames x; first | (refine keepsLet (x := x) ?_ ?_; (on_goal 2 => (clear_value x; intro _)); (on_goal 1 => (unfold x; clear x))) | skip)
      | apply Keeps.via (readT_keeps _ _ _ _ _)
      | (apply keepsEq (fun r => r.s) (readT_keeps _ _ _ _ _); on_goal 1 => assumption)
      | apply Keeps.ite
      | apply Keeps.foldl3_via
      | intro _
      | split

theorem fetchOne_keeps (d : Nat) (x : WalkReq) (h p dim size dst : Nat) (stream isV : Bool) (head e : Nat) (w : Wrote) :
    Keeps (Part.regs ||| Part.memory ||| Part.records ||| Part.clusters ||| Part.towers ||| Part.stacks ||| Part.hub) w.s (fetchOne d x h p dim size dst stream isV head e w).s := by
  unfold fetchOne
  repeat' with_reducible first
      | apply Keeps.refl | assumption | (apply Part.named; decide)
      | (extract_lets +onlyGivenNames x; first | (refine keepsLet (x := x) ?_ ?_; (on_goal 2 => (clear_value x; intro _)); (on_goal 1 => (unfold x; clear x))) | (refine keepsLet (x := x.s) ?_ ?_; (on_goal 2 => (clear_value x; intro _)); (on_goal 1 => (unfold x; clear x))))
      | apply Keeps.via (fetchPart_keeps _ _ _ _ _ _ _ _ _ _ _ _)
      | (apply keepsEq (fun r => r.s) (fetchPart_keeps _ _ _ _ _ _ _ _ _ _ _ _); on_goal 1 => assumption)
      | apply Keeps.via (report_keeps _ _ _ _ _)
      | apply Keeps.via (coreWriteAs_keeps _ _ _ _ _ _)
      | (apply keepsEq (fun r => r.s) (coreWriteAs_keeps _ _ _ _ _ _); on_goal 1 => assumption)
      | apply Keeps.ite
      | split

theorem execKvFetch_keeps (d : Fin 2) (s : State) :
    KeepsOut (Part.regs ||| Part.memory ||| Part.records ||| Part.jobs ||| Part.clusters ||| Part.xfers ||| Part.atts ||| Part.towers ||| Part.stacks ||| Part.hub) s (execKvFetch d s) := by
  unfold execKvFetch
  repeat' with_reducible first
      | apply Keeps.refl | assumption | (apply Part.named; decide)
      | apply Keeps.next
      | (extract_lets +onlyGivenNames x; first | (refine keepsLet (x := x) ?_ ?_; (on_goal 2 => (clear_value x; intro _)); (on_goal 1 => (unfold x; clear x))) | (refine keepsLetO (x := x) ?_ ?_; (on_goal 2 => (clear_value x; intro _)); (on_goal 1 => (unfold x; clear x))) | skip)
      | apply Keeps.via (descError_keeps _ _ _)
      | apply Keeps.via (popWalk_keeps _ _)
      | apply Keeps.via (fetchOne_keeps _ _ _ _ _ _ _ _ _ _ _ _)
      | (apply keepsEq (fun r => r.s) (fetchOne_keeps _ _ _ _ _ _ _ _ _ _ _ _); on_goal 1 => assumption)
      | apply Keeps.via (Wrote.start_keeps _)
      | (apply keepsEq (fun r => r.s) (Wrote.start_keeps _); on_goal 1 => assumption)
      | apply Keeps.via (descDone_keeps _ _ _ _ _ _)
      | apply Keeps.via (touchSeq_keeps _ _ _)
      | apply Keeps.via (Wrote.start_keeps _)
      | apply Keeps.ite
      | apply KeepsOut.ite
      | apply Keeps.foldlW_via | apply Keeps.foldlW1_via
      | intro _
      | split

theorem headStart_keeps (d : Nat) (x : WalkReq) (a : DecDesc) (dim i : Nat) (s : State) :
    Keeps (Part.regs ||| Part.memory ||| Part.records ||| Part.towers ||| Part.stacks ||| Part.hub) s (headStart d x a dim i s).2.2 := by
  unfold headStart
  repeat' with_reducible first
      | apply Keeps.refl | assumption | (apply Part.named; decide)
      | (extract_lets +onlyGivenNames x; first | (refine keepsLet (x := x) ?_ ?_; (on_goal 2 => (clear_value x; intro _)); (on_goal 1 => (unfold x; clear x))) | skip)
      | apply Keeps.via (readT_keeps _ _ _ _ _)
      | (apply keepsEq (fun r => r.s) (readT_keeps _ _ _ _ _); on_goal 1 => assumption)
      | apply Keeps.ite
      | split

theorem decodeDone_keeps (d : Nat) (x : Decode) (s : State) :
    Keeps (Part.regs ||| Part.memory ||| Part.records ||| Part.jobs ||| Part.clusters ||| Part.xfers ||| Part.stacks) s (decodeDone d x s) := by
  unfold decodeDone
  repeat' with_reducible first
      | apply Keeps.refl | assumption | (apply Part.named; decide)
      | (extract_lets +onlyGivenNames x; first | (refine keepsLet (x := x) ?_ ?_; (on_goal 2 => (clear_value x; intro _)); (on_goal 1 => (unfold x; clear x))) | skip)
      | apply Keeps.via (coreWriteAs_keeps _ _ _ _ _ _)
      | (apply keepsEq (fun r => r.s) (coreWriteAs_keeps _ _ _ _ _ _); on_goal 1 => assumption)
      | apply Keeps.via (descDone_keeps _ _ _ _ _ _)
      | apply Keeps.via (Wrote.start_keeps _)
      | apply Keeps.ite
      | apply Keeps.foldlW_via
      | intro _
      | split

theorem mergeHeads_keeps (y0 : Nat) (y1 : Nat) (y2 : Decode) (y3 : State) : Keeps Part.regs y3 (mergeHeads y0 y1 y2 y3).2 := by
  induction y0 generalizing y1 y2 y3 with
  | zero =>
    unfold mergeHeads
    repeat' with_reducible first
        | apply Keeps.refl | assumption | (apply Part.named; decide)
        | (extract_lets +onlyGivenNames x; first | (refine keepsLet (x := x) ?_ ?_; (on_goal 2 => (clear_value x; intro _)); (on_goal 1 => (unfold x; clear x))) | skip)
        | apply Keeps.via (addReg_keeps _ _ _)
        | apply Keeps.via (ih _ _ _)
        | (apply keepsEq2 (ih _ _ _); on_goal 1 => assumption)
        | split
  | succ n ih =>
    unfold mergeHeads
    repeat' with_reducible first
        | apply Keeps.refl | assumption | (apply Part.named; decide)
        | (extract_lets +onlyGivenNames x; first | (refine keepsLet (x := x) ?_ ?_; (on_goal 2 => (clear_value x; intro _)); (on_goal 1 => (unfold x; clear x))) | skip)
        | apply Keeps.via (addReg_keeps _ _ _)
        | apply Keeps.via (ih _ _ _)
        | (apply keepsEq2 (ih _ _ _); on_goal 1 => assumption)
        | split

theorem putDecode_keeps (d i : Nat) (x : Decode) (s : State) :
    Keeps (Part.regs ||| Part.memory ||| Part.records ||| Part.jobs ||| Part.clusters ||| Part.xfers ||| Part.atts ||| Part.stacks) s (putDecode d i x s) := by
  unfold putDecode
  repeat' with_reducible first
      | apply Keeps.refl | assumption | (apply Part.named; decide)
      | (extract_lets +onlyGivenNames x; first | (refine keepsLet (x := x) ?_ ?_; (on_goal 2 => (clear_value x; intro _)); (on_goal 1 => (unfold x; clear x))) | skip)
      | apply Keeps.via (mergeHeads_keeps _ _ _ _)
      | (apply keepsEq2 (mergeHeads_keeps _ _ _ _); on_goal 1 => assumption)
      | apply Keeps.via (decodeDone_keeps _ _ _)
      | apply Keeps.via (modAtt_keeps _ _ _)
      | apply Keeps.ite

theorem execKvDecode_keeps (d : Fin 2) (s : State) :
    KeepsOut (Part.regs ||| Part.memory ||| Part.records ||| Part.jobs ||| Part.clusters ||| Part.xfers ||| Part.atts ||| Part.towers ||| Part.stacks ||| Part.hub) s (execKvDecode d s) := by
  unfold execKvDecode
  repeat' with_reducible first
      | apply Keeps.refl | assumption | (apply Part.named; decide)
      | apply Keeps.next
      | (extract_lets +onlyGivenNames x; first | (refine keepsLet (x := x) ?_ ?_; (on_goal 2 => (clear_value x; intro _)); (on_goal 1 => (unfold x; clear x))) | (refine keepsLetO (x := x) ?_ ?_; (on_goal 2 => (clear_value x; intro _)); (on_goal 1 => (unfold x; clear x))) | skip)
      | apply Keeps.via (descError_keeps _ _ _)
      | apply Keeps.via (popWalk_keeps _ _)
      | apply Keeps.via (headStart_keeps _ _ _ _ _ _)
      | (apply keepsEq3 (headStart_keeps _ _ _ _ _ _); on_goal 1 => assumption)
      | apply Keeps.via (touchSeq_keeps _ _ _)
      | apply Keeps.via (putDecode_keeps _ _ _ _)
      | apply Keeps.via (modAtt_keeps _ _ _)
      | apply Keeps.ite
      | apply KeepsOut.ite
      | apply Keeps.foldl3_via
      | intro _
      | split

theorem rejectProgram_keeps (d fn : Nat) (addr : Nat) (s : State) : Keeps (Part.regs ||| Part.records) s (rejectProgram d fn addr s) := by
  unfold rejectProgram
  repeat' with_reducible first
      | apply Keeps.refl | assumption | (apply Part.named; decide)
      | apply Keeps.via (addReg_keeps _ _ _)
      | apply Keeps.via (report_keeps _ _ _ _ _)
      | apply Keeps.foldl_via
      | intro _

theorem sendLaunch_keeps (d home i n : Nat) (x : Decode) (s : State) :
    Keeps (Part.regs ||| Part.memory ||| Part.records ||| Part.jobs ||| Part.clusters ||| Part.xfers ||| Part.nmus ||| Part.atts ||| Part.towers ||| Part.stacks ||| Part.hub) s (sendLaunch d home i n x s) := by
  unfold sendLaunch
  repeat' with_reducible first
      | apply Keeps.refl | assumption | (apply Part.named; decide)
      | (extract_lets +onlyGivenNames x; first | (refine keepsLet (x := x) ?_ ?_; (on_goal 2 => (clear_value x; intro _)); (on_goal 1 => (unfold x; clear x))) | skip)
      | apply Keeps.via (putDecode_keeps _ _ _ _)
      | apply Keeps.via (rejectProgram_keeps _ _ _ _)
      | (apply KeepsOpt.get1 (installProg_keeps _ _ _); on_goal 1 => assumption)
      | (apply KeepsOpt.get (installProg_keeps _ _ _); on_goal 1 => assumption)
      | apply Keeps.via (readT_keeps _ _ _ _ _)
      | (apply keepsEq (fun r => r.s) (readT_keeps _ _ _ _ _); on_goal 1 => assumption)
      | apply Keeps.via (modNmu_keeps _ _ _ _)
      | apply Keeps.via (addReg_keeps _ _ _)
      | apply Keeps.via (modAtt_keeps _ _ _)
      | apply Keeps.ite
      | split

theorem execAttLaunch_keeps (d : Fin 2) (waited : Nat) (s : State) : KeepsOut (Part.regs ||| Part.memory ||| Part.records ||| Part.jobs ||| Part.clusters ||| Part.xfers ||| Part.nmus ||| Part.atts ||| Part.towers ||| Part.stacks ||| Part.hub) s (execAttLaunch d waited s) := by
  unfold execAttLaunch
  repeat' with_reducible first
      | apply Keeps.refl | assumption | (apply Part.named; decide)
      | apply Keeps.next
      | apply Keeps.via (sendLaunch_keeps _ _ _ _ _ _)
      | apply Keeps.via (addReg_keeps _ _ _)
      | apply Keeps.ite
      | apply KeepsOut.ite
      | split

theorem execNmuCompletion_keeps (st : Fin 4) (u : Fin 256) (s : State) :
    KeepsOut (Part.regs ||| Part.memory ||| Part.frees ||| Part.records ||| Part.jobs ||| Part.clusters ||| Part.xfers ||| Part.nmus ||| Part.atts ||| Part.stacks) s (execNmuCompletion st u s) := by
  unfold execNmuCompletion
  repeat' with_reducible first
      | apply Keeps.refl | assumption | (apply Part.named; decide)
      | apply Keeps.next
      | (extract_lets +onlyGivenNames x; first | (refine keepsLet (x := x) ?_ ?_; (on_goal 2 => (clear_value x; intro _)); (on_goal 1 => (unfold x; clear x))) | (refine keepsLetO (x := x) ?_ ?_; (on_goal 2 => (clear_value x; intro _)); (on_goal 1 => (unfold x; clear x))) | skip)
      | apply Keeps.via (startQueued_keeps _ _ _)
      | apply Keeps.via (modNmu_keeps _ _ _ _)
      | apply Keeps.via (putDecode_keeps _ _ _ _)
      | apply Keeps.via (bumpFree_keeps _)
      | split

theorem execAttCountClear_keeps (d : Fin 2) (w : BitVec 32) (s : State) : KeepsOut Part.regs s (execAttCountClear d w s) := by
  unfold execAttCountClear
  repeat' with_reducible first
      | apply Keeps.refl | assumption | (apply Part.named; decide)
      | apply Keeps.next
      | apply Keeps.viaH (onOne_keeps _ _ _ ?_ ?_)
      | apply Keeps.via (clearWords_keeps _ _ _)
      | intro _

theorem execAttLabFlush_keeps (d : Fin 2) (w : BitVec 32) (s : State) : KeepsOut Part.atts s (execAttLabFlush d w s) := by
  unfold execAttLabFlush
  repeat' with_reducible first
      | apply Keeps.refl | assumption | (apply Part.named; decide)
      | apply Keeps.next
      | apply Keeps.viaH (onOne_keeps _ _ _ ?_ ?_)
      | apply Keeps.via (modAtt_keeps _ _ _)
      | intro _

theorem attReset_keeps (f : Nat) (s : State) : Keeps Part.atts s (attReset f s) := by
  unfold attReset
  repeat' with_reducible first
      | apply Keeps.refl | assumption | (apply Part.named; decide)
      | apply Keeps.via (modAtt_keeps _ _ _)
      | apply Keeps.foldl_via
      | intro _

end Sys2Proof.Machine
end

