-- ==== Sys2Proof/Laws/KeepTraining.lean ====
section
/-!
SUPPORT. What each operation and meaning of Machine/Training.lean keeps (Laws/Keep.lean).
-/
namespace Sys2Proof.Machine

theorem execSeedSet_keeps (h : CmdHdr) (seed step : Nat) (s : State) : KeepsOut (Part.regs ||| Part.queues) s (execSeedSet h seed step s) := by
  unfold execSeedSet
  repeat' with_reducible first
      | apply Keeps.refl | assumption | (apply Part.named; decide)
      | apply Keeps.next
      | apply KeepsOut.viaH (runOp_keeps _ _ _ _ _ ?_ ?_)
      | apply Keeps.via (fail_keeps _ _ _ _)
      | apply Keeps.via (modFn_keeps _ _ _)
      | intro _

theorem readGrans_keeps (acc : Acc) (gs : List Nat) (s : State) : Keeps (Part.regs ||| Part.memory ||| Part.records ||| Part.towers ||| Part.stacks ||| Part.hub) s (readGrans acc gs s).2 := by
  unfold readGrans
  repeat' with_reducible first
      | apply Keeps.refl | assumption | (apply Part.named; decide)
      | (extract_lets +onlyGivenNames x; first | (refine keepsLet (x := x) ?_ ?_; (on_goal 2 => (clear_value x; intro _)); (on_goal 1 => (unfold x; clear x))) | skip)
      | apply Keeps.via (busError_keeps _ _ _)
      | apply Keeps.via (readError_keeps _ _ _)
      | apply Keeps.ite
      | apply Keeps.foldl2_via
      | intro _
      | split

theorem shardRecord_keeps (acc : Acc) (t : Tensor) (b : Box) (s : State) :
    Keeps (Part.regs ||| Part.memory ||| Part.records ||| Part.towers ||| Part.stacks ||| Part.hub) s (shardRecord acc t b s).2.2.2 := by
  unfold shardRecord
  repeat' with_reducible first
      | apply Keeps.refl | assumption | (apply Part.named; decide)
      | (extract_lets +onlyGivenNames x; first | (refine keepsLet (x := x) ?_ ?_; (on_goal 2 => (clear_value x; intro _)); (on_goal 1 => (unfold x; clear x))) | skip)
      | apply Keeps.via (readGrans_keeps _ _ _)
      | (apply keepsEq2 (readGrans_keeps _ _ _); on_goal 1 => assumption)
      | split

theorem execShardExport_keeps (h : CmdHdr) (dst len first count : Nat) (s : State) :
    KeepsOut (Part.regs ||| Part.memory ||| Part.frees ||| Part.records ||| Part.queues ||| Part.towers ||| Part.stacks ||| Part.hub) s (execShardExport h dst len first count s) := by
  unfold execShardExport
  repeat' with_reducible first
      | apply Keeps.refl | assumption | (apply Part.named; decide)
      | apply Keeps.next
      | (extract_lets +onlyGivenNames x; first | (refine keepsLet (x := x) ?_ ?_; (on_goal 2 => (clear_value x; intro _)); (on_goal 1 => (unfold x; clear x))) | (refine keepsLetO (x := x) ?_ ?_; (on_goal 2 => (clear_value x; intro _)); (on_goal 1 => (unfold x; clear x))) | skip)
      | apply KeepsOut.viaH (runOp_keeps _ _ _ _ _ ?_ ?_)
      | apply Keeps.via (fail_keeps _ _ _ _)
      | apply Keeps.via (shardRecord_keeps _ _ _ _)
      | (apply keepsEq (fun r => r.2.2.2) (shardRecord_keeps _ _ _ _); on_goal 1 => assumption)
      | apply Keeps.via (writeSpan_keeps _ _ _ _ _)
      | (apply keepsEq (fun r => r.s) (writeSpan_keeps _ _ _ _ _); on_goal 1 => assumption)
      | apply Keeps.via (Wrote.start_keeps _)
      | (apply keepsEq (fun r => r.s) (Wrote.start_keeps _); on_goal 1 => assumption)
      | apply Keeps.via (bumpFree_keeps _)
      | apply Keeps.via (finish_keeps _ _ _ _ _ _ _)
      | apply Keeps.via (Wrote.start_keeps _)
      | apply Keeps.via (writeT_keeps _ _ _ _ _)
      | (apply keepsEq (fun r => r.s) (writeT_keeps _ _ _ _ _); on_goal 1 => assumption)
      | apply Keeps.ite
      | apply KeepsOut.ite
      | apply Keeps.foldlW1_via
      | intro _
      | split

theorem importRecords_keeps (acc : Acc) (tab : List Tensor) (y0 : Nat) (y1 : List TByte) (y2 : Nat) (y3 : Wrote) :
    Keeps (Part.regs ||| Part.memory ||| Part.records ||| Part.stacks) y3.s (importRecords acc tab y0 y1 y2 y3).2.2.s := by
  induction y0 generalizing y1 y2 y3 with
  | zero =>
    unfold importRecords
    repeat' with_reducible first
        | apply Keeps.refl | assumption | (apply Part.named; decide)
        | (extract_lets +onlyGivenNames x; first | (refine keepsLet (x := x) ?_ ?_; (on_goal 2 => (clear_value x; intro _)); (on_goal 1 => (unfold x; clear x))) | skip)
        | apply Keeps.via (writeGran_keeps _ _ _ _ _)
        | (apply keepsEq (fun r => r.s) (writeGran_keeps _ _ _ _ _); on_goal 1 => assumption)
        | apply Keeps.via (ih _ _ _)
        | (apply keepsEqW (ih _ _ _); on_goal 1 => assumption)
        | apply Keeps.ite
        | apply Keeps.foldlW_via
        | intro _
        | split
  | succ n ih =>
    unfold importRecords
    repeat' with_reducible first
        | apply Keeps.refl | assumption | (apply Part.named; decide)
        | (extract_lets +onlyGivenNames x; first | (refine keepsLet (x := x) ?_ ?_; (on_goal 2 => (clear_value x; intro _)); (on_goal 1 => (unfold x; clear x))) | skip)
        | apply Keeps.via (writeGran_keeps _ _ _ _ _)
        | (apply keepsEq (fun r => r.s) (writeGran_keeps _ _ _ _ _); on_goal 1 => assumption)
        | apply Keeps.via (ih _ _ _)
        | (apply keepsEqW (ih _ _ _); on_goal 1 => assumption)
        | apply Keeps.ite
        | apply Keeps.foldlW_via
        | intro _
        | split

theorem execShardImport_keeps (h : CmdHdr) (src len : Nat) (s : State) :
    KeepsOut (Part.regs ||| Part.memory ||| Part.frees ||| Part.records ||| Part.queues ||| Part.towers ||| Part.stacks ||| Part.hub) s (execShardImport h src len s) := by
  unfold execShardImport
  repeat' with_reducible first
      | apply Keeps.refl | assumption | (apply Part.named; decide)
      | apply Keeps.next
      | (extract_lets +onlyGivenNames x; first | (refine keepsLet (x := x) ?_ ?_; (on_goal 2 => (clear_value x; intro _)); (on_goal 1 => (unfold x; clear x))) | (refine keepsLetO (x := x) ?_ ?_; (on_goal 2 => (clear_value x; intro _)); (on_goal 1 => (unfold x; clear x))) | skip)
      | apply KeepsOut.viaH (runOp_keeps _ _ _ _ _ ?_ ?_)
      | apply Keeps.via (fail_keeps _ _ _ _)
      | apply Keeps.via (readT_keeps _ _ _ _ _)
      | (apply keepsEq (fun r => r.s) (readT_keeps _ _ _ _ _); on_goal 1 => assumption)
      | apply Keeps.via (importRecords_keeps _ _ _ _ _ _)
      | (apply keepsEqW (importRecords_keeps _ _ _ _ _ _); on_goal 1 => assumption)
      | apply Keeps.via (bumpFree_keeps _)
      | apply Keeps.via (finish_keeps _ _ _ _ _ _ _)
      | apply Keeps.ite
      | apply KeepsOut.ite
      | intro _
      | split

end Sys2Proof.Machine
end

