-- ==== Sys2Proof/Laws/KeepBlotter.lean ====
section
/-!
SUPPORT. What each operation and meaning of Machine/Blotter.lean keeps (Laws/Keep.lean).
-/
namespace Sys2Proof.Machine

theorem sendEvent_keeps (payload : List Byte) (s : State) : Keeps (Part.regs ||| Part.log ||| Part.sec) s (sendEvent payload s) := by
  unfold sendEvent
  repeat' with_reducible first
      | apply Keeps.refl | assumption | (apply Part.named; decide) | rfl
      | apply Keeps.via (emit_keeps _ _)
      | apply Keeps.via (addReg_keeps _ _ _)
      | apply Keeps.via (modSec_keeps _ _ ?_ ?_)
      | apply Keeps.ite
      | split

theorem stateEvent_keeps (sensor new : Nat) (s : State) : Keeps (Part.regs ||| Part.log ||| Part.sec) s (stateEvent sensor new s) := by
  unfold stateEvent
  repeat' with_reducible first
      | apply Keeps.refl | assumption | (apply Part.named; decide)
      | apply Keeps.via (sendEvent_keeps _ _)

theorem openVectors_keeps (r : Report) (s : State) : Keeps (Part.regs ||| Part.log) s (openVectors r s) := by
  unfold openVectors
  repeat' with_reducible first
      | apply Keeps.refl | assumption | (apply Part.named; decide)
      | (extract_lets +onlyGivenNames x; first | (refine keepsLet (x := x) ?_ ?_; (on_goal 2 => (clear_value x; intro _)); (on_goal 1 => (unfold x; clear x))) | skip)
      | apply Keeps.via (signal_keeps _ _ _)
      | apply Keeps.ite
      | split

theorem closing_keeps (r : FaultRec) (s : State) : Keeps (Part.regs ||| Part.log ||| Part.hub ||| Part.sec) s (closing r s) := by
  unfold closing
  repeat' with_reducible first
      | apply Keeps.refl | assumption | (apply Part.named; decide)
      | (extract_lets +onlyGivenNames x; first | (refine keepsLet (x := x) ?_ ?_; (on_goal 2 => (clear_value x; intro _)); (on_goal 1 => (unfold x; clear x))) | skip)
      | apply Keeps.via (modHub_keeps _ _)
      | apply Keeps.via (sendEvent_keeps _ _)
      | apply Keeps.ite

theorem openRecord_keeps (r : Report) (s : State) :
    Keeps (Part.regs ||| Part.log ||| Part.records ||| Part.hub ||| Part.sec) s (openRecord r s) := by
  unfold openRecord
  repeat' with_reducible first
      | apply Keeps.refl | assumption | (apply Part.named; decide)
      | (extract_lets +onlyGivenNames x; first | (refine keepsLet (x := x) ?_ ?_; (on_goal 2 => (clear_value x; intro _)); (on_goal 1 => (unfold x; clear x))) | skip)
      | apply Keeps.via (addReg_keeps _ _ _)
      | apply Keeps.via (openVectors_keeps _ _)
      | apply Keeps.via (closing_keeps _ _)
      | apply Keeps.ite
      | split
      | fail_if_no_progress (apply Keeps.via (Keeps.putRecs _ _))

theorem execBlotterAccept_keeps (s : State) :
    KeepsOut (Part.regs ||| Part.log ||| Part.records ||| Part.hub ||| Part.sec) s (execBlotterAccept s) := by
  unfold execBlotterAccept
  repeat' with_reducible first
      | apply Keeps.refl | assumption | (apply Part.named; decide)
      | apply Keeps.next
      | (extract_lets +onlyGivenNames x; first | (refine keepsLet (x := x) ?_ ?_; (on_goal 2 => (clear_value x; intro _)); (on_goal 1 => (unfold x; clear x))) | (refine keepsLetO (x := x) ?_ ?_; (on_goal 2 => (clear_value x; intro _)); (on_goal 1 => (unfold x; clear x))) | skip)
      | apply Keeps.via (addReg_keeps _ _ _)
      | apply Keeps.via (openRecord_keeps _ _)
      | apply Keeps.ite
      | apply KeepsOut.ite
      | split
      | fail_if_no_progress (apply Keeps.via (Keeps.putRecs _ _))
      | fail_if_no_progress (apply Keeps.via (Keeps.putReports _ _))

theorem execRecordClose_keeps (t : Nat) (s : State) :
    KeepsOut (Part.regs ||| Part.time ||| Part.log ||| Part.records ||| Part.hub ||| Part.sec) s (execRecordClose t s) := by
  unfold execRecordClose
  repeat' with_reducible first
      | apply Keeps.refl | assumption | (apply Part.named; decide)
      | apply Keeps.next
      | (extract_lets +onlyGivenNames x; first | (refine keepsLet (x := x) ?_ ?_; (on_goal 2 => (clear_value x; intro _)); (on_goal 1 => (unfold x; clear x))) | (refine keepsLetO (x := x) ?_ ?_; (on_goal 2 => (clear_value x; intro _)); (on_goal 1 => (unfold x; clear x))) | skip)
      | apply Keeps.via (closing_keeps _ _)
      | apply Keeps.ite
      | apply KeepsOut.ite
      | apply Keeps.foldl_via
      | apply Keeps.via (Keeps.later _ _)
      | intro _
      | fail_if_no_progress (apply Keeps.via (Keeps.putRecs _ _))

theorem replyData_keeps (h : CmdHdr) (op dst : Nat) (l : List Byte) (r0 : Nat) (s : State) :
    Keeps (Part.regs ||| Part.memory ||| Part.records ||| Part.queues ||| Part.stacks) s (replyData h op dst l r0 s) := by
  unfold replyData
  repeat' with_reducible first
      | apply Keeps.refl | assumption | (apply Part.named; decide)
      | (extract_lets +onlyGivenNames x; first | (refine keepsLet (x := x) ?_ ?_; (on_goal 2 => (clear_value x; intro _)); (on_goal 1 => (unfold x; clear x))) | skip)
      | apply Keeps.via (writeSpan_keeps _ _ _ _ _)
      | (apply keepsEq (fun r => r.s) (writeSpan_keeps _ _ _ _ _); on_goal 1 => assumption)
      | apply Keeps.via (Wrote.start_keeps _)
      | (apply keepsEq (fun r => r.s) (Wrote.start_keeps _); on_goal 1 => assumption)
      | apply Keeps.via (finish_keeps _ _ _ _ _ _ _)
      | apply Keeps.via (Wrote.start_keeps _)

theorem execBlotterRead_keeps (h : CmdHdr) (dst max : Nat) (s : State) :
    KeepsOut (Part.regs ||| Part.memory ||| Part.records ||| Part.queues ||| Part.stacks) s (execBlotterRead h dst max s) := by
  unfold execBlotterRead
  repeat' with_reducible first
      | apply Keeps.refl | assumption | (apply Part.named; decide)
      | apply Keeps.next
      | (extract_lets +onlyGivenNames x; first | (refine keepsLet (x := x) ?_ ?_; (on_goal 2 => (clear_value x; intro _)); (on_goal 1 => (unfold x; clear x))) | (refine keepsLetO (x := x) ?_ ?_; (on_goal 2 => (clear_value x; intro _)); (on_goal 1 => (unfold x; clear x))) | skip)
      | apply KeepsOut.viaH (runOp_keeps _ _ _ _ _ ?_ ?_)
      | apply Keeps.via (replyData_keeps _ _ _ _ _ _)
      | intro _
      | fail_if_no_progress (apply Keeps.via (Keeps.putRecs _ _))

theorem execRetiredPagesRead_keeps (h : CmdHdr) (dst max : Nat) (s : State) :
    KeepsOut (Part.regs ||| Part.memory ||| Part.records ||| Part.queues ||| Part.stacks) s (execRetiredPagesRead h dst max s) := by
  unfold execRetiredPagesRead
  repeat' with_reducible first
      | apply Keeps.refl | assumption | (apply Part.named; decide)
      | apply Keeps.next
      | (extract_lets +onlyGivenNames x; first | (refine keepsLet (x := x) ?_ ?_; (on_goal 2 => (clear_value x; intro _)); (on_goal 1 => (unfold x; clear x))) | (refine keepsLetO (x := x) ?_ ?_; (on_goal 2 => (clear_value x; intro _)); (on_goal 1 => (unfold x; clear x))) | skip)
      | apply KeepsOut.viaH (runOp_keeps _ _ _ _ _ ?_ ?_)
      | apply Keeps.via (replyData_keeps _ _ _ _ _ _)
      | intro _

theorem execLifeRecordRead_keeps (h : CmdHdr) (dst len : Nat) (s : State) :
    KeepsOut (Part.regs ||| Part.memory ||| Part.records ||| Part.queues ||| Part.stacks) s (execLifeRecordRead h dst len s) := by
  unfold execLifeRecordRead
  repeat' with_reducible first
      | apply Keeps.refl | assumption | (apply Part.named; decide)
      | apply Keeps.next
      | (extract_lets +onlyGivenNames x; first | (refine keepsLet (x := x) ?_ ?_; (on_goal 2 => (clear_value x; intro _)); (on_goal 1 => (unfold x; clear x))) | (refine keepsLetO (x := x) ?_ ?_; (on_goal 2 => (clear_value x; intro _)); (on_goal 1 => (unfold x; clear x))) | skip)
      | apply KeepsOut.viaH (runOp_keeps _ _ _ _ _ ?_ ?_)
      | apply Keeps.via (replyData_keeps _ _ _ _ _ _)
      | intro _

theorem noteFw_keeps (slot kind : Nat) (s : State) : Keeps Part.hub s (noteFw slot kind s) := by
  unfold noteFw
  repeat' with_reducible first
      | apply Keeps.refl | assumption | (apply Part.named; decide)
      | (extract_lets +onlyGivenNames x; first | (refine keepsLet (x := x) ?_ ?_; (on_goal 2 => (clear_value x; intro _)); (on_goal 1 => (unfold x; clear x))) | skip)
      | apply Keeps.via (modHub_keeps _ _)
      | apply Keeps.ite

theorem execLifeHour_keeps (tj : Int) (poweredSeconds joules : Nat) (s : State) :
    KeepsOut Part.hub s (execLifeHour tj poweredSeconds joules s) := by
  unfold execLifeHour
  repeat' with_reducible first
      | apply Keeps.refl | assumption | (apply Part.named; decide)
      | apply Keeps.next
      | (extract_lets +onlyGivenNames x; first | (refine keepsLet (x := x) ?_ ?_; (on_goal 2 => (clear_value x; intro _)); (on_goal 1 => (unfold x; clear x))) | (refine keepsLetO (x := x) ?_ ?_; (on_goal 2 => (clear_value x; intro _)); (on_goal 1 => (unfold x; clear x))) | skip)
      | apply Keeps.via (modHub_keeps _ _)

theorem execLifeDay_keeps (s : State) : KeepsOut (Part.records ||| Part.hub) s (execLifeDay s) := by
  unfold execLifeDay
  repeat' with_reducible first
      | apply Keeps.refl | assumption | (apply Part.named; decide)
      | apply Keeps.next
      | (extract_lets +onlyGivenNames x; first | (refine keepsLet (x := x) ?_ ?_; (on_goal 2 => (clear_value x; intro _)); (on_goal 1 => (unfold x; clear x))) | (refine keepsLetO (x := x) ?_ ?_; (on_goal 2 => (clear_value x; intro _)); (on_goal 1 => (unfold x; clear x))) | skip)
      | apply Keeps.via (modHub_keeps _ _)
      | apply Keeps.via (report_keeps _ _ _ _ _)
      | apply Keeps.foldl_via
      | intro _

theorem execTimeSet_keeps (h : CmdHdr) (utc : Nat) (s : State) :
    KeepsOut (Part.regs ||| Part.queues ||| Part.stacks ||| Part.hub) s (execTimeSet h utc s) := by
  unfold execTimeSet
  repeat' with_reducible first
      | apply Keeps.refl | assumption | (apply Part.named; decide)
      | apply Keeps.next
      | (extract_lets +onlyGivenNames x; first | (refine keepsLet (x := x) ?_ ?_; (on_goal 2 => (clear_value x; intro _)); (on_goal 1 => (unfold x; clear x))) | (refine keepsLetO (x := x) ?_ ?_; (on_goal 2 => (clear_value x; intro _)); (on_goal 1 => (unfold x; clear x))) | skip)
      | apply KeepsOut.viaH (runOp_keeps _ _ _ _ _ ?_ ?_)
      | apply Keeps.via (fail_keeps _ _ _ _)
      | apply Keeps.via (setB_keeps _ _ _ _)
      | apply Keeps.via (modHub_keeps _ _)
      | intro _
      | fail_if_no_progress (apply Keeps.via (Keeps.putStk _ _))

end Sys2Proof.Machine
end

