-- ==== Sys2Proof/Laws/KeepConfigStore.lean ====
section
/-!
SUPPORT. What each operation and meaning of Machine/ConfigStore.lean keeps (Laws/Keep.lean).
-/
namespace Sys2Proof.Machine

theorem permuteRegion_keeps (r : Nat) (was : Bool) (s : State) : Keeps (Part.memory ||| Part.towers ||| Part.stacks) s (permuteRegion r was s) := by
  unfold permuteRegion
  extract_lets lo hi line s1 s2
  have h1 : Keeps (Part.memory ||| Part.towers ||| Part.stacks) s s1 :=
    (Keeps.stores s _ _ s.uncorr (fun h => kvWf_foldl _ _ (fun _ _ h => kvWf_kvPut _ _ h) _ _ (kvWf_kvClear _ _ h))
      (fun h => kvWf_foldl _ _ (fun _ _ h => kvWf_kvPut _ _ h) _ _ (kvWf_kvClear _ _ h)) id).mono (by decide)
  have h2 : Keeps (Part.memory ||| Part.towers ||| Part.stacks) s s2 :=
    Keeps.foldl_via (fun _ _ => (modStack_keeps _ _ _).mono (by decide)) h1
  exact Keeps.foldl_via (fun _ _ => (modTower_keeps _ _ _).mono (by decide)) h2

theorem applyPimMode_keeps (n : Nat) (v : Word) (s : State) : Keeps (Part.regs ||| Part.memory ||| Part.towers ||| Part.stacks) s (applyPimMode n v s) := by
  unfold applyPimMode
  repeat' with_reducible first
      | apply Keeps.refl | assumption | (apply Part.named; decide)
      | (extract_lets +onlyGivenNames x; first | (refine keepsLet (x := x) ?_ ?_; (on_goal 2 => (clear_value x; intro _)); (on_goal 1 => (unfold x; clear x))) | skip)
      | apply Keeps.via (permuteRegion_keeps _ _ _)
      | apply Keeps.via (setReg_keeps _ _ _)
      | apply Keeps.ite
      | apply Keeps.foldl_via
      | intro _

theorem applyReg_keeps (o : Nat) (v : Word) (s : State) :
    Keeps (Part.regs ||| Part.memory ||| Part.clusters ||| Part.xfers ||| Part.towers ||| Part.stacks ||| Part.hub) s (applyReg o v s) := by
  unfold applyReg
  repeat' with_reducible first
      | apply Keeps.refl | assumption | (apply Part.named; decide)
      | (extract_lets +onlyGivenNames x; first | (refine keepsLet (x := x) ?_ ?_; (on_goal 2 => (clear_value x; intro _)); (on_goal 1 => (unfold x; clear x))) | skip)
      | apply Keeps.via (applyStrength_keeps _ _ _)
      | apply Keeps.via (applySplit_keeps _ _ _)
      | apply Keeps.via (applyBankPwr_keeps _ _ _ _)
      | apply Keeps.via (setReg_keeps _ _ _)
      | apply Keeps.via (applyPimMode_keeps _ _ _)
      | apply Keeps.ite

theorem applyRegs_keeps (l : List (Nat × Word)) (s : State) :
    Keeps (Part.regs ||| Part.memory ||| Part.clusters ||| Part.xfers ||| Part.towers ||| Part.stacks ||| Part.hub) s (applyRegs l s) := by
  unfold applyRegs
  repeat' with_reducible first
      | apply Keeps.refl | assumption | (apply Part.named; decide)
      | (extract_lets +onlyGivenNames x; first | (refine keepsLet (x := x) ?_ ?_; (on_goal 2 => (clear_value x; intro _)); (on_goal 1 => (unfold x; clear x))) | skip)
      | apply Keeps.via (applyReg_keeps _ _ _)
      | apply Keeps.ite
      | apply Keeps.foldl_via
      | intro _

theorem applyParams_keeps (s : State) : Keeps Part.regs s (applyParams s) := by
  unfold applyParams
  repeat' with_reducible first
      | apply Keeps.refl | assumption | (apply Part.named; decide)
      | (extract_lets +onlyGivenNames x; first | (refine keepsLet (x := x) ?_ ?_; (on_goal 2 => (clear_value x; intro _)); (on_goal 1 => (unfold x; clear x))) | skip)
      | apply Keeps.via (setF_keeps _ _ _ _ _)
      | apply Keeps.via (setB_keeps _ _ _ _)
      | apply Keeps.via (setReg_keeps _ _ _)
      | apply Keeps.ite
      | apply Keeps.foldl_via
      | intro _

theorem changeLists_keeps (new : CfgLists) (s : State) :
    KeepsOpt (Part.regs ||| Part.memory ||| Part.clusters ||| Part.xfers ||| Part.towers ||| Part.stacks ||| Part.hub) (fun r => r) s (changeLists new s) := by
  unfold changeLists
  repeat' with_reducible first
      | apply Keeps.refl | assumption | (apply Part.named; decide)
      | apply KeepsOpt.none | apply KeepsOpt.some
      | (extract_lets +onlyGivenNames x; first | (refine keepsLet (x := x) ?_ ?_; (on_goal 2 => (clear_value x; intro _)); (on_goal 1 => (unfold x; clear x))) | skip)
      | apply Keeps.via (applyParams_keeps _)
      | apply Keeps.via (modHub_keeps _ _)
      | apply Keeps.via (applyRegs_keeps _ _)
      | apply Keeps.ite
      | split

theorem applyStored_keeps (s : State) : Keeps (Part.regs ||| Part.memory ||| Part.clusters ||| Part.xfers ||| Part.towers ||| Part.stacks ||| Part.hub) s (applyStored s) := by
  unfold applyStored
  repeat' with_reducible first
      | apply Keeps.refl | assumption | (apply Part.named; decide)
      | (extract_lets +onlyGivenNames x; first | (refine keepsLet (x := x) ?_ ?_; (on_goal 2 => (clear_value x; intro _)); (on_goal 1 => (unfold x; clear x))) | skip)
      | apply Keeps.via (applyParams_keeps _)
      | apply Keeps.via (applyRegs_keeps _ _)

theorem takeConfig_keeps (n : Nat) (x : Staged) (s : State) :
    Keeps (Part.regs ||| Part.memory ||| Part.queues ||| Part.clusters ||| Part.xfers ||| Part.towers ||| Part.stacks ||| Part.hub) s (takeConfig n x s) := by
  unfold takeConfig
  repeat' with_reducible first
      | apply Keeps.refl | assumption | (apply Part.named; decide)
      | (extract_lets +onlyGivenNames x; first | (refine keepsLet (x := x) ?_ ?_; (on_goal 2 => (clear_value x; intro _)); (on_goal 1 => (unfold x; clear x))) | skip)
      | apply Keeps.via (modHub_keeps _ _)
      | apply Keeps.via (fail_keeps _ _ _ _)
      | (apply KeepsOpt.get (changeLists_keeps _ _); on_goal 1 => assumption)
      | apply Keeps.via (finish_keeps _ _ _ _ _ _ _)
      | split

theorem takeConfigs_keeps (n : Nat) (due : List Staged) (s : State) : Keeps (Part.regs ||| Part.memory ||| Part.queues ||| Part.clusters ||| Part.xfers ||| Part.towers ||| Part.stacks ||| Part.hub) s (takeConfigs n due s) := by
  unfold takeConfigs
  repeat' with_reducible first
      | apply Keeps.refl | assumption | (apply Part.named; decide)
      | (extract_lets +onlyGivenNames x; first | (refine keepsLet (x := x) ?_ ?_; (on_goal 2 => (clear_value x; intro _)); (on_goal 1 => (unfold x; clear x))) | skip)
      | apply Keeps.via (takeConfig_keeps _ _ _)
      | apply Keeps.foldl_via
      | intro _

theorem takeRegs_keeps (n : Nat) (s : State) :
    Keeps (Part.regs ||| Part.memory ||| Part.queues ||| Part.clusters ||| Part.xfers ||| Part.towers ||| Part.stacks ||| Part.hub) s (takeRegs n s) := by
  unfold takeRegs
  repeat' with_reducible first
      | apply Keeps.refl | assumption | (apply Part.named; decide)
      | (extract_lets +onlyGivenNames x; first | (refine keepsLet (x := x) ?_ ?_; (on_goal 2 => (clear_value x; intro _)); (on_goal 1 => (unfold x; clear x))) | skip)
      | apply Keeps.via (applyRegs_keeps _ _)
      | apply Keeps.via (modHub_keeps _ _)
      | apply Keeps.via (finish_keeps _ _ _ _ _ _ _)
      | apply Keeps.via (setF_keeps _ _ _ _ _)
      | apply Keeps.foldl_via
      | intro _
      | split

theorem stageChange_keeps (h : CmdHdr) (target : Nat) (k : StagedKind) (s : State) :
    Keeps (Part.queues ||| Part.hub) s (stageChange h target k s) := by
  unfold stageChange
  repeat' with_reducible first
      | apply Keeps.refl | assumption | (apply Part.named; decide)
      | apply Keeps.via (modHub_keeps _ _)
      | apply Keeps.via (startCmd_keeps _ _)

theorem withImage_keeps (h : CmdHdr) (op src len : Nat) (act : CfgImage → State → State) (s : State) {m : Nat} (hm : (Part.regs ||| Part.memory ||| Part.frees ||| Part.records ||| Part.queues ||| Part.towers ||| Part.stacks ||| Part.hub) ||| m = m) (hact : ∀ x0 x1, Keeps m x1 (act x0 x1)) :
    Keeps m s (withImage h op src len act s) := by
  unfold withImage
  repeat' with_reducible first
      | apply Keeps.refl | assumption | (apply Part.named; decide) | exact Part.sub hm (by decide)
      | (extract_lets +onlyGivenNames x; first | (refine keepsLet (x := x) ?_ ?_; (on_goal 2 => (clear_value x; intro _)); (on_goal 1 => (unfold x; clear x))) | skip)
      | apply Keeps.via (readT_keeps _ _ _ _ _)
      | (apply keepsEq (fun r => r.s) (readT_keeps _ _ _ _ _); on_goal 1 => assumption)
      | apply Keeps.via (fail_keeps _ _ _ _)
      | apply Keeps.via (bumpFree_keeps _)
      | apply Keeps.viaH (hact _ _)
      | apply Keeps.ite
      | split

theorem execConfigBaseLoad_keeps (h : CmdHdr) (src len target : Nat) (s : State) :
    KeepsOut (Part.regs ||| Part.memory ||| Part.frees ||| Part.records ||| Part.queues ||| Part.towers ||| Part.stacks ||| Part.hub) s (execConfigBaseLoad h src len target s) := by
  unfold execConfigBaseLoad
  repeat' with_reducible first
      | apply Keeps.refl | assumption | (apply Part.named; decide)
      | apply Keeps.next
      | apply KeepsOut.viaH (runOp_keeps _ _ _ _ _ ?_ ?_)
      | apply Keeps.viaH (withImage_keeps _ _ _ _ _ _ ?_ ?_)
      | apply Keeps.via (fail_keeps _ _ _ _)
      | apply Keeps.via (stageChange_keeps _ _ _ _)
      | apply Keeps.ite
      | apply KeepsOut.ite
      | intro _

theorem execOverlayApply_keeps (h : CmdHdr) (src len target slot : Nat) (s : State) :
    KeepsOut (Part.regs ||| Part.memory ||| Part.frees ||| Part.records ||| Part.queues ||| Part.towers ||| Part.stacks ||| Part.hub) s (execOverlayApply h src len target slot s) := by
  unfold execOverlayApply
  repeat' with_reducible first
      | apply Keeps.refl | assumption | (apply Part.named; decide)
      | apply Keeps.next
      | apply KeepsOut.viaH (runOp_keeps _ _ _ _ _ ?_ ?_)
      | apply Keeps.viaH (withImage_keeps _ _ _ _ _ _ ?_ ?_)
      | apply Keeps.via (fail_keeps _ _ _ _)
      | apply Keeps.via (stageChange_keeps _ _ _ _)
      | apply Keeps.ite
      | apply KeepsOut.ite
      | intro _

theorem execOverlayRemove_keeps (h : CmdHdr) (target slot : Nat) (s : State) :
    KeepsOut (Part.regs ||| Part.queues ||| Part.hub) s (execOverlayRemove h target slot s) := by
  unfold execOverlayRemove
  repeat' with_reducible first
      | apply Keeps.refl | assumption | (apply Part.named; decide)
      | apply Keeps.next
      | apply KeepsOut.viaH (runOp_keeps _ _ _ _ _ ?_ ?_)
      | apply Keeps.via (stageChange_keeps _ _ _ _)
      | apply Keeps.via (fail_keeps _ _ _ _)
      | apply Keeps.ite
      | apply KeepsOut.ite
      | intro _

theorem execConfigRead_keeps (h : CmdHdr) (dst len : Nat) (s : State) :
    KeepsOut (Part.regs ||| Part.memory ||| Part.records ||| Part.queues ||| Part.stacks) s (execConfigRead h dst len s) := by
  unfold execConfigRead
  repeat' with_reducible first
      | apply Keeps.refl | assumption | (apply Part.named; decide)
      | apply Keeps.next
      | (extract_lets +onlyGivenNames x; first | (refine keepsLet (x := x) ?_ ?_; (on_goal 2 => (clear_value x; intro _)); (on_goal 1 => (unfold x; clear x))) | (refine keepsLetO (x := x) ?_ ?_; (on_goal 2 => (clear_value x; intro _)); (on_goal 1 => (unfold x; clear x))) | skip)
      | apply KeepsOut.viaH (runOp_keeps _ _ _ _ _ ?_ ?_)
      | apply Keeps.via (fail_keeps _ _ _ _)
      | apply Keeps.via (replyData_keeps _ _ _ _ _ _)
      | apply Keeps.ite
      | apply KeepsOut.ite
      | intro _

end Sys2Proof.Machine
end

