-- ==== Sys2Proof/Laws/KeepCollective.lean ====
section
/-!
SUPPORT. What each operation and meaning of Machine/Collective.lean keeps (Laws/Keep.lean).
-/
namespace Sys2Proof.Machine

theorem noteSystem_keeps (g : RunFlags → RunFlags) (s : State) : Keeps Part.jobs s (noteSystem g s) := by
  unfold noteSystem
  repeat' with_reducible first
      | apply Keeps.refl | assumption | (apply Part.named; decide)
      | apply Keeps.ite
      | fail_if_no_progress (apply Keeps.via (Keeps.putJobs _ _))

theorem collBusError_keeps (a : Nat) (s : State) : Keeps (Part.regs ||| Part.memory ||| Part.records ||| Part.jobs ||| Part.towers ||| Part.stacks ||| Part.hub) s (collBusError a s) := by
  unfold collBusError
  repeat' with_reducible first
      | apply Keeps.refl | assumption | (apply Part.named; decide)
      | apply Keeps.via (noteSystem_keeps _ _)
      | apply Keeps.via (busError_keeps _ _ _)
      | apply Keeps.via (addReg_keeps _ _ _)
      | apply Keeps.via (readError_keeps _ _ _)

theorem readPiece_keeps (a n : Nat) (s : State) : Keeps (Part.regs ||| Part.memory ||| Part.frees ||| Part.records ||| Part.jobs ||| Part.towers ||| Part.stacks ||| Part.hub) s (readPiece a n s).2 := by
  unfold readPiece
  repeat' with_reducible first
      | apply Keeps.refl | assumption | (apply Part.named; decide)
      | (extract_lets +onlyGivenNames x; first | (refine keepsLet (x := x) ?_ ?_; (on_goal 2 => (clear_value x; intro _)); (on_goal 1 => (unfold x; clear x))) | skip)
      | apply Keeps.via (collBusError_keeps _ _)
      | apply Keeps.via (bumpFree_keeps _)
      | apply Keeps.ite
      | apply Keeps.foldl2_via
      | intro _

theorem writePiece_keeps (a n : Nat) (d : CollData) (s : State) :
    Keeps (Part.regs ||| Part.memory ||| Part.records ||| Part.jobs ||| Part.stacks) s (writePiece a n d s) := by
  unfold writePiece
  repeat' with_reducible first
      | apply Keeps.refl | assumption | (apply Part.named; decide)
      | (extract_lets +onlyGivenNames x; first | (refine keepsLet (x := x) ?_ ?_; (on_goal 2 => (clear_value x; intro _)); (on_goal 1 => (unfold x; clear x))) | skip)
      | apply Keeps.via (writeGran_keeps _ _ _ _ _)
      | (apply keepsEq (fun r => r.s) (writeGran_keeps _ _ _ _ _); on_goal 1 => assumption)
      | apply Keeps.via (noteSystem_keeps _ _)
      | apply Keeps.via (busError_keeps _ _ _)
      | apply Keeps.via (addReg_keeps _ _ _)
      | apply Keeps.via (Wrote.start_keeps _)
      | apply Keeps.ite
      | apply Keeps.foldl_via
      | intro _

theorem sendColl_keeps (k : Packet) (dest : Nat) (s : State) : Keeps (Part.regs ||| Part.log ||| Part.links) s (sendColl k dest s) := by
  unfold sendColl
  repeat' with_reducible first
      | apply Keeps.refl | assumption | (apply Part.named; decide)
      | apply Keeps.via (sendOn_keeps _ _ _)
      | split

theorem modFiring_keeps (e n : Nat) (g : CollFiring → CollFiring) (s : State) : Keeps Part.coll s (modFiring e n g s) := by
  unfold modFiring
  repeat' with_reducible first
      | apply Keeps.refl | assumption | (apply Part.named; decide)
      | apply Keeps.ite
      | fail_if_no_progress (apply Keeps.via (Keeps.putColl _ _))

theorem spread_keeps (e n : Nat) (p : CollParam) (c off step : Nat) (d : CollData) (s : State) :
    Keeps (Part.regs ||| Part.memory ||| Part.log ||| Part.records ||| Part.jobs ||| Part.stacks ||| Part.links ||| Part.coll) s (spread e n p c off step d s) := by
  unfold spread
  repeat' with_reducible first
      | apply Keeps.refl | assumption | (apply Part.named; decide)
      | (extract_lets +onlyGivenNames x; first | (refine keepsLet (x := x) ?_ ?_; (on_goal 2 => (clear_value x; intro _)); (on_goal 1 => (unfold x; clear x))) | skip)
      | apply Keeps.via (writePiece_keeps _ _ _ _)
      | apply Keeps.via (modFiring_keeps _ _ _ _)
      | apply Keeps.via (sendColl_keeps _ _ _)
      | apply Keeps.ite
      | split

theorem reduceOn_keeps (y0 : Nat) (y1 : Nat) (y2 : Nat) (y3 : CollParam) (y4 : Nat) (y5 : Nat) (y6 : Nat) (y7 : CollData) (y8 : State) :
    Keeps (Part.regs ||| Part.memory ||| Part.frees ||| Part.log ||| Part.records ||| Part.jobs ||| Part.towers ||| Part.stacks ||| Part.hub ||| Part.links ||| Part.coll) y8 (reduceOn y0 y1 y2 y3 y4 y5 y6 y7 y8) := by
  induction y0 generalizing y1 y2 y3 y4 y5 y6 y7 y8 with
  | zero =>
    unfold reduceOn
    repeat' with_reducible first
        | apply Keeps.refl | assumption | (apply Part.named; decide)
        | (extract_lets +onlyGivenNames x; first | (refine keepsLet (x := x) ?_ ?_; (on_goal 2 => (clear_value x; intro _)); (on_goal 1 => (unfold x; clear x))) | skip)
        | apply Keeps.via (spread_keeps _ _ _ _ _ _ _ _)
        | apply Keeps.via (readPiece_keeps _ _ _)
        | (apply keepsEq2 (readPiece_keeps _ _ _); on_goal 1 => assumption)
        | apply Keeps.via (sendColl_keeps _ _ _)
        | apply Keeps.via (ih _ _ _ _ _ _ _ _)
        | apply Keeps.ite
  | succ n ih =>
    unfold reduceOn
    repeat' with_reducible first
        | apply Keeps.refl | assumption | (apply Part.named; decide)
        | (extract_lets +onlyGivenNames x; first | (refine keepsLet (x := x) ?_ ?_; (on_goal 2 => (clear_value x; intro _)); (on_goal 1 => (unfold x; clear x))) | skip)
        | apply Keeps.via (spread_keeps _ _ _ _ _ _ _ _)
        | apply Keeps.via (readPiece_keeps _ _ _)
        | (apply keepsEq2 (readPiece_keeps _ _ _); on_goal 1 => assumption)
        | apply Keeps.via (sendColl_keeps _ _ _)
        | apply Keeps.via (ih _ _ _ _ _ _ _ _)
        | apply Keeps.ite

theorem beginFiring_keeps (e n : Nat) (p : CollParam) (s : State) :
    Keeps (Part.regs ||| Part.memory ||| Part.frees ||| Part.log ||| Part.records ||| Part.jobs ||| Part.towers ||| Part.stacks ||| Part.hub ||| Part.links ||| Part.coll) s (beginFiring e n p s) := by
  unfold beginFiring
  repeat' with_reducible first
      | apply Keeps.refl | assumption | (apply Part.named; decide)
      | (extract_lets +onlyGivenNames x; first | (refine keepsLet (x := x) ?_ ?_; (on_goal 2 => (clear_value x; intro _)); (on_goal 1 => (unfold x; clear x))) | skip)
      | apply Keeps.via (readPiece_keeps _ _ _)
      | (apply keepsEq2 (readPiece_keeps _ _ _); on_goal 1 => assumption)
      | apply Keeps.via (spread_keeps _ _ _ _ _ _ _ _)
      | apply Keeps.via (reduceOn_keeps _ _ _ _ _ _ _ _ _)
      | apply Keeps.ite
      | apply Keeps.foldl_via
      | intro _

theorem execCollectiveFire_keeps (s : State) :
    KeepsOut (Part.regs ||| Part.memory ||| Part.frees ||| Part.log ||| Part.records ||| Part.jobs ||| Part.towers ||| Part.stacks ||| Part.hub ||| Part.links ||| Part.coll) s (execCollectiveFire s) := by
  unfold execCollectiveFire
  repeat' with_reducible first
      | apply Keeps.refl | assumption | (apply Part.named; decide)
      | apply Keeps.next
      | (extract_lets +onlyGivenNames x; first | (refine keepsLet (x := x) ?_ ?_; (on_goal 2 => (clear_value x; intro _)); (on_goal 1 => (unfold x; clear x))) | (refine keepsLetO (x := x) ?_ ?_; (on_goal 2 => (clear_value x; intro _)); (on_goal 1 => (unfold x; clear x))) | skip)
      | apply Keeps.via (beginFiring_keeps _ _ _ _)
      | apply Keeps.ite
      | apply KeepsOut.ite
      | split
      | fail_if_no_progress (apply Keeps.via (Keeps.putColl _ _))

theorem takeColl_keeps (f : CollFiring) (p : CollParam) (phase c step off : Nat) (d : CollData) (s : State) :
    Keeps (Part.regs ||| Part.memory ||| Part.frees ||| Part.log ||| Part.records ||| Part.jobs ||| Part.towers ||| Part.stacks ||| Part.hub ||| Part.links ||| Part.coll) s (takeColl f p phase c step off d s) := by
  unfold takeColl
  repeat' with_reducible first
      | apply Keeps.refl | assumption | (apply Part.named; decide)
      | (extract_lets +onlyGivenNames x; first | (refine keepsLet (x := x) ?_ ?_; (on_goal 2 => (clear_value x; intro _)); (on_goal 1 => (unfold x; clear x))) | skip)
      | apply Keeps.via (modFiring_keeps _ _ _ _)
      | apply Keeps.via (reduceOn_keeps _ _ _ _ _ _ _ _ _)
      | apply Keeps.via (spread_keeps _ _ _ _ _ _ _ _)
      | apply Keeps.ite

theorem execCollPacket_keeps (port : Fin 12) (s : State) :
    KeepsOut (Part.regs ||| Part.memory ||| Part.frees ||| Part.log ||| Part.records ||| Part.jobs ||| Part.towers ||| Part.stacks ||| Part.hub ||| Part.links ||| Part.coll) s (execCollPacket port s) := by
  unfold execCollPacket
  repeat' with_reducible first
      | apply Keeps.refl | assumption | (apply Part.named; decide)
      | apply Keeps.next
      | (extract_lets +onlyGivenNames x; first | (refine keepsLet (x := x) ?_ ?_; (on_goal 2 => (clear_value x; intro _)); (on_goal 1 => (unfold x; clear x))) | (refine keepsLetO (x := x) ?_ ?_; (on_goal 2 => (clear_value x; intro _)); (on_goal 1 => (unfold x; clear x))) | skip)
      | apply Keeps.via (returnCredit_keeps _ _ _)
      | apply Keeps.via (modPort_keeps _ _ _)
      | apply Keeps.via (sendColl_keeps _ _ _)
      | apply Keeps.via (takeColl_keeps _ _ _ _ _ _ _ _)
      | apply Keeps.ite
      | apply KeepsOut.ite
      | split

theorem endFiring_keeps (f : CollFiring) (s : State) :
    Keeps (Part.regs ||| Part.log ||| Part.records ||| Part.queues ||| Part.jobs ||| Part.clusters ||| Part.scores ||| Part.hurdles ||| Part.links ||| Part.coll) s (endFiring f s) := by
  unfold endFiring
  repeat' with_reducible first
      | apply Keeps.refl | assumption | (apply Part.named; decide)
      | (extract_lets +onlyGivenNames x; first | (refine keepsLet (x := x) ?_ ?_; (on_goal 2 => (clear_value x; intro _)); (on_goal 1 => (unfold x; clear x))) | skip)
      | apply Keeps.via (addReg_keeps _ _ _)
      | apply Keeps.via (arrive_keeps _ _ _)
      | apply Keeps.via (report_keeps _ _ _ _ _)
      | apply Keeps.via (noteSystem_keeps _ _)
      | split
      | fail_if_no_progress (apply Keeps.via (Keeps.putColl _ _))

theorem execCollectiveComplete_keeps (s : State) :
    KeepsOut (Part.regs ||| Part.log ||| Part.records ||| Part.queues ||| Part.jobs ||| Part.clusters ||| Part.scores ||| Part.hurdles ||| Part.links ||| Part.coll) s (execCollectiveComplete s) := by
  unfold execCollectiveComplete
  repeat' with_reducible first
      | apply Keeps.refl | assumption | (apply Part.named; decide)
      | apply Keeps.next
      | apply Keeps.via (endFiring_keeps _ _)
      | split

theorem forceFirings_keeps (s : State) :
    Keeps (Part.regs ||| Part.memory ||| Part.log ||| Part.records ||| Part.queues ||| Part.jobs ||| Part.clusters ||| Part.scores ||| Part.hurdles ||| Part.stacks ||| Part.links ||| Part.coll) s (forceFirings s) := by
  unfold forceFirings
  repeat' with_reducible first
      | apply Keeps.refl | assumption | (apply Part.named; decide)
      | (extract_lets +onlyGivenNames x; first | (refine keepsLet (x := x) ?_ ?_; (on_goal 2 => (clear_value x; intro _)); (on_goal 1 => (unfold x; clear x))) | skip)
      | apply Keeps.via (writePiece_keeps _ _ _ _)
      | apply Keeps.via (endFiring_keeps _ _)
      | apply Keeps.foldl_via
      | intro _
      | split

theorem armCollectives_keeps (f : Nat) (tab : List (List Byte)) (s : State) : Keeps Part.coll s (armCollectives f tab s) := by
  unfold armCollectives
  repeat' with_reducible first
      | apply Keeps.refl | assumption | (apply Part.named; decide)
      | (extract_lets +onlyGivenNames x; first | (refine keepsLet (x := x) ?_ ?_; (on_goal 2 => (clear_value x; intro _)); (on_goal 1 => (unfold x; clear x))) | skip)
      | fail_if_no_progress (apply Keeps.via (Keeps.putColl _ _))

theorem disarm_keeps (s : State) : Keeps (Part.regs ||| Part.log ||| Part.links ||| Part.coll) s (disarm s) := by
  unfold disarm
  repeat' with_reducible first
      | apply Keeps.refl | assumption | (apply Part.named; decide)
      | (extract_lets +onlyGivenNames x; first | (refine keepsLet (x := x) ?_ ?_; (on_goal 2 => (clear_value x; intro _)); (on_goal 1 => (unfold x; clear x))) | skip)
      | apply Keeps.via (returnCredit_keeps _ _ _)
      | apply Keeps.via (modPort_keeps _ _ _)
      | apply Keeps.ite
      | apply Keeps.foldl_via
      | intro _
      | fail_if_no_progress (apply Keeps.via (Keeps.putColl _ _))

end Sys2Proof.Machine
end

