-- ==== Sys2Proof/Laws/KeepRelay.lean ====
section
/-!
SUPPORT. What each operation and meaning of Machine/Relay.lean keeps (Laws/Keep.lean).
-/
namespace Sys2Proof.Machine

theorem mStroke_keeps (op : Nat) (y0 : Nat) (y1 : StrokeWord) (y2 : State) :
    KeepsOpt (Part.regs ||| Part.memory ||| Part.log ||| Part.records ||| Part.jobs ||| Part.clusters ||| Part.bases ||| Part.mcores ||| Part.vcores ||| Part.atts ||| Part.towers ||| Part.stacks ||| Part.hub ||| Part.sup) (fun r => r.s) y2 (mStroke op y0 y1 y2) := by
  unfold mStroke
  repeat' with_reducible first
      | apply Keeps.refl | assumption | (apply Part.named; decide)
      | (apply KeepsOpt.get (msetbEffect_keeps _ _ _); on_goal 1 => assumption)
      | apply KeepsOpt.via (msetbEffect_keeps _ _ _)
      | (apply KeepsOpt.get (mldaEffect_keeps _ _ _); on_goal 1 => assumption)
      | apply KeepsOpt.via (mldaEffect_keeps _ _ _)
      | (apply KeepsOpt.get (mldsEffect_keeps _ _ _); on_goal 1 => assumption)
      | apply KeepsOpt.via (mldsEffect_keeps _ _ _)
      | (apply KeepsOpt.get (mpassEffect_keeps _ _ _ _); on_goal 1 => assumption)
      | apply KeepsOpt.via (mpassEffect_keeps _ _ _ _)
      | (apply KeepsOpt.get (maclEffect_keeps _ _ _); on_goal 1 => assumption)
      | apply KeepsOpt.via (maclEffect_keeps _ _ _)
      | (apply KeepsOpt.get (mwbEffect_keeps _ _ _); on_goal 1 => assumption)
      | apply KeepsOpt.via (mwbEffect_keeps _ _ _)
      | (apply KeepsOpt.get (nopEffect_keeps _ _ _); on_goal 1 => assumption)
      | apply KeepsOpt.via (nopEffect_keeps _ _ _)
      | apply Keeps.ite
      | split

theorem vStrokeLane_keeps (op : Nat) (y0 : Nat) (y1 : StrokeWord) (y2 : State) :
    KeepsOpt Part.vcores (fun r => r.s) y2 (vStrokeLane op y0 y1 y2) := by
  unfold vStrokeLane
  repeat' with_reducible first
      | apply Keeps.refl | assumption | (apply Part.named; decide)
      | (apply KeepsOpt.get (vaddEffect_keeps _ _ _ _); on_goal 1 => assumption)
      | apply KeepsOpt.via (vaddEffect_keeps _ _ _ _)
      | (apply KeepsOpt.get (binEffect_keeps _ _ _ _); on_goal 1 => assumption)
      | apply KeepsOpt.via (binEffect_keeps _ _ _ _)
      | (apply KeepsOpt.get (vfmaEffect_keeps _ _ _); on_goal 1 => assumption)
      | apply KeepsOpt.via (vfmaEffect_keeps _ _ _)
      | (apply KeepsOpt.get (unEffect_keeps _ _ _ _); on_goal 1 => assumption)
      | apply KeepsOpt.via (unEffect_keeps _ _ _ _)
      | (apply KeepsOpt.get (vshiftEffect_keeps _ _ _); on_goal 1 => assumption)
      | apply KeepsOpt.via (vshiftEffect_keeps _ _ _)
      | (apply KeepsOpt.get (vcmpEffect_keeps _ _ _); on_goal 1 => assumption)
      | apply KeepsOpt.via (vcmpEffect_keeps _ _ _)
      | (apply KeepsOpt.get (vselEffect_keeps _ _ _); on_goal 1 => assumption)
      | apply KeepsOpt.via (vselEffect_keeps _ _ _)
      | (apply KeepsOpt.get (vrotEffect_keeps _ _ _); on_goal 1 => assumption)
      | apply KeepsOpt.via (vrotEffect_keeps _ _ _)
      | (apply KeepsOpt.get (vcvtEffect_keeps _ _ _); on_goal 1 => assumption)
      | apply KeepsOpt.via (vcvtEffect_keeps _ _ _)
      | (apply KeepsOpt.get (vrgenEffect_keeps _ _ _); on_goal 1 => assumption)
      | apply KeepsOpt.via (vrgenEffect_keeps _ _ _)
      | (apply KeepsOpt.get (nopEffect_keeps _ _ _); on_goal 1 => assumption)
      | apply KeepsOpt.via (nopEffect_keeps _ _ _)
      | apply Keeps.ite
      | apply KeepsOpt.iteApp

theorem vStroke_keeps (op : Nat) (y0 : Nat) (y1 : StrokeWord) (y2 : State) :
    KeepsOpt (Part.regs ||| Part.memory ||| Part.records ||| Part.clusters ||| Part.bases ||| Part.vcores ||| Part.towers ||| Part.stacks ||| Part.hub) (fun r => r.s) y2 (vStroke op y0 y1 y2) := by
  unfold vStroke
  repeat' with_reducible first
      | apply Keeps.refl | assumption | (apply Part.named; decide)
      | (apply KeepsOpt.get (vStrokeLane_keeps _ _ _ _); on_goal 1 => assumption)
      | apply KeepsOpt.via (vStrokeLane_keeps _ _ _ _)
      | (apply KeepsOpt.get (vxuEffect_keeps _ _ _ _); on_goal 1 => assumption)
      | apply KeepsOpt.via (vxuEffect_keeps _ _ _ _)
      | (apply KeepsOpt.get (vrsumEffect_keeps _ _ _); on_goal 1 => assumption)
      | apply KeepsOpt.via (vrsumEffect_keeps _ _ _)
      | (apply KeepsOpt.get (vrmaxEffect_keeps _ _ _); on_goal 1 => assumption)
      | apply KeepsOpt.via (vrmaxEffect_keeps _ _ _)
      | (apply KeepsOpt.get (vrminEffect_keeps _ _ _); on_goal 1 => assumption)
      | apply KeepsOpt.via (vrminEffect_keeps _ _ _)
      | (apply KeepsOpt.get (vpermEffect_keeps _ _ _); on_goal 1 => assumption)
      | apply KeepsOpt.via (vpermEffect_keeps _ _ _)
      | (apply KeepsOpt.get (vbcastEffect_keeps _ _ _); on_goal 1 => assumption)
      | apply KeepsOpt.via (vbcastEffect_keeps _ _ _)
      | (apply KeepsOpt.get (vldEffect_keeps _ _ _); on_goal 1 => assumption)
      | apply KeepsOpt.via (vldEffect_keeps _ _ _)
      | (apply KeepsOpt.get (vstEffect_keeps _ _ _); on_goal 1 => assumption)
      | apply KeepsOpt.via (vstEffect_keeps _ _ _)
      | (apply KeepsOpt.get (vgathEffect_keeps _ _ _); on_goal 1 => assumption)
      | apply KeepsOpt.via (vgathEffect_keeps _ _ _)
      | (apply KeepsOpt.get (vscatEffect_keeps _ _ _); on_goal 1 => assumption)
      | apply KeepsOpt.via (vscatEffect_keeps _ _ _)
      | (apply KeepsOpt.get (vsetbEffect_keeps _ _ _); on_goal 1 => assumption)
      | apply KeepsOpt.via (vsetbEffect_keeps _ _ _)
      | (apply KeepsOpt.get (vsetkEffect_keeps _ _ _); on_goal 1 => assumption)
      | apply KeepsOpt.via (vsetkEffect_keeps _ _ _)
      | (apply KeepsOpt.get (vsetcEffect_keeps _ _ _); on_goal 1 => assumption)
      | apply KeepsOpt.via (vsetcEffect_keeps _ _ _)
      | (apply KeepsOpt.get (vsetmEffect_keeps _ _ _); on_goal 1 => assumption)
      | apply KeepsOpt.via (vsetmEffect_keeps _ _ _)
      | (apply KeepsOpt.get (optEffect_keeps _ _ _ _); on_goal 1 => assumption)
      | apply KeepsOpt.via (optEffect_keeps _ _ _ _)
      | (apply KeepsOpt.get (nopEffect_keeps _ _ _); on_goal 1 => assumption)
      | apply KeepsOpt.via (nopEffect_keeps _ _ _)
      | apply Keeps.ite
      | apply KeepsOpt.iteApp

theorem sStroke_keeps (op : Nat) (y0 : Nat) (y1 : StrokeWord) (y2 : State) :
    KeepsOpt (Part.regs ||| Part.memory ||| Part.frees ||| Part.log ||| Part.records ||| Part.queues ||| Part.clusters ||| Part.bases ||| Part.scores ||| Part.xfers ||| Part.atts ||| Part.hurdles ||| Part.towers ||| Part.stacks ||| Part.hub ||| Part.links ||| Part.coll) (fun r => r.s) y2 (sStroke op y0 y1 y2) := by
  unfold sStroke
  repeat' with_reducible first
      | apply Keeps.refl | assumption | (apply Part.named; decide)
      | (apply KeepsOpt.get (saluEffect_keeps _ _ _); on_goal 1 => assumption)
      | apply KeepsOpt.via (saluEffect_keeps _ _ _)
      | (apply KeepsOpt.get (sliEffect_keeps _ _ _); on_goal 1 => assumption)
      | apply KeepsOpt.via (sliEffect_keeps _ _ _)
      | (apply KeepsOpt.get (sgetEffect_keeps _ _ _); on_goal 1 => assumption)
      | apply KeepsOpt.via (sgetEffect_keeps _ _ _)
      | (apply KeepsOpt.get (sldEffect_keeps _ _ _); on_goal 1 => assumption)
      | apply KeepsOpt.via (sldEffect_keeps _ _ _)
      | (apply KeepsOpt.get (sstEffect_keeps _ _ _); on_goal 1 => assumption)
      | apply KeepsOpt.via (sstEffect_keeps _ _ _)
      | (apply KeepsOpt.get (spushEffect_keeps _ _ _); on_goal 1 => assumption)
      | apply KeepsOpt.via (spushEffect_keeps _ _ _)
      | (apply KeepsOpt.get (sidxEffect_keeps _ _ _); on_goal 1 => assumption)
      | apply KeepsOpt.via (sidxEffect_keeps _ _ _)
      | (apply KeepsOpt.get (ssetbEffect_keeps _ _ _); on_goal 1 => assumption)
      | apply KeepsOpt.via (ssetbEffect_keeps _ _ _)
      | (apply KeepsOpt.get (sskipEffect_keeps _ _ _); on_goal 1 => assumption)
      | apply KeepsOpt.via (sskipEffect_keeps _ _ _)
      | (apply KeepsOpt.get (sloopEffect_keeps _ _ _); on_goal 1 => assumption)
      | apply KeepsOpt.via (sloopEffect_keeps _ _ _)
      | (apply KeepsOpt.get (sarriveEffect_keeps _ _ _); on_goal 1 => assumption)
      | apply KeepsOpt.via (sarriveEffect_keeps _ _ _)
      | (apply KeepsOpt.get (swaitEffect_keeps _ _ _); on_goal 1 => assumption)
      | apply KeepsOpt.via (swaitEffect_keeps _ _ _)
      | (apply KeepsOpt.get (sresetEffect_keeps _ _ _); on_goal 1 => assumption)
      | apply KeepsOpt.via (sresetEffect_keeps _ _ _)
      | (apply KeepsOpt.get (shreadEffect_keeps _ _ _); on_goal 1 => assumption)
      | apply KeepsOpt.via (shreadEffect_keeps _ _ _)
      | (apply KeepsOpt.get (shtargetEffect_keeps _ _ _); on_goal 1 => assumption)
      | apply KeepsOpt.via (shtargetEffect_keeps _ _ _)
      | (apply KeepsOpt.get (sxferEffect_keeps _ _ _); on_goal 1 => assumption)
      | apply KeepsOpt.via (sxferEffect_keeps _ _ _)
      | (apply KeepsOpt.get (nopEffect_keeps _ _ _); on_goal 1 => assumption)
      | apply KeepsOpt.via (nopEffect_keeps _ _ _)
      | apply Keeps.ite
      | apply KeepsOpt.iteApp

theorem strokeEffect_keeps (k : Nat) (w : StrokeWord) (s : State) :
    KeepsOpt (Part.regs ||| Part.memory ||| Part.frees ||| Part.log ||| Part.records ||| Part.queues ||| Part.jobs ||| Part.clusters ||| Part.bases ||| Part.mcores ||| Part.vcores ||| Part.scores ||| Part.xfers ||| Part.atts ||| Part.hurdles ||| Part.towers ||| Part.stacks ||| Part.hub ||| Part.links ||| Part.coll ||| Part.sup) (fun r => r.s) s (strokeEffect k w s) := by
  unfold strokeEffect
  repeat' with_reducible first
      | apply Keeps.refl | assumption | (apply Part.named; decide)
      | (apply KeepsOpt.get (mStroke_keeps _ _ _ _); on_goal 1 => assumption)
      | apply KeepsOpt.via (mStroke_keeps _ _ _ _)
      | (apply KeepsOpt.get (vStroke_keeps _ _ _ _); on_goal 1 => assumption)
      | apply KeepsOpt.via (vStroke_keeps _ _ _ _)
      | (apply KeepsOpt.get (sStroke_keeps _ _ _ _); on_goal 1 => assumption)
      | apply KeepsOpt.via (sStroke_keeps _ _ _ _)
      | (apply KeepsOpt.get (lapEndEffect_keeps _ _ _); on_goal 1 => assumption)
      | apply KeepsOpt.via (lapEndEffect_keeps _ _ _)
      | (apply KeepsOpt.get (nopEffect_keeps _ _ _); on_goal 1 => assumption)
      | apply KeepsOpt.via (nopEffect_keeps _ _ _)
      | apply Keeps.ite
      | split

theorem fireStage_keeps (k : Nat) (w : StrokeWord) (o : StrokeOut) :
    Keeps (Part.regs ||| Part.frees ||| Part.records ||| Part.jobs ||| Part.clusters ||| Part.towers) o.s (fireStage k w o) := by
  unfold fireStage
  repeat' with_reducible first
      | apply Keeps.refl | assumption | (apply Part.named; decide)
      | apply Keeps.via (launchStroke_keeps _ _ _)
      | apply Keeps.via (trace_keeps _ _ _ _ _)

theorem fireRounds_keeps (y0 : Nat) (y1 : List (Nat × StrokeWord)) (y2 : State) :
    Keeps (Part.regs ||| Part.memory ||| Part.frees ||| Part.log ||| Part.records ||| Part.queues ||| Part.jobs ||| Part.clusters ||| Part.bases ||| Part.mcores ||| Part.vcores ||| Part.scores ||| Part.xfers ||| Part.atts ||| Part.hurdles ||| Part.towers ||| Part.stacks ||| Part.hub ||| Part.links ||| Part.coll ||| Part.sup) y2 (fireRounds y0 y1 y2).2 := by
  induction y0 generalizing y1 y2 with
  | zero =>
    unfold fireRounds
    repeat' with_reducible first
        | apply Keeps.refl | assumption | (apply Part.named; decide)
        | (extract_lets +onlyGivenNames x; first | (refine keepsLet (x := x) ?_ ?_; (on_goal 2 => (clear_value x; intro _)); (on_goal 1 => (unfold x; clear x))) | skip)
        | (apply KeepsOpt.get (strokeEffect_keeps _ _ _); on_goal 1 => assumption)
        | apply Keeps.via (fireStage_keeps _ _ _)
        | apply Keeps.via (ih _ _)
        | (apply keepsEq2 (ih _ _); on_goal 1 => assumption)
        | apply Keeps.ite
        | apply Keeps.foldl2_via
        | intro _
        | split
  | succ n ih =>
    unfold fireRounds
    repeat' with_reducible first
        | apply Keeps.refl | assumption | (apply Part.named; decide)
        | (extract_lets +onlyGivenNames x; first | (refine keepsLet (x := x) ?_ ?_; (on_goal 2 => (clear_value x; intro _)); (on_goal 1 => (unfold x; clear x))) | skip)
        | (apply KeepsOpt.get (strokeEffect_keeps _ _ _); on_goal 1 => assumption)
        | apply Keeps.via (fireStage_keeps _ _ _)
        | apply Keeps.via (ih _ _)
        | (apply keepsEq2 (ih _ _); on_goal 1 => assumption)
        | apply Keeps.ite
        | apply Keeps.foldl2_via
        | intro _
        | split

theorem execRelayFire_keeps (c : Fin 64) (id : Fin 16) (waits : List (List (Fin 8 × Nat))) (s : State) : KeepsOut (Part.regs ||| Part.memory ||| Part.frees ||| Part.log ||| Part.records ||| Part.queues ||| Part.jobs ||| Part.clusters ||| Part.bases ||| Part.mcores ||| Part.vcores ||| Part.scores ||| Part.xfers ||| Part.atts ||| Part.hurdles ||| Part.towers ||| Part.stacks ||| Part.hub ||| Part.links ||| Part.coll ||| Part.sup) s (execRelayFire c id waits s) := by
  unfold execRelayFire
  repeat' with_reducible first
      | apply Keeps.refl | assumption | (apply Part.named; decide)
      | apply Keeps.next
      | (extract_lets +onlyGivenNames x; first | (refine keepsLet (x := x) ?_ ?_; (on_goal 2 => (clear_value x; intro _)); (on_goal 1 => (unfold x; clear x))) | (refine keepsLetO (x := x) ?_ ?_; (on_goal 2 => (clear_value x; intro _)); (on_goal 1 => (unfold x; clear x))) | skip)
      | apply Keeps.via (popHead_keeps _ _)
      | apply Keeps.via (modCluster_keeps _ _ _)
      | apply Keeps.via (fireRounds_keeps _ _ _)
      | (apply keepsEq2 (fireRounds_keeps _ _ _); on_goal 1 => assumption)
      | apply Keeps.via (fireStage_keeps _ _ _)
      | apply Keeps.via (noteWaits_keeps _ _ _)
      | apply Keeps.ite
      | apply KeepsOut.ite
      | apply Keeps.foldl_via
      | intro _
      | split

theorem execRelayComplete_keeps (c : Fin 64) (id : Fin 16) (s : State) : KeepsOut (Part.records ||| Part.clusters) s (execRelayComplete c id s) := by
  unfold execRelayComplete
  repeat' with_reducible first
      | apply Keeps.refl | assumption | (apply Part.named; decide)
      | apply Keeps.next
      | (extract_lets +onlyGivenNames x; first | (refine keepsLet (x := x) ?_ ?_; (on_goal 2 => (clear_value x; intro _)); (on_goal 1 => (unfold x; clear x))) | (refine keepsLetO (x := x) ?_ ?_; (on_goal 2 => (clear_value x; intro _)); (on_goal 1 => (unfold x; clear x))) | skip)
      | apply Keeps.via (report_keeps _ _ _ _ _)
      | apply Keeps.via (setRing_keeps _ _ _ _)
      | apply Keeps.via (modCluster_keeps _ _ _)
      | apply Keeps.ite
      | apply KeepsOut.ite
      | apply Keeps.foldl_via
      | intro _
      | split

theorem execHurdleOpApply_keeps (n : Fin 8192) (ops : List HurdleOp) (s : State) :
    KeepsOut (Part.regs ||| Part.records ||| Part.queues ||| Part.clusters ||| Part.scores ||| Part.hurdles ||| Part.coll) s (execHurdleOpApply n ops s) := by
  unfold execHurdleOpApply
  repeat' with_reducible first
      | apply Keeps.refl | assumption | (apply Part.named; decide)
      | apply Keeps.next
      | apply Keeps.via (hurdleCycle_keeps _ _ _)

theorem hdlCtrlWrite_keeps (n : Nat) (d : Word) (s : State) :
    Keeps (Part.regs ||| Part.log ||| Part.records ||| Part.queues ||| Part.clusters ||| Part.scores ||| Part.hurdles ||| Part.links ||| Part.coll) s (hdlCtrlWrite n d s) := by
  unfold hdlCtrlWrite
  repeat' with_reducible first
      | apply Keeps.refl | assumption | (apply Part.named; decide)
      | (extract_lets +onlyGivenNames x; first | (refine keepsLet (x := x) ?_ ?_; (on_goal 2 => (clear_value x; intro _)); (on_goal 1 => (unfold x; clear x))) | skip)
      | apply Keeps.via (hurdleCycle_keeps _ _ _)
      | apply Keeps.via (arrive_keeps _ _ _)
      | apply Keeps.via (mirror_keeps _ _ _ _ _ _)
      | apply Keeps.ite

theorem execHdlCtrlReset_keeps (n : Fin 8192) (d : BitVec 32) (s : State) :
    KeepsOut (Part.regs ||| Part.log ||| Part.records ||| Part.queues ||| Part.clusters ||| Part.scores ||| Part.hurdles ||| Part.links ||| Part.coll) s (execHdlCtrlReset n d s) := by
  unfold execHdlCtrlReset
  repeat' with_reducible first
      | apply Keeps.refl | assumption | (apply Part.named; decide)
      | apply Keeps.next
      | apply Keeps.via (hdlCtrlWrite_keeps _ _ _)
      | apply Keeps.ite
      | apply KeepsOut.ite

theorem execHdlCtrlArrive_keeps (n : Fin 8192) (d : BitVec 32) (s : State) :
    KeepsOut (Part.regs ||| Part.log ||| Part.records ||| Part.queues ||| Part.clusters ||| Part.scores ||| Part.hurdles ||| Part.links ||| Part.coll) s (execHdlCtrlArrive n d s) := by
  unfold execHdlCtrlArrive
  repeat' with_reducible first
      | apply Keeps.refl | assumption | (apply Part.named; decide)
      | apply Keeps.next
      | apply Keeps.via (hdlCtrlWrite_keeps _ _ _)
      | apply Keeps.ite
      | apply KeepsOut.ite

theorem execHurdlePacket_keeps (port : Fin 12) (s : State) :
    KeepsOut (Part.regs ||| Part.log ||| Part.records ||| Part.queues ||| Part.clusters ||| Part.scores ||| Part.hurdles ||| Part.links ||| Part.coll) s (execHurdlePacket port s) := by
  unfold execHurdlePacket
  repeat' with_reducible first
      | apply Keeps.refl | assumption | (apply Part.named; decide)
      | apply Keeps.next
      | (extract_lets +onlyGivenNames x; first | (refine keepsLet (x := x) ?_ ?_; (on_goal 2 => (clear_value x; intro _)); (on_goal 1 => (unfold x; clear x))) | (refine keepsLetO (x := x) ?_ ?_; (on_goal 2 => (clear_value x; intro _)); (on_goal 1 => (unfold x; clear x))) | skip)
      | apply Keeps.viaH (takeVc0_keeps _ _ _ _ ?_ ?_)
      | apply Keeps.via (hurdleCycle_keeps _ _ _)
      | apply Keeps.via (arrive_keeps _ _ _)
      | apply Keeps.via (mirror_keeps _ _ _ _ _ _)
      | apply Keeps.ite
      | apply KeepsOut.ite
      | intro _
      | split

end Sys2Proof.Machine
end

