-- ==== Sys2Proof/Laws/KeepJobs.lean ====
section
/-!
SUPPORT. What each operation and meaning of Machine/Jobs.lean keeps (Laws/Keep.lean).
-/
namespace Sys2Proof.Machine

theorem modJob_keeps (f id : Nat) (g : Job → Job) (s : State) : Keeps Part.jobs s (modJob f id g s) := by
  unfold modJob
  repeat' with_reducible first
      | apply Keeps.refl | assumption | (apply Part.named; decide)
      | apply Keeps.ite
      | fail_if_no_progress (apply Keeps.via (Keeps.putJobs _ _))

theorem modSched_keeps (f id : Nat) (g : Schedule → Schedule) (s : State) : Keeps Part.jobs s (modSched f id g s) := by
  unfold modSched
  repeat' with_reducible first
      | apply Keeps.refl | assumption | (apply Part.named; decide)
      | apply Keeps.ite
      | fail_if_no_progress (apply Keeps.via (Keeps.putScheds _ _))

theorem clearCores_keeps (c : Nat) (moved : Bool) (s : State) :
    Keeps (Part.clusters ||| Part.bases ||| Part.mcores ||| Part.vcores ||| Part.scores) s (clearCores c moved s) := by
  unfold clearCores
  repeat' with_reducible first
      | apply Keeps.refl | assumption | (apply Part.named; decide)
      | (extract_lets +onlyGivenNames x; first | (refine keepsLet (x := x) ?_ ?_; (on_goal 2 => (clear_value x; intro _)); (on_goal 1 => (unfold x; clear x))) | skip)
      | apply Keeps.via (freshCore_keeps _ _ _ _)
      | apply Keeps.via (setSx_keeps _ _ _ _ _)
      | apply Keeps.ite
      | apply Keeps.foldl_via
      | intro _
      | (fail_if_no_progress (apply Keeps.via (Keeps.rest (m := (Part.clusters ||| Part.bases ||| Part.mcores ||| Part.vcores ||| Part.scores)) ..)) <;> first | exact Or.inr rfl | exact Or.inl rfl | skip)
      | fail_if_no_progress (apply Keeps.via (Keeps.putMcores _ _))
      | fail_if_no_progress (apply Keeps.via (Keeps.putVruns _ _))
      | fail_if_no_progress (apply Keeps.via (Keeps.putSruns _ _))
      | fail_if_no_progress (apply Keeps.via (Keeps.putAbase _ _))
      | fail_if_no_progress (apply Keeps.via (Keeps.putAbtag _ _))

theorem stopCluster_keeps (c : Nat) (s : State) : Keeps (Part.clusters ||| Part.xfers ||| Part.atts ||| Part.hurdles) s (stopCluster c s) := by
  unfold stopCluster
  repeat' with_reducible first
      | apply Keeps.refl | assumption | (apply Part.named; decide)
      | (extract_lets +onlyGivenNames x; first | (refine keepsLet (x := x) ?_ ?_; (on_goal 2 => (clear_value x; intro _)); (on_goal 1 => (unfold x; clear x))) | skip)
      | apply Keeps.via (modAtt_keeps _ _ _)
      | apply Keeps.via (forgetWritten_keeps _ _)
      | apply Keeps.via (modCluster_keeps _ _ _)
      | apply Keeps.foldl_via
      | intro _
      | (fail_if_no_progress (apply Keeps.via (Keeps.rest (m := (Part.clusters ||| Part.xfers ||| Part.atts ||| Part.hurdles)) ..)) <;> first | exact Or.inr rfl | exact Or.inl rfl | skip)
      | fail_if_no_progress (apply Keeps.via (Keeps.putRunners _ _))
      | fail_if_no_progress (apply Keeps.via (Keeps.putHwaits _ _))
      | fail_if_no_progress (apply Keeps.via (Keeps.putXfers _ _))

theorem replyLaunch_keeps (j : Job) (s : State) : Keeps (Part.regs ||| Part.queues) s (replyLaunch j s) := by
  unfold replyLaunch
  repeat' with_reducible first
      | apply Keeps.refl | assumption | (apply Part.named; decide)
      | apply Keeps.via (finish_keeps _ _ _ _ _ _ _)
      | split

theorem endJob_keeps (j0 : Job) (g : RunFlags → RunFlags) (blot : Bool) (s : State) :
    Keeps (Part.regs ||| Part.memory ||| Part.log ||| Part.pace ||| Part.queues ||| Part.jobs ||| Part.clusters ||| Part.bases ||| Part.mcores ||| Part.vcores ||| Part.xfers ||| Part.atts ||| Part.hurdles ||| Part.links ||| Part.coll ||| Part.sup) s (endJob j0 g blot s) := by
  unfold endJob
  repeat' with_reducible first
      | apply Keeps.refl | assumption | (apply Part.named; decide)
      | (extract_lets +onlyGivenNames x; first | (refine keepsLet (x := x) ?_ ?_; (on_goal 2 => (clear_value x; intro _)); (on_goal 1 => (unfold x; clear x))) | skip)
      | apply Keeps.via (blotWritten_keeps _ _)
      | apply Keeps.via (stopCluster_keeps _ _)
      | apply Keeps.via (refence_keeps _)
      | apply Keeps.via (moveCores_keeps _ _)
      | apply Keeps.via (disarm_keeps _)
      | apply Keeps.via (modPace_keeps _ _)
      | apply Keeps.via (replyLaunch_keeps _ _)
      | apply Keeps.via (fail_keeps _ _ _ _)
      | apply Keeps.via (finish_keeps _ _ _ _ _ _ _)
      | apply Keeps.via (idleFences_keeps _)
      | apply Keeps.ite
      | apply Keeps.foldl_via
      | intro _
      | split
      | fail_if_no_progress (apply Keeps.via (Keeps.putJobs _ _))

theorem endJobs_keeps (p : Job → Bool) (g : Job → RunFlags → RunFlags) (blot : Bool) (s : State) :
    Keeps (Part.regs ||| Part.memory ||| Part.log ||| Part.pace ||| Part.queues ||| Part.jobs ||| Part.clusters ||| Part.bases ||| Part.mcores ||| Part.vcores ||| Part.xfers ||| Part.atts ||| Part.hurdles ||| Part.links ||| Part.coll ||| Part.sup) s (endJobs p g blot s) := by
  unfold endJobs
  repeat' with_reducible first
      | apply Keeps.refl | assumption | (apply Part.named; decide)
      | apply Keeps.via (endJob_keeps _ _ _ _)
      | apply Keeps.foldl_via
      | intro _

theorem lapMoves_keeps (j : Job) (s : State) :
    KeepsOpt (Part.regs ||| Part.memory ||| Part.jobs ||| Part.clusters ||| Part.bases ||| Part.mcores ||| Part.vcores ||| Part.scores ||| Part.xfers ||| Part.atts ||| Part.hurdles ||| Part.sup) (fun r => r) s (lapMoves j s) := by
  unfold lapMoves
  repeat' with_reducible first
      | apply Keeps.refl | assumption | (apply Part.named; decide)
      | apply KeepsOpt.some
      | (extract_lets +onlyGivenNames x; first | (refine keepsLet (x := x) ?_ ?_; (on_goal 2 => (clear_value x; intro _)); (on_goal 1 => (unfold x; clear x))) | skip)
      | apply Keeps.via (moveCores_keeps _ _)
      | apply Keeps.via (clearCores_keeps _ _ _)
      | apply Keeps.via (stopCluster_keeps _ _)
      | apply Keeps.via (setFences_keeps _ _)
      | apply Keeps.via (modSched_keeps _ _ _ _)
      | apply Keeps.ite
      | apply Keeps.foldl_via
      | apply KeepsOpt.mapAny
      | intro _
      | split

theorem settleLap_keeps (c : Nat) (s : State) : Keeps (Part.records ||| Part.clusters) s (settleLap c s) := by
  unfold settleLap
  repeat' with_reducible first
      | apply Keeps.refl | assumption | (apply Part.named; decide)
      | (extract_lets +onlyGivenNames x; first | (refine keepsLet (x := x) ?_ ?_; (on_goal 2 => (clear_value x; intro _)); (on_goal 1 => (unfold x; clear x))) | skip)
      | apply Keeps.via (report_keeps _ _ _ _ _)
      | apply Keeps.via (modCluster_keeps _ _ _)
      | apply Keeps.via (modRunner_keeps _ _ _)
      | apply Keeps.via (forgetWritten_keeps _ _)
      | apply Keeps.foldl_via
      | intro _
      | fail_if_no_progress (apply Keeps.via (Keeps.putRunners _ _))

theorem lapResets_keeps (j : Job) (s : State) :
    Keeps (Part.regs ||| Part.records ||| Part.queues ||| Part.clusters ||| Part.scores ||| Part.hurdles ||| Part.coll) s (lapResets j s) := by
  unfold lapResets
  repeat' with_reducible first
      | apply Keeps.refl | assumption | (apply Part.named; decide)
      | apply Keeps.via (hurdleCycle_keeps _ _ _)
      | apply Keeps.ite
      | apply Keeps.foldl_via
      | intro _

theorem lapTrace_keeps (c lap : Nat) (s : State) : Keeps (Part.regs ||| Part.clusters ||| Part.hub) s (lapTrace c lap s) := by
  unfold lapTrace
  repeat' with_reducible first
      | apply Keeps.refl | assumption | (apply Part.named; decide)
      | (extract_lets +onlyGivenNames x; first | (refine keepsLet (x := x) ?_ ?_; (on_goal 2 => (clear_value x; intro _)); (on_goal 1 => (unfold x; clear x))) | skip)
      | apply Keeps.via (modHub_keeps _ _)
      | apply Keeps.via (setReg_keeps _ _ _)
      | apply Keeps.via (modCluster_keeps _ _ _)
      | split

theorem beginRunners_keeps (x : Schedule) (p : Nat) (s : State) : Keeps Part.clusters s (beginRunners x p s) := by
  unfold beginRunners
  repeat' with_reducible first
      | apply Keeps.refl | assumption | (apply Part.named; decide)
      | apply Keeps.via (modRunner_keeps _ _ _)
      | apply Keeps.foldl_via
      | intro _
      | apply Keeps.ite

theorem startLap_keeps (j0 : Job) (s : State) : Keeps (Part.regs ||| Part.memory ||| Part.log ||| Part.records ||| Part.pace ||| Part.queues ||| Part.jobs ||| Part.clusters ||| Part.bases ||| Part.mcores ||| Part.vcores ||| Part.scores ||| Part.xfers ||| Part.atts ||| Part.hurdles ||| Part.hub ||| Part.links ||| Part.coll ||| Part.sup) s (startLap j0 s) := by
  unfold startLap
  repeat' with_reducible first
      | apply Keeps.refl | assumption | (apply Part.named; decide)
      | (extract_lets +onlyGivenNames x; first | (refine keepsLet (x := x) ?_ ?_; (on_goal 2 => (clear_value x; intro _)); (on_goal 1 => (unfold x; clear x))) | skip)
      | (apply KeepsOpt.get (lapMoves_keeps _ _); on_goal 1 => assumption)
      | apply Keeps.via (endJob_keeps _ _ _ _)
      | apply Keeps.via (lapResets_keeps _ _)
      | apply Keeps.via (lapTrace_keeps _ _ _)
      | apply Keeps.via (settleLap_keeps _ _)
      | apply Keeps.via (modCluster_keeps _ _ _)
      | apply Keeps.via (beginRunners_keeps _ _ _)
      | apply Keeps.via (modJob_keeps _ _ _ _)
      | apply Keeps.via (modPace_keeps _ _)
      | apply Keeps.ite
      | apply Keeps.foldl_via
      | intro _
      | split

theorem keepSlack_keeps (o : Nat) (lapReg : Option Nat) (slack : Int) (lap : Nat) (s : State) :
    Keeps Part.regs s (keepSlack o lapReg slack lap s) := by
  unfold keepSlack
  repeat' with_reducible first
      | apply Keeps.refl | assumption | (apply Part.named; decide)
      | (extract_lets +onlyGivenNames x; first | (refine keepsLet (x := x) ?_ ?_; (on_goal 2 => (clear_value x; intro _)); (on_goal 1 => (unfold x; clear x))) | skip)
      | apply Keeps.via (setReg_keeps _ _ _)
      | apply Keeps.ite
      | split

theorem noteSlack_keeps (due : Option Nat) (o : Nat) (lapReg : Option Nat) (doneAt lap : Nat) (s : State) : Keeps (Part.regs ||| Part.pace) s (noteSlack due o lapReg doneAt lap s) := by
  unfold noteSlack
  repeat' with_reducible first
      | apply Keeps.refl | assumption | (apply Part.named; decide)
      | apply Keeps.via (keepSlack_keeps _ _ _ _ _)
      | apply Keeps.via (modPace_keeps _ _)
      | split

theorem clusterLapDone_keeps (due : Option Nat) (lap c : Nat) (s : State) : Keeps (Part.regs ||| Part.pace) s (clusterLapDone due lap c s) := by
  unfold clusterLapDone
  repeat' with_reducible first
      | apply Keeps.refl | assumption | (apply Part.named; decide)
      | (extract_lets +onlyGivenNames x; first | (refine keepsLet (x := x) ?_ ?_; (on_goal 2 => (clear_value x; intro _)); (on_goal 1 => (unfold x; clear x))) | skip)
      | apply Keeps.via (addReg_keeps _ _ _)
      | apply Keeps.via (keepSlack_keeps _ _ _ _ _)
      | apply Keeps.via (noteSlack_keeps _ _ _ _ _ _)

theorem execLapDone_keeps (job t : Nat) (s : State) :
    KeepsOut (Part.regs ||| Part.memory ||| Part.time ||| Part.log ||| Part.pace ||| Part.queues ||| Part.jobs ||| Part.clusters ||| Part.bases ||| Part.mcores ||| Part.vcores ||| Part.xfers ||| Part.atts ||| Part.hurdles ||| Part.links ||| Part.coll ||| Part.sup) s (execLapDone job t s) := by
  unfold execLapDone
  repeat' with_reducible first
      | apply Keeps.refl | assumption | (apply Part.named; decide)
      | apply Keeps.next
      | (extract_lets +onlyGivenNames x; first | (refine keepsLet (x := x) ?_ ?_; (on_goal 2 => (clear_value x; intro _)); (on_goal 1 => (unfold x; clear x))) | (refine keepsLetO (x := x) ?_ ?_; (on_goal 2 => (clear_value x; intro _)); (on_goal 1 => (unfold x; clear x))) | skip)
      | apply Keeps.via (clusterLapDone_keeps _ _ _ _)
      | apply Keeps.via (keepSlack_keeps _ _ _ _ _)
      | apply Keeps.via (modCluster_keeps _ _ _)
      | apply Keeps.via (replyLaunch_keeps _ _)
      | apply Keeps.via (modJob_keeps _ _ _ _)
      | apply Keeps.via (endJob_keeps _ _ _ _)
      | apply Keeps.via (noteSlack_keeps _ _ _ _ _ _)
      | apply Keeps.ite
      | apply KeepsOut.ite
      | apply Keeps.foldl_via
      | apply Keeps.via (Keeps.later _ _)
      | intro _
      | split

theorem placeSchedule_keeps (f : Nat) (x : Schedule) (datas : List (Nat × List Byte)) (s : State) :
    Keeps (Part.regs ||| Part.memory ||| Part.records ||| Part.stacks) s (placeSchedule f x datas s).s := by
  unfold placeSchedule
  repeat' with_reducible first
      | apply Keeps.refl | assumption | (apply Part.named; decide)
      | (extract_lets +onlyGivenNames x; first | (refine keepsLet (x := x) ?_ ?_; (on_goal 2 => (clear_value x; intro _)); (on_goal 1 => (unfold x; clear x))) | skip)
      | apply Keeps.via (writeSpan_keeps _ _ _ _ _)
      | (apply keepsEq (fun r => r.s) (writeSpan_keeps _ _ _ _ _); on_goal 1 => assumption)
      | apply Keeps.via (Wrote.start_keeps _)
      | (apply keepsEq (fun r => r.s) (Wrote.start_keeps _); on_goal 1 => assumption)
      | apply Keeps.via (Wrote.start_keeps _)
      | apply Keeps.foldlW_via
      | intro _

theorem execLoadSchedule_keeps (h : CmdHdr) (image len : Nat) (s : State) :
    KeepsOut (Part.regs ||| Part.memory ||| Part.frees ||| Part.records ||| Part.queues ||| Part.jobs ||| Part.towers ||| Part.stacks ||| Part.hub) s (execLoadSchedule h image len s) := by
  unfold execLoadSchedule
  repeat' with_reducible first
      | apply Keeps.refl | assumption | (apply Part.named; decide)
      | apply Keeps.next
      | (extract_lets +onlyGivenNames x; first | (refine keepsLet (x := x) ?_ ?_; (on_goal 2 => (clear_value x; intro _)); (on_goal 1 => (unfold x; clear x))) | (refine keepsLetO (x := x) ?_ ?_; (on_goal 2 => (clear_value x; intro _)); (on_goal 1 => (unfold x; clear x))) | skip)
      | apply KeepsOut.viaH (runOp_keeps _ _ _ _ _ ?_ ?_)
      | apply Keeps.via (readT_keeps _ _ _ _ _)
      | (apply keepsEq (fun r => r.s) (readT_keeps _ _ _ _ _); on_goal 1 => assumption)
      | apply Keeps.via (fail_keeps _ _ _ _)
      | apply Keeps.via (bumpFree_keeps _)
      | apply Keeps.via (placeSchedule_keeps _ _ _ _)
      | (apply keepsEq (fun r => r.s) (placeSchedule_keeps _ _ _ _); on_goal 1 => assumption)
      | apply Keeps.via (finish_keeps _ _ _ _ _ _ _)
      | apply Keeps.ite
      | apply KeepsOut.ite
      | intro _
      | split
      | fail_if_no_progress (apply Keeps.via (Keeps.putScheds _ _))

theorem execUnloadSchedule_keeps (h : CmdHdr) (sched : Nat) (s : State) :
    KeepsOut (Part.regs ||| Part.queues ||| Part.jobs ||| Part.clusters ||| Part.bases ||| Part.mcores ||| Part.vcores) s (execUnloadSchedule h sched s) := by
  unfold execUnloadSchedule
  repeat' with_reducible first
      | apply Keeps.refl | assumption | (apply Part.named; decide)
      | apply Keeps.next
      | (extract_lets +onlyGivenNames x; first | (refine keepsLet (x := x) ?_ ?_; (on_goal 2 => (clear_value x; intro _)); (on_goal 1 => (unfold x; clear x))) | (refine keepsLetO (x := x) ?_ ?_; (on_goal 2 => (clear_value x; intro _)); (on_goal 1 => (unfold x; clear x))) | skip)
      | apply KeepsOut.viaH (runOp_keeps _ _ _ _ _ ?_ ?_)
      | apply Keeps.via (fail_keeps _ _ _ _)
      | apply Keeps.via (moveCores_keeps _ _)
      | apply Keeps.ite
      | apply KeepsOut.ite
      | apply Keeps.foldl_via
      | intro _
      | split
      | fail_if_no_progress (apply Keeps.via (Keeps.putScheds _ _))

theorem applyInits_keeps (f : Nat) (l : List HurdleInit) (s : State) :
    Keeps (Part.regs ||| Part.records ||| Part.queues ||| Part.clusters ||| Part.scores ||| Part.hurdles ||| Part.coll) s (applyInits f l s) := by
  unfold applyInits
  repeat' with_reducible first
      | apply Keeps.refl | assumption | (apply Part.named; decide)
      | apply Keeps.via (hurdleCycle_keeps _ _ _)
      | apply Keeps.foldl_via
      | intro _
      | split

theorem execStartJob_keeps (h : CmdHdr) (sched laps mode kind : Nat) (s : State) :
    KeepsOut (Part.regs ||| Part.memory ||| Part.log ||| Part.records ||| Part.pace ||| Part.queues ||| Part.jobs ||| Part.clusters ||| Part.bases ||| Part.mcores ||| Part.vcores ||| Part.scores ||| Part.xfers ||| Part.atts ||| Part.hurdles ||| Part.links ||| Part.coll ||| Part.sup) s (execStartJob h sched laps mode kind s) := by
  unfold execStartJob
  repeat' with_reducible first
      | apply Keeps.refl | assumption | (apply Part.named; decide)
      | apply Keeps.next
      | (extract_lets +onlyGivenNames x; first | (refine keepsLet (x := x) ?_ ?_; (on_goal 2 => (clear_value x; intro _)); (on_goal 1 => (unfold x; clear x))) | (refine keepsLetO (x := x) ?_ ?_; (on_goal 2 => (clear_value x; intro _)); (on_goal 1 => (unfold x; clear x))) | skip)
      | apply KeepsOut.viaH (runOp_keeps _ _ _ _ _ ?_ ?_)
      | apply Keeps.via (fail_keeps _ _ _ _)
      | apply Keeps.via (modSched_keeps _ _ _ _)
      | apply Keeps.via (applyInits_keeps _ _ _)
      | apply Keeps.via (armCollectives_keeps _ _ _)
      | apply Keeps.via (setFences_keeps _ _)
      | apply Keeps.via (clearCores_keeps _ _ _)
      | apply Keeps.via (stopCluster_keeps _ _)
      | apply Keeps.via (endJob_keeps _ _ _ _)
      | apply Keeps.ite
      | apply KeepsOut.ite
      | apply Keeps.foldl_via
      | intro _
      | split
      | fail_if_no_progress (apply Keeps.via (Keeps.putJobs _ _))

theorem execLaunchLap_keeps (h : CmdHdr) (sched count : Nat) (s : State) :
    KeepsOut (Part.regs ||| Part.queues ||| Part.jobs) s (execLaunchLap h sched count s) := by
  unfold execLaunchLap
  repeat' with_reducible first
      | apply Keeps.refl | assumption | (apply Part.named; decide)
      | apply Keeps.next
      | (extract_lets +onlyGivenNames x; first | (refine keepsLet (x := x) ?_ ?_; (on_goal 2 => (clear_value x; intro _)); (on_goal 1 => (unfold x; clear x))) | (refine keepsLetO (x := x) ?_ ?_; (on_goal 2 => (clear_value x; intro _)); (on_goal 1 => (unfold x; clear x))) | skip)
      | apply KeepsOut.viaH (runOp_keeps _ _ _ _ _ ?_ ?_)
      | apply Keeps.via (fail_keeps _ _ _ _)
      | apply Keeps.via (finish_keeps _ _ _ _ _ _ _)
      | apply Keeps.via (modJob_keeps _ _ _ _)
      | apply Keeps.ite
      | apply KeepsOut.ite
      | intro _
      | split

theorem execStopJob_keeps (h : CmdHdr) (sched : Nat) (s : State) :
    KeepsOut (Part.regs ||| Part.memory ||| Part.log ||| Part.pace ||| Part.queues ||| Part.jobs ||| Part.clusters ||| Part.bases ||| Part.mcores ||| Part.vcores ||| Part.xfers ||| Part.atts ||| Part.hurdles ||| Part.links ||| Part.coll ||| Part.sup) s (execStopJob h sched s) := by
  unfold execStopJob
  repeat' with_reducible first
      | apply Keeps.refl | assumption | (apply Part.named; decide)
      | apply Keeps.next
      | (extract_lets +onlyGivenNames x; first | (refine keepsLet (x := x) ?_ ?_; (on_goal 2 => (clear_value x; intro _)); (on_goal 1 => (unfold x; clear x))) | (refine keepsLetO (x := x) ?_ ?_; (on_goal 2 => (clear_value x; intro _)); (on_goal 1 => (unfold x; clear x))) | skip)
      | apply KeepsOut.viaH (runOp_keeps _ _ _ _ _ ?_ ?_)
      | apply Keeps.via (fail_keeps _ _ _ _)
      | apply Keeps.via (modJob_keeps _ _ _ _)
      | apply Keeps.via (endJob_keeps _ _ _ _)
      | apply Keeps.ite
      | apply KeepsOut.ite
      | intro _
      | split

theorem execHaltAtLap_keeps (h : CmdHdr) (sched lap : Nat) (s : State) :
    KeepsOut (Part.regs ||| Part.queues ||| Part.jobs) s (execHaltAtLap h sched lap s) := by
  unfold execHaltAtLap
  repeat' with_reducible first
      | apply Keeps.refl | assumption | (apply Part.named; decide)
      | apply Keeps.next
      | (extract_lets +onlyGivenNames x; first | (refine keepsLet (x := x) ?_ ?_; (on_goal 2 => (clear_value x; intro _)); (on_goal 1 => (unfold x; clear x))) | (refine keepsLetO (x := x) ?_ ?_; (on_goal 2 => (clear_value x; intro _)); (on_goal 1 => (unfold x; clear x))) | (have y : Option _ := x; clear y; clear_value (h : x = _)))
      | apply KeepsOut.viaH (runOp_keeps _ _ _ _ _ ?_ ?_)
      | apply Keeps.via (fail_keeps _ _ _ _)
      | apply Keeps.via (modJob_keeps _ _ _ _)
      | apply Keeps.via (modSched_keeps _ _ _ _)
      | apply Keeps.via (finish_keeps _ _ _ _ _ _ _)
      | apply Keeps.ite
      | apply KeepsOut.ite
      | intro _
      | split

end Sys2Proof.Machine
end

