-- ==== Sys2Proof/Laws/KeepPeers.lean ====
section
/-!
SUPPORT. What each operation and meaning of Machine/Peers.lean keeps (Laws/Keep.lean).
-/
namespace Sys2Proof.Machine

theorem setFollower_keeps (p : Option Nat) (s : State) : Keeps Part.regs s (setFollower p s) := by
  unfold setFollower
  repeat' with_reducible first
      | apply Keeps.refl | assumption | (apply Part.named; decide)
      | (extract_lets +onlyGivenNames x; first | (refine keepsLet (x := x) ?_ ?_; (on_goal 2 => (clear_value x; intro _)); (on_goal 1 => (unfold x; clear x))) | skip)
      | apply Keeps.via (setB_keeps _ _ _ _)
      | apply Keeps.via (setF_keeps _ _ _ _ _)
      | apply Keeps.foldl_via
      | intro _

theorem followOffer_keeps (put : Nat → Nat → Bool → State → State) (own : Nat) (s : State) (y0 : Option (Nat × Nat × Nat)) {m : Nat} (hm : (Part.regs ||| Part.log ||| Part.links) ||| m = m) (hput : ∀ x0 x1 x2 x3, Keeps m x3 (put x0 x1 x2 x3)) :
    Keeps m s (followOffer put own s y0) := by
  unfold followOffer
  repeat' with_reducible first
      | apply Keeps.refl | assumption | (apply Part.named; decide) | exact Part.sub hm (by decide)
      | (extract_lets +onlyGivenNames x; first | (refine keepsLet (x := x) ?_ ?_; (on_goal 2 => (clear_value x; intro _)); (on_goal 1 => (unfold x; clear x))) | skip)
      | apply Keeps.via (setFollower_keeps _ _)
      | apply Keeps.via (sendPort_keeps _ _ _)
      | apply Keeps.via (modPort_keeps _ _ _)
      | apply Keeps.viaH (hput _ _ _ _)
      | apply Keeps.ite
      | split

theorem updateTree_keeps (s : State) : Keeps (Part.regs ||| Part.log ||| Part.links) s (updateTree s) := by
  unfold updateTree
  repeat' with_reducible first
      | apply Keeps.refl | assumption | (apply Part.named; decide)
      | (extract_lets +onlyGivenNames x; first | (refine keepsLet (x := x) ?_ ?_; (on_goal 2 => (clear_value x; intro _)); (on_goal 1 => (unfold x; clear x))) | skip)
      | apply Keeps.viaH (followOffer_keeps _ _ _ _ ?_ ?_)
      | apply Keeps.via (setB_keeps _ _ _ _)
      | apply Keeps.via (setF_keeps _ _ _ _ _)
      | intro _

theorem followAgain_keeps (p c : Nat) (s : State) : Keeps Part.regs s (followAgain p c s) := by
  unfold followAgain
  repeat' with_reducible first
      | apply Keeps.refl | assumption | (apply Part.named; decide)
      | apply Keeps.via (setFollower_keeps _ _)
      | apply Keeps.ite

theorem execTopo_keeps (port : Fin 12) (s : State) : KeepsOut (Part.regs ||| Part.log ||| Part.links) s (execTopo port s) := by
  unfold execTopo
  repeat' with_reducible first
      | apply Keeps.refl | assumption | (apply Part.named; decide)
      | apply Keeps.next
      | apply Keeps.viaH (takeVc0_keeps _ _ _ _ ?_ ?_)
      | apply Keeps.via (updateTree_keeps _)
      | apply Keeps.via (modPort_keeps _ _ _)
      | intro _
      | split

theorem sendTopo_keeps (s : State) : Keeps (Part.regs ||| Part.log ||| Part.links) s (sendTopo s) := by
  unfold sendTopo
  repeat' with_reducible first
      | apply Keeps.refl | assumption | (apply Part.named; decide)
      | (extract_lets +onlyGivenNames x; first | (refine keepsLet (x := x) ?_ ?_; (on_goal 2 => (clear_value x; intro _)); (on_goal 1 => (unfold x; clear x))) | skip)
      | apply Keeps.via (sendPort_keeps _ _ _)
      | apply Keeps.foldl_via
      | intro _

theorem execRoleReq_keeps (port : Fin 12) (s : State) : KeepsOut (Part.regs ||| Part.log ||| Part.links) s (execRoleReq port s) := by
  unfold execRoleReq
  repeat' with_reducible first
      | apply Keeps.refl | assumption | (apply Part.named; decide)
      | apply Keeps.next
      | apply Keeps.viaH (takeVc0_keeps _ _ _ _ ?_ ?_)
      | apply Keeps.via (sendPort_keeps _ _ _)
      | apply Keeps.ite
      | apply KeepsOut.ite
      | intro _

theorem execRoleGrant_keeps (port : Fin 12) (s : State) : KeepsOut (Part.regs ||| Part.log ||| Part.links) s (execRoleGrant port s) := by
  unfold execRoleGrant
  repeat' with_reducible first
      | apply Keeps.refl | assumption | (apply Part.named; decide)
      | apply Keeps.next
      | (extract_lets +onlyGivenNames x; first | (refine keepsLet (x := x) ?_ ?_; (on_goal 2 => (clear_value x; intro _)); (on_goal 1 => (unfold x; clear x))) | (refine keepsLetO (x := x) ?_ ?_; (on_goal 2 => (clear_value x; intro _)); (on_goal 1 => (unfold x; clear x))) | skip)
      | apply Keeps.viaH (takeVc0_keeps _ _ _ _ ?_ ?_)
      | apply Keeps.via (modPort_keeps _ _ _)
      | apply Keeps.via (setFollower_keeps _ _)
      | apply Keeps.ite
      | apply KeepsOut.ite
      | intro _

theorem execRoleCancel_keeps (port : Fin 12) (s : State) :
    KeepsOut (Part.regs ||| Part.log ||| Part.records ||| Part.links) s (execRoleCancel port s) := by
  unfold execRoleCancel
  repeat' with_reducible first
      | apply Keeps.refl | assumption | (apply Part.named; decide)
      | apply Keeps.next
      | apply Keeps.viaH (takeVc0_keeps _ _ _ _ ?_ ?_)
      | apply Keeps.via (report_keeps _ _ _ _ _)
      | apply Keeps.via (addReg_keeps _ _ _)
      | apply Keeps.via (modPort_keeps _ _ _)
      | intro _

theorem releaseSystemWaits_keeps (s : State) :
    Keeps (Part.regs ||| Part.queues ||| Part.clusters ||| Part.scores ||| Part.hurdles) s (releaseSystemWaits s) := by
  unfold releaseSystemWaits
  repeat' with_reducible first
      | apply Keeps.refl | assumption | (apply Part.named; decide)
      | (extract_lets +onlyGivenNames x; first | (refine keepsLet (x := x) ?_ ?_; (on_goal 2 => (clear_value x; intro _)); (on_goal 1 => (unfold x; clear x))) | skip)
      | apply Keeps.via (fail_keeps _ _ _ _)
      | apply Keeps.via (completeWait_keeps _ _ _)
      | apply Keeps.via (modRunner_keeps _ _ _)
      | apply Keeps.foldl_via
      | intro _
      | split
      | fail_if_no_progress (apply Keeps.via (Keeps.putHwaits _ _))

theorem releaseCommandWaits_keeps (s : State) : Keeps Part.queues s (releaseCommandWaits s) := by
  unfold releaseCommandWaits
  repeat' with_reducible first
      | apply Keeps.refl | assumption | (apply Part.named; decide)
      | (extract_lets +onlyGivenNames x; first | (refine keepsLet (x := x) ?_ ?_; (on_goal 2 => (clear_value x; intro _)); (on_goal 1 => (unfold x; clear x))) | skip)
      | apply Keeps.via (modScribe_keeps _ _)
      | apply Keeps.via (startCmd_keeps _ _)
      | apply Keeps.foldl_via
      | intro _

theorem learnDeparture_keeps (coord : Nat) (via : List Nat) (from_ : Option Nat) (s : State) : Keeps (Part.regs ||| Part.memory ||| Part.log ||| Part.records ||| Part.queues ||| Part.jobs ||| Part.clusters ||| Part.scores ||| Part.hurdles ||| Part.stacks ||| Part.links ||| Part.coll) s (learnDeparture coord via from_ s) := by
  unfold learnDeparture
  repeat' with_reducible first
      | apply Keeps.refl | assumption | (apply Part.named; decide)
      | (extract_lets +onlyGivenNames x; first | (refine keepsLet (x := x) ?_ ?_; (on_goal 2 => (clear_value x; intro _)); (on_goal 1 => (unfold x; clear x))) | skip)
      | apply Keeps.via (report_keeps _ _ _ _ _)
      | apply Keeps.via (addReg_keeps _ _ _)
      | apply Keeps.via (sendAll_keeps _ _ _)
      | apply Keeps.via (releaseCommandWaits_keeps _)
      | apply Keeps.via (releaseSystemWaits_keeps _)
      | apply Keeps.via (forceFirings_keeps _)
      | apply Keeps.via (busError_keeps _ _ _)
      | apply Keeps.via (updateTree_keeps _)
      | apply Keeps.ite
      | apply Keeps.foldl_via
      | intro _
      | fail_if_no_progress (apply Keeps.via (Keeps.putJobs _ _))
      | fail_if_no_progress (apply Keeps.via (Keeps.putLinks _ _))
      | fail_if_no_progress (apply Keeps.via (Keeps.putPorts _ _))

theorem execPeerLost_keeps (port : Fin 12) (s : State) :
    KeepsOut (Part.regs ||| Part.memory ||| Part.log ||| Part.records ||| Part.queues ||| Part.jobs ||| Part.clusters ||| Part.scores ||| Part.hurdles ||| Part.stacks ||| Part.links ||| Part.coll) s (execPeerLost port s) := by
  unfold execPeerLost
  repeat' with_reducible first
      | apply Keeps.refl | assumption | (apply Part.named; decide)
      | apply Keeps.next
      | apply Keeps.viaH (takeVc0_keeps _ _ _ _ ?_ ?_)
      | apply Keeps.via (learnDeparture_keeps _ _ _ _)
      | intro _
      | split

theorem becomeAligned_keeps (s : State) : Keeps (Part.regs ||| Part.links) s (becomeAligned s) := by
  unfold becomeAligned
  repeat' with_reducible first
      | apply Keeps.refl | assumption | (apply Part.named; decide)
      | (extract_lets +onlyGivenNames x; first | (refine keepsLet (x := x) ?_ ?_; (on_goal 2 => (clear_value x; intro _)); (on_goal 1 => (unfold x; clear x))) | skip)
      | apply Keeps.via (setB_keeps _ _ _ _)
      | apply Keeps.via (setF_keeps _ _ _ _ _)
      | apply Keeps.via (setReg_keeps _ _ _)
      | split
      | fail_if_no_progress (apply Keeps.via (Keeps.putLinks _ _))

theorem alignStep_keeps (good : Bool) (s : State) : Keeps (Part.regs ||| Part.links) s (alignStep good s) := by
  unfold alignStep
  repeat' with_reducible first
      | apply Keeps.refl | assumption | (apply Part.named; decide)
      | (extract_lets +onlyGivenNames x; first | (refine keepsLet (x := x) ?_ ?_; (on_goal 2 => (clear_value x; intro _)); (on_goal 1 => (unfold x; clear x))) | skip)
      | apply Keeps.via (becomeAligned_keeps _)
      | apply Keeps.ite
      | fail_if_no_progress (apply Keeps.via (Keeps.putLinks _ _))

theorem execTickMarker_keeps (port : Fin 12) (phase : Int) (s : State) : KeepsOut (Part.regs ||| Part.links) s (execTickMarker port phase s) := by
  unfold execTickMarker
  repeat' with_reducible first
      | apply Keeps.refl | assumption | (apply Part.named; decide)
      | apply Keeps.next
      | (extract_lets +onlyGivenNames x; first | (refine keepsLet (x := x) ?_ ?_; (on_goal 2 => (clear_value x; intro _)); (on_goal 1 => (unfold x; clear x))) | (refine keepsLetO (x := x) ?_ ?_; (on_goal 2 => (clear_value x; intro _)); (on_goal 1 => (unfold x; clear x))) | skip)
      | apply Keeps.via (setReg_keeps _ _ _)
      | apply Keeps.via (setB_keeps _ _ _ _)
      | apply Keeps.via (alignStep_keeps _ _)
      | apply Keeps.ite
      | apply KeepsOut.ite
      | fail_if_no_progress (apply Keeps.via (Keeps.putLinks _ _))

theorem execMarkerMissing_keeps (s : State) : KeepsOut (Part.regs ||| Part.links) s (execMarkerMissing s) := by
  unfold execMarkerMissing
  repeat' with_reducible first
      | apply Keeps.refl | assumption | (apply Part.named; decide)
      | apply Keeps.next
      | (extract_lets +onlyGivenNames x; first | (refine keepsLet (x := x) ?_ ?_; (on_goal 2 => (clear_value x; intro _)); (on_goal 1 => (unfold x; clear x))) | (refine keepsLetO (x := x) ?_ ?_; (on_goal 2 => (clear_value x; intro _)); (on_goal 1 => (unfold x; clear x))) | skip)
      | apply Keeps.via (setB_keeps _ _ _ _)
      | apply Keeps.ite
      | apply KeepsOut.ite
      | fail_if_no_progress (apply Keeps.via (Keeps.putLinks _ _))

end Sys2Proof.Machine
end

