-- ==== Sys2Proof/Laws/KeepPorts.lean ====
section
/-!
SUPPORT. What each operation and meaning of Machine/Ports.lean keeps (Laws/Keep.lean).
-/
namespace Sys2Proof.Machine

theorem setPortState_keeps (p st : Nat) (s : State) : Keeps Part.regs s (setPortState p st s) := by
  unfold setPortState
  repeat' with_reducible first
      | apply Keeps.refl | assumption | (apply Part.named; decide)
      | apply Keeps.via (setF_keeps _ _ _ _ _)

theorem portFailed_keeps (p st : Nat) (s : State) :
    Keeps (Part.regs ||| Part.records ||| Part.queues ||| Part.links) s (portFailed p st s) := by
  unfold portFailed
  repeat' with_reducible first
      | apply Keeps.refl | assumption | (apply Part.named; decide)
      | (extract_lets +onlyGivenNames x; first | (refine keepsLet (x := x) ?_ ?_; (on_goal 2 => (clear_value x; intro _)); (on_goal 1 => (unfold x; clear x))) | skip)
      | apply Keeps.via (report_keeps _ _ _ _ _)
      | apply Keeps.via (setPortState_keeps _ _ _)
      | apply Keeps.via (fail_keeps _ _ _ _)
      | apply Keeps.via (modPort_keeps _ _ _)
      | split

theorem returnEqualize_keeps (p : Nat) (s : State) : Keeps (Part.regs ||| Part.records ||| Part.queues ||| Part.links) s (returnEqualize p s) := by
  unfold returnEqualize
  repeat' with_reducible first
      | apply Keeps.refl | assumption | (apply Part.named; decide)
      | (extract_lets +onlyGivenNames x; first | (refine keepsLet (x := x) ?_ ?_; (on_goal 2 => (clear_value x; intro _)); (on_goal 1 => (unfold x; clear x))) | skip)
      | apply Keeps.via (modPort_keeps _ _ _)
      | apply Keeps.via (portFailed_keeps _ _ _)
      | apply Keeps.via (setPortState_keeps _ _ _)
      | apply Keeps.ite

theorem moveTraffic_keeps (p c : Nat) (s : State) :
    Keeps (Part.regs ||| Part.memory ||| Part.log ||| Part.records ||| Part.queues ||| Part.jobs ||| Part.clusters ||| Part.scores ||| Part.hurdles ||| Part.stacks ||| Part.links ||| Part.coll) s (moveTraffic p c s) := by
  unfold moveTraffic
  repeat' with_reducible first
      | apply Keeps.refl | assumption | (apply Part.named; decide)
      | (extract_lets +onlyGivenNames x; first | (refine keepsLet (x := x) ?_ ?_; (on_goal 2 => (clear_value x; intro _)); (on_goal 1 => (unfold x; clear x))) | skip)
      | apply Keeps.via (modPort_keeps _ _ _)
      | apply Keeps.via (learnDeparture_keeps _ _ _ _)
      | apply Keeps.via (sendOn_keeps _ _ _)
      | apply Keeps.via (addReg_keeps _ _ _)
      | apply Keeps.foldl_via
      | intro _
      | split

theorem leaveService_keeps (p : Nat) (next : State → State) (s : State) {m : Nat} (hm : (Part.regs ||| Part.memory ||| Part.log ||| Part.records ||| Part.queues ||| Part.jobs ||| Part.clusters ||| Part.scores ||| Part.hurdles ||| Part.stacks ||| Part.links ||| Part.coll) ||| m = m) (hnext : ∀ x0, Keeps m x0 (next x0)) :
    Keeps m s (leaveService p next s) := by
  unfold leaveService
  repeat' with_reducible first
      | apply Keeps.refl | assumption | (apply Part.named; decide) | exact Part.sub hm (by decide)
      | (extract_lets +onlyGivenNames x; first | (refine keepsLet (x := x) ?_ ?_; (on_goal 2 => (clear_value x; intro _)); (on_goal 1 => (unfold x; clear x))) | (have y : Option _ := x; clear y; clear_value (h : x = _)))
      | apply Keeps.via (setB_keeps _ _ _ _)
      | apply Keeps.via (moveTraffic_keeps _ _ _)
      | apply Keeps.via (followAgain_keeps _ _ _)
      | apply Keeps.via (markDesignated_keeps _)
      | apply Keeps.viaH (hnext _)
      | apply Keeps.ite
      | split

theorem countRetrain_keeps (p : Nat) (s : State) : Keeps (Part.regs ||| Part.hub) s (countRetrain p s) := by
  unfold countRetrain
  repeat' with_reducible first
      | apply Keeps.refl | assumption | (apply Part.named; decide)
      | apply Keeps.via (setF_keeps _ _ _ _ _)
      | apply Keeps.via (modHub_keeps _ _)

theorem retrain_keeps (p : Nat) (s : State) :
    Keeps (Part.regs ||| Part.memory ||| Part.log ||| Part.records ||| Part.queues ||| Part.jobs ||| Part.clusters ||| Part.scores ||| Part.hurdles ||| Part.stacks ||| Part.hub ||| Part.links ||| Part.coll) s (retrain p s) := by
  unfold retrain
  repeat' with_reducible first
      | apply Keeps.refl | assumption | (apply Part.named; decide)
      | (extract_lets +onlyGivenNames x; first | (refine keepsLet (x := x) ?_ ?_; (on_goal 2 => (clear_value x; intro _)); (on_goal 1 => (unfold x; clear x))) | skip)
      | apply Keeps.via (setPortState_keeps _ _ _)
      | apply Keeps.via (countRetrain_keeps _ _)
      | apply Keeps.via (modPort_keeps _ _ _)
      | apply Keeps.viaH (leaveService_keeps _ _ _ ?_ ?_)
      | apply Keeps.ite
      | intro _

theorem breakPort_keeps (p : Nat) (s : State) :
    Keeps (Part.regs ||| Part.memory ||| Part.log ||| Part.records ||| Part.queues ||| Part.jobs ||| Part.clusters ||| Part.scores ||| Part.hurdles ||| Part.stacks ||| Part.hub ||| Part.links ||| Part.coll) s (breakPort p s) := by
  unfold breakPort
  repeat' with_reducible first
      | apply Keeps.refl | assumption | (apply Part.named; decide)
      | apply Keeps.viaH (leaveService_keeps _ _ _ ?_ ?_)
      | apply Keeps.via (returnEqualize_keeps _ _)
      | apply Keeps.via (countRetrain_keeps _ _)
      | intro _

theorem execPortNoFlitTimeout_keeps (port : Fin 12) (t : Nat) (s : State) :
    KeepsOut (Part.regs ||| Part.memory ||| Part.time ||| Part.log ||| Part.records ||| Part.queues ||| Part.jobs ||| Part.clusters ||| Part.scores ||| Part.hurdles ||| Part.stacks ||| Part.hub ||| Part.links ||| Part.coll) s (execPortNoFlitTimeout port t s) := by
  unfold execPortNoFlitTimeout
  repeat' with_reducible first
      | apply Keeps.refl | assumption | (apply Part.named; decide)
      | apply Keeps.next
      | (extract_lets +onlyGivenNames x; first | (refine keepsLet (x := x) ?_ ?_; (on_goal 2 => (clear_value x; intro _)); (on_goal 1 => (unfold x; clear x))) | (refine keepsLetO (x := x) ?_ ?_; (on_goal 2 => (clear_value x; intro _)); (on_goal 1 => (unfold x; clear x))) | skip)
      | apply Keeps.via (breakPort_keeps _ _)
      | apply Keeps.ite
      | apply KeepsOut.ite
      | apply Keeps.via (Keeps.later _ _)

theorem countFlit_keeps (p : Nat) (f : FlitOut) (s : State) : Keeps (Part.regs ||| Part.links) s (countFlit p f s) := by
  unfold countFlit
  repeat' with_reducible first
      | apply Keeps.refl | assumption | (apply Part.named; decide)
      | (extract_lets +onlyGivenNames x; first | (refine keepsLet (x := x) ?_ ?_; (on_goal 2 => (clear_value x; intro _)); (on_goal 1 => (unfold x; clear x))) | skip)
      | apply Keeps.via (addReg_keeps _ _ _)
      | apply Keeps.via (modPort_keeps _ _ _)
      | apply Keeps.ite
      | apply Keeps.foldl_via
      | intro _

theorem askReplay_keeps (p : Nat) (s : State) : Keeps (Part.regs ||| Part.log ||| Part.links) s (askReplay p s) := by
  unfold askReplay
  repeat' with_reducible first
      | apply Keeps.refl | assumption | (apply Part.named; decide)
      | apply Keeps.via (emit_keeps _ _)
      | apply Keeps.via (modPort_keeps _ _ _)
      | apply Keeps.via (sendIdle_keeps _ _ _ _)

theorem takeAck_keeps (p ack c0 c1 : Nat) (s : State) : Keeps (Part.regs ||| Part.log ||| Part.links) s (takeAck p ack c0 c1 s) := by
  unfold takeAck
  repeat' with_reducible first
      | apply Keeps.refl | assumption | (apply Part.named; decide)
      | (extract_lets +onlyGivenNames x; first | (refine keepsLet (x := x) ?_ ?_; (on_goal 2 => (clear_value x; intro _)); (on_goal 1 => (unfold x; clear x))) | skip)
      | apply Keeps.via (modPort_keeps _ _ _)
      | apply Keeps.via (pump_keeps _ _ _)

theorem replayAll_keeps (p : Nat) (ks : List (Nat × Packet)) (s : State) : Keeps (Part.regs ||| Part.log ||| Part.links) s (replayAll p ks s) := by
  unfold replayAll
  repeat' with_reducible first
      | apply Keeps.refl | assumption | (apply Part.named; decide)
      | apply Keeps.via (emit_keeps _ _)
      | apply Keeps.via (sendFlit_keeps _ _ _ _ _ _ _)
      | apply Keeps.foldl_via
      | intro _
      | apply Keeps.ite

theorem takeNak_keeps (p ack : Nat) (s : State) :
    Keeps (Part.regs ||| Part.memory ||| Part.log ||| Part.records ||| Part.queues ||| Part.jobs ||| Part.clusters ||| Part.scores ||| Part.hurdles ||| Part.stacks ||| Part.hub ||| Part.links ||| Part.coll) s (takeNak p ack s) := by
  unfold takeNak
  repeat' with_reducible first
      | apply Keeps.refl | assumption | (apply Part.named; decide)
      | (extract_lets +onlyGivenNames x; first | (refine keepsLet (x := x) ?_ ?_; (on_goal 2 => (clear_value x; intro _)); (on_goal 1 => (unfold x; clear x))) | skip)
      | apply Keeps.via (modPort_keeps _ _ _)
      | apply Keeps.via (breakPort_keeps _ _)
      | apply Keeps.via (replayAll_keeps _ _ _)
      | apply Keeps.via (addReg_keeps _ _ _)
      | apply Keeps.ite

theorem takeData_keeps (p kind seq : Nat) (l : List Byte) (s : State) :
    Keeps (Part.regs ||| Part.log ||| Part.links) s (takeData p kind seq l s) := by
  unfold takeData
  repeat' with_reducible first
      | apply Keeps.refl | assumption | (apply Part.named; decide)
      | (extract_lets +onlyGivenNames x; first | (refine keepsLet (x := x) ?_ ?_; (on_goal 2 => (clear_value x; intro _)); (on_goal 1 => (unfold x; clear x))) | skip)
      | apply Keeps.via (askReplay_keeps _ _)
      | apply Keeps.via (modPort_keeps _ _ _)
      | apply Keeps.via (addReg_keeps _ _ _)
      | apply Keeps.via (emit_keeps _ _)
      | apply Keeps.via (sendIdle_keeps _ _ _ _)
      | apply Keeps.ite
      | apply Keeps.foldl_via
      | intro _

theorem execFlitReceive_keeps (port : Fin 12) (f : FlitIn) (t : Nat) (s : State) :
    KeepsOut (Part.regs ||| Part.memory ||| Part.time ||| Part.log ||| Part.records ||| Part.queues ||| Part.jobs ||| Part.clusters ||| Part.scores ||| Part.hurdles ||| Part.stacks ||| Part.hub ||| Part.links ||| Part.coll) s (execFlitReceive port f t s) := by
  unfold execFlitReceive
  repeat' with_reducible first
      | apply Keeps.refl | assumption | (apply Part.named; decide)
      | apply Keeps.next
      | (extract_lets +onlyGivenNames x; first | (refine keepsLet (x := x) ?_ ?_; (on_goal 2 => (clear_value x; intro _)); (on_goal 1 => (unfold x; clear x))) | (refine keepsLetO (x := x) ?_ ?_; (on_goal 2 => (clear_value x; intro _)); (on_goal 1 => (unfold x; clear x))) | skip)
      | apply Keeps.via (countFlit_keeps _ _ _)
      | apply Keeps.via (askReplay_keeps _ _)
      | apply Keeps.via (modPort_keeps _ _ _)
      | apply Keeps.via (takeAck_keeps _ _ _ _ _)
      | apply Keeps.via (takeNak_keeps _ _ _)
      | apply Keeps.via (takeData_keeps _ _ _ _ _)
      | apply Keeps.ite
      | apply KeepsOut.ite
      | apply Keeps.via (Keeps.later _ _)

theorem showLanes_keeps (p : Nat) (s : State) : Keeps Part.regs s (showLanes p s) := by
  unfold showLanes
  repeat' with_reducible first
      | apply Keeps.refl | assumption | (apply Part.named; decide)
      | (extract_lets +onlyGivenNames x; first | (refine keepsLet (x := x) ?_ ?_; (on_goal 2 => (clear_value x; intro _)); (on_goal 1 => (unfold x; clear x))) | skip)
      | apply Keeps.via (setReg_keeps _ _ _)

theorem fuseLanes_keeps (p source : Nat) (old new : List Nat) (transmit : Bool) (s : State) :
    Keeps Part.hub s (fuseLanes p source old new transmit s) := by
  unfold fuseLanes
  repeat' with_reducible first
      | apply Keeps.refl | assumption | (apply Part.named; decide)
      | apply Keeps.via (softFuse_keeps _ _ _ _)
      | apply Keeps.foldl_via
      | intro _

theorem clearWindow_keeps (p : Nat) (s : State) : Keeps Part.links s (clearWindow p s) := by
  unfold clearWindow
  repeat' with_reducible first
      | apply Keeps.refl | assumption | (apply Part.named; decide)
      | apply Keeps.via (modPort_keeps _ _ _)

theorem checkWindow_keeps (p : Nat) (s : State) : Keeps (Part.regs ||| Part.records) s (checkWindow p s) := by
  unfold checkWindow
  repeat' with_reducible first
      | apply Keeps.refl | assumption | (apply Part.named; decide)
      | (extract_lets +onlyGivenNames x; first | (refine keepsLet (x := x) ?_ ?_; (on_goal 2 => (clear_value x; intro _)); (on_goal 1 => (unfold x; clear x))) | skip)
      | apply Keeps.via (setB_keeps _ _ _ _)
      | apply Keeps.via (report_keeps _ _ _ _ _)
      | apply Keeps.ite

theorem answerRetrain_keeps (p : Nat) (s : State) (y0 : Option (CmdHdr × Nat)) :
    Keeps (Part.regs ||| Part.queues ||| Part.links) s (answerRetrain p s y0) := by
  unfold answerRetrain
  repeat' with_reducible first
      | apply Keeps.refl | assumption | (apply Part.named; decide)
      | apply Keeps.via (fail_keeps _ _ _ _)
      | apply Keeps.via (modPort_keeps _ _ _)
      | split

theorem enterService_keeps (p : Nat) (s : State) : Keeps (Part.regs ||| Part.records ||| Part.queues ||| Part.links) s (enterService p s) := by
  unfold enterService
  repeat' with_reducible first
      | apply Keeps.refl | assumption | (apply Part.named; decide)
      | (extract_lets +onlyGivenNames x; first | (refine keepsLet (x := x) ?_ ?_; (on_goal 2 => (clear_value x; intro _)); (on_goal 1 => (unfold x; clear x))) | skip)
      | apply Keeps.via (modPort_keeps _ _ _)
      | apply Keeps.via (markDesignated_keeps _)
      | apply Keeps.via (setB_keeps _ _ _ _)
      | apply Keeps.via (setPortState_keeps _ _ _)
      | apply Keeps.via (clearWindow_keeps _ _)
      | apply Keeps.via (checkWindow_keeps _ _)
      | apply Keeps.via (answerRetrain_keeps _ _ _)
      | apply Keeps.ite
      | fail_if_no_progress (apply Keeps.via (Keeps.putLinks _ _))

theorem execPortStateDone_keeps (port : Fin 12) (f : PortFindings) (s : State) :
    KeepsOut (Part.regs ||| Part.log ||| Part.records ||| Part.queues ||| Part.hub ||| Part.links) s (execPortStateDone port f s) := by
  unfold execPortStateDone
  repeat' with_reducible first
      | apply Keeps.refl | assumption | (apply Part.named; decide)
      | apply Keeps.next
      | (extract_lets +onlyGivenNames x; first | (refine keepsLet (x := x) ?_ ?_; (on_goal 2 => (clear_value x; intro _)); (on_goal 1 => (unfold x; clear x))) | (refine keepsLetO (x := x) ?_ ?_; (on_goal 2 => (clear_value x; intro _)); (on_goal 1 => (unfold x; clear x))) | skip)
      | apply Keeps.via (setPortState_keeps _ _ _)
      | apply Keeps.via (setF_keeps _ _ _ _ _)
      | apply Keeps.via (fuseLanes_keeps _ _ _ _ _ _)
      | apply Keeps.via (showLanes_keeps _ _)
      | apply Keeps.via (modPort_keeps _ _ _)
      | apply Keeps.via (returnEqualize_keeps _ _)
      | apply Keeps.via (setReg_keeps _ _ _)
      | apply Keeps.via (emit_keeps _ _)
      | apply Keeps.via (enterService_keeps _ _)
      | apply Keeps.via (clearWindow_keeps _ _)
      | apply Keeps.via (sendFlit_keeps _ _ _ _ _ _ _)
      | apply Keeps.ite
      | apply KeepsOut.ite
      | apply Keeps.foldl_via
      | intro _

theorem execPortStateTimeout_keeps (port : Fin 12) (s : State) :
    KeepsOut (Part.regs ||| Part.records ||| Part.queues ||| Part.links) s (execPortStateTimeout port s) := by
  unfold execPortStateTimeout
  repeat' with_reducible first
      | apply Keeps.refl | assumption | (apply Part.named; decide)
      | apply Keeps.next
      | apply Keeps.via (returnEqualize_keeps _ _)
      | apply Keeps.ite
      | apply KeepsOut.ite

theorem execIdent_keeps (port : Fin 12) (s : State) :
    KeepsOut (Part.regs ||| Part.records ||| Part.queues ||| Part.links) s (execIdent port s) := by
  unfold execIdent
  repeat' with_reducible first
      | apply Keeps.refl | assumption | (apply Part.named; decide)
      | apply Keeps.next
      | (extract_lets +onlyGivenNames x; first | (refine keepsLet (x := x) ?_ ?_; (on_goal 2 => (clear_value x; intro _)); (on_goal 1 => (unfold x; clear x))) | (refine keepsLetO (x := x) ?_ ?_; (on_goal 2 => (clear_value x; intro _)); (on_goal 1 => (unfold x; clear x))) | skip)
      | apply Keeps.via (modPort_keeps _ _ _)
      | apply Keeps.via (setReg_keeps _ _ _)
      | apply Keeps.via (portFailed_keeps _ _ _)
      | apply Keeps.via (setB_keeps _ _ _ _)
      | apply Keeps.ite
      | apply KeepsOut.ite
      | split

theorem execBerWindow_keeps (port : Fin 12) (s : State) :
    KeepsOut (Part.regs ||| Part.memory ||| Part.log ||| Part.records ||| Part.queues ||| Part.jobs ||| Part.clusters ||| Part.scores ||| Part.hurdles ||| Part.stacks ||| Part.hub ||| Part.links ||| Part.coll) s (execBerWindow port s) := by
  unfold execBerWindow
  repeat' with_reducible first
      | apply Keeps.refl | assumption | (apply Part.named; decide)
      | apply Keeps.next
      | (extract_lets +onlyGivenNames x; first | (refine keepsLet (x := x) ?_ ?_; (on_goal 2 => (clear_value x; intro _)); (on_goal 1 => (unfold x; clear x))) | (refine keepsLetO (x := x) ?_ ?_; (on_goal 2 => (clear_value x; intro _)); (on_goal 1 => (unfold x; clear x))) | (have y : List _ := x; clear y; clear_value x) | skip)
      | apply Keeps.via (setReg_keeps _ _ _)
      | apply Keeps.via (clearWindow_keeps _ _)
      | apply Keeps.via (report_keeps _ _ _ _ _)
      | apply Keeps.via (fuseLanes_keeps _ _ _ _ _ _)
      | apply Keeps.via (retrain_keeps _ _)
      | apply Keeps.via (showLanes_keeps _ _)
      | apply Keeps.via (modPort_keeps _ _ _)
      | apply Keeps.ite
      | apply KeepsOut.ite
      | apply Keeps.foldl_via
      | intro _
      | split

theorem execPortRetrain_keeps (h : CmdHdr) (port : Nat) (s : State) :
    KeepsOut (Part.regs ||| Part.memory ||| Part.log ||| Part.records ||| Part.queues ||| Part.jobs ||| Part.clusters ||| Part.scores ||| Part.hurdles ||| Part.stacks ||| Part.hub ||| Part.links ||| Part.coll) s (execPortRetrain h port s) := by
  unfold execPortRetrain
  repeat' with_reducible first
      | apply Keeps.refl | assumption | (apply Part.named; decide)
      | apply Keeps.next
      | (extract_lets +onlyGivenNames x; first | (refine keepsLet (x := x) ?_ ?_; (on_goal 2 => (clear_value x; intro _)); (on_goal 1 => (unfold x; clear x))) | (refine keepsLetO (x := x) ?_ ?_; (on_goal 2 => (clear_value x; intro _)); (on_goal 1 => (unfold x; clear x))) | skip)
      | apply KeepsOut.viaH (runOp_keeps _ _ _ _ _ ?_ ?_)
      | apply Keeps.via (fail_keeps _ _ _ _)
      | apply Keeps.via (modPort_keeps _ _ _)
      | apply Keeps.via (retrain_keeps _ _)
      | apply Keeps.ite
      | apply KeepsOut.ite
      | intro _

end Sys2Proof.Machine
end

