-- ==== Sys2Proof/Laws/KeepPower.lean ====
section
/-!
SUPPORT. What each operation and meaning of Machine/Power.lean keeps (Laws/Keep.lean).
-/
namespace Sys2Proof.Machine

theorem evalCeil_keeps (c : Nat) (s : State) : Keeps Part.sup s (evalCeil c s) := by
  unfold evalCeil
  repeat' with_reducible first
      | apply Keeps.refl | assumption | (apply Part.named; decide)
      | (extract_lets +onlyGivenNames x; first | (refine keepsLet (x := x) ?_ ?_; (on_goal 2 => (clear_value x; intro _)); (on_goal 1 => (unfold x; clear x))) | skip)
      | apply Keeps.via (modClu_keeps _ _ _)

theorem toPf_keeps (c : Nat) (s : State) : Keeps (Part.regs ||| Part.sup) s (toPf c s) := by
  unfold toPf
  repeat' with_reducible first
      | apply Keeps.refl | assumption | (apply Part.named; decide)
      | (extract_lets +onlyGivenNames x; first | (refine keepsLet (x := x) ?_ ?_; (on_goal 2 => (clear_value x; intro _)); (on_goal 1 => (unfold x; clear x))) | skip)
      | apply Keeps.via (setVolt_keeps _ _ _)
      | apply Keeps.via (modClu_keeps _ _ _)
      | apply Keeps.via (changeM_keeps _ _ _)
      | apply Keeps.via (setB_keeps _ _ _ _)
      | apply Keeps.ite
      | split

theorem applyForce_keeps (s : State) : Keeps (Part.regs ||| Part.sup) s (applyForce s) := by
  unfold applyForce
  repeat' with_reducible first
      | apply Keeps.refl | assumption | (apply Part.named; decide)
      | apply Keeps.via (toPf_keeps _ _)
      | apply Keeps.ite
      | apply Keeps.foldl_via
      | intro _

theorem execVfTransition_keeps (c : Fin 64) (s : State) : KeepsOut (Part.regs ||| Part.sup) s (execVfTransition c s) := by
  unfold execVfTransition
  repeat' with_reducible first
      | apply Keeps.refl | assumption | (apply Part.named; decide)
      | apply Keeps.next
      | (extract_lets +onlyGivenNames x; first | (refine keepsLet (x := x) ?_ ?_; (on_goal 2 => (clear_value x; intro _)); (on_goal 1 => (unfold x; clear x))) | (refine keepsLetO (x := x) ?_ ?_; (on_goal 2 => (clear_value x; intro _)); (on_goal 1 => (unfold x; clear x))) | skip)
      | apply Keeps.via (changeM_keeps _ _ _)
      | apply Keeps.via (setVolt_keeps _ _ _)
      | apply Keeps.via (setB_keeps _ _ _ _)
      | apply Keeps.via (modClu_keeps _ _ _)
      | apply Keeps.ite
      | apply KeepsOut.ite

theorem execVoltageSettled_keeps (n : Fin 96) (mv : Nat) (s : State) : KeepsOut (Part.regs ||| Part.sup) s (execVoltageSettled n mv s) := by
  unfold execVoltageSettled
  repeat' with_reducible first
      | apply Keeps.refl | assumption | (apply Part.named; decide)
      | apply Keeps.next
      | (extract_lets +onlyGivenNames x; first | (refine keepsLet (x := x) ?_ ?_; (on_goal 2 => (clear_value x; intro _)); (on_goal 1 => (unfold x; clear x))) | (refine keepsLetO (x := x) ?_ ?_; (on_goal 2 => (clear_value x; intro _)); (on_goal 1 => (unfold x; clear x))) | skip)
      | apply Keeps.via (setB_keeps _ _ _ _)
      | apply Keeps.via (setF_keeps _ _ _ _ _)
      | apply Keeps.via (changeM_keeps _ _ _)
      | apply Keeps.via (modClu_keeps _ _ _)
      | apply Keeps.via (evalCeil_keeps _ _)
      | apply Keeps.via (addReg_keeps _ _ _)
      | apply Keeps.ite
      | apply KeepsOut.ite
      | split

theorem execDroopCrossing_keeps (c : Fin 64) (s : State) : KeepsOut (Part.regs ||| Part.clusters ||| Part.sup) s (execDroopCrossing c s) := by
  unfold execDroopCrossing
  repeat' with_reducible first
      | apply Keeps.refl | assumption | (apply Part.named; decide)
      | apply Keeps.next
      | (extract_lets +onlyGivenNames x; first | (refine keepsLet (x := x) ?_ ?_; (on_goal 2 => (clear_value x; intro _)); (on_goal 1 => (unfold x; clear x))) | (refine keepsLetO (x := x) ?_ ?_; (on_goal 2 => (clear_value x; intro _)); (on_goal 1 => (unfold x; clear x))) | skip)
      | apply Keeps.via (addReg_keeps _ _ _)
      | apply Keeps.via (setB_keeps _ _ _ _)
      | apply Keeps.via (setVolt_keeps _ _ _)
      | apply Keeps.via (modClu_keeps _ _ _)
      | apply Keeps.via (markFree_keeps _ _)
      | apply Keeps.ite
      | apply KeepsOut.ite
      | split

theorem execDroopRelease_keeps (c : Fin 64) (positions : Nat) (s : State) : KeepsOut (Part.regs ||| Part.towers ||| Part.sup) s (execDroopRelease c positions s) := by
  unfold execDroopRelease
  repeat' with_reducible first
      | apply Keeps.refl | assumption | (apply Part.named; decide)
      | apply Keeps.next
      | (extract_lets +onlyGivenNames x; first | (refine keepsLet (x := x) ?_ ?_; (on_goal 2 => (clear_value x; intro _)); (on_goal 1 => (unfold x; clear x))) | (refine keepsLetO (x := x) ?_ ?_; (on_goal 2 => (clear_value x; intro _)); (on_goal 1 => (unfold x; clear x))) | skip)
      | apply Keeps.via (addReg_keeps _ _ _)
      | apply Keeps.via (setB_keeps _ _ _ _)
      | apply Keeps.via (setVolt_keeps _ _ _)
      | apply Keeps.via (modClu_keeps _ _ _)
      | apply Keeps.via (capturePort_keeps _ _)
      | apply Keeps.ite
      | apply KeepsOut.ite
      | split

theorem execPmbusPoll_keeps (readings : List (Option (List Nat))) (s : State) :
    KeepsOut (Part.records ||| Part.sup) s (execPmbusPoll readings s) := by
  unfold execPmbusPoll
  repeat' with_reducible first
      | apply Keeps.refl | assumption | (apply Part.named; decide)
      | apply Keeps.next
      | (extract_lets +onlyGivenNames x; first | (refine keepsLet (x := x) ?_ ?_; (on_goal 2 => (clear_value x; intro _)); (on_goal 1 => (unfold x; clear x))) | (refine keepsLetO (x := x) ?_ ?_; (on_goal 2 => (clear_value x; intro _)); (on_goal 1 => (unfold x; clear x))) | skip)
      | apply Keeps.via (modSup_keeps _ _)
      | apply Keeps.via (report_keeps _ _ _ _ _)
      | apply Keeps.ite
      | apply KeepsOut.ite
      | apply Keeps.foldl_via
      | intro _
      | split

theorem execPmbusGain_keeps (pmbus converters : Nat) (s : State) : KeepsOut (Part.regs ||| Part.frees) s (execPmbusGain pmbus converters s) := by
  unfold execPmbusGain
  repeat' with_reducible first
      | apply Keeps.refl | assumption | (apply Part.named; decide)
      | apply Keeps.next
      | (extract_lets +onlyGivenNames x; first | (refine keepsLet (x := x) ?_ ?_; (on_goal 2 => (clear_value x; intro _)); (on_goal 1 => (unfold x; clear x))) | (refine keepsLetO (x := x) ?_ ?_; (on_goal 2 => (clear_value x; intro _)); (on_goal 1 => (unfold x; clear x))) | skip)
      | apply Keeps.via (bumpFree_keeps _)
      | apply Keeps.via (setF_keeps _ _ _ _ _)
      | apply Keeps.ite
      | apply KeepsOut.ite

theorem execRinWindow_keeps (n : Fin 96) (estimates : List (Option Nat)) (s : State) :
    KeepsOut (Part.regs ||| Part.records) s (execRinWindow n estimates s) := by
  unfold execRinWindow
  repeat' with_reducible first
      | apply Keeps.refl | assumption | (apply Part.named; decide)
      | apply Keeps.next
      | (extract_lets +onlyGivenNames x; first | (refine keepsLet (x := x) ?_ ?_; (on_goal 2 => (clear_value x; intro _)); (on_goal 1 => (unfold x; clear x))) | (refine keepsLetO (x := x) ?_ ?_; (on_goal 2 => (clear_value x; intro _)); (on_goal 1 => (unfold x; clear x))) | (have y : List _ := x; clear y; clear_value x) | skip)
      | apply Keeps.via (setF_keeps _ _ _ _ _)
      | apply Keeps.via (setB_keeps _ _ _ _)
      | apply Keeps.via (report_keeps _ _ _ _ _)
      | apply Keeps.ite
      | apply KeepsOut.ite
      | apply Keeps.foldl_via
      | intro _
      | split

theorem clusterLoop_keeps (w : PowerWindow) (t c : Nat) (e : Int) (s : State) : Keeps (Part.regs ||| Part.sup) s (clusterLoop w t c e s) := by
  unfold clusterLoop
  repeat' with_reducible first
      | apply Keeps.refl | assumption | (apply Part.named; decide)
      | (extract_lets +onlyGivenNames x; first | (refine keepsLet (x := x) ?_ ?_; (on_goal 2 => (clear_value x; intro _)); (on_goal 1 => (unfold x; clear x))) | skip)
      | apply Keeps.via (setF_keeps _ _ _ _ _)
      | apply Keeps.via (modClu_keeps _ _ _)
      | apply Keeps.ite

theorem capForcing_keeps (t : Nat) (e : Int) (s : State) : Keeps (Part.regs ||| Part.records ||| Part.sup) s (capForcing t e s) := by
  unfold capForcing
  repeat' with_reducible first
      | apply Keeps.refl | assumption | (apply Part.named; decide)
      | (extract_lets +onlyGivenNames x; first | (refine keepsLet (x := x) ?_ ?_; (on_goal 2 => (clear_value x; intro _)); (on_goal 1 => (unfold x; clear x))) | skip)
      | apply Keeps.via (modTow_keeps _ _ _)
      | apply Keeps.via (report_keeps _ _ _ _ _)
      | apply Keeps.via (addReg_keeps _ _ _)
      | apply Keeps.ite

theorem showTower_keeps (w : PowerWindow) (t : Nat) (s : State) : Keeps Part.regs s (showTower w t s) := by
  unfold showTower
  repeat' with_reducible first
      | apply Keeps.refl | assumption | (apply Part.named; decide)
      | (extract_lets +onlyGivenNames x; first | (refine keepsLet (x := x) ?_ ?_; (on_goal 2 => (clear_value x; intro _)); (on_goal 1 => (unfold x; clear x))) | skip)
      | apply Keeps.via (setReg_keeps _ _ _)
      | apply Keeps.foldl_via
      | intro _

theorem towerLoop_keeps (w : PowerWindow) (t : Nat) (s : State) :
    Keeps (Part.regs ||| Part.frees ||| Part.records ||| Part.sup) s (towerLoop w t s) := by
  unfold towerLoop
  repeat' with_reducible first
      | apply Keeps.refl | assumption | (apply Part.named; decide)
      | (extract_lets +onlyGivenNames x; first | (refine keepsLet (x := x) ?_ ?_; (on_goal 2 => (clear_value x; intro _)); (on_goal 1 => (unfold x; clear x))) | skip)
      | apply Keeps.via (bumpFree_keeps _)
      | apply Keeps.via (modTow_keeps _ _ _)
      | apply Keeps.via (clusterLoop_keeps _ _ _ _ _)
      | apply Keeps.via (showTower_keeps _ _ _)
      | apply Keeps.via (capForcing_keeps _ _ _)
      | apply Keeps.ite
      | apply Keeps.foldl_via
      | intro _

theorem showDomains_keeps (w : PowerWindow) (s : State) : Keeps Part.regs s (showDomains w s) := by
  unfold showDomains
  repeat' with_reducible first
      | apply Keeps.refl | assumption | (apply Part.named; decide)
      | apply Keeps.via (setReg_keeps _ _ _)
      | apply Keeps.via (setF_keeps _ _ _ _ _)
      | apply Keeps.foldl_via
      | intro _

theorem showPackage_keeps (w : PowerWindow) (s : State) : Keeps (Part.regs ||| Part.sup) s (showPackage w s) := by
  unfold showPackage
  repeat' with_reducible first
      | apply Keeps.refl | assumption | (apply Part.named; decide)
      | (extract_lets +onlyGivenNames x; first | (refine keepsLet (x := x) ?_ ?_; (on_goal 2 => (clear_value x; intro _)); (on_goal 1 => (unfold x; clear x))) | skip)
      | apply Keeps.via (modSup_keeps _ _)
      | apply Keeps.via (setReg_keeps _ _ _)
      | apply Keeps.ite
      | apply Keeps.foldl_via
      | intro _

theorem countHeld_keeps (w : PowerWindow) (c : Nat) (s : State) : Keeps (Part.regs ||| Part.clusters) s (countHeld w c s) := by
  unfold countHeld
  repeat' with_reducible first
      | apply Keeps.refl | assumption | (apply Part.named; decide)
      | (extract_lets +onlyGivenNames x; first | (refine keepsLet (x := x) ?_ ?_; (on_goal 2 => (clear_value x; intro _)); (on_goal 1 => (unfold x; clear x))) | skip)
      | apply Keeps.via (addReg_keeps _ _ _)
      | apply Keeps.via (markFree_keeps _ _)
      | apply Keeps.ite

theorem execControlWindow_keeps (w : PowerWindow) (s : State) :
    KeepsOut (Part.regs ||| Part.frees ||| Part.records ||| Part.clusters ||| Part.sup) s (execControlWindow w s) := by
  unfold execControlWindow
  repeat' with_reducible first
      | apply Keeps.refl | assumption | (apply Part.named; decide)
      | apply Keeps.next
      | (extract_lets +onlyGivenNames x; first | (refine keepsLet (x := x) ?_ ?_; (on_goal 2 => (clear_value x; intro _)); (on_goal 1 => (unfold x; clear x))) | (refine keepsLetO (x := x) ?_ ?_; (on_goal 2 => (clear_value x; intro _)); (on_goal 1 => (unfold x; clear x))) | skip)
      | apply Keeps.via (modClu_keeps _ _ _)
      | apply Keeps.via (showPackage_keeps _ _)
      | apply Keeps.via (showDomains_keeps _ _)
      | apply Keeps.via (addReg_keeps _ _ _)
      | apply Keeps.via (setReg_keeps _ _ _)
      | apply Keeps.via (setF_keeps _ _ _ _ _)
      | apply Keeps.via (towerLoop_keeps _ _ _)
      | apply Keeps.via (setB_keeps _ _ _ _)
      | apply Keeps.via (countHeld_keeps _ _ _)
      | apply Keeps.ite
      | apply KeepsOut.ite
      | apply Keeps.foldl_via
      | intro _

theorem execPowerCapSet_keeps (h : CmdHdr) (target watts : Nat) (s : State) :
    KeepsOut (Part.regs ||| Part.queues ||| Part.hub) s (execPowerCapSet h target watts s) := by
  unfold execPowerCapSet
  repeat' with_reducible first
      | apply Keeps.refl | assumption | (apply Part.named; decide)
      | apply Keeps.next
      | apply KeepsOut.viaH (runOp_keeps _ _ _ _ _ ?_ ?_)
      | apply Keeps.via (fail_keeps _ _ _ _)
      | apply Keeps.via (modHub_keeps _ _)
      | apply Keeps.via (startCmd_keeps _ _)
      | apply Keeps.ite
      | apply KeepsOut.ite
      | intro _

theorem execPowerPlanSet_keeps (h : CmdHdr) (sched compute memory link floorStep : Nat) (s : State) :
    KeepsOut (Part.regs ||| Part.queues ||| Part.jobs) s (execPowerPlanSet h sched compute memory link floorStep s) := by
  unfold execPowerPlanSet
  repeat' with_reducible first
      | apply Keeps.refl | assumption | (apply Part.named; decide)
      | apply Keeps.next
      | (extract_lets +onlyGivenNames x; first | (refine keepsLet (x := x) ?_ ?_; (on_goal 2 => (clear_value x; intro _)); (on_goal 1 => (unfold x; clear x))) | (refine keepsLetO (x := x) ?_ ?_; (on_goal 2 => (clear_value x; intro _)); (on_goal 1 => (unfold x; clear x))) | skip)
      | apply KeepsOut.viaH (runOp_keeps _ _ _ _ _ ?_ ?_)
      | apply Keeps.via (fail_keeps _ _ _ _)
      | apply Keeps.via (modSched_keeps _ _ _ _)
      | apply Keeps.ite
      | apply KeepsOut.ite
      | intro _

theorem execVrAlert_keeps (input : Fin 4) (asserted : Bool) (t : Nat) (s : State) :
    KeepsOut (Part.regs ||| Part.time ||| Part.records ||| Part.hub ||| Part.sup) s (execVrAlert input asserted t s) := by
  unfold execVrAlert
  repeat' with_reducible first
      | apply Keeps.refl | assumption | (apply Part.named; decide)
      | apply Keeps.next
      | (extract_lets +onlyGivenNames x; first | (refine keepsLet (x := x) ?_ ?_; (on_goal 2 => (clear_value x; intro _)); (on_goal 1 => (unfold x; clear x))) | (refine keepsLetO (x := x) ?_ ?_; (on_goal 2 => (clear_value x; intro _)); (on_goal 1 => (unfold x; clear x))) | skip)
      | apply Keeps.via (setB_keeps _ _ _ _)
      | apply Keeps.via (modSup_keeps _ _)
      | apply Keeps.via (modHub_keeps _ _)
      | apply Keeps.via (report_keeps _ _ _ _ _)
      | apply Keeps.via (addReg_keeps _ _ _)
      | apply Keeps.via (applyForce_keeps _)
      | apply Keeps.ite
      | apply KeepsOut.ite
      | apply Keeps.via (Keeps.later _ _)

theorem execVrAlertRelease_keeps (t : Nat) (s : State) : KeepsOut (Part.regs ||| Part.time ||| Part.sup) s (execVrAlertRelease t s) := by
  unfold execVrAlertRelease
  repeat' with_reducible first
      | apply Keeps.refl | assumption | (apply Part.named; decide)
      | apply Keeps.next
      | (extract_lets +onlyGivenNames x; first | (refine keepsLet (x := x) ?_ ?_; (on_goal 2 => (clear_value x; intro _)); (on_goal 1 => (unfold x; clear x))) | (refine keepsLetO (x := x) ?_ ?_; (on_goal 2 => (clear_value x; intro _)); (on_goal 1 => (unfold x; clear x))) | skip)
      | apply Keeps.via (setB_keeps _ _ _ _)
      | apply Keeps.via (modSup_keeps _ _)
      | apply Keeps.ite
      | apply KeepsOut.ite
      | apply Keeps.via (Keeps.later _ _)
      | split

theorem modSensor_keeps (n : Nat) (g : Sensor → Sensor) (s : State) : Keeps Part.sup s (modSensor n g s) := by
  unfold modSensor
  repeat' with_reducible first
      | apply Keeps.refl | assumption | (apply Part.named; decide)
      | apply Keeps.via (modSup_keeps _ _)

theorem moveLimit_keeps (n : Nat) (hot : Bool) (s : State) : Keeps (Part.regs ||| Part.sup) s (moveLimit n hot s) := by
  unfold moveLimit
  repeat' with_reducible first
      | apply Keeps.refl | assumption | (apply Part.named; decide)
      | (extract_lets +onlyGivenNames x; first | (refine keepsLet (x := x) ?_ ?_; (on_goal 2 => (clear_value x; intro _)); (on_goal 1 => (unfold x; clear x))) | skip)
      | apply Keeps.via (setF_keeps _ _ _ _ _)
      | apply Keeps.via (modSup_keeps _ _)
      | apply Keeps.ite
      | apply Keeps.foldl_via
      | intro _

theorem showThermal_keeps (s : State) : Keeps Part.regs s (showThermal s) := by
  unfold showThermal
  repeat' with_reducible first
      | apply Keeps.refl | assumption | (apply Part.named; decide)
      | (extract_lets +onlyGivenNames x; first | (refine keepsLet (x := x) ?_ ?_; (on_goal 2 => (clear_value x; intro _)); (on_goal 1 => (unfold x; clear x))) | skip)
      | apply Keeps.via (setB_keeps _ _ _ _)

theorem breakSensor_keeps (n : Nat) (s : State) : Keeps (Part.regs ||| Part.records ||| Part.hub) s (breakSensor n s) := by
  unfold breakSensor
  repeat' with_reducible first
      | apply Keeps.refl | assumption | (apply Part.named; decide)
      | (extract_lets +onlyGivenNames x; first | (refine keepsLet (x := x) ?_ ?_; (on_goal 2 => (clear_value x; intro _)); (on_goal 1 => (unfold x; clear x))) | skip)
      | apply Keeps.via (setB_keeps _ _ _ _)
      | apply Keeps.via (report_keeps _ _ _ _ _)
      | apply Keeps.via (towerLost_keeps _ _)
      | apply Keeps.via (declareOut_keeps _ _)
      | apply Keeps.ite
      | apply Keeps.foldl_via
      | intro _

theorem converted_keeps (n : Nat) (reading : Int) (toggle : Bool) (s : State) : Keeps Part.regs s (converted n reading toggle s) := by
  unfold converted
  repeat' with_reducible first
      | apply Keeps.refl | assumption | (apply Part.named; decide)
      | apply Keeps.via (setF_keeps _ _ _ _ _)
      | apply Keeps.via (setB_keeps _ _ _ _)

theorem sensorChecks_keeps (n : Fin 428) (reading : Int) (bad : Bool) (s : State) :
    Keeps (Part.regs ||| Part.records ||| Part.hub ||| Part.sup) s (sensorChecks n reading bad s) := by
  unfold sensorChecks
  repeat' with_reducible first
      | apply Keeps.refl | assumption | (apply Part.named; decide)
      | (extract_lets +onlyGivenNames x; first | (refine keepsLet (x := x) ?_ ?_; (on_goal 2 => (clear_value x; intro _)); (on_goal 1 => (unfold x; clear x))) | (refine keepsLetO (x := x) ?_ ?_; (on_goal 2 => (clear_value x; intro _)); (on_goal 1 => (unfold x; clear x))) | skip)
      | apply Keeps.via (setF_keeps _ _ _ _ _)
      | apply Keeps.via (setB_keeps _ _ _ _)
      | apply Keeps.via (modSensor_keeps _ _ _)
      | apply Keeps.via (report_keeps _ _ _ _ _)
      | apply Keeps.via (breakSensor_keeps _ _)
      | apply Keeps.via (moveLimit_keeps _ _ _)
      | apply Keeps.via (showThermal_keeps _)
      | apply Keeps.via (modSup_keeps _ _)
      | apply Keeps.via (applyForce_keeps _)
      | apply Keeps.ite

theorem execSensorConversion_keeps (n : Fin 428) (reading : Int) (toggle : Bool) (s : State) :
    KeepsOut (Part.regs ||| Part.records ||| Part.hub ||| Part.sup) s (execSensorConversion n reading toggle s) := by
  unfold execSensorConversion
  repeat' with_reducible first
      | apply Keeps.refl | assumption | (apply Part.named; decide)
      | apply Keeps.next
      | (extract_lets +onlyGivenNames x; first | (refine keepsLet (x := x) ?_ ?_; (on_goal 2 => (clear_value x; intro _)); (on_goal 1 => (unfold x; clear x))) | (refine keepsLetO (x := x) ?_ ?_; (on_goal 2 => (clear_value x; intro _)); (on_goal 1 => (unfold x; clear x))) | skip)
      | apply Keeps.via (converted_keeps _ _ _ _)
      | apply Keeps.via (sensorChecks_keeps _ _ _ _)
      | apply Keeps.ite
      | apply KeepsOut.ite

theorem execThmTrigger_keeps (d : BitVec 32) (s : State) : KeepsOut Part.regs s (execThmTrigger d s) := by
  unfold execThmTrigger
  repeat' with_reducible first
      | apply Keeps.refl | assumption | (apply Part.named; decide)
      | apply Keeps.next
      | (extract_lets +onlyGivenNames x; first | (refine keepsLet (x := x) ?_ ?_; (on_goal 2 => (clear_value x; intro _)); (on_goal 1 => (unfold x; clear x))) | (refine keepsLetO (x := x) ?_ ?_; (on_goal 2 => (clear_value x; intro _)); (on_goal 1 => (unfold x; clear x))) | skip)
      | apply Keeps.via (addReg_keeps _ _ _)
      | apply Keeps.via (setB_keeps _ _ _ _)
      | apply Keeps.ite
      | apply KeepsOut.ite

theorem pinDrive_keeps (b : Nat) (level : Bool) (s : State) : Keeps Part.regs s (pinDrive b level s) := by
  unfold pinDrive
  repeat' with_reducible first
      | apply Keeps.refl | assumption | (apply Part.named; decide)
      | apply Keeps.via (setB_keeps _ _ _ _)

theorem convertersOff_keeps (s : State) : Keeps Part.regs s (convertersOff s) := by
  unfold convertersOff
  repeat' with_reducible first
      | apply Keeps.refl | assumption | (apply Part.named; decide)
      | apply Keeps.via (setB_keeps _ _ _ _)
      | apply Keeps.foldl_via
      | intro _

theorem portsDown_keeps (s : State) :
    Keeps (Part.regs ||| Part.memory ||| Part.log ||| Part.records ||| Part.queues ||| Part.jobs ||| Part.clusters ||| Part.scores ||| Part.hurdles ||| Part.stacks ||| Part.links ||| Part.coll) s (portsDown s) := by
  unfold portsDown
  repeat' with_reducible first
      | apply Keeps.refl | assumption | (apply Part.named; decide)
      | apply Keeps.via (setPortState_keeps _ _ _)
      | apply Keeps.viaH (leaveService_keeps _ _ _ ?_ ?_)
      | apply Keeps.foldl_via
      | intro _

theorem trip_keeps (n : Nat) (s : State) :
    Keeps (Part.regs ||| Part.memory ||| Part.log ||| Part.records ||| Part.pace ||| Part.queues ||| Part.jobs ||| Part.clusters ||| Part.bases ||| Part.mcores ||| Part.vcores ||| Part.scores ||| Part.xfers ||| Part.atts ||| Part.hurdles ||| Part.stacks ||| Part.hub ||| Part.links ||| Part.coll ||| Part.sup) s (trip n s) := by
  unfold trip
  repeat' with_reducible first
      | apply Keeps.refl | assumption | (apply Part.named; decide)
      | (extract_lets +onlyGivenNames x; first | (refine keepsLet (x := x) ?_ ?_; (on_goal 2 => (clear_value x; intro _)); (on_goal 1 => (unfold x; clear x))) | skip)
      | apply Keeps.via (pinDrive_keeps _ _ _)
      | apply Keeps.via (convertersOff_keeps _)
      | apply Keeps.via (modSup_keeps _ _)
      | apply Keeps.via (modHub_keeps _ _)
      | apply Keeps.via (endJobs_keeps _ _ _ _)
      | apply Keeps.via (portsDown_keeps _)
      | apply Keeps.via (declareOut_keeps _ _)
      | apply Keeps.ite
      | fail_if_no_progress (apply Keeps.via (Keeps.putPins _ _))

theorem execTripSample_keeps (hot : List Nat) (s : State) :
    KeepsOut (Part.regs ||| Part.memory ||| Part.log ||| Part.records ||| Part.pace ||| Part.queues ||| Part.jobs ||| Part.clusters ||| Part.bases ||| Part.mcores ||| Part.vcores ||| Part.scores ||| Part.xfers ||| Part.atts ||| Part.hurdles ||| Part.stacks ||| Part.hub ||| Part.links ||| Part.coll ||| Part.sup) s (execTripSample hot s) := by
  unfold execTripSample
  repeat' with_reducible first
      | apply Keeps.refl | assumption | (apply Part.named; decide)
      | apply Keeps.next
      | (extract_lets +onlyGivenNames x; first | (refine keepsLet (x := x) ?_ ?_; (on_goal 2 => (clear_value x; intro _)); (on_goal 1 => (unfold x; clear x))) | (refine keepsLetO (x := x) ?_ ?_; (on_goal 2 => (clear_value x; intro _)); (on_goal 1 => (unfold x; clear x))) | skip)
      | apply Keeps.via (modSensor_keeps _ _ _)
      | apply Keeps.via (trip_keeps _ _)
      | apply Keeps.ite
      | apply KeepsOut.ite
      | apply Keeps.foldl_via
      | intro _
      | split

theorem execCoolantPoll_keeps (readings : List (Option Nat)) (s : State) : KeepsOut (Part.regs ||| Part.sup) s (execCoolantPoll readings s) := by
  unfold execCoolantPoll
  repeat' with_reducible first
      | apply Keeps.refl | assumption | (apply Part.named; decide)
      | apply Keeps.next
      | (extract_lets +onlyGivenNames x; first | (refine keepsLet (x := x) ?_ ?_; (on_goal 2 => (clear_value x; intro _)); (on_goal 1 => (unfold x; clear x))) | (refine keepsLetO (x := x) ?_ ?_; (on_goal 2 => (clear_value x; intro _)); (on_goal 1 => (unfold x; clear x))) | skip)
      | apply Keeps.via (modSup_keeps _ _)
      | apply Keeps.via (setB_keeps _ _ _ _)
      | apply Keeps.via (setF_keeps _ _ _ _ _)
      | apply Keeps.ite
      | apply KeepsOut.ite
      | apply Keeps.foldl_via
      | intro _
      | split

theorem coolingWarning_keeps (r : Nat) (s : State) :
    Keeps (Part.regs ||| Part.log ||| Part.records ||| Part.sup ||| Part.sec) s (coolingWarning r s) := by
  unfold coolingWarning
  repeat' with_reducible first
      | apply Keeps.refl | assumption | (apply Part.named; decide)
      | (extract_lets +onlyGivenNames x; first | (refine keepsLet (x := x) ?_ ?_; (on_goal 2 => (clear_value x; intro _)); (on_goal 1 => (unfold x; clear x))) | skip)
      | apply Keeps.via (modSup_keeps _ _)
      | apply Keeps.via (stateEvent_keeps _ _ _)
      | apply Keeps.via (report_keeps _ _ _ _ _)
      | apply Keeps.via (setB_keeps _ _ _ _)
      | apply Keeps.ite

theorem execRthHour_keeps (x : RthHour) (s : State) :
    KeepsOut (Part.regs ||| Part.log ||| Part.records ||| Part.sup ||| Part.sec) s (execRthHour x s) := by
  unfold execRthHour
  repeat' with_reducible first
      | apply Keeps.refl | assumption | (apply Part.named; decide)
      | apply Keeps.next
      | (extract_lets +onlyGivenNames x; first | (refine keepsLet (x := x) ?_ ?_; (on_goal 2 => (clear_value x; intro _)); (on_goal 1 => (unfold x; clear x))) | (refine keepsLetO (x := x) ?_ ?_; (on_goal 2 => (clear_value x; intro _)); (on_goal 1 => (unfold x; clear x))) | skip)
      | apply Keeps.via (setB_keeps _ _ _ _)
      | apply Keeps.via (setF_keeps _ _ _ _ _)
      | apply Keeps.via (modSup_keeps _ _)
      | apply Keeps.via (coolingWarning_keeps _ _)
      | apply Keeps.ite
      | apply KeepsOut.ite

theorem execThmRthReset_keeps (d : BitVec 32) (s : State) : KeepsOut (Part.regs ||| Part.sup) s (execThmRthReset d s) := by
  unfold execThmRthReset
  repeat' with_reducible first
      | apply Keeps.refl | assumption | (apply Part.named; decide)
      | apply Keeps.next
      | apply Keeps.via (setF_keeps _ _ _ _ _)
      | apply Keeps.via (modSup_keeps _ _)
      | apply Keeps.ite
      | apply KeepsOut.ite

theorem execThermalCycleSecond_keeps (t : Fin 16) (x : Int) (s : State) : KeepsOut (Part.hub ||| Part.sup) s (execThermalCycleSecond t x s) := by
  unfold execThermalCycleSecond
  repeat' with_reducible first
      | apply Keeps.refl | assumption | (apply Part.named; decide)
      | apply Keeps.next
      | (extract_lets +onlyGivenNames x; first | (refine keepsLet (x := x) ?_ ?_; (on_goal 2 => (clear_value x; intro _)); (on_goal 1 => (unfold x; clear x))) | (refine keepsLetO (x := x) ?_ ?_; (on_goal 2 => (clear_value x; intro _)); (on_goal 1 => (unfold x; clear x))) | skip)
      | apply Keeps.via (modHub_keeps _ _)
      | apply Keeps.via (modTow_keeps _ _ _)
      | apply Keeps.ite
      | apply KeepsOut.ite

theorem execPark_keeps (h : CmdHdr) (s : State) :
    KeepsOut (Part.regs ||| Part.memory ||| Part.log ||| Part.queues ||| Part.towers ||| Part.sup ||| Part.sec) s (execPark h s) := by
  unfold execPark
  repeat' with_reducible first
      | apply Keeps.refl | assumption | (apply Part.named; decide)
      | apply Keeps.next
      | (extract_lets +onlyGivenNames x; first | (refine keepsLet (x := x) ?_ ?_; (on_goal 2 => (clear_value x; intro _)); (on_goal 1 => (unfold x; clear x))) | (refine keepsLetO (x := x) ?_ ?_; (on_goal 2 => (clear_value x; intro _)); (on_goal 1 => (unfold x; clear x))) | skip)
      | apply KeepsOut.viaH (runOp_keeps _ _ _ _ _ ?_ ?_)
      | apply Keeps.via (fail_keeps _ _ _ _)
      | apply Keeps.via (clusterOff_keeps _ _)
      | apply Keeps.via (modSup_keeps _ _)
      | apply Keeps.via (bankPower_keeps _ _ _ _)
      | apply Keeps.via (stateEvent_keeps _ _ _)
      | apply Keeps.via (setB_keeps _ _ _ _)
      | apply Keeps.ite
      | apply KeepsOut.ite
      | apply Keeps.foldl_via
      | intro _

theorem execUnpark_keeps (h : CmdHdr) (s : State) :
    KeepsOut (Part.regs ||| Part.log ||| Part.queues ||| Part.towers ||| Part.sup ||| Part.sec) s (execUnpark h s) := by
  unfold execUnpark
  repeat' with_reducible first
      | apply Keeps.refl | assumption | (apply Part.named; decide)
      | apply Keeps.next
      | (extract_lets +onlyGivenNames x; first | (refine keepsLet (x := x) ?_ ?_; (on_goal 2 => (clear_value x; intro _)); (on_goal 1 => (unfold x; clear x))) | (refine keepsLetO (x := x) ?_ ?_; (on_goal 2 => (clear_value x; intro _)); (on_goal 1 => (unfold x; clear x))) | skip)
      | apply KeepsOut.viaH (runOp_keeps _ _ _ _ _ ?_ ?_)
      | apply Keeps.via (fail_keeps _ _ _ _)
      | apply Keeps.via (clusterOn_keeps _ _)
      | apply Keeps.via (modTower_keeps _ _ _)
      | apply Keeps.via (modSup_keeps _ _)
      | apply Keeps.via (stateEvent_keeps _ _ _)
      | apply Keeps.via (setB_keeps _ _ _ _)
      | apply Keeps.ite
      | apply KeepsOut.ite
      | apply Keeps.foldl_via
      | intro _

end Sys2Proof.Machine
end

