-- ==== Sys2Proof/Laws/KeepHub.lean ====
section
/-!
SUPPORT. What each operation and meaning of Machine/Hub.lean keeps (Laws/Keep.lean).
-/
namespace Sys2Proof.Machine

theorem setSlot_keeps (k : Nat) (x : FwSlot) (s : State) : Keeps Part.hub s (setSlot k x s) := by
  unfold setSlot
  repeat' with_reducible first
      | apply Keeps.refl | assumption | (apply Part.named; decide)
      | apply Keeps.via (modHub_keeps _ _)
      | apply Keeps.ite

theorem showFw_keeps (s : State) : Keeps Part.regs s (showFw s) := by
  unfold showFw
  repeat' with_reducible first
      | apply Keeps.refl | assumption | (apply Part.named; decide)
      | (extract_lets +onlyGivenNames x; first | (refine keepsLet (x := x) ?_ ?_; (on_goal 2 => (clear_value x; intro _)); (on_goal 1 => (unfold x; clear x))) | skip)
      | apply Keeps.via (setReg_keeps _ _ _)
      | apply Keeps.via (setB_keeps _ _ _ _)
      | apply Keeps.ite

theorem raiseSvn_keeps (s : State) : Keeps (Part.regs ||| Part.sec) s (raiseSvn s) := by
  unfold raiseSvn
  extract_lets a b m
  split
  · rename_i h
    simp only [Bool.and_eq_true, decide_eq_true_eq] at h
    refine Keeps.via (showFw_keeps _) (by decide) ?_
    have g : Keeps Part.sec s (modSec (fun c => { c with fusedSvn := m }) s) :=
      { Keeps.refl 0 s with svn := Nat.le_of_lt h.2, sameSec := fun h => absurd h (by decide) }
    exact g.mono (by decide)
  · exact Keeps.refl _ s

theorem execFwStage_keeps (h : CmdHdr) (src len : Nat) (s : State) :
    KeepsOut (Part.regs ||| Part.memory ||| Part.frees ||| Part.records ||| Part.queues ||| Part.towers ||| Part.stacks ||| Part.hub ||| Part.sec) s (execFwStage h src len s) := by
  unfold execFwStage
  repeat' with_reducible first
      | apply Keeps.refl | assumption | (apply Part.named; decide)
      | apply Keeps.next
      | (extract_lets +onlyGivenNames x; first | (refine keepsLet (x := x) ?_ ?_; (on_goal 2 => (clear_value x; intro _)); (on_goal 1 => (unfold x; clear x))) | (refine keepsLetO (x := x) ?_ ?_; (on_goal 2 => (clear_value x; intro _)); (on_goal 1 => (unfold x; clear x))) | skip)
      | apply KeepsOut.viaH (runOp_keeps _ _ _ _ _ ?_ ?_)
      | apply Keeps.via (readT_keeps _ _ _ _ _)
      | (apply keepsEq (fun r => r.s) (readT_keeps _ _ _ _ _); on_goal 1 => assumption)
      | apply Keeps.via (fail_keeps _ _ _ _)
      | apply Keeps.via (bumpFree_keeps _)
      | apply Keeps.via (noteFw_keeps _ _ _)
      | apply Keeps.via (setB_keeps _ _ _ _)
      | apply Keeps.via (setSlot_keeps _ _ _)
      | apply Keeps.via (raiseSvn_keeps _)
      | apply Keeps.via (showFw_keeps _)
      | apply Keeps.ite
      | apply KeepsOut.ite
      | intro _

theorem execFwSwitch_keeps (h : CmdHdr) (target : Nat) (s : State) :
    KeepsOut (Part.regs ||| Part.queues ||| Part.hub) s (execFwSwitch h target s) := by
  unfold execFwSwitch
  repeat' with_reducible first
      | apply Keeps.refl | assumption | (apply Part.named; decide)
      | apply Keeps.next
      | apply KeepsOut.viaH (runOp_keeps _ _ _ _ _ ?_ ?_)
      | apply Keeps.via (fail_keeps _ _ _ _)
      | apply Keeps.via (setB_keeps _ _ _ _)
      | apply Keeps.via (stageChange_keeps _ _ _ _)
      | apply Keeps.ite
      | apply KeepsOut.ite
      | intro _

theorem beginSwitch_keeps (n : Nat) (x : Staged) (s : State) : Keeps (Part.regs ||| Part.hub) s (beginSwitch n x s) := by
  unfold beginSwitch
  repeat' with_reducible first
      | apply Keeps.refl | assumption | (apply Part.named; decide)
      | (extract_lets +onlyGivenNames x; first | (refine keepsLet (x := x) ?_ ?_; (on_goal 2 => (clear_value x; intro _)); (on_goal 1 => (unfold x; clear x))) | skip)
      | apply Keeps.via (setB_keeps _ _ _ _)
      | apply Keeps.via (modHub_keeps _ _)
      | apply Keeps.via (showFw_keeps _)

theorem actHeld_keeps (e : HeldEvent) (s : State) : Keeps (Part.regs ||| Part.memory ||| Part.log ||| Part.records ||| Part.jobs ||| Part.clusters ||| Part.atts ||| Part.towers ||| Part.stacks ||| Part.hub ||| Part.sup) s (actHeld e s) := by
  unfold actHeld
  repeat' with_reducible first
      | apply Keeps.refl | assumption | (apply Part.named; decide)
      | apply Keeps.via (pageSecond_keeps _ _ _)
      | apply Keeps.via (replaceRow_keeps _ _ _ _)
      | apply Keeps.via (retireCluster_keeps _ _ _)
      | split

theorem actOnHeld_keeps (s : State) : Keeps (Part.regs ||| Part.memory ||| Part.log ||| Part.records ||| Part.jobs ||| Part.clusters ||| Part.atts ||| Part.towers ||| Part.stacks ||| Part.hub ||| Part.sup) s (actOnHeld s) := by
  unfold actOnHeld
  repeat' with_reducible first
      | apply Keeps.refl | assumption | (apply Part.named; decide)
      | apply Keeps.via (actHeld_keeps _ _)
      | apply Keeps.via (modHub_keeps _ _)
      | apply Keeps.foldl_via
      | intro _

theorem fwRuns_keeps (s : State) : Keeps (Part.regs ||| Part.memory ||| Part.log ||| Part.records ||| Part.jobs ||| Part.clusters ||| Part.atts ||| Part.towers ||| Part.stacks ||| Part.hub ||| Part.sup) s (fwRuns s) := by
  unfold fwRuns
  repeat' with_reducible first
      | apply Keeps.refl | assumption | (apply Part.named; decide)
      | apply Keeps.via (setB_keeps _ _ _ _)
      | apply Keeps.via (modHub_keeps _ _)
      | apply Keeps.via (actOnHeld_keeps _)

theorem endAllJobs_keeps (s : State) :
    Keeps (Part.regs ||| Part.memory ||| Part.log ||| Part.pace ||| Part.queues ||| Part.jobs ||| Part.clusters ||| Part.bases ||| Part.mcores ||| Part.vcores ||| Part.xfers ||| Part.atts ||| Part.hurdles ||| Part.links ||| Part.coll ||| Part.sup) s (endAllJobs s) := by
  unfold endAllJobs
  repeat' with_reducible first
      | apply Keeps.refl | assumption | (apply Part.named; decide)
      | apply Keeps.via (endJobs_keeps _ _ _ _)

theorem execFwReady_keeps (s : State) :
    KeepsOut (Part.regs ||| Part.memory ||| Part.log ||| Part.records ||| Part.pace ||| Part.queues ||| Part.jobs ||| Part.clusters ||| Part.bases ||| Part.mcores ||| Part.vcores ||| Part.xfers ||| Part.atts ||| Part.hurdles ||| Part.towers ||| Part.stacks ||| Part.hub ||| Part.links ||| Part.coll ||| Part.sup ||| Part.sec) s (execFwReady s) := by
  unfold execFwReady
  repeat' with_reducible first
      | apply Keeps.refl | assumption | (apply Part.named; decide)
      | apply Keeps.next
      | (extract_lets +onlyGivenNames x; first | (refine keepsLet (x := x) ?_ ?_; (on_goal 2 => (clear_value x; intro _)); (on_goal 1 => (unfold x; clear x))) | (refine keepsLetO (x := x) ?_ ?_; (on_goal 2 => (clear_value x; intro _)); (on_goal 1 => (unfold x; clear x))) | skip)
      | apply Keeps.via (modHub_keeps _ _)
      | apply Keeps.via (setB_keeps _ _ _ _)
      | apply Keeps.via (fwRuns_keeps _)
      | apply Keeps.via (noteFw_keeps _ _ _)
      | apply Keeps.via (report_keeps _ _ _ _ _)
      | apply Keeps.via (finish_keeps _ _ _ _ _ _ _)
      | apply Keeps.via (raiseSvn_keeps _)
      | apply Keeps.via (showFw_keeps _)
      | apply Keeps.via (endAllJobs_keeps _)
      | split

theorem revertSwitch_keeps (s : State) : Keeps (Part.regs ||| Part.memory ||| Part.log ||| Part.records ||| Part.queues ||| Part.jobs ||| Part.clusters ||| Part.atts ||| Part.towers ||| Part.stacks ||| Part.hub ||| Part.sup) s (revertSwitch s) := by
  unfold revertSwitch
  repeat' with_reducible first
      | apply Keeps.refl | assumption | (apply Part.named; decide)
      | (extract_lets +onlyGivenNames x; first | (refine keepsLet (x := x) ?_ ?_; (on_goal 2 => (clear_value x; intro _)); (on_goal 1 => (unfold x; clear x))) | skip)
      | apply Keeps.via (setSlot_keeps _ _ _)
      | apply Keeps.via (modHub_keeps _ _)
      | apply Keeps.via (showFw_keeps _)
      | apply Keeps.via (setB_keeps _ _ _ _)
      | apply Keeps.via (fwRuns_keeps _)
      | apply Keeps.via (noteFw_keeps _ _ _)
      | apply Keeps.via (report_keeps _ _ _ _ _)
      | apply Keeps.via (fail_keeps _ _ _ _)
      | split

theorem execVerificationFail_keeps (s : State) : KeepsOut (Part.regs ||| Part.memory ||| Part.log ||| Part.records ||| Part.queues ||| Part.jobs ||| Part.clusters ||| Part.atts ||| Part.towers ||| Part.stacks ||| Part.hub ||| Part.sup) s (execVerificationFail s) := by
  unfold execVerificationFail
  repeat' with_reducible first
      | apply Keeps.refl | assumption | (apply Part.named; decide)
      | apply Keeps.next
      | apply Keeps.via (revertSwitch_keeps _)

theorem execFwSwitchTimeout_keeps (s : State) : KeepsOut (Part.regs ||| Part.memory ||| Part.log ||| Part.records ||| Part.queues ||| Part.jobs ||| Part.clusters ||| Part.atts ||| Part.towers ||| Part.stacks ||| Part.hub ||| Part.sup) s (execFwSwitchTimeout s) := by
  unfold execFwSwitchTimeout
  repeat' with_reducible first
      | apply Keeps.refl | assumption | (apply Part.named; decide)
      | apply Keeps.next
      | apply Keeps.via (revertSwitch_keeps _)

theorem execHubWdtKick_keeps (d : BitVec 32) (t : Nat) (s : State) : KeepsOut (Part.time ||| Part.hub) s (execHubWdtKick d t s) := by
  unfold execHubWdtKick
  repeat' with_reducible first
      | apply Keeps.refl | assumption | (apply Part.named; decide)
      | apply Keeps.next
      | (extract_lets +onlyGivenNames x; first | (refine keepsLet (x := x) ?_ ?_; (on_goal 2 => (clear_value x; intro _)); (on_goal 1 => (unfold x; clear x))) | (refine keepsLetO (x := x) ?_ ?_; (on_goal 2 => (clear_value x; intro _)); (on_goal 1 => (unfold x; clear x))) | skip)
      | apply Keeps.via (modHub_keeps _ _)
      | apply Keeps.ite
      | apply KeepsOut.ite
      | apply Keeps.via (Keeps.later _ _)

theorem execWatchdog_keeps (t : Nat) (s : State) : KeepsOut (Part.regs ||| Part.time ||| Part.records ||| Part.hub) s (execWatchdog t s) := by
  unfold execWatchdog
  repeat' with_reducible first
      | apply Keeps.refl | assumption | (apply Part.named; decide)
      | apply Keeps.next
      | (extract_lets +onlyGivenNames x; first | (refine keepsLet (x := x) ?_ ?_; (on_goal 2 => (clear_value x; intro _)); (on_goal 1 => (unfold x; clear x))) | (refine keepsLetO (x := x) ?_ ?_; (on_goal 2 => (clear_value x; intro _)); (on_goal 1 => (unfold x; clear x))) | skip)
      | apply Keeps.via (setB_keeps _ _ _ _)
      | apply Keeps.via (modHub_keeps _ _)
      | apply Keeps.via (report_keeps _ _ _ _ _)
      | apply Keeps.via (showFw_keeps _)
      | apply Keeps.via (noteFw_keeps _ _ _)
      | apply Keeps.via (declareOut_keeps _ _)
      | apply Keeps.ite
      | apply KeepsOut.ite
      | apply Keeps.via (Keeps.later _ _)

theorem execOutOfService_keeps (s : State) :
    KeepsOut (Part.regs ||| Part.memory ||| Part.log ||| Part.records ||| Part.pace ||| Part.queues ||| Part.jobs ||| Part.clusters ||| Part.bases ||| Part.mcores ||| Part.vcores ||| Part.xfers ||| Part.atts ||| Part.hurdles ||| Part.hub ||| Part.links ||| Part.coll ||| Part.sup ||| Part.sec) s (execOutOfService s) := by
  unfold execOutOfService
  repeat' with_reducible first
      | apply Keeps.refl | assumption | (apply Part.named; decide)
      | apply Keeps.next
      | (extract_lets +onlyGivenNames x; first | (refine keepsLet (x := x) ?_ ?_; (on_goal 2 => (clear_value x; intro _)); (on_goal 1 => (unfold x; clear x))) | (refine keepsLetO (x := x) ?_ ?_; (on_goal 2 => (clear_value x; intro _)); (on_goal 1 => (unfold x; clear x))) | skip)
      | apply Keeps.via (endAllJobs_keeps _)
      | apply Keeps.via (modPace_keeps _ _)
      | apply Keeps.via (modHub_keeps _ _)
      | apply Keeps.via (clusterOff_keeps _ _)
      | apply Keeps.via (pinDrive_keeps _ _ _)
      | apply Keeps.via (setB_keeps _ _ _ _)
      | apply Keeps.via (stateEvent_keeps _ _ _)
      | apply Keeps.via (report_keeps _ _ _ _ _)
      | apply Keeps.ite
      | apply KeepsOut.ite
      | apply Keeps.foldl_via
      | intro _

theorem setUnitOut_keeps (k i : Nat) (b : Bool) (s : State) : Keeps Part.regs s (setUnitOut k i b s) := by
  unfold setUnitOut
  repeat' with_reducible first
      | apply Keeps.refl | assumption | (apply Part.named; decide)
      | apply Keeps.via (setB_keeps _ _ _ _)
      | apply Keeps.ite

theorem takeOut_keeps (k i : Nat) (s : State) :
    Keeps (Part.regs ||| Part.memory ||| Part.log ||| Part.records ||| Part.queues ||| Part.jobs ||| Part.clusters ||| Part.scores ||| Part.xfers ||| Part.hurdles ||| Part.towers ||| Part.stacks ||| Part.links ||| Part.coll ||| Part.sup) s (takeOut k i s) := by
  unfold takeOut
  repeat' with_reducible first
      | apply Keeps.refl | assumption | (apply Part.named; decide)
      | (extract_lets +onlyGivenNames x; first | (refine keepsLet (x := x) ?_ ?_; (on_goal 2 => (clear_value x; intro _)); (on_goal 1 => (unfold x; clear x))) | skip)
      | apply Keeps.via (setUnitOut_keeps _ _ _ _)
      | apply Keeps.via (flushCache_keeps _ _)
      | apply Keeps.via (setPortState_keeps _ _ _)
      | apply Keeps.viaH (leaveService_keeps _ _ _ ?_ ?_)
      | apply Keeps.via (fail_keeps _ _ _ _)
      | apply Keeps.via (modPort_keeps _ _ _)
      | apply Keeps.via (setB_keeps _ _ _ _)
      | apply Keeps.via (driveRefclk_keeps _ _ _)
      | apply Keeps.ite
      | split

theorem unitArgs_keeps (h : CmdHdr) (op target unit : Nat) (k : Nat → Nat → StagedKind) (s : State) :
    Keeps (Part.regs ||| Part.queues ||| Part.hub) s (unitArgs h op target unit k s) := by
  unfold unitArgs
  repeat' with_reducible first
      | apply Keeps.refl | assumption | (apply Part.named; decide)
      | apply Keeps.via (fail_keeps _ _ _ _)
      | apply Keeps.via (stageChange_keeps _ _ _ _)
      | split

theorem execUnitOut_keeps (h : CmdHdr) (target unit : Nat) (s : State) :
    KeepsOut (Part.regs ||| Part.queues ||| Part.hub) s (execUnitOut h target unit s) := by
  unfold execUnitOut
  repeat' with_reducible first
      | apply Keeps.refl | assumption | (apply Part.named; decide)
      | apply Keeps.next
      | apply KeepsOut.viaH (runOp_keeps _ _ _ _ _ ?_ ?_)
      | apply Keeps.via (unitArgs_keeps _ _ _ _ _ _)
      | intro _

theorem execUnitIn_keeps (h : CmdHdr) (target unit : Nat) (s : State) :
    KeepsOut (Part.regs ||| Part.queues ||| Part.hub) s (execUnitIn h target unit s) := by
  unfold execUnitIn
  repeat' with_reducible first
      | apply Keeps.refl | assumption | (apply Part.named; decide)
      | apply Keeps.next
      | apply KeepsOut.viaH (runOp_keeps _ _ _ _ _ ?_ ?_)
      | apply Keeps.via (unitArgs_keeps _ _ _ _ _ _)
      | intro _

theorem takeUnit_keeps (n : Nat) (x : Staged) (s : State) :
    Keeps (Part.regs ||| Part.memory ||| Part.log ||| Part.records ||| Part.queues ||| Part.jobs ||| Part.clusters ||| Part.scores ||| Part.xfers ||| Part.hurdles ||| Part.towers ||| Part.stacks ||| Part.hub ||| Part.links ||| Part.coll ||| Part.sup) s (takeUnit n x s) := by
  unfold takeUnit
  repeat' with_reducible first
      | apply Keeps.refl | assumption | (apply Part.named; decide)
      | (extract_lets +onlyGivenNames x; first | (refine keepsLet (x := x) ?_ ?_; (on_goal 2 => (clear_value x; intro _)); (on_goal 1 => (unfold x; clear x))) | skip)
      | apply Keeps.via (modHub_keeps _ _)
      | apply Keeps.via (fail_keeps _ _ _ _)
      | apply Keeps.via (finish_keeps _ _ _ _ _ _ _)
      | apply Keeps.via (takeOut_keeps _ _ _)
      | apply Keeps.via (modPort_keeps _ _ _)
      | apply Keeps.via (setUnitOut_keeps _ _ _ _)
      | apply Keeps.ite
      | split

theorem takeUnits_keeps (n : Nat) (s : State) :
    Keeps (Part.regs ||| Part.memory ||| Part.log ||| Part.records ||| Part.queues ||| Part.jobs ||| Part.clusters ||| Part.scores ||| Part.xfers ||| Part.hurdles ||| Part.towers ||| Part.stacks ||| Part.hub ||| Part.links ||| Part.coll ||| Part.sup) s (takeUnits n s) := by
  unfold takeUnits
  repeat' with_reducible first
      | apply Keeps.refl | assumption | (apply Part.named; decide)
      | apply Keeps.via (takeUnit_keeps _ _ _)
      | apply Keeps.foldl_via
      | intro _

theorem mapCluster_keeps (c : Nat) (s : State) : Keeps Part.regs s (mapCluster c s) := by
  unfold mapCluster
  repeat' with_reducible first
      | apply Keeps.refl | assumption | (apply Part.named; decide)
      | apply Keeps.via (setMap_keeps _ _ _ _ _)
      | apply Keeps.foldl_via
      | intro _

theorem bondFails_keeps (t lane group source : Nat) (s : State) : Keeps (Part.regs ||| Part.hub) s (bondFails t lane group source s) := by
  unfold bondFails
  repeat' with_reducible first
      | apply Keeps.refl | assumption | (apply Part.named; decide)
      | (extract_lets +onlyGivenNames x; first | (refine keepsLet (x := x) ?_ ?_; (on_goal 2 => (clear_value x; intro _)); (on_goal 1 => (unfold x; clear x))) | skip)
      | apply Keeps.via (softFuse_keeps _ _ _ _)
      | apply Keeps.via (towerLost_keeps _ _)
      | apply Keeps.via (setB_keeps _ _ _ _)
      | apply Keeps.via (setF_keeps _ _ _ _ _)
      | apply Keeps.ite

theorem sweepTower_keeps (t source : Nat) (sweep : List (Nat × Nat)) (s : State) : Keeps (Part.regs ||| Part.towers ||| Part.hub) s (sweepTower t source sweep s) := by
  unfold sweepTower
  repeat' with_reducible first
      | apply Keeps.refl | assumption | (apply Part.named; decide)
      | (extract_lets +onlyGivenNames x; first | (refine keepsLet (x := x) ?_ ?_; (on_goal 2 => (clear_value x; intro _)); (on_goal 1 => (unfold x; clear x))) | skip)
      | apply Keeps.via (modTower_keeps _ _ _)
      | apply Keeps.via (bondFails_keeps _ _ _ _ _)
      | apply Keeps.foldl_via
      | intro _

theorem failCores_keeps (c source : Nat) (l : List Nat) (s : State) :
    Keeps (Part.regs ||| Part.memory ||| Part.log ||| Part.records ||| Part.jobs ||| Part.clusters ||| Part.bases ||| Part.mcores ||| Part.vcores ||| Part.hub ||| Part.sup) s (failCores c source l s) := by
  unfold failCores
  repeat' with_reducible first
      | apply Keeps.refl | assumption | (apply Part.named; decide)
      | apply Keeps.via (coreFailed_keeps _ _ _ _ _)
      | apply Keeps.foldl_via
      | intro _

theorem testCluster_keeps (c : Nat) (l : List Nat) (s : State) :
    Keeps (Part.regs ||| Part.memory ||| Part.log ||| Part.records ||| Part.jobs ||| Part.clusters ||| Part.bases ||| Part.mcores ||| Part.vcores ||| Part.hub ||| Part.sup) s (testCluster c l s) := by
  unfold testCluster
  repeat' with_reducible first
      | apply Keeps.refl | assumption | (apply Part.named; decide)
      | (extract_lets +onlyGivenNames x; first | (refine keepsLet (x := x) ?_ ?_; (on_goal 2 => (clear_value x; intro _)); (on_goal 1 => (unfold x; clear x))) | skip)
      | apply Keeps.via (failCores_keeps _ _ _ _)
      | apply Keeps.via (mapCluster_keeps _ _)
      | apply Keeps.via (zeroRange_keeps _ _ _)
      | apply Keeps.ite

theorem execUnitTestDone_keeps (kind index : Nat) (failed : List Nat) (sweep : List (Nat × Nat)) (s : State) : KeepsOut (Part.regs ||| Part.memory ||| Part.log ||| Part.records ||| Part.queues ||| Part.jobs ||| Part.clusters ||| Part.bases ||| Part.mcores ||| Part.vcores ||| Part.towers ||| Part.hub ||| Part.sup) s (execUnitTestDone kind index failed sweep s) := by
  unfold execUnitTestDone
  repeat' with_reducible first
      | apply Keeps.refl | assumption | (apply Part.named; decide)
      | apply Keeps.next
      | (extract_lets +onlyGivenNames x; first | (refine keepsLet (x := x) ?_ ?_; (on_goal 2 => (clear_value x; intro _)); (on_goal 1 => (unfold x; clear x))) | (refine keepsLetO (x := x) ?_ ?_; (on_goal 2 => (clear_value x; intro _)); (on_goal 1 => (unfold x; clear x))) | skip)
      | apply Keeps.via (modHub_keeps _ _)
      | apply Keeps.via (testCluster_keeps _ _ _)
      | apply Keeps.via (bondFails_keeps _ _ _ _ _)
      | apply Keeps.via (report_keeps _ _ _ _ _)
      | apply Keeps.via (setUnitOut_keeps _ _ _ _)
      | apply Keeps.via (setB_keeps _ _ _ _)
      | apply Keeps.via (driveRefclk_keeps _ _ _)
      | apply Keeps.via (fail_keeps _ _ _ _)
      | apply Keeps.via (finish_keeps _ _ _ _ _ _ _)
      | apply Keeps.via (sweepTower_keeps _ _ _ _)
      | apply Keeps.via (changeM_keeps _ _ _)
      | apply Keeps.ite
      | apply KeepsOut.ite
      | apply Keeps.foldl_via
      | intro _
      | split

end Sys2Proof.Machine
end

