-- ==== Sys2Proof/Laws/KeepSecurity.lean ====
section
/-!
SUPPORT. What each operation and meaning of Machine/Security.lean keeps (Laws/Keep.lean).
-/
namespace Sys2Proof.Machine

theorem freshNonce_keeps (s : State) : Keeps (Part.regs ||| Part.sec) s (freshNonce s) := by
  unfold freshNonce
  repeat' with_reducible first
      | apply Keeps.refl | assumption | (apply Part.named; decide) | rfl
      | (extract_lets +onlyGivenNames x; first | (refine keepsLet (x := x) ?_ ?_; (on_goal 2 => (clear_value x; intro _)); (on_goal 1 => (unfold x; clear x))) | skip)
      | apply Keeps.via (setReg_keeps _ _ _)
      | apply Keeps.via (modSec_keeps _ _ ?_ ?_)
      | apply Keeps.foldl_via
      | intro _

theorem enterSuspended_keeps (s : State) :
    Keeps (Part.regs ||| Part.memory ||| Part.log ||| Part.pace ||| Part.queues ||| Part.jobs ||| Part.clusters ||| Part.bases ||| Part.mcores ||| Part.vcores ||| Part.xfers ||| Part.atts ||| Part.hurdles ||| Part.links ||| Part.coll ||| Part.sup) s (enterSuspended s) := by
  unfold enterSuspended
  repeat' with_reducible first
      | apply Keeps.refl | assumption | (apply Part.named; decide)
      | apply Keeps.via (endJobs_keeps _ _ _ _)
      | apply Keeps.via (modPace_keeps _ _)

theorem securityEvent_keeps (s : State) : Keeps (Part.regs ||| Part.memory ||| Part.log ||| Part.towers ||| Part.sec) s (securityEvent s) := by
  unfold securityEvent
  repeat' with_reducible first
      | apply Keeps.refl | assumption | (apply Part.named; decide) | rfl
      | apply Keeps.via (signal_keeps _ _ _)
      | apply Keeps.via (secureWipe_keeps _)
      | apply Keeps.via (modSec_keeps _ _ ?_ ?_)

theorem changeState_keeps (st : Nat) (s : State) :
    Keeps (Part.regs ||| Part.memory ||| Part.log ||| Part.pace ||| Part.queues ||| Part.jobs ||| Part.clusters ||| Part.bases ||| Part.mcores ||| Part.vcores ||| Part.xfers ||| Part.atts ||| Part.hurdles ||| Part.towers ||| Part.links ||| Part.coll ||| Part.sup ||| Part.sec) s (changeState st s) := by
  unfold changeState
  repeat' with_reducible first
      | apply Keeps.refl | assumption | (apply Part.named; decide)
      | (extract_lets +onlyGivenNames x; first | (refine keepsLet (x := x) ?_ ?_; (on_goal 2 => (clear_value x; intro _)); (on_goal 1 => (unfold x; clear x))) | skip)
      | apply Keeps.via (stateEvent_keeps _ _ _)
      | apply Keeps.via (securityEvent_keeps _)
      | apply Keeps.via (setF_keeps _ _ _ _ _)
      | apply Keeps.via (enterSuspended_keeps _)
      | apply Keeps.ite

theorem addOwner_keeps (key : List Byte) (s : State) : Keeps (Part.regs ||| Part.sec) s (addOwner key s) := by
  unfold addOwner
  split
  · rename_i h
    refine Keeps.via (setF_keeps _ _ _ _ _) (by decide) ?_
    have g : Keeps Part.sec s (modSec (fun x => { x with owners := x.owners ++ [key] }) s) :=
      { Keeps.refl 0 s with
        owners := List.prefix_append _ _
        slots := fun _ => by
          show (s.sec.owners ++ [key]).length ≤ 4
          rw [List.length_append, List.length_singleton]
          omega
        sameSec := fun h => absurd h (by decide) }
    exact g.mono (by decide)
  · exact Keeps.refl _ s

theorem execSecLcCtrl_keeps (d : BitVec 32) (s : State) :
    KeepsOut (Part.regs ||| Part.memory ||| Part.frees ||| Part.log ||| Part.records ||| Part.pace ||| Part.queues ||| Part.jobs ||| Part.clusters ||| Part.bases ||| Part.mcores ||| Part.vcores ||| Part.xfers ||| Part.atts ||| Part.hurdles ||| Part.towers ||| Part.stacks ||| Part.hub ||| Part.links ||| Part.coll ||| Part.sup ||| Part.sec) s (execSecLcCtrl d s) := by
  unfold execSecLcCtrl
  repeat' with_reducible first
      | apply Keeps.refl | assumption | (apply Part.named; decide)
      | apply Keeps.next
      | (extract_lets +onlyGivenNames x; first | (refine keepsLet (x := x) ?_ ?_; (on_goal 2 => (clear_value x; intro _)); (on_goal 1 => (unfold x; clear x))) | (refine keepsLetO (x := x) ?_ ?_; (on_goal 2 => (clear_value x; intro _)); (on_goal 1 => (unfold x; clear x))) | skip)
      | apply Keeps.via (bumpFree_keeps _)
      | apply Keeps.via (busError_keeps _ _ _)
      | apply Keeps.via (setF_keeps _ _ _ _ _)
      | apply Keeps.via (addOwner_keeps _ _)
      | apply Keeps.via (changeState_keeps _ _)
      | apply Keeps.via (freshNonce_keeps _)
      | apply Keeps.via (readError_keeps _ _ _)
      | apply Keeps.ite
      | apply KeepsOut.ite

theorem tamperLevel_keeps (asserted : Bool) (s : State) :
    Keeps (Part.regs ||| Part.memory ||| Part.log ||| Part.pace ||| Part.queues ||| Part.jobs ||| Part.clusters ||| Part.bases ||| Part.mcores ||| Part.vcores ||| Part.xfers ||| Part.atts ||| Part.hurdles ||| Part.towers ||| Part.links ||| Part.coll ||| Part.sup ||| Part.sec) s (tamperLevel asserted s) := by
  unfold tamperLevel
  repeat' with_reducible first
      | apply Keeps.refl | assumption | (apply Part.named; decide)
      | (extract_lets +onlyGivenNames x; first | (refine keepsLet (x := x) ?_ ?_; (on_goal 2 => (clear_value x; intro _)); (on_goal 1 => (unfold x; clear x))) | skip)
      | apply Keeps.via (setB_keeps _ _ _ _)
      | apply Keeps.via (setF_keeps _ _ _ _ _)
      | apply Keeps.via (changeState_keeps _ _)
      | apply Keeps.via (securityEvent_keeps _)
      | apply Keeps.ite

theorem execTamper_keeps (asserted : Bool) (s : State) :
    KeepsOut (Part.regs ||| Part.memory ||| Part.log ||| Part.pace ||| Part.queues ||| Part.jobs ||| Part.clusters ||| Part.bases ||| Part.mcores ||| Part.vcores ||| Part.xfers ||| Part.atts ||| Part.hurdles ||| Part.towers ||| Part.links ||| Part.coll ||| Part.sup ||| Part.sec) s (execTamper asserted s) := by
  unfold execTamper
  repeat' with_reducible first
      | apply Keeps.refl | assumption | (apply Part.named; decide)
      | apply Keeps.next
      | apply Keeps.via (tamperLevel_keeps _ _)

theorem sendSpdm_keeps (l : List Byte) (s : State) : Keeps Part.log s (sendSpdm l s) := by
  unfold sendSpdm
  repeat' with_reducible first
      | apply Keeps.refl | assumption | (apply Part.named; decide)
      | apply Keeps.via (emit_keeps _ _)

theorem spdmError_keeps (ver code : Nat) (s : State) : Keeps Part.log s (spdmError ver code s) := by
  unfold spdmError
  repeat' with_reducible first
      | apply Keeps.refl | assumption | (apply Part.named; decide)
      | apply Keeps.via (sendSpdm_keeps _ _)

theorem spdmAsk_keeps (code least : Nat) (body : List Byte) (act : State → State) (s : State) {m : Nat} (hm : Part.log ||| m = m) (hact : ∀ x0, Keeps m x0 (act x0)) :
    KeepsOut m s (spdmAsk code least body act s) := by
  unfold spdmAsk
  repeat' with_reducible first
      | apply Keeps.refl | assumption | (apply Part.named; decide)
      | apply Keeps.next
      | apply Keeps.via (spdmError_keeps _ _ _)
      | apply Keeps.viaH (hact _)
      | apply Keeps.ite
      | apply KeepsOut.ite

theorem execGetVersion_keeps (body : List (BitVec 8)) (s : State) : KeepsOut (Part.log ||| Part.sec) s (execGetVersion body s) := by
  unfold execGetVersion
  repeat' with_reducible first
      | apply Keeps.refl | assumption | (apply Part.named; decide) | rfl
      | apply Keeps.next
      | apply Keeps.via (spdmError_keeps _ _ _)
      | apply Keeps.via (sendSpdm_keeps _ _)
      | apply Keeps.via (modSec_keeps _ _ ?_ ?_)
      | apply Keeps.ite
      | apply KeepsOut.ite

theorem execGetCapabilities_keeps (body : List (BitVec 8)) (s : State) :
    KeepsOut (Part.frees ||| Part.log ||| Part.sec) s (execGetCapabilities body s) := by
  unfold execGetCapabilities
  repeat' with_reducible first
      | apply Keeps.refl | assumption | (apply Part.named; decide) | rfl
      | apply Keeps.next
      | (extract_lets +onlyGivenNames x; first | (refine keepsLet (x := x) ?_ ?_; (on_goal 2 => (clear_value x; intro _)); (on_goal 1 => (unfold x; clear x))) | (refine keepsLetO (x := x) ?_ ?_; (on_goal 2 => (clear_value x; intro _)); (on_goal 1 => (unfold x; clear x))) | skip)
      | apply KeepsOut.viaH (spdmAsk_keeps _ _ _ _ _ ?_ ?_)
      | apply Keeps.via (spdmError_keeps _ _ _)
      | apply Keeps.via (bumpFree_keeps _)
      | apply Keeps.via (sendSpdm_keeps _ _)
      | apply Keeps.via (modSec_keeps _ _ ?_ ?_)
      | apply Keeps.ite
      | apply KeepsOut.ite
      | intro _

theorem execNegotiateAlgorithms_keeps (body : List (BitVec 8)) (s : State) : KeepsOut (Part.log ||| Part.sec) s (execNegotiateAlgorithms body s) := by
  unfold execNegotiateAlgorithms
  repeat' with_reducible first
      | apply Keeps.refl | assumption | (apply Part.named; decide) | rfl
      | apply Keeps.next
      | apply KeepsOut.viaH (spdmAsk_keeps _ _ _ _ _ ?_ ?_)
      | apply Keeps.via (sendSpdm_keeps _ _)
      | apply Keeps.via (modSec_keeps _ _ ?_ ?_)
      | intro _

theorem execGetDigests_keeps (body : List (BitVec 8)) (s : State) : KeepsOut Part.log s (execGetDigests body s) := by
  unfold execGetDigests
  repeat' with_reducible first
      | apply Keeps.refl | assumption | (apply Part.named; decide)
      | apply Keeps.next
      | apply KeepsOut.viaH (spdmAsk_keeps _ _ _ _ _ ?_ ?_)
      | apply Keeps.via (sendSpdm_keeps _ _)
      | intro _

theorem execGetCertificate_keeps (body : List (BitVec 8)) (s : State) : KeepsOut Part.log s (execGetCertificate body s) := by
  unfold execGetCertificate
  repeat' with_reducible first
      | apply Keeps.refl | assumption | (apply Part.named; decide)
      | apply Keeps.next
      | (extract_lets +onlyGivenNames x; first | (refine keepsLet (x := x) ?_ ?_; (on_goal 2 => (clear_value x; intro _)); (on_goal 1 => (unfold x; clear x))) | (refine keepsLetO (x := x) ?_ ?_; (on_goal 2 => (clear_value x; intro _)); (on_goal 1 => (unfold x; clear x))) | skip)
      | apply KeepsOut.viaH (spdmAsk_keeps _ _ _ _ _ ?_ ?_)
      | apply Keeps.via (spdmError_keeps _ _ _)
      | apply Keeps.via (sendSpdm_keeps _ _)
      | apply Keeps.ite
      | apply KeepsOut.ite
      | intro _

theorem answerNonce_keeps (s : State) : Keeps Part.sec s (answerNonce s).2 := by
  unfold answerNonce
  repeat' with_reducible first
      | apply Keeps.refl | assumption | (apply Part.named; decide) | rfl
      | apply Keeps.via (modSec_keeps _ _ ?_ ?_)

theorem execChallenge_keeps (body : List (BitVec 8)) (s : State) : KeepsOut (Part.frees ||| Part.log ||| Part.sec) s (execChallenge body s) := by
  unfold execChallenge
  repeat' with_reducible first
      | apply Keeps.refl | assumption | (apply Part.named; decide)
      | apply Keeps.next
      | (extract_lets +onlyGivenNames x; first | (refine keepsLet (x := x) ?_ ?_; (on_goal 2 => (clear_value x; intro _)); (on_goal 1 => (unfold x; clear x))) | (refine keepsLetO (x := x) ?_ ?_; (on_goal 2 => (clear_value x; intro _)); (on_goal 1 => (unfold x; clear x))) | skip)
      | apply KeepsOut.viaH (spdmAsk_keeps _ _ _ _ _ ?_ ?_)
      | apply Keeps.via (spdmError_keeps _ _ _)
      | apply Keeps.via (answerNonce_keeps _)
      | (apply keepsEq2 (answerNonce_keeps _); on_goal 1 => assumption)
      | apply Keeps.via (bumpFree_keeps _)
      | apply Keeps.via (sendSpdm_keeps _ _)
      | apply Keeps.ite
      | apply KeepsOut.ite
      | intro _

theorem execGetMeasurements_keeps (body : List (BitVec 8)) (s : State) :
    KeepsOut (Part.frees ||| Part.log ||| Part.sec) s (execGetMeasurements body s) := by
  unfold execGetMeasurements
  repeat' with_reducible first
      | apply Keeps.refl | assumption | (apply Part.named; decide)
      | apply Keeps.next
      | (extract_lets +onlyGivenNames x; first | (refine keepsLet (x := x) ?_ ?_; (on_goal 2 => (clear_value x; intro _)); (on_goal 1 => (unfold x; clear x))) | (refine keepsLetO (x := x) ?_ ?_; (on_goal 2 => (clear_value x; intro _)); (on_goal 1 => (unfold x; clear x))) | skip)
      | apply KeepsOut.viaH (spdmAsk_keeps _ _ _ _ _ ?_ ?_)
      | apply Keeps.via (spdmError_keeps _ _ _)
      | apply Keeps.via (answerNonce_keeps _)
      | (apply keepsEq2 (answerNonce_keeps _); on_goal 1 => assumption)
      | apply Keeps.via (bumpFree_keeps _)
      | apply Keeps.via (sendSpdm_keeps _ _)
      | apply Keeps.ite
      | apply KeepsOut.ite
      | intro _

theorem execMctpControl_keeps (body : List (BitVec 8)) (s : State) : KeepsOut (Part.log ||| Part.sec) s (execMctpControl body s) := by
  unfold execMctpControl
  repeat' with_reducible first
      | apply Keeps.refl | assumption | (apply Part.named; decide) | rfl
      | apply Keeps.next
      | (extract_lets +onlyGivenNames x; first | (refine keepsLet (x := x) ?_ ?_; (on_goal 2 => (clear_value x; intro _)); (on_goal 1 => (unfold x; clear x))) | (refine keepsLetO (x := x) ?_ ?_; (on_goal 2 => (clear_value x; intro _)); (on_goal 1 => (unfold x; clear x))) | skip)
      | apply Keeps.via (emit_keeps _ _)
      | apply Keeps.via (modSec_keeps _ _ ?_ ?_)
      | apply Keeps.ite
      | apply KeepsOut.ite

theorem execSetEventReceiver_keeps (receiver : Nat) (s : State) : KeepsOut (Part.log ||| Part.sec) s (execSetEventReceiver receiver s) := by
  unfold execSetEventReceiver
  repeat' with_reducible first
      | apply Keeps.refl | assumption | (apply Part.named; decide) | rfl
      | apply Keeps.next
      | (extract_lets +onlyGivenNames x; first | (refine keepsLet (x := x) ?_ ?_; (on_goal 2 => (clear_value x; intro _)); (on_goal 1 => (unfold x; clear x))) | (refine keepsLetO (x := x) ?_ ?_; (on_goal 2 => (clear_value x; intro _)); (on_goal 1 => (unfold x; clear x))) | skip)
      | apply Keeps.via (emit_keeps _ _)
      | apply Keeps.via (modSec_keeps _ _ ?_ ?_)
      | apply Keeps.foldl_via
      | intro _

theorem execPldmSensorRead_keeps (sensor : Nat) (s : State) : KeepsOut Part.log s (execPldmSensorRead sensor s) := by
  unfold execPldmSensorRead
  repeat' with_reducible first
      | apply Keeps.refl | assumption | (apply Part.named; decide)
      | apply Keeps.next
      | apply Keeps.via (emit_keeps _ _)
      | split

end Sys2Proof.Machine
end

