-- ==== Sys2Proof/Laws/KeepOpcodes.lean ====
section
/-!
SUPPORT. What each operation and meaning of Machine/Opcodes.lean keeps (Laws/Keep.lean).
-/
namespace Sys2Proof.Machine

theorem execCopy_keeps (h : CmdHdr) (src dst len host : Nat) (s : State) :
    KeepsOut (Part.regs ||| Part.memory ||| Part.host ||| Part.frees ||| Part.log ||| Part.records ||| Part.queues ||| Part.towers ||| Part.stacks ||| Part.hub) s (execCopy h src dst len host s) := by
  unfold execCopy
  repeat' with_reducible first
      | apply Keeps.refl | assumption | (apply Part.named; decide)
      | apply Keeps.next
      | (extract_lets +onlyGivenNames x; first | (refine keepsLet (x := x) ?_ ?_; (on_goal 2 => (clear_value x; intro _)); (on_goal 1 => (unfold x; clear x))) | (refine keepsLetO (x := x) ?_ ?_; (on_goal 2 => (clear_value x; intro _)); (on_goal 1 => (unfold x; clear x))) | (refine keepsLet (x := x.s) ?_ ?_; (on_goal 2 => (clear_value x; intro _)); (on_goal 1 => (unfold x; clear x))))
      | apply KeepsOut.viaH (runOp_keeps _ _ _ _ _ ?_ ?_)
      | apply Keeps.via (fail_keeps _ _ _ _)
      | apply Keeps.via (readT_keeps _ _ _ _ _)
      | (apply keepsEq (fun r => r.s) (readT_keeps _ _ _ _ _); on_goal 1 => assumption)
      | apply Keeps.via (bumpFree_keeps _)
      | apply Keeps.via (finish_keeps _ _ _ _ _ _ _)
      | apply Keeps.via (hostWrite_keeps _ _ _ _)
      | apply Keeps.via (writeT_keeps _ _ _ _ _)
      | (apply keepsEq (fun r => r.s) (writeT_keeps _ _ _ _ _); on_goal 1 => assumption)
      | apply Keeps.via (Wrote.start_keeps _)
      | (apply keepsEq (fun r => r.s) (Wrote.start_keeps _); on_goal 1 => assumption)
      | apply Keeps.via (Wrote.start_keeps _)
      | apply Keeps.ite
      | apply KeepsOut.ite
      | intro _
      | split

theorem execFill_keeps (h : CmdHdr) (dst len pattern : Nat) (s : State) :
    KeepsOut (Part.regs ||| Part.memory ||| Part.records ||| Part.queues ||| Part.stacks) s (execFill h dst len pattern s) := by
  unfold execFill
  repeat' with_reducible first
      | apply Keeps.refl | assumption | (apply Part.named; decide)
      | apply Keeps.next
      | (extract_lets +onlyGivenNames x; first | (refine keepsLet (x := x) ?_ ?_; (on_goal 2 => (clear_value x; intro _)); (on_goal 1 => (unfold x; clear x))) | (refine keepsLetO (x := x) ?_ ?_; (on_goal 2 => (clear_value x; intro _)); (on_goal 1 => (unfold x; clear x))) | skip)
      | apply KeepsOut.viaH (runOp_keeps _ _ _ _ _ ?_ ?_)
      | apply Keeps.via (fail_keeps _ _ _ _)
      | apply Keeps.via (writeSpan_keeps _ _ _ _ _)
      | (apply keepsEq (fun r => r.s) (writeSpan_keeps _ _ _ _ _); on_goal 1 => assumption)
      | apply Keeps.via (Wrote.start_keeps _)
      | (apply keepsEq (fun r => r.s) (Wrote.start_keeps _); on_goal 1 => assumption)
      | apply Keeps.via (finish_keeps _ _ _ _ _ _ _)
      | apply Keeps.via (Wrote.start_keeps _)
      | apply Keeps.ite
      | apply KeepsOut.ite
      | intro _

theorem execCountersRead_keeps (h : CmdHdr) (dst cluster : Nat) (s : State) :
    KeepsOut (Part.regs ||| Part.memory ||| Part.records ||| Part.queues ||| Part.stacks) s (execCountersRead h dst cluster s) := by
  unfold execCountersRead
  repeat' with_reducible first
      | apply Keeps.refl | assumption | (apply Part.named; decide)
      | apply Keeps.next
      | apply KeepsOut.viaH (runOp_keeps _ _ _ _ _ ?_ ?_)
      | apply Keeps.via (fail_keeps _ _ _ _)
      | apply Keeps.via (replyData_keeps _ _ _ _ _ _)
      | intro _
      | split

theorem execTelemetrySnapshot_keeps (h : CmdHdr) (dst sets : Nat) (s : State) :
    KeepsOut (Part.regs ||| Part.memory ||| Part.log ||| Part.records ||| Part.queues ||| Part.stacks) s (execTelemetrySnapshot h dst sets s) := by
  unfold execTelemetrySnapshot
  repeat' with_reducible first
      | apply Keeps.refl | assumption | (apply Part.named; decide)
      | apply Keeps.next
      | (extract_lets +onlyGivenNames x; first | (refine keepsLet (x := x) ?_ ?_; (on_goal 2 => (clear_value x; intro _)); (on_goal 1 => (unfold x; clear x))) | (refine keepsLetO (x := x) ?_ ?_; (on_goal 2 => (clear_value x; intro _)); (on_goal 1 => (unfold x; clear x))) | skip)
      | apply KeepsOut.viaH (runOp_keeps _ _ _ _ _ ?_ ?_)
      | apply Keeps.via (fail_keeps _ _ _ _)
      | apply Keeps.via (replyData_keeps _ _ _ _ _ _)
      | apply Keeps.via (finish_keeps _ _ _ _ _ _ _)
      | apply Keeps.via (signal_keeps _ _ _)
      | apply Keeps.via (Wrote.start_keeps _)
      | apply Keeps.via (modScribe_keeps _ _)
      | apply Keeps.ite
      | apply KeepsOut.ite
      | apply Keeps.foldl_via
      | intro _

end Sys2Proof.Machine
end

