-- ==== Sys2Proof/Laws/KeepVi.lean ====
section
/-!
SUPPORT. What each operation and meaning of Machine/Vi.lean keeps (Laws/Keep.lean).
-/
namespace Sys2Proof.Machine

theorem writeExtents_keeps (n : Nat) (l : List (Nat × Nat × Nat)) (s : State) : Keeps Part.regs s (writeExtents n l s) := by
  unfold writeExtents
  repeat' with_reducible first
      | apply Keeps.refl | assumption | (apply Part.named; decide)
      | (extract_lets +onlyGivenNames x; first | (refine keepsLet (x := x) ?_ ?_; (on_goal 2 => (clear_value x; intro _)); (on_goal 1 => (unfold x; clear x))) | skip)
      | apply Keeps.via (setReg_keeps _ _ _)
      | apply Keeps.foldl_via
      | intro _

theorem writeRank_keeps (n r : Nat) (s : State) : Keeps Part.regs s (writeRank n r s) := by
  unfold writeRank
  repeat' with_reducible first
      | apply Keeps.refl | assumption | (apply Part.named; decide)
      | apply Keeps.via (setF_keeps _ _ _ _ _)
      | apply Keeps.foldl_via
      | intro _

theorem execViCreate_keeps (h : CmdHdr) (vi : Nat) (payload : List (BitVec 8)) (s : State) :
    KeepsOut (Part.regs ||| Part.log ||| Part.queues) s (execViCreate h vi payload s) := by
  unfold execViCreate
  repeat' with_reducible first
      | apply Keeps.refl | assumption | (apply Part.named; decide)
      | apply Keeps.next
      | (extract_lets +onlyGivenNames x; first | (refine keepsLet (x := x) ?_ ?_; (on_goal 2 => (clear_value x; intro _)); (on_goal 1 => (unfold x; clear x))) | (refine keepsLetO (x := x) ?_ ?_; (on_goal 2 => (clear_value x; intro _)); (on_goal 1 => (unfold x; clear x))) | skip)
      | apply KeepsOut.viaH (runOp_keeps _ _ _ _ _ ?_ ?_)
      | apply Keeps.via (fail_keeps _ _ _ _)
      | apply Keeps.via (writeRank_keeps _ _ _)
      | apply Keeps.via (writeExtents_keeps _ _ _)
      | apply Keeps.via (setReg64_keeps _ _ _)
      | apply Keeps.via (setReg_keeps _ _ _)
      | apply Keeps.via (setB_keeps _ _ _ _)
      | apply Keeps.via (modFn_keeps _ _ _)
      | apply Keeps.via (signal_keeps _ _ _)
      | apply Keeps.ite
      | apply KeepsOut.ite
      | intro _
      | split

theorem execViQuery_keeps (h : CmdHdr) (dst vi : Nat) (s : State) :
    KeepsOut (Part.regs ||| Part.memory ||| Part.records ||| Part.queues ||| Part.stacks) s (execViQuery h dst vi s) := by
  unfold execViQuery
  repeat' with_reducible first
      | apply Keeps.refl | assumption | (apply Part.named; decide)
      | apply Keeps.next
      | apply KeepsOut.viaH (runOp_keeps _ _ _ _ _ ?_ ?_)
      | apply Keeps.via (fail_keeps _ _ _ _)
      | apply Keeps.via (replyData_keeps _ _ _ _ _ _)
      | apply Keeps.ite
      | apply KeepsOut.ite
      | intro _

theorem beginReset_keeps (n : Nat) (destroy : Bool) (replies : List (CmdHdr × Nat)) (s : State) :
    Keeps (Part.regs ||| Part.memory ||| Part.frees ||| Part.log ||| Part.records ||| Part.queues ||| Part.clusters ||| Part.xfers ||| Part.nmus ||| Part.atts ||| Part.hurdles ||| Part.towers ||| Part.stacks ||| Part.hub ||| Part.links ||| Part.coll) s (beginReset n destroy replies s) := by
  unfold beginReset
  repeat' with_reducible first
      | apply Keeps.refl | assumption | (apply Part.named; decide)
      | (extract_lets +onlyGivenNames x; first | (refine keepsLet (x := x) ?_ ?_; (on_goal 2 => (clear_value x; intro _)); (on_goal 1 => (unfold x; clear x))) | skip)
      | apply Keeps.via (setReg_keeps _ _ _)
      | apply Keeps.via (setB_keeps _ _ _ _)
      | apply Keeps.via (modScribe_keeps _ _)
      | apply Keeps.via (stopCluster_keeps _ _)
      | apply Keeps.via (nmuReset_keeps _ _)
      | apply Keeps.via (attReset_keeps _ _)
      | apply Keeps.via (modFn_keeps _ _ _)
      | apply Keeps.via (disarm_keeps _)
      | apply Keeps.via (homeGoesOn_keeps _ _)
      | apply Keeps.foldl_via
      | intro _
      | split
      | apply Keeps.ite
      | (fail_if_no_progress (apply Keeps.via (Keeps.rest (m := (Part.regs ||| Part.memory ||| Part.frees ||| Part.log ||| Part.records ||| Part.queues ||| Part.clusters ||| Part.xfers ||| Part.nmus ||| Part.atts ||| Part.hurdles ||| Part.towers ||| Part.stacks ||| Part.hub ||| Part.links ||| Part.coll)) ..)) <;> first | exact Or.inr rfl | exact Or.inl rfl | skip)
      | fail_if_no_progress (apply Keeps.via (Keeps.putStk _ _))
      | fail_if_no_progress (apply Keeps.via (Keeps.putHwaits _ _))

theorem acceptReset_keeps (n : Nat) (destroy : Bool) (replies : List (CmdHdr × Nat)) (s : State) :
    Keeps (Part.regs ||| Part.memory ||| Part.frees ||| Part.log ||| Part.records ||| Part.queues ||| Part.clusters ||| Part.xfers ||| Part.nmus ||| Part.atts ||| Part.hurdles ||| Part.towers ||| Part.stacks ||| Part.hub ||| Part.links ||| Part.coll) s (acceptReset n destroy replies s) := by
  unfold acceptReset
  repeat' with_reducible first
      | apply Keeps.refl | assumption | (apply Part.named; decide)
      | apply Keeps.via (modFn_keeps _ _ _)
      | apply Keeps.via (beginReset_keeps _ _ _ _)
      | split

theorem viReset_keeps (h : CmdHdr) (op vi : Nat) (destroy : Bool) (s : State) :
    Keeps (Part.regs ||| Part.memory ||| Part.frees ||| Part.log ||| Part.records ||| Part.queues ||| Part.clusters ||| Part.xfers ||| Part.nmus ||| Part.atts ||| Part.hurdles ||| Part.towers ||| Part.stacks ||| Part.hub ||| Part.links ||| Part.coll) s (viReset h op vi destroy s) := by
  unfold viReset
  repeat' with_reducible first
      | apply Keeps.refl | assumption | (apply Part.named; decide)
      | apply Keeps.via (fail_keeps _ _ _ _)
      | apply Keeps.via (acceptReset_keeps _ _ _ _)
      | apply Keeps.via (startCmd_keeps _ _)
      | apply Keeps.via (modScribe_keeps _ _)
      | apply Keeps.via (Wrote.start_keeps _)
      | apply Keeps.ite

theorem execViDestroy_keeps (h : CmdHdr) (vi : Nat) (s : State) :
    KeepsOut (Part.regs ||| Part.memory ||| Part.frees ||| Part.log ||| Part.records ||| Part.queues ||| Part.clusters ||| Part.xfers ||| Part.nmus ||| Part.atts ||| Part.hurdles ||| Part.towers ||| Part.stacks ||| Part.hub ||| Part.links ||| Part.coll) s (execViDestroy h vi s) := by
  unfold execViDestroy
  repeat' with_reducible first
      | apply Keeps.refl | assumption | (apply Part.named; decide)
      | apply Keeps.next
      | apply KeepsOut.viaH (runOp_keeps _ _ _ _ _ ?_ ?_)
      | apply Keeps.via (viReset_keeps _ _ _ _ _)
      | intro _

theorem execViReset_keeps (h : CmdHdr) (vi : Nat) (s : State) :
    KeepsOut (Part.regs ||| Part.memory ||| Part.frees ||| Part.log ||| Part.records ||| Part.queues ||| Part.clusters ||| Part.xfers ||| Part.nmus ||| Part.atts ||| Part.hurdles ||| Part.towers ||| Part.stacks ||| Part.hub ||| Part.links ||| Part.coll) s (execViReset h vi s) := by
  unfold execViReset
  repeat' with_reducible first
      | apply Keeps.refl | assumption | (apply Part.named; decide)
      | apply Keeps.next
      | apply KeepsOut.viaH (runOp_keeps _ _ _ _ _ ?_ ?_)
      | apply Keeps.via (viReset_keeps _ _ _ _ _)
      | intro _

theorem execViFlr_keeps (n : Fin 64) (s : State) :
    KeepsOut (Part.regs ||| Part.memory ||| Part.frees ||| Part.log ||| Part.records ||| Part.queues ||| Part.clusters ||| Part.xfers ||| Part.nmus ||| Part.atts ||| Part.hurdles ||| Part.towers ||| Part.stacks ||| Part.hub ||| Part.links ||| Part.coll) s (execViFlr n s) := by
  unfold execViFlr
  repeat' with_reducible first
      | apply Keeps.refl | assumption | (apply Part.named; decide)
      | apply Keeps.next
      | apply Keeps.via (acceptReset_keeps _ _ _ _)
      | apply Keeps.ite
      | apply KeepsOut.ite

theorem advanceEpochs_keeps (f : Nat) (s : State) : Keeps Part.regs s (advanceEpochs f s) := by
  unfold advanceEpochs
  repeat' with_reducible first
      | apply Keeps.refl | assumption | (apply Part.named; decide)
      | apply Keeps.via (setEpochs_keeps _ _ _ _ _)
      | apply Keeps.ite
      | apply Keeps.foldl_via
      | intro _

theorem execAfFlr_keeps (s : State) :
    KeepsOut (Part.regs ||| Part.memory ||| Part.frees ||| Part.log ||| Part.records ||| Part.pace ||| Part.queues ||| Part.jobs ||| Part.clusters ||| Part.bases ||| Part.mcores ||| Part.vcores ||| Part.xfers ||| Part.nmus ||| Part.atts ||| Part.hurdles ||| Part.towers ||| Part.stacks ||| Part.hub ||| Part.links ||| Part.coll ||| Part.sup) s (execAfFlr s) := by
  unfold execAfFlr
  repeat' with_reducible first
      | apply Keeps.refl | assumption | (apply Part.named; decide)
      | apply Keeps.next
      | (extract_lets +onlyGivenNames x; first | (refine keepsLet (x := x) ?_ ?_; (on_goal 2 => (clear_value x; intro _)); (on_goal 1 => (unfold x; clear x))) | (refine keepsLetO (x := x) ?_ ?_; (on_goal 2 => (clear_value x; intro _)); (on_goal 1 => (unfold x; clear x))) | skip)
      | apply Keeps.via (acceptReset_keeps _ _ _ _)
      | apply Keeps.via (modFn_keeps _ _ _)
      | apply Keeps.via (endJobs_keeps _ _ _ _)
      | apply Keeps.via (modPace_keeps _ _)
      | apply Keeps.via (advanceEpochs_keeps _ _)
      | apply Keeps.ite
      | apply KeepsOut.ite
      | apply Keeps.foldl_via
      | intro _

theorem clearCounters_keeps (c : Nat) (s : State) : Keeps (Part.regs ||| Part.clusters) s (clearCounters c s) := by
  unfold clearCounters
  repeat' with_reducible first
      | apply Keeps.refl | assumption | (apply Part.named; decide)
      | (extract_lets +onlyGivenNames x; first | (refine keepsLet (x := x) ?_ ?_; (on_goal 2 => (clear_value x; intro _)); (on_goal 1 => (unfold x; clear x))) | skip)
      | apply Keeps.via (modCluster_keeps _ _ _)
      | apply Keeps.via (clearWords_keeps _ _ _)
      | apply Keeps.via (setReg_keeps _ _ _)

theorem drainDone_keeps (n : Nat) (s : State) :
    Keeps (Part.regs ||| Part.memory ||| Part.log ||| Part.records ||| Part.pace ||| Part.queues ||| Part.jobs ||| Part.clusters ||| Part.bases ||| Part.mcores ||| Part.vcores ||| Part.xfers ||| Part.atts ||| Part.hurdles ||| Part.links ||| Part.coll ||| Part.sup) s (drainDone n s) := by
  unfold drainDone
  repeat' with_reducible first
      | apply Keeps.refl | assumption | (apply Part.named; decide)
      | (extract_lets +onlyGivenNames x; first | (refine keepsLet (x := x) ?_ ?_; (on_goal 2 => (clear_value x; intro _)); (on_goal 1 => (unfold x; clear x))) | skip)
      | apply Keeps.via (endJobs_keeps _ _ _ _)
      | apply Keeps.via (fail_keeps _ _ _ _)
      | apply Keeps.via (modFn_keeps _ _ _)
      | apply Keeps.via (attReset_keeps _ _)
      | apply Keeps.via (setReg_keeps _ _ _)
      | apply Keeps.via (dropPair_keeps _ _ _)
      | apply Keeps.via (modScribe_keeps _ _)
      | apply Keeps.via (clearCounters_keeps _ _)
      | apply Keeps.via (setB_keeps _ _ _ _)
      | apply Keeps.via (Wrote.start_keeps _)
      | apply Keeps.ite
      | apply Keeps.foldl_via
      | intro _
      | split
      | (fail_if_no_progress (apply Keeps.via (Keeps.rest (m := (Part.regs ||| Part.memory ||| Part.log ||| Part.records ||| Part.pace ||| Part.queues ||| Part.jobs ||| Part.clusters ||| Part.bases ||| Part.mcores ||| Part.vcores ||| Part.xfers ||| Part.atts ||| Part.hurdles ||| Part.links ||| Part.coll ||| Part.sup)) ..)) <;> first | exact Or.inr rfl | exact Or.inl rfl | skip)
      | fail_if_no_progress (apply Keeps.via (Keeps.putScheds _ _))
      | fail_if_no_progress (apply Keeps.via (Keeps.putHurdles _ _))
      | fail_if_no_progress (apply Keeps.via (Keeps.putHwaits _ _))
      | fail_if_no_progress (apply Keeps.via (Keeps.putRecs _ _))

theorem execViResetDrainDone_keeps (n : Fin 64) (s : State) :
    KeepsOut (Part.regs ||| Part.memory ||| Part.log ||| Part.records ||| Part.pace ||| Part.queues ||| Part.jobs ||| Part.clusters ||| Part.bases ||| Part.mcores ||| Part.vcores ||| Part.xfers ||| Part.atts ||| Part.hurdles ||| Part.links ||| Part.coll ||| Part.sup) s (execViResetDrainDone n s) := by
  unfold execViResetDrainDone
  repeat' with_reducible first
      | apply Keeps.refl | assumption | (apply Part.named; decide)
      | apply Keeps.next
      | apply Keeps.via (drainDone_keeps _ _)
      | apply Keeps.ite
      | apply KeepsOut.ite

theorem scrubExtent_keeps (e : Extent) (s : State) : Keeps (Part.memory ||| Part.stacks) s (scrubExtent e s) := by
  unfold scrubExtent
  repeat' with_reducible first
      | apply Keeps.refl | assumption | (apply Part.named; decide)
      | (extract_lets +onlyGivenNames x; first | (refine keepsLet (x := x) ?_ ?_; (on_goal 2 => (clear_value x; intro _)); (on_goal 1 => (unfold x; clear x))) | skip)
      | apply Keeps.via (modStack_keeps _ _ _)
      | apply Keeps.via (zeroRange_keeps _ _ _)
      | apply Keeps.ite
      | apply Keeps.foldl_via
      | intro _

theorem scrubDone_keeps (n : Nat) (s : State) :
    Keeps (Part.regs ||| Part.memory ||| Part.log ||| Part.queues ||| Part.stacks) s (scrubDone n s) := by
  unfold scrubDone
  repeat' with_reducible first
      | apply Keeps.refl | assumption | (apply Part.named; decide)
      | (extract_lets +onlyGivenNames x; first | (refine keepsLet (x := x) ?_ ?_; (on_goal 2 => (clear_value x; intro _)); (on_goal 1 => (unfold x; clear x))) | skip)
      | apply Keeps.via (scrubExtent_keeps _ _)
      | apply Keeps.via (zeroRange_keeps _ _ _)
      | apply Keeps.via (setReg_keeps _ _ _)
      | apply Keeps.via (setB_keeps _ _ _ _)
      | apply Keeps.via (clearWords_keeps _ _ _)
      | apply Keeps.via (writeRank_keeps _ _ _)
      | apply Keeps.via (setReg64_keeps _ _ _)
      | apply Keeps.via (modFn_keeps _ _ _)
      | apply Keeps.via (signal_keeps _ _ _)
      | apply Keeps.via (fail_keeps _ _ _ _)
      | apply Keeps.ite
      | apply Keeps.foldl_via
      | intro _

theorem execViScrubDone_keeps (n : Fin 64) (s : State) :
    KeepsOut (Part.regs ||| Part.memory ||| Part.log ||| Part.queues ||| Part.stacks) s (execViScrubDone n s) := by
  unfold execViScrubDone
  repeat' with_reducible first
      | apply Keeps.refl | assumption | (apply Part.named; decide)
      | apply Keeps.next
      | apply Keeps.via (scrubDone_keeps _ _)
      | apply Keeps.ite
      | apply KeepsOut.ite

end Sys2Proof.Machine
end

