-- ==== Sys2Proof/Laws/KeepBringup.lean ====
section
/-!
SUPPORT. What each operation and meaning of Machine/Bringup.lean keeps (Laws/Keep.lean).
-/
namespace Sys2Proof.Machine

theorem kvWf_resetRegFile (warm : Bool) (l : List (Nat × Word)) : kvWf regReset (resetRegFile warm l) = true := by
  unfold resetRegFile
  refine kvWf_foldl _ _ (fun m e h => ?_) l [] rfl
  exact kvWf_kvPut _ _ h
theorem resetState_keeps (warm : Bool) (s : State) : Keeps (Part.regs ||| Part.latches ||| Part.records ||| Part.pace ||| Part.queues ||| Part.jobs ||| Part.clusters ||| Part.bases ||| Part.mcores ||| Part.vcores ||| Part.scores ||| Part.xfers ||| Part.nmus ||| Part.atts ||| Part.hurdles ||| Part.towers ||| Part.stacks ||| Part.hub ||| Part.links ||| Part.coll ||| Part.sup ||| Part.sec ||| Part.dbg) s (resetState warm s) := by
  constructor
  case regs => exact fun _ => kvWf_resetRegFile _ _
  all_goals first
    | exact rfl | exact Nat.le_refl _ | exact List.prefix_rfl | exact id
    | exact fun h => absurd h (by decide) | exact fun _ => rfl

theorem showStage_keeps (n : Nat) (s : State) : Keeps Part.regs s (showStage n s) := by
  unfold showStage
  repeat' with_reducible first
      | apply Keeps.refl | assumption | (apply Part.named; decide)
      | apply Keeps.via (setF_keeps _ _ _ _ _)

theorem coldStart_keeps (s : State) :
    Keeps (Part.regs ||| Part.latches ||| Part.records ||| Part.pace ||| Part.queues ||| Part.jobs ||| Part.clusters ||| Part.bases ||| Part.mcores ||| Part.vcores ||| Part.scores ||| Part.xfers ||| Part.nmus ||| Part.atts ||| Part.hurdles ||| Part.towers ||| Part.stacks ||| Part.hub ||| Part.links ||| Part.coll ||| Part.sup ||| Part.sec ||| Part.dbg) s (coldStart s) := by
  unfold coldStart
  repeat' with_reducible first
      | apply Keeps.refl | assumption | (apply Part.named; decide)
      | apply Keeps.via (modHub_keeps _ _)
      | apply Keeps.via (showStage_keeps _ _)
      | apply Keeps.via (resetState_keeps _ _)

theorem execColdBringup_keeps (s : State) :
    KeepsOut (Part.regs ||| Part.latches ||| Part.records ||| Part.pace ||| Part.queues ||| Part.jobs ||| Part.clusters ||| Part.bases ||| Part.mcores ||| Part.vcores ||| Part.scores ||| Part.xfers ||| Part.nmus ||| Part.atts ||| Part.hurdles ||| Part.towers ||| Part.stacks ||| Part.hub ||| Part.links ||| Part.coll ||| Part.sup ||| Part.sec ||| Part.dbg) s (execColdBringup s) := by
  unfold execColdBringup
  repeat' with_reducible first
      | apply Keeps.refl | assumption | (apply Part.named; decide)
      | apply Keeps.next
      | apply Keeps.via (coldStart_keeps _)
      | apply Keeps.ite
      | apply KeepsOut.ite

theorem execWarmReset_keeps (s : State) :
    KeepsOut (Part.regs ||| Part.latches ||| Part.log ||| Part.records ||| Part.pace ||| Part.queues ||| Part.jobs ||| Part.clusters ||| Part.bases ||| Part.mcores ||| Part.vcores ||| Part.scores ||| Part.xfers ||| Part.nmus ||| Part.atts ||| Part.hurdles ||| Part.towers ||| Part.stacks ||| Part.hub ||| Part.links ||| Part.coll ||| Part.sup ||| Part.sec ||| Part.dbg) s (execWarmReset s) := by
  unfold execWarmReset
  repeat' with_reducible first
      | apply Keeps.refl | assumption | (apply Part.named; decide)
      | apply Keeps.next
      | apply Keeps.via (modHub_keeps _ _)
      | apply Keeps.via (showStage_keeps _ _)
      | apply Keeps.via (resetState_keeps _ _)
      | apply Keeps.via (emit_keeps _ _)
      | apply Keeps.ite
      | apply KeepsOut.ite

theorem execTripRestart_keeps (t : Nat) (s : State) :
    KeepsOut (Part.regs ||| Part.latches ||| Part.time ||| Part.records ||| Part.pace ||| Part.queues ||| Part.jobs ||| Part.clusters ||| Part.bases ||| Part.mcores ||| Part.vcores ||| Part.scores ||| Part.xfers ||| Part.nmus ||| Part.atts ||| Part.hurdles ||| Part.towers ||| Part.stacks ||| Part.hub ||| Part.links ||| Part.coll ||| Part.sup ||| Part.sec ||| Part.dbg) s (execTripRestart t s) := by
  unfold execTripRestart
  repeat' with_reducible first
      | apply Keeps.refl | assumption | (apply Part.named; decide)
      | apply Keeps.next
      | (extract_lets +onlyGivenNames x; first | (refine keepsLet (x := x) ?_ ?_; (on_goal 2 => (clear_value x; intro _)); (on_goal 1 => (unfold x; clear x))) | (refine keepsLetO (x := x) ?_ ?_; (on_goal 2 => (clear_value x; intro _)); (on_goal 1 => (unfold x; clear x))) | skip)
      | apply Keeps.via (report_keeps _ _ _ _ _)
      | apply Keeps.via (coldStart_keeps _)
      | apply Keeps.ite
      | apply KeepsOut.ite
      | apply Keeps.via (Keeps.later _ _)

theorem setRails_keeps (rails : Nat) (s : State) : Keeps Part.regs s (setRails rails s) := by
  unfold setRails
  repeat' with_reducible first
      | apply Keeps.refl | assumption | (apply Part.named; decide)
      | apply Keeps.via (setB_keeps _ _ _ _)

theorem stage0_keeps (f : StageFindings) (s : State) :
    KeepsOpt (Part.regs ||| Part.memory ||| Part.log ||| Part.pace ||| Part.queues ||| Part.jobs ||| Part.clusters ||| Part.bases ||| Part.mcores ||| Part.vcores ||| Part.xfers ||| Part.atts ||| Part.hurdles ||| Part.towers ||| Part.hub ||| Part.links ||| Part.coll ||| Part.sup ||| Part.sec) (fun r => r) s (stage0 f s) := by
  unfold stage0
  repeat' with_reducible first
      | apply Keeps.refl | assumption | (apply Part.named; decide)
      | apply KeepsOpt.none | apply KeepsOpt.some
      | (extract_lets +onlyGivenNames x; first | (refine keepsLet (x := x) ?_ ?_; (on_goal 2 => (clear_value x; intro _)); (on_goal 1 => (unfold x; clear x))) | skip)
      | apply Keeps.via (setRails_keeps _ _)
      | apply Keeps.via (modHub_keeps _ _)
      | apply Keeps.via (tamperLevel_keeps _ _)
      | apply Keeps.via (setF_keeps _ _ _ _ _)
      | apply Keeps.ite
      | split

theorem stage1_keeps (f : StageFindings) (s : State) : Keeps (Part.regs ||| Part.memory ||| Part.log ||| Part.records ||| Part.jobs ||| Part.clusters ||| Part.atts ||| Part.towers ||| Part.stacks ||| Part.hub ||| Part.sup ||| Part.sec) s (stage1 f s) := by
  unfold stage1
  repeat' with_reducible first
      | apply Keeps.refl | assumption | (apply Part.named; decide)
      | (extract_lets +onlyGivenNames x; first | (refine keepsLet (x := x) ?_ ?_; (on_goal 2 => (clear_value x; intro _)); (on_goal 1 => (unfold x; clear x))) | skip)
      | apply Keeps.via (setSlot_keeps _ _ _)
      | apply Keeps.via (modHub_keeps _ _)
      | apply Keeps.via (setB_keeps _ _ _ _)
      | apply Keeps.via (showFw_keeps _)
      | apply Keeps.via (setReg_keeps _ _ _)
      | apply Keeps.via (freshNonce_keeps _)
      | apply Keeps.via (fwRuns_keeps _)
      | apply Keeps.via (noteFw_keeps _ _ _)
      | apply Keeps.via (report_keeps _ _ _ _ _)
      | apply Keeps.via (setF_keeps _ _ _ _ _)
      | apply Keeps.via (pinDrive_keeps _ _ _)
      | apply Keeps.via (emit_keeps _ _)
      | apply Keeps.ite
      | apply Keeps.foldl_via
      | intro _

theorem stage2_keeps (f : StageFindings) (s : State) : KeepsOpt Part.regs (fun r => r) s (stage2 f s) := by
  unfold stage2
  repeat' with_reducible first
      | apply Keeps.refl | assumption | (apply Part.named; decide)
      | apply KeepsOpt.none | apply KeepsOpt.some
      | (extract_lets +onlyGivenNames x; first | (refine keepsLet (x := x) ?_ ?_; (on_goal 2 => (clear_value x; intro _)); (on_goal 1 => (unfold x; clear x))) | skip)
      | apply Keeps.via (setRails_keeps _ _)
      | apply Keeps.via (setB_keeps _ _ _ _)
      | apply Keeps.via (setF_keeps _ _ _ _ _)
      | apply Keeps.ite
      | apply Keeps.foldl_via
      | intro _
      | split

theorem applyStoredWhere_keeps (p : Nat → Bool) (s : State) : Keeps Part.regs s (applyStoredWhere p s) := by
  unfold applyStoredWhere
  repeat' with_reducible first
      | apply Keeps.refl | assumption | (apply Part.named; decide)
      | apply Keeps.via (setReg_keeps _ _ _)
      | apply Keeps.foldl_via
      | intro _

theorem stackFill_keeps (s : State) : Keeps (Part.regs ||| Part.memory ||| Part.stacks) s (stackFill s) := by
  unfold stackFill
  have h (r : State) (x : List (Nat × Region)) (y : List (Nat × Stack)) :
      Keeps Part.stacks r { r with regions := x, stk := y } :=
    (Keeps.putRegions r x).trans (Keeps.putStk _ y)
  extract_lets s1 s2
  exact Keeps.via (zeroRange_keeps _ _ _) (by decide)
    (Keeps.via (h s1 _ _) (by decide) ((applyStoredWhere_keeps _ _).mono (by decide)))

theorem towerFill_keeps (s : State) : Keeps (Part.regs ||| Part.memory ||| Part.towers) s (towerFill s) := by
  unfold towerFill
  repeat' with_reducible first
      | apply Keeps.refl | assumption | (apply Part.named; decide)
      | (extract_lets +onlyGivenNames x; first | (refine keepsLet (x := x) ?_ ?_; (on_goal 2 => (clear_value x; intro _)); (on_goal 1 => (unfold x; clear x))) | skip)
      | apply Keeps.via (modTower_keeps _ _ _)
      | apply Keeps.via (showSpares_keeps _ _)
      | apply Keeps.via (setF_keeps _ _ _ _ _)
      | apply Keeps.via (setB_keeps _ _ _ _)
      | apply Keeps.via (zeroRange_keeps _ _ _)
      | apply Keeps.foldl_via
      | intro _

theorem restoreUnits_keeps (s : State) : Keeps Part.regs s (restoreUnits s) := by
  unfold restoreUnits
  repeat' with_reducible first
      | apply Keeps.refl | assumption | (apply Part.named; decide)
      | (extract_lets +onlyGivenNames x; first | (refine keepsLet (x := x) ?_ ?_; (on_goal 2 => (clear_value x; intro _)); (on_goal 1 => (unfold x; clear x))) | skip)
      | apply Keeps.via (setB_keeps _ _ _ _)
      | apply Keeps.ite
      | apply Keeps.foldl_via
      | intro _

theorem stage3_keeps (f : StageFindings) (s : State) :
    Keeps (Part.regs ||| Part.memory ||| Part.records ||| Part.towers ||| Part.stacks ||| Part.hub ||| Part.sup) s (stage3 f s) := by
  unfold stage3
  repeat' with_reducible first
      | apply Keeps.refl | assumption | (apply Part.named; decide)
      | (extract_lets +onlyGivenNames x; first | (refine keepsLet (x := x) ?_ ?_; (on_goal 2 => (clear_value x; intro _)); (on_goal 1 => (unfold x; clear x))) | skip)
      | apply Keeps.via (restoreUnits_keeps _)
      | apply Keeps.via (towerFill_keeps _)
      | apply Keeps.via (stackFill_keeps _)
      | apply Keeps.via (replaceRow_keeps _ _ _ _)
      | apply Keeps.via (showRemaps_keeps _ _)
      | apply Keeps.via (setB_keeps _ _ _ _)
      | apply Keeps.via (stackLost_keeps _ _)
      | apply Keeps.via (towerLost_keeps _ _)
      | apply Keeps.via (showLanes_keeps _ _)
      | apply Keeps.via (setPortState_keeps _ _ _)
      | apply Keeps.via (applyStoredWhere_keeps _ _)
      | apply Keeps.via (modHub_keeps _ _)
      | apply Keeps.via (driveRefclk_keeps _ _ _)
      | apply Keeps.ite
      | apply Keeps.foldl_via
      | intro _

theorem stage4_keeps (f : StageFindings) (s : State) : Keeps (Part.regs ||| Part.stacks) s (stage4 f s) := by
  unfold stage4
  repeat' with_reducible first
      | apply Keeps.refl | assumption | (apply Part.named; decide)
      | (extract_lets +onlyGivenNames x; first | (refine keepsLet (x := x) ?_ ?_; (on_goal 2 => (clear_value x; intro _)); (on_goal 1 => (unfold x; clear x))) | skip)
      | apply Keeps.via (setReg_keeps _ _ _)
      | apply Keeps.via (setF_keeps _ _ _ _ _)
      | apply Keeps.via (setB_keeps _ _ _ _)
      | apply Keeps.foldl_via
      | intro _
      | fail_if_no_progress (apply Keeps.via (Keeps.putFarReady _ _))

theorem execFarScrubDone_keeps (p : Fin 2) (piece : Nat) (s : State) : KeepsOut (Part.memory ||| Part.stacks) s (execFarScrubDone p piece s) := by
  unfold execFarScrubDone
  repeat' with_reducible first
      | apply Keeps.refl | assumption | (apply Part.named; decide)
      | apply Keeps.next
      | (extract_lets +onlyGivenNames x; first | (refine keepsLet (x := x) ?_ ?_; (on_goal 2 => (clear_value x; intro _)); (on_goal 1 => (unfold x; clear x))) | (refine keepsLetO (x := x) ?_ ?_; (on_goal 2 => (clear_value x; intro _)); (on_goal 1 => (unfold x; clear x))) | skip)
      | apply Keeps.via (zeroRange_keeps _ _ _)
      | apply Keeps.ite
      | apply KeepsOut.ite
      | fail_if_no_progress (apply Keeps.via (Keeps.putFarReady _ _))

theorem restoreFailed_keeps (s : State) : Keeps (Part.regs ||| Part.hub) s (restoreFailed s) := by
  unfold restoreFailed
  repeat' with_reducible first
      | apply Keeps.refl | assumption | (apply Part.named; decide)
      | (extract_lets +onlyGivenNames x; first | (refine keepsLet (x := x) ?_ ?_; (on_goal 2 => (clear_value x; intro _)); (on_goal 1 => (unfold x; clear x))) | skip)
      | apply Keeps.via (setB_keeps _ _ _ _)
      | apply Keeps.via (setF_keeps _ _ _ _ _)
      | apply Keeps.via (towerLost_keeps _ _)
      | apply Keeps.ite
      | apply Keeps.foldl_via
      | intro _

theorem stage5_keeps (f : StageFindings) (s : State) :
    Keeps (Part.regs ||| Part.memory ||| Part.log ||| Part.records ||| Part.jobs ||| Part.clusters ||| Part.bases ||| Part.mcores ||| Part.vcores ||| Part.scores ||| Part.towers ||| Part.hub ||| Part.sup) s (stage5 f s) := by
  unfold stage5
  repeat' with_reducible first
      | apply Keeps.refl | assumption | (apply Part.named; decide)
      | apply Keeps.elim
      | intro _
      | (extract_lets +onlyGivenNames x; first | (refine keepsLet (x := x) ?_ ?_; (on_goal 2 => (clear_value x; intro _)); (on_goal 1 => (unfold x; clear x))) | skip)
      | apply Keeps.via (restoreFailed_keeps _)
      | apply Keeps.via (setB_keeps _ _ _ _)
      | apply Keeps.via (setF_keeps _ _ _ _ _)
      | apply Keeps.via (clusterOn_keeps _ _)
      | apply Keeps.via (zeroRange_keeps _ _ _)
      | apply Keeps.via (modTower_keeps _ _ _)
      | apply Keeps.via (bondFails_keeps _ _ _ _ _)
      | apply Keeps.via (coreFailed_keeps _ _ _ _ _)
      | apply Keeps.via (retireCluster_keeps _ _ _)
      | apply Keeps.via (mapCluster_keeps _ _)
      | apply Keeps.via (setFences_keeps _ _)
      | apply Keeps.via (sweepTower_keeps _ _ _ _)
      | apply Keeps.via (changeM_keeps _ _ _)
      | apply Keeps.via (idleFences_keeps _)
      | apply Keeps.ite
      | apply Keeps.foldl_via
      | intro _
      | (fail_if_no_progress (apply Keeps.via (Keeps.rest (m := (Part.regs ||| Part.memory ||| Part.log ||| Part.records ||| Part.jobs ||| Part.clusters ||| Part.bases ||| Part.mcores ||| Part.vcores ||| Part.scores ||| Part.towers ||| Part.hub ||| Part.sup)) ..)) <;> first | exact Or.inr rfl | exact Or.inl rfl | skip)
      | fail_if_no_progress (apply Keeps.via (Keeps.putMcores _ _))
      | fail_if_no_progress (apply Keeps.via (Keeps.putVruns _ _))
      | fail_if_no_progress (apply Keeps.via (Keeps.putSruns _ _))
      | fail_if_no_progress (apply Keeps.via (Keeps.putAbase _ _))
      | fail_if_no_progress (apply Keeps.via (Keeps.putAbtag _ _))
      | fail_if_no_progress (apply Keeps.via (Keeps.putClusters _ _))
      | fail_if_no_progress (apply Keeps.via (Keeps.putRunners _ _))
      | fail_if_no_progress (apply Keeps.via (Keeps.putSup _ _))

theorem writeRingReg_keeps (s : State) : Keeps Part.regs s (writeRingReg s) := by
  unfold writeRingReg
  repeat' with_reducible first
      | apply Keeps.refl | assumption | (apply Part.named; decide)
      | (extract_lets +onlyGivenNames x; first | (refine keepsLet (x := x) ?_ ?_; (on_goal 2 => (clear_value x; intro _)); (on_goal 1 => (unfold x; clear x))) | skip)
      | apply Keeps.via (setReg_keeps _ _ _)
      | apply Keeps.via (setF_keeps _ _ _ _ _)
      | apply Keeps.ite
      | apply Keeps.foldl_via
      | intro _

theorem setLocks_keeps (s : State) : Keeps Part.regs s (setLocks s) := by
  unfold setLocks
  repeat' with_reducible first
      | apply Keeps.refl | assumption | (apply Part.named; decide)
      | apply Keeps.via (setB_keeps _ _ _ _)
      | apply Keeps.foldl_via
      | intro _

theorem foundCauses_keeps (s : State) : Keeps Part.hub s (foundCauses s) := by
  unfold foundCauses
  repeat' with_reducible first
      | apply Keeps.refl | assumption | (apply Part.named; decide)
      | (extract_lets +onlyGivenNames x; first | (refine keepsLet (x := x) ?_ ?_; (on_goal 2 => (clear_value x; intro _)); (on_goal 1 => (unfold x; clear x))) | skip)
      | apply Keeps.via (declareOut_keeps _ _)
      | apply Keeps.ite

theorem stage6_keeps (s : State) :
    Keeps (Part.regs ||| Part.memory ||| Part.log ||| Part.records ||| Part.pace ||| Part.queues ||| Part.clusters ||| Part.xfers ||| Part.towers ||| Part.stacks ||| Part.hub ||| Part.links ||| Part.sec) s (stage6 s) := by
  unfold stage6
  repeat' with_reducible first
      | apply Keeps.refl | assumption | (apply Part.named; decide)
      | (extract_lets +onlyGivenNames x; first | (refine keepsLet (x := x) ?_ ?_; (on_goal 2 => (clear_value x; intro _)); (on_goal 1 => (unfold x; clear x))) | skip)
      | apply Keeps.via (writeRingReg_keeps _)
      | apply Keeps.via (applyStored_keeps _)
      | apply Keeps.via (checkWindow_keeps _ _)
      | apply Keeps.via (updateTree_keeps _)
      | apply Keeps.via (setLocks_keeps _)
      | apply Keeps.via (modPace_keeps _ _)
      | apply Keeps.via (setB_keeps _ _ _ _)
      | apply Keeps.via (foundCauses_keeps _)
      | apply Keeps.via (raiseSvn_keeps _)
      | apply Keeps.via (modScribe_keeps _ _)
      | apply Keeps.via (pinDrive_keeps _ _ _)
      | apply Keeps.via (modHub_keeps _ _)
      | apply Keeps.ite
      | apply Keeps.foldl_via
      | intro _

theorem stageTime_keeps (f : StageFindings) (s : State) : Keeps (Part.regs ||| Part.time) s (stageTime f s) := by
  unfold stageTime
  repeat' with_reducible first
      | apply Keeps.refl | assumption | (apply Part.named; decide)
      | (extract_lets +onlyGivenNames x; first | (refine keepsLet (x := x) ?_ ?_; (on_goal 2 => (clear_value x; intro _)); (on_goal 1 => (unfold x; clear x))) | (refine keepsLetO (x := x) ?_ ?_; (on_goal 2 => (clear_value x; intro _)); (on_goal 1 => (unfold x; clear x))) | skip)
      | apply Keeps.via (setReg_keeps _ _ _)
      | apply Keeps.via (setB_keeps _ _ _ _)
      | apply Keeps.via (Keeps.after _ _)
      | apply Keeps.ite
      | apply Keeps.via (Keeps.later _ _)

theorem stageTurn_keeps (k : Nat) (s : State) : Keeps (Part.regs ||| Part.hub) s (stageTurn k s) := by
  unfold stageTurn
  repeat' with_reducible first
      | apply Keeps.refl | assumption | (apply Part.named; decide)
      | apply Keeps.via (showStage_keeps _ _)
      | apply Keeps.via (modHub_keeps _ _)

theorem execBringupStage_keeps (f : StageFindings) (s : State) :
    KeepsOut (Part.regs ||| Part.memory ||| Part.time ||| Part.log ||| Part.records ||| Part.pace ||| Part.queues ||| Part.jobs ||| Part.clusters ||| Part.bases ||| Part.mcores ||| Part.vcores ||| Part.scores ||| Part.xfers ||| Part.atts ||| Part.hurdles ||| Part.towers ||| Part.stacks ||| Part.hub ||| Part.links ||| Part.coll ||| Part.sup ||| Part.sec) s (execBringupStage f s) := by
  unfold execBringupStage
  repeat' with_reducible first
      | apply Keeps.refl | assumption | (apply Part.named; decide)
      | apply Keeps.next
      | (extract_lets +onlyGivenNames x; first | (refine keepsLet (x := x) ?_ ?_; (on_goal 2 => (clear_value x; intro _)); (on_goal 1 => (unfold x; clear x))) | (refine keepsLetO (x := x) ?_ ?_; (on_goal 2 => (clear_value x; intro _)); (on_goal 1 => (unfold x; clear x))) | skip)
      | apply Keeps.via (stageTime_keeps _ _)
      | apply Keeps.via (stageTurn_keeps _ _)
      | (apply KeepsOpt.get (stage0_keeps _ _); on_goal 1 => assumption)
      | apply Keeps.via (setRails_keeps _ _)
      | apply Keeps.via (stage1_keeps _ _)
      | (apply KeepsOpt.get (stage2_keeps _ _); on_goal 1 => assumption)
      | apply Keeps.via (stage3_keeps _ _)
      | apply Keeps.via (stage4_keeps _ _)
      | apply Keeps.via (stage5_keeps _ _)
      | apply Keeps.via (stage6_keeps _)
      | apply Keeps.via (Keeps.after _ _)
      | apply Keeps.ite
      | apply KeepsOut.ite
      | apply Keeps.via (Keeps.later _ _)
      | split

theorem execBrgRecGo_keeps (d : BitVec 32) (s : State) :
    KeepsOut (Part.regs ||| Part.latches ||| Part.records ||| Part.pace ||| Part.queues ||| Part.jobs ||| Part.clusters ||| Part.bases ||| Part.mcores ||| Part.vcores ||| Part.scores ||| Part.xfers ||| Part.nmus ||| Part.atts ||| Part.hurdles ||| Part.towers ||| Part.stacks ||| Part.hub ||| Part.links ||| Part.coll ||| Part.sup ||| Part.sec ||| Part.dbg) s (execBrgRecGo d s) := by
  unfold execBrgRecGo
  repeat' with_reducible first
      | apply Keeps.refl | assumption | (apply Part.named; decide)
      | apply Keeps.next
      | (extract_lets +onlyGivenNames x; first | (refine keepsLet (x := x) ?_ ?_; (on_goal 2 => (clear_value x; intro _)); (on_goal 1 => (unfold x; clear x))) | (refine keepsLetO (x := x) ?_ ?_; (on_goal 2 => (clear_value x; intro _)); (on_goal 1 => (unfold x; clear x))) | skip)
      | apply Keeps.via (coldStart_keeps _)
      | apply Keeps.via (modHub_keeps _ _)
      | apply Keeps.via (setSlot_keeps _ _ _)
      | apply Keeps.ite
      | apply KeepsOut.ite

end Sys2Proof.Machine
end

