-- ==== Sys2Proof/Laws/KeepPins.lean ====
section
/-!
SUPPORT. What each operation and meaning of Machine/Pins.lean keeps (Laws/Keep.lean).
-/
namespace Sys2Proof.Machine

theorem modPins_keeps (g : Pins → Pins) (s : State) : Keeps Part.sup s (modPins g s) := by
  unfold modPins
  repeat' with_reducible first
      | apply Keeps.refl | assumption | (apply Part.named; decide)
      | fail_if_no_progress (apply Keeps.via (Keeps.putPins _ _))

theorem vpkgDown_keeps (s : State) :
    Keeps (Part.regs ||| Part.memory ||| Part.log ||| Part.records ||| Part.pace ||| Part.queues ||| Part.jobs ||| Part.clusters ||| Part.bases ||| Part.mcores ||| Part.vcores ||| Part.scores ||| Part.xfers ||| Part.atts ||| Part.hurdles ||| Part.stacks ||| Part.hub ||| Part.links ||| Part.coll ||| Part.sup) s (vpkgDown s) := by
  unfold vpkgDown
  repeat' with_reducible first
      | apply Keeps.refl | assumption | (apply Part.named; decide)
      | (extract_lets +onlyGivenNames x; first | (refine keepsLet (x := x) ?_ ?_; (on_goal 2 => (clear_value x; intro _)); (on_goal 1 => (unfold x; clear x))) | skip)
      | apply Keeps.via (pinDrive_keeps _ _ _)
      | apply Keeps.via (convertersOff_keeps _)
      | apply Keeps.via (endJobs_keeps _ _ _ _)
      | apply Keeps.via (modHub_keeps _ _)
      | apply Keeps.via (portsDown_keeps _)
      | apply Keeps.via (modPins_keeps _ _)
      | apply Keeps.via (report_keeps _ _ _ _ _)

theorem execVpkgUndervoltage_keeps (s : State) :
    KeepsOut (Part.regs ||| Part.memory ||| Part.log ||| Part.records ||| Part.pace ||| Part.queues ||| Part.jobs ||| Part.clusters ||| Part.bases ||| Part.mcores ||| Part.vcores ||| Part.scores ||| Part.xfers ||| Part.atts ||| Part.hurdles ||| Part.stacks ||| Part.hub ||| Part.links ||| Part.coll ||| Part.sup) s (execVpkgUndervoltage s) := by
  unfold execVpkgUndervoltage
  repeat' with_reducible first
      | apply Keeps.refl | assumption | (apply Part.named; decide)
      | apply Keeps.next
      | apply Keeps.via (vpkgDown_keeps _)
      | apply Keeps.ite
      | apply KeepsOut.ite

theorem execVpkgRestart_keeps (t : Nat) (s : State) :
    KeepsOut (Part.regs ||| Part.time ||| Part.queues ||| Part.hub ||| Part.sup) s (execVpkgRestart t s) := by
  unfold execVpkgRestart
  repeat' with_reducible first
      | apply Keeps.refl | assumption | (apply Part.named; decide)
      | apply Keeps.next
      | (extract_lets +onlyGivenNames x; first | (refine keepsLet (x := x) ?_ ?_; (on_goal 2 => (clear_value x; intro _)); (on_goal 1 => (unfold x; clear x))) | (refine keepsLetO (x := x) ?_ ?_; (on_goal 2 => (clear_value x; intro _)); (on_goal 1 => (unfold x; clear x))) | skip)
      | apply Keeps.via (modPins_keeps _ _)
      | apply Keeps.via (pinDrive_keeps _ _ _)
      | apply Keeps.via (modScribe_keeps _ _)
      | apply Keeps.via (setB_keeps _ _ _ _)
      | apply Keeps.via (showStage_keeps _ _)
      | apply Keeps.via (modHub_keeps _ _)
      | apply Keeps.ite
      | apply KeepsOut.ite
      | apply Keeps.via (Keeps.later _ _)
      | split

theorem restoreSummary_keeps (s : State) : Keeps Part.hub s (restoreSummary s) := by
  unfold restoreSummary
  repeat' with_reducible first
      | apply Keeps.refl | assumption | (apply Part.named; decide)
      | (extract_lets +onlyGivenNames x; first | (refine keepsLet (x := x) ?_ ?_; (on_goal 2 => (clear_value x; intro _)); (on_goal 1 => (unfold x; clear x))) | skip)
      | apply Keeps.via (modHub_keeps _ _)
      | apply Keeps.foldl_via
      | intro _

theorem execVauxLoss_keeps (s : State) :
    KeepsOut (Part.regs ||| Part.latches ||| Part.records ||| Part.pace ||| Part.queues ||| Part.jobs ||| Part.clusters ||| Part.bases ||| Part.mcores ||| Part.vcores ||| Part.scores ||| Part.xfers ||| Part.nmus ||| Part.atts ||| Part.hurdles ||| Part.towers ||| Part.stacks ||| Part.hub ||| Part.links ||| Part.coll ||| Part.sup ||| Part.sec ||| Part.dbg) s (execVauxLoss s) := by
  unfold execVauxLoss
  repeat' with_reducible first
      | apply Keeps.refl | assumption | (apply Part.named; decide)
      | apply Keeps.next
      | (extract_lets +onlyGivenNames x; first | (refine keepsLet (x := x) ?_ ?_; (on_goal 2 => (clear_value x; intro _)); (on_goal 1 => (unfold x; clear x))) | (refine keepsLetO (x := x) ?_ ?_; (on_goal 2 => (clear_value x; intro _)); (on_goal 1 => (unfold x; clear x))) | skip)
      | apply Keeps.via (restoreSummary_keeps _)
      | apply Keeps.via (resetState_keeps _ _)
      | apply Keeps.via (modHub_keeps _ _)
      | fail_if_no_progress (apply Keeps.via (Keeps.putDbg _ _))

theorem threeState_keeps (output : Nat) (s : State) :
    Keeps (Part.regs ||| Part.memory ||| Part.log ||| Part.records ||| Part.pace ||| Part.queues ||| Part.jobs ||| Part.clusters ||| Part.bases ||| Part.mcores ||| Part.vcores ||| Part.scores ||| Part.xfers ||| Part.atts ||| Part.hurdles ||| Part.stacks ||| Part.hub ||| Part.links ||| Part.coll ||| Part.sup) s (threeState output s) := by
  unfold threeState
  repeat' with_reducible first
      | apply Keeps.refl | assumption | (apply Part.named; decide)
      | (extract_lets +onlyGivenNames x; first | (refine keepsLet (x := x) ?_ ?_; (on_goal 2 => (clear_value x; intro _)); (on_goal 1 => (unfold x; clear x))) | skip)
      | apply Keeps.via (setB_keeps _ _ _ _)
      | apply Keeps.via (vpkgDown_keeps _)
      | apply Keeps.ite

theorem execPinReadback_keeps (output : Fin 2) (level : Bool) (s : State) :
    KeepsOut (Part.regs ||| Part.memory ||| Part.log ||| Part.records ||| Part.pace ||| Part.queues ||| Part.jobs ||| Part.clusters ||| Part.bases ||| Part.mcores ||| Part.vcores ||| Part.scores ||| Part.xfers ||| Part.atts ||| Part.hurdles ||| Part.stacks ||| Part.hub ||| Part.links ||| Part.coll ||| Part.sup) s (execPinReadback output level s) := by
  unfold execPinReadback
  repeat' with_reducible first
      | apply Keeps.refl | assumption | (apply Part.named; decide)
      | apply Keeps.next
      | (extract_lets +onlyGivenNames x; first | (refine keepsLet (x := x) ?_ ?_; (on_goal 2 => (clear_value x; intro _)); (on_goal 1 => (unfold x; clear x))) | (refine keepsLetO (x := x) ?_ ?_; (on_goal 2 => (clear_value x; intro _)); (on_goal 1 => (unfold x; clear x))) | skip)
      | apply Keeps.via (setB_keeps _ _ _ _)
      | apply Keeps.via (modPins_keeps _ _)
      | apply Keeps.via (threeState_keeps _ _)
      | apply Keeps.via (addReg_keeps _ _ _)
      | apply Keeps.ite
      | apply KeepsOut.ite

theorem execPinOffWrite_keeps (d : BitVec 32) (s : State) :
    KeepsOut (Part.regs ||| Part.memory ||| Part.log ||| Part.records ||| Part.pace ||| Part.queues ||| Part.jobs ||| Part.clusters ||| Part.bases ||| Part.mcores ||| Part.vcores ||| Part.scores ||| Part.xfers ||| Part.atts ||| Part.hurdles ||| Part.stacks ||| Part.hub ||| Part.links ||| Part.coll ||| Part.sup) s (execPinOffWrite d s) := by
  unfold execPinOffWrite
  repeat' with_reducible first
      | apply Keeps.refl | assumption | (apply Part.named; decide)
      | apply Keeps.next
      | (extract_lets +onlyGivenNames x; first | (refine keepsLet (x := x) ?_ ?_; (on_goal 2 => (clear_value x; intro _)); (on_goal 1 => (unfold x; clear x))) | (refine keepsLetO (x := x) ?_ ?_; (on_goal 2 => (clear_value x; intro _)); (on_goal 1 => (unfold x; clear x))) | skip)
      | apply Keeps.via (threeState_keeps _ _)
      | apply Keeps.via (setB_keeps _ _ _ _)
      | apply Keeps.ite
      | apply KeepsOut.ite
      | apply Keeps.foldl_via
      | intro _

end Sys2Proof.Machine
end

