-- ==== Sys2Proof/Laws/KeepWindow.lean ====
section
/-!
SUPPORT. What each operation and meaning of Machine/Window.lean keeps (Laws/Keep.lean).
-/
namespace Sys2Proof.Machine

theorem afterOut_keeps {m : Nat} {a s : State} {o : Out} (h : KeepsOut m a o) : Keeps m a (afterOut s o) := by
  obtain ⟨t, rfl, h⟩ := h
  exact h

theorem hubWrite_keeps (o : Nat) (v : Word) (s : State) :
    KeepsOptOut (Part.regs ||| Part.memory ||| Part.time ||| Part.log ||| Part.records ||| Part.pace ||| Part.queues ||| Part.jobs ||| Part.clusters ||| Part.bases ||| Part.mcores ||| Part.vcores ||| Part.scores ||| Part.xfers ||| Part.atts ||| Part.hurdles ||| Part.stacks ||| Part.hub ||| Part.links ||| Part.coll ||| Part.sup) s (hubWrite o v s) := by
  unfold hubWrite
  repeat' with_reducible first
      | apply Keeps.refl | assumption | (apply Part.named; decide)
      | apply KeepsOptOut.none | apply KeepsOptOut.some | apply Keeps.next
      | apply KeepsOut.via (execPaceCountClear_keeps _ _)
      | apply KeepsOut.via (execFjsCountClear_keeps _ _)
      | apply KeepsOut.via (execHubWdtKick_keeps _ _ _)
      | apply KeepsOut.via (execPinOffWrite_keeps _ _)
      | apply KeepsOut.via (execPinCountClear_keeps _ _)
      | apply Keeps.ite
      | split

theorem pageWrite_keeps (f : Fin 65) (bell o : Nat) (v : Word) (s : State) :
    KeepsOptOut (Part.regs ||| Part.queues ||| Part.hurdles) s (pageWrite f bell o v s) := by
  unfold pageWrite
  repeat' with_reducible first
      | apply Keeps.refl | assumption | (apply Part.named; decide)
      | apply KeepsOptOut.none | apply KeepsOptOut.some | apply Keeps.next
      | (extract_lets +onlyGivenNames x; first | (refine keepsLet (x := x) ?_ ?_; (on_goal 2 => (clear_value x; intro _)); (on_goal 1 => (unfold x; clear x))) | skip)
      | apply KeepsOut.via (execViQ0Enable_keeps _ _ _)
      | apply KeepsOut.via (execViCountClear_keeps _ _ _)
      | apply KeepsOut.via (execSqDoorbell_keeps _ _ _ _)
      | apply KeepsOut.via (execCqHeadDoorbell_keeps _ _ _ _)
      | apply Keeps.ite
      | split

theorem hubDieWrite_keeps (o : Nat) (v : Word) (s : State) :
    KeepsOptOut (Part.regs ||| Part.latches ||| Part.memory ||| Part.frees ||| Part.log ||| Part.records ||| Part.pace ||| Part.queues ||| Part.jobs ||| Part.clusters ||| Part.bases ||| Part.mcores ||| Part.vcores ||| Part.scores ||| Part.xfers ||| Part.nmus ||| Part.atts ||| Part.hurdles ||| Part.towers ||| Part.stacks ||| Part.hub ||| Part.links ||| Part.coll ||| Part.sup ||| Part.sec ||| Part.dbg) s (hubDieWrite o v s) := by
  unfold hubDieWrite
  repeat' with_reducible first
      | apply Keeps.refl | assumption | (apply Part.named; decide)
      | apply KeepsOptOut.none | apply KeepsOptOut.some | apply Keeps.next
      | apply KeepsOut.via (execBltCountClear_keeps _ _)
      | apply KeepsOut.via (execPwrCountClear_keeps _ _)
      | apply KeepsOut.via (execThmTrigger_keeps _ _)
      | apply KeepsOut.via (execThmRthReset_keeps _ _)
      | apply KeepsOut.via (execThmCountClear_keeps _ _)
      | apply KeepsOut.via (execSecLcCtrl_keeps _ _)
      | apply KeepsOut.via (execBrgRecGo_keeps _ _)
      | apply KeepsOut.via (execCxlCountClear_keeps _ _ _)
      | apply Keeps.ite
      | split

theorem dieWrite_keeps (q : Requester) (o : Nat) (v : Word) (s : State) : KeepsOptOut (Part.regs ||| Part.towers) s (dieWrite q o v s) := by
  unfold dieWrite
  repeat' with_reducible first
      | apply Keeps.refl | assumption | (apply Part.named; decide)
      | apply KeepsOptOut.none | apply KeepsOptOut.some | apply Keeps.next
      | (extract_lets +onlyGivenNames x; first | (refine keepsLet (x := x) ?_ ?_; (on_goal 2 => (clear_value x; intro _)); (on_goal 1 => (unfold x; clear x))) | skip)
      | apply KeepsOut.via (execTwrProtClear_keeps _ _ _)
      | apply KeepsOut.via (execTwrConfClear_keeps _ _ _)
      | apply KeepsOut.via (execMarchStart_keeps _ _ _ _)
      | apply KeepsOut.via (execMscEccClear_keeps _ _ _)
      | apply KeepsOut.via (execMscSrcClear_keeps _ _ _)
      | apply KeepsOut.via (execDirCountClear_keeps _ _ _)
      | apply KeepsOut.via (execNmuStackClear_keeps _ _ _)
      | apply KeepsOut.via (execNmuCountClear_keeps _ _ _ _)
      | apply KeepsOut.via (execFjlCountClear_keeps _ _ _)
      | apply Keeps.ite
      | split

theorem clusterWrite_keeps (o : Nat) (v : Word) (s : State) : KeepsOptOut (Part.regs ||| Part.clusters) s (clusterWrite o v s) := by
  unfold clusterWrite
  repeat' with_reducible first
      | apply Keeps.refl | assumption | (apply Part.named; decide)
      | apply KeepsOptOut.none | apply KeepsOptOut.some | apply Keeps.next
      | (extract_lets +onlyGivenNames x; first | (refine keepsLet (x := x) ?_ ?_; (on_goal 2 => (clear_value x; intro _)); (on_goal 1 => (unfold x; clear x))) | skip)
      | apply KeepsOut.via (execCluPwrClear_keeps _ _ _)
      | apply KeepsOut.via (execCluTrcClear_keeps _ _ _)
      | apply KeepsOut.via (execCluPerfClear_keeps _ _ _)
      | apply KeepsOut.via (execCluBankClear_keeps _ _ _)
      | apply KeepsOut.via (execMcCountClear_keeps _ _ _ _)
      | apply KeepsOut.via (execVcCountClear_keeps _ _ _ _)
      | apply KeepsOut.via (execScCountClear_keeps _ _ _ _)
      | apply Keeps.ite
      | split

theorem ownWrite_keeps (q : Requester) (o : Nat) (v : Word) (s : State) :
    KeepsOptOut (Part.regs ||| Part.latches ||| Part.memory ||| Part.time ||| Part.frees ||| Part.log ||| Part.records ||| Part.pace ||| Part.queues ||| Part.jobs ||| Part.clusters ||| Part.bases ||| Part.mcores ||| Part.vcores ||| Part.scores ||| Part.xfers ||| Part.nmus ||| Part.atts ||| Part.hurdles ||| Part.towers ||| Part.stacks ||| Part.hub ||| Part.links ||| Part.coll ||| Part.sup ||| Part.sec ||| Part.dbg) s (ownWrite q o v s) := by
  unfold ownWrite
  repeat' with_reducible first
      | apply Keeps.refl | assumption | (apply Part.named; decide)
      | apply KeepsOptOut.none | apply KeepsOptOut.some | apply Keeps.next
      | apply KeepsOptOut.via (hubWrite_keeps _ _ _)
      | (apply KeepsOut.get (hubWrite_keeps _ _ _); on_goal 1 => assumption)
      | apply KeepsOptOut.via (pageWrite_keeps _ _ _ _ _)
      | (apply KeepsOut.get (pageWrite_keeps _ _ _ _ _); on_goal 1 => assumption)
      | apply KeepsOptOut.via (hubDieWrite_keeps _ _ _)
      | (apply KeepsOut.get (hubDieWrite_keeps _ _ _); on_goal 1 => assumption)
      | apply Keeps.via (hdlCtrlWrite_keeps _ _ _)
      | apply KeepsOut.via (execAttCountClear_keeps _ _ _)
      | apply KeepsOut.via (execAttLabFlush_keeps _ _ _)
      | apply KeepsOut.via (execColCountClear_keeps _ _ _)
      | apply KeepsOptOut.via (dieWrite_keeps _ _ _ _)
      | (apply KeepsOut.get (dieWrite_keeps _ _ _ _); on_goal 1 => assumption)
      | apply KeepsOptOut.via (clusterWrite_keeps _ _ _)
      | (apply KeepsOut.get (clusterWrite_keeps _ _ _); on_goal 1 => assumption)
      | apply Keeps.ite
      | split

theorem writeWord_keeps (q : Requester) (o : Nat) (v : Word) (s : State) :
    Keeps (Part.regs ||| Part.latches ||| Part.memory ||| Part.time ||| Part.frees ||| Part.log ||| Part.records ||| Part.pace ||| Part.queues ||| Part.jobs ||| Part.clusters ||| Part.bases ||| Part.mcores ||| Part.vcores ||| Part.scores ||| Part.xfers ||| Part.nmus ||| Part.atts ||| Part.hurdles ||| Part.towers ||| Part.stacks ||| Part.hub ||| Part.links ||| Part.coll ||| Part.sup ||| Part.sec ||| Part.dbg) s (writeWord q o v s) := by
  unfold writeWord
  repeat' with_reducible first
      | apply Keeps.refl | assumption | (apply Part.named; decide)
      | apply Keeps.next
      | apply KeepsOptOut.via (ownWrite_keeps _ _ _ _)
      | (apply KeepsOut.get (ownWrite_keeps _ _ _ _); on_goal 1 => assumption)
      | apply afterOut_keeps
      | apply Keeps.via (writeReg_keeps _ _ _ _)
      | split

theorem writeAt_keeps (q : Requester) (a : Nat) (v : Word) (s : State) :
    Keeps (Part.regs ||| Part.latches ||| Part.memory ||| Part.time ||| Part.frees ||| Part.log ||| Part.records ||| Part.pace ||| Part.queues ||| Part.jobs ||| Part.clusters ||| Part.bases ||| Part.mcores ||| Part.vcores ||| Part.scores ||| Part.xfers ||| Part.nmus ||| Part.atts ||| Part.hurdles ||| Part.towers ||| Part.stacks ||| Part.hub ||| Part.links ||| Part.coll ||| Part.sup ||| Part.sec ||| Part.dbg) s (writeAt q a v s) := by
  unfold writeAt
  repeat' with_reducible first
      | apply Keeps.refl | assumption | (apply Part.named; decide)
      | apply Keeps.via (regBusError_keeps _ _ _ _)
      | apply Keeps.via (writeWord_keeps _ _ _ _)
      | split

theorem recoveryWrite_keeps (q : Requester) (a size : Nat) (data : BitVec 64) (s : State) :
    Keeps (Part.regs ||| Part.latches ||| Part.records ||| Part.pace ||| Part.queues ||| Part.jobs ||| Part.clusters ||| Part.bases ||| Part.mcores ||| Part.vcores ||| Part.scores ||| Part.xfers ||| Part.nmus ||| Part.atts ||| Part.hurdles ||| Part.towers ||| Part.stacks ||| Part.hub ||| Part.links ||| Part.coll ||| Part.sup ||| Part.sec ||| Part.dbg) s (recoveryWrite q a size data s) := by
  unfold recoveryWrite
  repeat' with_reducible first
      | apply Keeps.refl | assumption | (apply Part.named; decide)
      | apply Keeps.next
      | apply Keeps.via (modHub_keeps _ _)
      | apply afterOut_keeps
      | apply KeepsOut.via (execBrgRecGo_keeps _ _)
      | apply Keeps.ite
      | apply Keeps.foldl_via
      | intro _

theorem execRegisterWrite_keeps (q : Requester) (addr size : Nat) (data : BitVec 64) (s : State) :
    KeepsOut (Part.regs ||| Part.latches ||| Part.memory ||| Part.time ||| Part.frees ||| Part.log ||| Part.records ||| Part.pace ||| Part.queues ||| Part.jobs ||| Part.clusters ||| Part.bases ||| Part.mcores ||| Part.vcores ||| Part.scores ||| Part.xfers ||| Part.nmus ||| Part.atts ||| Part.hurdles ||| Part.towers ||| Part.stacks ||| Part.hub ||| Part.links ||| Part.coll ||| Part.sup ||| Part.sec ||| Part.dbg) s (execRegisterWrite q addr size data s) := by
  unfold execRegisterWrite
  repeat' with_reducible first
      | apply Keeps.refl | assumption | (apply Part.named; decide)
      | apply Keeps.next
      | apply Keeps.via (recoveryWrite_keeps _ _ _ _ _)
      | apply Keeps.via (writeAt_keeps _ _ _ _)
      | apply Keeps.via (regBusError_keeps _ _ _ _)
      | apply Keeps.ite
      | apply KeepsOut.ite

end Sys2Proof.Machine
end

