-- ==== Sys2Proof/Laws/KeepDebug.lean ====
section
/-!
SUPPORT. What each operation and meaning of Machine/Debug.lean keeps (Laws/Keep.lean).
-/
namespace Sys2Proof.Machine

theorem modDbg_keeps (g : Debug → Debug) (s : State) : Keeps Part.dbg s (modDbg g s) := by
  unfold modDbg
  repeat' with_reducible first
      | apply Keeps.refl | assumption | (apply Part.named; decide)
      | fail_if_no_progress (apply Keeps.via (Keeps.putDbg _ _))

theorem execDbgToken_keeps (token : List (BitVec 8)) (s : State) : KeepsOut (Part.regs ||| Part.sec ||| Part.dbg) s (execDbgToken token s) := by
  unfold execDbgToken
  repeat' with_reducible first
      | apply Keeps.refl | assumption | (apply Part.named; decide) | rfl
      | apply Keeps.next
      | (extract_lets +onlyGivenNames x; first | (refine keepsLet (x := x) ?_ ?_; (on_goal 2 => (clear_value x; intro _)); (on_goal 1 => (unfold x; clear x))) | (refine keepsLetO (x := x) ?_ ?_; (on_goal 2 => (clear_value x; intro _)); (on_goal 1 => (unfold x; clear x))) | skip)
      | apply Keeps.via (freshNonce_keeps _)
      | apply Keeps.via (modDbg_keeps _ _)
      | apply Keeps.via (modSec_keeps _ _ ?_ ?_)
      | apply Keeps.ite
      | apply KeepsOut.ite

theorem execDbgAccess_keeps (update : BitVec 96) (s : State) : KeepsOut Part.dbg s (execDbgAccess update s) := by
  unfold execDbgAccess
  repeat' with_reducible first
      | apply Keeps.refl | assumption | (apply Part.named; decide)
      | apply Keeps.next
      | (extract_lets +onlyGivenNames x; first | (refine keepsLet (x := x) ?_ ?_; (on_goal 2 => (clear_value x; intro _)); (on_goal 1 => (unfold x; clear x))) | (refine keepsLetO (x := x) ?_ ?_; (on_goal 2 => (clear_value x; intro _)); (on_goal 1 => (unfold x; clear x))) | skip)
      | apply Keeps.via (modDbg_keeps _ _)
      | apply Keeps.ite
      | apply KeepsOut.ite

theorem dbgEnd_keeps (status : Nat) (data : Option Nat) (s : State) : Keeps Part.dbg s (dbgEnd status data s) := by
  unfold dbgEnd
  repeat' with_reducible first
      | apply Keeps.refl | assumption | (apply Part.named; decide)
      | apply Keeps.via (modDbg_keeps _ _)

theorem dbgRegister_keeps (o : Nat) (s : State) :
    Keeps (Part.regs ||| Part.latches ||| Part.memory ||| Part.time ||| Part.frees ||| Part.log ||| Part.records ||| Part.pace ||| Part.queues ||| Part.jobs ||| Part.clusters ||| Part.bases ||| Part.mcores ||| Part.vcores ||| Part.scores ||| Part.xfers ||| Part.nmus ||| Part.atts ||| Part.hurdles ||| Part.towers ||| Part.stacks ||| Part.hub ||| Part.links ||| Part.coll ||| Part.sup ||| Part.sec ||| Part.dbg) s (dbgRegister o s) := by
  unfold dbgRegister
  repeat' with_reducible first
      | apply Keeps.refl | assumption | (apply Part.named; decide)
      | (extract_lets +onlyGivenNames x; first | (refine keepsLet (x := x) ?_ ?_; (on_goal 2 => (clear_value x; intro _)); (on_goal 1 => (unfold x; clear x))) | skip)
      | apply Keeps.via (dbgEnd_keeps _ _ _)
      | apply Keeps.via (regBusError_keeps _ _ _ _)
      | apply Keeps.via (readBy_keeps _ _ _)
      | (apply keepsEq2 (readBy_keeps _ _ _); on_goal 1 => assumption)
      | apply Keeps.via (writeWord_keeps _ _ _ _)
      | apply Keeps.ite
      | split

theorem dbgMemory_keeps (a : Nat) (s : State) :
    Keeps (Part.regs ||| Part.memory ||| Part.frees ||| Part.records ||| Part.towers ||| Part.stacks ||| Part.hub ||| Part.dbg) s (dbgMemory a s) := by
  unfold dbgMemory
  repeat' with_reducible first
      | apply Keeps.refl | assumption | (apply Part.named; decide)
      | (extract_lets +onlyGivenNames x; first | (refine keepsLet (x := x) ?_ ?_; (on_goal 2 => (clear_value x; intro _)); (on_goal 1 => (unfold x; clear x))) | skip)
      | apply Keeps.via (dbgEnd_keeps _ _ _)
      | apply Keeps.via (bumpFree_keeps _)
      | apply Keeps.via (busError_keeps _ _ _)
      | apply Keeps.via (writeSpan_keeps _ _ _ _ _)
      | (apply keepsEq (fun r => r.s) (writeSpan_keeps _ _ _ _ _); on_goal 1 => assumption)
      | apply Keeps.via (Wrote.start_keeps _)
      | apply Keeps.via (readError_keeps _ _ _)
      | apply Keeps.ite

theorem execDbgAccessDone_keeps (s : State) :
    KeepsOut (Part.regs ||| Part.latches ||| Part.memory ||| Part.time ||| Part.frees ||| Part.log ||| Part.records ||| Part.pace ||| Part.queues ||| Part.jobs ||| Part.clusters ||| Part.bases ||| Part.mcores ||| Part.vcores ||| Part.scores ||| Part.xfers ||| Part.nmus ||| Part.atts ||| Part.hurdles ||| Part.towers ||| Part.stacks ||| Part.hub ||| Part.links ||| Part.coll ||| Part.sup ||| Part.sec ||| Part.dbg) s (execDbgAccessDone s) := by
  unfold execDbgAccessDone
  repeat' with_reducible first
      | apply Keeps.refl | assumption | (apply Part.named; decide)
      | apply Keeps.next
      | (extract_lets +onlyGivenNames x; first | (refine keepsLet (x := x) ?_ ?_; (on_goal 2 => (clear_value x; intro _)); (on_goal 1 => (unfold x; clear x))) | (refine keepsLetO (x := x) ?_ ?_; (on_goal 2 => (clear_value x; intro _)); (on_goal 1 => (unfold x; clear x))) | skip)
      | apply Keeps.via (dbgEnd_keeps _ _ _)
      | apply Keeps.via (dbgRegister_keeps _ _)
      | apply Keeps.via (dbgMemory_keeps _ _)
      | apply Keeps.ite
      | apply KeepsOut.ite

theorem execDbgHalt_keeps (s : State) : KeepsOut Part.hub s (execDbgHalt s) := by
  unfold execDbgHalt
  repeat' with_reducible first
      | apply Keeps.refl | assumption | (apply Part.named; decide)
      | apply Keeps.next
      | apply Keeps.via (modHub_keeps _ _)
      | apply Keeps.ite
      | apply KeepsOut.ite

theorem execDbgResume_keeps (s : State) : KeepsOut (Part.regs ||| Part.memory ||| Part.log ||| Part.records ||| Part.jobs ||| Part.clusters ||| Part.atts ||| Part.towers ||| Part.stacks ||| Part.hub ||| Part.sup) s (execDbgResume s) := by
  unfold execDbgResume
  repeat' with_reducible first
      | apply Keeps.refl | assumption | (apply Part.named; decide)
      | apply Keeps.next
      | apply Keeps.via (modHub_keeps _ _)
      | apply Keeps.via (actOnHeld_keeps _)
      | apply Keeps.ite
      | apply KeepsOut.ite

theorem execExtest_keeps (chain : List Bool) (s : State) : KeepsOut Part.dbg s (execExtest chain s) := by
  unfold execExtest
  repeat' with_reducible first
      | apply Keeps.refl | assumption | (apply Part.named; decide)
      | apply Keeps.next
      | apply Keeps.via (modDbg_keeps _ _)

theorem execSamplePreload_keeps (chain : List Bool) (s : State) : KeepsOut Part.dbg s (execSamplePreload chain s) := by
  unfold execSamplePreload
  repeat' with_reducible first
      | apply Keeps.refl | assumption | (apply Part.named; decide)
      | apply Keeps.next
      | apply Keeps.via (modDbg_keeps _ _)

end Sys2Proof.Machine
end

