-- ==== Sys2Proof/Laws/KeepIssue.lean ====
section
/-!
SUPPORT. What each operation and meaning of Machine/Issue.lean keeps (Laws/Keep.lean).
-/
namespace Sys2Proof.Machine

theorem issueAs_keeps (unit op : Nat) (r : RunnerRef) (w : StrokeWord) (eff : Nat → StrokeWord → State → Option StrokeOut) (s : State) {m : Nat} (hm : (Part.regs ||| Part.frees ||| Part.records ||| Part.jobs ||| Part.clusters ||| Part.scores ||| Part.towers) ||| m = m) (heff : ∀ x0 x1 x2, KeepsOpt m (fun r => r.s) x2 (eff x0 x1 x2)) :
    KeepsOut m s (issueAs unit op r w eff s) := by
  unfold issueAs
  repeat' with_reducible first
      | apply Keeps.refl | assumption | (apply Part.named; decide)
      | apply Keeps.next
      | apply Keeps.viaH (issue_keeps _ _ _ _ ?_ ?_)
      | (apply KeepsOpt.getH (heff _ _ _); on_goal 1 => assumption)
      | apply Keeps.ite
      | apply KeepsOut.ite

theorem execCommonNop_keeps (r : RunnerRef) (w : BitVec 128) (s : State) :
    KeepsOut (Part.regs ||| Part.frees ||| Part.records ||| Part.jobs ||| Part.clusters ||| Part.scores ||| Part.towers) s (execCommonNop r w s) := by
  unfold execCommonNop
  repeat' with_reducible first
      | apply Keeps.refl | assumption | (apply Part.named; decide)
      | apply Keeps.next
      | apply KeepsOut.viaH (issueAs_keeps _ _ _ _ _ _ ?_ ?_)
      | (apply KeepsOpt.get (nopEffect_keeps _ _ _); on_goal 1 => assumption)
      | apply KeepsOpt.via (nopEffect_keeps _ _ _)
      | intro _

theorem execLapEnd_keeps (r : RunnerRef) (w : BitVec 128) (s : State) :
    KeepsOut (Part.regs ||| Part.frees ||| Part.records ||| Part.jobs ||| Part.clusters ||| Part.scores ||| Part.towers) s (execLapEnd r w s) := by
  unfold execLapEnd
  repeat' with_reducible first
      | apply Keeps.refl | assumption | (apply Part.named; decide)
      | apply Keeps.next
      | apply KeepsOut.viaH (issueAs_keeps _ _ _ _ _ _ ?_ ?_)
      | (apply KeepsOpt.get (lapEndEffect_keeps _ _ _); on_goal 1 => assumption)
      | apply KeepsOpt.via (lapEndEffect_keeps _ _ _)
      | intro _

theorem execDelay_keeps (r : RunnerRef) (w : BitVec 128) (s : State) :
    KeepsOut (Part.regs ||| Part.frees ||| Part.records ||| Part.jobs ||| Part.clusters ||| Part.scores ||| Part.towers) s (execDelay r w s) := by
  unfold execDelay
  repeat' with_reducible first
      | apply Keeps.refl | assumption | (apply Part.named; decide)
      | apply Keeps.next
      | apply KeepsOut.viaH (issueAs_keeps _ _ _ _ _ _ ?_ ?_)
      | (apply KeepsOpt.get (delayEffect_keeps _ _ _); on_goal 1 => assumption)
      | apply KeepsOpt.via (delayEffect_keeps _ _ _)
      | intro _

theorem execMsetb_keeps (r : RunnerRef) (w : BitVec 128) (s : State) :
    KeepsOut (Part.regs ||| Part.frees ||| Part.records ||| Part.jobs ||| Part.clusters ||| Part.bases ||| Part.scores ||| Part.towers) s (execMsetb r w s) := by
  unfold execMsetb
  repeat' with_reducible first
      | apply Keeps.refl | assumption | (apply Part.named; decide)
      | apply Keeps.next
      | apply KeepsOut.viaH (issueAs_keeps _ _ _ _ _ _ ?_ ?_)
      | (apply KeepsOpt.get (msetbEffect_keeps _ _ _); on_goal 1 => assumption)
      | apply KeepsOpt.via (msetbEffect_keeps _ _ _)
      | intro _

theorem execMlda_keeps (r : RunnerRef) (w : BitVec 128) (s : State) :
    KeepsOut (Part.regs ||| Part.memory ||| Part.frees ||| Part.records ||| Part.jobs ||| Part.clusters ||| Part.mcores ||| Part.scores ||| Part.towers ||| Part.stacks ||| Part.hub) s (execMlda r w s) := by
  unfold execMlda
  repeat' with_reducible first
      | apply Keeps.refl | assumption | (apply Part.named; decide)
      | apply Keeps.next
      | apply KeepsOut.viaH (issueAs_keeps _ _ _ _ _ _ ?_ ?_)
      | (apply KeepsOpt.get (mEffect_keeps _ _ _ _ ?_ ?_); on_goal 1 => assumption)
      | apply KeepsOpt.viaH (mEffect_keeps _ _ _ _ ?_ ?_)
      | (apply KeepsOpt.get (mldaEffect_keeps _ _ _); on_goal 1 => assumption)
      | apply KeepsOpt.via (mldaEffect_keeps _ _ _)
      | intro _

theorem execMlds_keeps (r : RunnerRef) (w : BitVec 128) (s : State) :
    KeepsOut (Part.regs ||| Part.memory ||| Part.frees ||| Part.records ||| Part.jobs ||| Part.clusters ||| Part.mcores ||| Part.scores ||| Part.towers ||| Part.stacks ||| Part.hub) s (execMlds r w s) := by
  unfold execMlds
  repeat' with_reducible first
      | apply Keeps.refl | assumption | (apply Part.named; decide)
      | apply Keeps.next
      | apply KeepsOut.viaH (issueAs_keeps _ _ _ _ _ _ ?_ ?_)
      | (apply KeepsOpt.get (mEffect_keeps _ _ _ _ ?_ ?_); on_goal 1 => assumption)
      | apply KeepsOpt.viaH (mEffect_keeps _ _ _ _ ?_ ?_)
      | (apply KeepsOpt.get (mldsEffect_keeps _ _ _); on_goal 1 => assumption)
      | apply KeepsOpt.via (mldsEffect_keeps _ _ _)
      | intro _

theorem execMpass_keeps (r : RunnerRef) (w : BitVec 128) (faulty : List (Nat × Nat)) (s : State) :
    KeepsOut (Part.regs ||| Part.memory ||| Part.frees ||| Part.log ||| Part.records ||| Part.jobs ||| Part.clusters ||| Part.bases ||| Part.mcores ||| Part.vcores ||| Part.scores ||| Part.towers ||| Part.stacks ||| Part.hub ||| Part.sup) s (execMpass r w faulty s) := by
  unfold execMpass
  repeat' with_reducible first
      | apply Keeps.refl | assumption | (apply Part.named; decide)
      | apply Keeps.next
      | apply KeepsOut.viaH (issueAs_keeps _ _ _ _ _ _ ?_ ?_)
      | (apply KeepsOpt.get (mEffect_keeps _ _ _ _ ?_ ?_); on_goal 1 => assumption)
      | apply KeepsOpt.viaH (mEffect_keeps _ _ _ _ ?_ ?_)
      | (apply KeepsOpt.get (mpassEffect_keeps _ _ _ _); on_goal 1 => assumption)
      | apply KeepsOpt.via (mpassEffect_keeps _ _ _ _)
      | intro _

theorem execMacl_keeps (r : RunnerRef) (w : BitVec 128) (s : State) :
    KeepsOut (Part.regs ||| Part.memory ||| Part.frees ||| Part.records ||| Part.jobs ||| Part.clusters ||| Part.mcores ||| Part.scores ||| Part.towers ||| Part.stacks ||| Part.hub) s (execMacl r w s) := by
  unfold execMacl
  repeat' with_reducible first
      | apply Keeps.refl | assumption | (apply Part.named; decide)
      | apply Keeps.next
      | apply KeepsOut.viaH (issueAs_keeps _ _ _ _ _ _ ?_ ?_)
      | (apply KeepsOpt.get (mEffect_keeps _ _ _ _ ?_ ?_); on_goal 1 => assumption)
      | apply KeepsOpt.viaH (mEffect_keeps _ _ _ _ ?_ ?_)
      | (apply KeepsOpt.get (maclEffect_keeps _ _ _); on_goal 1 => assumption)
      | apply KeepsOpt.via (maclEffect_keeps _ _ _)
      | intro _

theorem execMwb_keeps (r : RunnerRef) (w : BitVec 128) (s : State) :
    KeepsOut (Part.regs ||| Part.memory ||| Part.frees ||| Part.records ||| Part.jobs ||| Part.clusters ||| Part.mcores ||| Part.scores ||| Part.atts ||| Part.towers ||| Part.stacks ||| Part.hub) s (execMwb r w s) := by
  unfold execMwb
  repeat' with_reducible first
      | apply Keeps.refl | assumption | (apply Part.named; decide)
      | apply Keeps.next
      | apply KeepsOut.viaH (issueAs_keeps _ _ _ _ _ _ ?_ ?_)
      | (apply KeepsOpt.get (mEffect_keeps _ _ _ _ ?_ ?_); on_goal 1 => assumption)
      | apply KeepsOpt.viaH (mEffect_keeps _ _ _ _ ?_ ?_)
      | (apply KeepsOpt.get (mwbEffect_keeps _ _ _); on_goal 1 => assumption)
      | apply KeepsOpt.via (mwbEffect_keeps _ _ _)
      | intro _

theorem execVadd_keeps (r : RunnerRef) (w : BitVec 128) (parity : Option (Nat × Nat)) (s : State) :
    KeepsOut (Part.regs ||| Part.memory ||| Part.frees ||| Part.log ||| Part.records ||| Part.jobs ||| Part.clusters ||| Part.bases ||| Part.mcores ||| Part.vcores ||| Part.scores ||| Part.towers ||| Part.hub ||| Part.sup) s (execVadd r w parity s) := by
  unfold execVadd
  repeat' with_reducible first
      | apply Keeps.refl | assumption | (apply Part.named; decide)
      | apply Keeps.next
      | apply KeepsOut.viaH (issueAs_keeps _ _ _ _ _ _ ?_ ?_)
      | (apply KeepsOpt.get (vEffect_keeps _ _ _ _ _ ?_ ?_); on_goal 1 => assumption)
      | apply KeepsOpt.viaH (vEffect_keeps _ _ _ _ _ ?_ ?_)
      | (apply KeepsOpt.get (vaddEffect_keeps _ _ _ _); on_goal 1 => assumption)
      | apply KeepsOpt.via (vaddEffect_keeps _ _ _ _)
      | (apply KeepsOpt.get (binEffect_keeps _ _ _ _); on_goal 1 => assumption)
      | apply KeepsOpt.via (binEffect_keeps _ _ _ _)
      | intro _

theorem execVsub_keeps (r : RunnerRef) (w : BitVec 128) (parity : Option (Nat × Nat)) (s : State) : KeepsOut (Part.regs ||| Part.memory ||| Part.frees ||| Part.log ||| Part.records ||| Part.jobs ||| Part.clusters ||| Part.bases ||| Part.mcores ||| Part.vcores ||| Part.scores ||| Part.towers ||| Part.hub ||| Part.sup) s (execVsub r w parity s) := by
  unfold execVsub
  repeat' with_reducible first
      | apply Keeps.refl | assumption | (apply Part.named; decide)
      | apply Keeps.next
      | apply KeepsOut.viaH (issueAs_keeps _ _ _ _ _ _ ?_ ?_)
      | (apply KeepsOpt.get (vEffect_keeps _ _ _ _ _ ?_ ?_); on_goal 1 => assumption)
      | apply KeepsOpt.viaH (vEffect_keeps _ _ _ _ _ ?_ ?_)
      | (apply KeepsOpt.get (binEffect_keeps _ _ _ _); on_goal 1 => assumption)
      | apply KeepsOpt.via (binEffect_keeps _ _ _ _)
      | intro _

theorem execVmul_keeps (r : RunnerRef) (w : BitVec 128) (parity : Option (Nat × Nat)) (s : State) : KeepsOut (Part.regs ||| Part.memory ||| Part.frees ||| Part.log ||| Part.records ||| Part.jobs ||| Part.clusters ||| Part.bases ||| Part.mcores ||| Part.vcores ||| Part.scores ||| Part.towers ||| Part.hub ||| Part.sup) s (execVmul r w parity s) := by
  unfold execVmul
  repeat' with_reducible first
      | apply Keeps.refl | assumption | (apply Part.named; decide)
      | apply Keeps.next
      | apply KeepsOut.viaH (issueAs_keeps _ _ _ _ _ _ ?_ ?_)
      | (apply KeepsOpt.get (vEffect_keeps _ _ _ _ _ ?_ ?_); on_goal 1 => assumption)
      | apply KeepsOpt.viaH (vEffect_keeps _ _ _ _ _ ?_ ?_)
      | (apply KeepsOpt.get (binEffect_keeps _ _ _ _); on_goal 1 => assumption)
      | apply KeepsOpt.via (binEffect_keeps _ _ _ _)
      | intro _

theorem execVfma_keeps (r : RunnerRef) (w : BitVec 128) (parity : Option (Nat × Nat)) (s : State) : KeepsOut (Part.regs ||| Part.memory ||| Part.frees ||| Part.log ||| Part.records ||| Part.jobs ||| Part.clusters ||| Part.bases ||| Part.mcores ||| Part.vcores ||| Part.scores ||| Part.towers ||| Part.hub ||| Part.sup) s (execVfma r w parity s) := by
  unfold execVfma
  repeat' with_reducible first
      | apply Keeps.refl | assumption | (apply Part.named; decide)
      | apply Keeps.next
      | apply KeepsOut.viaH (issueAs_keeps _ _ _ _ _ _ ?_ ?_)
      | (apply KeepsOpt.get (vEffect_keeps _ _ _ _ _ ?_ ?_); on_goal 1 => assumption)
      | apply KeepsOpt.viaH (vEffect_keeps _ _ _ _ _ ?_ ?_)
      | (apply KeepsOpt.get (vfmaEffect_keeps _ _ _); on_goal 1 => assumption)
      | apply KeepsOpt.via (vfmaEffect_keeps _ _ _)
      | intro _

theorem execVmax_keeps (r : RunnerRef) (w : BitVec 128) (parity : Option (Nat × Nat)) (s : State) : KeepsOut (Part.regs ||| Part.memory ||| Part.frees ||| Part.log ||| Part.records ||| Part.jobs ||| Part.clusters ||| Part.bases ||| Part.mcores ||| Part.vcores ||| Part.scores ||| Part.towers ||| Part.hub ||| Part.sup) s (execVmax r w parity s) := by
  unfold execVmax
  repeat' with_reducible first
      | apply Keeps.refl | assumption | (apply Part.named; decide)
      | apply Keeps.next
      | apply KeepsOut.viaH (issueAs_keeps _ _ _ _ _ _ ?_ ?_)
      | (apply KeepsOpt.get (vEffect_keeps _ _ _ _ _ ?_ ?_); on_goal 1 => assumption)
      | apply KeepsOpt.viaH (vEffect_keeps _ _ _ _ _ ?_ ?_)
      | (apply KeepsOpt.get (binEffect_keeps _ _ _ _); on_goal 1 => assumption)
      | apply KeepsOpt.via (binEffect_keeps _ _ _ _)
      | intro _

theorem execVmin_keeps (r : RunnerRef) (w : BitVec 128) (parity : Option (Nat × Nat)) (s : State) : KeepsOut (Part.regs ||| Part.memory ||| Part.frees ||| Part.log ||| Part.records ||| Part.jobs ||| Part.clusters ||| Part.bases ||| Part.mcores ||| Part.vcores ||| Part.scores ||| Part.towers ||| Part.hub ||| Part.sup) s (execVmin r w parity s) := by
  unfold execVmin
  repeat' with_reducible first
      | apply Keeps.refl | assumption | (apply Part.named; decide)
      | apply Keeps.next
      | apply KeepsOut.viaH (issueAs_keeps _ _ _ _ _ _ ?_ ?_)
      | (apply KeepsOpt.get (vEffect_keeps _ _ _ _ _ ?_ ?_); on_goal 1 => assumption)
      | apply KeepsOpt.viaH (vEffect_keeps _ _ _ _ _ ?_ ?_)
      | (apply KeepsOpt.get (binEffect_keeps _ _ _ _); on_goal 1 => assumption)
      | apply KeepsOpt.via (binEffect_keeps _ _ _ _)
      | intro _

theorem execVabs_keeps (r : RunnerRef) (w : BitVec 128) (parity : Option (Nat × Nat)) (s : State) : KeepsOut (Part.regs ||| Part.memory ||| Part.frees ||| Part.log ||| Part.records ||| Part.jobs ||| Part.clusters ||| Part.bases ||| Part.mcores ||| Part.vcores ||| Part.scores ||| Part.towers ||| Part.hub ||| Part.sup) s (execVabs r w parity s) := by
  unfold execVabs
  repeat' with_reducible first
      | apply Keeps.refl | assumption | (apply Part.named; decide)
      | apply Keeps.next
      | apply KeepsOut.viaH (issueAs_keeps _ _ _ _ _ _ ?_ ?_)
      | (apply KeepsOpt.get (vEffect_keeps _ _ _ _ _ ?_ ?_); on_goal 1 => assumption)
      | apply KeepsOpt.viaH (vEffect_keeps _ _ _ _ _ ?_ ?_)
      | (apply KeepsOpt.get (unEffect_keeps _ _ _ _); on_goal 1 => assumption)
      | apply KeepsOpt.via (unEffect_keeps _ _ _ _)
      | intro _

theorem execVneg_keeps (r : RunnerRef) (w : BitVec 128) (parity : Option (Nat × Nat)) (s : State) : KeepsOut (Part.regs ||| Part.memory ||| Part.frees ||| Part.log ||| Part.records ||| Part.jobs ||| Part.clusters ||| Part.bases ||| Part.mcores ||| Part.vcores ||| Part.scores ||| Part.towers ||| Part.hub ||| Part.sup) s (execVneg r w parity s) := by
  unfold execVneg
  repeat' with_reducible first
      | apply Keeps.refl | assumption | (apply Part.named; decide)
      | apply Keeps.next
      | apply KeepsOut.viaH (issueAs_keeps _ _ _ _ _ _ ?_ ?_)
      | (apply KeepsOpt.get (vEffect_keeps _ _ _ _ _ ?_ ?_); on_goal 1 => assumption)
      | apply KeepsOpt.viaH (vEffect_keeps _ _ _ _ _ ?_ ?_)
      | (apply KeepsOpt.get (unEffect_keeps _ _ _ _); on_goal 1 => assumption)
      | apply KeepsOpt.via (unEffect_keeps _ _ _ _)
      | intro _

theorem execVand_keeps (r : RunnerRef) (w : BitVec 128) (parity : Option (Nat × Nat)) (s : State) : KeepsOut (Part.regs ||| Part.memory ||| Part.frees ||| Part.log ||| Part.records ||| Part.jobs ||| Part.clusters ||| Part.bases ||| Part.mcores ||| Part.vcores ||| Part.scores ||| Part.towers ||| Part.hub ||| Part.sup) s (execVand r w parity s) := by
  unfold execVand
  repeat' with_reducible first
      | apply Keeps.refl | assumption | (apply Part.named; decide)
      | apply Keeps.next
      | apply KeepsOut.viaH (issueAs_keeps _ _ _ _ _ _ ?_ ?_)
      | (apply KeepsOpt.get (vEffect_keeps _ _ _ _ _ ?_ ?_); on_goal 1 => assumption)
      | apply KeepsOpt.viaH (vEffect_keeps _ _ _ _ _ ?_ ?_)
      | (apply KeepsOpt.get (binEffect_keeps _ _ _ _); on_goal 1 => assumption)
      | apply KeepsOpt.via (binEffect_keeps _ _ _ _)
      | intro _

theorem execVor_keeps (r : RunnerRef) (w : BitVec 128) (parity : Option (Nat × Nat)) (s : State) : KeepsOut (Part.regs ||| Part.memory ||| Part.frees ||| Part.log ||| Part.records ||| Part.jobs ||| Part.clusters ||| Part.bases ||| Part.mcores ||| Part.vcores ||| Part.scores ||| Part.towers ||| Part.hub ||| Part.sup) s (execVor r w parity s) := by
  unfold execVor
  repeat' with_reducible first
      | apply Keeps.refl | assumption | (apply Part.named; decide)
      | apply Keeps.next
      | apply KeepsOut.viaH (issueAs_keeps _ _ _ _ _ _ ?_ ?_)
      | (apply KeepsOpt.get (vEffect_keeps _ _ _ _ _ ?_ ?_); on_goal 1 => assumption)
      | apply KeepsOpt.viaH (vEffect_keeps _ _ _ _ _ ?_ ?_)
      | (apply KeepsOpt.get (binEffect_keeps _ _ _ _); on_goal 1 => assumption)
      | apply KeepsOpt.via (binEffect_keeps _ _ _ _)
      | intro _

theorem execVxor_keeps (r : RunnerRef) (w : BitVec 128) (parity : Option (Nat × Nat)) (s : State) : KeepsOut (Part.regs ||| Part.memory ||| Part.frees ||| Part.log ||| Part.records ||| Part.jobs ||| Part.clusters ||| Part.bases ||| Part.mcores ||| Part.vcores ||| Part.scores ||| Part.towers ||| Part.hub ||| Part.sup) s (execVxor r w parity s) := by
  unfold execVxor
  repeat' with_reducible first
      | apply Keeps.refl | assumption | (apply Part.named; decide)
      | apply Keeps.next
      | apply KeepsOut.viaH (issueAs_keeps _ _ _ _ _ _ ?_ ?_)
      | (apply KeepsOpt.get (vEffect_keeps _ _ _ _ _ ?_ ?_); on_goal 1 => assumption)
      | apply KeepsOpt.viaH (vEffect_keeps _ _ _ _ _ ?_ ?_)
      | (apply KeepsOpt.get (binEffect_keeps _ _ _ _); on_goal 1 => assumption)
      | apply KeepsOpt.via (binEffect_keeps _ _ _ _)
      | intro _

theorem execVshift_keeps (r : RunnerRef) (w : BitVec 128) (parity : Option (Nat × Nat)) (s : State) : KeepsOut (Part.regs ||| Part.memory ||| Part.frees ||| Part.log ||| Part.records ||| Part.jobs ||| Part.clusters ||| Part.bases ||| Part.mcores ||| Part.vcores ||| Part.scores ||| Part.towers ||| Part.hub ||| Part.sup) s (execVshift r w parity s) := by
  unfold execVshift
  repeat' with_reducible first
      | apply Keeps.refl | assumption | (apply Part.named; decide)
      | apply Keeps.next
      | apply KeepsOut.viaH (issueAs_keeps _ _ _ _ _ _ ?_ ?_)
      | (apply KeepsOpt.get (vEffect_keeps _ _ _ _ _ ?_ ?_); on_goal 1 => assumption)
      | apply KeepsOpt.viaH (vEffect_keeps _ _ _ _ _ ?_ ?_)
      | (apply KeepsOpt.get (vshiftEffect_keeps _ _ _); on_goal 1 => assumption)
      | apply KeepsOpt.via (vshiftEffect_keeps _ _ _)
      | intro _

theorem execVcmp_keeps (r : RunnerRef) (w : BitVec 128) (parity : Option (Nat × Nat)) (s : State) : KeepsOut (Part.regs ||| Part.memory ||| Part.frees ||| Part.log ||| Part.records ||| Part.jobs ||| Part.clusters ||| Part.bases ||| Part.mcores ||| Part.vcores ||| Part.scores ||| Part.towers ||| Part.hub ||| Part.sup) s (execVcmp r w parity s) := by
  unfold execVcmp
  repeat' with_reducible first
      | apply Keeps.refl | assumption | (apply Part.named; decide)
      | apply Keeps.next
      | apply KeepsOut.viaH (issueAs_keeps _ _ _ _ _ _ ?_ ?_)
      | (apply KeepsOpt.get (vEffect_keeps _ _ _ _ _ ?_ ?_); on_goal 1 => assumption)
      | apply KeepsOpt.viaH (vEffect_keeps _ _ _ _ _ ?_ ?_)
      | (apply KeepsOpt.get (vcmpEffect_keeps _ _ _); on_goal 1 => assumption)
      | apply KeepsOpt.via (vcmpEffect_keeps _ _ _)
      | intro _

theorem execVsel_keeps (r : RunnerRef) (w : BitVec 128) (parity : Option (Nat × Nat)) (s : State) : KeepsOut (Part.regs ||| Part.memory ||| Part.frees ||| Part.log ||| Part.records ||| Part.jobs ||| Part.clusters ||| Part.bases ||| Part.mcores ||| Part.vcores ||| Part.scores ||| Part.towers ||| Part.hub ||| Part.sup) s (execVsel r w parity s) := by
  unfold execVsel
  repeat' with_reducible first
      | apply Keeps.refl | assumption | (apply Part.named; decide)
      | apply Keeps.next
      | apply KeepsOut.viaH (issueAs_keeps _ _ _ _ _ _ ?_ ?_)
      | (apply KeepsOpt.get (vEffect_keeps _ _ _ _ _ ?_ ?_); on_goal 1 => assumption)
      | apply KeepsOpt.viaH (vEffect_keeps _ _ _ _ _ ?_ ?_)
      | (apply KeepsOpt.get (vselEffect_keeps _ _ _); on_goal 1 => assumption)
      | apply KeepsOpt.via (vselEffect_keeps _ _ _)
      | intro _

theorem execVrot_keeps (r : RunnerRef) (w : BitVec 128) (parity : Option (Nat × Nat)) (s : State) : KeepsOut (Part.regs ||| Part.memory ||| Part.frees ||| Part.log ||| Part.records ||| Part.jobs ||| Part.clusters ||| Part.bases ||| Part.mcores ||| Part.vcores ||| Part.scores ||| Part.towers ||| Part.hub ||| Part.sup) s (execVrot r w parity s) := by
  unfold execVrot
  repeat' with_reducible first
      | apply Keeps.refl | assumption | (apply Part.named; decide)
      | apply Keeps.next
      | apply KeepsOut.viaH (issueAs_keeps _ _ _ _ _ _ ?_ ?_)
      | (apply KeepsOpt.get (vEffect_keeps _ _ _ _ _ ?_ ?_); on_goal 1 => assumption)
      | apply KeepsOpt.viaH (vEffect_keeps _ _ _ _ _ ?_ ?_)
      | (apply KeepsOpt.get (vrotEffect_keeps _ _ _); on_goal 1 => assumption)
      | apply KeepsOpt.via (vrotEffect_keeps _ _ _)
      | intro _

theorem execVcvt_keeps (r : RunnerRef) (w : BitVec 128) (parity : Option (Nat × Nat)) (s : State) : KeepsOut (Part.regs ||| Part.memory ||| Part.frees ||| Part.log ||| Part.records ||| Part.jobs ||| Part.clusters ||| Part.bases ||| Part.mcores ||| Part.vcores ||| Part.scores ||| Part.towers ||| Part.hub ||| Part.sup) s (execVcvt r w parity s) := by
  unfold execVcvt
  repeat' with_reducible first
      | apply Keeps.refl | assumption | (apply Part.named; decide)
      | apply Keeps.next
      | apply KeepsOut.viaH (issueAs_keeps _ _ _ _ _ _ ?_ ?_)
      | (apply KeepsOpt.get (vEffect_keeps _ _ _ _ _ ?_ ?_); on_goal 1 => assumption)
      | apply KeepsOpt.viaH (vEffect_keeps _ _ _ _ _ ?_ ?_)
      | (apply KeepsOpt.get (vcvtEffect_keeps _ _ _); on_goal 1 => assumption)
      | apply KeepsOpt.via (vcvtEffect_keeps _ _ _)
      | intro _

theorem execVrgen_keeps (r : RunnerRef) (w : BitVec 128) (parity : Option (Nat × Nat)) (s : State) : KeepsOut (Part.regs ||| Part.memory ||| Part.frees ||| Part.log ||| Part.records ||| Part.jobs ||| Part.clusters ||| Part.bases ||| Part.mcores ||| Part.vcores ||| Part.scores ||| Part.towers ||| Part.hub ||| Part.sup) s (execVrgen r w parity s) := by
  unfold execVrgen
  repeat' with_reducible first
      | apply Keeps.refl | assumption | (apply Part.named; decide)
      | apply Keeps.next
      | apply KeepsOut.viaH (issueAs_keeps _ _ _ _ _ _ ?_ ?_)
      | (apply KeepsOpt.get (vEffect_keeps _ _ _ _ _ ?_ ?_); on_goal 1 => assumption)
      | apply KeepsOpt.viaH (vEffect_keeps _ _ _ _ _ ?_ ?_)
      | (apply KeepsOpt.get (vrgenEffect_keeps _ _ _); on_goal 1 => assumption)
      | apply KeepsOpt.via (vrgenEffect_keeps _ _ _)
      | intro _

theorem execVexp_keeps (r : RunnerRef) (w : BitVec 128) (parity : Option (Nat × Nat)) (s : State) : KeepsOut (Part.regs ||| Part.memory ||| Part.frees ||| Part.log ||| Part.records ||| Part.jobs ||| Part.clusters ||| Part.bases ||| Part.mcores ||| Part.vcores ||| Part.scores ||| Part.towers ||| Part.hub ||| Part.sup) s (execVexp r w parity s) := by
  unfold execVexp
  repeat' with_reducible first
      | apply Keeps.refl | assumption | (apply Part.named; decide)
      | apply Keeps.next
      | apply KeepsOut.viaH (issueAs_keeps _ _ _ _ _ _ ?_ ?_)
      | (apply KeepsOpt.get (vEffect_keeps _ _ _ _ _ ?_ ?_); on_goal 1 => assumption)
      | apply KeepsOpt.viaH (vEffect_keeps _ _ _ _ _ ?_ ?_)
      | (apply KeepsOpt.get (vxuEffect_keeps _ _ _ _); on_goal 1 => assumption)
      | apply KeepsOpt.via (vxuEffect_keeps _ _ _ _)
      | intro _

theorem execVlog_keeps (r : RunnerRef) (w : BitVec 128) (parity : Option (Nat × Nat)) (s : State) : KeepsOut (Part.regs ||| Part.memory ||| Part.frees ||| Part.log ||| Part.records ||| Part.jobs ||| Part.clusters ||| Part.bases ||| Part.mcores ||| Part.vcores ||| Part.scores ||| Part.towers ||| Part.hub ||| Part.sup) s (execVlog r w parity s) := by
  unfold execVlog
  repeat' with_reducible first
      | apply Keeps.refl | assumption | (apply Part.named; decide)
      | apply Keeps.next
      | apply KeepsOut.viaH (issueAs_keeps _ _ _ _ _ _ ?_ ?_)
      | (apply KeepsOpt.get (vEffect_keeps _ _ _ _ _ ?_ ?_); on_goal 1 => assumption)
      | apply KeepsOpt.viaH (vEffect_keeps _ _ _ _ _ ?_ ?_)
      | (apply KeepsOpt.get (vxuEffect_keeps _ _ _ _); on_goal 1 => assumption)
      | apply KeepsOpt.via (vxuEffect_keeps _ _ _ _)
      | intro _

theorem execVrsq_keeps (r : RunnerRef) (w : BitVec 128) (parity : Option (Nat × Nat)) (s : State) : KeepsOut (Part.regs ||| Part.memory ||| Part.frees ||| Part.log ||| Part.records ||| Part.jobs ||| Part.clusters ||| Part.bases ||| Part.mcores ||| Part.vcores ||| Part.scores ||| Part.towers ||| Part.hub ||| Part.sup) s (execVrsq r w parity s) := by
  unfold execVrsq
  repeat' with_reducible first
      | apply Keeps.refl | assumption | (apply Part.named; decide)
      | apply Keeps.next
      | apply KeepsOut.viaH (issueAs_keeps _ _ _ _ _ _ ?_ ?_)
      | (apply KeepsOpt.get (vEffect_keeps _ _ _ _ _ ?_ ?_); on_goal 1 => assumption)
      | apply KeepsOpt.viaH (vEffect_keeps _ _ _ _ _ ?_ ?_)
      | (apply KeepsOpt.get (vxuEffect_keeps _ _ _ _); on_goal 1 => assumption)
      | apply KeepsOpt.via (vxuEffect_keeps _ _ _ _)
      | intro _

theorem execVrcp_keeps (r : RunnerRef) (w : BitVec 128) (parity : Option (Nat × Nat)) (s : State) : KeepsOut (Part.regs ||| Part.memory ||| Part.frees ||| Part.log ||| Part.records ||| Part.jobs ||| Part.clusters ||| Part.bases ||| Part.mcores ||| Part.vcores ||| Part.scores ||| Part.towers ||| Part.hub ||| Part.sup) s (execVrcp r w parity s) := by
  unfold execVrcp
  repeat' with_reducible first
      | apply Keeps.refl | assumption | (apply Part.named; decide)
      | apply Keeps.next
      | apply KeepsOut.viaH (issueAs_keeps _ _ _ _ _ _ ?_ ?_)
      | (apply KeepsOpt.get (vEffect_keeps _ _ _ _ _ ?_ ?_); on_goal 1 => assumption)
      | apply KeepsOpt.viaH (vEffect_keeps _ _ _ _ _ ?_ ?_)
      | (apply KeepsOpt.get (vxuEffect_keeps _ _ _ _); on_goal 1 => assumption)
      | apply KeepsOpt.via (vxuEffect_keeps _ _ _ _)
      | intro _

theorem execVtanh_keeps (r : RunnerRef) (w : BitVec 128) (parity : Option (Nat × Nat)) (s : State) : KeepsOut (Part.regs ||| Part.memory ||| Part.frees ||| Part.log ||| Part.records ||| Part.jobs ||| Part.clusters ||| Part.bases ||| Part.mcores ||| Part.vcores ||| Part.scores ||| Part.towers ||| Part.hub ||| Part.sup) s (execVtanh r w parity s) := by
  unfold execVtanh
  repeat' with_reducible first
      | apply Keeps.refl | assumption | (apply Part.named; decide)
      | apply Keeps.next
      | apply KeepsOut.viaH (issueAs_keeps _ _ _ _ _ _ ?_ ?_)
      | (apply KeepsOpt.get (vEffect_keeps _ _ _ _ _ ?_ ?_); on_goal 1 => assumption)
      | apply KeepsOpt.viaH (vEffect_keeps _ _ _ _ _ ?_ ?_)
      | (apply KeepsOpt.get (vxuEffect_keeps _ _ _ _); on_goal 1 => assumption)
      | apply KeepsOpt.via (vxuEffect_keeps _ _ _ _)
      | intro _

theorem execVrsum_keeps (r : RunnerRef) (w : BitVec 128) (parity : Option (Nat × Nat)) (s : State) : KeepsOut (Part.regs ||| Part.memory ||| Part.frees ||| Part.log ||| Part.records ||| Part.jobs ||| Part.clusters ||| Part.bases ||| Part.mcores ||| Part.vcores ||| Part.scores ||| Part.towers ||| Part.hub ||| Part.sup) s (execVrsum r w parity s) := by
  unfold execVrsum
  repeat' with_reducible first
      | apply Keeps.refl | assumption | (apply Part.named; decide)
      | apply Keeps.next
      | apply KeepsOut.viaH (issueAs_keeps _ _ _ _ _ _ ?_ ?_)
      | (apply KeepsOpt.get (vEffect_keeps _ _ _ _ _ ?_ ?_); on_goal 1 => assumption)
      | apply KeepsOpt.viaH (vEffect_keeps _ _ _ _ _ ?_ ?_)
      | (apply KeepsOpt.get (vrsumEffect_keeps _ _ _); on_goal 1 => assumption)
      | apply KeepsOpt.via (vrsumEffect_keeps _ _ _)
      | intro _

theorem execVrmax_keeps (r : RunnerRef) (w : BitVec 128) (parity : Option (Nat × Nat)) (s : State) : KeepsOut (Part.regs ||| Part.memory ||| Part.frees ||| Part.log ||| Part.records ||| Part.jobs ||| Part.clusters ||| Part.bases ||| Part.mcores ||| Part.vcores ||| Part.scores ||| Part.towers ||| Part.hub ||| Part.sup) s (execVrmax r w parity s) := by
  unfold execVrmax
  repeat' with_reducible first
      | apply Keeps.refl | assumption | (apply Part.named; decide)
      | apply Keeps.next
      | apply KeepsOut.viaH (issueAs_keeps _ _ _ _ _ _ ?_ ?_)
      | (apply KeepsOpt.get (vEffect_keeps _ _ _ _ _ ?_ ?_); on_goal 1 => assumption)
      | apply KeepsOpt.viaH (vEffect_keeps _ _ _ _ _ ?_ ?_)
      | (apply KeepsOpt.get (vrmaxEffect_keeps _ _ _); on_goal 1 => assumption)
      | apply KeepsOpt.via (vrmaxEffect_keeps _ _ _)
      | intro _

theorem execVrmin_keeps (r : RunnerRef) (w : BitVec 128) (parity : Option (Nat × Nat)) (s : State) : KeepsOut (Part.regs ||| Part.memory ||| Part.frees ||| Part.log ||| Part.records ||| Part.jobs ||| Part.clusters ||| Part.bases ||| Part.mcores ||| Part.vcores ||| Part.scores ||| Part.towers ||| Part.hub ||| Part.sup) s (execVrmin r w parity s) := by
  unfold execVrmin
  repeat' with_reducible first
      | apply Keeps.refl | assumption | (apply Part.named; decide)
      | apply Keeps.next
      | apply KeepsOut.viaH (issueAs_keeps _ _ _ _ _ _ ?_ ?_)
      | (apply KeepsOpt.get (vEffect_keeps _ _ _ _ _ ?_ ?_); on_goal 1 => assumption)
      | apply KeepsOpt.viaH (vEffect_keeps _ _ _ _ _ ?_ ?_)
      | (apply KeepsOpt.get (vrminEffect_keeps _ _ _); on_goal 1 => assumption)
      | apply KeepsOpt.via (vrminEffect_keeps _ _ _)
      | intro _

theorem execVperm_keeps (r : RunnerRef) (w : BitVec 128) (parity : Option (Nat × Nat)) (s : State) : KeepsOut (Part.regs ||| Part.memory ||| Part.frees ||| Part.log ||| Part.records ||| Part.jobs ||| Part.clusters ||| Part.bases ||| Part.mcores ||| Part.vcores ||| Part.scores ||| Part.towers ||| Part.hub ||| Part.sup) s (execVperm r w parity s) := by
  unfold execVperm
  repeat' with_reducible first
      | apply Keeps.refl | assumption | (apply Part.named; decide)
      | apply Keeps.next
      | apply KeepsOut.viaH (issueAs_keeps _ _ _ _ _ _ ?_ ?_)
      | (apply KeepsOpt.get (vEffect_keeps _ _ _ _ _ ?_ ?_); on_goal 1 => assumption)
      | apply KeepsOpt.viaH (vEffect_keeps _ _ _ _ _ ?_ ?_)
      | (apply KeepsOpt.get (vpermEffect_keeps _ _ _); on_goal 1 => assumption)
      | apply KeepsOpt.via (vpermEffect_keeps _ _ _)
      | intro _

theorem execVbcast_keeps (r : RunnerRef) (w : BitVec 128) (parity : Option (Nat × Nat)) (s : State) : KeepsOut (Part.regs ||| Part.memory ||| Part.frees ||| Part.log ||| Part.records ||| Part.jobs ||| Part.clusters ||| Part.bases ||| Part.mcores ||| Part.vcores ||| Part.scores ||| Part.towers ||| Part.hub ||| Part.sup) s (execVbcast r w parity s) := by
  unfold execVbcast
  repeat' with_reducible first
      | apply Keeps.refl | assumption | (apply Part.named; decide)
      | apply Keeps.next
      | apply KeepsOut.viaH (issueAs_keeps _ _ _ _ _ _ ?_ ?_)
      | (apply KeepsOpt.get (vEffect_keeps _ _ _ _ _ ?_ ?_); on_goal 1 => assumption)
      | apply KeepsOpt.viaH (vEffect_keeps _ _ _ _ _ ?_ ?_)
      | (apply KeepsOpt.get (vbcastEffect_keeps _ _ _); on_goal 1 => assumption)
      | apply KeepsOpt.via (vbcastEffect_keeps _ _ _)
      | intro _

theorem execVld_keeps (r : RunnerRef) (w : BitVec 128) (parity : Option (Nat × Nat)) (s : State) : KeepsOut (Part.regs ||| Part.memory ||| Part.frees ||| Part.log ||| Part.records ||| Part.jobs ||| Part.clusters ||| Part.bases ||| Part.mcores ||| Part.vcores ||| Part.scores ||| Part.towers ||| Part.stacks ||| Part.hub ||| Part.sup) s (execVld r w parity s) := by
  unfold execVld
  repeat' with_reducible first
      | apply Keeps.refl | assumption | (apply Part.named; decide)
      | apply Keeps.next
      | apply KeepsOut.viaH (issueAs_keeps _ _ _ _ _ _ ?_ ?_)
      | (apply KeepsOpt.get (vEffect_keeps _ _ _ _ _ ?_ ?_); on_goal 1 => assumption)
      | apply KeepsOpt.viaH (vEffect_keeps _ _ _ _ _ ?_ ?_)
      | (apply KeepsOpt.get (vldEffect_keeps _ _ _); on_goal 1 => assumption)
      | apply KeepsOpt.via (vldEffect_keeps _ _ _)
      | intro _

theorem execVst_keeps (r : RunnerRef) (w : BitVec 128) (parity : Option (Nat × Nat)) (s : State) : KeepsOut (Part.regs ||| Part.memory ||| Part.frees ||| Part.log ||| Part.records ||| Part.jobs ||| Part.clusters ||| Part.bases ||| Part.mcores ||| Part.vcores ||| Part.scores ||| Part.towers ||| Part.stacks ||| Part.hub ||| Part.sup) s (execVst r w parity s) := by
  unfold execVst
  repeat' with_reducible first
      | apply Keeps.refl | assumption | (apply Part.named; decide)
      | apply Keeps.next
      | apply KeepsOut.viaH (issueAs_keeps _ _ _ _ _ _ ?_ ?_)
      | (apply KeepsOpt.get (vEffect_keeps _ _ _ _ _ ?_ ?_); on_goal 1 => assumption)
      | apply KeepsOpt.viaH (vEffect_keeps _ _ _ _ _ ?_ ?_)
      | (apply KeepsOpt.get (vstEffect_keeps _ _ _); on_goal 1 => assumption)
      | apply KeepsOpt.via (vstEffect_keeps _ _ _)
      | intro _

theorem execVgath_keeps (r : RunnerRef) (w : BitVec 128) (parity : Option (Nat × Nat)) (s : State) : KeepsOut (Part.regs ||| Part.memory ||| Part.frees ||| Part.log ||| Part.records ||| Part.jobs ||| Part.clusters ||| Part.bases ||| Part.mcores ||| Part.vcores ||| Part.scores ||| Part.towers ||| Part.stacks ||| Part.hub ||| Part.sup) s (execVgath r w parity s) := by
  unfold execVgath
  repeat' with_reducible first
      | apply Keeps.refl | assumption | (apply Part.named; decide)
      | apply Keeps.next
      | apply KeepsOut.viaH (issueAs_keeps _ _ _ _ _ _ ?_ ?_)
      | (apply KeepsOpt.get (vEffect_keeps _ _ _ _ _ ?_ ?_); on_goal 1 => assumption)
      | apply KeepsOpt.viaH (vEffect_keeps _ _ _ _ _ ?_ ?_)
      | (apply KeepsOpt.get (vgathEffect_keeps _ _ _); on_goal 1 => assumption)
      | apply KeepsOpt.via (vgathEffect_keeps _ _ _)
      | intro _

theorem execVscat_keeps (r : RunnerRef) (w : BitVec 128) (parity : Option (Nat × Nat)) (s : State) : KeepsOut (Part.regs ||| Part.memory ||| Part.frees ||| Part.log ||| Part.records ||| Part.jobs ||| Part.clusters ||| Part.bases ||| Part.mcores ||| Part.vcores ||| Part.scores ||| Part.towers ||| Part.stacks ||| Part.hub ||| Part.sup) s (execVscat r w parity s) := by
  unfold execVscat
  repeat' with_reducible first
      | apply Keeps.refl | assumption | (apply Part.named; decide)
      | apply Keeps.next
      | apply KeepsOut.viaH (issueAs_keeps _ _ _ _ _ _ ?_ ?_)
      | (apply KeepsOpt.get (vEffect_keeps _ _ _ _ _ ?_ ?_); on_goal 1 => assumption)
      | apply KeepsOpt.viaH (vEffect_keeps _ _ _ _ _ ?_ ?_)
      | (apply KeepsOpt.get (vscatEffect_keeps _ _ _); on_goal 1 => assumption)
      | apply KeepsOpt.via (vscatEffect_keeps _ _ _)
      | intro _

theorem execVsetb_keeps (r : RunnerRef) (w : BitVec 128) (s : State) :
    KeepsOut (Part.regs ||| Part.frees ||| Part.records ||| Part.jobs ||| Part.clusters ||| Part.bases ||| Part.scores ||| Part.towers) s (execVsetb r w s) := by
  unfold execVsetb
  repeat' with_reducible first
      | apply Keeps.refl | assumption | (apply Part.named; decide)
      | apply Keeps.next
      | apply KeepsOut.viaH (issueAs_keeps _ _ _ _ _ _ ?_ ?_)
      | (apply KeepsOpt.get (vPlain_keeps _ _ _ _ ?_ ?_); on_goal 1 => assumption)
      | apply KeepsOpt.viaH (vPlain_keeps _ _ _ _ ?_ ?_)
      | (apply KeepsOpt.get (vsetbEffect_keeps _ _ _); on_goal 1 => assumption)
      | apply KeepsOpt.via (vsetbEffect_keeps _ _ _)
      | intro _

theorem execVsetk_keeps (r : RunnerRef) (w : BitVec 128) (s : State) :
    KeepsOut (Part.regs ||| Part.frees ||| Part.records ||| Part.jobs ||| Part.clusters ||| Part.vcores ||| Part.scores ||| Part.towers) s (execVsetk r w s) := by
  unfold execVsetk
  repeat' with_reducible first
      | apply Keeps.refl | assumption | (apply Part.named; decide)
      | apply Keeps.next
      | apply KeepsOut.viaH (issueAs_keeps _ _ _ _ _ _ ?_ ?_)
      | (apply KeepsOpt.get (vPlain_keeps _ _ _ _ ?_ ?_); on_goal 1 => assumption)
      | apply KeepsOpt.viaH (vPlain_keeps _ _ _ _ ?_ ?_)
      | (apply KeepsOpt.get (vsetkEffect_keeps _ _ _); on_goal 1 => assumption)
      | apply KeepsOpt.via (vsetkEffect_keeps _ _ _)
      | intro _

theorem execVsetc_keeps (r : RunnerRef) (w : BitVec 128) (s : State) :
    KeepsOut (Part.regs ||| Part.frees ||| Part.records ||| Part.jobs ||| Part.clusters ||| Part.vcores ||| Part.scores ||| Part.towers) s (execVsetc r w s) := by
  unfold execVsetc
  repeat' with_reducible first
      | apply Keeps.refl | assumption | (apply Part.named; decide)
      | apply Keeps.next
      | apply KeepsOut.viaH (issueAs_keeps _ _ _ _ _ _ ?_ ?_)
      | (apply KeepsOpt.get (vPlain_keeps _ _ _ _ ?_ ?_); on_goal 1 => assumption)
      | apply KeepsOpt.viaH (vPlain_keeps _ _ _ _ ?_ ?_)
      | (apply KeepsOpt.get (vsetcEffect_keeps _ _ _); on_goal 1 => assumption)
      | apply KeepsOpt.via (vsetcEffect_keeps _ _ _)
      | intro _

theorem execVsetm_keeps (r : RunnerRef) (w : BitVec 128) (s : State) :
    KeepsOut (Part.regs ||| Part.frees ||| Part.records ||| Part.jobs ||| Part.clusters ||| Part.vcores ||| Part.scores ||| Part.towers) s (execVsetm r w s) := by
  unfold execVsetm
  repeat' with_reducible first
      | apply Keeps.refl | assumption | (apply Part.named; decide)
      | apply Keeps.next
      | apply KeepsOut.viaH (issueAs_keeps _ _ _ _ _ _ ?_ ?_)
      | (apply KeepsOpt.get (vPlain_keeps _ _ _ _ ?_ ?_); on_goal 1 => assumption)
      | apply KeepsOpt.viaH (vPlain_keeps _ _ _ _ ?_ ?_)
      | (apply KeepsOpt.get (vsetmEffect_keeps _ _ _); on_goal 1 => assumption)
      | apply KeepsOpt.via (vsetmEffect_keeps _ _ _)
      | intro _

theorem execVadamw_keeps (r : RunnerRef) (w : BitVec 128) (parity : Option (Nat × Nat)) (s : State) : KeepsOut (Part.regs ||| Part.memory ||| Part.frees ||| Part.log ||| Part.records ||| Part.jobs ||| Part.clusters ||| Part.bases ||| Part.mcores ||| Part.vcores ||| Part.scores ||| Part.towers ||| Part.hub ||| Part.sup) s (execVadamw r w parity s) := by
  unfold execVadamw
  repeat' with_reducible first
      | apply Keeps.refl | assumption | (apply Part.named; decide)
      | apply Keeps.next
      | apply KeepsOut.viaH (issueAs_keeps _ _ _ _ _ _ ?_ ?_)
      | (apply KeepsOpt.get (vEffect_keeps _ _ _ _ _ ?_ ?_); on_goal 1 => assumption)
      | apply KeepsOpt.viaH (vEffect_keeps _ _ _ _ _ ?_ ?_)
      | (apply KeepsOpt.get (optEffect_keeps _ _ _ _); on_goal 1 => assumption)
      | apply KeepsOpt.via (optEffect_keeps _ _ _ _)
      | intro _

theorem execVsgdm_keeps (r : RunnerRef) (w : BitVec 128) (parity : Option (Nat × Nat)) (s : State) : KeepsOut (Part.regs ||| Part.memory ||| Part.frees ||| Part.log ||| Part.records ||| Part.jobs ||| Part.clusters ||| Part.bases ||| Part.mcores ||| Part.vcores ||| Part.scores ||| Part.towers ||| Part.hub ||| Part.sup) s (execVsgdm r w parity s) := by
  unfold execVsgdm
  repeat' with_reducible first
      | apply Keeps.refl | assumption | (apply Part.named; decide)
      | apply Keeps.next
      | apply KeepsOut.viaH (issueAs_keeps _ _ _ _ _ _ ?_ ?_)
      | (apply KeepsOpt.get (vEffect_keeps _ _ _ _ _ ?_ ?_); on_goal 1 => assumption)
      | apply KeepsOpt.viaH (vEffect_keeps _ _ _ _ _ ?_ ?_)
      | (apply KeepsOpt.get (optEffect_keeps _ _ _ _); on_goal 1 => assumption)
      | apply KeepsOpt.via (optEffect_keeps _ _ _ _)
      | intro _

theorem execSalu_keeps (r : RunnerRef) (w : BitVec 128) (parity : Option Nat) (s : State) :
    KeepsOut (Part.regs ||| Part.memory ||| Part.frees ||| Part.log ||| Part.records ||| Part.jobs ||| Part.clusters ||| Part.bases ||| Part.mcores ||| Part.vcores ||| Part.scores ||| Part.towers ||| Part.hub ||| Part.sup) s (execSalu r w parity s) := by
  unfold execSalu
  repeat' with_reducible first
      | apply Keeps.refl | assumption | (apply Part.named; decide)
      | apply Keeps.next
      | apply KeepsOut.viaH (issueAs_keeps _ _ _ _ _ _ ?_ ?_)
      | (apply KeepsOpt.get (sEffect_keeps _ _ _ _ _ ?_ ?_); on_goal 1 => assumption)
      | apply KeepsOpt.viaH (sEffect_keeps _ _ _ _ _ ?_ ?_)
      | (apply KeepsOpt.get (saluEffect_keeps _ _ _); on_goal 1 => assumption)
      | apply KeepsOpt.via (saluEffect_keeps _ _ _)
      | intro _

theorem execSli_keeps (r : RunnerRef) (w : BitVec 128) (s : State) :
    KeepsOut (Part.regs ||| Part.frees ||| Part.records ||| Part.jobs ||| Part.clusters ||| Part.scores ||| Part.towers) s (execSli r w s) := by
  unfold execSli
  repeat' with_reducible first
      | apply Keeps.refl | assumption | (apply Part.named; decide)
      | apply Keeps.next
      | apply KeepsOut.viaH (issueAs_keeps _ _ _ _ _ _ ?_ ?_)
      | (apply KeepsOpt.get (sPlain_keeps _ _ _ _ ?_ ?_); on_goal 1 => assumption)
      | apply KeepsOpt.viaH (sPlain_keeps _ _ _ _ ?_ ?_)
      | (apply KeepsOpt.get (sliEffect_keeps _ _ _); on_goal 1 => assumption)
      | apply KeepsOpt.via (sliEffect_keeps _ _ _)
      | intro _

theorem execSget_keeps (r : RunnerRef) (w : BitVec 128) (s : State) :
    KeepsOut (Part.regs ||| Part.frees ||| Part.records ||| Part.jobs ||| Part.clusters ||| Part.scores ||| Part.towers) s (execSget r w s) := by
  unfold execSget
  repeat' with_reducible first
      | apply Keeps.refl | assumption | (apply Part.named; decide)
      | apply Keeps.next
      | apply KeepsOut.viaH (issueAs_keeps _ _ _ _ _ _ ?_ ?_)
      | (apply KeepsOpt.get (sPlain_keeps _ _ _ _ ?_ ?_); on_goal 1 => assumption)
      | apply KeepsOpt.viaH (sPlain_keeps _ _ _ _ ?_ ?_)
      | (apply KeepsOpt.get (sgetEffect_keeps _ _ _); on_goal 1 => assumption)
      | apply KeepsOpt.via (sgetEffect_keeps _ _ _)
      | intro _

theorem execSld_keeps (r : RunnerRef) (w : BitVec 128) (parity : Option Nat) (s : State) : KeepsOut (Part.regs ||| Part.memory ||| Part.frees ||| Part.log ||| Part.records ||| Part.jobs ||| Part.clusters ||| Part.bases ||| Part.mcores ||| Part.vcores ||| Part.scores ||| Part.towers ||| Part.stacks ||| Part.hub ||| Part.sup) s (execSld r w parity s) := by
  unfold execSld
  repeat' with_reducible first
      | apply Keeps.refl | assumption | (apply Part.named; decide)
      | apply Keeps.next
      | apply KeepsOut.viaH (issueAs_keeps _ _ _ _ _ _ ?_ ?_)
      | (apply KeepsOpt.get (sEffect_keeps _ _ _ _ _ ?_ ?_); on_goal 1 => assumption)
      | apply KeepsOpt.viaH (sEffect_keeps _ _ _ _ _ ?_ ?_)
      | (apply KeepsOpt.get (sldEffect_keeps _ _ _); on_goal 1 => assumption)
      | apply KeepsOpt.via (sldEffect_keeps _ _ _)
      | intro _

theorem execSst_keeps (r : RunnerRef) (w : BitVec 128) (parity : Option Nat) (s : State) : KeepsOut (Part.regs ||| Part.memory ||| Part.frees ||| Part.log ||| Part.records ||| Part.jobs ||| Part.clusters ||| Part.bases ||| Part.mcores ||| Part.vcores ||| Part.scores ||| Part.towers ||| Part.stacks ||| Part.hub ||| Part.sup) s (execSst r w parity s) := by
  unfold execSst
  repeat' with_reducible first
      | apply Keeps.refl | assumption | (apply Part.named; decide)
      | apply Keeps.next
      | apply KeepsOut.viaH (issueAs_keeps _ _ _ _ _ _ ?_ ?_)
      | (apply KeepsOpt.get (sEffect_keeps _ _ _ _ _ ?_ ?_); on_goal 1 => assumption)
      | apply KeepsOpt.viaH (sEffect_keeps _ _ _ _ _ ?_ ?_)
      | (apply KeepsOpt.get (sstEffect_keeps _ _ _); on_goal 1 => assumption)
      | apply KeepsOpt.via (sstEffect_keeps _ _ _)
      | intro _

theorem execSpush_keeps (r : RunnerRef) (w : BitVec 128) (parity : Option Nat) (s : State) : KeepsOut (Part.regs ||| Part.memory ||| Part.frees ||| Part.log ||| Part.records ||| Part.jobs ||| Part.clusters ||| Part.bases ||| Part.mcores ||| Part.vcores ||| Part.scores ||| Part.towers ||| Part.hub ||| Part.sup) s (execSpush r w parity s) := by
  unfold execSpush
  repeat' with_reducible first
      | apply Keeps.refl | assumption | (apply Part.named; decide)
      | apply Keeps.next
      | apply KeepsOut.viaH (issueAs_keeps _ _ _ _ _ _ ?_ ?_)
      | (apply KeepsOpt.get (sEffect_keeps _ _ _ _ _ ?_ ?_); on_goal 1 => assumption)
      | apply KeepsOpt.viaH (sEffect_keeps _ _ _ _ _ ?_ ?_)
      | (apply KeepsOpt.get (spushEffect_keeps _ _ _); on_goal 1 => assumption)
      | apply KeepsOpt.via (spushEffect_keeps _ _ _)
      | intro _

theorem execSidx_keeps (r : RunnerRef) (w : BitVec 128) (parity : Option Nat) (s : State) : KeepsOut (Part.regs ||| Part.memory ||| Part.frees ||| Part.log ||| Part.records ||| Part.jobs ||| Part.clusters ||| Part.bases ||| Part.mcores ||| Part.vcores ||| Part.scores ||| Part.towers ||| Part.hub ||| Part.sup) s (execSidx r w parity s) := by
  unfold execSidx
  repeat' with_reducible first
      | apply Keeps.refl | assumption | (apply Part.named; decide)
      | apply Keeps.next
      | apply KeepsOut.viaH (issueAs_keeps _ _ _ _ _ _ ?_ ?_)
      | (apply KeepsOpt.get (sEffect_keeps _ _ _ _ _ ?_ ?_); on_goal 1 => assumption)
      | apply KeepsOpt.viaH (sEffect_keeps _ _ _ _ _ ?_ ?_)
      | (apply KeepsOpt.get (sidxEffect_keeps _ _ _); on_goal 1 => assumption)
      | apply KeepsOpt.via (sidxEffect_keeps _ _ _)
      | intro _

theorem execSsetb_keeps (r : RunnerRef) (w : BitVec 128) (parity : Option Nat) (s : State) : KeepsOut (Part.regs ||| Part.memory ||| Part.frees ||| Part.log ||| Part.records ||| Part.jobs ||| Part.clusters ||| Part.bases ||| Part.mcores ||| Part.vcores ||| Part.scores ||| Part.towers ||| Part.hub ||| Part.sup) s (execSsetb r w parity s) := by
  unfold execSsetb
  repeat' with_reducible first
      | apply Keeps.refl | assumption | (apply Part.named; decide)
      | apply Keeps.next
      | apply KeepsOut.viaH (issueAs_keeps _ _ _ _ _ _ ?_ ?_)
      | (apply KeepsOpt.get (sEffect_keeps _ _ _ _ _ ?_ ?_); on_goal 1 => assumption)
      | apply KeepsOpt.viaH (sEffect_keeps _ _ _ _ _ ?_ ?_)
      | (apply KeepsOpt.get (ssetbEffect_keeps _ _ _); on_goal 1 => assumption)
      | apply KeepsOpt.via (ssetbEffect_keeps _ _ _)
      | intro _

theorem execSskip_keeps (r : RunnerRef) (w : BitVec 128) (parity : Option Nat) (s : State) : KeepsOut (Part.regs ||| Part.memory ||| Part.frees ||| Part.log ||| Part.records ||| Part.jobs ||| Part.clusters ||| Part.bases ||| Part.mcores ||| Part.vcores ||| Part.scores ||| Part.towers ||| Part.hub ||| Part.sup) s (execSskip r w parity s) := by
  unfold execSskip
  repeat' with_reducible first
      | apply Keeps.refl | assumption | (apply Part.named; decide)
      | apply Keeps.next
      | apply KeepsOut.viaH (issueAs_keeps _ _ _ _ _ _ ?_ ?_)
      | (apply KeepsOpt.get (sEffect_keeps _ _ _ _ _ ?_ ?_); on_goal 1 => assumption)
      | apply KeepsOpt.viaH (sEffect_keeps _ _ _ _ _ ?_ ?_)
      | (apply KeepsOpt.get (sskipEffect_keeps _ _ _); on_goal 1 => assumption)
      | apply KeepsOpt.via (sskipEffect_keeps _ _ _)
      | intro _

theorem execSloop_keeps (r : RunnerRef) (w : BitVec 128) (parity : Option Nat) (s : State) : KeepsOut (Part.regs ||| Part.memory ||| Part.frees ||| Part.log ||| Part.records ||| Part.jobs ||| Part.clusters ||| Part.bases ||| Part.mcores ||| Part.vcores ||| Part.scores ||| Part.towers ||| Part.hub ||| Part.sup) s (execSloop r w parity s) := by
  unfold execSloop
  repeat' with_reducible first
      | apply Keeps.refl | assumption | (apply Part.named; decide)
      | apply Keeps.next
      | apply KeepsOut.viaH (issueAs_keeps _ _ _ _ _ _ ?_ ?_)
      | (apply KeepsOpt.get (sEffect_keeps _ _ _ _ _ ?_ ?_); on_goal 1 => assumption)
      | apply KeepsOpt.viaH (sEffect_keeps _ _ _ _ _ ?_ ?_)
      | (apply KeepsOpt.get (sloopEffect_keeps _ _ _); on_goal 1 => assumption)
      | apply KeepsOpt.via (sloopEffect_keeps _ _ _)
      | intro _

theorem execSarrive_keeps (r : RunnerRef) (w : BitVec 128) (parity : Option Nat) (s : State) : KeepsOut (Part.regs ||| Part.memory ||| Part.frees ||| Part.log ||| Part.records ||| Part.queues ||| Part.jobs ||| Part.clusters ||| Part.bases ||| Part.mcores ||| Part.vcores ||| Part.scores ||| Part.hurdles ||| Part.towers ||| Part.hub ||| Part.links ||| Part.coll ||| Part.sup) s (execSarrive r w parity s) := by
  unfold execSarrive
  repeat' with_reducible first
      | apply Keeps.refl | assumption | (apply Part.named; decide)
      | apply Keeps.next
      | apply KeepsOut.viaH (issueAs_keeps _ _ _ _ _ _ ?_ ?_)
      | (apply KeepsOpt.get (sEffect_keeps _ _ _ _ _ ?_ ?_); on_goal 1 => assumption)
      | apply KeepsOpt.viaH (sEffect_keeps _ _ _ _ _ ?_ ?_)
      | (apply KeepsOpt.get (sarriveEffect_keeps _ _ _); on_goal 1 => assumption)
      | apply KeepsOpt.via (sarriveEffect_keeps _ _ _)
      | intro _

theorem execSwait_keeps (r : RunnerRef) (w : BitVec 128) (parity : Option Nat) (s : State) : KeepsOut (Part.regs ||| Part.memory ||| Part.frees ||| Part.log ||| Part.records ||| Part.jobs ||| Part.clusters ||| Part.bases ||| Part.mcores ||| Part.vcores ||| Part.scores ||| Part.hurdles ||| Part.towers ||| Part.hub ||| Part.sup) s (execSwait r w parity s) := by
  unfold execSwait
  repeat' with_reducible first
      | apply Keeps.refl | assumption | (apply Part.named; decide)
      | apply Keeps.next
      | apply KeepsOut.viaH (issueAs_keeps _ _ _ _ _ _ ?_ ?_)
      | (apply KeepsOpt.get (sEffect_keeps _ _ _ _ _ ?_ ?_); on_goal 1 => assumption)
      | apply KeepsOpt.viaH (sEffect_keeps _ _ _ _ _ ?_ ?_)
      | (apply KeepsOpt.get (swaitEffect_keeps _ _ _); on_goal 1 => assumption)
      | apply KeepsOpt.via (swaitEffect_keeps _ _ _)
      | intro _

theorem execSreset_keeps (r : RunnerRef) (w : BitVec 128) (s : State) :
    KeepsOut (Part.regs ||| Part.frees ||| Part.log ||| Part.records ||| Part.queues ||| Part.jobs ||| Part.clusters ||| Part.scores ||| Part.hurdles ||| Part.towers ||| Part.links ||| Part.coll) s (execSreset r w s) := by
  unfold execSreset
  repeat' with_reducible first
      | apply Keeps.refl | assumption | (apply Part.named; decide)
      | apply Keeps.next
      | apply KeepsOut.viaH (issueAs_keeps _ _ _ _ _ _ ?_ ?_)
      | (apply KeepsOpt.get (sPlain_keeps _ _ _ _ ?_ ?_); on_goal 1 => assumption)
      | apply KeepsOpt.viaH (sPlain_keeps _ _ _ _ ?_ ?_)
      | (apply KeepsOpt.get (sresetEffect_keeps _ _ _); on_goal 1 => assumption)
      | apply KeepsOpt.via (sresetEffect_keeps _ _ _)
      | intro _

theorem execShread_keeps (r : RunnerRef) (w : BitVec 128) (s : State) :
    KeepsOut (Part.regs ||| Part.frees ||| Part.records ||| Part.jobs ||| Part.clusters ||| Part.scores ||| Part.towers) s (execShread r w s) := by
  unfold execShread
  repeat' with_reducible first
      | apply Keeps.refl | assumption | (apply Part.named; decide)
      | apply Keeps.next
      | apply KeepsOut.viaH (issueAs_keeps _ _ _ _ _ _ ?_ ?_)
      | (apply KeepsOpt.get (sPlain_keeps _ _ _ _ ?_ ?_); on_goal 1 => assumption)
      | apply KeepsOpt.viaH (sPlain_keeps _ _ _ _ ?_ ?_)
      | (apply KeepsOpt.get (shreadEffect_keeps _ _ _); on_goal 1 => assumption)
      | apply KeepsOpt.via (shreadEffect_keeps _ _ _)
      | intro _

theorem execShtarget_keeps (r : RunnerRef) (w : BitVec 128) (parity : Option Nat) (s : State) : KeepsOut (Part.regs ||| Part.memory ||| Part.frees ||| Part.log ||| Part.records ||| Part.queues ||| Part.jobs ||| Part.clusters ||| Part.bases ||| Part.mcores ||| Part.vcores ||| Part.scores ||| Part.hurdles ||| Part.towers ||| Part.hub ||| Part.coll ||| Part.sup) s (execShtarget r w parity s) := by
  unfold execShtarget
  repeat' with_reducible first
      | apply Keeps.refl | assumption | (apply Part.named; decide)
      | apply Keeps.next
      | apply KeepsOut.viaH (issueAs_keeps _ _ _ _ _ _ ?_ ?_)
      | (apply KeepsOpt.get (sEffect_keeps _ _ _ _ _ ?_ ?_); on_goal 1 => assumption)
      | apply KeepsOpt.viaH (sEffect_keeps _ _ _ _ _ ?_ ?_)
      | (apply KeepsOpt.get (shtargetEffect_keeps _ _ _); on_goal 1 => assumption)
      | apply KeepsOpt.via (shtargetEffect_keeps _ _ _)
      | intro _

theorem execSxfer_keeps (r : RunnerRef) (w : BitVec 128) (parity : Option Nat) (s : State) : KeepsOut (Part.regs ||| Part.memory ||| Part.frees ||| Part.log ||| Part.records ||| Part.jobs ||| Part.clusters ||| Part.bases ||| Part.mcores ||| Part.vcores ||| Part.scores ||| Part.xfers ||| Part.atts ||| Part.towers ||| Part.stacks ||| Part.hub ||| Part.sup) s (execSxfer r w parity s) := by
  unfold execSxfer
  repeat' with_reducible first
      | apply Keeps.refl | assumption | (apply Part.named; decide)
      | apply Keeps.next
      | apply KeepsOut.viaH (issueAs_keeps _ _ _ _ _ _ ?_ ?_)
      | (apply KeepsOpt.get (sEffect_keeps _ _ _ _ _ ?_ ?_); on_goal 1 => assumption)
      | apply KeepsOpt.viaH (sEffect_keeps _ _ _ _ _ ?_ ?_)
      | (apply KeepsOpt.get (sxferEffect_keeps _ _ _); on_goal 1 => assumption)
      | apply KeepsOpt.via (sxferEffect_keeps _ _ _)
      | intro _

end Sys2Proof.Machine
end

