-- ==== Sys2Proof/Laws/KeepPace.lean ====
section
/-!
SUPPORT. What each operation and meaning of Machine/Pace.lean keeps (Laws/Keep.lean).
-/
namespace Sys2Proof.Machine

theorem advancePace_keeps (s : State) : Keeps (Part.regs ||| Part.pace) s (advancePace s) := by
  unfold advancePace
  repeat' with_reducible first
      | apply Keeps.refl | assumption | (apply Part.named; decide)
      | (extract_lets +onlyGivenNames x; first | (refine keepsLet (x := x) ?_ ?_; (on_goal 2 => (clear_value x; intro _)); (on_goal 1 => (unfold x; clear x))) | skip)
      | apply Keeps.via (setF_keeps _ _ _ _ _)
      | apply Keeps.via (setReg_keeps _ _ _)
      | apply Keeps.via (modPace_keeps _ _)

theorem stallJob_keeps (j : Job) (s : State) :
    Keeps (Part.regs ||| Part.memory ||| Part.log ||| Part.records ||| Part.pace ||| Part.queues ||| Part.jobs ||| Part.clusters ||| Part.bases ||| Part.mcores ||| Part.vcores ||| Part.xfers ||| Part.atts ||| Part.hurdles ||| Part.links ||| Part.coll ||| Part.sup) s (stallJob j s) := by
  unfold stallJob
  repeat' with_reducible first
      | apply Keeps.refl | assumption | (apply Part.named; decide)
      | (extract_lets +onlyGivenNames x; first | (refine keepsLet (x := x) ?_ ?_; (on_goal 2 => (clear_value x; intro _)); (on_goal 1 => (unfold x; clear x))) | skip)
      | apply Keeps.via (report_keeps _ _ _ _ _)
      | apply Keeps.via (endJob_keeps _ _ _ _)
      | apply Keeps.ite

theorem setConsec_keeps (n : Nat) (s : State) : Keeps Part.regs s (setConsec n s) := by
  unfold setConsec
  repeat' with_reducible first
      | apply Keeps.refl | assumption | (apply Part.named; decide)
      | apply Keeps.via (setF_keeps _ _ _ _ _)

theorem raiseHold_keeps (s : State) : Keeps Part.pace s (raiseHold s) := by
  unfold raiseHold
  repeat' with_reducible first
      | apply Keeps.refl | assumption | (apply Part.named; decide)
      | apply Keeps.via (modPace_keeps _ _)

theorem tickSystem_keeps (s : State) :
    Keeps (Part.regs ||| Part.memory ||| Part.log ||| Part.records ||| Part.pace ||| Part.queues ||| Part.jobs ||| Part.clusters ||| Part.bases ||| Part.mcores ||| Part.vcores ||| Part.xfers ||| Part.atts ||| Part.hurdles ||| Part.links ||| Part.coll ||| Part.sup) s (tickSystem s) := by
  unfold tickSystem
  repeat' with_reducible first
      | apply Keeps.refl | assumption | (apply Part.named; decide)
      | (extract_lets +onlyGivenNames x; first | (refine keepsLet (x := x) ?_ ?_; (on_goal 2 => (clear_value x; intro _)); (on_goal 1 => (unfold x; clear x))) | skip)
      | apply Keeps.via (setConsec_keeps _ _)
      | apply Keeps.via (stallJob_keeps _ _)
      | apply Keeps.via (raiseHold_keeps _)
      | apply Keeps.via (addReg_keeps _ _ _)
      | apply Keeps.ite
      | split

theorem tickLocal_keeps (s : State) :
    Keeps (Part.regs ||| Part.memory ||| Part.log ||| Part.records ||| Part.pace ||| Part.queues ||| Part.jobs ||| Part.clusters ||| Part.bases ||| Part.mcores ||| Part.vcores ||| Part.xfers ||| Part.atts ||| Part.hurdles ||| Part.links ||| Part.coll ||| Part.sup) s (tickLocal s) := by
  unfold tickLocal
  repeat' with_reducible first
      | apply Keeps.refl | assumption | (apply Part.named; decide)
      | apply Keeps.via (modJob_keeps _ _ _ _)
      | apply Keeps.via (stallJob_keeps _ _)
      | apply Keeps.ite
      | apply Keeps.foldl_via
      | intro _

theorem tickSwitch_keeps (n : Nat) (s : State) : Keeps (Part.regs ||| Part.pace) s (tickSwitch n s) := by
  unfold tickSwitch
  repeat' with_reducible first
      | apply Keeps.refl | assumption | (apply Part.named; decide)
      | (extract_lets +onlyGivenNames x; first | (refine keepsLet (x := x) ?_ ?_; (on_goal 2 => (clear_value x; intro _)); (on_goal 1 => (unfold x; clear x))) | skip)
      | apply Keeps.via (modPace_keeps _ _)
      | apply Keeps.via (setB_keeps _ _ _ _)
      | apply Keeps.ite

theorem latchConfigs_keeps (n : Nat) (s : State) : Keeps Part.pace s (latchConfigs n s) := by
  unfold latchConfigs
  repeat' with_reducible first
      | apply Keeps.refl | assumption | (apply Part.named; decide)
      | apply Keeps.via (modPace_keeps _ _)
      | apply Keeps.ite

theorem tickSlacks_keeps (s : State) : Keeps (Part.regs ||| Part.pace ||| Part.jobs) s (tickSlacks s) := by
  unfold tickSlacks
  repeat' with_reducible first
      | apply Keeps.refl | assumption | (apply Part.named; decide)
      | (extract_lets +onlyGivenNames x; first | (refine keepsLet (x := x) ?_ ?_; (on_goal 2 => (clear_value x; intro _)); (on_goal 1 => (unfold x; clear x))) | skip)
      | apply Keeps.via (keepSlack_keeps _ _ _ _ _)
      | apply Keeps.via (modPace_keeps _ _)
      | apply Keeps.ite
      | apply Keeps.foldl_via
      | intro _
      | fail_if_no_progress (apply Keeps.via (Keeps.putJobs _ _))

theorem tickLeave_keeps (s : State) : Keeps (Part.records ||| Part.pace ||| Part.hub) s (tickLeave s) := by
  unfold tickLeave
  repeat' with_reducible first
      | apply Keeps.refl | assumption | (apply Part.named; decide)
      | (extract_lets +onlyGivenNames x; first | (refine keepsLet (x := x) ?_ ?_; (on_goal 2 => (clear_value x; intro _)); (on_goal 1 => (unfold x; clear x))) | skip)
      | apply Keeps.via (report_keeps _ _ _ _ _)
      | apply Keeps.via (modHub_keeps _ _)
      | apply Keeps.via (modPace_keeps _ _)
      | apply Keeps.ite
      | split

theorem markTick_keeps (p : Nat) (s : State) : Keeps (Part.regs ||| Part.frees ||| Part.log ||| Part.links) s (markTick p s) := by
  unfold markTick
  repeat' with_reducible first
      | apply Keeps.refl | assumption | (apply Part.named; decide)
      | apply Keeps.via (sendIdle_keeps _ _ _ _)
      | apply Keeps.via (bumpFree_keeps _)

theorem tickBody_keeps (s : State) :
    Keeps (Part.regs ||| Part.memory ||| Part.frees ||| Part.log ||| Part.records ||| Part.pace ||| Part.queues ||| Part.jobs ||| Part.clusters ||| Part.bases ||| Part.mcores ||| Part.vcores ||| Part.xfers ||| Part.atts ||| Part.hurdles ||| Part.hub ||| Part.links ||| Part.coll ||| Part.sup) s (tickBody s) := by
  unfold tickBody
  repeat' with_reducible first
      | apply Keeps.refl | assumption | (apply Part.named; decide)
      | (extract_lets +onlyGivenNames x; first | (refine keepsLet (x := x) ?_ ?_; (on_goal 2 => (clear_value x; intro _)); (on_goal 1 => (unfold x; clear x))) | skip)
      | apply Keeps.via (advancePace_keeps _)
      | apply Keeps.via (tickSwitch_keeps _ _)
      | apply Keeps.via (tickLeave_keeps _)
      | apply Keeps.via (tickLocal_keeps _)
      | apply Keeps.via (tickSystem_keeps _)
      | apply Keeps.via (setReg64_keeps _ _ _)
      | apply Keeps.via (modPace_keeps _ _)
      | apply Keeps.via (setReg_keeps _ _ _)
      | apply Keeps.via (emit_keeps _ _)
      | apply Keeps.via (sendTopo_keeps _)
      | apply Keeps.via (sendAll_keeps _ _ _)
      | apply Keeps.via (tickSlacks_keeps _)
      | apply Keeps.via (latchConfigs_keeps _ _)
      | apply Keeps.via (markTick_keeps _ _)
      | apply Keeps.foldl_via
      | intro _
      | fail_if_no_progress (apply Keeps.via (Keeps.putLinks _ _))
      | fail_if_no_progress (apply Keeps.via (Keeps.putPace _ _))

theorem execTick_keeps (s : State) :
    KeepsOut (Part.regs ||| Part.memory ||| Part.time ||| Part.frees ||| Part.log ||| Part.records ||| Part.pace ||| Part.queues ||| Part.jobs ||| Part.clusters ||| Part.bases ||| Part.mcores ||| Part.vcores ||| Part.xfers ||| Part.atts ||| Part.hurdles ||| Part.hub ||| Part.links ||| Part.coll ||| Part.sup) s (execTick s) := by
  unfold execTick
  repeat' with_reducible first
      | apply Keeps.refl | assumption | (apply Part.named; decide)
      | apply Keeps.next
      | apply Keeps.via (tickBody_keeps _)
      | apply Keeps.ite
      | apply KeepsOut.ite
      | apply Keeps.via (Keeps.later _ _)

theorem execPaceInEdge_keeps (t : Nat) (s : State) :
    KeepsOut (Part.regs ||| Part.memory ||| Part.time ||| Part.frees ||| Part.log ||| Part.records ||| Part.pace ||| Part.queues ||| Part.jobs ||| Part.clusters ||| Part.bases ||| Part.mcores ||| Part.vcores ||| Part.xfers ||| Part.atts ||| Part.hurdles ||| Part.hub ||| Part.links ||| Part.coll ||| Part.sup) s (execPaceInEdge t s) := by
  unfold execPaceInEdge
  repeat' with_reducible first
      | apply Keeps.refl | assumption | (apply Part.named; decide)
      | apply Keeps.next
      | (extract_lets +onlyGivenNames x; first | (refine keepsLet (x := x) ?_ ?_; (on_goal 2 => (clear_value x; intro _)); (on_goal 1 => (unfold x; clear x))) | (refine keepsLetO (x := x) ?_ ?_; (on_goal 2 => (clear_value x; intro _)); (on_goal 1 => (unfold x; clear x))) | skip)
      | apply Keeps.via (addReg_keeps _ _ _)
      | apply Keeps.via (tickBody_keeps _)
      | apply Keeps.via (alignStep_keeps _ _)
      | apply Keeps.ite
      | apply KeepsOut.ite
      | apply Keeps.via (Keeps.later _ _)

theorem execPaceMissing_keeps (s : State) :
    KeepsOut (Part.regs ||| Part.memory ||| Part.time ||| Part.frees ||| Part.log ||| Part.records ||| Part.pace ||| Part.queues ||| Part.jobs ||| Part.clusters ||| Part.bases ||| Part.mcores ||| Part.vcores ||| Part.xfers ||| Part.atts ||| Part.hurdles ||| Part.hub ||| Part.links ||| Part.coll ||| Part.sup) s (execPaceMissing s) := by
  unfold execPaceMissing
  repeat' with_reducible first
      | apply Keeps.refl | assumption | (apply Part.named; decide)
      | apply Keeps.next
      | (extract_lets +onlyGivenNames x; first | (refine keepsLet (x := x) ?_ ?_; (on_goal 2 => (clear_value x; intro _)); (on_goal 1 => (unfold x; clear x))) | (refine keepsLetO (x := x) ?_ ?_; (on_goal 2 => (clear_value x; intro _)); (on_goal 1 => (unfold x; clear x))) | skip)
      | apply Keeps.via (tickBody_keeps _)
      | apply Keeps.via (report_keeps _ _ _ _ _)
      | apply Keeps.via (alignStep_keeps _ _)
      | apply Keeps.ite
      | apply KeepsOut.ite
      | apply Keeps.via (Keeps.later _ _)

theorem lateFlags_keeps (hold dis : Bool) (s : State) : Keeps (Part.regs ||| Part.memory ||| Part.log ||| Part.pace ||| Part.queues ||| Part.jobs ||| Part.clusters ||| Part.bases ||| Part.mcores ||| Part.vcores ||| Part.xfers ||| Part.atts ||| Part.hurdles ||| Part.links ||| Part.coll ||| Part.sup) s (lateFlags hold dis s) := by
  unfold lateFlags
  repeat' with_reducible first
      | apply Keeps.refl | assumption | (apply Part.named; decide)
      | (extract_lets +onlyGivenNames x; first | (refine keepsLet (x := x) ?_ ?_; (on_goal 2 => (clear_value x; intro _)); (on_goal 1 => (unfold x; clear x))) | skip)
      | apply Keeps.via (addReg_keeps _ _ _)
      | apply Keeps.via (modPace_keeps _ _)
      | apply Keeps.via (modJob_keeps _ _ _ _)
      | apply Keeps.via (endJob_keeps _ _ _ _)
      | split

theorem recordDiscord_keeps (s : State) : Keeps (Part.records ||| Part.pace) s (recordDiscord s) := by
  unfold recordDiscord
  repeat' with_reducible first
      | apply Keeps.refl | assumption | (apply Part.named; decide)
      | (extract_lets +onlyGivenNames x; first | (refine keepsLet (x := x) ?_ ?_; (on_goal 2 => (clear_value x; intro _)); (on_goal 1 => (unfold x; clear x))) | skip)
      | apply Keeps.via (report_keeps _ _ _ _ _)
      | apply Keeps.via (modPace_keeps _ _)
      | apply Keeps.ite

theorem takeFlags_keeps (port : Nat) (h : TickHeader) (hold dis found : Bool) (s : State) :
    Keeps (Part.regs ||| Part.log ||| Part.records ||| Part.pace ||| Part.links) s (takeFlags port h hold dis found s) := by
  unfold takeFlags
  repeat' with_reducible first
      | apply Keeps.refl | assumption | (apply Part.named; decide)
      | (extract_lets +onlyGivenNames x; first | (refine keepsLet (x := x) ?_ ?_; (on_goal 2 => (clear_value x; intro _)); (on_goal 1 => (unfold x; clear x))) | skip)
      | apply Keeps.via (modPace_keeps _ _)
      | apply Keeps.via (recordDiscord_keeps _)
      | apply Keeps.via (sendAll_keeps _ _ _)
      | apply Keeps.ite

theorem takeHeader_keeps (port : Nat) (h : TickHeader) (s : State) :
    Keeps (Part.regs ||| Part.memory ||| Part.log ||| Part.records ||| Part.pace ||| Part.queues ||| Part.jobs ||| Part.clusters ||| Part.bases ||| Part.mcores ||| Part.vcores ||| Part.scores ||| Part.xfers ||| Part.atts ||| Part.hurdles ||| Part.stacks ||| Part.links ||| Part.coll ||| Part.sup) s (takeHeader port h s) := by
  unfold takeHeader
  repeat' with_reducible first
      | apply Keeps.refl | assumption | (apply Part.named; decide)
      | (extract_lets +onlyGivenNames x; first | (refine keepsLet (x := x) ?_ ?_; (on_goal 2 => (clear_value x; intro _)); (on_goal 1 => (unfold x; clear x))) | skip)
      | apply Keeps.via (modPort_keeps _ _ _)
      | apply Keeps.via (setF_keeps _ _ _ _ _)
      | apply Keeps.via (setReg_keeps _ _ _)
      | apply Keeps.via (learnDeparture_keeps _ _ _ _)
      | apply Keeps.via (lateFlags_keeps _ _ _)
      | apply Keeps.via (takeFlags_keeps _ _ _ _ _ _)
      | apply Keeps.via (Wrote.start_keeps _)
      | apply Keeps.ite
      | fail_if_no_progress (apply Keeps.via (Keeps.putLinks _ _))

theorem execTickHeaderReceive_keeps (port : Fin 12) (s : State) :
    KeepsOut (Part.regs ||| Part.memory ||| Part.log ||| Part.records ||| Part.pace ||| Part.queues ||| Part.jobs ||| Part.clusters ||| Part.bases ||| Part.mcores ||| Part.vcores ||| Part.scores ||| Part.xfers ||| Part.atts ||| Part.hurdles ||| Part.stacks ||| Part.links ||| Part.coll ||| Part.sup) s (execTickHeaderReceive port s) := by
  unfold execTickHeaderReceive
  repeat' with_reducible first
      | apply Keeps.refl | assumption | (apply Part.named; decide)
      | apply Keeps.next
      | apply Keeps.viaH (takeVc0_keeps _ _ _ _ ?_ ?_)
      | apply Keeps.via (takeHeader_keeps _ _ _)
      | intro _
      | split

theorem takeBoundary_keeps (n : Nat) (s : State) :
    Keeps (Part.regs ||| Part.memory ||| Part.log ||| Part.records ||| Part.queues ||| Part.jobs ||| Part.clusters ||| Part.scores ||| Part.xfers ||| Part.atts ||| Part.hurdles ||| Part.towers ||| Part.stacks ||| Part.hub ||| Part.links ||| Part.coll ||| Part.sup) s (takeBoundary n s) := by
  unfold takeBoundary
  repeat' with_reducible first
      | apply Keeps.refl | assumption | (apply Part.named; decide)
      | (extract_lets +onlyGivenNames x; first | (refine keepsLet (x := x) ?_ ?_; (on_goal 2 => (clear_value x; intro _)); (on_goal 1 => (unfold x; clear x))) | skip)
      | apply Keeps.via (beginSwitch_keeps _ _ _)
      | apply Keeps.via (takeRegs_keeps _ _)
      | apply Keeps.via (takeConfigs_keeps _ _ _)
      | apply Keeps.via (setB_keeps _ _ _ _)
      | apply Keeps.via (takeUnits_keeps _ _)
      | apply Keeps.via (spillCheck_keeps _ _)
      | apply Keeps.ite
      | apply Keeps.foldl_via
      | intro _
      | split

theorem showHeld_keeps (held dis : Bool) (s : State) : Keeps (Part.regs ||| Part.pace) s (showHeld held dis s) := by
  unfold showHeld
  repeat' with_reducible first
      | apply Keeps.refl | assumption | (apply Part.named; decide)
      | (extract_lets +onlyGivenNames x; first | (refine keepsLet (x := x) ?_ ?_; (on_goal 2 => (clear_value x; intro _)); (on_goal 1 => (unfold x; clear x))) | skip)
      | apply Keeps.via (setB_keeps _ _ _ _)
      | apply Keeps.via (addReg_keeps _ _ _)
      | apply Keeps.via (modPace_keeps _ _)
      | apply Keeps.ite

theorem holdJob_keeps (j : Job) (s : State) : Keeps (Part.regs ||| Part.log ||| Part.jobs) s (holdJob j s) := by
  unfold holdJob
  repeat' with_reducible first
      | apply Keeps.refl | assumption | (apply Part.named; decide)
      | (extract_lets +onlyGivenNames x; first | (refine keepsLet (x := x) ?_ ?_; (on_goal 2 => (clear_value x; intro _)); (on_goal 1 => (unfold x; clear x))) | skip)
      | apply Keeps.via (addReg_keeps _ _ _)
      | apply Keeps.via (modJob_keeps _ _ _ _)
      | apply Keeps.via (signal_keeps _ _ _)
      | apply Keeps.ite

theorem haltJob_keeps (j : Job) (s : State) : Keeps (Part.regs ||| Part.queues ||| Part.jobs) s (haltJob j s) := by
  unfold haltJob
  repeat' with_reducible first
      | apply Keeps.refl | assumption | (apply Part.named; decide)
      | (extract_lets +onlyGivenNames x; first | (refine keepsLet (x := x) ?_ ?_; (on_goal 2 => (clear_value x; intro _)); (on_goal 1 => (unfold x; clear x))) | skip)
      | apply Keeps.via (modJob_keeps _ _ _ _)
      | apply Keeps.via (finish_keeps _ _ _ _ _ _ _)
      | split

theorem jobAtLine_keeps (j0 : Job) (s : State) :
    Keeps (Part.regs ||| Part.memory ||| Part.log ||| Part.records ||| Part.pace ||| Part.queues ||| Part.jobs ||| Part.clusters ||| Part.bases ||| Part.mcores ||| Part.vcores ||| Part.scores ||| Part.xfers ||| Part.atts ||| Part.hurdles ||| Part.hub ||| Part.links ||| Part.coll ||| Part.sup) s (jobAtLine j0 s) := by
  unfold jobAtLine
  repeat' with_reducible first
      | apply Keeps.refl | assumption | (apply Part.named; decide)
      | (extract_lets +onlyGivenNames x; first | (refine keepsLet (x := x) ?_ ?_; (on_goal 2 => (clear_value x; intro _)); (on_goal 1 => (unfold x; clear x))) | skip)
      | apply Keeps.via (endJob_keeps _ _ _ _)
      | apply Keeps.via (haltJob_keeps _ _)
      | apply Keeps.via (startLap_keeps _ _)
      | apply Keeps.ite
      | split

theorem execStartLine_keeps (s : State) :
    KeepsOut (Part.regs ||| Part.memory ||| Part.time ||| Part.log ||| Part.records ||| Part.pace ||| Part.queues ||| Part.jobs ||| Part.clusters ||| Part.bases ||| Part.mcores ||| Part.vcores ||| Part.scores ||| Part.xfers ||| Part.atts ||| Part.hurdles ||| Part.towers ||| Part.stacks ||| Part.hub ||| Part.links ||| Part.coll ||| Part.sup) s (execStartLine s) := by
  unfold execStartLine
  repeat' with_reducible first
      | apply Keeps.refl | assumption | (apply Part.named; decide)
      | apply Keeps.next
      | (extract_lets +onlyGivenNames x; first | (refine keepsLet (x := x) ?_ ?_; (on_goal 2 => (clear_value x; intro _)); (on_goal 1 => (unfold x; clear x))) | (refine keepsLetO (x := x) ?_ ?_; (on_goal 2 => (clear_value x; intro _)); (on_goal 1 => (unfold x; clear x))) | skip)
      | apply Keeps.via (modPace_keeps _ _)
      | apply Keeps.via (showHeld_keeps _ _ _)
      | apply Keeps.via (takeBoundary_keeps _ _)
      | apply Keeps.via (holdJob_keeps _ _)
      | apply Keeps.via (jobAtLine_keeps _ _)
      | apply Keeps.via (evalCeil_keeps _ _)
      | apply Keeps.via (Wrote.start_keeps _)
      | apply Keeps.ite
      | apply KeepsOut.ite
      | apply Keeps.foldl_via
      | apply Keeps.via (Keeps.later _ _)
      | intro _

theorem execClusterFirstIssue_keeps (c : Fin 64) (s : State) : KeepsOut (Part.time ||| Part.clusters) s (execClusterFirstIssue c s) := by
  unfold execClusterFirstIssue
  repeat' with_reducible first
      | apply Keeps.refl | assumption | (apply Part.named; decide)
      | apply Keeps.next
      | (extract_lets +onlyGivenNames x; first | (refine keepsLet (x := x) ?_ ?_; (on_goal 2 => (clear_value x; intro _)); (on_goal 1 => (unfold x; clear x))) | (refine keepsLetO (x := x) ?_ ?_; (on_goal 2 => (clear_value x; intro _)); (on_goal 1 => (unfold x; clear x))) | skip)
      | apply Keeps.via (modCluster_keeps _ _ _)
      | apply Keeps.via (Wrote.start_keeps _)
      | apply Keeps.ite
      | apply KeepsOut.ite
      | apply Keeps.via (Keeps.later _ _)

theorem execRampInterval_keeps (c : Fin 64) (s : State) : KeepsOut Part.clusters s (execRampInterval c s) := by
  unfold execRampInterval
  repeat' with_reducible first
      | apply Keeps.refl | assumption | (apply Part.named; decide)
      | apply Keeps.next
      | apply Keeps.via (modCluster_keeps _ _ _)
      | apply Keeps.via (Wrote.start_keeps _)
      | apply Keeps.ite
      | apply KeepsOut.ite

theorem execRampRestart_keeps (c : Fin 64) (s : State) : KeepsOut Part.clusters s (execRampRestart c s) := by
  unfold execRampRestart
  repeat' with_reducible first
      | apply Keeps.refl | assumption | (apply Part.named; decide)
      | apply Keeps.next
      | apply Keeps.via (modCluster_keeps _ _ _)
      | apply Keeps.via (Wrote.start_keeps _)
      | apply Keeps.ite
      | apply KeepsOut.ite

end Sys2Proof.Machine
end

