-- ==== Sys2Proof/Laws/Lanes.lean ====
section
/-!
SUPPORT. Lanes of vector registers: a register made of lanes reads back each of them, and what a lane operation writes (R291, R292, R297).
-/
namespace Sys2Proof.Machine

theorem foldLanes_lt (w : Nat) : ∀ l : List Nat, l.foldr (fun x acc => x % 2 ^ w + acc * 2 ^ w) 0 < 2 ^ (l.length * w)
  | [] => by simp
  | x :: l => by
    have h := foldLanes_lt w l
    have h1 : x % 2 ^ w < 2 ^ w := Nat.mod_lt _ (Nat.two_pow_pos w)
    have h2 : (l.foldr (fun x acc => x % 2 ^ w + acc * 2 ^ w) 0 + 1) * 2 ^ w ≤ 2 ^ (l.length * w) * 2 ^ w :=
      Nat.mul_le_mul_right _ h
    rw [Nat.add_mul] at h2
    rw [List.foldr_cons, List.length_cons, Nat.add_mul, Nat.one_mul, Nat.pow_add]
    omega

theorem foldLanes_bits (w : Nat) : ∀ (l : List Nat) (i : Nat),
    (l.foldr (fun x acc => x % 2 ^ w + acc * 2 ^ w) 0) / 2 ^ (i * w) % 2 ^ w = l[i]?.getD 0 % 2 ^ w
  | [], i => by simp
  | x :: l, 0 => by simp [Nat.add_mul_mod_self_right]
  | x :: l, i + 1 => by
    have h := foldLanes_bits w l i
    have h1 : x % 2 ^ w < 2 ^ w := Nat.mod_lt _ (Nat.two_pow_pos w)
    rw [List.foldr_cons, Nat.add_mul, Nat.one_mul, Nat.add_comm (i * w) w, Nat.pow_add, ← Nat.div_div_eq_div_mul,
      Nat.add_mul_div_right _ _ (Nat.two_pow_pos w), Nat.div_eq_of_lt h1, Nat.zero_add, h]
    rfl

/-- Lane i of a register made of lanes. -/
theorem lane_fromLanes (w : Nat) (l : List Nat) (h : l.length * w ≤ 2048) (i : Nat) : lane (fromLanes w l) w i = l[i]?.getD 0 % 2 ^ w := by
  unfold lane fromLanes bits
  rw [BitVec.toNat_ofNat, Nat.mod_eq_of_lt (Nat.lt_of_lt_of_le (foldLanes_lt w l) (Nat.pow_le_pow_right (by decide) h)),
    Nat.shiftRight_eq_div_pow]
  exact foldLanes_bits w l i

theorem getV_modV (k : Nat) (g : VRun → VRun) (s : State) : getV (modV k g s) k = g (getV s k) := by
  simp [getV, modV, kvGet_kvMod]

theorem vx_setVx (k i j : Nat) (v : VWord) (t : List Bool) (s : State) : vx (setVx k i v t s) k j = if j = i then v else vx s k j := by
  unfold vx setVx
  rw [getV_modV]
  simp only [kvGet_kvPut]

theorem vx_healVx (k i j : Nat) (g : Nat → Bool) (s : State) : vx (healVx k i g s) k j = vx s k j := by
  unfold vx healVx
  rw [getV_modV]

/-- What a write of lanes leaves in a register. -/
theorem vx_vWrite (k d w : Nat) (f : Nat → Option Nat) (t : List Bool) (s : State) (j : Nat) :
    vx (vWrite k d w f t s) k j =
      if j = d then fromLanes w ((List.range (2048 / w)).map (fun i => (f i).getD (lane (vx s k d) w i))) else vx s k j := by
  unfold vWrite
  rw [vx_healVx]
  exact vx_setVx _ _ _ _ _ _

/-- Lane i of the register that a write of lanes names. -/
theorem lane_vWrite (k d w : Nat) (f : Nat → Option Nat) (t : List Bool) (s : State) (i : Nat) (h : i < 2048 / w) :
    lane (vx (vWrite k d w f t s) k d) w i = ((f i).getD (lane (vx s k d) w i)) % 2 ^ w := by
  rw [vx_vWrite, if_pos rfl, lane_fromLanes]
  · rw [List.getElem?_map, List.getElem?_range h]
    rfl
  · rw [List.length_map, List.length_range]
    exact Nat.div_mul_le_self 2048 w

theorem lane_lt (v : VWord) (w i : Nat) : lane v w i < 2 ^ w := Nat.mod_lt _ (Nat.two_pow_pos w)

end Sys2Proof.Machine
end

