-- ==== Sys2Proof/Laws/Regs.lean ====
section
/-!
SUPPORT. Reading registers after the operations that set them, and the fields of a register after one of them is set.
-/
namespace Sys2Proof.Machine

/-! ### Fields -/

theorem setBits_eq (x lo w v : Nat) : setBits x lo w v = x % 2 ^ lo + 2 ^ lo * (v % 2 ^ w) + 2 ^ (lo + w) * (x / 2 ^ (lo + w)) := by
  unfold setBits bits
  rw [Nat.shiftRight_eq_div_pow]
  have h1 := Nat.div_add_mod x (2 ^ lo)
  have h2 := Nat.div_add_mod (x / 2 ^ lo) (2 ^ w)
  rw [Nat.div_div_eq_div_mul, ← Nat.pow_add] at h2
  have h3 : 2 ^ lo * (x / 2 ^ lo) = 2 ^ lo * (2 ^ w * (x / 2 ^ (lo + w))) + 2 ^ lo * (x / 2 ^ lo % 2 ^ w) := by
    rw [← Nat.mul_add, h2]
  have h4 : 2 ^ lo * (2 ^ w * (x / 2 ^ (lo + w))) = 2 ^ (lo + w) * (x / 2 ^ (lo + w)) := by rw [Nat.pow_add, Nat.mul_assoc]
  rw [Nat.mul_comm (x / 2 ^ lo % 2 ^ w), Nat.mul_comm (v % 2 ^ w)]
  omega

theorem setBits_lt {x lo w : Nat} (v : Nat) {n : Nat} (hx : x < 2 ^ n) (h : lo + w ≤ n) : setBits x lo w v < 2 ^ n := by
  rw [setBits_eq]
  have h1 : x % 2 ^ lo < 2 ^ lo := Nat.mod_lt _ (Nat.two_pow_pos _)
  have h2 : v % 2 ^ w + 1 ≤ 2 ^ w := Nat.mod_lt _ (Nat.two_pow_pos _)
  have h3 : 2 ^ lo * (v % 2 ^ w + 1) ≤ 2 ^ lo * 2 ^ w := Nat.mul_le_mul_left _ h2
  have h4 : x / 2 ^ (lo + w) < 2 ^ (n - (lo + w)) := by
    rw [Nat.div_lt_iff_lt_mul (Nat.two_pow_pos _), ← Nat.pow_add, Nat.sub_add_cancel h]
    exact hx
  have h5 : 2 ^ (lo + w) * (x / 2 ^ (lo + w) + 1) ≤ 2 ^ (lo + w) * 2 ^ (n - (lo + w)) := Nat.mul_le_mul_left _ h4
  rw [← Nat.pow_add, Nat.add_sub_cancel' h] at h5
  rw [Nat.mul_add, Nat.mul_one] at h3 h5
  rw [← Nat.pow_add] at h3
  omega

theorem bits_setBits_same (x lo w v : Nat) : bits (setBits x lo w v) lo w = v % 2 ^ w := by
  have h1 : x % 2 ^ lo < 2 ^ lo := Nat.mod_lt _ (Nat.two_pow_pos _)
  rw [setBits_eq, bits, Nat.shiftRight_eq_div_pow, Nat.pow_add, Nat.mul_assoc, Nat.add_assoc, ← Nat.mul_add,
    Nat.add_mul_div_left _ _ (Nat.two_pow_pos _), Nat.div_eq_of_lt h1, Nat.zero_add, Nat.add_mul_mod_self_left, Nat.mod_mod]

theorem bits_setBits_above (x : Nat) {lo w : Nat} (v : Nat) {a b : Nat} (h : lo + w ≤ a) : bits (setBits x lo w v) a b = bits x a b := by
  obtain ⟨d, rfl⟩ := Nat.exists_eq_add_of_le h
  have h1 : x % 2 ^ lo < 2 ^ lo := Nat.mod_lt _ (Nat.two_pow_pos _)
  have h2 : v % 2 ^ w + 1 ≤ 2 ^ w := Nat.mod_lt _ (Nat.two_pow_pos _)
  have h3 : 2 ^ lo * (v % 2 ^ w + 1) ≤ 2 ^ lo * 2 ^ w := Nat.mul_le_mul_left _ h2
  have h4 : x % 2 ^ lo + 2 ^ lo * (v % 2 ^ w) < 2 ^ (lo + w) := by
    rw [Nat.mul_add, Nat.mul_one, ← Nat.pow_add] at h3
    omega
  have h5 : setBits x lo w v / 2 ^ (lo + w) = x / 2 ^ (lo + w) := by
    rw [setBits_eq, Nat.add_mul_div_left _ _ (Nat.two_pow_pos _), Nat.div_eq_of_lt h4, Nat.zero_add]
  unfold bits
  rw [Nat.shiftRight_eq_div_pow, Nat.shiftRight_eq_div_pow, Nat.pow_add 2 (lo + w), ← Nat.div_div_eq_div_mul, h5, ← Nat.div_div_eq_div_mul]

theorem bits_setBits_below (x : Nat) {lo : Nat} (w v : Nat) {a b : Nat} (h : a + b ≤ lo) : bits (setBits x lo w v) a b = bits x a b := by
  obtain ⟨d, rfl⟩ := Nat.exists_eq_add_of_le h
  have key : setBits x (a + b + d) w v % 2 ^ (a + b) = x % 2 ^ (a + b) := by
    rw [setBits_eq]
    have e : x % 2 ^ (a + b + d) % 2 ^ (a + b) = x % 2 ^ (a + b) :=
      Nat.mod_mod_of_dvd _ (Nat.pow_dvd_pow 2 (Nat.le_add_right _ _))
    have e2 : 2 ^ (a + b + d + w) = 2 ^ (a + b) * 2 ^ (d + w) := by rw [← Nat.pow_add]; congr 1; omega
    rw [e2, Nat.pow_add 2 (a + b) d, Nat.mul_assoc, Nat.mul_assoc, Nat.add_assoc, ← Nat.mul_add, Nat.add_mul_mod_self_left, ← Nat.pow_add, e]
  have s (y : Nat) : bits y a b = y % 2 ^ (a + b) / 2 ^ a := by
    unfold bits
    rw [Nat.shiftRight_eq_div_pow, Nat.pow_add, Nat.mod_mul_right_div_self]
  rw [s, s, key]

theorem fld_setFld_same (r : Word) {lo w : Nat} (v : Nat) (h : lo + w ≤ 32) : fld (setFld r lo w v) lo w = v % 2 ^ w := by
  unfold fld setFld
  rw [BitVec.toNat_ofNat, Nat.mod_eq_of_lt (setBits_lt v r.isLt h), bits_setBits_same]

/-- A field beside the one that is set keeps its value. -/
theorem fld_setFld_other (r : Word) {lo w : Nat} (v : Nat) {a b : Nat} (h : lo + w ≤ 32) (g : lo + w ≤ a ∨ a + b ≤ lo) :
    fld (setFld r lo w v) a b = fld r a b := by
  unfold fld setFld
  rw [BitVec.toNat_ofNat, Nat.mod_eq_of_lt (setBits_lt v r.isLt h)]
  exact g.elim (fun g => bits_setBits_above _ _ g) (fun g => bits_setBits_below _ _ _ g)

/-! ### Registers -/

theorem rawReg_setReg (o : Nat) (v : Word) (s : State) (j : Nat) : rawReg (setReg o v s) j = if j = o then v else rawReg s j :=
  kvGet_kvPut _ _ _ _ _
@[simp] theorem rawReg_setReg_same (o : Nat) (v : Word) (s : State) : rawReg (setReg o v s) o = v := by simp [rawReg_setReg]
theorem rawReg_setReg_other {o j : Nat} (v : Word) (s : State) (h : j ≠ o) : rawReg (setReg o v s) j = rawReg s j := by simp [rawReg_setReg, h]
theorem rawReg_setF (o lo w v : Nat) (s : State) (j : Nat) :
    rawReg (setF o lo w v s) j = if j = o then setFld (rawReg s o) lo w v else rawReg s j := rawReg_setReg _ _ _ _
theorem rawReg_setB (o lo : Nat) (b : Bool) (s : State) (j : Nat) :
    rawReg (setB o lo b s) j = if j = o then setFld (rawReg s o) lo 1 (b2n b) else rawReg s j := rawReg_setReg _ _ _ _
theorem rawReg_addReg (o n : Nat) (s : State) (j : Nat) :
    rawReg (addReg o n s) j = if j = o then BitVec.ofNat 32 (sat32 (rawReg s o).toNat n) else rawReg s j := rawReg_setReg _ _ _ _

theorem getF_setF_same (o : Nat) {lo w : Nat} (v : Nat) (s : State) (h : lo + w ≤ 32) : getF (setF o lo w v s) o lo w = v % 2 ^ w := by
  unfold getF
  rw [rawReg_setF, if_pos rfl, fld_setFld_same _ _ h]
theorem getF_setF_other (o : Nat) {lo w : Nat} (v : Nat) (s : State) (j : Nat) {a b : Nat} (h : lo + w ≤ 32)
    (g : j ≠ o ∨ lo + w ≤ a ∨ a + b ≤ lo) : getF (setF o lo w v s) j a b = getF s j a b := by
  unfold getF
  rw [rawReg_setF]
  by_cases e : j = o
  · subst e
    rw [if_pos rfl, fld_setFld_other _ _ h (by omega)]
  · rw [if_neg e]
@[simp] theorem getB_setB_same (o : Nat) {lo : Nat} (b : Bool) (s : State) (h : lo + 1 ≤ 32 := by decide) : getB (setB o lo b s) o lo = b := by
  unfold getB setB
  rw [getF_setF_same _ _ _ h]
  cases b <;> decide
theorem getB_setB_other (o : Nat) {lo : Nat} (b : Bool) (s : State) (j : Nat) {a : Nat} (h : lo + 1 ≤ 32) (g : j ≠ o ∨ a ≠ lo) :
    getB (setB o lo b s) j a = getB s j a := by
  unfold getB setB
  rw [getF_setF_other _ _ _ _ h (by omega)]

/-- The words from `lo` to `hi` are cleared; no other register changes. -/
theorem rawReg_clearWords (lo hi : Nat) (s : State) (o : Nat) :
    rawReg (clearWords lo hi s) o = if lo ≤ o ∧ o ≤ lo + 4 * ((hi - lo) / 4) ∧ (o - lo) % 4 = 0 then 0#32 else rawReg s o := by
  unfold clearWords
  generalize (hi - lo) / 4 = n
  induction n with
  | zero =>
    simp only [Nat.zero_add, List.range_one, List.foldl_cons, List.foldl_nil, rawReg_setReg]
    congr 1
    apply propext
    omega
  | succ n ih =>
    rw [List.range_succ, List.foldl_append, List.foldl_cons, List.foldl_nil, rawReg_setReg, ih]
    by_cases h : o = lo + 4 * (n + 1)
    · subst h
      rw [if_pos rfl, if_pos (by omega)]
    · rw [if_neg h]
      congr 1
      apply propext
      omega

end Sys2Proof.Machine
end

