-- ==== Sys2Proof/Laws/State.lean ====
section
/-!
SUPPORT. Every field of the state after every plain update: one lemma each, true by definition, so that no proof unfolds a record update.
-/
namespace Sys2Proof.Machine

/-! ### setReg -/

@[simp] theorem setReg_pending (o : Nat) (v : Word) (s : State) : (setReg o v s).pending = s.pending := rfl
@[simp] theorem setReg_now (o : Nat) (v : Word) (s : State) : (setReg o v s).now = s.now := rfl
@[simp] theorem setReg_regs (o : Nat) (v : Word) (s : State) : (setReg o v s).regs = kvPut regReset s.regs o v := rfl
@[simp] theorem setReg_latches (o : Nat) (v : Word) (s : State) : (setReg o v s).latches = s.latches := rfl
@[simp] theorem setReg_mem (o : Nat) (v : Word) (s : State) : (setReg o v s).mem = s.mem := rfl
@[simp] theorem setReg_blots (o : Nat) (v : Word) (s : State) : (setReg o v s).blots = s.blots := rfl
@[simp] theorem setReg_uncorr (o : Nat) (v : Word) (s : State) : (setReg o v s).uncorr = s.uncorr := rfl
@[simp] theorem setReg_host (o : Nat) (v : Word) (s : State) : (setReg o v s).host = s.host := rfl
@[simp] theorem setReg_pace (o : Nat) (v : Word) (s : State) : (setReg o v s).pace = s.pace := rfl
@[simp] theorem setReg_scribe (o : Nat) (v : Word) (s : State) : (setReg o v s).scribe = s.scribe := rfl
@[simp] theorem setReg_fns (o : Nat) (v : Word) (s : State) : (setReg o v s).fns = s.fns := rfl
@[simp] theorem setReg_scheds (o : Nat) (v : Word) (s : State) : (setReg o v s).scheds = s.scheds := rfl
@[simp] theorem setReg_jobs (o : Nat) (v : Word) (s : State) : (setReg o v s).jobs = s.jobs := rfl
@[simp] theorem setReg_clusters (o : Nat) (v : Word) (s : State) : (setReg o v s).clusters = s.clusters := rfl
@[simp] theorem setReg_runners (o : Nat) (v : Word) (s : State) : (setReg o v s).runners = s.runners := rfl
@[simp] theorem setReg_abase (o : Nat) (v : Word) (s : State) : (setReg o v s).abase = s.abase := rfl
@[simp] theorem setReg_abtag (o : Nat) (v : Word) (s : State) : (setReg o v s).abtag = s.abtag := rfl
@[simp] theorem setReg_mcores (o : Nat) (v : Word) (s : State) : (setReg o v s).mcores = s.mcores := rfl
@[simp] theorem setReg_vruns (o : Nat) (v : Word) (s : State) : (setReg o v s).vruns = s.vruns := rfl
@[simp] theorem setReg_sruns (o : Nat) (v : Word) (s : State) : (setReg o v s).sruns = s.sruns := rfl
@[simp] theorem setReg_xfers (o : Nat) (v : Word) (s : State) : (setReg o v s).xfers = s.xfers := rfl
@[simp] theorem setReg_written (o : Nat) (v : Word) (s : State) : (setReg o v s).written = s.written := rfl
@[simp] theorem setReg_nmus (o : Nat) (v : Word) (s : State) : (setReg o v s).nmus = s.nmus := rfl
@[simp] theorem setReg_atts (o : Nat) (v : Word) (s : State) : (setReg o v s).atts = s.atts := rfl
@[simp] theorem setReg_hurdles (o : Nat) (v : Word) (s : State) : (setReg o v s).hurdles = s.hurdles := rfl
@[simp] theorem setReg_hwaits (o : Nat) (v : Word) (s : State) : (setReg o v s).hwaits = s.hwaits := rfl
@[simp] theorem setReg_towers (o : Nat) (v : Word) (s : State) : (setReg o v s).towers = s.towers := rfl
@[simp] theorem setReg_stk (o : Nat) (v : Word) (s : State) : (setReg o v s).stk = s.stk := rfl
@[simp] theorem setReg_regions (o : Nat) (v : Word) (s : State) : (setReg o v s).regions = s.regions := rfl
@[simp] theorem setReg_farReady (o : Nat) (v : Word) (s : State) : (setReg o v s).farReady = s.farReady := rfl
@[simp] theorem setReg_reports (o : Nat) (v : Word) (s : State) : (setReg o v s).reports = s.reports := rfl
@[simp] theorem setReg_recs (o : Nat) (v : Word) (s : State) : (setReg o v s).recs = s.recs := rfl
@[simp] theorem setReg_hub (o : Nat) (v : Word) (s : State) : (setReg o v s).hub = s.hub := rfl
@[simp] theorem setReg_ports (o : Nat) (v : Word) (s : State) : (setReg o v s).ports = s.ports := rfl
@[simp] theorem setReg_links (o : Nat) (v : Word) (s : State) : (setReg o v s).links = s.links := rfl
@[simp] theorem setReg_coll (o : Nat) (v : Word) (s : State) : (setReg o v s).coll = s.coll := rfl
@[simp] theorem setReg_sup (o : Nat) (v : Word) (s : State) : (setReg o v s).sup = s.sup := rfl
@[simp] theorem setReg_pins (o : Nat) (v : Word) (s : State) : (setReg o v s).pins = s.pins := rfl
@[simp] theorem setReg_sec (o : Nat) (v : Word) (s : State) : (setReg o v s).sec = s.sec := rfl
@[simp] theorem setReg_dbg (o : Nat) (v : Word) (s : State) : (setReg o v s).dbg = s.dbg := rfl
@[simp] theorem setReg_out (o : Nat) (v : Word) (s : State) : (setReg o v s).out = s.out := rfl
@[simp] theorem setReg_frees (o : Nat) (v : Word) (s : State) : (setReg o v s).frees = s.frees := rfl

/-! ### setF -/

@[simp] theorem setF_pending (o lo w v : Nat) (s : State) : (setF o lo w v s).pending = s.pending := rfl
@[simp] theorem setF_now (o lo w v : Nat) (s : State) : (setF o lo w v s).now = s.now := rfl
@[simp] theorem setF_regs (o lo w v : Nat) (s : State) : (setF o lo w v s).regs = kvPut regReset s.regs o (setFld (rawReg s o) lo w v) := rfl
@[simp] theorem setF_latches (o lo w v : Nat) (s : State) : (setF o lo w v s).latches = s.latches := rfl
@[simp] theorem setF_mem (o lo w v : Nat) (s : State) : (setF o lo w v s).mem = s.mem := rfl
@[simp] theorem setF_blots (o lo w v : Nat) (s : State) : (setF o lo w v s).blots = s.blots := rfl
@[simp] theorem setF_uncorr (o lo w v : Nat) (s : State) : (setF o lo w v s).uncorr = s.uncorr := rfl
@[simp] theorem setF_host (o lo w v : Nat) (s : State) : (setF o lo w v s).host = s.host := rfl
@[simp] theorem setF_pace (o lo w v : Nat) (s : State) : (setF o lo w v s).pace = s.pace := rfl
@[simp] theorem setF_scribe (o lo w v : Nat) (s : State) : (setF o lo w v s).scribe = s.scribe := rfl
@[simp] theorem setF_fns (o lo w v : Nat) (s : State) : (setF o lo w v s).fns = s.fns := rfl
@[simp] theorem setF_scheds (o lo w v : Nat) (s : State) : (setF o lo w v s).scheds = s.scheds := rfl
@[simp] theorem setF_jobs (o lo w v : Nat) (s : State) : (setF o lo w v s).jobs = s.jobs := rfl
@[simp] theorem setF_clusters (o lo w v : Nat) (s : State) : (setF o lo w v s).clusters = s.clusters := rfl
@[simp] theorem setF_runners (o lo w v : Nat) (s : State) : (setF o lo w v s).runners = s.runners := rfl
@[simp] theorem setF_abase (o lo w v : Nat) (s : State) : (setF o lo w v s).abase = s.abase := rfl
@[simp] theorem setF_abtag (o lo w v : Nat) (s : State) : (setF o lo w v s).abtag = s.abtag := rfl
@[simp] theorem setF_mcores (o lo w v : Nat) (s : State) : (setF o lo w v s).mcores = s.mcores := rfl
@[simp] theorem setF_vruns (o lo w v : Nat) (s : State) : (setF o lo w v s).vruns = s.vruns := rfl
@[simp] theorem setF_sruns (o lo w v : Nat) (s : State) : (setF o lo w v s).sruns = s.sruns := rfl
@[simp] theorem setF_xfers (o lo w v : Nat) (s : State) : (setF o lo w v s).xfers = s.xfers := rfl
@[simp] theorem setF_written (o lo w v : Nat) (s : State) : (setF o lo w v s).written = s.written := rfl
@[simp] theorem setF_nmus (o lo w v : Nat) (s : State) : (setF o lo w v s).nmus = s.nmus := rfl
@[simp] theorem setF_atts (o lo w v : Nat) (s : State) : (setF o lo w v s).atts = s.atts := rfl
@[simp] theorem setF_hurdles (o lo w v : Nat) (s : State) : (setF o lo w v s).hurdles = s.hurdles := rfl
@[simp] theorem setF_hwaits (o lo w v : Nat) (s : State) : (setF o lo w v s).hwaits = s.hwaits := rfl
@[simp] theorem setF_towers (o lo w v : Nat) (s : State) : (setF o lo w v s).towers = s.towers := rfl
@[simp] theorem setF_stk (o lo w v : Nat) (s : State) : (setF o lo w v s).stk = s.stk := rfl
@[simp] theorem setF_regions (o lo w v : Nat) (s : State) : (setF o lo w v s).regions = s.regions := rfl
@[simp] theorem setF_farReady (o lo w v : Nat) (s : State) : (setF o lo w v s).farReady = s.farReady := rfl
@[simp] theorem setF_reports (o lo w v : Nat) (s : State) : (setF o lo w v s).reports = s.reports := rfl
@[simp] theorem setF_recs (o lo w v : Nat) (s : State) : (setF o lo w v s).recs = s.recs := rfl
@[simp] theorem setF_hub (o lo w v : Nat) (s : State) : (setF o lo w v s).hub = s.hub := rfl
@[simp] theorem setF_ports (o lo w v : Nat) (s : State) : (setF o lo w v s).ports = s.ports := rfl
@[simp] theorem setF_links (o lo w v : Nat) (s : State) : (setF o lo w v s).links = s.links := rfl
@[simp] theorem setF_coll (o lo w v : Nat) (s : State) : (setF o lo w v s).coll = s.coll := rfl
@[simp] theorem setF_sup (o lo w v : Nat) (s : State) : (setF o lo w v s).sup = s.sup := rfl
@[simp] theorem setF_pins (o lo w v : Nat) (s : State) : (setF o lo w v s).pins = s.pins := rfl
@[simp] theorem setF_sec (o lo w v : Nat) (s : State) : (setF o lo w v s).sec = s.sec := rfl
@[simp] theorem setF_dbg (o lo w v : Nat) (s : State) : (setF o lo w v s).dbg = s.dbg := rfl
@[simp] theorem setF_out (o lo w v : Nat) (s : State) : (setF o lo w v s).out = s.out := rfl
@[simp] theorem setF_frees (o lo w v : Nat) (s : State) : (setF o lo w v s).frees = s.frees := rfl

/-! ### setB -/

@[simp] theorem setB_pending (o lo : Nat) (b : Bool) (s : State) : (setB o lo b s).pending = s.pending := rfl
@[simp] theorem setB_now (o lo : Nat) (b : Bool) (s : State) : (setB o lo b s).now = s.now := rfl
@[simp] theorem setB_regs (o lo : Nat) (b : Bool) (s : State) : (setB o lo b s).regs = kvPut regReset s.regs o (setFld (rawReg s o) lo 1 (b2n b)) := rfl
@[simp] theorem setB_latches (o lo : Nat) (b : Bool) (s : State) : (setB o lo b s).latches = s.latches := rfl
@[simp] theorem setB_mem (o lo : Nat) (b : Bool) (s : State) : (setB o lo b s).mem = s.mem := rfl
@[simp] theorem setB_blots (o lo : Nat) (b : Bool) (s : State) : (setB o lo b s).blots = s.blots := rfl
@[simp] theorem setB_uncorr (o lo : Nat) (b : Bool) (s : State) : (setB o lo b s).uncorr = s.uncorr := rfl
@[simp] theorem setB_host (o lo : Nat) (b : Bool) (s : State) : (setB o lo b s).host = s.host := rfl
@[simp] theorem setB_pace (o lo : Nat) (b : Bool) (s : State) : (setB o lo b s).pace = s.pace := rfl
@[simp] theorem setB_scribe (o lo : Nat) (b : Bool) (s : State) : (setB o lo b s).scribe = s.scribe := rfl
@[simp] theorem setB_fns (o lo : Nat) (b : Bool) (s : State) : (setB o lo b s).fns = s.fns := rfl
@[simp] theorem setB_scheds (o lo : Nat) (b : Bool) (s : State) : (setB o lo b s).scheds = s.scheds := rfl
@[simp] theorem setB_jobs (o lo : Nat) (b : Bool) (s : State) : (setB o lo b s).jobs = s.jobs := rfl
@[simp] theorem setB_clusters (o lo : Nat) (b : Bool) (s : State) : (setB o lo b s).clusters = s.clusters := rfl
@[simp] theorem setB_runners (o lo : Nat) (b : Bool) (s : State) : (setB o lo b s).runners = s.runners := rfl
@[simp] theorem setB_abase (o lo : Nat) (b : Bool) (s : State) : (setB o lo b s).abase = s.abase := rfl
@[simp] theorem setB_abtag (o lo : Nat) (b : Bool) (s : State) : (setB o lo b s).abtag = s.abtag := rfl
@[simp] theorem setB_mcores (o lo : Nat) (b : Bool) (s : State) : (setB o lo b s).mcores = s.mcores := rfl
@[simp] theorem setB_vruns (o lo : Nat) (b : Bool) (s : State) : (setB o lo b s).vruns = s.vruns := rfl
@[simp] theorem setB_sruns (o lo : Nat) (b : Bool) (s : State) : (setB o lo b s).sruns = s.sruns := rfl
@[simp] theorem setB_xfers (o lo : Nat) (b : Bool) (s : State) : (setB o lo b s).xfers = s.xfers := rfl
@[simp] theorem setB_written (o lo : Nat) (b : Bool) (s : State) : (setB o lo b s).written = s.written := rfl
@[simp] theorem setB_nmus (o lo : Nat) (b : Bool) (s : State) : (setB o lo b s).nmus = s.nmus := rfl
@[simp] theorem setB_atts (o lo : Nat) (b : Bool) (s : State) : (setB o lo b s).atts = s.atts := rfl
@[simp] theorem setB_hurdles (o lo : Nat) (b : Bool) (s : State) : (setB o lo b s).hurdles = s.hurdles := rfl
@[simp] theorem setB_hwaits (o lo : Nat) (b : Bool) (s : State) : (setB o lo b s).hwaits = s.hwaits := rfl
@[simp] theorem setB_towers (o lo : Nat) (b : Bool) (s : State) : (setB o lo b s).towers = s.towers := rfl
@[simp] theorem setB_stk (o lo : Nat) (b : Bool) (s : State) : (setB o lo b s).stk = s.stk := rfl
@[simp] theorem setB_regions (o lo : Nat) (b : Bool) (s : State) : (setB o lo b s).regions = s.regions := rfl
@[simp] theorem setB_farReady (o lo : Nat) (b : Bool) (s : State) : (setB o lo b s).farReady = s.farReady := rfl
@[simp] theorem setB_reports (o lo : Nat) (b : Bool) (s : State) : (setB o lo b s).reports = s.reports := rfl
@[simp] theorem setB_recs (o lo : Nat) (b : Bool) (s : State) : (setB o lo b s).recs = s.recs := rfl
@[simp] theorem setB_hub (o lo : Nat) (b : Bool) (s : State) : (setB o lo b s).hub = s.hub := rfl
@[simp] theorem setB_ports (o lo : Nat) (b : Bool) (s : State) : (setB o lo b s).ports = s.ports := rfl
@[simp] theorem setB_links (o lo : Nat) (b : Bool) (s : State) : (setB o lo b s).links = s.links := rfl
@[simp] theorem setB_coll (o lo : Nat) (b : Bool) (s : State) : (setB o lo b s).coll = s.coll := rfl
@[simp] theorem setB_sup (o lo : Nat) (b : Bool) (s : State) : (setB o lo b s).sup = s.sup := rfl
@[simp] theorem setB_pins (o lo : Nat) (b : Bool) (s : State) : (setB o lo b s).pins = s.pins := rfl
@[simp] theorem setB_sec (o lo : Nat) (b : Bool) (s : State) : (setB o lo b s).sec = s.sec := rfl
@[simp] theorem setB_dbg (o lo : Nat) (b : Bool) (s : State) : (setB o lo b s).dbg = s.dbg := rfl
@[simp] theorem setB_out (o lo : Nat) (b : Bool) (s : State) : (setB o lo b s).out = s.out := rfl
@[simp] theorem setB_frees (o lo : Nat) (b : Bool) (s : State) : (setB o lo b s).frees = s.frees := rfl

/-! ### addReg -/

@[simp] theorem addReg_pending (o n : Nat) (s : State) : (addReg o n s).pending = s.pending := rfl
@[simp] theorem addReg_now (o n : Nat) (s : State) : (addReg o n s).now = s.now := rfl
@[simp] theorem addReg_regs (o n : Nat) (s : State) : (addReg o n s).regs = kvPut regReset s.regs o (BitVec.ofNat 32 (sat32 (rawReg s o).toNat n)) := rfl
@[simp] theorem addReg_latches (o n : Nat) (s : State) : (addReg o n s).latches = s.latches := rfl
@[simp] theorem addReg_mem (o n : Nat) (s : State) : (addReg o n s).mem = s.mem := rfl
@[simp] theorem addReg_blots (o n : Nat) (s : State) : (addReg o n s).blots = s.blots := rfl
@[simp] theorem addReg_uncorr (o n : Nat) (s : State) : (addReg o n s).uncorr = s.uncorr := rfl
@[simp] theorem addReg_host (o n : Nat) (s : State) : (addReg o n s).host = s.host := rfl
@[simp] theorem addReg_pace (o n : Nat) (s : State) : (addReg o n s).pace = s.pace := rfl
@[simp] theorem addReg_scribe (o n : Nat) (s : State) : (addReg o n s).scribe = s.scribe := rfl
@[simp] theorem addReg_fns (o n : Nat) (s : State) : (addReg o n s).fns = s.fns := rfl
@[simp] theorem addReg_scheds (o n : Nat) (s : State) : (addReg o n s).scheds = s.scheds := rfl
@[simp] theorem addReg_jobs (o n : Nat) (s : State) : (addReg o n s).jobs = s.jobs := rfl
@[simp] theorem addReg_clusters (o n : Nat) (s : State) : (addReg o n s).clusters = s.clusters := rfl
@[simp] theorem addReg_runners (o n : Nat) (s : State) : (addReg o n s).runners = s.runners := rfl
@[simp] theorem addReg_abase (o n : Nat) (s : State) : (addReg o n s).abase = s.abase := rfl
@[simp] theorem addReg_abtag (o n : Nat) (s : State) : (addReg o n s).abtag = s.abtag := rfl
@[simp] theorem addReg_mcores (o n : Nat) (s : State) : (addReg o n s).mcores = s.mcores := rfl
@[simp] theorem addReg_vruns (o n : Nat) (s : State) : (addReg o n s).vruns = s.vruns := rfl
@[simp] theorem addReg_sruns (o n : Nat) (s : State) : (addReg o n s).sruns = s.sruns := rfl
@[simp] theorem addReg_xfers (o n : Nat) (s : State) : (addReg o n s).xfers = s.xfers := rfl
@[simp] theorem addReg_written (o n : Nat) (s : State) : (addReg o n s).written = s.written := rfl
@[simp] theorem addReg_nmus (o n : Nat) (s : State) : (addReg o n s).nmus = s.nmus := rfl
@[simp] theorem addReg_atts (o n : Nat) (s : State) : (addReg o n s).atts = s.atts := rfl
@[simp] theorem addReg_hurdles (o n : Nat) (s : State) : (addReg o n s).hurdles = s.hurdles := rfl
@[simp] theorem addReg_hwaits (o n : Nat) (s : State) : (addReg o n s).hwaits = s.hwaits := rfl
@[simp] theorem addReg_towers (o n : Nat) (s : State) : (addReg o n s).towers = s.towers := rfl
@[simp] theorem addReg_stk (o n : Nat) (s : State) : (addReg o n s).stk = s.stk := rfl
@[simp] theorem addReg_regions (o n : Nat) (s : State) : (addReg o n s).regions = s.regions := rfl
@[simp] theorem addReg_farReady (o n : Nat) (s : State) : (addReg o n s).farReady = s.farReady := rfl
@[simp] theorem addReg_reports (o n : Nat) (s : State) : (addReg o n s).reports = s.reports := rfl
@[simp] theorem addReg_recs (o n : Nat) (s : State) : (addReg o n s).recs = s.recs := rfl
@[simp] theorem addReg_hub (o n : Nat) (s : State) : (addReg o n s).hub = s.hub := rfl
@[simp] theorem addReg_ports (o n : Nat) (s : State) : (addReg o n s).ports = s.ports := rfl
@[simp] theorem addReg_links (o n : Nat) (s : State) : (addReg o n s).links = s.links := rfl
@[simp] theorem addReg_coll (o n : Nat) (s : State) : (addReg o n s).coll = s.coll := rfl
@[simp] theorem addReg_sup (o n : Nat) (s : State) : (addReg o n s).sup = s.sup := rfl
@[simp] theorem addReg_pins (o n : Nat) (s : State) : (addReg o n s).pins = s.pins := rfl
@[simp] theorem addReg_sec (o n : Nat) (s : State) : (addReg o n s).sec = s.sec := rfl
@[simp] theorem addReg_dbg (o n : Nat) (s : State) : (addReg o n s).dbg = s.dbg := rfl
@[simp] theorem addReg_out (o n : Nat) (s : State) : (addReg o n s).out = s.out := rfl
@[simp] theorem addReg_frees (o n : Nat) (s : State) : (addReg o n s).frees = s.frees := rfl

/-! ### modFn -/

@[simp] theorem modFn_pending (f : Nat) (g : Fn → Fn) (s : State) : (modFn f g s).pending = s.pending := rfl
@[simp] theorem modFn_now (f : Nat) (g : Fn → Fn) (s : State) : (modFn f g s).now = s.now := rfl
@[simp] theorem modFn_regs (f : Nat) (g : Fn → Fn) (s : State) : (modFn f g s).regs = s.regs := rfl
@[simp] theorem modFn_latches (f : Nat) (g : Fn → Fn) (s : State) : (modFn f g s).latches = s.latches := rfl
@[simp] theorem modFn_mem (f : Nat) (g : Fn → Fn) (s : State) : (modFn f g s).mem = s.mem := rfl
@[simp] theorem modFn_blots (f : Nat) (g : Fn → Fn) (s : State) : (modFn f g s).blots = s.blots := rfl
@[simp] theorem modFn_uncorr (f : Nat) (g : Fn → Fn) (s : State) : (modFn f g s).uncorr = s.uncorr := rfl
@[simp] theorem modFn_host (f : Nat) (g : Fn → Fn) (s : State) : (modFn f g s).host = s.host := rfl
@[simp] theorem modFn_pace (f : Nat) (g : Fn → Fn) (s : State) : (modFn f g s).pace = s.pace := rfl
@[simp] theorem modFn_scribe (f : Nat) (g : Fn → Fn) (s : State) : (modFn f g s).scribe = s.scribe := rfl
@[simp] theorem modFn_fns (f : Nat) (g : Fn → Fn) (s : State) : (modFn f g s).fns = kvMod (fun _ => {}) s.fns f g := rfl
@[simp] theorem modFn_scheds (f : Nat) (g : Fn → Fn) (s : State) : (modFn f g s).scheds = s.scheds := rfl
@[simp] theorem modFn_jobs (f : Nat) (g : Fn → Fn) (s : State) : (modFn f g s).jobs = s.jobs := rfl
@[simp] theorem modFn_clusters (f : Nat) (g : Fn → Fn) (s : State) : (modFn f g s).clusters = s.clusters := rfl
@[simp] theorem modFn_runners (f : Nat) (g : Fn → Fn) (s : State) : (modFn f g s).runners = s.runners := rfl
@[simp] theorem modFn_abase (f : Nat) (g : Fn → Fn) (s : State) : (modFn f g s).abase = s.abase := rfl
@[simp] theorem modFn_abtag (f : Nat) (g : Fn → Fn) (s : State) : (modFn f g s).abtag = s.abtag := rfl
@[simp] theorem modFn_mcores (f : Nat) (g : Fn → Fn) (s : State) : (modFn f g s).mcores = s.mcores := rfl
@[simp] theorem modFn_vruns (f : Nat) (g : Fn → Fn) (s : State) : (modFn f g s).vruns = s.vruns := rfl
@[simp] theorem modFn_sruns (f : Nat) (g : Fn → Fn) (s : State) : (modFn f g s).sruns = s.sruns := rfl
@[simp] theorem modFn_xfers (f : Nat) (g : Fn → Fn) (s : State) : (modFn f g s).xfers = s.xfers := rfl
@[simp] theorem modFn_written (f : Nat) (g : Fn → Fn) (s : State) : (modFn f g s).written = s.written := rfl
@[simp] theorem modFn_nmus (f : Nat) (g : Fn → Fn) (s : State) : (modFn f g s).nmus = s.nmus := rfl
@[simp] theorem modFn_atts (f : Nat) (g : Fn → Fn) (s : State) : (modFn f g s).atts = s.atts := rfl
@[simp] theorem modFn_hurdles (f : Nat) (g : Fn → Fn) (s : State) : (modFn f g s).hurdles = s.hurdles := rfl
@[simp] theorem modFn_hwaits (f : Nat) (g : Fn → Fn) (s : State) : (modFn f g s).hwaits = s.hwaits := rfl
@[simp] theorem modFn_towers (f : Nat) (g : Fn → Fn) (s : State) : (modFn f g s).towers = s.towers := rfl
@[simp] theorem modFn_stk (f : Nat) (g : Fn → Fn) (s : State) : (modFn f g s).stk = s.stk := rfl
@[simp] theorem modFn_regions (f : Nat) (g : Fn → Fn) (s : State) : (modFn f g s).regions = s.regions := rfl
@[simp] theorem modFn_farReady (f : Nat) (g : Fn → Fn) (s : State) : (modFn f g s).farReady = s.farReady := rfl
@[simp] theorem modFn_reports (f : Nat) (g : Fn → Fn) (s : State) : (modFn f g s).reports = s.reports := rfl
@[simp] theorem modFn_recs (f : Nat) (g : Fn → Fn) (s : State) : (modFn f g s).recs = s.recs := rfl
@[simp] theorem modFn_hub (f : Nat) (g : Fn → Fn) (s : State) : (modFn f g s).hub = s.hub := rfl
@[simp] theorem modFn_ports (f : Nat) (g : Fn → Fn) (s : State) : (modFn f g s).ports = s.ports := rfl
@[simp] theorem modFn_links (f : Nat) (g : Fn → Fn) (s : State) : (modFn f g s).links = s.links := rfl
@[simp] theorem modFn_coll (f : Nat) (g : Fn → Fn) (s : State) : (modFn f g s).coll = s.coll := rfl
@[simp] theorem modFn_sup (f : Nat) (g : Fn → Fn) (s : State) : (modFn f g s).sup = s.sup := rfl
@[simp] theorem modFn_pins (f : Nat) (g : Fn → Fn) (s : State) : (modFn f g s).pins = s.pins := rfl
@[simp] theorem modFn_sec (f : Nat) (g : Fn → Fn) (s : State) : (modFn f g s).sec = s.sec := rfl
@[simp] theorem modFn_dbg (f : Nat) (g : Fn → Fn) (s : State) : (modFn f g s).dbg = s.dbg := rfl
@[simp] theorem modFn_out (f : Nat) (g : Fn → Fn) (s : State) : (modFn f g s).out = s.out := rfl
@[simp] theorem modFn_frees (f : Nat) (g : Fn → Fn) (s : State) : (modFn f g s).frees = s.frees := rfl

/-! ### modCluster -/

@[simp] theorem modCluster_pending (c : Nat) (g : Cluster → Cluster) (s : State) : (modCluster c g s).pending = s.pending := rfl
@[simp] theorem modCluster_now (c : Nat) (g : Cluster → Cluster) (s : State) : (modCluster c g s).now = s.now := rfl
@[simp] theorem modCluster_regs (c : Nat) (g : Cluster → Cluster) (s : State) : (modCluster c g s).regs = s.regs := rfl
@[simp] theorem modCluster_latches (c : Nat) (g : Cluster → Cluster) (s : State) : (modCluster c g s).latches = s.latches := rfl
@[simp] theorem modCluster_mem (c : Nat) (g : Cluster → Cluster) (s : State) : (modCluster c g s).mem = s.mem := rfl
@[simp] theorem modCluster_blots (c : Nat) (g : Cluster → Cluster) (s : State) : (modCluster c g s).blots = s.blots := rfl
@[simp] theorem modCluster_uncorr (c : Nat) (g : Cluster → Cluster) (s : State) : (modCluster c g s).uncorr = s.uncorr := rfl
@[simp] theorem modCluster_host (c : Nat) (g : Cluster → Cluster) (s : State) : (modCluster c g s).host = s.host := rfl
@[simp] theorem modCluster_pace (c : Nat) (g : Cluster → Cluster) (s : State) : (modCluster c g s).pace = s.pace := rfl
@[simp] theorem modCluster_scribe (c : Nat) (g : Cluster → Cluster) (s : State) : (modCluster c g s).scribe = s.scribe := rfl
@[simp] theorem modCluster_fns (c : Nat) (g : Cluster → Cluster) (s : State) : (modCluster c g s).fns = s.fns := rfl
@[simp] theorem modCluster_scheds (c : Nat) (g : Cluster → Cluster) (s : State) : (modCluster c g s).scheds = s.scheds := rfl
@[simp] theorem modCluster_jobs (c : Nat) (g : Cluster → Cluster) (s : State) : (modCluster c g s).jobs = s.jobs := rfl
@[simp] theorem modCluster_clusters (c : Nat) (g : Cluster → Cluster) (s : State) : (modCluster c g s).clusters = kvMod (fun _ => {}) s.clusters c g := rfl
@[simp] theorem modCluster_runners (c : Nat) (g : Cluster → Cluster) (s : State) : (modCluster c g s).runners = s.runners := rfl
@[simp] theorem modCluster_abase (c : Nat) (g : Cluster → Cluster) (s : State) : (modCluster c g s).abase = s.abase := rfl
@[simp] theorem modCluster_abtag (c : Nat) (g : Cluster → Cluster) (s : State) : (modCluster c g s).abtag = s.abtag := rfl
@[simp] theorem modCluster_mcores (c : Nat) (g : Cluster → Cluster) (s : State) : (modCluster c g s).mcores = s.mcores := rfl
@[simp] theorem modCluster_vruns (c : Nat) (g : Cluster → Cluster) (s : State) : (modCluster c g s).vruns = s.vruns := rfl
@[simp] theorem modCluster_sruns (c : Nat) (g : Cluster → Cluster) (s : State) : (modCluster c g s).sruns = s.sruns := rfl
@[simp] theorem modCluster_xfers (c : Nat) (g : Cluster → Cluster) (s : State) : (modCluster c g s).xfers = s.xfers := rfl
@[simp] theorem modCluster_written (c : Nat) (g : Cluster → Cluster) (s : State) : (modCluster c g s).written = s.written := rfl
@[simp] theorem modCluster_nmus (c : Nat) (g : Cluster → Cluster) (s : State) : (modCluster c g s).nmus = s.nmus := rfl
@[simp] theorem modCluster_atts (c : Nat) (g : Cluster → Cluster) (s : State) : (modCluster c g s).atts = s.atts := rfl
@[simp] theorem modCluster_hurdles (c : Nat) (g : Cluster → Cluster) (s : State) : (modCluster c g s).hurdles = s.hurdles := rfl
@[simp] theorem modCluster_hwaits (c : Nat) (g : Cluster → Cluster) (s : State) : (modCluster c g s).hwaits = s.hwaits := rfl
@[simp] theorem modCluster_towers (c : Nat) (g : Cluster → Cluster) (s : State) : (modCluster c g s).towers = s.towers := rfl
@[simp] theorem modCluster_stk (c : Nat) (g : Cluster → Cluster) (s : State) : (modCluster c g s).stk = s.stk := rfl
@[simp] theorem modCluster_regions (c : Nat) (g : Cluster → Cluster) (s : State) : (modCluster c g s).regions = s.regions := rfl
@[simp] theorem modCluster_farReady (c : Nat) (g : Cluster → Cluster) (s : State) : (modCluster c g s).farReady = s.farReady := rfl
@[simp] theorem modCluster_reports (c : Nat) (g : Cluster → Cluster) (s : State) : (modCluster c g s).reports = s.reports := rfl
@[simp] theorem modCluster_recs (c : Nat) (g : Cluster → Cluster) (s : State) : (modCluster c g s).recs = s.recs := rfl
@[simp] theorem modCluster_hub (c : Nat) (g : Cluster → Cluster) (s : State) : (modCluster c g s).hub = s.hub := rfl
@[simp] theorem modCluster_ports (c : Nat) (g : Cluster → Cluster) (s : State) : (modCluster c g s).ports = s.ports := rfl
@[simp] theorem modCluster_links (c : Nat) (g : Cluster → Cluster) (s : State) : (modCluster c g s).links = s.links := rfl
@[simp] theorem modCluster_coll (c : Nat) (g : Cluster → Cluster) (s : State) : (modCluster c g s).coll = s.coll := rfl
@[simp] theorem modCluster_sup (c : Nat) (g : Cluster → Cluster) (s : State) : (modCluster c g s).sup = s.sup := rfl
@[simp] theorem modCluster_pins (c : Nat) (g : Cluster → Cluster) (s : State) : (modCluster c g s).pins = s.pins := rfl
@[simp] theorem modCluster_sec (c : Nat) (g : Cluster → Cluster) (s : State) : (modCluster c g s).sec = s.sec := rfl
@[simp] theorem modCluster_dbg (c : Nat) (g : Cluster → Cluster) (s : State) : (modCluster c g s).dbg = s.dbg := rfl
@[simp] theorem modCluster_out (c : Nat) (g : Cluster → Cluster) (s : State) : (modCluster c g s).out = s.out := rfl
@[simp] theorem modCluster_frees (c : Nat) (g : Cluster → Cluster) (s : State) : (modCluster c g s).frees = s.frees := rfl

/-! ### modRunner -/

@[simp] theorem modRunner_pending (k : Nat) (g : Runner → Runner) (s : State) : (modRunner k g s).pending = s.pending := rfl
@[simp] theorem modRunner_now (k : Nat) (g : Runner → Runner) (s : State) : (modRunner k g s).now = s.now := rfl
@[simp] theorem modRunner_regs (k : Nat) (g : Runner → Runner) (s : State) : (modRunner k g s).regs = s.regs := rfl
@[simp] theorem modRunner_latches (k : Nat) (g : Runner → Runner) (s : State) : (modRunner k g s).latches = s.latches := rfl
@[simp] theorem modRunner_mem (k : Nat) (g : Runner → Runner) (s : State) : (modRunner k g s).mem = s.mem := rfl
@[simp] theorem modRunner_blots (k : Nat) (g : Runner → Runner) (s : State) : (modRunner k g s).blots = s.blots := rfl
@[simp] theorem modRunner_uncorr (k : Nat) (g : Runner → Runner) (s : State) : (modRunner k g s).uncorr = s.uncorr := rfl
@[simp] theorem modRunner_host (k : Nat) (g : Runner → Runner) (s : State) : (modRunner k g s).host = s.host := rfl
@[simp] theorem modRunner_pace (k : Nat) (g : Runner → Runner) (s : State) : (modRunner k g s).pace = s.pace := rfl
@[simp] theorem modRunner_scribe (k : Nat) (g : Runner → Runner) (s : State) : (modRunner k g s).scribe = s.scribe := rfl
@[simp] theorem modRunner_fns (k : Nat) (g : Runner → Runner) (s : State) : (modRunner k g s).fns = s.fns := rfl
@[simp] theorem modRunner_scheds (k : Nat) (g : Runner → Runner) (s : State) : (modRunner k g s).scheds = s.scheds := rfl
@[simp] theorem modRunner_jobs (k : Nat) (g : Runner → Runner) (s : State) : (modRunner k g s).jobs = s.jobs := rfl
@[simp] theorem modRunner_clusters (k : Nat) (g : Runner → Runner) (s : State) : (modRunner k g s).clusters = s.clusters := rfl
@[simp] theorem modRunner_runners (k : Nat) (g : Runner → Runner) (s : State) : (modRunner k g s).runners = kvMod (fun _ => {}) s.runners k g := rfl
@[simp] theorem modRunner_abase (k : Nat) (g : Runner → Runner) (s : State) : (modRunner k g s).abase = s.abase := rfl
@[simp] theorem modRunner_abtag (k : Nat) (g : Runner → Runner) (s : State) : (modRunner k g s).abtag = s.abtag := rfl
@[simp] theorem modRunner_mcores (k : Nat) (g : Runner → Runner) (s : State) : (modRunner k g s).mcores = s.mcores := rfl
@[simp] theorem modRunner_vruns (k : Nat) (g : Runner → Runner) (s : State) : (modRunner k g s).vruns = s.vruns := rfl
@[simp] theorem modRunner_sruns (k : Nat) (g : Runner → Runner) (s : State) : (modRunner k g s).sruns = s.sruns := rfl
@[simp] theorem modRunner_xfers (k : Nat) (g : Runner → Runner) (s : State) : (modRunner k g s).xfers = s.xfers := rfl
@[simp] theorem modRunner_written (k : Nat) (g : Runner → Runner) (s : State) : (modRunner k g s).written = s.written := rfl
@[simp] theorem modRunner_nmus (k : Nat) (g : Runner → Runner) (s : State) : (modRunner k g s).nmus = s.nmus := rfl
@[simp] theorem modRunner_atts (k : Nat) (g : Runner → Runner) (s : State) : (modRunner k g s).atts = s.atts := rfl
@[simp] theorem modRunner_hurdles (k : Nat) (g : Runner → Runner) (s : State) : (modRunner k g s).hurdles = s.hurdles := rfl
@[simp] theorem modRunner_hwaits (k : Nat) (g : Runner → Runner) (s : State) : (modRunner k g s).hwaits = s.hwaits := rfl
@[simp] theorem modRunner_towers (k : Nat) (g : Runner → Runner) (s : State) : (modRunner k g s).towers = s.towers := rfl
@[simp] theorem modRunner_stk (k : Nat) (g : Runner → Runner) (s : State) : (modRunner k g s).stk = s.stk := rfl
@[simp] theorem modRunner_regions (k : Nat) (g : Runner → Runner) (s : State) : (modRunner k g s).regions = s.regions := rfl
@[simp] theorem modRunner_farReady (k : Nat) (g : Runner → Runner) (s : State) : (modRunner k g s).farReady = s.farReady := rfl
@[simp] theorem modRunner_reports (k : Nat) (g : Runner → Runner) (s : State) : (modRunner k g s).reports = s.reports := rfl
@[simp] theorem modRunner_recs (k : Nat) (g : Runner → Runner) (s : State) : (modRunner k g s).recs = s.recs := rfl
@[simp] theorem modRunner_hub (k : Nat) (g : Runner → Runner) (s : State) : (modRunner k g s).hub = s.hub := rfl
@[simp] theorem modRunner_ports (k : Nat) (g : Runner → Runner) (s : State) : (modRunner k g s).ports = s.ports := rfl
@[simp] theorem modRunner_links (k : Nat) (g : Runner → Runner) (s : State) : (modRunner k g s).links = s.links := rfl
@[simp] theorem modRunner_coll (k : Nat) (g : Runner → Runner) (s : State) : (modRunner k g s).coll = s.coll := rfl
@[simp] theorem modRunner_sup (k : Nat) (g : Runner → Runner) (s : State) : (modRunner k g s).sup = s.sup := rfl
@[simp] theorem modRunner_pins (k : Nat) (g : Runner → Runner) (s : State) : (modRunner k g s).pins = s.pins := rfl
@[simp] theorem modRunner_sec (k : Nat) (g : Runner → Runner) (s : State) : (modRunner k g s).sec = s.sec := rfl
@[simp] theorem modRunner_dbg (k : Nat) (g : Runner → Runner) (s : State) : (modRunner k g s).dbg = s.dbg := rfl
@[simp] theorem modRunner_out (k : Nat) (g : Runner → Runner) (s : State) : (modRunner k g s).out = s.out := rfl
@[simp] theorem modRunner_frees (k : Nat) (g : Runner → Runner) (s : State) : (modRunner k g s).frees = s.frees := rfl

/-! ### putHurdle -/

@[simp] theorem putHurdle_pending (n : Nat) (h : Hurdle) (s : State) : (putHurdle n h s).pending = s.pending := rfl
@[simp] theorem putHurdle_now (n : Nat) (h : Hurdle) (s : State) : (putHurdle n h s).now = s.now := rfl
@[simp] theorem putHurdle_regs (n : Nat) (h : Hurdle) (s : State) : (putHurdle n h s).regs = s.regs := rfl
@[simp] theorem putHurdle_latches (n : Nat) (h : Hurdle) (s : State) : (putHurdle n h s).latches = s.latches := rfl
@[simp] theorem putHurdle_mem (n : Nat) (h : Hurdle) (s : State) : (putHurdle n h s).mem = s.mem := rfl
@[simp] theorem putHurdle_blots (n : Nat) (h : Hurdle) (s : State) : (putHurdle n h s).blots = s.blots := rfl
@[simp] theorem putHurdle_uncorr (n : Nat) (h : Hurdle) (s : State) : (putHurdle n h s).uncorr = s.uncorr := rfl
@[simp] theorem putHurdle_host (n : Nat) (h : Hurdle) (s : State) : (putHurdle n h s).host = s.host := rfl
@[simp] theorem putHurdle_pace (n : Nat) (h : Hurdle) (s : State) : (putHurdle n h s).pace = s.pace := rfl
@[simp] theorem putHurdle_scribe (n : Nat) (h : Hurdle) (s : State) : (putHurdle n h s).scribe = s.scribe := rfl
@[simp] theorem putHurdle_fns (n : Nat) (h : Hurdle) (s : State) : (putHurdle n h s).fns = s.fns := rfl
@[simp] theorem putHurdle_scheds (n : Nat) (h : Hurdle) (s : State) : (putHurdle n h s).scheds = s.scheds := rfl
@[simp] theorem putHurdle_jobs (n : Nat) (h : Hurdle) (s : State) : (putHurdle n h s).jobs = s.jobs := rfl
@[simp] theorem putHurdle_clusters (n : Nat) (h : Hurdle) (s : State) : (putHurdle n h s).clusters = s.clusters := rfl
@[simp] theorem putHurdle_runners (n : Nat) (h : Hurdle) (s : State) : (putHurdle n h s).runners = s.runners := rfl
@[simp] theorem putHurdle_abase (n : Nat) (h : Hurdle) (s : State) : (putHurdle n h s).abase = s.abase := rfl
@[simp] theorem putHurdle_abtag (n : Nat) (h : Hurdle) (s : State) : (putHurdle n h s).abtag = s.abtag := rfl
@[simp] theorem putHurdle_mcores (n : Nat) (h : Hurdle) (s : State) : (putHurdle n h s).mcores = s.mcores := rfl
@[simp] theorem putHurdle_vruns (n : Nat) (h : Hurdle) (s : State) : (putHurdle n h s).vruns = s.vruns := rfl
@[simp] theorem putHurdle_sruns (n : Nat) (h : Hurdle) (s : State) : (putHurdle n h s).sruns = s.sruns := rfl
@[simp] theorem putHurdle_xfers (n : Nat) (h : Hurdle) (s : State) : (putHurdle n h s).xfers = s.xfers := rfl
@[simp] theorem putHurdle_written (n : Nat) (h : Hurdle) (s : State) : (putHurdle n h s).written = s.written := rfl
@[simp] theorem putHurdle_nmus (n : Nat) (h : Hurdle) (s : State) : (putHurdle n h s).nmus = s.nmus := rfl
@[simp] theorem putHurdle_atts (n : Nat) (h : Hurdle) (s : State) : (putHurdle n h s).atts = s.atts := rfl
@[simp] theorem putHurdle_hurdles (n : Nat) (h : Hurdle) (s : State) : (putHurdle n h s).hurdles = kvPut (fun _ => {}) s.hurdles n h := rfl
@[simp] theorem putHurdle_hwaits (n : Nat) (h : Hurdle) (s : State) : (putHurdle n h s).hwaits = s.hwaits := rfl
@[simp] theorem putHurdle_towers (n : Nat) (h : Hurdle) (s : State) : (putHurdle n h s).towers = s.towers := rfl
@[simp] theorem putHurdle_stk (n : Nat) (h : Hurdle) (s : State) : (putHurdle n h s).stk = s.stk := rfl
@[simp] theorem putHurdle_regions (n : Nat) (h : Hurdle) (s : State) : (putHurdle n h s).regions = s.regions := rfl
@[simp] theorem putHurdle_farReady (n : Nat) (h : Hurdle) (s : State) : (putHurdle n h s).farReady = s.farReady := rfl
@[simp] theorem putHurdle_reports (n : Nat) (h : Hurdle) (s : State) : (putHurdle n h s).reports = s.reports := rfl
@[simp] theorem putHurdle_recs (n : Nat) (h : Hurdle) (s : State) : (putHurdle n h s).recs = s.recs := rfl
@[simp] theorem putHurdle_hub (n : Nat) (h : Hurdle) (s : State) : (putHurdle n h s).hub = s.hub := rfl
@[simp] theorem putHurdle_ports (n : Nat) (h : Hurdle) (s : State) : (putHurdle n h s).ports = s.ports := rfl
@[simp] theorem putHurdle_links (n : Nat) (h : Hurdle) (s : State) : (putHurdle n h s).links = s.links := rfl
@[simp] theorem putHurdle_coll (n : Nat) (h : Hurdle) (s : State) : (putHurdle n h s).coll = s.coll := rfl
@[simp] theorem putHurdle_sup (n : Nat) (h : Hurdle) (s : State) : (putHurdle n h s).sup = s.sup := rfl
@[simp] theorem putHurdle_pins (n : Nat) (h : Hurdle) (s : State) : (putHurdle n h s).pins = s.pins := rfl
@[simp] theorem putHurdle_sec (n : Nat) (h : Hurdle) (s : State) : (putHurdle n h s).sec = s.sec := rfl
@[simp] theorem putHurdle_dbg (n : Nat) (h : Hurdle) (s : State) : (putHurdle n h s).dbg = s.dbg := rfl
@[simp] theorem putHurdle_out (n : Nat) (h : Hurdle) (s : State) : (putHurdle n h s).out = s.out := rfl
@[simp] theorem putHurdle_frees (n : Nat) (h : Hurdle) (s : State) : (putHurdle n h s).frees = s.frees := rfl

/-! ### modTower -/

@[simp] theorem modTower_pending (t : Nat) (g : Tower → Tower) (s : State) : (modTower t g s).pending = s.pending := rfl
@[simp] theorem modTower_now (t : Nat) (g : Tower → Tower) (s : State) : (modTower t g s).now = s.now := rfl
@[simp] theorem modTower_regs (t : Nat) (g : Tower → Tower) (s : State) : (modTower t g s).regs = s.regs := rfl
@[simp] theorem modTower_latches (t : Nat) (g : Tower → Tower) (s : State) : (modTower t g s).latches = s.latches := rfl
@[simp] theorem modTower_mem (t : Nat) (g : Tower → Tower) (s : State) : (modTower t g s).mem = s.mem := rfl
@[simp] theorem modTower_blots (t : Nat) (g : Tower → Tower) (s : State) : (modTower t g s).blots = s.blots := rfl
@[simp] theorem modTower_uncorr (t : Nat) (g : Tower → Tower) (s : State) : (modTower t g s).uncorr = s.uncorr := rfl
@[simp] theorem modTower_host (t : Nat) (g : Tower → Tower) (s : State) : (modTower t g s).host = s.host := rfl
@[simp] theorem modTower_pace (t : Nat) (g : Tower → Tower) (s : State) : (modTower t g s).pace = s.pace := rfl
@[simp] theorem modTower_scribe (t : Nat) (g : Tower → Tower) (s : State) : (modTower t g s).scribe = s.scribe := rfl
@[simp] theorem modTower_fns (t : Nat) (g : Tower → Tower) (s : State) : (modTower t g s).fns = s.fns := rfl
@[simp] theorem modTower_scheds (t : Nat) (g : Tower → Tower) (s : State) : (modTower t g s).scheds = s.scheds := rfl
@[simp] theorem modTower_jobs (t : Nat) (g : Tower → Tower) (s : State) : (modTower t g s).jobs = s.jobs := rfl
@[simp] theorem modTower_clusters (t : Nat) (g : Tower → Tower) (s : State) : (modTower t g s).clusters = s.clusters := rfl
@[simp] theorem modTower_runners (t : Nat) (g : Tower → Tower) (s : State) : (modTower t g s).runners = s.runners := rfl
@[simp] theorem modTower_abase (t : Nat) (g : Tower → Tower) (s : State) : (modTower t g s).abase = s.abase := rfl
@[simp] theorem modTower_abtag (t : Nat) (g : Tower → Tower) (s : State) : (modTower t g s).abtag = s.abtag := rfl
@[simp] theorem modTower_mcores (t : Nat) (g : Tower → Tower) (s : State) : (modTower t g s).mcores = s.mcores := rfl
@[simp] theorem modTower_vruns (t : Nat) (g : Tower → Tower) (s : State) : (modTower t g s).vruns = s.vruns := rfl
@[simp] theorem modTower_sruns (t : Nat) (g : Tower → Tower) (s : State) : (modTower t g s).sruns = s.sruns := rfl
@[simp] theorem modTower_xfers (t : Nat) (g : Tower → Tower) (s : State) : (modTower t g s).xfers = s.xfers := rfl
@[simp] theorem modTower_written (t : Nat) (g : Tower → Tower) (s : State) : (modTower t g s).written = s.written := rfl
@[simp] theorem modTower_nmus (t : Nat) (g : Tower → Tower) (s : State) : (modTower t g s).nmus = s.nmus := rfl
@[simp] theorem modTower_atts (t : Nat) (g : Tower → Tower) (s : State) : (modTower t g s).atts = s.atts := rfl
@[simp] theorem modTower_hurdles (t : Nat) (g : Tower → Tower) (s : State) : (modTower t g s).hurdles = s.hurdles := rfl
@[simp] theorem modTower_hwaits (t : Nat) (g : Tower → Tower) (s : State) : (modTower t g s).hwaits = s.hwaits := rfl
@[simp] theorem modTower_towers (t : Nat) (g : Tower → Tower) (s : State) : (modTower t g s).towers = kvMod (fun _ => {}) s.towers t g := rfl
@[simp] theorem modTower_stk (t : Nat) (g : Tower → Tower) (s : State) : (modTower t g s).stk = s.stk := rfl
@[simp] theorem modTower_regions (t : Nat) (g : Tower → Tower) (s : State) : (modTower t g s).regions = s.regions := rfl
@[simp] theorem modTower_farReady (t : Nat) (g : Tower → Tower) (s : State) : (modTower t g s).farReady = s.farReady := rfl
@[simp] theorem modTower_reports (t : Nat) (g : Tower → Tower) (s : State) : (modTower t g s).reports = s.reports := rfl
@[simp] theorem modTower_recs (t : Nat) (g : Tower → Tower) (s : State) : (modTower t g s).recs = s.recs := rfl
@[simp] theorem modTower_hub (t : Nat) (g : Tower → Tower) (s : State) : (modTower t g s).hub = s.hub := rfl
@[simp] theorem modTower_ports (t : Nat) (g : Tower → Tower) (s : State) : (modTower t g s).ports = s.ports := rfl
@[simp] theorem modTower_links (t : Nat) (g : Tower → Tower) (s : State) : (modTower t g s).links = s.links := rfl
@[simp] theorem modTower_coll (t : Nat) (g : Tower → Tower) (s : State) : (modTower t g s).coll = s.coll := rfl
@[simp] theorem modTower_sup (t : Nat) (g : Tower → Tower) (s : State) : (modTower t g s).sup = s.sup := rfl
@[simp] theorem modTower_pins (t : Nat) (g : Tower → Tower) (s : State) : (modTower t g s).pins = s.pins := rfl
@[simp] theorem modTower_sec (t : Nat) (g : Tower → Tower) (s : State) : (modTower t g s).sec = s.sec := rfl
@[simp] theorem modTower_dbg (t : Nat) (g : Tower → Tower) (s : State) : (modTower t g s).dbg = s.dbg := rfl
@[simp] theorem modTower_out (t : Nat) (g : Tower → Tower) (s : State) : (modTower t g s).out = s.out := rfl
@[simp] theorem modTower_frees (t : Nat) (g : Tower → Tower) (s : State) : (modTower t g s).frees = s.frees := rfl

/-! ### modStack -/

@[simp] theorem modStack_pending (m : Nat) (g : Stack → Stack) (s : State) : (modStack m g s).pending = s.pending := rfl
@[simp] theorem modStack_now (m : Nat) (g : Stack → Stack) (s : State) : (modStack m g s).now = s.now := rfl
@[simp] theorem modStack_regs (m : Nat) (g : Stack → Stack) (s : State) : (modStack m g s).regs = s.regs := rfl
@[simp] theorem modStack_latches (m : Nat) (g : Stack → Stack) (s : State) : (modStack m g s).latches = s.latches := rfl
@[simp] theorem modStack_mem (m : Nat) (g : Stack → Stack) (s : State) : (modStack m g s).mem = s.mem := rfl
@[simp] theorem modStack_blots (m : Nat) (g : Stack → Stack) (s : State) : (modStack m g s).blots = s.blots := rfl
@[simp] theorem modStack_uncorr (m : Nat) (g : Stack → Stack) (s : State) : (modStack m g s).uncorr = s.uncorr := rfl
@[simp] theorem modStack_host (m : Nat) (g : Stack → Stack) (s : State) : (modStack m g s).host = s.host := rfl
@[simp] theorem modStack_pace (m : Nat) (g : Stack → Stack) (s : State) : (modStack m g s).pace = s.pace := rfl
@[simp] theorem modStack_scribe (m : Nat) (g : Stack → Stack) (s : State) : (modStack m g s).scribe = s.scribe := rfl
@[simp] theorem modStack_fns (m : Nat) (g : Stack → Stack) (s : State) : (modStack m g s).fns = s.fns := rfl
@[simp] theorem modStack_scheds (m : Nat) (g : Stack → Stack) (s : State) : (modStack m g s).scheds = s.scheds := rfl
@[simp] theorem modStack_jobs (m : Nat) (g : Stack → Stack) (s : State) : (modStack m g s).jobs = s.jobs := rfl
@[simp] theorem modStack_clusters (m : Nat) (g : Stack → Stack) (s : State) : (modStack m g s).clusters = s.clusters := rfl
@[simp] theorem modStack_runners (m : Nat) (g : Stack → Stack) (s : State) : (modStack m g s).runners = s.runners := rfl
@[simp] theorem modStack_abase (m : Nat) (g : Stack → Stack) (s : State) : (modStack m g s).abase = s.abase := rfl
@[simp] theorem modStack_abtag (m : Nat) (g : Stack → Stack) (s : State) : (modStack m g s).abtag = s.abtag := rfl
@[simp] theorem modStack_mcores (m : Nat) (g : Stack → Stack) (s : State) : (modStack m g s).mcores = s.mcores := rfl
@[simp] theorem modStack_vruns (m : Nat) (g : Stack → Stack) (s : State) : (modStack m g s).vruns = s.vruns := rfl
@[simp] theorem modStack_sruns (m : Nat) (g : Stack → Stack) (s : State) : (modStack m g s).sruns = s.sruns := rfl
@[simp] theorem modStack_xfers (m : Nat) (g : Stack → Stack) (s : State) : (modStack m g s).xfers = s.xfers := rfl
@[simp] theorem modStack_written (m : Nat) (g : Stack → Stack) (s : State) : (modStack m g s).written = s.written := rfl
@[simp] theorem modStack_nmus (m : Nat) (g : Stack → Stack) (s : State) : (modStack m g s).nmus = s.nmus := rfl
@[simp] theorem modStack_atts (m : Nat) (g : Stack → Stack) (s : State) : (modStack m g s).atts = s.atts := rfl
@[simp] theorem modStack_hurdles (m : Nat) (g : Stack → Stack) (s : State) : (modStack m g s).hurdles = s.hurdles := rfl
@[simp] theorem modStack_hwaits (m : Nat) (g : Stack → Stack) (s : State) : (modStack m g s).hwaits = s.hwaits := rfl
@[simp] theorem modStack_towers (m : Nat) (g : Stack → Stack) (s : State) : (modStack m g s).towers = s.towers := rfl
@[simp] theorem modStack_stk (m : Nat) (g : Stack → Stack) (s : State) : (modStack m g s).stk = kvMod (fun _ => {}) s.stk m g := rfl
@[simp] theorem modStack_regions (m : Nat) (g : Stack → Stack) (s : State) : (modStack m g s).regions = s.regions := rfl
@[simp] theorem modStack_farReady (m : Nat) (g : Stack → Stack) (s : State) : (modStack m g s).farReady = s.farReady := rfl
@[simp] theorem modStack_reports (m : Nat) (g : Stack → Stack) (s : State) : (modStack m g s).reports = s.reports := rfl
@[simp] theorem modStack_recs (m : Nat) (g : Stack → Stack) (s : State) : (modStack m g s).recs = s.recs := rfl
@[simp] theorem modStack_hub (m : Nat) (g : Stack → Stack) (s : State) : (modStack m g s).hub = s.hub := rfl
@[simp] theorem modStack_ports (m : Nat) (g : Stack → Stack) (s : State) : (modStack m g s).ports = s.ports := rfl
@[simp] theorem modStack_links (m : Nat) (g : Stack → Stack) (s : State) : (modStack m g s).links = s.links := rfl
@[simp] theorem modStack_coll (m : Nat) (g : Stack → Stack) (s : State) : (modStack m g s).coll = s.coll := rfl
@[simp] theorem modStack_sup (m : Nat) (g : Stack → Stack) (s : State) : (modStack m g s).sup = s.sup := rfl
@[simp] theorem modStack_pins (m : Nat) (g : Stack → Stack) (s : State) : (modStack m g s).pins = s.pins := rfl
@[simp] theorem modStack_sec (m : Nat) (g : Stack → Stack) (s : State) : (modStack m g s).sec = s.sec := rfl
@[simp] theorem modStack_dbg (m : Nat) (g : Stack → Stack) (s : State) : (modStack m g s).dbg = s.dbg := rfl
@[simp] theorem modStack_out (m : Nat) (g : Stack → Stack) (s : State) : (modStack m g s).out = s.out := rfl
@[simp] theorem modStack_frees (m : Nat) (g : Stack → Stack) (s : State) : (modStack m g s).frees = s.frees := rfl

/-! ### putRegion -/

@[simp] theorem putRegion_pending (r : Nat) (g : Region) (s : State) : (putRegion r g s).pending = s.pending := rfl
@[simp] theorem putRegion_now (r : Nat) (g : Region) (s : State) : (putRegion r g s).now = s.now := rfl
@[simp] theorem putRegion_regs (r : Nat) (g : Region) (s : State) : (putRegion r g s).regs = s.regs := rfl
@[simp] theorem putRegion_latches (r : Nat) (g : Region) (s : State) : (putRegion r g s).latches = s.latches := rfl
@[simp] theorem putRegion_mem (r : Nat) (g : Region) (s : State) : (putRegion r g s).mem = s.mem := rfl
@[simp] theorem putRegion_blots (r : Nat) (g : Region) (s : State) : (putRegion r g s).blots = s.blots := rfl
@[simp] theorem putRegion_uncorr (r : Nat) (g : Region) (s : State) : (putRegion r g s).uncorr = s.uncorr := rfl
@[simp] theorem putRegion_host (r : Nat) (g : Region) (s : State) : (putRegion r g s).host = s.host := rfl
@[simp] theorem putRegion_pace (r : Nat) (g : Region) (s : State) : (putRegion r g s).pace = s.pace := rfl
@[simp] theorem putRegion_scribe (r : Nat) (g : Region) (s : State) : (putRegion r g s).scribe = s.scribe := rfl
@[simp] theorem putRegion_fns (r : Nat) (g : Region) (s : State) : (putRegion r g s).fns = s.fns := rfl
@[simp] theorem putRegion_scheds (r : Nat) (g : Region) (s : State) : (putRegion r g s).scheds = s.scheds := rfl
@[simp] theorem putRegion_jobs (r : Nat) (g : Region) (s : State) : (putRegion r g s).jobs = s.jobs := rfl
@[simp] theorem putRegion_clusters (r : Nat) (g : Region) (s : State) : (putRegion r g s).clusters = s.clusters := rfl
@[simp] theorem putRegion_runners (r : Nat) (g : Region) (s : State) : (putRegion r g s).runners = s.runners := rfl
@[simp] theorem putRegion_abase (r : Nat) (g : Region) (s : State) : (putRegion r g s).abase = s.abase := rfl
@[simp] theorem putRegion_abtag (r : Nat) (g : Region) (s : State) : (putRegion r g s).abtag = s.abtag := rfl
@[simp] theorem putRegion_mcores (r : Nat) (g : Region) (s : State) : (putRegion r g s).mcores = s.mcores := rfl
@[simp] theorem putRegion_vruns (r : Nat) (g : Region) (s : State) : (putRegion r g s).vruns = s.vruns := rfl
@[simp] theorem putRegion_sruns (r : Nat) (g : Region) (s : State) : (putRegion r g s).sruns = s.sruns := rfl
@[simp] theorem putRegion_xfers (r : Nat) (g : Region) (s : State) : (putRegion r g s).xfers = s.xfers := rfl
@[simp] theorem putRegion_written (r : Nat) (g : Region) (s : State) : (putRegion r g s).written = s.written := rfl
@[simp] theorem putRegion_nmus (r : Nat) (g : Region) (s : State) : (putRegion r g s).nmus = s.nmus := rfl
@[simp] theorem putRegion_atts (r : Nat) (g : Region) (s : State) : (putRegion r g s).atts = s.atts := rfl
@[simp] theorem putRegion_hurdles (r : Nat) (g : Region) (s : State) : (putRegion r g s).hurdles = s.hurdles := rfl
@[simp] theorem putRegion_hwaits (r : Nat) (g : Region) (s : State) : (putRegion r g s).hwaits = s.hwaits := rfl
@[simp] theorem putRegion_towers (r : Nat) (g : Region) (s : State) : (putRegion r g s).towers = s.towers := rfl
@[simp] theorem putRegion_stk (r : Nat) (g : Region) (s : State) : (putRegion r g s).stk = s.stk := rfl
@[simp] theorem putRegion_regions (r : Nat) (g : Region) (s : State) : (putRegion r g s).regions = kvPut (fun _ => {}) s.regions r g := rfl
@[simp] theorem putRegion_farReady (r : Nat) (g : Region) (s : State) : (putRegion r g s).farReady = s.farReady := rfl
@[simp] theorem putRegion_reports (r : Nat) (g : Region) (s : State) : (putRegion r g s).reports = s.reports := rfl
@[simp] theorem putRegion_recs (r : Nat) (g : Region) (s : State) : (putRegion r g s).recs = s.recs := rfl
@[simp] theorem putRegion_hub (r : Nat) (g : Region) (s : State) : (putRegion r g s).hub = s.hub := rfl
@[simp] theorem putRegion_ports (r : Nat) (g : Region) (s : State) : (putRegion r g s).ports = s.ports := rfl
@[simp] theorem putRegion_links (r : Nat) (g : Region) (s : State) : (putRegion r g s).links = s.links := rfl
@[simp] theorem putRegion_coll (r : Nat) (g : Region) (s : State) : (putRegion r g s).coll = s.coll := rfl
@[simp] theorem putRegion_sup (r : Nat) (g : Region) (s : State) : (putRegion r g s).sup = s.sup := rfl
@[simp] theorem putRegion_pins (r : Nat) (g : Region) (s : State) : (putRegion r g s).pins = s.pins := rfl
@[simp] theorem putRegion_sec (r : Nat) (g : Region) (s : State) : (putRegion r g s).sec = s.sec := rfl
@[simp] theorem putRegion_dbg (r : Nat) (g : Region) (s : State) : (putRegion r g s).dbg = s.dbg := rfl
@[simp] theorem putRegion_out (r : Nat) (g : Region) (s : State) : (putRegion r g s).out = s.out := rfl
@[simp] theorem putRegion_frees (r : Nat) (g : Region) (s : State) : (putRegion r g s).frees = s.frees := rfl

/-! ### modHub -/

@[simp] theorem modHub_pending (g : Hub → Hub) (s : State) : (modHub g s).pending = s.pending := rfl
@[simp] theorem modHub_now (g : Hub → Hub) (s : State) : (modHub g s).now = s.now := rfl
@[simp] theorem modHub_regs (g : Hub → Hub) (s : State) : (modHub g s).regs = s.regs := rfl
@[simp] theorem modHub_latches (g : Hub → Hub) (s : State) : (modHub g s).latches = s.latches := rfl
@[simp] theorem modHub_mem (g : Hub → Hub) (s : State) : (modHub g s).mem = s.mem := rfl
@[simp] theorem modHub_blots (g : Hub → Hub) (s : State) : (modHub g s).blots = s.blots := rfl
@[simp] theorem modHub_uncorr (g : Hub → Hub) (s : State) : (modHub g s).uncorr = s.uncorr := rfl
@[simp] theorem modHub_host (g : Hub → Hub) (s : State) : (modHub g s).host = s.host := rfl
@[simp] theorem modHub_pace (g : Hub → Hub) (s : State) : (modHub g s).pace = s.pace := rfl
@[simp] theorem modHub_scribe (g : Hub → Hub) (s : State) : (modHub g s).scribe = s.scribe := rfl
@[simp] theorem modHub_fns (g : Hub → Hub) (s : State) : (modHub g s).fns = s.fns := rfl
@[simp] theorem modHub_scheds (g : Hub → Hub) (s : State) : (modHub g s).scheds = s.scheds := rfl
@[simp] theorem modHub_jobs (g : Hub → Hub) (s : State) : (modHub g s).jobs = s.jobs := rfl
@[simp] theorem modHub_clusters (g : Hub → Hub) (s : State) : (modHub g s).clusters = s.clusters := rfl
@[simp] theorem modHub_runners (g : Hub → Hub) (s : State) : (modHub g s).runners = s.runners := rfl
@[simp] theorem modHub_abase (g : Hub → Hub) (s : State) : (modHub g s).abase = s.abase := rfl
@[simp] theorem modHub_abtag (g : Hub → Hub) (s : State) : (modHub g s).abtag = s.abtag := rfl
@[simp] theorem modHub_mcores (g : Hub → Hub) (s : State) : (modHub g s).mcores = s.mcores := rfl
@[simp] theorem modHub_vruns (g : Hub → Hub) (s : State) : (modHub g s).vruns = s.vruns := rfl
@[simp] theorem modHub_sruns (g : Hub → Hub) (s : State) : (modHub g s).sruns = s.sruns := rfl
@[simp] theorem modHub_xfers (g : Hub → Hub) (s : State) : (modHub g s).xfers = s.xfers := rfl
@[simp] theorem modHub_written (g : Hub → Hub) (s : State) : (modHub g s).written = s.written := rfl
@[simp] theorem modHub_nmus (g : Hub → Hub) (s : State) : (modHub g s).nmus = s.nmus := rfl
@[simp] theorem modHub_atts (g : Hub → Hub) (s : State) : (modHub g s).atts = s.atts := rfl
@[simp] theorem modHub_hurdles (g : Hub → Hub) (s : State) : (modHub g s).hurdles = s.hurdles := rfl
@[simp] theorem modHub_hwaits (g : Hub → Hub) (s : State) : (modHub g s).hwaits = s.hwaits := rfl
@[simp] theorem modHub_towers (g : Hub → Hub) (s : State) : (modHub g s).towers = s.towers := rfl
@[simp] theorem modHub_stk (g : Hub → Hub) (s : State) : (modHub g s).stk = s.stk := rfl
@[simp] theorem modHub_regions (g : Hub → Hub) (s : State) : (modHub g s).regions = s.regions := rfl
@[simp] theorem modHub_farReady (g : Hub → Hub) (s : State) : (modHub g s).farReady = s.farReady := rfl
@[simp] theorem modHub_reports (g : Hub → Hub) (s : State) : (modHub g s).reports = s.reports := rfl
@[simp] theorem modHub_recs (g : Hub → Hub) (s : State) : (modHub g s).recs = s.recs := rfl
@[simp] theorem modHub_hub (g : Hub → Hub) (s : State) : (modHub g s).hub = g s.hub := rfl
@[simp] theorem modHub_ports (g : Hub → Hub) (s : State) : (modHub g s).ports = s.ports := rfl
@[simp] theorem modHub_links (g : Hub → Hub) (s : State) : (modHub g s).links = s.links := rfl
@[simp] theorem modHub_coll (g : Hub → Hub) (s : State) : (modHub g s).coll = s.coll := rfl
@[simp] theorem modHub_sup (g : Hub → Hub) (s : State) : (modHub g s).sup = s.sup := rfl
@[simp] theorem modHub_pins (g : Hub → Hub) (s : State) : (modHub g s).pins = s.pins := rfl
@[simp] theorem modHub_sec (g : Hub → Hub) (s : State) : (modHub g s).sec = s.sec := rfl
@[simp] theorem modHub_dbg (g : Hub → Hub) (s : State) : (modHub g s).dbg = s.dbg := rfl
@[simp] theorem modHub_out (g : Hub → Hub) (s : State) : (modHub g s).out = s.out := rfl
@[simp] theorem modHub_frees (g : Hub → Hub) (s : State) : (modHub g s).frees = s.frees := rfl

/-! ### modSec -/

@[simp] theorem modSec_pending (g : Security → Security) (s : State) : (modSec g s).pending = s.pending := rfl
@[simp] theorem modSec_now (g : Security → Security) (s : State) : (modSec g s).now = s.now := rfl
@[simp] theorem modSec_regs (g : Security → Security) (s : State) : (modSec g s).regs = s.regs := rfl
@[simp] theorem modSec_latches (g : Security → Security) (s : State) : (modSec g s).latches = s.latches := rfl
@[simp] theorem modSec_mem (g : Security → Security) (s : State) : (modSec g s).mem = s.mem := rfl
@[simp] theorem modSec_blots (g : Security → Security) (s : State) : (modSec g s).blots = s.blots := rfl
@[simp] theorem modSec_uncorr (g : Security → Security) (s : State) : (modSec g s).uncorr = s.uncorr := rfl
@[simp] theorem modSec_host (g : Security → Security) (s : State) : (modSec g s).host = s.host := rfl
@[simp] theorem modSec_pace (g : Security → Security) (s : State) : (modSec g s).pace = s.pace := rfl
@[simp] theorem modSec_scribe (g : Security → Security) (s : State) : (modSec g s).scribe = s.scribe := rfl
@[simp] theorem modSec_fns (g : Security → Security) (s : State) : (modSec g s).fns = s.fns := rfl
@[simp] theorem modSec_scheds (g : Security → Security) (s : State) : (modSec g s).scheds = s.scheds := rfl
@[simp] theorem modSec_jobs (g : Security → Security) (s : State) : (modSec g s).jobs = s.jobs := rfl
@[simp] theorem modSec_clusters (g : Security → Security) (s : State) : (modSec g s).clusters = s.clusters := rfl
@[simp] theorem modSec_runners (g : Security → Security) (s : State) : (modSec g s).runners = s.runners := rfl
@[simp] theorem modSec_abase (g : Security → Security) (s : State) : (modSec g s).abase = s.abase := rfl
@[simp] theorem modSec_abtag (g : Security → Security) (s : State) : (modSec g s).abtag = s.abtag := rfl
@[simp] theorem modSec_mcores (g : Security → Security) (s : State) : (modSec g s).mcores = s.mcores := rfl
@[simp] theorem modSec_vruns (g : Security → Security) (s : State) : (modSec g s).vruns = s.vruns := rfl
@[simp] theorem modSec_sruns (g : Security → Security) (s : State) : (modSec g s).sruns = s.sruns := rfl
@[simp] theorem modSec_xfers (g : Security → Security) (s : State) : (modSec g s).xfers = s.xfers := rfl
@[simp] theorem modSec_written (g : Security → Security) (s : State) : (modSec g s).written = s.written := rfl
@[simp] theorem modSec_nmus (g : Security → Security) (s : State) : (modSec g s).nmus = s.nmus := rfl
@[simp] theorem modSec_atts (g : Security → Security) (s : State) : (modSec g s).atts = s.atts := rfl
@[simp] theorem modSec_hurdles (g : Security → Security) (s : State) : (modSec g s).hurdles = s.hurdles := rfl
@[simp] theorem modSec_hwaits (g : Security → Security) (s : State) : (modSec g s).hwaits = s.hwaits := rfl
@[simp] theorem modSec_towers (g : Security → Security) (s : State) : (modSec g s).towers = s.towers := rfl
@[simp] theorem modSec_stk (g : Security → Security) (s : State) : (modSec g s).stk = s.stk := rfl
@[simp] theorem modSec_regions (g : Security → Security) (s : State) : (modSec g s).regions = s.regions := rfl
@[simp] theorem modSec_farReady (g : Security → Security) (s : State) : (modSec g s).farReady = s.farReady := rfl
@[simp] theorem modSec_reports (g : Security → Security) (s : State) : (modSec g s).reports = s.reports := rfl
@[simp] theorem modSec_recs (g : Security → Security) (s : State) : (modSec g s).recs = s.recs := rfl
@[simp] theorem modSec_hub (g : Security → Security) (s : State) : (modSec g s).hub = s.hub := rfl
@[simp] theorem modSec_ports (g : Security → Security) (s : State) : (modSec g s).ports = s.ports := rfl
@[simp] theorem modSec_links (g : Security → Security) (s : State) : (modSec g s).links = s.links := rfl
@[simp] theorem modSec_coll (g : Security → Security) (s : State) : (modSec g s).coll = s.coll := rfl
@[simp] theorem modSec_sup (g : Security → Security) (s : State) : (modSec g s).sup = s.sup := rfl
@[simp] theorem modSec_pins (g : Security → Security) (s : State) : (modSec g s).pins = s.pins := rfl
@[simp] theorem modSec_sec (g : Security → Security) (s : State) : (modSec g s).sec = g s.sec := rfl
@[simp] theorem modSec_dbg (g : Security → Security) (s : State) : (modSec g s).dbg = s.dbg := rfl
@[simp] theorem modSec_out (g : Security → Security) (s : State) : (modSec g s).out = s.out := rfl
@[simp] theorem modSec_frees (g : Security → Security) (s : State) : (modSec g s).frees = s.frees := rfl

/-! ### modScribe -/

@[simp] theorem modScribe_pending (g : Scribe → Scribe) (s : State) : (modScribe g s).pending = s.pending := rfl
@[simp] theorem modScribe_now (g : Scribe → Scribe) (s : State) : (modScribe g s).now = s.now := rfl
@[simp] theorem modScribe_regs (g : Scribe → Scribe) (s : State) : (modScribe g s).regs = s.regs := rfl
@[simp] theorem modScribe_latches (g : Scribe → Scribe) (s : State) : (modScribe g s).latches = s.latches := rfl
@[simp] theorem modScribe_mem (g : Scribe → Scribe) (s : State) : (modScribe g s).mem = s.mem := rfl
@[simp] theorem modScribe_blots (g : Scribe → Scribe) (s : State) : (modScribe g s).blots = s.blots := rfl
@[simp] theorem modScribe_uncorr (g : Scribe → Scribe) (s : State) : (modScribe g s).uncorr = s.uncorr := rfl
@[simp] theorem modScribe_host (g : Scribe → Scribe) (s : State) : (modScribe g s).host = s.host := rfl
@[simp] theorem modScribe_pace (g : Scribe → Scribe) (s : State) : (modScribe g s).pace = s.pace := rfl
@[simp] theorem modScribe_scribe (g : Scribe → Scribe) (s : State) : (modScribe g s).scribe = g s.scribe := rfl
@[simp] theorem modScribe_fns (g : Scribe → Scribe) (s : State) : (modScribe g s).fns = s.fns := rfl
@[simp] theorem modScribe_scheds (g : Scribe → Scribe) (s : State) : (modScribe g s).scheds = s.scheds := rfl
@[simp] theorem modScribe_jobs (g : Scribe → Scribe) (s : State) : (modScribe g s).jobs = s.jobs := rfl
@[simp] theorem modScribe_clusters (g : Scribe → Scribe) (s : State) : (modScribe g s).clusters = s.clusters := rfl
@[simp] theorem modScribe_runners (g : Scribe → Scribe) (s : State) : (modScribe g s).runners = s.runners := rfl
@[simp] theorem modScribe_abase (g : Scribe → Scribe) (s : State) : (modScribe g s).abase = s.abase := rfl
@[simp] theorem modScribe_abtag (g : Scribe → Scribe) (s : State) : (modScribe g s).abtag = s.abtag := rfl
@[simp] theorem modScribe_mcores (g : Scribe → Scribe) (s : State) : (modScribe g s).mcores = s.mcores := rfl
@[simp] theorem modScribe_vruns (g : Scribe → Scribe) (s : State) : (modScribe g s).vruns = s.vruns := rfl
@[simp] theorem modScribe_sruns (g : Scribe → Scribe) (s : State) : (modScribe g s).sruns = s.sruns := rfl
@[simp] theorem modScribe_xfers (g : Scribe → Scribe) (s : State) : (modScribe g s).xfers = s.xfers := rfl
@[simp] theorem modScribe_written (g : Scribe → Scribe) (s : State) : (modScribe g s).written = s.written := rfl
@[simp] theorem modScribe_nmus (g : Scribe → Scribe) (s : State) : (modScribe g s).nmus = s.nmus := rfl
@[simp] theorem modScribe_atts (g : Scribe → Scribe) (s : State) : (modScribe g s).atts = s.atts := rfl
@[simp] theorem modScribe_hurdles (g : Scribe → Scribe) (s : State) : (modScribe g s).hurdles = s.hurdles := rfl
@[simp] theorem modScribe_hwaits (g : Scribe → Scribe) (s : State) : (modScribe g s).hwaits = s.hwaits := rfl
@[simp] theorem modScribe_towers (g : Scribe → Scribe) (s : State) : (modScribe g s).towers = s.towers := rfl
@[simp] theorem modScribe_stk (g : Scribe → Scribe) (s : State) : (modScribe g s).stk = s.stk := rfl
@[simp] theorem modScribe_regions (g : Scribe → Scribe) (s : State) : (modScribe g s).regions = s.regions := rfl
@[simp] theorem modScribe_farReady (g : Scribe → Scribe) (s : State) : (modScribe g s).farReady = s.farReady := rfl
@[simp] theorem modScribe_reports (g : Scribe → Scribe) (s : State) : (modScribe g s).reports = s.reports := rfl
@[simp] theorem modScribe_recs (g : Scribe → Scribe) (s : State) : (modScribe g s).recs = s.recs := rfl
@[simp] theorem modScribe_hub (g : Scribe → Scribe) (s : State) : (modScribe g s).hub = s.hub := rfl
@[simp] theorem modScribe_ports (g : Scribe → Scribe) (s : State) : (modScribe g s).ports = s.ports := rfl
@[simp] theorem modScribe_links (g : Scribe → Scribe) (s : State) : (modScribe g s).links = s.links := rfl
@[simp] theorem modScribe_coll (g : Scribe → Scribe) (s : State) : (modScribe g s).coll = s.coll := rfl
@[simp] theorem modScribe_sup (g : Scribe → Scribe) (s : State) : (modScribe g s).sup = s.sup := rfl
@[simp] theorem modScribe_pins (g : Scribe → Scribe) (s : State) : (modScribe g s).pins = s.pins := rfl
@[simp] theorem modScribe_sec (g : Scribe → Scribe) (s : State) : (modScribe g s).sec = s.sec := rfl
@[simp] theorem modScribe_dbg (g : Scribe → Scribe) (s : State) : (modScribe g s).dbg = s.dbg := rfl
@[simp] theorem modScribe_out (g : Scribe → Scribe) (s : State) : (modScribe g s).out = s.out := rfl
@[simp] theorem modScribe_frees (g : Scribe → Scribe) (s : State) : (modScribe g s).frees = s.frees := rfl

/-! ### modPace -/

@[simp] theorem modPace_pending (g : Pace → Pace) (s : State) : (modPace g s).pending = s.pending := rfl
@[simp] theorem modPace_now (g : Pace → Pace) (s : State) : (modPace g s).now = s.now := rfl
@[simp] theorem modPace_regs (g : Pace → Pace) (s : State) : (modPace g s).regs = s.regs := rfl
@[simp] theorem modPace_latches (g : Pace → Pace) (s : State) : (modPace g s).latches = s.latches := rfl
@[simp] theorem modPace_mem (g : Pace → Pace) (s : State) : (modPace g s).mem = s.mem := rfl
@[simp] theorem modPace_blots (g : Pace → Pace) (s : State) : (modPace g s).blots = s.blots := rfl
@[simp] theorem modPace_uncorr (g : Pace → Pace) (s : State) : (modPace g s).uncorr = s.uncorr := rfl
@[simp] theorem modPace_host (g : Pace → Pace) (s : State) : (modPace g s).host = s.host := rfl
@[simp] theorem modPace_pace (g : Pace → Pace) (s : State) : (modPace g s).pace = g s.pace := rfl
@[simp] theorem modPace_scribe (g : Pace → Pace) (s : State) : (modPace g s).scribe = s.scribe := rfl
@[simp] theorem modPace_fns (g : Pace → Pace) (s : State) : (modPace g s).fns = s.fns := rfl
@[simp] theorem modPace_scheds (g : Pace → Pace) (s : State) : (modPace g s).scheds = s.scheds := rfl
@[simp] theorem modPace_jobs (g : Pace → Pace) (s : State) : (modPace g s).jobs = s.jobs := rfl
@[simp] theorem modPace_clusters (g : Pace → Pace) (s : State) : (modPace g s).clusters = s.clusters := rfl
@[simp] theorem modPace_runners (g : Pace → Pace) (s : State) : (modPace g s).runners = s.runners := rfl
@[simp] theorem modPace_abase (g : Pace → Pace) (s : State) : (modPace g s).abase = s.abase := rfl
@[simp] theorem modPace_abtag (g : Pace → Pace) (s : State) : (modPace g s).abtag = s.abtag := rfl
@[simp] theorem modPace_mcores (g : Pace → Pace) (s : State) : (modPace g s).mcores = s.mcores := rfl
@[simp] theorem modPace_vruns (g : Pace → Pace) (s : State) : (modPace g s).vruns = s.vruns := rfl
@[simp] theorem modPace_sruns (g : Pace → Pace) (s : State) : (modPace g s).sruns = s.sruns := rfl
@[simp] theorem modPace_xfers (g : Pace → Pace) (s : State) : (modPace g s).xfers = s.xfers := rfl
@[simp] theorem modPace_written (g : Pace → Pace) (s : State) : (modPace g s).written = s.written := rfl
@[simp] theorem modPace_nmus (g : Pace → Pace) (s : State) : (modPace g s).nmus = s.nmus := rfl
@[simp] theorem modPace_atts (g : Pace → Pace) (s : State) : (modPace g s).atts = s.atts := rfl
@[simp] theorem modPace_hurdles (g : Pace → Pace) (s : State) : (modPace g s).hurdles = s.hurdles := rfl
@[simp] theorem modPace_hwaits (g : Pace → Pace) (s : State) : (modPace g s).hwaits = s.hwaits := rfl
@[simp] theorem modPace_towers (g : Pace → Pace) (s : State) : (modPace g s).towers = s.towers := rfl
@[simp] theorem modPace_stk (g : Pace → Pace) (s : State) : (modPace g s).stk = s.stk := rfl
@[simp] theorem modPace_regions (g : Pace → Pace) (s : State) : (modPace g s).regions = s.regions := rfl
@[simp] theorem modPace_farReady (g : Pace → Pace) (s : State) : (modPace g s).farReady = s.farReady := rfl
@[simp] theorem modPace_reports (g : Pace → Pace) (s : State) : (modPace g s).reports = s.reports := rfl
@[simp] theorem modPace_recs (g : Pace → Pace) (s : State) : (modPace g s).recs = s.recs := rfl
@[simp] theorem modPace_hub (g : Pace → Pace) (s : State) : (modPace g s).hub = s.hub := rfl
@[simp] theorem modPace_ports (g : Pace → Pace) (s : State) : (modPace g s).ports = s.ports := rfl
@[simp] theorem modPace_links (g : Pace → Pace) (s : State) : (modPace g s).links = s.links := rfl
@[simp] theorem modPace_coll (g : Pace → Pace) (s : State) : (modPace g s).coll = s.coll := rfl
@[simp] theorem modPace_sup (g : Pace → Pace) (s : State) : (modPace g s).sup = s.sup := rfl
@[simp] theorem modPace_pins (g : Pace → Pace) (s : State) : (modPace g s).pins = s.pins := rfl
@[simp] theorem modPace_sec (g : Pace → Pace) (s : State) : (modPace g s).sec = s.sec := rfl
@[simp] theorem modPace_dbg (g : Pace → Pace) (s : State) : (modPace g s).dbg = s.dbg := rfl
@[simp] theorem modPace_out (g : Pace → Pace) (s : State) : (modPace g s).out = s.out := rfl
@[simp] theorem modPace_frees (g : Pace → Pace) (s : State) : (modPace g s).frees = s.frees := rfl

/-! ### modSup -/

@[simp] theorem modSup_pending (g : Supervisor → Supervisor) (s : State) : (modSup g s).pending = s.pending := rfl
@[simp] theorem modSup_now (g : Supervisor → Supervisor) (s : State) : (modSup g s).now = s.now := rfl
@[simp] theorem modSup_regs (g : Supervisor → Supervisor) (s : State) : (modSup g s).regs = s.regs := rfl
@[simp] theorem modSup_latches (g : Supervisor → Supervisor) (s : State) : (modSup g s).latches = s.latches := rfl
@[simp] theorem modSup_mem (g : Supervisor → Supervisor) (s : State) : (modSup g s).mem = s.mem := rfl
@[simp] theorem modSup_blots (g : Supervisor → Supervisor) (s : State) : (modSup g s).blots = s.blots := rfl
@[simp] theorem modSup_uncorr (g : Supervisor → Supervisor) (s : State) : (modSup g s).uncorr = s.uncorr := rfl
@[simp] theorem modSup_host (g : Supervisor → Supervisor) (s : State) : (modSup g s).host = s.host := rfl
@[simp] theorem modSup_pace (g : Supervisor → Supervisor) (s : State) : (modSup g s).pace = s.pace := rfl
@[simp] theorem modSup_scribe (g : Supervisor → Supervisor) (s : State) : (modSup g s).scribe = s.scribe := rfl
@[simp] theorem modSup_fns (g : Supervisor → Supervisor) (s : State) : (modSup g s).fns = s.fns := rfl
@[simp] theorem modSup_scheds (g : Supervisor → Supervisor) (s : State) : (modSup g s).scheds = s.scheds := rfl
@[simp] theorem modSup_jobs (g : Supervisor → Supervisor) (s : State) : (modSup g s).jobs = s.jobs := rfl
@[simp] theorem modSup_clusters (g : Supervisor → Supervisor) (s : State) : (modSup g s).clusters = s.clusters := rfl
@[simp] theorem modSup_runners (g : Supervisor → Supervisor) (s : State) : (modSup g s).runners = s.runners := rfl
@[simp] theorem modSup_abase (g : Supervisor → Supervisor) (s : State) : (modSup g s).abase = s.abase := rfl
@[simp] theorem modSup_abtag (g : Supervisor → Supervisor) (s : State) : (modSup g s).abtag = s.abtag := rfl
@[simp] theorem modSup_mcores (g : Supervisor → Supervisor) (s : State) : (modSup g s).mcores = s.mcores := rfl
@[simp] theorem modSup_vruns (g : Supervisor → Supervisor) (s : State) : (modSup g s).vruns = s.vruns := rfl
@[simp] theorem modSup_sruns (g : Supervisor → Supervisor) (s : State) : (modSup g s).sruns = s.sruns := rfl
@[simp] theorem modSup_xfers (g : Supervisor → Supervisor) (s : State) : (modSup g s).xfers = s.xfers := rfl
@[simp] theorem modSup_written (g : Supervisor → Supervisor) (s : State) : (modSup g s).written = s.written := rfl
@[simp] theorem modSup_nmus (g : Supervisor → Supervisor) (s : State) : (modSup g s).nmus = s.nmus := rfl
@[simp] theorem modSup_atts (g : Supervisor → Supervisor) (s : State) : (modSup g s).atts = s.atts := rfl
@[simp] theorem modSup_hurdles (g : Supervisor → Supervisor) (s : State) : (modSup g s).hurdles = s.hurdles := rfl
@[simp] theorem modSup_hwaits (g : Supervisor → Supervisor) (s : State) : (modSup g s).hwaits = s.hwaits := rfl
@[simp] theorem modSup_towers (g : Supervisor → Supervisor) (s : State) : (modSup g s).towers = s.towers := rfl
@[simp] theorem modSup_stk (g : Supervisor → Supervisor) (s : State) : (modSup g s).stk = s.stk := rfl
@[simp] theorem modSup_regions (g : Supervisor → Supervisor) (s : State) : (modSup g s).regions = s.regions := rfl
@[simp] theorem modSup_farReady (g : Supervisor → Supervisor) (s : State) : (modSup g s).farReady = s.farReady := rfl
@[simp] theorem modSup_reports (g : Supervisor → Supervisor) (s : State) : (modSup g s).reports = s.reports := rfl
@[simp] theorem modSup_recs (g : Supervisor → Supervisor) (s : State) : (modSup g s).recs = s.recs := rfl
@[simp] theorem modSup_hub (g : Supervisor → Supervisor) (s : State) : (modSup g s).hub = s.hub := rfl
@[simp] theorem modSup_ports (g : Supervisor → Supervisor) (s : State) : (modSup g s).ports = s.ports := rfl
@[simp] theorem modSup_links (g : Supervisor → Supervisor) (s : State) : (modSup g s).links = s.links := rfl
@[simp] theorem modSup_coll (g : Supervisor → Supervisor) (s : State) : (modSup g s).coll = s.coll := rfl
@[simp] theorem modSup_sup (g : Supervisor → Supervisor) (s : State) : (modSup g s).sup = g s.sup := rfl
@[simp] theorem modSup_pins (g : Supervisor → Supervisor) (s : State) : (modSup g s).pins = s.pins := rfl
@[simp] theorem modSup_sec (g : Supervisor → Supervisor) (s : State) : (modSup g s).sec = s.sec := rfl
@[simp] theorem modSup_dbg (g : Supervisor → Supervisor) (s : State) : (modSup g s).dbg = s.dbg := rfl
@[simp] theorem modSup_out (g : Supervisor → Supervisor) (s : State) : (modSup g s).out = s.out := rfl
@[simp] theorem modSup_frees (g : Supervisor → Supervisor) (s : State) : (modSup g s).frees = s.frees := rfl

/-! ### modPins -/

@[simp] theorem modPins_pending (g : Pins → Pins) (s : State) : (modPins g s).pending = s.pending := rfl
@[simp] theorem modPins_now (g : Pins → Pins) (s : State) : (modPins g s).now = s.now := rfl
@[simp] theorem modPins_regs (g : Pins → Pins) (s : State) : (modPins g s).regs = s.regs := rfl
@[simp] theorem modPins_latches (g : Pins → Pins) (s : State) : (modPins g s).latches = s.latches := rfl
@[simp] theorem modPins_mem (g : Pins → Pins) (s : State) : (modPins g s).mem = s.mem := rfl
@[simp] theorem modPins_blots (g : Pins → Pins) (s : State) : (modPins g s).blots = s.blots := rfl
@[simp] theorem modPins_uncorr (g : Pins → Pins) (s : State) : (modPins g s).uncorr = s.uncorr := rfl
@[simp] theorem modPins_host (g : Pins → Pins) (s : State) : (modPins g s).host = s.host := rfl
@[simp] theorem modPins_pace (g : Pins → Pins) (s : State) : (modPins g s).pace = s.pace := rfl
@[simp] theorem modPins_scribe (g : Pins → Pins) (s : State) : (modPins g s).scribe = s.scribe := rfl
@[simp] theorem modPins_fns (g : Pins → Pins) (s : State) : (modPins g s).fns = s.fns := rfl
@[simp] theorem modPins_scheds (g : Pins → Pins) (s : State) : (modPins g s).scheds = s.scheds := rfl
@[simp] theorem modPins_jobs (g : Pins → Pins) (s : State) : (modPins g s).jobs = s.jobs := rfl
@[simp] theorem modPins_clusters (g : Pins → Pins) (s : State) : (modPins g s).clusters = s.clusters := rfl
@[simp] theorem modPins_runners (g : Pins → Pins) (s : State) : (modPins g s).runners = s.runners := rfl
@[simp] theorem modPins_abase (g : Pins → Pins) (s : State) : (modPins g s).abase = s.abase := rfl
@[simp] theorem modPins_abtag (g : Pins → Pins) (s : State) : (modPins g s).abtag = s.abtag := rfl
@[simp] theorem modPins_mcores (g : Pins → Pins) (s : State) : (modPins g s).mcores = s.mcores := rfl
@[simp] theorem modPins_vruns (g : Pins → Pins) (s : State) : (modPins g s).vruns = s.vruns := rfl
@[simp] theorem modPins_sruns (g : Pins → Pins) (s : State) : (modPins g s).sruns = s.sruns := rfl
@[simp] theorem modPins_xfers (g : Pins → Pins) (s : State) : (modPins g s).xfers = s.xfers := rfl
@[simp] theorem modPins_written (g : Pins → Pins) (s : State) : (modPins g s).written = s.written := rfl
@[simp] theorem modPins_nmus (g : Pins → Pins) (s : State) : (modPins g s).nmus = s.nmus := rfl
@[simp] theorem modPins_atts (g : Pins → Pins) (s : State) : (modPins g s).atts = s.atts := rfl
@[simp] theorem modPins_hurdles (g : Pins → Pins) (s : State) : (modPins g s).hurdles = s.hurdles := rfl
@[simp] theorem modPins_hwaits (g : Pins → Pins) (s : State) : (modPins g s).hwaits = s.hwaits := rfl
@[simp] theorem modPins_towers (g : Pins → Pins) (s : State) : (modPins g s).towers = s.towers := rfl
@[simp] theorem modPins_stk (g : Pins → Pins) (s : State) : (modPins g s).stk = s.stk := rfl
@[simp] theorem modPins_regions (g : Pins → Pins) (s : State) : (modPins g s).regions = s.regions := rfl
@[simp] theorem modPins_farReady (g : Pins → Pins) (s : State) : (modPins g s).farReady = s.farReady := rfl
@[simp] theorem modPins_reports (g : Pins → Pins) (s : State) : (modPins g s).reports = s.reports := rfl
@[simp] theorem modPins_recs (g : Pins → Pins) (s : State) : (modPins g s).recs = s.recs := rfl
@[simp] theorem modPins_hub (g : Pins → Pins) (s : State) : (modPins g s).hub = s.hub := rfl
@[simp] theorem modPins_ports (g : Pins → Pins) (s : State) : (modPins g s).ports = s.ports := rfl
@[simp] theorem modPins_links (g : Pins → Pins) (s : State) : (modPins g s).links = s.links := rfl
@[simp] theorem modPins_coll (g : Pins → Pins) (s : State) : (modPins g s).coll = s.coll := rfl
@[simp] theorem modPins_sup (g : Pins → Pins) (s : State) : (modPins g s).sup = s.sup := rfl
@[simp] theorem modPins_pins (g : Pins → Pins) (s : State) : (modPins g s).pins = g s.pins := rfl
@[simp] theorem modPins_sec (g : Pins → Pins) (s : State) : (modPins g s).sec = s.sec := rfl
@[simp] theorem modPins_dbg (g : Pins → Pins) (s : State) : (modPins g s).dbg = s.dbg := rfl
@[simp] theorem modPins_out (g : Pins → Pins) (s : State) : (modPins g s).out = s.out := rfl
@[simp] theorem modPins_frees (g : Pins → Pins) (s : State) : (modPins g s).frees = s.frees := rfl

/-! ### modDbg -/

@[simp] theorem modDbg_pending (g : Debug → Debug) (s : State) : (modDbg g s).pending = s.pending := rfl
@[simp] theorem modDbg_now (g : Debug → Debug) (s : State) : (modDbg g s).now = s.now := rfl
@[simp] theorem modDbg_regs (g : Debug → Debug) (s : State) : (modDbg g s).regs = s.regs := rfl
@[simp] theorem modDbg_latches (g : Debug → Debug) (s : State) : (modDbg g s).latches = s.latches := rfl
@[simp] theorem modDbg_mem (g : Debug → Debug) (s : State) : (modDbg g s).mem = s.mem := rfl
@[simp] theorem modDbg_blots (g : Debug → Debug) (s : State) : (modDbg g s).blots = s.blots := rfl
@[simp] theorem modDbg_uncorr (g : Debug → Debug) (s : State) : (modDbg g s).uncorr = s.uncorr := rfl
@[simp] theorem modDbg_host (g : Debug → Debug) (s : State) : (modDbg g s).host = s.host := rfl
@[simp] theorem modDbg_pace (g : Debug → Debug) (s : State) : (modDbg g s).pace = s.pace := rfl
@[simp] theorem modDbg_scribe (g : Debug → Debug) (s : State) : (modDbg g s).scribe = s.scribe := rfl
@[simp] theorem modDbg_fns (g : Debug → Debug) (s : State) : (modDbg g s).fns = s.fns := rfl
@[simp] theorem modDbg_scheds (g : Debug → Debug) (s : State) : (modDbg g s).scheds = s.scheds := rfl
@[simp] theorem modDbg_jobs (g : Debug → Debug) (s : State) : (modDbg g s).jobs = s.jobs := rfl
@[simp] theorem modDbg_clusters (g : Debug → Debug) (s : State) : (modDbg g s).clusters = s.clusters := rfl
@[simp] theorem modDbg_runners (g : Debug → Debug) (s : State) : (modDbg g s).runners = s.runners := rfl
@[simp] theorem modDbg_abase (g : Debug → Debug) (s : State) : (modDbg g s).abase = s.abase := rfl
@[simp] theorem modDbg_abtag (g : Debug → Debug) (s : State) : (modDbg g s).abtag = s.abtag := rfl
@[simp] theorem modDbg_mcores (g : Debug → Debug) (s : State) : (modDbg g s).mcores = s.mcores := rfl
@[simp] theorem modDbg_vruns (g : Debug → Debug) (s : State) : (modDbg g s).vruns = s.vruns := rfl
@[simp] theorem modDbg_sruns (g : Debug → Debug) (s : State) : (modDbg g s).sruns = s.sruns := rfl
@[simp] theorem modDbg_xfers (g : Debug → Debug) (s : State) : (modDbg g s).xfers = s.xfers := rfl
@[simp] theorem modDbg_written (g : Debug → Debug) (s : State) : (modDbg g s).written = s.written := rfl
@[simp] theorem modDbg_nmus (g : Debug → Debug) (s : State) : (modDbg g s).nmus = s.nmus := rfl
@[simp] theorem modDbg_atts (g : Debug → Debug) (s : State) : (modDbg g s).atts = s.atts := rfl
@[simp] theorem modDbg_hurdles (g : Debug → Debug) (s : State) : (modDbg g s).hurdles = s.hurdles := rfl
@[simp] theorem modDbg_hwaits (g : Debug → Debug) (s : State) : (modDbg g s).hwaits = s.hwaits := rfl
@[simp] theorem modDbg_towers (g : Debug → Debug) (s : State) : (modDbg g s).towers = s.towers := rfl
@[simp] theorem modDbg_stk (g : Debug → Debug) (s : State) : (modDbg g s).stk = s.stk := rfl
@[simp] theorem modDbg_regions (g : Debug → Debug) (s : State) : (modDbg g s).regions = s.regions := rfl
@[simp] theorem modDbg_farReady (g : Debug → Debug) (s : State) : (modDbg g s).farReady = s.farReady := rfl
@[simp] theorem modDbg_reports (g : Debug → Debug) (s : State) : (modDbg g s).reports = s.reports := rfl
@[simp] theorem modDbg_recs (g : Debug → Debug) (s : State) : (modDbg g s).recs = s.recs := rfl
@[simp] theorem modDbg_hub (g : Debug → Debug) (s : State) : (modDbg g s).hub = s.hub := rfl
@[simp] theorem modDbg_ports (g : Debug → Debug) (s : State) : (modDbg g s).ports = s.ports := rfl
@[simp] theorem modDbg_links (g : Debug → Debug) (s : State) : (modDbg g s).links = s.links := rfl
@[simp] theorem modDbg_coll (g : Debug → Debug) (s : State) : (modDbg g s).coll = s.coll := rfl
@[simp] theorem modDbg_sup (g : Debug → Debug) (s : State) : (modDbg g s).sup = s.sup := rfl
@[simp] theorem modDbg_pins (g : Debug → Debug) (s : State) : (modDbg g s).pins = s.pins := rfl
@[simp] theorem modDbg_sec (g : Debug → Debug) (s : State) : (modDbg g s).sec = s.sec := rfl
@[simp] theorem modDbg_dbg (g : Debug → Debug) (s : State) : (modDbg g s).dbg = g s.dbg := rfl
@[simp] theorem modDbg_out (g : Debug → Debug) (s : State) : (modDbg g s).out = s.out := rfl
@[simp] theorem modDbg_frees (g : Debug → Debug) (s : State) : (modDbg g s).frees = s.frees := rfl

/-! ### modPort -/

@[simp] theorem modPort_pending (p : Nat) (g : Port → Port) (s : State) : (modPort p g s).pending = s.pending := rfl
@[simp] theorem modPort_now (p : Nat) (g : Port → Port) (s : State) : (modPort p g s).now = s.now := rfl
@[simp] theorem modPort_regs (p : Nat) (g : Port → Port) (s : State) : (modPort p g s).regs = s.regs := rfl
@[simp] theorem modPort_latches (p : Nat) (g : Port → Port) (s : State) : (modPort p g s).latches = s.latches := rfl
@[simp] theorem modPort_mem (p : Nat) (g : Port → Port) (s : State) : (modPort p g s).mem = s.mem := rfl
@[simp] theorem modPort_blots (p : Nat) (g : Port → Port) (s : State) : (modPort p g s).blots = s.blots := rfl
@[simp] theorem modPort_uncorr (p : Nat) (g : Port → Port) (s : State) : (modPort p g s).uncorr = s.uncorr := rfl
@[simp] theorem modPort_host (p : Nat) (g : Port → Port) (s : State) : (modPort p g s).host = s.host := rfl
@[simp] theorem modPort_pace (p : Nat) (g : Port → Port) (s : State) : (modPort p g s).pace = s.pace := rfl
@[simp] theorem modPort_scribe (p : Nat) (g : Port → Port) (s : State) : (modPort p g s).scribe = s.scribe := rfl
@[simp] theorem modPort_fns (p : Nat) (g : Port → Port) (s : State) : (modPort p g s).fns = s.fns := rfl
@[simp] theorem modPort_scheds (p : Nat) (g : Port → Port) (s : State) : (modPort p g s).scheds = s.scheds := rfl
@[simp] theorem modPort_jobs (p : Nat) (g : Port → Port) (s : State) : (modPort p g s).jobs = s.jobs := rfl
@[simp] theorem modPort_clusters (p : Nat) (g : Port → Port) (s : State) : (modPort p g s).clusters = s.clusters := rfl
@[simp] theorem modPort_runners (p : Nat) (g : Port → Port) (s : State) : (modPort p g s).runners = s.runners := rfl
@[simp] theorem modPort_abase (p : Nat) (g : Port → Port) (s : State) : (modPort p g s).abase = s.abase := rfl
@[simp] theorem modPort_abtag (p : Nat) (g : Port → Port) (s : State) : (modPort p g s).abtag = s.abtag := rfl
@[simp] theorem modPort_mcores (p : Nat) (g : Port → Port) (s : State) : (modPort p g s).mcores = s.mcores := rfl
@[simp] theorem modPort_vruns (p : Nat) (g : Port → Port) (s : State) : (modPort p g s).vruns = s.vruns := rfl
@[simp] theorem modPort_sruns (p : Nat) (g : Port → Port) (s : State) : (modPort p g s).sruns = s.sruns := rfl
@[simp] theorem modPort_xfers (p : Nat) (g : Port → Port) (s : State) : (modPort p g s).xfers = s.xfers := rfl
@[simp] theorem modPort_written (p : Nat) (g : Port → Port) (s : State) : (modPort p g s).written = s.written := rfl
@[simp] theorem modPort_nmus (p : Nat) (g : Port → Port) (s : State) : (modPort p g s).nmus = s.nmus := rfl
@[simp] theorem modPort_atts (p : Nat) (g : Port → Port) (s : State) : (modPort p g s).atts = s.atts := rfl
@[simp] theorem modPort_hurdles (p : Nat) (g : Port → Port) (s : State) : (modPort p g s).hurdles = s.hurdles := rfl
@[simp] theorem modPort_hwaits (p : Nat) (g : Port → Port) (s : State) : (modPort p g s).hwaits = s.hwaits := rfl
@[simp] theorem modPort_towers (p : Nat) (g : Port → Port) (s : State) : (modPort p g s).towers = s.towers := rfl
@[simp] theorem modPort_stk (p : Nat) (g : Port → Port) (s : State) : (modPort p g s).stk = s.stk := rfl
@[simp] theorem modPort_regions (p : Nat) (g : Port → Port) (s : State) : (modPort p g s).regions = s.regions := rfl
@[simp] theorem modPort_farReady (p : Nat) (g : Port → Port) (s : State) : (modPort p g s).farReady = s.farReady := rfl
@[simp] theorem modPort_reports (p : Nat) (g : Port → Port) (s : State) : (modPort p g s).reports = s.reports := rfl
@[simp] theorem modPort_recs (p : Nat) (g : Port → Port) (s : State) : (modPort p g s).recs = s.recs := rfl
@[simp] theorem modPort_hub (p : Nat) (g : Port → Port) (s : State) : (modPort p g s).hub = s.hub := rfl
@[simp] theorem modPort_ports (p : Nat) (g : Port → Port) (s : State) : (modPort p g s).ports = kvMod (fun _ => {}) s.ports p g := rfl
@[simp] theorem modPort_links (p : Nat) (g : Port → Port) (s : State) : (modPort p g s).links = s.links := rfl
@[simp] theorem modPort_coll (p : Nat) (g : Port → Port) (s : State) : (modPort p g s).coll = s.coll := rfl
@[simp] theorem modPort_sup (p : Nat) (g : Port → Port) (s : State) : (modPort p g s).sup = s.sup := rfl
@[simp] theorem modPort_pins (p : Nat) (g : Port → Port) (s : State) : (modPort p g s).pins = s.pins := rfl
@[simp] theorem modPort_sec (p : Nat) (g : Port → Port) (s : State) : (modPort p g s).sec = s.sec := rfl
@[simp] theorem modPort_dbg (p : Nat) (g : Port → Port) (s : State) : (modPort p g s).dbg = s.dbg := rfl
@[simp] theorem modPort_out (p : Nat) (g : Port → Port) (s : State) : (modPort p g s).out = s.out := rfl
@[simp] theorem modPort_frees (p : Nat) (g : Port → Port) (s : State) : (modPort p g s).frees = s.frees := rfl

/-! ### emit -/

@[simp] theorem emit_pending (x : Output) (s : State) : (emit x s).pending = s.pending := rfl
@[simp] theorem emit_now (x : Output) (s : State) : (emit x s).now = s.now := rfl
@[simp] theorem emit_regs (x : Output) (s : State) : (emit x s).regs = s.regs := rfl
@[simp] theorem emit_latches (x : Output) (s : State) : (emit x s).latches = s.latches := rfl
@[simp] theorem emit_mem (x : Output) (s : State) : (emit x s).mem = s.mem := rfl
@[simp] theorem emit_blots (x : Output) (s : State) : (emit x s).blots = s.blots := rfl
@[simp] theorem emit_uncorr (x : Output) (s : State) : (emit x s).uncorr = s.uncorr := rfl
@[simp] theorem emit_host (x : Output) (s : State) : (emit x s).host = s.host := rfl
@[simp] theorem emit_pace (x : Output) (s : State) : (emit x s).pace = s.pace := rfl
@[simp] theorem emit_scribe (x : Output) (s : State) : (emit x s).scribe = s.scribe := rfl
@[simp] theorem emit_fns (x : Output) (s : State) : (emit x s).fns = s.fns := rfl
@[simp] theorem emit_scheds (x : Output) (s : State) : (emit x s).scheds = s.scheds := rfl
@[simp] theorem emit_jobs (x : Output) (s : State) : (emit x s).jobs = s.jobs := rfl
@[simp] theorem emit_clusters (x : Output) (s : State) : (emit x s).clusters = s.clusters := rfl
@[simp] theorem emit_runners (x : Output) (s : State) : (emit x s).runners = s.runners := rfl
@[simp] theorem emit_abase (x : Output) (s : State) : (emit x s).abase = s.abase := rfl
@[simp] theorem emit_abtag (x : Output) (s : State) : (emit x s).abtag = s.abtag := rfl
@[simp] theorem emit_mcores (x : Output) (s : State) : (emit x s).mcores = s.mcores := rfl
@[simp] theorem emit_vruns (x : Output) (s : State) : (emit x s).vruns = s.vruns := rfl
@[simp] theorem emit_sruns (x : Output) (s : State) : (emit x s).sruns = s.sruns := rfl
@[simp] theorem emit_xfers (x : Output) (s : State) : (emit x s).xfers = s.xfers := rfl
@[simp] theorem emit_written (x : Output) (s : State) : (emit x s).written = s.written := rfl
@[simp] theorem emit_nmus (x : Output) (s : State) : (emit x s).nmus = s.nmus := rfl
@[simp] theorem emit_atts (x : Output) (s : State) : (emit x s).atts = s.atts := rfl
@[simp] theorem emit_hurdles (x : Output) (s : State) : (emit x s).hurdles = s.hurdles := rfl
@[simp] theorem emit_hwaits (x : Output) (s : State) : (emit x s).hwaits = s.hwaits := rfl
@[simp] theorem emit_towers (x : Output) (s : State) : (emit x s).towers = s.towers := rfl
@[simp] theorem emit_stk (x : Output) (s : State) : (emit x s).stk = s.stk := rfl
@[simp] theorem emit_regions (x : Output) (s : State) : (emit x s).regions = s.regions := rfl
@[simp] theorem emit_farReady (x : Output) (s : State) : (emit x s).farReady = s.farReady := rfl
@[simp] theorem emit_reports (x : Output) (s : State) : (emit x s).reports = s.reports := rfl
@[simp] theorem emit_recs (x : Output) (s : State) : (emit x s).recs = s.recs := rfl
@[simp] theorem emit_hub (x : Output) (s : State) : (emit x s).hub = s.hub := rfl
@[simp] theorem emit_ports (x : Output) (s : State) : (emit x s).ports = s.ports := rfl
@[simp] theorem emit_links (x : Output) (s : State) : (emit x s).links = s.links := rfl
@[simp] theorem emit_coll (x : Output) (s : State) : (emit x s).coll = s.coll := rfl
@[simp] theorem emit_sup (x : Output) (s : State) : (emit x s).sup = s.sup := rfl
@[simp] theorem emit_pins (x : Output) (s : State) : (emit x s).pins = s.pins := rfl
@[simp] theorem emit_sec (x : Output) (s : State) : (emit x s).sec = s.sec := rfl
@[simp] theorem emit_dbg (x : Output) (s : State) : (emit x s).dbg = s.dbg := rfl
@[simp] theorem emit_out (x : Output) (s : State) : (emit x s).out = s.out ++ [x] := rfl
@[simp] theorem emit_frees (x : Output) (s : State) : (emit x s).frees = s.frees := rfl

/-! ### bumpFree -/

@[simp] theorem bumpFree_pending (s : State) : (bumpFree s).pending = s.pending := rfl
@[simp] theorem bumpFree_now (s : State) : (bumpFree s).now = s.now := rfl
@[simp] theorem bumpFree_regs (s : State) : (bumpFree s).regs = s.regs := rfl
@[simp] theorem bumpFree_latches (s : State) : (bumpFree s).latches = s.latches := rfl
@[simp] theorem bumpFree_mem (s : State) : (bumpFree s).mem = s.mem := rfl
@[simp] theorem bumpFree_blots (s : State) : (bumpFree s).blots = s.blots := rfl
@[simp] theorem bumpFree_uncorr (s : State) : (bumpFree s).uncorr = s.uncorr := rfl
@[simp] theorem bumpFree_host (s : State) : (bumpFree s).host = s.host := rfl
@[simp] theorem bumpFree_pace (s : State) : (bumpFree s).pace = s.pace := rfl
@[simp] theorem bumpFree_scribe (s : State) : (bumpFree s).scribe = s.scribe := rfl
@[simp] theorem bumpFree_fns (s : State) : (bumpFree s).fns = s.fns := rfl
@[simp] theorem bumpFree_scheds (s : State) : (bumpFree s).scheds = s.scheds := rfl
@[simp] theorem bumpFree_jobs (s : State) : (bumpFree s).jobs = s.jobs := rfl
@[simp] theorem bumpFree_clusters (s : State) : (bumpFree s).clusters = s.clusters := rfl
@[simp] theorem bumpFree_runners (s : State) : (bumpFree s).runners = s.runners := rfl
@[simp] theorem bumpFree_abase (s : State) : (bumpFree s).abase = s.abase := rfl
@[simp] theorem bumpFree_abtag (s : State) : (bumpFree s).abtag = s.abtag := rfl
@[simp] theorem bumpFree_mcores (s : State) : (bumpFree s).mcores = s.mcores := rfl
@[simp] theorem bumpFree_vruns (s : State) : (bumpFree s).vruns = s.vruns := rfl
@[simp] theorem bumpFree_sruns (s : State) : (bumpFree s).sruns = s.sruns := rfl
@[simp] theorem bumpFree_xfers (s : State) : (bumpFree s).xfers = s.xfers := rfl
@[simp] theorem bumpFree_written (s : State) : (bumpFree s).written = s.written := rfl
@[simp] theorem bumpFree_nmus (s : State) : (bumpFree s).nmus = s.nmus := rfl
@[simp] theorem bumpFree_atts (s : State) : (bumpFree s).atts = s.atts := rfl
@[simp] theorem bumpFree_hurdles (s : State) : (bumpFree s).hurdles = s.hurdles := rfl
@[simp] theorem bumpFree_hwaits (s : State) : (bumpFree s).hwaits = s.hwaits := rfl
@[simp] theorem bumpFree_towers (s : State) : (bumpFree s).towers = s.towers := rfl
@[simp] theorem bumpFree_stk (s : State) : (bumpFree s).stk = s.stk := rfl
@[simp] theorem bumpFree_regions (s : State) : (bumpFree s).regions = s.regions := rfl
@[simp] theorem bumpFree_farReady (s : State) : (bumpFree s).farReady = s.farReady := rfl
@[simp] theorem bumpFree_reports (s : State) : (bumpFree s).reports = s.reports := rfl
@[simp] theorem bumpFree_recs (s : State) : (bumpFree s).recs = s.recs := rfl
@[simp] theorem bumpFree_hub (s : State) : (bumpFree s).hub = s.hub := rfl
@[simp] theorem bumpFree_ports (s : State) : (bumpFree s).ports = s.ports := rfl
@[simp] theorem bumpFree_links (s : State) : (bumpFree s).links = s.links := rfl
@[simp] theorem bumpFree_coll (s : State) : (bumpFree s).coll = s.coll := rfl
@[simp] theorem bumpFree_sup (s : State) : (bumpFree s).sup = s.sup := rfl
@[simp] theorem bumpFree_pins (s : State) : (bumpFree s).pins = s.pins := rfl
@[simp] theorem bumpFree_sec (s : State) : (bumpFree s).sec = s.sec := rfl
@[simp] theorem bumpFree_dbg (s : State) : (bumpFree s).dbg = s.dbg := rfl
@[simp] theorem bumpFree_out (s : State) : (bumpFree s).out = s.out := rfl
@[simp] theorem bumpFree_frees (s : State) : (bumpFree s).frees = s.frees + 1 := rfl

/-! ### hostWrite -/

@[simp] theorem hostWrite_pending (b : Bool) (a : Nat) (l : List Byte) (s : State) : (hostWrite b a l s).pending = s.pending := rfl
@[simp] theorem hostWrite_now (b : Bool) (a : Nat) (l : List Byte) (s : State) : (hostWrite b a l s).now = s.now := rfl
@[simp] theorem hostWrite_regs (b : Bool) (a : Nat) (l : List Byte) (s : State) : (hostWrite b a l s).regs = s.regs := rfl
@[simp] theorem hostWrite_latches (b : Bool) (a : Nat) (l : List Byte) (s : State) : (hostWrite b a l s).latches = s.latches := rfl
@[simp] theorem hostWrite_mem (b : Bool) (a : Nat) (l : List Byte) (s : State) : (hostWrite b a l s).mem = s.mem := rfl
@[simp] theorem hostWrite_blots (b : Bool) (a : Nat) (l : List Byte) (s : State) : (hostWrite b a l s).blots = s.blots := rfl
@[simp] theorem hostWrite_uncorr (b : Bool) (a : Nat) (l : List Byte) (s : State) : (hostWrite b a l s).uncorr = s.uncorr := rfl
@[simp] theorem hostWrite_host (b : Bool) (a : Nat) (l : List Byte) (s : State) : (hostWrite b a l s).host = putMem a l s.host := rfl
@[simp] theorem hostWrite_pace (b : Bool) (a : Nat) (l : List Byte) (s : State) : (hostWrite b a l s).pace = s.pace := rfl
@[simp] theorem hostWrite_scribe (b : Bool) (a : Nat) (l : List Byte) (s : State) : (hostWrite b a l s).scribe = s.scribe := rfl
@[simp] theorem hostWrite_fns (b : Bool) (a : Nat) (l : List Byte) (s : State) : (hostWrite b a l s).fns = s.fns := rfl
@[simp] theorem hostWrite_scheds (b : Bool) (a : Nat) (l : List Byte) (s : State) : (hostWrite b a l s).scheds = s.scheds := rfl
@[simp] theorem hostWrite_jobs (b : Bool) (a : Nat) (l : List Byte) (s : State) : (hostWrite b a l s).jobs = s.jobs := rfl
@[simp] theorem hostWrite_clusters (b : Bool) (a : Nat) (l : List Byte) (s : State) : (hostWrite b a l s).clusters = s.clusters := rfl
@[simp] theorem hostWrite_runners (b : Bool) (a : Nat) (l : List Byte) (s : State) : (hostWrite b a l s).runners = s.runners := rfl
@[simp] theorem hostWrite_abase (b : Bool) (a : Nat) (l : List Byte) (s : State) : (hostWrite b a l s).abase = s.abase := rfl
@[simp] theorem hostWrite_abtag (b : Bool) (a : Nat) (l : List Byte) (s : State) : (hostWrite b a l s).abtag = s.abtag := rfl
@[simp] theorem hostWrite_mcores (b : Bool) (a : Nat) (l : List Byte) (s : State) : (hostWrite b a l s).mcores = s.mcores := rfl
@[simp] theorem hostWrite_vruns (b : Bool) (a : Nat) (l : List Byte) (s : State) : (hostWrite b a l s).vruns = s.vruns := rfl
@[simp] theorem hostWrite_sruns (b : Bool) (a : Nat) (l : List Byte) (s : State) : (hostWrite b a l s).sruns = s.sruns := rfl
@[simp] theorem hostWrite_xfers (b : Bool) (a : Nat) (l : List Byte) (s : State) : (hostWrite b a l s).xfers = s.xfers := rfl
@[simp] theorem hostWrite_written (b : Bool) (a : Nat) (l : List Byte) (s : State) : (hostWrite b a l s).written = s.written := rfl
@[simp] theorem hostWrite_nmus (b : Bool) (a : Nat) (l : List Byte) (s : State) : (hostWrite b a l s).nmus = s.nmus := rfl
@[simp] theorem hostWrite_atts (b : Bool) (a : Nat) (l : List Byte) (s : State) : (hostWrite b a l s).atts = s.atts := rfl
@[simp] theorem hostWrite_hurdles (b : Bool) (a : Nat) (l : List Byte) (s : State) : (hostWrite b a l s).hurdles = s.hurdles := rfl
@[simp] theorem hostWrite_hwaits (b : Bool) (a : Nat) (l : List Byte) (s : State) : (hostWrite b a l s).hwaits = s.hwaits := rfl
@[simp] theorem hostWrite_towers (b : Bool) (a : Nat) (l : List Byte) (s : State) : (hostWrite b a l s).towers = s.towers := rfl
@[simp] theorem hostWrite_stk (b : Bool) (a : Nat) (l : List Byte) (s : State) : (hostWrite b a l s).stk = s.stk := rfl
@[simp] theorem hostWrite_regions (b : Bool) (a : Nat) (l : List Byte) (s : State) : (hostWrite b a l s).regions = s.regions := rfl
@[simp] theorem hostWrite_farReady (b : Bool) (a : Nat) (l : List Byte) (s : State) : (hostWrite b a l s).farReady = s.farReady := rfl
@[simp] theorem hostWrite_reports (b : Bool) (a : Nat) (l : List Byte) (s : State) : (hostWrite b a l s).reports = s.reports := rfl
@[simp] theorem hostWrite_recs (b : Bool) (a : Nat) (l : List Byte) (s : State) : (hostWrite b a l s).recs = s.recs := rfl
@[simp] theorem hostWrite_hub (b : Bool) (a : Nat) (l : List Byte) (s : State) : (hostWrite b a l s).hub = s.hub := rfl
@[simp] theorem hostWrite_ports (b : Bool) (a : Nat) (l : List Byte) (s : State) : (hostWrite b a l s).ports = s.ports := rfl
@[simp] theorem hostWrite_links (b : Bool) (a : Nat) (l : List Byte) (s : State) : (hostWrite b a l s).links = s.links := rfl
@[simp] theorem hostWrite_coll (b : Bool) (a : Nat) (l : List Byte) (s : State) : (hostWrite b a l s).coll = s.coll := rfl
@[simp] theorem hostWrite_sup (b : Bool) (a : Nat) (l : List Byte) (s : State) : (hostWrite b a l s).sup = s.sup := rfl
@[simp] theorem hostWrite_pins (b : Bool) (a : Nat) (l : List Byte) (s : State) : (hostWrite b a l s).pins = s.pins := rfl
@[simp] theorem hostWrite_sec (b : Bool) (a : Nat) (l : List Byte) (s : State) : (hostWrite b a l s).sec = s.sec := rfl
@[simp] theorem hostWrite_dbg (b : Bool) (a : Nat) (l : List Byte) (s : State) : (hostWrite b a l s).dbg = s.dbg := rfl
@[simp] theorem hostWrite_out (b : Bool) (a : Nat) (l : List Byte) (s : State) : (hostWrite b a l s).out = s.out ++ [.busWrite a l.length b] := rfl
@[simp] theorem hostWrite_frees (b : Bool) (a : Nat) (l : List Byte) (s : State) : (hostWrite b a l s).frees = s.frees := rfl

end Sys2Proof.Machine
end

