-- ==== Sys2Proof/WellFormed.lean ====
section
/-!
DEFINITION. Which commands are well formed: an operand has the size and the form that its row gives it. Fixed bounds of operands are in their types.
-/
namespace Sys2Proof

/-- A stroke of the row's unit and opcode: bits [9:8] and [7:0] of the word (Table 5.7). -/
def strokeIs (unit op : Nat) (w : BitVec 128) : Bool :=
  decide ((w.extractLsb' 8 2).toNat = unit ∧ (w.extractLsb' 0 8).toNat = op)

/-- A register access of a size and an alignment that R64 allows. -/
def accessSize (addr size : Nat) : Bool := decide ((size = 4 ∨ size = 8) ∧ addr % size = 0)

/-- A BAR2 size (R78): a power of two from 1 to 512 GiB. -/
def barSize (gib : Nat) : Bool := decide (gib ≤ 512) && (List.range 10).any (fun i => decide (gib = 2 ^ i))

/-- A hurdle operation whose ARRIVE count fits COUNT (Table 5.13, R208): less than 2 ^ 32. -/
def hurdleOpOk : HurdleOp → Bool
  | .setTarget _ => true
  | .setMode m _ => decide (m < 8)
  | .reset => true
  | .arrive n => decide (n < 2 ^ 32)

/-- A unit of Table 4.10. -/
def unitKind (kind index : Nat) : Bool :=
  decide ((kind = 1 ∧ index < 64) ∨ (kind = 2 ∧ index < 16) ∨ (kind = 3 ∧ index < 12) ∨ (kind = 4 ∧ index < 2))

/-- Is a command well formed? -/
def wellFormed : Instr → Bool
  | .tick => true
  | .startLine => true
  | .clusterFirstIssue _ => true
  | .rampInterval _ => true
  | .rampRestart _ => true
  | .lapDone _ _ => true
  | .tickHeaderReceive _ => true
  | .paceInEdge _ => true
  | .paceMissing => true
  | .paceCountClear _ => true
  | .registerWrite _ addr size _ => accessSize addr size
  | .blkLock _ block _ => decide (block % 0x1000 = 0)
  | .loReadLatch _ addr size => accessSize addr size
  | .afBar2BaseApply _ => true
  | .warmReset => true
  | .sqDoorbell _ _ _ => true
  | .cqHeadDoorbell _ _ _ => true
  | .commandDispatch => true
  | .commandWaitRelease => true
  | .firmwareInboxServe => true
  | .statusReplyWrite => true
  | .cqCoalTimeout _ _ _ => true
  | .nop _ => true
  | .createQueue _ _ => true
  | .deleteQueue _ _ => true
  | .flushQueue _ _ => true
  | .viCreate _ _ payload => decide (payload.length = 64)
  | .viDestroy _ _ => true
  | .viReset _ _ => true
  | .viQuery _ _ _ => true
  | .loadSchedule _ _ _ => true
  | .unloadSchedule _ _ => true
  | .startJob _ _ _ _ _ => true
  | .launchLap _ _ _ => true
  | .stopJob _ _ => true
  | .haltAtLap _ _ _ => true
  | .hurdleArrive _ _ _ => true
  | .hurdleWait _ _ => true
  | .copy _ _ _ _ _ => true
  | .fill _ _ _ _ => true
  | .retiredPagesRead _ _ _ => true
  | .kvPoolSet _ _ _ _ => true
  | .kvSeqCreate _ _ _ => true
  | .kvSeqFork _ _ _ _ => true
  | .kvSeqFree _ _ => true
  | .kvSpillPolicy _ _ _ _ _ => true
  | .shardExport _ _ _ _ _ => true
  | .shardImport _ _ _ => true
  | .seedSet _ _ _ => true
  | .configBaseLoad _ _ _ _ => true
  | .overlayApply _ _ _ _ _ => true
  | .overlayRemove _ _ _ => true
  | .configRead _ _ _ => true
  | .telemetrySnapshot _ _ _ => true
  | .countersRead _ _ _ => true
  | .blotterRead _ _ _ => true
  | .lifeRecordRead _ _ _ => true
  | .powerCapSet _ _ _ => true
  | .powerPlanSet _ _ _ _ _ _ => true
  | .park _ => true
  | .unpark _ => true
  | .unitOut _ _ _ => true
  | .unitIn _ _ _ => true
  | .unitTestDone kind index _ _ => unitKind kind index
  | .marchRun _ _ _ _ _ => true
  | .portRetrain _ _ => true
  | .fwStage _ _ _ => true
  | .fwSwitch _ _ => true
  | .timeSet _ _ => true
  | .viFlr _ => true
  | .afFlr => true
  | .viResetDrainDone _ => true
  | .viScrubDone _ => true
  | .viQ0Enable _ _ => true
  | .viCountClear _ _ => true
  | .quillFetch _ => true
  | .strokeComplete _ _ => true
  | .commonNop _ w => strokeIs 3 0x00 w
  | .lapEnd _ w => strokeIs 3 0x01 w
  | .delay _ w => strokeIs 3 0x02 w
  | .relayFire _ _ _ => true
  | .relayComplete _ _ => true
  | .msetb _ w => strokeIs 0 0x08 w
  | .mlda _ w => strokeIs 0 0x10 w
  | .mlds _ w => strokeIs 0 0x11 w
  | .mpass _ w _ => strokeIs 0 0x20 w
  | .macl _ w => strokeIs 0 0x30 w
  | .mwb _ w => strokeIs 0 0x40 w
  | .weightRowRequest _ _ => true
  | .weightRowArrive _ _ _ => true
  | .mcCountClear _ _ _ => true
  | .vadd _ w _ => strokeIs 1 0x01 w
  | .vsub _ w _ => strokeIs 1 0x02 w
  | .vmul _ w _ => strokeIs 1 0x03 w
  | .vfma _ w _ => strokeIs 1 0x04 w
  | .vmax _ w _ => strokeIs 1 0x05 w
  | .vmin _ w _ => strokeIs 1 0x06 w
  | .vabs _ w _ => strokeIs 1 0x07 w
  | .vneg _ w _ => strokeIs 1 0x08 w
  | .vand _ w _ => strokeIs 1 0x09 w
  | .vor _ w _ => strokeIs 1 0x0A w
  | .vxor _ w _ => strokeIs 1 0x0B w
  | .vshift _ w _ => strokeIs 1 0x0C w
  | .vcmp _ w _ => strokeIs 1 0x0D w
  | .vsel _ w _ => strokeIs 1 0x0E w
  | .vrot _ w _ => strokeIs 1 0x0F w
  | .vcvt _ w _ => strokeIs 1 0x10 w
  | .vrgen _ w _ => strokeIs 1 0x11 w
  | .vexp _ w _ => strokeIs 1 0x20 w
  | .vlog _ w _ => strokeIs 1 0x21 w
  | .vrsq _ w _ => strokeIs 1 0x22 w
  | .vrcp _ w _ => strokeIs 1 0x23 w
  | .vtanh _ w _ => strokeIs 1 0x24 w
  | .vrsum _ w _ => strokeIs 1 0x30 w
  | .vrmax _ w _ => strokeIs 1 0x31 w
  | .vrmin _ w _ => strokeIs 1 0x32 w
  | .vperm _ w _ => strokeIs 1 0x38 w
  | .vbcast _ w _ => strokeIs 1 0x39 w
  | .vld _ w _ => strokeIs 1 0x40 w
  | .vst _ w _ => strokeIs 1 0x41 w
  | .vgath _ w _ => strokeIs 1 0x42 w
  | .vscat _ w _ => strokeIs 1 0x43 w
  | .vsetb _ w => strokeIs 1 0x50 w
  | .vsetk _ w => strokeIs 1 0x51 w
  | .vsetc _ w => strokeIs 1 0x52 w
  | .vsetm _ w => strokeIs 1 0x53 w
  | .vadamw _ w _ => strokeIs 1 0x60 w
  | .vsgdm _ w _ => strokeIs 1 0x61 w
  | .vcCountClear _ _ _ => true
  | .scCountClear _ _ _ => true
  | .salu _ w _ => strokeIs 2 0x01 w
  | .sli _ w => strokeIs 2 0x02 w
  | .sget _ w => strokeIs 2 0x03 w
  | .sld _ w _ => strokeIs 2 0x10 w
  | .sst _ w _ => strokeIs 2 0x11 w
  | .spush _ w _ => strokeIs 2 0x12 w
  | .sidx _ w _ => strokeIs 2 0x13 w
  | .ssetb _ w _ => strokeIs 2 0x14 w
  | .sskip _ w _ => strokeIs 2 0x20 w
  | .sloop _ w _ => strokeIs 2 0x21 w
  | .sarrive _ w _ => strokeIs 2 0x30 w
  | .swait _ w _ => strokeIs 2 0x31 w
  | .sreset _ w => strokeIs 2 0x32 w
  | .shread _ w => strokeIs 2 0x33 w
  | .shtarget _ w _ => strokeIs 2 0x34 w
  | .sxfer _ w _ => strokeIs 2 0x40 w
  | .transferComplete _ => true
  | .hurdleOpApply _ ops => ops.all hurdleOpOk
  | .hdlCtrlReset _ _ => true
  | .hdlCtrlArrive _ _ => true
  | .hurdlePacket _ => true
  | .bankAccess _ _ _ _ => true
  | .sramPatrolRow _ _ => true
  | .bankWakeDone _ _ => true
  | .gets _ _ _ _ => true
  | .getx _ _ _ _ _ => true
  | .writeBack _ _ _ _ => true
  | .homeExternalRead _ _ _ _ => true
  | .homeExternalWrite _ _ _ _ _ _ => true
  | .recallS _ _ _ => true
  | .recallInv _ _ _ => true
  | .invLine _ _ _ => true
  | .recallNack _ _ _ => true
  | .wbAck _ _ _ => true
  | .lineGrantArrive _ _ _ => true
  | .marchStart _ _ _ => true
  | .marchDone _ _ => true
  | .cluBankClear _ _ => true
  | .twrProtClear _ _ => true
  | .twrConfClear _ _ => true
  | .dirCountClear _ _ => true
  | .pageAccess _ _ _ _ _ _ => true
  | .regionConvert _ => true
  | .stackPatrolPass _ _ => true
  | .mscEccClear _ _ => true
  | .mscSrcClear _ _ => true
  | .farAccess _ _ _ _ _ _ => true
  | .cxlCompletionTimeout _ _ _ => true
  | .cxlDown _ _ => true
  | .cxlEvent _ _ _ => true
  | .cxlCountClear _ _ => true
  | .nmuLaunch _ _ => true
  | .nmuNop _ _ _ => true
  | .nmuEnd _ _ _ => true
  | .nmuYield _ _ _ _ _ => true
  | .nmuLoop _ _ _ => true
  | .saddi _ _ _ => true
  | .sadd _ _ _ => true
  | .sshl _ _ _ => true
  | .nopen _ _ _ => true
  | .nclr _ _ _ => true
  | .nwb _ _ _ => true
  | .nld _ _ _ => true
  | .nldi _ _ _ => true
  | .nst _ _ _ => true
  | .nres _ _ _ => true
  | .nress _ _ _ => true
  | .nmuVadd _ _ _ => true
  | .nmuVsub _ _ _ => true
  | .nmuVmul _ _ _ => true
  | .nmuVfma _ _ _ => true
  | .nmuVmax _ _ _ => true
  | .vfmas _ _ _ => true
  | .vmuls _ _ _ => true
  | .vimm _ _ _ => true
  | .vtail _ _ _ => true
  | .hsum _ _ _ => true
  | .hmax _ _ _ => true
  | .hexp _ _ _ => true
  | .nmuTransferDone _ _ _ _ _ => true
  | .nmuStackClear _ _ => true
  | .nmuCountClear _ _ _ => true
  | .attLaunch _ _ => true
  | .nmuCompletion _ _ => true
  | .kvAppend _ => true
  | .pageRequest _ => true
  | .kvFetch _ => true
  | .kvDecode _ => true
  | .kvFill _ => true
  | .attCountClear _ _ => true
  | .attLabFlush _ _ => true
  | .collectiveFire => true
  | .collPacket _ => true
  | .collectiveComplete => true
  | .colCountClear _ _ => true
  | .flitReceive _ f _ => decide (f.bytes.length = 5140)
  | .portNoFlitTimeout _ _ => true
  | .portStateDone _ _ => true
  | .portStateTimeout _ => true
  | .berWindow _ => true
  | .ident _ => true
  | .topo _ => true
  | .roleReq _ => true
  | .roleGrant _ => true
  | .roleCancel _ => true
  | .peerLost _ => true
  | .tickMarker _ _ => true
  | .markerMissing => true
  | .fjlCountClear _ _ => true
  | .fjsCountClear _ => true
  | .controlWindow w => decide (w.domains.length = 96 ∧ w.volts.length = 96 ∧ w.iin.length = 96 ∧ w.iout.length = 96 ∧ w.bubbles.length = 64 ∧ w.held.length = 64)
  | .vfTransition _ => true
  | .voltageSettled _ _ => true
  | .droopCrossing _ => true
  | .droopRelease _ _ => true
  | .pmbusPoll _ => true
  | .pmbusGain _ _ => true
  | .rinWindow _ estimates => decide (estimates.length = 4)
  | .vrAlert _ _ _ => true
  | .vrAlertRelease _ => true
  | .sensorConversion _ _ _ => true
  | .thmTrigger _ => true
  | .tripSample _ => true
  | .tripRestart _ => true
  | .coolantPoll readings => decide (readings.length ≤ 4)
  | .rthHour _ => true
  | .thermalCycleSecond _ _ => true
  | .thmRthReset _ => true
  | .thmCountClear _ => true
  | .pwrCountClear _ => true
  | .cluPwrClear _ _ => true
  | .blotterAccept => true
  | .recordClose _ => true
  | .bltCountClear _ => true
  | .outOfService => true
  | .hubWdtKick _ _ => true
  | .watchdog _ => true
  | .fwReady => true
  | .fwSwitchTimeout => true
  | .lifeHour _ _ _ => true
  | .lifeDay => true
  | .coldBringup => true
  | .bringupStage _ => true
  | .farScrubDone _ _ => true
  | .brgRecGo _ => true
  | .secLcCtrl _ => true
  | .tamper _ => true
  | .getVersion _ => true
  | .getCapabilities _ => true
  | .negotiateAlgorithms _ => true
  | .getDigests _ => true
  | .getCertificate _ => true
  | .challenge _ => true
  | .getMeasurements _ => true
  | .mctpControl _ => true
  | .setEventReceiver _ => true
  | .pldmSensorRead _ => true
  | .vpkgUndervoltage => true
  | .vpkgRestart _ => true
  | .vauxLoss => true
  | .pinReadback _ _ => true
  | .pinOffWrite _ => true
  | .pinCountClear _ => true
  | .dbgToken token => decide (token.length = 320)
  | .dbgAccess _ => true
  | .dbgAccessDone => true
  | .dbgHalt => true
  | .dbgResume => true
  | .extest _ => true
  | .samplePreload _ => true
  | .cluTrcClear _ _ => true
  | .cluPerfClear _ _ => true
  | .bar2Access _ _ _ _ => true
  | .resizableBarSelect _ gib => barSize gib
  | .vfEnableSet _ => true
  | .cxlLinkTrained _ _ _ _ => true
  | .refresh _ _ _ _ => true
  | .verificationFail => true

end Sys2Proof
end

