-- ==== Sys2Proof/Tests/Slice0.lean ====
section
/-!
SUPPORT. Tests on concrete states, by evaluation: what well-formedness refuses, a witness for the hypotheses of every statement clause, and single steps with
their results taken from the spec's examples and tables.
-/
namespace Sys2Proof.Tests
open Sys2Proof.Machine
set_option maxRecDepth 20000
set_option Elab.async false

/-! ### Helpers -/

abbrev tS : State := State.reset
def tH (fn : Fin 65 := 0) : CmdHdr := { fn := fn, pair := 0, tag := 7#32, noReply := false, arrive := none }
def tR (k : CoreKind) (core : Fin 16 := 0) : RunnerRef := { cluster := 0, kind := k, core := core, runner := 0, waited := [] }
/-- A stroke word of a unit and an opcode, and of other bits. -/
def tW (unit op : Nat) (rest : Nat := 0) : StrokeWord := BitVec.ofNat 128 (op + 256 * unit + rest)
def tSched : Schedule :=
  { id := 1, fn := 0, sha := 0, shapeKind := 3, counts := [1], det := false, system := false, lapCount := 4, floorStep := 16, stretch := 0,
    logical := 1, map := [0], streams := [], laps := [], programs := [], batons := [], relays := [], inits := [], tensors := [], collectives := [],
    plan := none }
def tJob : Job := { fn := 0, sched := 1, system := false, stepped := false, laps := 4, running := true, hdr := tH }
/-- A running job on cluster 0, whose cores issue. -/
def tRun : State := modCluster 0 (fun c => { c with started := true }) { tS with scheds := [tSched], jobs := [tJob] }
/-- The same with strokes at the head of a runner. -/
def tAt (k : Nat) (q : List StrokeWord) : State := modRunner k (fun r => { r with queue := q, busy := true }) tRun

/-- Fields of registers set, as offset, lowest bit, width and value. -/
def tReg (l : List (Nat × Nat × Nat × Nat)) (s : State := tS) : State := l.foldl (fun s x => setF x.1 x.2.1 x.2.2.1 x.2.2.2 s) s

/-! ### What well-formedness refuses -/

theorem test_wf_refuses_register_sizes : wellFormed (.registerWrite .af 2 4 0) = false ∧ wellFormed (.registerWrite .af 4 8 0) = false ∧
    wellFormed (.loReadLatch .hub 0 2) = false ∧ wellFormed (.loReadLatch .hub 8 8) = true := by decide +kernel
theorem test_wf_refuses_a_block_off_its_base : wellFormed (.blkLock .af 0x1004 1) = false := by decide +kernel
theorem test_wf_refuses_a_short_vi_payload : wellFormed (.viCreate tH 1 [0#8]) = false := by decide +kernel
theorem test_wf_refuses_units_of_no_kind : wellFormed (.unitTestDone 1 64 [] []) = false ∧ wellFormed (.unitTestDone 5 0 [] []) = false ∧
    wellFormed (.unitTestDone 4 1 [] []) = true := by decide +kernel
theorem test_wf_refuses_another_stroke : wellFormed (.vadd (tR .v) (tW 1 2) none) = false ∧ wellFormed (.vadd (tR .v) (tW 0 1) none) = false ∧
    wellFormed (.mpass (tR .m) (tW 0 0x21) []) = false ∧ wellFormed (.salu (tR .s) (tW 2 1) none) = true := by decide +kernel
theorem test_wf_refuses_hurdle_counts : wellFormed (.hurdleOpApply 0 [.arrive (2 ^ 32)]) = false ∧ wellFormed (.hurdleOpApply 0 [.setMode 8 false]) = false := by decide +kernel
theorem test_wf_refuses_a_short_flit : wellFormed (.flitReceive 0 { bytes := [], errors := [] } 0) = false := by decide +kernel
theorem test_wf_refuses_a_short_window : wellFormed (.controlWindow ⟨[], 0, [], [], [], [], []⟩) = false := by decide +kernel
theorem test_wf_refuses_lists_of_estimates : wellFormed (.rinWindow 0 [none]) = false ∧ wellFormed (.coolantPoll [none, none, none, none, none]) = false := by decide +kernel
theorem test_wf_refuses_a_short_token : wellFormed (.dbgToken [0#8]) = false := by decide +kernel
theorem test_wf_refuses_bar_sizes : wellFormed (.resizableBarSelect 0 3) = false ∧ wellFormed (.resizableBarSelect 0 1024) = false ∧ wellFormed (.resizableBarSelect 0 512) = true := by decide +kernel

/-! ### Witnesses: the queue and the statements on maps and operations -/

theorem wit_step : ({ tS with pending := [.tick] } : State).pending = .tick :: [] := rfl
theorem wit_idle : tS.pending = [] ∧ tS.canonical = true := by decide +kernel
theorem wit_lanes : vOn tS 128 { vFields (tW 1 1) with ty := 0 } 0 = true := by decide +kernel
theorem wit_integer_lanes : (0x80000000 : Nat) < 2 ^ laneBits 3 ∧ (0xFFFF : Nat) < 2 ^ laneBits 4 := by decide +kernel
theorem wit_unblotted_granule : badPage tS 64 = false ∧ kvGet (fun _ => false) tS.uncorr 1 = false := by decide +kernel

/-! ### Witnesses: strokes -/

/-- A V-core stroke of each row may issue at the head of its runner. -/
theorem wit_vector_strokes : ∀ op ∈ [0x01, 0x02, 0x03, 0x04, 0x05, 0x06, 0x07, 0x08, 0x09, 0x0A, 0x0B, 0x0C, 0x0D, 0x0E, 0x0F, 0x10, 0x11, 0x20, 0x21,
    0x22, 0x23, 0x24, 0x30, 0x31, 0x32, 0x38, 0x39, 0x40, 0x41, 0x42, 0x43, 0x50, 0x51, 0x52, 0x53, 0x60, 0x61],
    vMayIssue op (tR .v) (tW 1 op) (tAt (refNo (tR .v)) [tW 1 op]) = true := by decide +kernel
theorem wit_matrix_strokes : ∀ op ∈ [0x08, 0x10, 0x11, 0x20, 0x30, 0x40], mMayIssue op (tR .m) (tW 0 op) (tAt (refNo (tR .m)) [tW 0 op]) = true := by decide +kernel
theorem wit_scalar_strokes : ∀ op ∈ [0x01, 0x02, 0x03, 0x10, 0x11, 0x12, 0x13, 0x14, 0x20, 0x21, 0x30, 0x31, 0x32, 0x33, 0x34, 0x40],
    sMayIssue op (tR .s) (tW 2 op) (tAt (refNo (tR .s)) [tW 2 op]) = true := by decide +kernel
theorem wit_common_strokes : ∀ op ∈ [0x00, 0x01, 0x02], mayIssue 3 op (tR .s) (tW 3 op) (tAt (refNo (tR .s)) [tW 3 op]) = true := by decide +kernel
theorem wit_vector_setup : vMayIssue 0x51 (tR .v) (tW 1 0x51) (tAt (refNo (tR .v)) [tW 1 0x51]) = true ∧ sf (tW 1 0x51) 34 2 = 0 ∧
    vMayIssue 0x51 (tR .v) (tW 1 0x51 (2 ^ 34)) (tAt (refNo (tR .v)) [tW 1 0x51 (2 ^ 34)]) = true ∧ sf (tW 1 0x51 (2 ^ 34)) 34 2 = 1 := by decide +kernel
theorem wit_vector_memory : (vMem (tW 1 0x40)).chan = false ∧ (vMem (tW 1 0x41)).aop = 0 ∧ (vMem (tW 1 0x42)).idxChan = false ∧
    vAddr (tAt (refNo (tR .v)) [tW 1 0x40]) (refNo (tR .v)) (vMem (tW 1 0x40)) % 64 = 0 := by decide +kernel
theorem wit_matrix : sb (tW 0 0x10) 80 = false ∧ sb (tW 0 0x30 (2 ^ 80)) 80 = true ∧ sf (tW 0 0x40) 80 2 = 0 ∧
    mMayIssue 0x30 (tR .m) (tW 0 0x30 (2 ^ 80)) (tAt (refNo (tR .m)) [tW 0 0x30 (2 ^ 80)]) = true := by decide +kernel
theorem wit_scalar_memory : (sFields (tW 2 0x10)).func = 0 ∧ sAddr (tAt (refNo (tR .s)) [tW 2 0x10]) (refNo (tR .s)) (tW 2 0x10) % 8 = 0 ∧
    sxTag (tAt (refNo (tR .s)) [tW 2 0x20]) (refNo (tR .s)) 0 = false ∧ opBTag (tAt (refNo (tR .s)) [tW 2 0x20]) (refNo (tR .s)) (tW 2 0x20) = false := by decide +kernel
/-- A push into an empty ring of a schedule with a baton. -/
theorem wit_push : (spushEffect (refNo (tR .s)) (tW 2 0x12) { tAt (refNo (tR .s)) [tW 2 0x12] with
      scheds := [{ tSched with batons := [⟨0, 0, 8192, 0⟩] }] }).isSome = true := by decide +kernel
/-- SLOOP over one stroke, twice. -/
def tLoop : StrokeWord := tW 2 0x21 (2 ^ 47 + (2 + 2 ^ 16) * 2 ^ 64)
theorem wit_loop : sMayIssue 0x21 (tR .s) tLoop (tAt (refNo (tR .s)) [tLoop, tW 2 0x02]) = true ∧ (sFields tLoop).immb = true ∧
    (sFields tLoop).imm % 2 ^ 16 = 2 ∧ (sFields tLoop).imm / 2 ^ 16 % 32 = 1 := by decide +kernel
theorem wit_hurdle_strokes :
    strokeHurdle (tAt (refNo (tR .s)) [tW 2 0x30]) (refNo (tR .s)) (tW 2 0x30) = some 0 ∧
    (getHurdle tRun 0).mode ≠ 1 ∧ (getHurdle tRun 0).released 0 = false ∧ (sFields (tW 2 0x31)).func % 2 = 0 ∧
    (getHurdle { tRun with hurdles := [(0, { count := 1 })] } 0).released 0 = true ∧
    strokeHurdle (tAt (refNo (tR .s)) [tW 2 0x30 (8000 * 2 ^ 64)]) (refNo (tR .s)) (tW 2 0x30 (8000 * 2 ^ 64)) = none ∧
    sMayIssue 0x30 (tR .s) (tW 2 0x30 (8000 * 2 ^ 64)) (tAt (refNo (tR .s)) [tW 2 0x30 (8000 * 2 ^ 64)]) = true := by decide +kernel

/-! ### Witnesses: near-memory units -/

def tL : NLaunch := { fn := 0, entry := 0, pblot := false, tag := 5, params := [], input := [], prog := 1 }
def tN (op : Nat) (rest : Nat := 0) : DWord := BitVec.ofNat 64 (op * 2 ^ 58 + rest)
def tE : NmuErr := ⟨0, none, 1, 0, 0⟩
/-- Unit 0 of floor stack 0 running a program of these words, with sensors of the stacks in order. -/
def tNmu (ws : List DWord) (r : NRun := { launch := tL }) (s : State := tS) : State :=
  { s with nmus := [(0, { run := some r })], atts := [(0, { progs := [{ first := 0, words := ws, sha := 1, used := 0 }] })] }
theorem wit_nmu_words : ∀ op ∈ [0x00, 0x01, 0x02, 0x08, 0x09, 0x0A, 0x10, 0x11, 0x12, 0x13, 0x14, 0x15, 0x16, 0x17, 0x20, 0x21, 0x22, 0x23, 0x24, 0x25, 0x26,
    0x27, 0x28, 0x30, 0x31, 0x32], nmuReady op 0 0 (tN op) { launch := tL } (tNmu [tN op]) = true := by decide +kernel
theorem wit_nmu_loop : nmuReady 0x03 0 0 (tN 0x03 (2 ^ 50 + 2)) { launch := tL } (tNmu [tN 0x03 (2 ^ 50 + 2), tN 0]) = true ∧ nImm (tN 0x03 (2 ^ 50 + 2)) = 2 := by decide +kernel
theorem wit_nmu_yield : wordRun 0x02 0 0 (tN 0x02) tE { launch := tL } (tNmu [tN 0x02]) = { launch := tL } ∧
    (wordRun 0x02 0 0 (tN 0x02) tE { launch := tL, ended := true } (tNmu [tN 0x02] { launch := tL, ended := true })).ended = true := by decide +kernel
theorem wit_nmu_pages : (lamPage tS 0 0 0 0).isSome = true ∧ mayEnter tS 0 0 0 = true ∧ lamOf { launch := tL } (tN 0x10) = 0 ∧
    (lamPage tS 0 0 0 0x0BFFF800).isSome = true ∧ lamPage tS 0 0 0 0x0C000000 = none := by decide +kernel
theorem wit_nmu_latch : let r : NRun := { launch := tL, latch0 := { valid := true, data := List.replicate 2048 0#8 } }
    (wordRun 0x12 0 0 (tN 0x12) tE r (tNmu [tN 0x12] r)).latch0.valid = true := by decide +kernel
theorem wit_nmu_lanes : nLat (tN 0x20) = false ∧ nImm (tN 0x17) % 2 = 0 := by decide +kernel
theorem wit_nmu_launch : let s : State := { tS with nmus := [(0, { arriving := [tL] })] }
    (getNmu s 0 0).queued = none ∧ (getNmu s 0 0).run = none ∧ (getNmu s 0 0).arriving = [tL] ∧ (getNmu s 0 0).done = [] ∧ nmuBad s 0 0 = false ∧
    nmuBad (setB (nmuBlk 0 + 0x100) 0 true s) 0 0 = true := by decide +kernel
def tDone : NDone := { fn := 0, rb := 0, tag := 5, status := 0, slots := [], slotBlots := [], res0 := 0, res1 := 0, resBlot := 0, wblots := 0 }
def tReq (kind : WalkKind) (desc : List Byte) : WalkReq := { fn := 0, runner := 0, word := 0, desc := desc, blot := false, kind := kind }
def tDec : Decode := { req := tReq .attention [], pos := 0, fmt := 0, hkv := 1, hdim := 64, blocks := [⟨0, 0, 64, false, false⟩], heads := [⟨0, 0, [], false⟩] }
theorem wit_nmu_completion : let s : State := { tS with nmus := [(0, { done := [tDone] })] }
    (getNmu s 0 0).done = [tDone] ∧ findFlying s 5 = none ∧
    (findFlying { s with atts := [(0, { decodes := [{ tDec with flying := [(5, 0, false)] }] })] } 5).isSome = true := by decide +kernel
theorem wit_nmu_transfer : let r : NRun := { launch := tL, order := [0], latch0 := { busy := 1 } }
    (getNmu (tNmu [] r) 0 0).run = some r ∧ (getNmu (tNmu [] { r with ending := true }) 0 0).run = some { r with ending := true } := by decide +kernel

/-! ### Witnesses: Scribe and its commands -/

def tPair : QPair := { sqBase := 0, cqBase := 4096, slots := 64, entries := 64, sqDev := true, cqDev := true, vector := 0, coalCount := 1, coalTime := 1 }
/-- The AF with queue pair 1, of epoch 1, some commands ahead. -/
def tQ (p : QPair := tPair) : State := setEpochs 0 1 1 1 (setPair 0 1 p tS)
theorem wit_doorbells : fnCreated (tQ) 0 = true ∧ resetting (tQ) 0 = false ∧ getPair (tQ) 0 1 = some tPair ∧ fld 0x10000#32 16 16 = sqEpoch (tQ) 0 1 ∧
    fld 0x10000#32 16 16 = cqEpoch (tQ) 0 1 ∧ fld 0x20000#32 16 16 ≠ sqEpoch (tQ) 0 1 ∧
    (fld 0x1003F#32 0 16 + 64 - 0) % 64 + (0 + 64 - 0) % 64 ≤ 63 ∧
    63 < (fld 0x10000#32 0 16 + 64 - 1) % 64 + (1 + 64 - 0) % 64 ∧
    getB (tReg [(viPage 0 + 0x94, 0, 1, 1)]) (viPage 0 + 0x94) 0 = true ∧ fld 0x100#32 0 1 = 0 := by decide +kernel
theorem wit_accepted : (∀ op ∈ [0x00, 0x03, 0x10, 0x11, 0x12, 0x13, 0x14, 0x15, 0x16, 0x17, 0x20, 0x21, 0x22, 0x30, 0x31, 0x32, 0x33, 0x34, 0x40, 0x41, 0x42, 0x50,
      0x51, 0x52, 0x53, 0x60, 0x61, 0x62, 0x63, 0x70, 0x71, 0x72, 0x73, 0x80, 0x81, 0x82, 0x83, 0x84, 0x85, 0x86, 0x01, 0x02, 0x04, 0x05, 0x06, 0x07],
      accepted tS (tH) op []) := by unfold accepted; decide +kernel
theorem wit_turned_away : ∀ op ∈ [0x10, 0x12, 0x30, 0x50, 0x72, 0x80], runsNow (tReg [(0x200, 31, 1, 1)]) (tH) op [] = true ∧
    turnedAway (tReg [(0x200, 31, 1, 1)]) (tH).fn (tH).pair op = some stOutOfService := by decide +kernel
/-- A command in Scribe's hands runs with the parameters of its bytes (R159). -/
theorem wit_parameters : let c : Cmd := { h := tH, op := 0x11, raw := List.replicate 16 0#8 ++ [9#8] ++ List.replicate 47 0#8 }
    runsNow { tS with scribe := { started := [c] } } (tH) 0x11 [9] = true ∧ runsNow { tS with scribe := { started := [c] } } (tH) 0x11 [8] = false := by decide +kernel
def tQArgs : QueueArgs := ⟨0, 4096, 64, 64, 1, 0, 0, 1, 1⟩
theorem wit_queue_commands : queueOk 0 tQArgs = true ∧ getPair tS 0 1 = none ∧ (getPair (tQ) 0 1).isSome = true ∧ hurdleAllowed tS 0 0 = true ∧ hurdleAllowed tS 0 7679 = true := by decide +kernel
/-- A NOP (and a NOP with WAIT and with ARRIVE) at slot 0 of the queue, in device memory. -/
def tSlot (flags arrive : Nat) : State :=
  (fun s : State => { s with scribe := { s.scribe with consuming := true }, mem := (if flags = 0 then [] else [(1, BitVec.ofNat 8 flags)]) ++ (if arrive = 0 then [] else [(3, BitVec.ofNat 8 arrive)]) ++ [(10, 1#8)] })
    (tReg [(domReg 84, 31, 1, 1)] (setEpochs 0 1 1 1 (setPair 0 1 { tPair with tail := 1 } tS)))
theorem wit_dispatch : ((pickQueue (tSlot 0 0)).map (fun x => (x.1, (headerCheck (tSlot 0 0) 0 1 x.2.2), bit (field x.2.2 1 1) 2))) = some (1, none, false) ∧
    ((pickQueue (tSlot 4 0)).map (fun x => (x.1, (headerCheck (tSlot 4 0) 0 1 x.2.2), bit (field x.2.2 1 1) 2))) = some (1, none, true) ∧
    ((pickQueue (tQ { tPair with tail := 1 })).map (fun x => (x.1, (headerCheck (tQ { tPair with tail := 1 }) 0 1 x.2.2)))) = some (1, some stStaleEpoch) := by decide +kernel
def tCmd (op : Nat) : Cmd := { h := tH, op := op, raw := [] }
def tReply : Reply := ⟨0, 1, 0, 0, 0, 0, 0, 0, 0, false, none⟩
theorem wit_scribe_events : (takeFirst (mayStart tS) [⟨tCmd 0, 0, 0, true⟩]).isSome = true ∧
    getB (tReg [(0x708, 25, 1, 1), (0x708, 26, 1, 0)]) 0x708 25 = true ∧ getB (tReg [(0x708, 25, 1, 1), (0x708, 26, 1, 0)]) 0x708 26 = false ∧ tS.hub.halted = false ∧
    (takeFirst (writable (tQ)) [tReply]).isSome = true ∧ coalTimeOf tPair = 1 := by decide +kernel
theorem wit_data_commands : (ownedClusters (tReg [(viPage 1 + 8, 0, 32, 0x10)]) 1)[0]? = some 4 ∧ tensorTable { tS with scheds := [{ tSched with tensors := [List.replicate 64 0#8] }] } 0 ≠ none ∧
    ({ tS with scribe := { started := [tCmd 0x60] } } : State).scribe.started.find? (fun c => decide (c.op = 0x60 ∧ c.h.fn.val = 0)) = some (tCmd 0x60) := by decide +kernel

/-! ### Witnesses: KV pools -/

/-- Device memory with numbers at addresses, as address, bytes and value. -/
def tCells (l : List (Nat × Nat × Nat)) : List Host.Cell :=
  l.foldl (fun m x => (List.range x.2.1).foldl (fun m i => kvPut (fun _ => 0#8) m (x.1 + i) (BitVec.ofNat 8 (x.2.2 / 256 ^ i))) m) []
/-- A pool of the AF at the base of the PIM area: 64 pages of 2 KiB, sequences 0 and 2 of one layer, two free pages on die 0. -/
def tKv : State :=
  { tReg [(0x300, 0, 1, 1), (domReg 88, 31, 1, 1), (domReg 89, 31, 1, 1), (domReg 90, 31, 1, 1), (domReg 91, 31, 1, 1)] with
    fns := [(0, { kvBase := pimBase, kvPages := 64, kvPageBytes := 2048 })]
    mem := tCells [(pimBase + 12, 4, 2), (pimBase + 0x1000, 8, 2 ^ 40 + 2 ^ 32), (pimBase + 0x1010, 8, 2 ^ 40 + 2 ^ 32 + 2),
      (pimBase + 786432 + 6, 1, 0x04), (pimBase + 786432 + 7, 1, 1), (pimBase + 786432 + 8, 2, 32), (pimBase + 786432 + 64, 8, 1),
      (pimBase + 786432 + 4096 + 64, 8, 3)] }
theorem wit_kv_pool : 0 < kvPageBytes tKv 0 ∧ kvPageBytes tKv 0 ≤ 262144 ∧ 0 < kvPages tKv 0 := by decide +kernel
theorem wit_kv_pool_set : pimBase % 262144 = 0 ∧ 64 ≤ poolMax tKv 0 ∧ areaPimLocal tKv 0 pimBase (kvAreaLen 64 2048) = true ∧ hasPool tS 0 = false := by decide +kernel
theorem wit_kv_create : hasPool tKv 0 = true ∧ seqExists tKv 0 1 = false ∧ 1 ≤ maxLayers tKv 0 ∧ walkersFree tKv [1] = true ∧
    ceilDiv ((1 + 1) * tableBytes tKv 0) (kvPageBytes tKv 0) = 2 := by decide +kernel
theorem wit_kv_pages : (kvPopMany 2 0 0 tKv).isSome = true := by decide +kernel
theorem wit_kv_fork : seqExists tKv 0 0 = true ∧ seqExists tKv 0 2 = true ∧ seqLayers tKv 0 0 = 1 ∧ seqLayers tKv 0 2 = 1 ∧ eFill (layerEnt tKv 0 2 0) = 0 ∧
    walkersFree tKv [0, 2] = true ∧ forkBlocks tKv 0 0 0 = [] := by decide +kernel
theorem wit_kv_spilled : seqSpilled tKv 0 0 = false := by decide +kernel
theorem wit_kv_spill_policy : kvHead tKv 0 28 4 = 0 ∧ 0 % kvPageBytes tKv 0 = 0 ∧ areaFar tKv 0 0 0 = true ∧ kvHead tKv 0 24 4 = 0 := by decide +kernel

/-! ### Witnesses: schedules and jobs -/

/-- An image for the full shape with one program, no stream and four laps, at address 0 of stack memory, with its CRC. -/
def tImage : State :=
  { tReg [(domReg 84, 31, 1, 1), (0x200, 30, 1, 1)] with
    mem := [(0, 78#8), (1, 90#8), (2, 83#8), (3, 73#8), (4, 1#8), (8, 7#8), (16, 1#8), (17, 16#8), (20, 255#8), (21, 255#8), (22, 255#8), (23, 255#8), (28, 4#8),
      (32, 16#8), (34, 64#8), (36, 2#8), (40, 128#8), (41, 1#8), (49, 1#8), (52, 230#8), (53, 72#8), (54, 29#8), (55, 124#8), (256, 2#8), (264, 64#8), (265, 1#8),
      (272, 16#8), (288, 3#8), (296, 80#8), (297, 1#8), (304, 8#8), (328, 4#8), (336, 1#8)] }
def tRead : ReadT := readT (fwAcc 0) 0 384 false tImage
theorem wit_load_read : (readT (fwAcc 0) 0 256 false tImage).ok = true ∧ field (tBytes (readT (fwAcc 0) 0 256 false tImage).data) 40 8 = 384 ∧ tRead.ok = true := by decide +kernel
theorem wit_load_image : (parseImage (tBytes tRead.data)).map (fun x => (hurdlesOk tImage 0 x, scratchFits tImage 0 (List.range 64) x.streams, imageNondet (tBytes tRead.data) x)) =
    some (true, true, false) := by decide +kernel
theorem wit_load_shape : mapFor tImage 0 ⟨1, []⟩ = some (List.range 64) ∧ isParked tImage = false ∧ findSched tImage 0 7 = none ∧ (placeSchedule 0 tSched [] tImage).ok = true := by decide +kernel
theorem wit_job_commands : findSched { tS with scheds := [tSched] } 0 1 = some tSched ∧ findJob { tS with scheds := [tSched] } 0 1 = none ∧
    findJob { tS with jobs := [{ tJob with stepped := true, running := false }] } 0 1 = some { tJob with stepped := true, running := false } ∧
    (findJob { tS with jobs := [tJob] } 0 1).map (fun j => (j.stopBy, j.halted)) = some (none, false) ∧ 3 < tSched.lapCount := by decide +kernel
theorem wit_start_job : mapFor (tReg [(viPage 1 + 8, 0, 32, 1)]) 1 ⟨3, [1]⟩ = some [0] := by decide +kernel
theorem wit_start_job_clusters : jobMaps tS 0 = false ∧ clusterOut tS 0 = false ∧ towerOut tS 0 = false := by decide +kernel
theorem wit_lap_done : lapComplete tRun { tJob with next := 1 } = true ∧ tJob.launch = none ∧ tJob.endAtLap = false := by decide +kernel

/-! ### Witnesses: services and instances -/

/-- A base image and an overlay of mode 2, of no entries and not signed. -/
def tCfg : State :=
  { tReg [(domReg 84, 31, 1, 1)] with
    mem := [(0, 78#8), (1, 90#8), (2, 67#8), (3, 70#8), (4, 1#8), (12, 64#8), (20, 246#8), (21, 32#8), (22, 135#8), (23, 160#8),
      (64, 78#8), (65, 90#8), (66, 67#8), (67, 70#8), (68, 1#8), (70, 1#8), (71, 2#8), (76, 64#8), (84, 173#8), (85, 139#8), (86, 21#8), (87, 219#8)] }
theorem wit_config_images : (readT (fwAcc 0) 0 64 false tCfg).ok = true ∧ (readT (fwAcc 0) 64 64 false tCfg).ok = true ∧
    (parseConfig (tBytes (readT (fwAcc 0) 0 64 false tCfg).data)).map (fun x => (x.kind, signatureOk tCfg x)) = some (0, true) ∧
    (parseConfig (tBytes (readT (fwAcc 0) 64 64 false tCfg).data)).map (fun x => (x.kind, x.mode, signatureOk tCfg x)) = some (1, 2, true) := by decide +kernel
theorem wit_services : (projected 5 { tS with hub := { tS.hub with overlays := [(2, [])] } }).2.any (fun x => x.1 = 2) = true ∧ tS.scheds = [] ∧ isParked tS = false ∧
    isParked (tReg [(pwrBlk, 30, 1, 1)]) = true ∧ unitOf 0x102 = some (1, 2) ∧ (getTower tS 15).march = none ∧ marchFree { tS with hub := { tS.hub with stage := some 3 } } 15 = true ∧
    portOut tS 11 = false ∧ portState (tReg [(fjlBlk 11, 24, 4, 6)]) 11 ≠ 0 ∧ (getPort tS 11).reply = none ∧ portSpare tS 11 = true ∧
    getB (tReg [(0x708, 28, 1, 1), (0x708, 27, 1, 0)]) 0x708 28 = true ∧ getB (tReg [(0x708, 28, 1, 1), (0x708, 27, 1, 0)]) 0x708 27 = false := by decide +kernel
/-- VI_CREATE of cluster 0 with a scratch piece and a stack piece. -/
def tVi : List Byte := [1#8] ++ List.replicate 7 0#8 ++ [1#8] ++ List.replicate 15 0#8 ++ [1#8] ++ List.replicate 39 0#8
def tVf : State := { tS with fns := [(1, { enabled := true })] }
theorem wit_vi_create : (getFn tVf 1).enabled = true ∧ viArgsOk tVf (viArgs tVi) tVi = true ∧ getB tVf (viPage 1) 31 = false ∧ viBusy tVf (viArgs tVi) = false ∧
    viFree tVf (viArgs tVi) = true := by decide +kernel
theorem wit_vi_extents : (viExtents tVf (viArgs tVi)).isSome = true := by decide +kernel
theorem wit_vi : getB (tReg [(viPage 64, 31, 1, 1)]) (viPage 64) 31 = true ∧ getB (tReg [(viPage 64, 29, 1, 1)]) (viPage 64) 29 = true ∧
    getB (tReg [(viPage 64, 28, 1, 1)]) (viPage 64) 28 = true := by decide +kernel

/-! ### Witnesses: sequencers of a cluster -/

/-- The same job with one S-core stream in the buffer, whose runner wants its next row. -/
def tStream : Stream := ⟨0, 2, 0, 0, false, 0, [tW 3 1]⟩
def tFetch : State := modRunner (refNo (tR .s)) (fun r => { r with busy := true, fetched := false }) { tRun with scheds := [{ tSched with streams := [tStream] }] }
theorem wit_fetch : (jobOf tFetch 0).isSome = true ∧ (schedOf tFetch tJob).map (fun x => x.streams) = some [tStream] ∧
    ((schedOf tFetch tJob).map (fun x => wantsFetch (turnAhead x tJob tFetch) (streamRunner x tStream) && nth 64 x.map tStream.lcluster == 0)) = some true ∧
    (getCluster tFetch 0).quillTurn = 0 := by decide +kernel
def tFlight : Flight := { word := tW 2 1 }
theorem wit_completion : (getRunner (modRunner (refNo (tR .s)) (fun r => { r with flight := [tFlight] }) tRun) (refNo (tR .s))).flight[0]? = some tFlight ∧
    canComplete tRun 0 tFlight = true := by decide +kernel
/-- A relay of runners 0 and 1 of S-core 0, each with a NOP of the relay at its head. -/
def tRel : RelayEntry := { program := 0, lcluster := 0, id := 3, stages := [(0x80, 0), (0x80, 1)] }
def tRelay : State :=
  let w := tW 3 0 (2 ^ 26 + 3 * 2 ^ 27)
  modRunner (refNo (tR .s) + 1) (fun r => { r with queue := [w], busy := true }) (modRunner (refNo (tR .s)) (fun r => { r with queue := [w], busy := true })
    { tRun with scheds := [{ tSched with relays := [tRel], laps := [⟨0, 0, 0, 4⟩], programs := [[0]] }], jobs := [{ tJob with next := 1 }] })
theorem wit_relay : relayOf tRelay 0 3 = some tRel ∧ (∀ f ∈ (getCluster tRelay 0).firings, f.id ≠ 3) ∧ (∀ k ∈ relayRunners 0 tRel, stageReady 3 k tRelay = true) ∧
    ring tRelay 0 0 = [] := by decide +kernel
/-- An M-core pass of 8 columns of binary16 at the head of runner 0 of M-core 0. -/
def tPass : StrokeWord := tW 0 0x20 (8 * 2 ^ 80)
theorem wit_weight_rows : (rowsAhead (tAt (refNo (tR .m)) [tPass]) 0 0).head? = some 0 ∧ streaming (tAt (refNo (tR .m)) [tPass]) 0 0 = none ∧
    streaming (modRunner (refNo (tR .m)) (fun r => { r with flight := [{ word := tPass, rows := 1 }] }) tRun) 0 0 = some (refNo (tR .m), tPass, 1) ∧
    0 ∈ weightRows (refNo (tR .m)) tPass tRun := by decide +kernel
/-- A descriptor of 64 bytes of zeros: it moves nothing and arrives nowhere. -/
def tXfer : Xfer := ⟨refNo (tR .s), tW 2 0x40, List.replicate 64 0#8, false, true, false, []⟩
theorem wit_transfer : takeMoved 0 (moveWaiting 0 { tRun with xfers := [tXfer] }).xfers = some (tXfer, []) ∧ (descArrive tXfer.runner tXfer.desc tRun).2 = false := by decide +kernel
theorem wit_first_issue : (jobOf tRun 0).map (fun j => j.running) = some true ∧ (getCluster (modCluster 0 (fun c => { c with started := false }) tRun) 0).started = false ∧
    (getCluster tRun 0).started = true := by decide +kernel

/-! ### Witnesses: pace, hurdles and towers -/

def tPace (l : List (Nat × Nat × Nat × Nat) := []) : State := { tReg ((0x400, 0, 1, 1) :: (0x404, 0, 11, 1000) :: l) with pace := { startPassed := false } }
theorem wit_pace : paceOn (tPace) = true ∧ wired (tPace) = false ∧ paceOn tS = false ∧ (tPace).pace.startPassed = false ∧ (tPace).jobs = [] ∧
    (tPace).pace.raisedHold = false ∧ wired (tPace [(0x400, 2, 1, 1)]) = true ∧ 998999 + 1000 < 1000 * periodUs (tPace) ∧ 1000 * periodUs (tPace) ≤ 999000 + 1000 := by decide +kernel
theorem wit_start_line : (takeBoundary (paceNumber (tPace)) (showHeld false false (modPace (fun p => { p with startPassed := true, lineAt := windowTime (tPace) }) (tPace)))).jobs = [] := by
  decide +kernel
theorem wit_marker : inService (tReg [(fjlBlk 11, 31, 1, 1), (0x608, 26, 4, 11)]) 11 = true ∧ followerPort (tReg [(fjlBlk 11, 31, 1, 1), (0x608, 26, 4, 11)]) = some 11 ∧
    wired (setReg 0x60C (BitVec.ofInt 32 (-500)) (tReg [(fjlBlk 11, 31, 1, 1), (0x608, 26, 4, 11)])) = false ∧ getB tS 0x40C 30 = false ∧
    topoKind (tReg [(0x600, 30, 2, 1)]) ≠ 0 ∧ tS.links.marked = false ∧ tS.links.missed < 15 := by decide +kernel
theorem wit_hurdle_registers : fld 0x80000000#32 31 1 = 1 ∧ fld 0x80000000#32 0 16 = 0 ∧ fld 0x0000FFFF#32 31 1 = 0 ∧ fld 0x0000FFFF#32 0 16 ≠ 0 ∧
    fld 0x80000001#32 31 1 = 1 ∧ fld 0x80000001#32 0 16 ≠ 0 := by decide +kernel
theorem wit_hurdle_reset : ({ gen := 65535, count := 3 } : Hurdle).gen < 65536 ∧ ({ mode := 2, target := 0 } : Hurdle).target = 0 := by decide +kernel
def tBank : BankReq := ⟨0, 0, 0, 0, 0, .read, 0, false, 0, none⟩
theorem wit_bank : laneServes tS 0 0 0 [tBank] = [tBank] ∧ tBank.bank.val % 8 = 0 ∧ kvGet (fun _ => 0) (getTower tS 0).busy tBank.bank ≤ 0 ∧ portHeld tS 0 tBank.port = false ∧
    tS.uncorr = [] ∧ bankOn tS 0 1535 = true ∧ kvGet (fun _ => 0) (getTower { tS with towers := [(0, { target := [(1535, 1)] })] } 0).target 1535 = 1 := by decide +kernel
theorem wit_march : fld 0x80000001#32 0 2 ≠ 3 ∧ fld 0x80000002#32 0 2 = 2 ∧ (locked tS (twrBlk 0) && lockBinds .af) = false ∧
    (locked (tReg [(twrBlk 0 + 0xFFC, 0, 1, 1)]) (twrBlk 0) && lockBinds .af) = true ∧ (getTower tS 0).march = none ∧
    (getTower { tS with towers := [(0, { march := some ⟨1, 0, 1536, none⟩ })] } 0).march = some ⟨1, 0, 1536, none⟩ := by decide +kernel

/-! ### Witnesses: coherence, stacks and far memory -/

def tStk (x : Stack) (lines : List (Nat × Nat) := []) : State := { tS with stk := [(0, x)], towers := [(0, { lines := lines })] }
theorem wit_homes : mayAsk tS 0 0 0 = true ∧ homeFree tS 0 0 = true ∧ lineOf tS 0 0 = 0 ∧ dirOf tS 0 0 = none ∧ homedAt tS 0 0 = true ∧
    dirOf (tStk { dir := [(0, .shared [1])] }) 0 0 = some (.shared [1]) ∧ dirOf (tStk { dir := [(0, .owned 15)] }) 0 0 = some (.owned 15) ∧
    mayAsk (tStk { dir := [(0, .shared [0, 1])] } [(0, 1)]) 0 0 0 = true ∧ lineOf (tStk {} [(0, 1)]) 0 0 = 1 ∧ homeFree (tStk { dir := [(0, .owned 15)] }) 0 0 = true := by decide +kernel
theorem wit_write_back : homedAt (tStk {} [(0, 3)]) 0 0 = true ∧ lineOf (tStk {} [(0, 3)]) 0 0 = 3 ∧ writingBack (tStk {} [(0, 3)]) 0 0 0 = false ∧
    ((getStack (tStk { recalls := [⟨0, .tower 1 true false, [(0, 1)]⟩] } [(0, 3)]) 0).recalls.find? (fun r => r.line = 0 && (r.left.contains (0, 0) || r.left.contains (0, 1)))).isSome = true ∧
    writingBack (tStk { writebacks := [(0, 0)] }) 0 0 0 = true ∧ (0, 0) ∈ (getStack (tStk { nacks := [(0, 0)] }) 0).nacks := by decide +kernel
theorem wit_recalls : asked (tStk { recalls := [⟨0, .tower 1 false false, [(0, 0)]⟩] }) 0 0 0 0 = true ∧ asked (tStk { recalls := [⟨0, .tower 1 true false, [(0, 1)]⟩] }) 0 0 0 1 = true ∧
    asked (tStk { recalls := [⟨0, .tower 1 true false, [(0, 2)]⟩] }) 0 0 0 2 = true ∧
    ((getStack (tStk { grants := [⟨0, 0, 2, true⟩] }) 0).grants.find? (fun g => decide (g.line = 0 ∧ g.tower = 0))).isSome = true ∧ setMates tS 0 0 = [] := by decide +kernel
theorem wit_external : homeLine tS 0 0 64 = some 0 ∧ resetting tS 0 = false := by decide +kernel
theorem wit_patrol : (getStack tS 0).scrubDue ≤ 0 ∧ getB (tReg [(mscBlk 0, 28, 1, 1)]) (mscBlk 0) 28 = true ∧ getB tS (mscBlk 0) 28 = false := by decide +kernel
theorem wit_refresh : inNmuMode tS 7 31 15 = false ∧
    inNmuMode { tS with nmus := [(0, { run := some { launch := tL, even := true } })] } 4 0 0 = true := by decide +kernel
def tPage : PageReq := ⟨0, 0, 65535, .read⟩
theorem wit_page_access : requestStands tS 0 0 tPage = true ∧ bufferHit (queuePage 0 0 tPage tS) 0 0 = none ∧
    (arbitrate (queuePage 0 0 tPage tS) 0 0 (competing (queuePage 0 0 tPage tS) 0 0)).isSome = true ∧
    bufferHit (queuePage 0 0 tPage { tS with stk := [(0, { buffer := [(0, [65535])] })] }) 0 0 = some tPage := by decide +kernel
theorem wit_convert : (∀ m < 8, (getStack tS m).bad.filter (fun e => regionHas 0 m e.1) = []) ∧ (getRegion tS 0).strength ≠ 3 := by decide +kernel
/-- Port 0 up with 1 GiB on expander 0, whose first piece is scrubbed. -/
def tFar : State := { tReg [(cxlBlk 0, 31, 1, 1), (cxlBlk 0 + 4, 0, 32, 1), (domReg 94, 31, 1, 1)] with farReady := [(0, true)] }
theorem wit_far : farPort tFar 0 (farBase 0) = some 0 ∧ reach tFar (hostAcc 0) false (farBase 0 / 64 * 64) allBytes = some (farBase 0) ∧
    reach tFar (hostAcc 0) true (farBase 0 / 64 * 64) (spanBytes (farBase 0) 64 (farBase 0 / 64 * 64)) = some (farBase 0) ∧
    reach tS (hostAcc 0) false (farBase 0 / 64 * 64) allBytes = none ∧ farPort tS 0 (farBase 0) = some 0 ∧
    getB tFar (cxlBlk 0) 31 = true ∧ getB (tReg [(cxlBlk 1, 22, 1, 1)]) (cxlBlk 1) (21 + 1) = true ∧ cxlOut tS 1 = false ∧ linkMode true 3 16 = true ∧ linkMode false 1 8 = true ∧
    farBacked tFar 0 (2 ^ 26 * 15) = true ∧ kvGet (fun _ => false) tFar.farReady 15 = false := by decide +kernel
/-- A flit of a header with its CRC, its other bytes 0. -/
def tFlit (head : Nat) : FlitIn :=
  { bytes := (leBytes 6 head ++ List.replicate 10 0#8) ++ (leBytes 4 (crc32 ((leBytes 6 head ++ List.replicate 10 0#8) ++ List.replicate 5120 0#8)) ++ List.replicate 5120 0#8), errors := [] }
/-- A flit whose symbols all arrive right decodes to its bytes. -/
theorem tFlit_decoded (head : Nat) : (decodeFlit (tFlit head)).bytes = (tFlit head).bytes ∧ (decodeFlit (tFlit head)).uncorrectable = 0 := by
  have h : ∀ w, codewordErrors (tFlit head) w = [] := fun _ => rfl
  have d : flitCode.decode [] = .good [] [] := by decide +kernel
  refine ⟨?_, ?_⟩ <;> simp only [decodeFlit, h, d]
  · simp [spoilBytes, List.zipIdx, List.range, List.range.loop]
  · decide
theorem leBytes_length (n x : Nat) : (leBytes n x).length = n := by
  induction n generalizing x with
  | zero => rfl
  | succ n ih => simp [leBytes, ih]
theorem leNat_leBytes4 (x : Nat) (h : x < 2 ^ 32) : leNat (leBytes 4 x) = x := by
  simp [leBytes, leNat]; omega
theorem wit_good_flits (head : Nat) : flitGood (decodeFlit (tFlit head)) = true := by
  have l : (leBytes 6 head ++ List.replicate 10 0#8).length = 16 := by simp [leBytes_length]
  generalize hc : crc32 ((leBytes 6 head ++ List.replicate 10 0#8) ++ List.replicate 5120 0#8) = c
  have hb : c < 2 ^ 32 := by rw [← hc, crc32]; exact BitVec.isLt _
  have e : (tFlit head).bytes = (leBytes 6 head ++ List.replicate 10 0#8) ++ (leBytes 4 c ++ List.replicate 5120 0#8) := by rw [← hc]; rfl
  simp only [flitGood, tFlit_decoded, e, field]
  rw [List.take_left' l, List.drop_left' l, show (20 : Nat) = 16 + 4 from rfl, ← List.drop_drop, List.drop_left' l, List.drop_left' (leBytes_length 4 c),
    List.take_left' (leBytes_length 4 c), hc, leNat_leBytes4 c hb]
  simp only [List.length_append, List.length_replicate, leBytes_length]; decide

/-! ### Witnesses: attention walkers -/

def tWalk (x : WalkReq) (s : State := tKv) : State := { s with atts := [(0, { queue := [x] })] }
theorem wit_page_request : ((serveAsk 0 0 .alloc (modAtt 0 (fun x => { x with asks := [] }) { tKv with atts := [(0, { asks := [⟨0, .alloc⟩] })] })).map (fun x => walkHead x.2.2 1)) = some none := by
  decide +kernel
/-- An append of no row to sequence 0 in geometry 0 with one head of 32, at token 0. -/
def tAppend : WalkReq := tReq (.append (fmtOut (geomFmt 0)) 0 []) ([0#8, 0#8, 0#8, 0#8, 0#8, 0#8, 0#8, 1#8] ++ List.replicate 6 0#8 ++ [32#8] ++ List.replicate 49 0#8)
theorem wit_append : walkHead (tWalk tAppend) 0 = some tAppend ∧ tAppend.asked = false ∧
    appendBad (tWalk tAppend) 0 tAppend.seq (fmtOut (geomFmt 0)) 0 (appDesc tAppend.desc).rows (appDesc tAppend.desc) = false ∧ meetsSpilled (tWalk tAppend) tAppend = false := by decide +kernel
/-- An attention descriptor of sequence 0, layer 0: fetch of one block (0x11), or decode of one head (0x10). -/
def tAttn (op : Nat) : WalkReq := tReq .attention (List.replicate 23 0#8 ++ [1#8] ++ List.replicate 4 0#8 ++ [1#8] ++ List.replicate 7 0#8 ++ [1#8, 0#8, 0#8, 0#8] ++
  [BitVec.ofNat 8 op] ++ List.replicate 23 0#8)
theorem wit_fill : meetsSpilled { tWalk (tAttn 0x11) with mem := kvPut (fun _ => 0#8) tKv.mem (pimBase + 786432 + 2048 + 4) 8#8 } (tAttn 0x11) = true := by decide +kernel
theorem wit_fetch_blocks : walkHead (tWalk (tAttn 0x11)) 0 = some (tAttn 0x11) ∧ field (tAttn 0x11).desc 40 1 = 0x11 ∧ seqExists tKv 0 (tAttn 0x11).seq = true ∧
    field (tAttn 0x11).desc 20 2 < seqLayers tKv 0 0 ∧ field (tAttn 0x11).desc 22 1 < recHkv tKv 0 0 ∧ field (tAttn 0x11).desc 0 8 % 64 = 0 ∧ field (tAttn 0x11).desc 28 4 ≠ 0 ∧
    meetsSpilled (tWalk (tAttn 0x11)) (tAttn 0x11) = false := by decide +kernel
theorem wit_decode : field (tAttn 0x10).desc 40 1 = 0x10 ∧ meetsSpilled (tWalk (tAttn 0x10)) (tAttn 0x10) = false := by decide +kernel
theorem wit_decode_good : decodeBad (tWalk (tAttn 0x10)) 0 0 (decDesc (tAttn 0x10).desc) = false := by decide +kernel
theorem wit_launch_due : let s : State := { tS with atts := [(0, { decodes := [{ tDec with req := { tDec.req with fn := 0 } }] })], fns := [(0, { kvBase := pimBase, kvPages := 64, kvPageBytes := 2048 })] }
    (dueLaunch s 0).isSome = true ∧ partialsHeld s 0 < 4096 := by decide +kernel

/-! ### Witnesses: the fabric -/

def tHead : TickHeader := ⟨false, false, false, false, 0, 1, 0, 1000, 0, 0, none⟩
/-- Port 11 with neighbour 5 and one packet in its VC0 buffer. -/
def tPort (b : PacketBody) (seq : Nat := 0) (src : Nat := 5) : State := { tReg [(fjlBlk 11 + 8, 31, 1, 1), (fjlBlk 11 + 8, 0, 18, 5)] with ports := [(11, { rx0 := [⟨seq, src, b⟩], roleReq := true })] }
theorem wit_packets : ∀ b ∈ [PacketBody.tick tHead, .hurdle 511 true 0 3, .topo 0 1 true, .roleReq, .roleGrant, .roleCancel, .peerLost 3],
    nextPacket (tPort b) 11 ⟨0, 5, b⟩ [] 5 := by unfold nextPacket; decide +kernel
theorem wit_role : (getPort (packetTaken 11 ⟨0, 5, .roleGrant⟩ [] 5 (tPort .roleGrant)) 11).roleReq = true ∧
    systemLoaded (modPort 11 (fun x => { x with roleReq := false }) (packetTaken 11 ⟨0, 5, .roleGrant⟩ [] 5 (tPort .roleGrant))) = false := by decide +kernel
theorem wit_duplicate : (getPort (tPort (.tick tHead) 65535) 11).rx0 = [⟨65535, 5, .tick tHead⟩] ∧ peerOf (tPort (.tick tHead) 65535) 11 = some 5 ∧ isTickPacket (.tick tHead) = true ∧
    32768 ≤ (65535 + 65536 - kvGet (fun _ => 0) (tPort (.tick tHead) 65535).links.nseqRx 5) % 65536 := by decide +kernel
def tUp (st : Nat) : State := tReg [(fjlBlk 0, 24, 4, st), (fjlBlk 0, 31, 1, 1)]
theorem wit_ports : (4 ≤ portState (tUp 4) 0 ∧ portState (tUp 6) 0 ≤ 6) ∧ inService (tUp 6) 0 = true ∧ (getPort (tUp 6) 0).lastGood + 1000 ≤ 1000 ∧ portState (tUp 1) 0 = 1 ∧
    2 ≤ portState (tUp 2) 0 ∧ portState (tUp 5) 0 ≤ 5 ∧ (∀ i < 9, nth 0 (getPort (tUp 6) 0).laneBits i ≤ laneBound) ∧ (getPort (tUp 6) 0).symbols ≤ symbolBound := by decide +kernel
/-- A good flit of each type, with and without its NAK bit, and one that is not good. -/
theorem wit_flits : ∀ h ∈ [0, 1, 2, 3, 2 ^ 22, 2 ^ 22 + 1], flitGood (decodeFlit (tFlit h)) = true ∧ bits (field (decodeFlit (tFlit h)).bytes 0 6) 0 2 = h % 4 ∧
    bit (field (decodeFlit (tFlit h)).bytes 0 6) 22 = decide (2 ^ 22 ≤ h) := by
  intro h m
  refine ⟨wit_good_flits h, ?_⟩
  rw [(tFlit_decoded h).1]
  fin_cases m <;> exact ⟨rfl, rfl⟩
theorem wit_bad_flit : flitGood (decodeFlit ⟨[], []⟩) = false := by decide +kernel
/-- A line of two devices: port 0 of coordinate 0 leads to coordinate 1. -/
def tIdent (c i : Nat) : State := { tReg [(fjlBlk 0, 24, 4, 4), (0x600, 30, 2, 1), (0x600, 0, 6, 1)] with ports := [(0, { ident := some ⟨0, c, .ident c i 0 0 0⟩ })] }
theorem wit_ident : portState (tIdent 1 1) 0 = 4 ∧ portPeer (tIdent 1 1) 0 = some (1, 1, 0) ∧ portDir (topoKind (tIdent 1 1)) 1 = some (1, 0) ∧ portPeer (tIdent 1 1) 0 ≠ some (2, 1, 0) := by decide +kernel
def tColl (x : Coll) (b : List PacketBody := []) : State := { tS with coll := x, ports := [(0, { rx1 := b.map (fun y => ⟨0, 1, y⟩) })] }
theorem wit_collectives : let e : CollEntry := { raw := List.replicate 64 0#8, trigger := 0 }
    let b : PacketBody := .coll 0 0 0 0 0 0 0 [] []
    (tColl { released := [0], entries := [e] }).coll.released = [0] ∧ (tColl { released := [0], entries := [e] }).coll.entries[0]? = some e ∧
    (getPort (tColl {} [b]) 0).rx1 = [⟨0, 1, b⟩] ∧ ownCoord (tColl {} [b]) = 0 ∧ (1 : Nat) ≠ ownCoord (tColl {} [b]) ∧
    ((tColl { entries := [e], firings := [⟨0, 65536, [], []⟩] }).coll.firings.find? (fun f => decide (f.entry = 0 ∧ f.n % 65536 = 0))).isSome = true ∧
    ((tColl { firings := [⟨0, 0, [], []⟩] }).coll.firings.find? (firingDone (tColl { firings := [⟨0, 0, [], []⟩] }))).isSome = true := by decide +kernel

/-! ### Witnesses: power and heat -/

def tClu (x : CluPower) (l : List (Nat × Nat × Nat × Nat) := []) : State :=
  { tReg (l ++ [(domReg 0, 31, 1, 1)]) with sup := { tS.sup with clu := [(0, x)] } }
def tWindow : PowerWindow := ⟨[], 0, [], [], [], [], []⟩
theorem wit_share : towerShareOf tS tWindow 0 ≠ 0 := by decide +kernel
theorem wit_steps : (getClu (tClu {}) 0).move = none ∧ domainOn (tClu {}) 0 = true ∧ curStep (tClu {} [(vfBlk 0, 24, 5, 0)]) 0 < vfTarget (tClu {} [(vfBlk 0, 24, 5, 0)]) 0 ∧
    vfTarget (tClu {} [(vfBlk 0, 24, 5, 31)]) 0 < curStep (tClu {} [(vfBlk 0, 24, 5, 31)]) 0 ∧ getB (tClu {}) (vfBlk 0) 30 = false ∧ (getClu (tClu {}) 0).raised = false ∧
    (getClu (tClu { move := some ⟨16, true, false, 0⟩ }) 0).move = some ⟨16, true, false, 0⟩ ∧ (getClu (tClu { move := some ⟨16, false, true, 0⟩ }) 0).move = some ⟨16, false, true, 0⟩ := by
  decide +kernel
theorem wit_droop : (let s := tClu { move := some ⟨16, false, false, 0⟩ } [(pwrBlk, 31, 1, 0), (pwrBlk + 0x2000, 31, 1, 0)]; forcedPf (markFree 0 (addReg (vfBlk 0 + 0x10) 1 (setB (vfBlk 0) 30 true s))) 0 = false) ∧
    (let s := tClu { move := some ⟨16, false, false, 0⟩ } [(pwrBlk, 31, 1, 1)]; forcedPf (markFree 0 (addReg (vfBlk 0 + 0x10) 1 (setB (vfBlk 0) 30 true s))) 0 = true) ∧
    getB (tClu {} [(vfBlk 0, 30, 1, 1)]) (vfBlk 0) 30 = true := by decide +kernel
/-- Hub firmware runs. -/
def tFw (s : State := tS) : State := modHub (fun h => { h with running := true, vauxLost := false }) s
/-- Firmware runs with a base image of one parameter: regulator 0 present. -/
def tParam : State := modHub (fun h => { h with base := (List.range 80).map (kvGet (fun _ => 0#8) [(0, 78#8), (1, 90#8), (2, 67#8), (3, 70#8), (4, 1#8), (8, 1#8), (12, 80#8), (20, 254#8), (21, 223#8), (22, 231#8), (23, 48#8), (64, 2#8), (68, 16#8), (75, 128#8)]) }) (tFw)
theorem wit_regulators : firmwareActs tParam = true ∧ bit (paramIn (listsOf tParam) 0x10 0) 31 = true := by decide +kernel
theorem wit_firmware : firmwareActs (tFw) = true ∧ (tFw).sup.regs.any (fun e => e.2.lost) = false ∧ (tFw).hub.readyAt + 1000000000 ≤ 1000000000 ∧
    (kvGet (fun _ => ({} : Regulator)) [(0, { fails := 2 })] 0).fails = 2 := by decide +kernel
theorem wit_estimates : 4 * 100 ≤ 5 * getF (tReg [(pwrBlk + 0x1400, 14, 14, 80)]) (pwrBlk + 0x1400) 14 14 ∧ 5 * getF (tReg [(pwrBlk + 0x1400, 14, 14, 80)]) (pwrBlk + 0x1400) 14 14 < 4 * 101 := by
  decide +kernel
theorem wit_alerts : getB tS pwrBlk (20 + 3) = true ∧ getB (tReg [(pwrBlk, 20, 4, 0)]) pwrBlk (20 + 3) = false ∧ getF (tReg [(pwrBlk, 20, 4, 0)]) pwrBlk 20 4 = 0 ∧
    ({ tS with sup := { tS.sup with alertEnd := some 0 } } : State).sup.alertEnd = some 0 := by decide +kernel
theorem wit_sensors : sensorBroken (converted 427 1000 true (tReg [(sensorReg 427, 31, 1, 1)])) 427 = true ∧ sensorBroken (converted 427 1600 true tS) 427 = false ∧
    badSample tS 427 1600 true = false ∧ fld 427#32 0 9 < 428 ∧ getB tS (sensorReg 427) 27 = false ∧ getB (tReg [(sensorReg 427, 27, 1, 1)]) (sensorReg 427) 27 = true := by decide +kernel
theorem wit_sensor_quiet : let n := 427
    let s : State := { tS with sup := { tS.sup with tripHeld := false } }
    let r := sensorReg n
    let u := converted n 1439 true s
    let h := threshold (getB u r 29) (decide (1520 ≤ (1439 : Int))) (decide ((1439 : Int) ≤ 1472)) (getSensor u n).hot (getSensor u n).cool
    let c := threshold (getB u r 28) (decide (1680 ≤ (1439 : Int))) (decide ((1439 : Int) ≤ 1632)) (getSensor u n).crit (getSensor u n).uncrit
    let v := modSensor n (fun y => { y with seen := true, hot := h.1, cool := h.2.1, crit := c.1, uncrit := c.2.1, bad := 0, cold := 0 }) u
    (c.2.2 && !getB u r 28) = false ∧ (getSensor (setB r 29 h.2.2 (setB r 28 c.2.2 v)) n).bad < 2 ∧
      (showThermal (moveLimit n h.2.2 (setB r 29 h.2.2 (setB r 28 c.2.2 v)))).sup.tripHeld = false := by decide +kernel
theorem wit_trip : (List.range 428).find? (fun n => decide (3 ≤ (getSensor { tS with sup := { tS.sup with sensors := [(427, { trip := 3 })] } } n).trip)) = some 427 ∧ tS.hub.tripped = false := by
  decide +kernel
def tTripped : State := modHub (fun h => { h with tripped := true }) tS
theorem wit_trip_restart : tTripped.hub.tripped = true ∧ trips24h tTripped < 3 := by decide +kernel
theorem wit_cold_sensors : (validSensors tTripped).all (fun n => decide (sensorTemp tTripped n < 1280)) = true := by decide +kernel
theorem wit_cooling : getB (tReg [(pwrBlk + 0x2020, 31, 1, 1)]) (pwrBlk + 0x2020) 31 = true ∧ inletPresent tS = false ∧ inletPresent (tReg [(pwrBlk + 0x2020, 31, 1, 1)]) = true ∧
    100 ≤ ({ tS with sup := { tS.sup with rthHours := List.replicate 100 20 } } : State).sup.rthHours.length ∧ (getTow tS 15).up = true ∧ (getTow tS 15).peak < 1 ∧ (-80 : Int) + 80 ≤ (getTow tS 15).peak := by
  decide +kernel

/-! ### Witnesses: records, hub and bring-up -/

def tReport : Report := ⟨0x201, oDevice, fnDevice, 1, 0, 0, 0⟩
def tRec : FaultRec := ⟨0x201, oDevice, fnDevice, 1, 1, 0, 0, 0, 0, false, false, false⟩
theorem wit_blotter : nextReport [tReport] = some tReport ∧ tS.reports = [] ∧ [tRec].any (fun x => !x.closed && decide (x.origin = tReport.origin ∧ x.cls = tReport.cls ∧ x.fn = tReport.fn)) = true ∧
    tRec.opened + windowNs tS ≤ 1000000000 ∧ tS.recs.filter (fun r => !r.closed && decide (r.opened + windowNs tS ≤ 0)) = [] := by decide +kernel
theorem wit_life : max (min 65535 (lifeT tS.hub.tjHours)) (min 65535 (lifeC tS)) < 5000 := by decide +kernel
def tBoot (h : Option CmdHdr) : State := modHub (fun x => { x with booting := some 1, switchBy := h }) tS
theorem wit_hub : tS.hub.outPending = false ∧ (modHub (fun x => { x with outPending := true }) tS).hub.outPending = true ∧ (tFw).hub.running = true ∧ (tFw).hub.halted = false ∧
    (0 : Nat) < (tFw).hub.lastKick + 10000000 ∧ tS.hub.booting = none ∧ (tBoot (some (tH))).hub.booting = some 1 ∧ (tBoot (some (tH))).hub.switchBy = some (tH) ∧ (tBoot none).hub.switchBy = none ∧
    tS.hub.testing.find? (fun e => decide (e.1 = 4 ∧ e.2.1 = 1)) = none ∧
    (modHub (fun x => { x with testing := [(4, 1, 0, tH)] }) tS).hub.testing.find? (fun e => decide (e.1 = 4 ∧ e.2.1 = 1)) = some (4, 1, 0, tH) := by decide +kernel
theorem wit_token : reg64 (tReg [(secBlk + 4, 0, 32, 1)]) (secBlk + 4) % 64 ≠ 0 ∧ reg64 tImage (secBlk + 4) % 64 = 0 ∧
    (readSpan tImage { fn := 0, org := oHub 0 0 } (reg64 tImage (secBlk + 4)) 320).ok = true ∧
    (readSpan (tReg [(domReg 84, 31, 1, 1), (secBlk + 4, 0, 32, 1)]) { fn := 0, org := oHub 0 0 } 1 320).ok = true := by decide +kernel
def tFind (rails : Nat) : StageFindings := ⟨0, rails, 0, [], [], [], [], [], [], false, [], false, false⟩
theorem wit_bringup : tS.hub.vauxLost = true ∧ tS.hub.stage = none ∧ tS.hub.recovery = false ∧ tS.hub.running = false ∧ (tFw).hub.running = true ∧ (tFw).hub.stage ≠ some 0 ∧
    (tFind 6).rails % 8 ≠ 7 ∧ (stage0 (tFind 7) (stageTime (tFind 7) tS)).isSome = true ∧ (stage1 (tFind 7) (stageTime (tFind 7) tS)).hub.recovery = false ∧
    (stage2 (tFind 8) (stageTime (tFind 8) { tReg [(pwrBlk + 0x2000, 31, 1, 0)] with sup := { tS.sup with tripHeld := false } })).isSome = true := by decide +kernel
theorem wit_recovery : 64 + field (recoveryBytes tS 20) 16 4 + 96 ≤ 2 ^ 24 := by decide +kernel

/-! ### Witnesses: pins, management, debug and registers -/

theorem wit_pins : getB (tReg [(0x800, 24, 1, 1)]) 0x800 24 = true ∧ tS.pins.offAt = none ∧ getB tS 0x800 24 = false ∧
    ({ tFw with pins := { offAt := some 0 } } : State).pins.offAt = some 0 ∧ getB (setB 0x800 (26 + offBit 0) true tS) 0x800 (offBit 0) = false ∧
    getB (setB 0x800 (26 + offBit 0) true tS) 0x800 (24 + offBit 0) = false ∧ ({ tS with pins := { readyBad := 2 } } : State).pins.readyBad = 2 ∧
    getB (setB 0x800 (26 + offBit 0) true (tReg [(0x800, offBit 0, 1, 1)])) 0x800 (offBit 0) = true ∧ getB (threeState 0 tS) 0x800 (offBit 1) = false ∧
    getB (tReg [(secBlk + 0x30, 31, 1, 1)]) (secBlk + 0x30) 31 = true ∧ lifeState (tReg [(secBlk, 0, 2, 2)]) = 2 ∧ getB (tReg [(secBlk, 0, 2, 2)]) (secBlk + 0x30) 31 = false := by decide +kernel
theorem wit_spdm : (∀ c ∈ [(0xE1, 1), (0xE3, 2), (0x81, 3), (0x82, 3), (0x83, 3), (0xE0, 3)], spdmTaken c.1 c.2 [0x13#8, BitVec.ofNat 8 c.1, 0#8, 8#8] (modSec (fun x => { x with spdmState := 3 }) tS)) ∧
    field [0x10#8, 0x84#8, 0#8, 0#8] 1 1 = 0x84 := by unfold spdmTaken; decide +kernel
def tDbg (op addr scope : Nat) : State := { tReg [(secBlk, 0, 2, 2)] with dbg := { op := op, addr := addr, busy := true }, sec := { tS.sec with tokenScope := some scope } }
theorem wit_debug : tS.dbg.busy = false ∧ (tDbg 1 0 0).dbg.busy = true ∧ bit (debugScope (tDbg 1 0 0)) 0 = false ∧ bit (debugScope (tDbg 1 1 7)) 0 = true ∧ bit (debugScope (tDbg 2 1 7)) 1 = true ∧
    blockOf 0x400 = some 0 ∧ bit (debugScope (tDbg 1 0 7)) 2 = true ∧ systemLoaded (tDbg 1 0 7) = false ∧ ¬ (windowBase ≤ 0 ∧ 0 < windowBase + 2 ^ 32) ∧
    ((0x001#96 <<< 12).extractLsb' 12 4).toNat = 1 := by decide +kernel
theorem wit_registers : hostDark (tFw) .af = false ∧ hostDark tS .hub = false ∧ (tFw).hub.recovery = false ∧ windowOff (tFw) .af 0x404 = some 0x404 ∧ reqNo .af < 65 ∧
    reachesBlock .af pwrBlk = true ∧ (regRow (pwrBlk + 0xFFC)).w1s = 1 ∧ blockOf (pwrBlk + 0xFFC) = some pwrBlk ∧ reachesBlock (.vi 0) pwrBlk = false ∧ isLo 0x18 = true ∧ isLo 0x1C = false ∧ windowOff (tFw) .af 0x18 = some 0x18 ∧ windowOff (tFw) .af 0x1C = some 0x1C ∧ (blockOf 0x18).isSome = true ∧
    (blockOf 0x1C).isSome = true ∧ ((windowOff (tFw) .af 0x4000000).bind blockOf) = none ∧ kvFind [(latchKey .af 0x1C, 5#32)] (latchKey .af 0x1C) = some 5#32 := by decide +kernel
theorem wit_access_codes : ¬ (hdlBlk ≤ bltBlk + 4 ∧ bltBlk + 4 < hdlBlk + 0x20000) ∧ blockOf (bltBlk + 4) = some bltBlk ∧ stagedReg (bltBlk + 4) = false ∧ lapStagedReg (bltBlk + 4) = false ∧
    q0Held tS (bltBlk + 4) = false ∧ (locked tS bltBlk && lockBinds .af && decide ((regRow (bltBlk + 4)).rwl ≠ 0)) = false ∧
    stagedReg (pwrBlk + 4) = true ∧ lapStagedReg (pwrBlk + 4) = false ∧ q0Held tS (pwrBlk + 4) = false ∧ (locked tS pwrBlk && lockBinds .af) = false ∧
    (locked (tReg [(pwrBlk + 0xFFC, 0, 1, 1)]) pwrBlk && lockBinds .af && decide ((regRow (pwrBlk + 4)).rwl ≠ 0)) = true ∧ blockOf 0xFFFFFFFC = none := by decide +kernel
theorem wit_bar2 : bar2Addr tS 0 (2 ^ 30 - 64) 64 = some (2 ^ 30 - 64) ∧ bar2Addr tS 0 (2 ^ 30 - 63) 64 = none := by
  have h : (getFn tS 0).barGiB = 1 := by decide
  have b : afBar2Base tS = 0 := by decide +kernel
  exact ⟨by simp [bar2Addr, h, b, place], by simp [bar2Addr, h]⟩
theorem wit_bar2_spans : (readSpan tS (hostAcc 0) 0 64).ok = false ∧ (readSpan (tReg [(domReg 84, 31, 1, 1)]) (hostAcc 0) 0 64).ok = true ∧
    (writeSpan (hostAcc 0) 0 [1#8] false (.start (tReg [(domReg 84, 31, 1, 1)]))).ok = true := by decide +kernel

/-! ### Single steps and operations, against the spec's examples -/

/-- Example 2.1. -/
theorem test_plain_address : plainLoc 0x12345800 = ⟨3, 2, 13, 72, 0⟩ := by decide +kernel
theorem test_pim_address : (pimLoc true 0x0B4C0000).stack = 7 ∧ (pimLoc true 0x0B4C0000).channel = 20 ∧ (pimLoc true 0x0B4C0000).bank = 10 ∧ (pimLoc true 0x0B4C0000).page = 0 ∧
    (pimLoc true 0x0B4C0000).nmu = 165 := by decide +kernel
/-- Example 8.1. -/
theorem test_scratch_byte : bankOf 0x12345600 = 555 ∧ bankRow 0x12345600 = 564 ∧ bankOf 0x12345600 % 8 = 3 := by decide +kernel
/-- R31's example: M03 bad gives M3→M04 up to M15→M16, with M17 the spare left. -/
theorem test_map_of_m_cores : (let s := mapCluster 0 (failCores 0 0 [3] tS)
    (physCore s 0 0 2, physCore s 0 0 3, physCore s 0 0 15)) = (2, 4, 16) := by decide +kernel
/-- Example 7.1. -/
theorem test_stochastic_rounding : fpEnc (vFmt 1) (.sr 0x5FFFFFFF) false (dec32 0x3F806000) = 0x3F81 ∧ fpEnc (vFmt 1) (.sr 0x60000000) false (dec32 0x3F806000) = 0x3F80 := by decide +kernel
/-- R301: sums wrap, and the absolute value of the least value is itself. -/
theorem test_integer_lanes : vaddLane 3 0xFFFFFFFF 2 = 1 ∧ vabsLane 3 0x80000000 = 0x80000000 := by decide +kernel
/-- What a command's next state holds. -/
def tThen {α : Type} (c : Instr) (s : State) (f : State → α) : Option α :=
  match exec c s with
  | .next t => some (f t)
  | _ => none
/-- Example 3.1: the slack of a lap that ends 2.380 µs late is recorded as −238. -/
theorem test_slack_of_a_late_lap : tThen (.lapDone 0 52380) { tRun with jobs := [{ tJob with next := 1, due := some 50000 }] } (fun t => (rawReg t (viPage 0 + 0x24)).toInt) = some (-238) := by
  decide +kernel
/-- Example 4.1: a flush of two commands of two slots gives RESULT0 2 and RESULT1 0x000A. -/
theorem test_flush : tThen (.flushQueue (tH) 2) { setEpochs 0 2 9 9 (setPair 0 2 { tPair with slots := 256, head := 36, tail := 40 } (tReg [(domReg 85, 31, 1, 1)])) with
    mem := [(64 * 36 + 2, 1#8), (64 * 38 + 2, 1#8)] } (fun t => (t.scribe.replies.map (fun r => (r.r0, r.r1)), (getPair t 0 2).map (fun p => p.head))) = some ([(2, 10)], some 40) := by decide +kernel
/-- Example 4.1: a doorbell of the old epoch is counted and moves nothing; one of the new epoch moves T. -/
theorem test_doorbells : let s := setEpochs 0 2 10 9 (setPair 0 2 { tPair with slots := 256, head := 40, tail := 40 } tS)
    tThen (.sqDoorbell 0 2 0x0009002B#32) s (fun t => (rawReg t (viPage 0 + 0x14), (getPair t 0 2).map (fun p => p.tail))) = some (1#32, some 40) ∧
    tThen (.sqDoorbell 0 2 0x000A002B#32) s (fun t => (rawReg t (viPage 0 + 0x14), (getPair t 0 2).map (fun p => p.tail))) = some (0#32, some 43) := by decide +kernel
/-- Table 5.12: in CYCLE mode an arrival past TARGET releases once and keeps the rest; TARGET 0 acts as 1. -/
theorem test_hurdle_cycle : tThen (.hurdleOpApply 0 [.reset, .arrive 5]) { tS with hurdles := [(0, { count := 3, mode := 1, target := 4 })] } (fun t => (getHurdle t 0).count) = some 1 ∧
    tThen (.hurdleOpApply 0 [.arrive 1]) { tS with hurdles := [(0, { mode := 1, target := 0 })] } (fun t => (getHurdle t 0).gen) = some 1 := by decide +kernel
/-- R458: a lane word adds the lanes of VR2 and VR3 into VR1. -/
theorem test_nmu_add : tThen (.nmuVadd 0 0 tE) (tNmu [tN 0x20 (2 ^ 52 + 2 * 2 ^ 46 + 3 * 2 ^ 40)] { launch := tL, vr := [(2, nvOf [0x3F800000]), (3, nvOf [0x40000000])] })
    (fun t => (getNmu t 0 0).run.map (fun r => (nvGet (r.vrOf 1) 0, r.pc))) = some (some (0x40400000, 1)) := by decide +kernel
/-- R136 and R717. -/
theorem test_functions_and_supply : tThen (.vfEnableSet 2) tS (fun t => ((getFn t 2).enabled, (getFn t 3).enabled)) = some (true, false) ∧
    tThen .vpkgUndervoltage (tReg [(0x800, 24, 1, 1)]) (fun t => t.pins.offAt) = some (some 0) := by decide +kernel
/-- R693's management: GET_VERSION answers with versions 1.2 and 1.3 (R699). -/
theorem test_versions : tThen (.getVersion [0x10#8, 0x84#8, 0#8, 0#8]) tS (fun t => t.out) =
    some [.management 5 [0x10#8, 0x04#8, 0#8, 0#8, 0#8, 2#8, 0#8, 0x12#8, 0#8, 0x13#8]] := by decide +kernel
/-- R67: a write of a register of a locked block holds and sets REFUSED. -/
theorem test_locked_write : tThen (.registerWrite .af (pwrBlk + 4) 4 1500) (tFw (tReg [(pwrBlk + 0xFFC, 0, 1, 1)])) (fun t => (t.hub.stagedRegs, rawReg t (pwrBlk + 4))) = some ([], 0xA28#32) := by decide +kernel
/-- R738: an access without its scope ends with status 3. -/
theorem test_debug_refused : tThen .dbgAccessDone (tDbg 1 0 0) (fun t => (t.dbg.busy, t.dbg.status)) = some (false, 3) := by decide +kernel
/-- Table 13.5: eight lanes detected in each direction lead from DETECT to the next state. -/
theorem test_training : tThen (.portStateDone 0 ⟨8, 8, [], [], 0, 0, true⟩) (tUp 1) (fun t => portState t 0) = some 2 := by decide +kernel
/-- R98: a tick sends a header on every port in service and pulses PACE_OUT. -/
theorem test_tick : tThen .tick (tPace) (fun t => (t.out, t.now, t.pace.startPassed)) = some ([.paceOut], 1000000, false) := by decide +kernel
end Sys2Proof.Tests
end

section
/-!
Every command keeps its frame: one law per command (Laws/Keep…), put together over the commands, and what a step keeps from it.
-/
namespace Sys2Proof.Machine

/-- The law of each command's meaning, command by command, in the order of `exec`. -/
theorem exec_keeps (c : Instr) (s : State) : KeepsOut (frameOf c) s (exec c s) := by
  cases c with
  | tick => exact execTick_keeps s
  | startLine => exact execStartLine_keeps s
  | clusterFirstIssue c => exact execClusterFirstIssue_keeps c s
  | rampInterval c => exact execRampInterval_keeps c s
  | rampRestart c => exact execRampRestart_keeps c s
  | lapDone job t => exact execLapDone_keeps job t s
  | tickHeaderReceive port => exact execTickHeaderReceive_keeps port s
  | paceInEdge t => exact execPaceInEdge_keeps t s
  | paceMissing => exact execPaceMissing_keeps s
  | paceCountClear d => exact execPaceCountClear_keeps d s
  | registerWrite q addr size data => exact execRegisterWrite_keeps q addr size data s
  | blkLock q block d => exact execBlkLock_keeps q block d s
  | loReadLatch q off size => exact execLoReadLatch_keeps q off size s
  | afBar2BaseApply d => exact execAfBar2BaseApply_keeps d s
  | warmReset => exact execWarmReset_keeps s
  | sqDoorbell fn pair d => exact execSqDoorbell_keeps fn pair d s
  | cqHeadDoorbell fn pair d => exact execCqHeadDoorbell_keeps fn pair d s
  | commandDispatch => exact execCommandDispatch_keeps s
  | commandWaitRelease => exact execCommandWaitRelease_keeps s
  | firmwareInboxServe => exact execFirmwareInboxServe_keeps s
  | statusReplyWrite => exact execStatusReplyWrite_keeps s
  | cqCoalTimeout fn pair t => exact execCqCoalTimeout_keeps fn pair t s
  | nop h => exact execNop_keeps h s
  | createQueue h q => exact execCreateQueue_keeps h q s
  | deleteQueue h pair => exact execDeleteQueue_keeps h pair s
  | flushQueue h pair => exact execFlushQueue_keeps h pair s
  | viCreate h vi payload => exact execViCreate_keeps h vi payload s
  | viDestroy h vi => exact execViDestroy_keeps h vi s
  | viReset h vi => exact execViReset_keeps h vi s
  | viQuery h dst vi => exact execViQuery_keeps h dst vi s
  | loadSchedule h image len => exact execLoadSchedule_keeps h image len s
  | unloadSchedule h sched => exact execUnloadSchedule_keeps h sched s
  | startJob h sched laps mode kind => exact execStartJob_keeps h sched laps mode kind s
  | launchLap h sched count => exact execLaunchLap_keeps h sched count s
  | stopJob h sched => exact execStopJob_keeps h sched s
  | haltAtLap h sched lap => exact execHaltAtLap_keeps h sched lap s
  | hurdleArrive h count hurdle => exact execHurdleArrive_keeps h count hurdle s
  | hurdleWait h hurdle => exact execHurdleWait_keeps h hurdle s
  | copy h src dst len host => exact execCopy_keeps h src dst len host s
  | fill h dst len pattern => exact execFill_keeps h dst len pattern s
  | retiredPagesRead h dst max => exact execRetiredPagesRead_keeps h dst max s
  | kvPoolSet h base pages pageBytes => exact execKvPoolSet_keeps h base pages pageBytes s
  | kvSeqCreate h seq layers => exact execKvSeqCreate_keeps h seq layers s
  | kvSeqFork h src dst tokens => exact execKvSeqFork_keeps h src dst tokens s
  | kvSeqFree h seq => exact execKvSeqFree_keeps h seq s
  | kvSpillPolicy h farBase farPages high low => exact execKvSpillPolicy_keeps h farBase farPages high low s
  | shardExport h dst len first count => exact execShardExport_keeps h dst len first count s
  | shardImport h src len => exact execShardImport_keeps h src len s
  | seedSet h seed step => exact execSeedSet_keeps h seed step s
  | configBaseLoad h src len target => exact execConfigBaseLoad_keeps h src len target s
  | overlayApply h src len target slot => exact execOverlayApply_keeps h src len target slot s
  | overlayRemove h target slot => exact execOverlayRemove_keeps h target slot s
  | configRead h dst len => exact execConfigRead_keeps h dst len s
  | telemetrySnapshot h dst sets => exact execTelemetrySnapshot_keeps h dst sets s
  | countersRead h dst cluster => exact execCountersRead_keeps h dst cluster s
  | blotterRead h dst max => exact execBlotterRead_keeps h dst max s
  | lifeRecordRead h dst len => exact execLifeRecordRead_keeps h dst len s
  | powerCapSet h target watts => exact execPowerCapSet_keeps h target watts s
  | powerPlanSet h sched compute memory link floorStep => exact execPowerPlanSet_keeps h sched compute memory link floorStep s
  | park h => exact execPark_keeps h s
  | unpark h => exact execUnpark_keeps h s
  | unitOut h target unit => exact execUnitOut_keeps h target unit s
  | unitIn h target unit => exact execUnitIn_keeps h target unit s
  | unitTestDone kind index failed sweep => exact execUnitTestDone_keeps kind index failed sweep s
  | marchRun h first banks tower mode => exact execMarchRun_keeps h first banks tower mode s
  | portRetrain h port => exact execPortRetrain_keeps h port s
  | fwStage h src len => exact execFwStage_keeps h src len s
  | fwSwitch h target => exact execFwSwitch_keeps h target s
  | timeSet h utc => exact execTimeSet_keeps h utc s
  | viFlr n => exact execViFlr_keeps n s
  | afFlr => exact execAfFlr_keeps s
  | viResetDrainDone n => exact execViResetDrainDone_keeps n s
  | viScrubDone n => exact execViScrubDone_keeps n s
  | viQ0Enable fn d => exact execViQ0Enable_keeps fn d s
  | viCountClear fn d => exact execViCountClear_keeps fn d s
  | quillFetch c => exact execQuillFetch_keeps c s
  | strokeComplete r n => exact execStrokeComplete_keeps r n s
  | commonNop r w => exact execCommonNop_keeps r w s
  | lapEnd r w => exact execLapEnd_keeps r w s
  | delay r w => exact execDelay_keeps r w s
  | relayFire c id waits => exact execRelayFire_keeps c id waits s
  | relayComplete c id => exact execRelayComplete_keeps c id s
  | msetb r w => exact execMsetb_keeps r w s
  | mlda r w => exact execMlda_keeps r w s
  | mlds r w => exact execMlds_keeps r w s
  | mpass r w faulty => exact execMpass_keeps r w faulty s
  | macl r w => exact execMacl_keeps r w s
  | mwb r w => exact execMwb_keeps r w s
  | weightRowRequest c core => exact execWeightRowRequest_keeps c core s
  | weightRowArrive c core stall => exact execWeightRowArrive_keeps c core stall s
  | mcCountClear c core d => exact execMcCountClear_keeps c core d s
  | vadd r w parity => exact execVadd_keeps r w parity s
  | vsub r w p => exact execVsub_keeps r w p s
  | vmul r w p => exact execVmul_keeps r w p s
  | vfma r w p => exact execVfma_keeps r w p s
  | vmax r w p => exact execVmax_keeps r w p s
  | vmin r w p => exact execVmin_keeps r w p s
  | vabs r w p => exact execVabs_keeps r w p s
  | vneg r w p => exact execVneg_keeps r w p s
  | vand r w p => exact execVand_keeps r w p s
  | vor r w p => exact execVor_keeps r w p s
  | vxor r w p => exact execVxor_keeps r w p s
  | vshift r w p => exact execVshift_keeps r w p s
  | vcmp r w p => exact execVcmp_keeps r w p s
  | vsel r w p => exact execVsel_keeps r w p s
  | vrot r w p => exact execVrot_keeps r w p s
  | vcvt r w p => exact execVcvt_keeps r w p s
  | vrgen r w p => exact execVrgen_keeps r w p s
  | vexp r w p => exact execVexp_keeps r w p s
  | vlog r w p => exact execVlog_keeps r w p s
  | vrsq r w p => exact execVrsq_keeps r w p s
  | vrcp r w p => exact execVrcp_keeps r w p s
  | vtanh r w p => exact execVtanh_keeps r w p s
  | vrsum r w p => exact execVrsum_keeps r w p s
  | vrmax r w p => exact execVrmax_keeps r w p s
  | vrmin r w p => exact execVrmin_keeps r w p s
  | vperm r w p => exact execVperm_keeps r w p s
  | vbcast r w p => exact execVbcast_keeps r w p s
  | vld r w p => exact execVld_keeps r w p s
  | vst r w p => exact execVst_keeps r w p s
  | vgath r w p => exact execVgath_keeps r w p s
  | vscat r w p => exact execVscat_keeps r w p s
  | vsetb r w => exact execVsetb_keeps r w s
  | vsetk r w => exact execVsetk_keeps r w s
  | vsetc r w => exact execVsetc_keeps r w s
  | vsetm r w => exact execVsetm_keeps r w s
  | vadamw r w p => exact execVadamw_keeps r w p s
  | vsgdm r w p => exact execVsgdm_keeps r w p s
  | vcCountClear c core d => exact execVcCountClear_keeps c core d s
  | scCountClear c core d => exact execScCountClear_keeps c core d s
  | salu r w parity => exact execSalu_keeps r w parity s
  | sli r w => exact execSli_keeps r w s
  | sget r w => exact execSget_keeps r w s
  | sld r w p => exact execSld_keeps r w p s
  | sst r w p => exact execSst_keeps r w p s
  | spush r w p => exact execSpush_keeps r w p s
  | sidx r w p => exact execSidx_keeps r w p s
  | ssetb r w p => exact execSsetb_keeps r w p s
  | sskip r w p => exact execSskip_keeps r w p s
  | sloop r w p => exact execSloop_keeps r w p s
  | sarrive r w p => exact execSarrive_keeps r w p s
  | swait r w p => exact execSwait_keeps r w p s
  | sreset r w => exact execSreset_keeps r w s
  | shread r w => exact execShread_keeps r w s
  | shtarget r w p => exact execShtarget_keeps r w p s
  | sxfer r w p => exact execSxfer_keeps r w p s
  | transferComplete c => exact execTransferComplete_keeps c s
  | hurdleOpApply n ops => exact execHurdleOpApply_keeps n ops s
  | hdlCtrlReset n d => exact execHdlCtrlReset_keeps n d s
  | hdlCtrlArrive n d => exact execHdlCtrlArrive_keeps n d s
  | hurdlePacket port => exact execHurdlePacket_keeps port s
  | bankAccess t lane cycle reqs => exact execBankAccess_keeps t lane cycle reqs s
  | sramPatrolRow t errs => exact execSramPatrolRow_keeps t errs s
  | bankWakeDone t bank => exact execBankWakeDone_keeps t bank s
  | gets m tower line along => exact execGets_keeps m tower line along s
  | getx m tower line whole along => exact execGetx_keeps m tower line whole along s
  | writeBack m tower line along => exact execWriteBack_keeps m tower line along s
  | homeExternalRead m fn addr along => exact execHomeExternalRead_keeps m fn addr along s
  | homeExternalWrite m fn addr data blot along => exact execHomeExternalWrite_keeps m fn addr data blot along s
  | recallS m tower line => exact execRecallS_keeps m tower line s
  | recallInv m tower line => exact execRecallInv_keeps m tower line s
  | invLine m tower line => exact execInvLine_keeps m tower line s
  | recallNack m tower line => exact execRecallNack_keeps m tower line s
  | wbAck m tower line => exact execWbAck_keeps m tower line s
  | lineGrantArrive m tower line => exact execLineGrantArrive_keeps m tower line s
  | marchStart q t d => exact execMarchStart_keeps q t d s
  | marchDone t failing => exact execMarchDone_keeps t failing s
  | cluBankClear c d => exact execCluBankClear_keeps c d s
  | twrProtClear t d => exact execTwrProtClear_keeps t d s
  | twrConfClear t d => exact execTwrConfClear_keeps t d s
  | dirCountClear m d => exact execDirCountClear_keeps m d s
  | pageAccess m ch arrivals errors cycles t => exact execPageAccess_keeps m ch arrivals errors cycles t s
  | regionConvert found => exact execRegionConvert_keeps found s
  | stackPatrolPass m t => exact execStackPatrolPass_keeps m t s
  | mscEccClear m d => exact execMscEccClear_keeps m d s
  | mscSrcClear m d => exact execMscSrcClear_keeps m d s
  | farAccess fn by_ addr write poison fail => exact execFarAccess_keeps fn by_ addr write poison fail s
  | cxlCompletionTimeout fn by_ addr => exact execCxlCompletionTimeout_keeps fn by_ addr s
  | cxlDown p powerLost => exact execCxlDown_keeps p powerLost s
  | cxlEvent p expander kind => exact execCxlEvent_keeps p expander kind s
  | cxlCountClear p d => exact execCxlCountClear_keeps p d s
  | nmuLaunch st u => exact execNmuLaunch_keeps st u s
  | nmuNop st u e => exact execNmuNop_keeps st u e s
  | nmuEnd st u e => exact execNmuEnd_keeps st u e s
  | nmuYield st u e waitEven waitOdd => exact execNmuYield_keeps st u e waitEven waitOdd s
  | nmuLoop st u e => exact execNmuLoop_keeps st u e s
  | saddi st u e => exact execSaddi_keeps st u e s
  | sadd st u e => exact execSadd_keeps st u e s
  | sshl st u e => exact execSshl_keeps st u e s
  | nopen st u e => exact execNopen_keeps st u e s
  | nclr st u e => exact execNclr_keeps st u e s
  | nwb st u e => exact execNwb_keeps st u e s
  | nld st u e => exact execNld_keeps st u e s
  | nldi st u e => exact execNldi_keeps st u e s
  | nst st u e => exact execNst_keeps st u e s
  | nres st u e => exact execNres_keeps st u e s
  | nress st u e => exact execNress_keeps st u e s
  | nmuVadd st u e => exact execNmuVadd_keeps st u e s
  | nmuVsub st u e => exact execNmuVsub_keeps st u e s
  | nmuVmul st u e => exact execNmuVmul_keeps st u e s
  | nmuVfma st u e => exact execNmuVfma_keeps st u e s
  | nmuVmax st u e => exact execNmuVmax_keeps st u e s
  | vfmas st u e => exact execVfmas_keeps st u e s
  | vmuls st u e => exact execVmuls_keeps st u e s
  | vimm st u e => exact execVimm_keeps st u e s
  | vtail st u e => exact execVtail_keeps st u e s
  | hsum st u e => exact execHsum_keeps st u e s
  | hmax st u e => exact execHmax_keeps st u e s
  | hexp st u e => exact execHexp_keeps st u e s
  | nmuTransferDone st u errors cycles naw => exact execNmuTransferDone_keeps st u errors cycles naw s
  | nmuStackClear m d => exact execNmuStackClear_keeps m d s
  | nmuCountClear m u d => exact execNmuCountClear_keeps m u d s
  | attLaunch d waited => exact execAttLaunch_keeps d waited s
  | nmuCompletion st u => exact execNmuCompletion_keeps st u s
  | kvAppend d => exact execKvAppend_keeps d s
  | pageRequest d => exact execPageRequest_keeps d s
  | kvFetch d => exact execKvFetch_keeps d s
  | kvDecode d => exact execKvDecode_keeps d s
  | kvFill d => exact execKvFill_keeps d s
  | attCountClear d w => exact execAttCountClear_keeps d w s
  | attLabFlush d w => exact execAttLabFlush_keeps d w s
  | collectiveFire => exact execCollectiveFire_keeps s
  | collPacket port => exact execCollPacket_keeps port s
  | collectiveComplete => exact execCollectiveComplete_keeps s
  | colCountClear e d => exact execColCountClear_keeps e d s
  | flitReceive port f t => exact execFlitReceive_keeps port f t s
  | portNoFlitTimeout port t => exact execPortNoFlitTimeout_keeps port t s
  | portStateDone port f => exact execPortStateDone_keeps port f s
  | portStateTimeout port => exact execPortStateTimeout_keeps port s
  | berWindow port => exact execBerWindow_keeps port s
  | ident port => exact execIdent_keeps port s
  | topo port => exact execTopo_keeps port s
  | roleReq port => exact execRoleReq_keeps port s
  | roleGrant port => exact execRoleGrant_keeps port s
  | roleCancel port => exact execRoleCancel_keeps port s
  | peerLost port => exact execPeerLost_keeps port s
  | tickMarker port phase => exact execTickMarker_keeps port phase s
  | markerMissing => exact execMarkerMissing_keeps s
  | fjlCountClear port d => exact execFjlCountClear_keeps port d s
  | fjsCountClear d => exact execFjsCountClear_keeps d s
  | controlWindow w => exact execControlWindow_keeps w s
  | vfTransition c => exact execVfTransition_keeps c s
  | voltageSettled n mv => exact execVoltageSettled_keeps n mv s
  | droopCrossing c => exact execDroopCrossing_keeps c s
  | droopRelease c positions => exact execDroopRelease_keeps c positions s
  | pmbusPoll readings => exact execPmbusPoll_keeps readings s
  | pmbusGain pmbus converters => exact execPmbusGain_keeps pmbus converters s
  | rinWindow n estimates => exact execRinWindow_keeps n estimates s
  | vrAlert input asserted t => exact execVrAlert_keeps input asserted t s
  | vrAlertRelease t => exact execVrAlertRelease_keeps t s
  | sensorConversion n reading toggle => exact execSensorConversion_keeps n reading toggle s
  | thmTrigger d => exact execThmTrigger_keeps d s
  | tripSample hot => exact execTripSample_keeps hot s
  | tripRestart t => exact execTripRestart_keeps t s
  | coolantPoll readings => exact execCoolantPoll_keeps readings s
  | rthHour x => exact execRthHour_keeps x s
  | thermalCycleSecond t x => exact execThermalCycleSecond_keeps t x s
  | thmRthReset d => exact execThmRthReset_keeps d s
  | thmCountClear d => exact execThmCountClear_keeps d s
  | pwrCountClear d => exact execPwrCountClear_keeps d s
  | cluPwrClear c d => exact execCluPwrClear_keeps c d s
  | blotterAccept => exact execBlotterAccept_keeps s
  | recordClose t => exact execRecordClose_keeps t s
  | bltCountClear d => exact execBltCountClear_keeps d s
  | outOfService => exact execOutOfService_keeps s
  | hubWdtKick d t => exact execHubWdtKick_keeps d t s
  | watchdog t => exact execWatchdog_keeps t s
  | fwReady => exact execFwReady_keeps s
  | fwSwitchTimeout => exact execFwSwitchTimeout_keeps s
  | lifeHour tj poweredSeconds joules => exact execLifeHour_keeps tj poweredSeconds joules s
  | lifeDay => exact execLifeDay_keeps s
  | coldBringup => exact execColdBringup_keeps s
  | bringupStage f => exact execBringupStage_keeps f s
  | farScrubDone p piece => exact execFarScrubDone_keeps p piece s
  | brgRecGo d => exact execBrgRecGo_keeps d s
  | secLcCtrl d => exact execSecLcCtrl_keeps d s
  | tamper asserted => exact execTamper_keeps asserted s
  | getVersion body => exact execGetVersion_keeps body s
  | getCapabilities body => exact execGetCapabilities_keeps body s
  | negotiateAlgorithms body => exact execNegotiateAlgorithms_keeps body s
  | getDigests body => exact execGetDigests_keeps body s
  | getCertificate body => exact execGetCertificate_keeps body s
  | challenge body => exact execChallenge_keeps body s
  | getMeasurements body => exact execGetMeasurements_keeps body s
  | mctpControl body => exact execMctpControl_keeps body s
  | setEventReceiver receiver => exact execSetEventReceiver_keeps receiver s
  | pldmSensorRead sensor => exact execPldmSensorRead_keeps sensor s
  | vpkgUndervoltage => exact execVpkgUndervoltage_keeps s
  | vpkgRestart t => exact execVpkgRestart_keeps t s
  | vauxLoss => exact execVauxLoss_keeps s
  | pinReadback output level => exact execPinReadback_keeps output level s
  | pinOffWrite d => exact execPinOffWrite_keeps d s
  | pinCountClear d => exact execPinCountClear_keeps d s
  | dbgToken token => exact execDbgToken_keeps token s
  | dbgAccess update => exact execDbgAccess_keeps update s
  | dbgAccessDone => exact execDbgAccessDone_keeps s
  | dbgHalt => exact execDbgHalt_keeps s
  | dbgResume => exact execDbgResume_keeps s
  | extest chain => exact execExtest_keeps chain s
  | samplePreload chain => exact execSamplePreload_keeps chain s
  | cluTrcClear c d => exact execCluTrcClear_keeps c d s
  | cluPerfClear c d => exact execCluPerfClear_keeps c d s
  | bar2Access fn off size write => exact execBar2Access_keeps fn off size write s
  | resizableBarSelect fn gib => exact execResizableBarSelect_keeps fn gib s
  | vfEnableSet numVfs => exact execVfEnableSet_keeps numVfs s
  | cxlLinkTrained p flit256 speed width => exact execCxlLinkTrained_keeps p flit256 speed width s
  | refresh m ch bank t => exact execRefresh_keeps m ch bank t s
  | verificationFail => exact execVerificationFail_keeps s

/-- A step answers a next state, which keeps what `Keeps` names of the state with the queue's rest. -/
theorem step_keeps (s : State) : ∃ m t, step s = .next t ∧ Keeps m { s with pending := s.pending.tail } t := by
  cases h : s.pending with
  | nil =>
    refine ⟨0, s, by simp only [step, h], ?_⟩
    rw [List.tail_nil, ← h]
    exact Keeps.refl 0 s
  | cons c r =>
    obtain ⟨t, ht, hk⟩ := exec_keeps c { s with pending := r }
    exact ⟨frameOf c, t, by simp only [step, h, ht], hk⟩

/-- Settles O5: the laws of all commands. -/
theorem everyCommandKeepsItsFrame : Obligations.EveryCommandKeepsItsFrame := exec_keeps

/-- Settles O4: what a step keeps includes the canonical form. -/
theorem everyStepKeepsTheForm : Obligations.EveryStepKeepsTheForm := by
  intro s t hs ht
  obtain ⟨m, u, hu, hk⟩ := step_keeps s
  obtain rfl : u = t := Host.Outcome.next.inj (hu.symm.trans ht)
  exact hk.canonical hs

/-- Settles O6: a step answers a next state, whose queue, time and log what it keeps names. -/
theorem everyStepGoesOn : Obligations.EveryStepGoesOn := by
  intro s
  obtain ⟨m, t, ht, hk⟩ := step_keeps s
  exact ⟨t, ht, hk.pending, hk.now, hk.out⟩

end Sys2Proof.Machine
end

section
/-!
The address maps of stack memory (R59, R386) and of the near-memory units (R428).
-/
namespace Sys2Proof.Machine

/-- A logical page index gives back the channel, the bank and the page. -/
theorem lpi_parts (l : DramLoc) (hp : l.page < 65536) (hb : l.bank < 16) :
    l.lpi / 65536 / 16 = l.channel ∧ l.lpi / 65536 % 16 = l.bank ∧ l.lpi % 65536 = l.page := by
  unfold DramLoc.lpi
  omega

/-- The address of a page in plain stack memory, by its location. -/
theorem pageAddr_plain (s : State) (l : DramLoc) (hp : l.page < 65536) (hb : l.bank < 16) (hm : l.stack < 4) :
    pageAddr s l.stack l.lpi = ((l.page * 16 + l.bank) * 32 + l.channel) * 4 * 2048 + 2048 * l.stack := by
  obtain ⟨hc, hk, hr⟩ := lpi_parts l hp hb
  simp only [pageAddr, hr, hc, hk, if_pos hm]

/-- The address of a page in a PIM-local region, by its location. -/
theorem pageAddr_pimLocal (s : State) (l : DramLoc) (hp : l.page < 65536) (hb : l.bank < 16) (hm : 4 ≤ l.stack)
    (h : pimLocal s (l.page / 64 / 4) = true) :
    pageAddr s l.stack l.lpi =
      pimBase + ((((l.page / 64 * 8 + l.bank / 2) * 32 + l.channel) * 4 + (l.stack - 4)) * 128 + (2 * (l.page % 64) + l.bank % 2)) * 2048 := by
  obtain ⟨hc, hk, hr⟩ := lpi_parts l hp hb
  simp only [pageAddr, hr, hc, hk, if_neg (Nat.not_lt.2 hm), h, if_true]

/-- The address of a page in a PIM region that is not PIM-local, by its location. -/
theorem pageAddr_pimSpread (s : State) (l : DramLoc) (hp : l.page < 65536) (hb : l.bank < 16) (hm : 4 ≤ l.stack)
    (h : pimLocal s (l.page / 64 / 4) = false) :
    pageAddr s l.stack l.lpi =
      pimBase + 2 ^ 30 * (l.page / 64 / 4) +
        ((((l.page / 64 % 4) * 128 + (2 * (l.page % 64) + l.bank % 2)) * 8 + l.bank / 2) * 32 + l.channel) * 4 * 2048 + 2048 * (l.stack - 4) := by
  obtain ⟨hc, hk, hr⟩ := lpi_parts l hp hb
  simp only [pageAddr, hr, hc, hk, if_neg (Nat.not_lt.2 hm), h, Bool.false_eq_true, if_false]

/-! ### The fields of an address, as digits of it -/

theorem plainLoc_digits (a : Nat) :
    plainLoc a = { stack := a / 2 ^ 11 % 4, channel := a / 2 ^ 13 % 32, bank := a / 2 ^ 18 % 16, page := a / 2 ^ 22, byte := a % 2048 } := by
  simp only [plainLoc, Nat.shiftRight_eq_div_pow, Nat.div_div_eq_div_mul, Nat.reducePow, Nat.reduceMul]

theorem pimLoc_local_digits (o : Nat) :
    pimLoc true o =
      { stack := 4 + o / 2 ^ 18 % 4
        channel := o / 2 ^ 20 % 32
        bank := 2 * (o / 2 ^ 25 % 8) + o / 2 ^ 11 % 2
        page := o / 2 ^ 28 * 64 + o / 2 ^ 12 % 64
        byte := o % 2048 } := by
  simp only [pimLoc, Nat.shiftRight_eq_div_pow, Nat.div_div_eq_div_mul, if_true, Nat.reducePow, Nat.reduceMul, DramLoc.mk.injEq, true_and, and_true]
  omega

theorem pimLoc_spread_digits (o : Nat) :
    pimLoc false o =
      { stack := 4 + o / 2 ^ 11 % 4
        channel := o / 2 ^ 13 % 32
        bank := 2 * (o / 2 ^ 18 % 8) + o / 2 ^ 21 % 2
        page := o / 2 ^ 28 * 64 + o / 2 ^ 22 % 64
        byte := o % 2048 } := by
  have hcut : o % 2 ^ 30 / 2 ^ 11 = o / 2 ^ 11 % 2 ^ 19 := by omega
  simp only [pimLoc, Nat.shiftRight_eq_div_pow, hcut, Bool.false_eq_true, if_false, DramLoc.mk.injEq, and_true]
  refine ⟨?_, ?_, ?_, ?_⟩ <;> omega

/-- The bounds of a location in plain stack memory. -/
theorem plainLoc_bounds (a : Nat) (h : a < 0x004000000000) :
    (plainLoc a).stack < 4 ∧ (plainLoc a).channel < 32 ∧ (plainLoc a).bank < 16 ∧ (plainLoc a).page < 65536 := by
  rw [plainLoc_digits]
  dsimp only
  omega

/-- The bounds of a location in PIM stack memory, in both modes. -/
theorem pimLoc_bounds (lcl : Bool) (o : Nat) (h : o < 0x003000000000) :
    4 ≤ (pimLoc lcl o).stack ∧ (pimLoc lcl o).stack < 8 ∧ (pimLoc lcl o).channel < 32 ∧ (pimLoc lcl o).bank < 16 ∧
      (pimLoc lcl o).page < 49152 := by
  cases lcl with
  | true => rw [pimLoc_local_digits]; dsimp only; omega
  | false => rw [pimLoc_spread_digits]; dsimp only; omega

/-- The slot of a page in its bank pair is the same in both modes. -/
theorem pimLoc_slot (lcl : Bool) (o : Nat) : (pimLoc lcl o).page / 64 = o / 2 ^ 28 := by
  cases lcl with
  | true => rw [pimLoc_local_digits]; dsimp only; omega
  | false => rw [pimLoc_spread_digits]; dsimp only; omega

/-- A region keeps its slots 4r to 4r + 3 in both modes. -/
theorem pimLoc_region (lcl : Bool) (o : Nat) : (pimLoc lcl o).page / 64 / 4 = o >>> 30 := by
  rw [pimLoc_slot, Nat.shiftRight_eq_div_pow]
  omega

/-! ### The inverse: the digits are joined again, the highest first -/

theorem plainLoc_inverts (s : State) (a : Nat) (h : a < 0x004000000000) :
    pageAddr s (plainLoc a).stack (plainLoc a).lpi + (plainLoc a).byte = a := by
  obtain ⟨hm, -, hb, hp⟩ := plainLoc_bounds a h
  have hbank : a / 2 ^ 22 * 16 + a / 2 ^ 18 % 16 = a / 2 ^ 18 := by omega
  have hchannel : a / 2 ^ 18 * 32 + a / 2 ^ 13 % 32 = a / 2 ^ 13 := by omega
  rw [pageAddr_plain s _ hp hb hm, plainLoc_digits]
  dsimp only
  rw [hbank, hchannel]
  omega

theorem pimLoc_local_inverts (s : State) (o : Nat) (h : o < 0x003000000000) (hl : pimLocal s (o >>> 30) = true) :
    pageAddr s (pimLoc true o).stack (pimLoc true o).lpi + (pimLoc true o).byte = pimBase + o := by
  obtain ⟨hm, -, -, hb, hp⟩ := pimLoc_bounds true o h
  rw [pageAddr_pimLocal s _ (by omega) hb hm (by rw [pimLoc_region, hl]), pimLoc_slot, pimLoc_local_digits]
  have hpair : (2 * (o / 2 ^ 25 % 8) + o / 2 ^ 11 % 2) / 2 = o / 2 ^ 25 % 8 := by omega
  have hpage : 2 * ((o / 2 ^ 28 * 64 + o / 2 ^ 12 % 64) % 64) + (2 * (o / 2 ^ 25 % 8) + o / 2 ^ 11 % 2) % 2 = o / 2 ^ 11 % 128 := by omega
  have h25 : o / 2 ^ 28 * 8 + o / 2 ^ 25 % 8 = o / 2 ^ 25 := by omega
  have h20 : o / 2 ^ 25 * 32 + o / 2 ^ 20 % 32 = o / 2 ^ 20 := by omega
  have h18 : o / 2 ^ 20 * 4 + o / 2 ^ 18 % 4 = o / 2 ^ 18 := by omega
  have h11 : o / 2 ^ 18 * 128 + o / 2 ^ 11 % 128 = o / 2 ^ 11 := by omega
  dsimp only
  rw [Nat.add_sub_cancel_left, hpair, hpage, h25, h20, h18, h11]
  omega

theorem pimLoc_spread_inverts (s : State) (o : Nat) (h : o < 0x003000000000) (hl : pimLocal s (o >>> 30) = false) :
    pageAddr s (pimLoc false o).stack (pimLoc false o).lpi + (pimLoc false o).byte = pimBase + o := by
  obtain ⟨hm, -, -, hb, hp⟩ := pimLoc_bounds false o h
  rw [pageAddr_pimSpread s _ (by omega) hb hm (by rw [pimLoc_region, hl]), pimLoc_slot, pimLoc_spread_digits]
  have hpair : (2 * (o / 2 ^ 18 % 8) + o / 2 ^ 21 % 2) / 2 = o / 2 ^ 18 % 8 := by omega
  have hpage : 2 * ((o / 2 ^ 28 * 64 + o / 2 ^ 22 % 64) % 64) + (2 * (o / 2 ^ 18 % 8) + o / 2 ^ 21 % 2) % 2 = o / 2 ^ 21 % 128 := by omega
  have h21 : o / 2 ^ 28 % 4 * 128 + o / 2 ^ 21 % 128 = o / 2 ^ 21 % 2 ^ 9 := by omega
  have h18 : o / 2 ^ 21 % 2 ^ 9 * 8 + o / 2 ^ 18 % 8 = o / 2 ^ 18 % 2 ^ 12 := by omega
  have h13 : o / 2 ^ 18 % 2 ^ 12 * 32 + o / 2 ^ 13 % 32 = o / 2 ^ 13 % 2 ^ 17 := by omega
  dsimp only
  rw [Nat.add_sub_cancel_left, hpair, hpage, h21, h18, h13]
  omega

theorem pimLoc_inverts (s : State) (o : Nat) (h : o < 0x003000000000) :
    pageAddr s (pimLoc (pimLocal s (o >>> 30)) o).stack (pimLoc (pimLocal s (o >>> 30)) o).lpi + (pimLoc (pimLocal s (o >>> 30)) o).byte =
      pimBase + o := by
  cases hl : pimLocal s (o >>> 30) with
  | true => exact pimLoc_local_inverts s o h hl
  | false => exact pimLoc_spread_inverts s o h hl

/-- Settles O11: the plain region, PIM memory in both modes, and the slots of a region. -/
theorem stackMapInverts : Obligations.StackMapInverts :=
  ⟨fun s a h => ⟨plainLoc_inverts s a h, plainLoc_bounds a h⟩,
    fun s o h => ⟨pimLoc_inverts s o h, pimLoc_bounds _ o h⟩,
    fun l o _ => pimLoc_region l o⟩

/-- The unit's local address of a PIM-local address leads back to its place. -/
theorem lamLoc_pimLocal (o : Nat) (h : o < 0x003000000000) :
    lamLoc ((pimLoc true o).stack - 4) (pimLoc true o).nmu ((o >>> 28) * 2 ^ 18 + o % 2 ^ 18) = some (pimLoc true o) := by
  have hl : ¬ 0x0C000000 ≤ o / 2 ^ 28 * 2 ^ 18 + o % 2 ^ 18 := by omega
  have hbit : ∀ n, b2n (decide (n % 2 = 1)) = n % 2 := fun n => by
    unfold b2n
    split <;> simp_all
  have hslot : (o / 2 ^ 28 * 2 ^ 18 + o % 2 ^ 18) / 2 ^ 18 = o / 2 ^ 28 := by omega
  have hpage : (o / 2 ^ 28 * 2 ^ 18 + o % 2 ^ 18) / 2 ^ 11 % 128 = o / 2 ^ 11 % 128 := by omega
  rw [Nat.shiftRight_eq_div_pow, pimLoc_local_digits]
  simp only [lamLoc, if_neg hl, DramLoc.nmu, bankNo, hbit, hslot, hpage, Option.some.injEq, DramLoc.mk.injEq]
  refine ⟨?_, ?_, ?_, ?_, ?_⟩ <;> omega

/-- Settles O12: places of local addresses, and none past the banks. -/
theorem unitLocalAddresses : Obligations.UnitLocalAddresses :=
  ⟨lamLoc_pimLocal, fun _ _ _ h => if_pos h⟩

end Sys2Proof.Machine
end

section
/-!
What reset leaves.
-/
namespace Sys2Proof.Machine

/-- After reset a register reads its reset value: the register file lists none. -/
@[simp] theorem rawReg_reset (o : Nat) : rawReg State.reset o = regReset o := rfl

/-- A block whose BLK_LOCK resets to 0 is not locked after reset. -/
theorem locked_reset {b : Nat} (h : (regRow (b + 0xFFC)).reset = 0) : locked State.reset b = false := by
  unfold locked getB getF
  rw [rawReg_reset, regReset, h]
  decide

/-- Settles O3: the state after reset lists nothing, and the register maps give the values. -/
theorem resetLeavesTheResetValues : Obligations.ResetLeavesTheResetValues := by
  refine ⟨rfl, rfl, rfl, rfl, rfl, rfl, rfl, rawReg_reset, ?_, ?_, ?_, fun c => locked_reset ?_, locked_reset ?_, locked_reset ?_⟩
  · simp only [rawReg_reset]
    decide +kernel
  · rw [rawReg_reset]
    decide +kernel
  · rw [rawReg_reset]
    decide +kernel
  · revert c
    decide +kernel
  · decide +kernel
  · decide +kernel

end Sys2Proof.Machine
end

section
/-!
Writes of registers by access code (R66 to R69): the bits that a row's masks leave, and one rule for each way in which a write of a word ends.
-/
namespace Sys2Proof.Machine

/-! ### The masks, bit by bit -/

/-- A bit of a register after a write under a row's masks: written, then cleared on 1, then set on 1. -/
theorem getLsbD_maskWrite (r : RegRow) (lk : Bool) (old v : Word) (i : Nat) (h : i < 32) :
    (maskWrite r lk old v).getLsbD i =
      ((if (r.rw ||| r.rws ||| (if lk then 0 else r.rwl)).testBit i then v.getLsbD i else old.getLsbD i) && !(v.getLsbD i && r.w1c.testBit i) ||
        v.getLsbD i && r.w1s.testBit i) := by
  simp only [maskWrite, BitVec.getLsbD_or, BitVec.getLsbD_and, BitVec.getLsbD_not, BitVec.getLsbD_ofNat, h, decide_true, Bool.true_and]
  generalize (r.rw ||| r.rws ||| (if lk then 0 else r.rwl)).testBit i = w
  cases w <;> simp

/-- A bit that no writable mask names is under none with the block locked or not. -/
theorem testBit_writable_false {r : RegRow} {i : Nat} (lk : Bool) (h : (r.rw ||| r.rws ||| r.rwl).testBit i = false) :
    (r.rw ||| r.rws ||| (if lk then 0 else r.rwl)).testBit i = false := by
  cases lk with
  | false => exact h
  | true =>
    simp only [Nat.testBit_or, Bool.or_eq_false_iff] at h
    simp [Nat.testBit_or, h.1]

/-! ### How a write of a word ends -/

/-- An offset in no block is a bus error (R67). -/
theorem writeReg_hole (q : Requester) {o : Nat} (v : Word) (s : State) (h : blockOf o = none) : writeReg q o v s = regBusError q o false s := by
  simp only [writeReg, h]

section
variable {q : Requester} {o b : Nat} {s : State} (hb : blockOf o = some b) (hh : ¬ (hdlBlk ≤ o ∧ o < hdlBlk + 0x20000)) (hq : q0Held s o = false)
include hb hh hq

/-- A register that waits for no boundary takes its value at once. -/
theorem writeReg_plain (v : Word) (hs : (stagedReg o || lapStagedReg o) = false) (hl : (locked s b && lockBinds q && decide ((regRow o).rwl ≠ 0)) = false) :
    writeReg q o v s = writePlain o (locked s b && lockBinds q) v s := by
  simp only [writeReg, hb, if_neg hh, hq, hs, hl, Bool.false_eq_true, if_false]

/-- A staged register's value waits for its boundary. -/
theorem writeReg_staged (v : Word) (hs : (stagedReg o || lapStagedReg o) = true) (hl : (locked s b && lockBinds q && decide ((regRow o).rwl ≠ 0)) = false) :
    writeReg q o v s = writeStaged o (locked s b && lockBinds q) v s := by
  simp only [writeReg, hb, if_neg hh, hq, hs, hl, Bool.false_eq_true, if_false, if_true]

/-- A staged register whose fields are locked holds, and REFUSED is set (R69). -/
theorem writeReg_barred (v : Word) (hs : (stagedReg o || lapStagedReg o) = true) (hl : (locked s b && lockBinds q && decide ((regRow o).rwl ≠ 0)) = true) :
    writeReg q o v s = setB (b + 0xFFC) 1 true s := by
  simp only [writeReg, hb, if_neg hh, hq, hs, hl, Bool.false_eq_true, if_false, if_true]
end

/-- A write at once of a register other than AF_BAR2_BASE_HI sets that register, and may unmask a vector. -/
theorem writePlain_of_ne {o : Nat} (lk : Bool) (v : Word) (s : State) (h : o ≠ 0x1C) :
    writePlain o lk v s = msixUnmask o (setReg o (fixWrite s o (rawReg s o) (maskWrite (regRow o) lk (rawReg s o) v)) s) := by
  simp only [writePlain, if_neg h]

/-- A write of a staged register of the hub's blocks other than PACE_PERIOD only lists its value. -/
theorem writeStaged_low {o : Nat} (lk : Bool) (v : Word) (s : State) (hp : o ≠ 0x404) (hlow : o < 0x40000000) (hl : lapStagedReg o = false) :
    writeStaged o lk v s =
      modHub (fun h => { h with stagedRegs := kvInsert h.stagedRegs o (fixWrite s o (stagedValue s o) (maskWrite (regRow o) lk (stagedValue s o) v)) }) s := by
  have hd : ¬ (0x40000000 ≤ o ∧ o < 0x50000000 ∧ o % 0x01000000 = 4 ∧
      fixWrite s o (stagedValue s o) (maskWrite (regRow o) lk (stagedValue s o) v) ≠ rawReg s o) := fun h => absurd h.1 (Nat.not_le.2 hlow)
  simp only [writeStaged, hp, decide_false, Bool.false_and, Bool.false_eq_true, if_false, if_neg hd, hl]

/-- Settles O60: the masks bit by bit, then each way in which a write of a word ends. -/
theorem accessCodesHold : Obligations.AccessCodesHold := by
  refine ⟨?_, ?_, ?_, ?_, ?_, ?_, ?_, fun q o v s h => writeReg_hole q v s h⟩
  · intro r lk old v i hi hw hc hs
    simp [getLsbD_maskWrite r lk old v i hi, hw, hc, hs]
  · intro r lk old v i hi hw hc hs
    simp [getLsbD_maskWrite r lk old v i hi, hw, hc, hs]
  · intro r lk old v i hi hw hc hs
    simp [getLsbD_maskWrite r lk old v i hi, testBit_writable_false lk hw, hc, hs]
  · intro r lk old v i hi hw hc hs
    simp [getLsbD_maskWrite r lk old v i hi, testBit_writable_false lk hw, hc, hs]
  · intro q o b v s hb hh hq hne hs hlap hl
    rw [writeReg_plain hb hh hq v (by rw [hs, hlap]; rfl) hl, writePlain_of_ne _ v s hne]
  · intro q o b v s hb hh hq hne hlow hs hlap hl
    rw [writeReg_staged hb hh hq v (by rw [hs, hlap]; rfl) hl, writeStaged_low _ v s hne hlow hlap]
  · intro q o b v s hb hh hq hs hl
    exact writeReg_barred hb hh hq v hs hl

end Sys2Proof.Machine
end

section
/-!
Register and BAR2 accesses of a requester (R62, R64, R65, R76, R79, R239).
-/
namespace Sys2Proof.Machine

/-- The entry just listed is found. -/
theorem kvFind_kvInsert_same {α : Type} (m : List (Nat × α)) (k : Nat) (v : α) : kvFind (kvInsert m k v) k = some v := by
  rw [kvFind_kvInsert, if_pos rfl]

/-! ### Writes -/

section
variable {q : Requester} {s : State} (hd : hostDark s q = false) (hr : s.hub.recovery = false)
include hd hr

/-- An aligned word is one write. -/
theorem execRegisterWrite_word {a : Nat} (d : BitVec 64) (h : a % 4 = 0) :
    exec (.registerWrite q a 4 d) s = .next (writeAt q a (d.truncate 32) s) := by
  show execRegisterWrite q a 4 d s = _
  simp only [execRegisterWrite, hd, hr, h, Bool.false_eq_true, if_false, and_self, if_true]

/-- The host's aligned 64 bits are two writes, the lower word first. -/
theorem execRegisterWrite_long {a : Nat} (d : BitVec 64) (h : a % 8 = 0) (hq : reqNo q < 65) :
    exec (.registerWrite q a 8 d) s = .next (writeAt q (a + 4) ((d >>> 32).truncate 32) (writeAt q a (d.truncate 32) s)) := by
  show execRegisterWrite q a 8 d s = _
  simp [execRegisterWrite, hd, hr, h, hq]

/-- A write of another size or alignment is a bus error. -/
theorem execRegisterWrite_misfit {a n : Nat} (d : BitVec 64) (h4 : ¬ (n = 4 ∧ a % 4 = 0)) (h8 : ¬ (n = 8 ∧ a % 8 = 0 ∧ reqNo q < 65)) :
    exec (.registerWrite q a n d) s = .next (regBusError q a false s) := by
  show execRegisterWrite q a n d s = _
  simp only [execRegisterWrite, hd, hr, Bool.false_eq_true, if_false, if_neg h4, if_neg h8]

/-! ### Reads -/

/-- A read of an aligned word that reaches a register. -/
theorem execLoReadLatch_word {a : Nat} {x : Word} {t : State} (h : a % 4 = 0) (hx : readWordAt q a s = some (x, t)) :
    exec (.loReadLatch q a 4) s = .next (emit (.readData (reqFn q) (leBytes 4 x.toNat)) t) := by
  show execLoReadLatch q a 4 s = _
  simp only [execLoReadLatch, hd, hr, h, hx, Bool.false_eq_true, if_false, and_self, if_true]

/-- A read of an aligned word that reaches none is a bus error. -/
theorem execLoReadLatch_hole {a : Nat} (h : a % 4 = 0) (hx : readWordAt q a s = none) :
    exec (.loReadLatch q a 4) s = .next (regBusError q a true s) := by
  show execLoReadLatch q a 4 s = _
  simp only [execLoReadLatch, hd, hr, h, hx, Bool.false_eq_true, if_false, and_self, if_true]

/-- The host's aligned 64 bits that reach two registers are two reads, the lower first. -/
theorem execLoReadLatch_long {a : Nat} {x y : Word} {t u : State} (h : a % 8 = 0) (hq : reqNo q < 65) (h1 : readWordAt q a s = some (x, t))
    (h2 : readWordAt q (a + 4) t = some (y, u)) :
    exec (.loReadLatch q a 8) s = .next (emit (.readData (reqFn q) (leBytes 4 x.toNat ++ leBytes 4 y.toNat)) u) := by
  show execLoReadLatch q a 8 s = _
  simp [execLoReadLatch, hd, hr, h, hq, h1, h2]

/-- A read of another size or alignment is a bus error. -/
theorem execLoReadLatch_misfit {a n : Nat} (h4 : ¬ (n = 4 ∧ a % 4 = 0)) (h8 : ¬ (n = 8 ∧ a % 8 = 0 ∧ reqNo q < 65)) :
    exec (.loReadLatch q a n) s = .next (regBusError q a true s) := by
  show execLoReadLatch q a n s = _
  simp only [execLoReadLatch, hd, hr, Bool.false_eq_true, if_false, if_neg h4, if_neg h8]
end

/-- The state after a read of a _LO half: the _HI half is latched (R65). -/
def latched (q : Requester) (o : Nat) (s : State) : State :=
  { s with latches := kvInsert s.latches (latchKey q (o + 4)) (readReg s (o + 4)) }
/-- The state after a read of a latched _HI half: the latch is gone (R65). -/
def unlatched (q : Requester) (o : Nat) (s : State) : State := { s with latches := kvErase s.latches (latchKey q o) }

theorem latched_keeps (q : Requester) (o : Nat) (s : State) : Keeps Part.latches s (latched q o s) := Keeps.putLatches s _
theorem unlatched_keeps (q : Requester) (o : Nat) (s : State) : Keeps Part.latches s (unlatched q o s) := Keeps.putLatches s _
theorem kvFind_latched (q : Requester) (o : Nat) (s : State) : kvFind (latched q o s).latches (latchKey q (o + 4)) = some (readReg s (o + 4)) :=
  kvFind_kvInsert_same _ _ _
/-- A latch moves no address of a requester. -/
theorem windowOff_latched (q p : Requester) (o a : Nat) (s : State) : windowOff (latched q o s) p a = windowOff s p a := by
  cases p <;> rfl

theorem readBy_lo (q : Requester) {o : Nat} (s : State) (h : isLo o = true) : readBy q o s = (readReg s o, latched q o s) := if_pos h
theorem readBy_latched (q : Requester) {o : Nat} {s : State} {v : Word} (h : isLo o = false) (hv : kvFind s.latches (latchKey q o) = some v) :
    readBy q o s = (v, unlatched q o s) := by
  simp only [readBy, h, hv, Bool.false_eq_true, if_false, unlatched]
theorem readBy_unlatched (q : Requester) {o : Nat} {s : State} (h : isLo o = false) (hv : kvFind s.latches (latchKey q o) = none) :
    readBy q o s = (readReg s o, s) := by
  simp only [readBy, h, hv, Bool.false_eq_true, if_false]

/-- A read at an address that reaches a register. -/
theorem readWordAt_reg {q : Requester} {a o b : Nat} {s : State} (hw : windowOff s q a = some o) (hb : blockOf o = some b) :
    readWordAt q a s = some (readBy q o s) := by
  simp only [readWordAt, hw, hb, Option.bind_some, Option.map_some]

/-- A read at an address that reaches no register. -/
theorem readWordAt_none {q : Requester} {a : Nat} {s : State} (h : (windowOff s q a).bind blockOf = none) : readWordAt q a s = none := by
  unfold readWordAt
  cases hw : windowOff s q a with
  | none => rfl
  | some o =>
    rw [hw, Option.bind_some] at h
    simp only [Option.bind_some, h, Option.map_none]

/-- An outcome that gives a message after a change of the parts m changes the log as well. -/
theorem gives_emit {m : Nat} {s t : State} {o : Out} {x : Output} {p : State → Prop} (ho : o = .next (emit x t)) (hk : Keeps m s t)
    (hp : p (emit x t)) : Gives s o (m ||| Part.log) p :=
  ⟨emit x t, ho, (emit_keeps x t).via (by rw [Nat.or_comm, Nat.or_assoc, Nat.or_self]) (hk.mono (by rw [← Nat.or_assoc, Nat.or_self])), hp⟩

/-! ### The base of the AF's BAR2 -/

/-- A vector control word of no vector unmasks nothing. -/
theorem msixUnmask_low {o : Nat} (s : State) (h : o < 0x60000) : msixUnmask o s = s := by
  have h1 : ¬ (pcieBlk + 0x8000 ≤ o ∧ o < pcieBlk + 0x8800) := by unfold pcieBlk; omega
  have h2 : ¬ (0x00100000 ≤ o ∧ o < 0x00500000 ∧ 0xE000 ≤ o % 0x10000 ∧ o % 0x10000 < 0xE1E0) := by omega
  unfold msixUnmask
  rw [if_neg h1, if_neg h2]

/-- A write of AF_BAR2_BASE_HI takes the _LO value with it and sets the register. -/
theorem writeReg_bar2Hi (d : Word) (s : State) :
    writeReg .af 0x1C d s =
      setReg 0x1C (maskWrite (regRow 0x1C) (locked s 0) (rawReg s 0x1C) d) { s with latches := kvInsert s.latches barBaseLatch (rawReg s 0x18) } := by
  have hb : blockOf 0x1C = some 0 := by decide
  have hq : q0Held s 0x1C = false := rfl
  have hrow : decide ((regRow 0x1C).rwl ≠ 0) = false := by decide
  rw [writeReg_plain hb (by decide) hq d (by decide) (by rw [hrow, Bool.and_false])]
  simp only [writePlain, if_true]
  rw [msixUnmask_low _ (by decide), lockBinds, Bool.and_true]
  rfl

/-- The low field of n bits is told by its bits. -/
theorem fld_low_of_bits {x y : Word} {n : Nat} (h : ∀ i < n, x.getLsbD i = y.getLsbD i) : fld x 0 n = fld y 0 n := by
  unfold fld bits
  refine Nat.eq_of_testBit_eq fun i => ?_
  simp only [Nat.shiftRight_zero, Nat.testBit_mod_two_pow]
  by_cases hi : i < n
  · rw [BitVec.testBit_toNat, BitVec.testBit_toNat, h i hi]
  · simp [hi]

/-- The base that a write of AF_BAR2_BASE_HI leaves in effect (R79). -/
theorem afBar2Base_write (d : Word) (s : State) : afBar2Base (writeReg .af 0x1C d s) = fld (rawReg s 0x18) 30 2 * 2 ^ 30 + fld d 0 16 * 2 ^ 32 := by
  have hf : fld (maskWrite (regRow 0x1C) (locked s 0) (rawReg s 0x1C) d) 0 16 = fld d 0 16 := by
    refine fld_low_of_bits fun i hi => ?_
    have hw : (0xFFFF : Nat).testBit i = true := Nat.testBit_two_pow_sub_one 16 i ▸ decide_eq_true hi
    have hrow : regRow 0x1C = { base := 0, off := 0x1C, rw := 0xFFFF } := by decide
    rw [getLsbD_maskWrite _ _ _ _ _ (by omega), hrow]
    simp [hw]
  rw [writeReg_bar2Hi]
  simp only [afBar2Base, getF, rawReg_setReg_same, setReg_latches, kvFind_kvInsert_same, Option.getD_some, hf]

theorem execAfBar2BaseApply_gives (d : Word) (s : State) :
    Gives s (exec (.afBar2BaseApply d) s) (Part.regs ||| Part.latches)
      (fun t => afBar2Base t = fld (rawReg s 0x18) 30 2 * 2 ^ 30 + fld d 0 16 * 2 ^ 32) := by
  refine ⟨_, rfl, ?_, afBar2Base_write d s⟩
  rw [writeReg_bar2Hi]
  exact (setReg_keeps _ _ _).via (by decide) ((Keeps.putLatches s _).mono (by decide))

/-! ### BAR2 -/

/-- A read through BAR2 whose address is mapped, by whether the memory answers. -/
theorem bar2Read_mapped {f off n a : Nat} {s : State} (h : bar2Addr s f off n = some a) :
    bar2Read f off n s = if (readSpan s (hostAcc f) a n).ok then bumpFree (emit (.readData f (readSpan s (hostAcc f) a n).data) s)
      else emit (.unsupportedRequest f) (readError (hostAcc f) a s) := by
  simp only [bar2Read, h]

theorem bar2Read_unmapped {f off n : Nat} {s : State} (h : bar2Addr s f off n = none) : bar2Read f off n s = bar2Error f off true s := by
  simp only [bar2Read, h]

theorem bar2Write_unmapped {f off : Nat} {l : List Byte} {s : State} (h : bar2Addr s f off l.length = none) :
    bar2Write f off l s = bar2Error f off false s := by
  simp only [bar2Write, h]

/-- A write through BAR2 that meets no bus error lands. -/
theorem bar2Write_ok {f off a : Nat} {l : List Byte} {s : State} (h : bar2Addr s f off l.length = some a)
    (hok : (writeSpan (hostAcc f) a l false (.start s)).ok = true) : bar2Write f off l s = (writeSpan (hostAcc f) a l false (.start s)).s := by
  simp only [bar2Write, h, hok, if_true]

/-! ### The statement -/

/-- Settles O59: writes, locks, reads with their latches, the AF's base, and BAR2, each by its rule above. -/
theorem registerAccessesAct : Obligations.RegisterAccessesAct := by
  refine ⟨?_, ?_, ?_, ?_, ?_, ?_, ?_, ?_, execAfBar2BaseApply_gives, ?_, ?_, ?_, ?_⟩
  · -- an aligned word
    intro q a d s o hd hr ha hw ho
    rw [execRegisterWrite_word hd hr d ha]
    simp only [writeAt, hw, writeWord, ho]
  · -- the host's 64 bits
    intro q a d s t hd hr ha hq ht
    rw [execRegisterWrite_word hd hr d (by omega)] at ht
    rw [execRegisterWrite_long hd hr d ha hq, Host.Outcome.next.inj ht]
  · -- other sizes and alignments
    intro q a n d s hd hr h
    have h4 : ¬ (n = 4 ∧ a % 4 = 0) := by omega
    have h8 : ¬ (n = 8 ∧ a % 8 = 0 ∧ reqNo q < 65) := by omega
    exact ⟨execRegisterWrite_misfit hd hr d h4 h8, execLoReadLatch_misfit hd hr h4 h8⟩
  · -- BLK_LOCK reached
    intro q b d s hq hw hb
    show execBlkLock q b d s = _
    simp only [execBlkLock, hq, hw, hb, Bool.not_true, Bool.false_eq_true, if_false, and_self, if_true]
  · -- BLK_LOCK not reached
    intro q b d s hq
    show execBlkLock q b d s = _
    simp only [execBlkLock, hq, Bool.not_false, if_true]
  · -- a word read: _LO, latched _HI, another
    intro q a o b s hd hr hw ha hb
    have hreg := readWordAt_reg hw hb
    refine ⟨fun hlo => ?_, fun v hlo hv => ?_, fun hlo hv => ?_⟩
    · rw [readBy_lo q s hlo] at hreg
      exact gives_emit (execLoReadLatch_word hd hr ha hreg) (latched_keeps q o s) ⟨rfl, rfl⟩
    · rw [readBy_latched q hlo hv] at hreg
      exact gives_emit (execLoReadLatch_word hd hr ha hreg) (unlatched_keeps q o s) ⟨rfl, rfl⟩
    · rw [readBy_unlatched q hlo hv] at hreg
      exact ⟨_, execLoReadLatch_word hd hr ha hreg, emit_keeps _ s, rfl⟩
  · -- 64 bits read over a pair
    intro q a o b b' s hd hr hw hw' ha hq hb hb' hlo hhi
    have h1 : readWordAt q a s = some (readReg s o, latched q o s) := by rw [readWordAt_reg hw hb, readBy_lo q s hlo]
    have h2 : readWordAt q (a + 4) (latched q o s) = some (readReg s (o + 4), unlatched q (o + 4) (latched q o s)) := by
      rw [readWordAt_reg (by rw [windowOff_latched, hw']) hb', readBy_latched q hhi (kvFind_latched q o s)]
    exact gives_emit (execLoReadLatch_long hd hr ha hq h1 h2) ((latched_keeps q o s).trans (unlatched_keeps q (o + 4) _)) rfl
  · -- a word read that reaches no register
    intro q a s hd hr ha hn
    exact execLoReadLatch_hole hd hr ha (readWordAt_none hn)
  · -- a BAR2 read
    intro fn off n s a h
    show (_ → execBar2Access fn off n none s = _) ∧ (_ → execBar2Access fn off n none s = _)
    simp only [execBar2Access, bar2Read_mapped h]
    exact ⟨fun hok => by rw [if_pos hok], fun hok => by rw [hok]; rfl⟩
  · -- a BAR2 read that is not mapped
    intro fn off n s h
    show execBar2Access fn off n none s = _
    simp only [execBar2Access, bar2Read_unmapped h]
  · -- a BAR2 write
    intro fn off n l s a h hok
    show execBar2Access fn off n (some l) s = _
    simp only [execBar2Access, bar2Write_ok h hok]
  · -- a BAR2 write that is not mapped
    intro fn off n l s h
    show execBar2Access fn off n (some l) s = _
    simp only [execBar2Access, bar2Write_unmapped h]

end Sys2Proof.Machine
end

section
/-!
Instances and functions (R78, R136, R142, R174 to R178).
-/
namespace Sys2Proof.Machine

/-! ### Functions -/

/-- What a function holds after a change of one function. -/
theorem getFn_modFn (f : Nat) (g : Fn → Fn) (s : State) (j : Nat) : getFn (modFn f g s) j = if j = f then g (getFn s f) else getFn s j :=
  kvGet_kvMod _ _ _ _ _

@[simp] theorem getFn_modFn_same (f : Nat) (g : Fn → Fn) (s : State) : getFn (modFn f g s) f = g (getFn s f) := by
  rw [getFn_modFn, if_pos rfl]

/-- What a function holds after a change of each VF: VF i + 1 is changed by g i, and no other function. -/
theorem getFn_foldl_modFn (g : Nat → Fn → Fn) (n : Nat) (s : State) (j : Nat) :
    getFn ((List.range n).foldl (fun s i => modFn (i + 1) (g i) s) s) j = if 1 ≤ j ∧ j ≤ n then g (j - 1) (getFn s j) else getFn s j := by
  induction n with
  | zero => rw [if_neg (by omega)]; rfl
  | succ n ih =>
    rw [List.range_succ, List.foldl_append, List.foldl_cons, List.foldl_nil, getFn_modFn]
    by_cases hj : j = n + 1
    · subst hj
      rw [if_pos rfl, ih, if_neg (by omega), if_pos (by omega), Nat.add_sub_cancel]
    · rw [if_neg hj, ih]
      congr 1
      exact propext (by omega)

/-- A change of registers leaves every function. -/
theorem getFn_eq_of_regs {s t : State} (h : Keeps Part.regs s t) (f : Nat) : getFn t f = getFn s f := by
  unfold getFn
  rw [h.sameFns (by decide)]

/-! ### What the host selects -/

/-- The host's selection of the AF's BAR2 size (R78). -/
theorem execResizableBarSelect_af (g : Nat) (s : State) (h : g ∈ [1, 2, 4, 8, 16, 32, 64, 128, 256, 512]) :
    exec (.resizableBarSelect 0 g) s = .next (modFn 0 (fun x => { x with barGiB := g }) s) := by
  have hc := List.contains_iff_mem.2 h
  show execResizableBarSelect 0 g s = _
  simp only [execResizableBarSelect, hc, Bool.not_true, Bool.false_eq_true, if_false, Fin.val_zero, if_true]

/-- The host's selection of the BAR2 size of every VF (R78). -/
theorem execResizableBarSelect_vf (fn : Fin 65) (g : Nat) (s : State) (hf : fn.val ≠ 0) (h : g ∈ [1, 2, 4, 8, 16, 32, 64, 128, 256, 512]) :
    exec (.resizableBarSelect fn g) s = .next ((List.range 64).foldl (fun s i => modFn (i + 1) (fun x => { x with barGiB := g }) s) s) := by
  have hc := List.contains_iff_mem.2 h
  show execResizableBarSelect fn g s = _
  simp only [execResizableBarSelect, hc, Bool.not_true, Bool.false_eq_true, if_false, if_neg hf]

/-- A change of functions changes the part of the queues only. -/
theorem foldl_modFn_keeps (g : Nat → Fn → Fn) (l : List Nat) (s : State) :
    Keeps Part.queues s (l.foldl (fun s i => modFn (i + 1) (g i) s) s) :=
  Keeps.foldl_via (fun s i => modFn_keeps (i + 1) (g i) s) (Keeps.refl _ s)

/-! ### Creation, resets, drains, scrubs -/

/-- An accepted command completes with its effect. -/
theorem runOp_accepted {h : CmdHdr} {op : Nat} {params : List Nat} {s : State} (eff : State → State) (ha : accepted s h op params) :
    runOp h op params eff s = .next (eff s) := by
  obtain ⟨hr, ht⟩ := ha
  simp only [runOp, hr, ht, Bool.not_true, Bool.false_eq_true, if_false]

/-- VI_RESET and VI_DESTROY of a created VI accept its reset. -/
theorem viReset_created {h : CmdHdr} {op n : Nat} {d : Bool} {s : State} (h1 : 1 ≤ n) (h2 : n ≤ 64) (hc : getB s (viPage n) 31 = true) :
    viReset h op n d s = acceptReset n d [(h, op)] s := by
  have hn : ¬ (n = 0 ∨ 64 < n ∨ getB s (viPage n) 31 = false) := by
    rw [hc]
    simp only [Bool.true_eq_false, or_false]
    omega
  simp only [viReset, if_neg hn]

/-- An FLR of the AF leaves its seed and step zero (R510). -/
theorem execAfFlr_zeroes (s : State) : ∃ t, exec .afFlr s = .next t ∧ (getFn t 0).seed = 0 ∧ (getFn t 0).step = 0 := by
  refine ⟨_, rfl, ?_, ?_⟩ <;> rw [getFn_eq_of_regs (advanceEpochs_keeps _ _), getFn_modFn_same]

/-- Settles O42: each command and selection by its rule above. -/
theorem instanceCommandsComplete : Obligations.InstanceCommandsComplete := by
  refine ⟨?_, ?_, ?_, ?_, ?_, ?_, ?_, ?_, ?_, ?_⟩
  · -- VI_CREATE
    intro h n payload l s ha hg
    obtain ⟨h1, h2, hen, hok, hnew, hbusy, hfree, hext⟩ := hg
    have hbad : ¬ (n = 0 ∨ 64 < n ∨ (getFn s n).enabled = false ∨ viArgsOk s (viArgs payload) payload = false) := by
      rw [hen, hok]
      simp only [Bool.true_eq_false, or_false]
      omega
    show execViCreate h n payload s = _
    rw [execViCreate, runOp_accepted _ ha]
    simp only [if_neg hbad, hnew, hbusy, hfree, hext, Bool.or_self, Bool.not_true, Bool.false_eq_true, if_false]
  · -- VI_DESTROY
    intro h n s ha hg
    obtain ⟨h1, h2, hc⟩ := hg
    show runOp h 0x05 [n] _ s = _
    rw [runOp_accepted _ ha, viReset_created h1 h2 hc]
  · -- VI_RESET
    intro h n s ha hg
    obtain ⟨h1, h2, hc⟩ := hg
    show runOp h 0x06 [n] _ s = _
    rw [runOp_accepted _ ha, viReset_created h1 h2 hc]
  · -- an FLR of a VF
    intro n s hc
    show execViFlr n s = _
    simp only [execViFlr, hc, if_true]
  · -- an FLR of the AF
    intro s
    obtain ⟨t, ht, hseed, hstep⟩ := execAfFlr_zeroes s
    obtain ⟨u, hu, hk⟩ := exec_keeps .afFlr s
    obtain rfl : u = t := Host.Outcome.next.inj (hu.symm.trans ht)
    exact ⟨u, hu, hk.pending, hk.out, hseed, hstep⟩
  · -- the end of a drain
    intro n s hc
    show execViResetDrainDone n s = _
    simp only [execViResetDrainDone, hc, if_true]
  · -- the end of a scrub
    intro n s hc
    show execViScrubDone n s = _
    simp only [execViScrubDone, hc, if_true]
  · -- the AF's BAR2 size
    intro g s hg
    refine ⟨_, execResizableBarSelect_af g s hg, modFn_keeps _ _ _, ?_, fun f hf => ?_⟩
    · rw [getFn_modFn_same]
    · rw [getFn_modFn, if_neg hf]
  · -- the VFs' BAR2 size
    intro fn g s hf hg
    refine ⟨_, execResizableBarSelect_vf fn g s hf hg, foldl_modFn_keeps _ _ s, fun i hi => ?_, ?_⟩
    · rw [getFn_foldl_modFn, if_pos (by omega)]
    · rw [getFn_foldl_modFn, if_neg (by omega)]
  · -- VF Enable
    intro n s
    refine ⟨_, rfl, foldl_modFn_keeps _ _ s, fun i hi => ?_, ?_⟩
    · rw [getFn_foldl_modFn, if_pos (by omega), Nat.add_sub_cancel]
    · rw [getFn_foldl_modFn, if_neg (by omega)]

end Sys2Proof.Machine
end

section
/-!
A step and the queue of commands (log 1).
-/
namespace Sys2Proof.Machine

/-- Settles O1: the first command of a queue that is not empty. -/
theorem stepRunsTheFrontCommand : Obligations.StepRunsTheFrontCommand := by
  intro c r s h
  simp only [step, h]

/-- Settles O2: the step's case of no command. -/
theorem emptyQueueIdles : Obligations.EmptyQueueIdles := by
  intro s h
  simp only [step, h]

end Sys2Proof.Machine
end

section
/-!
Clear registers (R110, R173, R378, R424, R425, R462, R504): what each leaves in the register file, word by word.
-/
namespace Sys2Proof.Machine

/-! ### Clear registers -/

/-- A clear of the words from lo to hi is the map of `wordsAt`. -/
theorem rawReg_clearWords_wordsAt {lo hi : Nat} (h : lo ≤ hi) (s : State) (o : Nat) :
    rawReg (clearWords lo hi s) o = (wordsAt lo hi 0#32 o).getD (rawReg s o) := by
  rw [rawReg_clearWords, wordsAt]
  by_cases ho : lo ≤ o ∧ o ≤ hi ∧ (o - lo) % 4 = 0
  · rw [if_pos ho, if_pos (by omega), Option.getD_some]
  · rw [if_neg ho, if_neg (by omega), Option.getD_none]

/-- One register set after a change of registers is the map of `wordAnd`. -/
theorem rawReg_setReg_wordAnd {f : Nat → Option Word} {s t : State} (h : ∀ o, rawReg t o = (f o).getD (rawReg s o)) (a : Nat) (v : Word) (o : Nat) :
    rawReg (setReg a v t) o = (wordAnd a v f o).getD (rawReg s o) := by
  rw [rawReg_setReg, wordAnd]
  by_cases ho : o = a
  · rw [if_pos ho, if_pos ho, Option.getD_some]
  · rw [if_neg ho, if_neg ho, h o]

@[simp] theorem onOne_one (g : State → State) (s : State) : onOne 1#32 g s = g s := if_pos rfl
theorem onOne_other {d : Word} (h : d ≠ 1#32) (g : State → State) (s : State) : onOne d g s = s := if_neg h

/-- A command that acts on a write of 1 only, and then gives registers their values, is a clear register. -/
theorem clearsOnOne_of_onOne {c : Word → Instr} {f : Nat → Option Word} {g : State → State} (hc : ∀ d s, exec (c d) s = .next (onOne d g s))
    (hk : ∀ s, Keeps Part.regs s (g s)) (hf : ∀ s o, rawReg (g s) o = (f o).getD (rawReg s o)) : ClearsOnOne c f := by
  refine ⟨fun s => ⟨g s, ?_, hk s, hf s⟩, fun d s hd => ?_⟩
  · rw [hc, onOne_one]
  · rw [hc, onOne_other hd]

/-- A command that clears a range of words on a write of 1 is a clear register of these words. -/
theorem clearsOnOne_clearWords {c : Word → Instr} {lo hi : Nat} (h : lo ≤ hi) (hc : ∀ d s, exec (c d) s = .next (onOne d (clearWords lo hi) s)) :
    ClearsOnOne c (wordsAt lo hi 0#32) :=
  clearsOnOne_of_onOne hc (clearWords_keeps lo hi) (rawReg_clearWords_wordsAt h)

/-- The same where one of the words, a smallest slack, is set to a value of its own. -/
theorem clearsOnOne_clearWords_but {c : Word → Instr} {lo hi a : Nat} {v : Word} (h : lo ≤ hi)
    (hc : ∀ d s, exec (c d) s = .next (onOne d (fun s => setReg a v (clearWords lo hi s)) s)) : ClearsOnOne c (wordAnd a v (wordsAt lo hi 0#32)) :=
  clearsOnOne_of_onOne hc (fun s => (clearWords_keeps lo hi s).trans (setReg_keeps a v _)) (fun s => rawReg_setReg_wordAnd (rawReg_clearWords_wordsAt h s) a v)

/-! ### The near-memory units and the attention controllers -/

/-- Only the PIM stacks have near-memory units: their clear register of a stack. -/
theorem exec_nmuStackClear {m : Fin 8} (h : 4 ≤ m.val) (d : Word) (s : State) :
    exec (.nmuStackClear m d) s = .next (onOne d (clearWords (mscBlk m + 0x50004) (mscBlk m + 0x5001C)) s) :=
  congrArg Host.Outcome.next (if_neg (Nat.not_lt.2 h))

/-- Only the PIM stacks have near-memory units: the clear register of a unit. -/
theorem exec_nmuCountClear {m : Fin 8} (h : 4 ≤ m.val) (u : Fin 256) (d : Word) (s : State) :
    exec (.nmuCountClear m u d) s = .next (onOne d (clearWords (mscBlk m + 0x80000 + 0x100 * u + 4) (mscBlk m + 0x80000 + 0x100 * u + 0x14)) s) :=
  congrArg Host.Outcome.next (if_neg (Nat.not_lt.2 h))

/-- What a controller holds after a change of one controller. -/
theorem getAtt_modAtt (d : Nat) (g : Attention → Attention) (s : State) (e : Nat) : getAtt (modAtt d g s) e = if e = d then g (getAtt s d) else getAtt s e :=
  kvGet_kvMod _ _ _ _ _

/-- Settles O33: each clear register is a range of words, but for the two smallest slacks; a flush empties the look-aside buffer of its controller. -/
theorem memoryCountersClear : Obligations.MemoryCountersClear := by
  refine ⟨clearsOnOne_clearWords_but (by decide) fun _ _ => rfl, fun fn => clearsOnOne_clearWords_but (by omega) fun _ _ => rfl,
    fun m => clearsOnOne_clearWords (by omega) fun _ _ => rfl, fun m => clearsOnOne_clearWords (by omega) fun _ _ => rfl,
    fun m => clearsOnOne_clearWords (by omega) fun _ _ => rfl, fun p => clearsOnOne_clearWords (by omega) fun _ _ => rfl,
    fun m hm => clearsOnOne_clearWords (by omega) (exec_nmuStackClear hm),
    fun m u hm => clearsOnOne_clearWords (by omega) (exec_nmuCountClear hm u), ?_,
    fun d => clearsOnOne_clearWords (by omega) fun _ _ => rfl, ?_, ?_⟩
  · -- a stack without near-memory units
    intro m u d s hm
    exact ⟨congrArg Host.Outcome.next (if_pos hm), congrArg Host.Outcome.next (if_pos hm)⟩
  · -- a flush
    intro d s
    refine ⟨_, congrArg Host.Outcome.next (onOne_one _ s), modAtt_keeps _ _ s, ?_, fun e he => ?_⟩
    · rw [getAtt_modAtt, if_pos rfl]
    · rw [getAtt_modAtt, if_neg he]
  · -- another value
    intro d w s hw
    exact congrArg Host.Outcome.next (onOne_other hw _ s)

end Sys2Proof.Machine
end

section
/-!
Pace events: ticks, edges of PACE_IN, start lines and markers (R85 to R94, R564, R570, R571).
-/
namespace Sys2Proof.Machine

/-! ### What the pace registers show does not depend on time -/

theorem paceOn_at (n : Nat) (s : State) : paceOn { s with now := n } = paceOn s := rfl
theorem wired_at (n : Nat) (s : State) : wired { s with now := n } = wired s := rfl
theorem periodUs_at (n : Nat) (s : State) : periodUs { s with now := n } = periodUs s := rfl
theorem paceNumber_at (n : Nat) (s : State) : paceNumber { s with now := n } = paceNumber s := rfl
theorem paceNumber_modPace (g : Pace → Pace) (s : State) : paceNumber (modPace g s) = paceNumber s := rfl

/-! ### A pace unit that does not run -/

section
variable {s : State} (hp : paceOn s = false)
include hp

theorem execTick_off : exec .tick s = .next s := by
  show execTick s = _
  simp only [execTick, hp, Bool.not_false, Bool.true_or, if_true]

theorem execStartLine_off : exec .startLine s = .next s := by
  show execStartLine s = _
  simp only [execStartLine, hp, Bool.not_false, Bool.true_or, if_true]

theorem execPaceMissing_off : exec .paceMissing s = .next s := by
  show execPaceMissing s = _
  simp only [execPaceMissing, hp, Bool.not_false, Bool.true_or, if_true]
end

/-! ### Ticks -/

/-- The pace timer ticks a period after the last tick (R85). -/
theorem execTick_on {s : State} (hp : paceOn s = true) (hw : wired s = false) :
    exec .tick s = .next (tickBody { s with now := max s.now (s.pace.lastTick + 1000 * periodUs s) }) := by
  show execTick s = _
  simp only [execTick, hp, hw, Bool.not_true, Bool.or_self, Bool.false_eq_true, if_false]

section
variable {s : State} (hp : paceOn s = true) (hw : wired s = true)
include hp hw

/-- An edge more than 1 µs before its time is only counted (R94). -/
theorem execPaceInEdge_early {t : Nat} (ht : max s.now t + 1000 < s.pace.lastTick + 1000 * periodUs s) :
    exec (.paceInEdge t) s = .next (addReg 0x430 1 { s with now := max s.now t }) := by
  show execPaceInEdge t s = _
  simp only [execPaceInEdge, paceOn_at, wired_at, periodUs_at, hp, hw, Bool.not_true, Bool.or_self, Bool.false_eq_true, if_false, ht, if_true]

/-- An edge at its time or later ticks the device (R94, R571). -/
theorem execPaceInEdge_due {t : Nat} (ht : s.pace.lastTick + 1000 * periodUs s ≤ max s.now t + 1000) :
    exec (.paceInEdge t) s = .next (
      let u := tickBody { s with now := max s.now t }
      if paceMaster u then u else alignStep true u) := by
  show execPaceInEdge t s = _
  simp only [execPaceInEdge, paceOn_at, wired_at, periodUs_at, hp, hw, Bool.not_true, Bool.or_self, Bool.false_eq_true, Nat.not_lt.2 ht, if_false]

/-- Without an edge the device ticks by itself and records it (R94). -/
theorem execPaceMissing_on :
    exec .paceMissing s = .next (
      let u := tickBody { s with now := max s.now (s.pace.lastTick + 1000 * periodUs s + 1000) }
      report 0x304 (oHub 1 0) fnDevice 0 (if paceMaster u then u else alignStep false u)) := by
  show execPaceMissing s = _
  simp only [execPaceMissing, hp, hw, Bool.not_true, Bool.or_self, Bool.false_eq_true, if_false]
end

/-! ### Start lines -/

/-- With no flag and no job loaded, a start line is a pace boundary (R91); where the boundary loads no job, it starts nothing. -/
theorem execStartLine_idle {s a b : State} (hp : paceOn s = true) (hpass : s.pace.startPassed = false) (hj : s.jobs = [])
    (hh : s.pace.raisedHold = false) (hgh : s.pace.gotHold = false) (hd : s.pace.raisedDiscord = false) (hgd : s.pace.gotDiscord = false)
    (ha : showHeld false false (modPace (fun p => { p with startPassed := true, lineAt := s.pace.lastTick + windowTime s })
      { s with now := max s.now (s.pace.lastTick + windowTime s) }) = a)
    (hb : takeBoundary (paceNumber s) a = b) (hbj : b.jobs = []) :
    exec .startLine s = .next ((List.range 64).foldl (fun s c => evalCeil c s) b) := by
  have haj : a.jobs = [] := ha ▸ ((showHeld_keeps false false _).sameJobs (by decide)).trans hj
  have hany : a.jobs.any (fun j => j.running || heldLocally j) = false := by
    rw [haj]
    rfl
  show execStartLine s = _
  simp only [execStartLine, hp, hpass, modPace_pace, hh, hgh, hd, hgd, paceNumber_modPace, paceNumber_at, ha, hany, hb, hbj, List.foldl_nil,
    Bool.not_true, Bool.or_self, Bool.false_eq_true, if_false]

/-! ### Markers -/

/-- A marker on the follower port of a device that does not tick on PACE_IN ends its holdover and counts towards ALIGNED (R564, R570). -/
theorem execTickMarker_follower {port : Fin 12} {phase : Int} {s : State} (hs : inService s port = true) (hf : followerPort s = some port.val)
    (hw : wired (setReg 0x60C (BitVec.ofInt 32 phase) s) = false) :
    exec (.tickMarker port phase) s = .next (
      let u := setReg 0x60C (BitVec.ofInt 32 phase) s
      alignStep (decide (-500 ≤ phase ∧ phase ≤ 500)) (setB 0x608 30 false { u with links := { u.links with marked := true, missed := 0 } })) := by
  show execTickMarker port phase s = _
  simp only [execTickMarker, hs, hf, hw, beq_self_eq_true, Bool.not_true, Bool.or_self, Bool.false_eq_true, if_false]

/-- A tick without a marker, before the sixteenth in a row, is held over (R570). -/
theorem execMarkerMissing_holdover {s : State} (hw : wired s = false) (hm : getB s 0x40C 30 = false) (hk : topoKind s ≠ 0)
    (hmk : s.links.marked = false) (hn : s.links.missed < 15) :
    exec .markerMissing s = .next (setB 0x608 30 true { s with links := { s.links with missed := s.links.missed + 1, marked := true } }) := by
  have hlim : ¬ 16 ≤ s.links.missed + 1 := by omega
  show execMarkerMissing s = _
  simp only [execMarkerMissing, hw, hm, hk, hmk, hlim, decide_false, Bool.or_self, Bool.false_eq_true, if_false]

/-- Settles O44: each event by its rule above. -/
theorem paceEventsComplete : Obligations.PaceEventsComplete := by
  refine ⟨?_, ?_, ?_, ?_, ?_, ?_, ?_, ?_⟩
  · -- the pace timer
    exact fun s hp hw => execTick_on hp hw
  · -- a pace unit that does not run
    exact fun s hp => ⟨execTick_off hp, execStartLine_off hp, execPaceMissing_off hp⟩
  · -- a start line with no flag and no job
    exact fun s hp hpass hj hh hgh hd hgd hb => execStartLine_idle hp hpass hj hh hgh hd hgd rfl rfl hb
  · -- an edge before its time
    exact fun t s hp hw ht => execPaceInEdge_early hp hw ht
  · -- an edge at its time or later
    exact fun t s hp hw ht => execPaceInEdge_due hp hw ht
  · -- no edge
    exact fun s hp hw => execPaceMissing_on hp hw
  · -- a marker
    exact fun port phase s hs hf _ hw => execTickMarker_follower hs hf hw
  · -- no marker
    exact fun s hw hm hk hmk hn => execMarkerMissing_holdover hw hm hk hmk hn

end Sys2Proof.Machine
end

section
/-!
Schedules and jobs (R100, R161 to R166, R184, R746): each accepted command, and a lap that is done.
-/
namespace Sys2Proof.Machine

theorem findJob_modSched (f id : Nat) (g : Schedule → Schedule) (s : State) (f' id' : Nat) :
    findJob (modSched f id g s) f' id' = findJob s f' id' := rfl

/-- No loaded schedule of a function overlaps with a new one. -/
theorem any_schedsOverlap_eq_false {l : List Schedule} {f : Nat} {sc : Schedule} (h : ∀ y ∈ l, y.fn = f → schedsOverlap y sc = false) :
    l.any (fun y => decide (y.fn = f) && schedsOverlap y sc) = false := by
  refine List.any_eq_false.2 fun y hy hn => ?_
  obtain ⟨hf, ho⟩ := Bool.and_eq_true_iff.1 hn
  rw [h y hy (of_decide_eq_true hf)] at ho
  exact Bool.false_ne_true ho

/-- Each cluster of a mapping is free for a new job. -/
theorem any_clusterTaken_eq_false {s : State} {map : List Nat}
    (h : ∀ c ∈ map, jobMaps s c = false ∧ clusterOut s c = false ∧ towerOut s (c / 4) = false) :
    map.any (fun c => jobMaps s c || clusterOut s c || towerOut s (c / 4)) = false := by
  refine List.any_eq_false.2 fun c hc => ?_
  obtain ⟨hj, ho, ht⟩ := h c hc
  rw [hj, ho, ht]
  exact Bool.false_ne_true

/-! ### Schedules -/

/-- UNLOAD_SCHEDULE of a schedule without a job or a halt asked for (R166). -/
theorem execUnloadSchedule_unloads {h : CmdHdr} {id : Nat} {s : State} {x : Schedule} (ha : accepted s h 0x11 [id])
    (hx : findSched s h.fn id = some x) (hj : findJob s h.fn id = none) (hb : x.haltBy = none) :
    exec (.unloadSchedule h id) s = .next (
      let t := { s with scheds := s.scheds.filter (fun y => !decide (y.fn = x.fn ∧ y.id = x.id)) }
      fail h 0x11 stOk (x.map.foldl (fun s c => if loadedMaps s c then s else moveCores c s) t)) := by
  show execUnloadSchedule h id s = _
  rw [execUnloadSchedule, runOp_accepted _ ha]
  simp only [hx, hj, hb, Option.isSome_none, Bool.false_eq_true, if_false]

/-! ### Jobs -/

/-- START_JOB of a local job with laps, on a mapping that is free, starts it (R184). -/
theorem execStartJob_starts {h : CmdHdr} {id laps mode : Nat} {s : State} {x : Schedule} {map : List Nat} (ha : accepted s h 0x12 [id, laps, mode, 0])
    (hx : findSched s h.fn id = some x) (hpark : isParked s = false) (hmode : mode < 2) (hsys : x.system = false) (hlaps : laps ≤ x.lapCount)
    (hpos : 0 < x.lapCount) (hdet : x.det = false) (hkind : x.shapeKind ≠ 2) (hmap : mapFor s h.fn ⟨x.shapeKind, x.counts⟩ = some map)
    (hfree : ∀ c ∈ map, jobMaps s c = false ∧ clusterOut s c = false ∧ towerOut s (c / 4) = false) :
    exec (.startJob h id laps mode 0) s = .next (
      let t := map.foldl (fun s c => clearCores c false (stopCluster c s)) (applyInits h.fn x.inits (modSched h.fn id (fun y => { y with map := map }) s))
      let j : Job :=
        { fn := h.fn, sched := id, system := false, stepped := decide (mode = 1), laps := if laps = 0 then x.lapCount else laps, hdr := h
          haltAt := x.haltAt, haltBy := x.haltBy }
      modSched h.fn id (fun y => { y with haltAt := none, haltBy := none }) { t with jobs := t.jobs ++ [j] }) := by
  have hrun : (if laps = 0 then x.lapCount else laps) ≠ 0 := by
    split <;> omega
  show execStartJob h id laps mode 0 s = _
  rw [execStartJob, runOp_accepted _ ha]
  simp only [hx, hpark, Nat.not_le.2 hmode, Nat.reduceLeDiff, hsys, Nat.not_lt.2 hlaps, hmap, any_clusterTaken_eq_false hfree, hdet, hkind, hrun,
    Nat.zero_ne_one, and_false, false_and, or_self, decide_false, Bool.false_and, Bool.false_eq_true, if_false]

/-- LAUNCH_LAP of a job in stepped mode with no launch in progress (R163). -/
theorem execLaunchLap_launches {h : CmdHdr} {id count : Nat} {s : State} {j : Job} (ha : accepted s h 0x13 [id, count])
    (hj : findJob s h.fn id = some j) (hst : j.stepped = true) (hc : 0 < count) (hr : j.running = false) (hl : j.launch = none) :
    exec (.launchLap h id count) s =
      .next (modJob j.fn j.sched (fun y => { y with launch := some { hdr := h, left := count, flags := {}, inHalt := y.halted } }) s) := by
  show execLaunchLap h id count s = _
  rw [execLaunchLap, runOp_accepted _ ha]
  simp only [hj, hst, Nat.pos_iff_ne_zero.1 hc, hr, hl, Option.map_none, Option.getD_none, Bool.not_true, Bool.false_and, decide_false, Bool.or_self,
    Bool.false_eq_true, if_false]

/-- STOP_JOB of a job that is not halted waits for its next lap boundary. -/
theorem execStopJob_waits {h : CmdHdr} {id : Nat} {s : State} {j : Job} (ha : accepted s h 0x14 [id]) (hj : findJob s h.fn id = some j)
    (hb : j.stopBy = none) (hh : j.halted = false) :
    exec (.stopJob h id) s = .next (modJob j.fn j.sched (fun y => { y with stopBy := some h }) s) := by
  show execStopJob h id s = _
  rw [execStopJob, runOp_accepted _ ha]
  simp only [hj, hb, hh, Option.isSome_none, Bool.false_and, Bool.false_eq_true, if_false]

/-- HALT_AT_LAP of a schedule without a job is kept with the schedule (R746). -/
theorem execHaltAtLap_kept {h : CmdHdr} {id lap : Nat} {s : State} {x : Schedule} (ha : accepted s h 0x15 [id, lap])
    (hx : findSched s h.fn id = some x) (hlap : lap < x.lapCount) (hf : lap ≠ 0xFFFFFFFF) (hb : x.haltBy = none) (hj : findJob s h.fn id = none) :
    exec (.haltAtLap h id lap) s = .next (modSched h.fn id (fun y => { y with haltAt := some lap, haltBy := some h }) s) := by
  show execHaltAtLap h id lap s = _
  rw [execHaltAtLap, runOp_accepted _ ha]
  simp only [hx, Nat.not_le.2 hlap, and_false, hj, hb, hf, findJob_modSched, Option.isSome_none, decide_false, Bool.false_eq_true, if_false]

/-! ### Laps -/

/-- A lap that is done, of a job that goes on and has no launch in progress: its clusters are counted and its slack is noted (R100). -/
theorem execLapDone_goesOn {job t : Nat} {s a : State} {j : Job} (ha : { s with now := max s.now t } = a) (hj : s.jobs[job]? = some j)
    (hr : j.running = true) (hc : lapComplete a j = true) (hl : j.launch = none) (he : j.endAtLap = false) (hn : j.next < j.laps) :
    exec (.lapDone job t) s = .next (
      let b := (jobClusters a j).foldl (fun s c => clusterLapDone j.due (j.next - 1) c s) a
      let u := noteSlack j.due (if j.system then 0x434 else viPage j.fn + 0x24) (if j.system then some 0x438 else none) b.now (j.next - 1) b
      modJob j.fn j.sched (fun y => { y with running := false }) ((jobClusters u j).foldl (fun s c => modCluster c (fun x => { x with started := false }) s) u)) := by
  show execLapDone job t s = _
  simp only [execLapDone, ha, hj, hr, hc, hl, he, Nat.not_le.2 hn, Option.map_none, Option.getD_none, decide_false, Bool.not_true, Bool.or_self,
    Bool.false_eq_true, if_false]
  cases j.system <;> rfl

/-- Settles O40: each command by its rule above, and a lap that is done. -/
theorem jobCommandsComplete : Obligations.JobCommandsComplete := by
  refine ⟨?_, ?_, ?_, ?_, ?_, ?_, ?_⟩
  · -- LOAD_SCHEDULE
    intro h image len s x map ha
    dsimp only
    intro hok hlen hmin hmax hrok hx hhur hmap hscr hdet hpark hnew hfour hover hw
    have hsize : ¬ (len < 256 ∨ _ < 256 ∨ len < _) := not_or.2 ⟨Nat.not_lt.2 hlen, not_or.2 ⟨Nat.not_lt.2 hmin, Nat.not_lt.2 hmax⟩⟩
    show execLoadSchedule h image len s = _
    rw [execLoadSchedule, runOp_accepted _ ha]
    simp only [hok, hsize, hrok, hx, hhur, hmap, hscr, hdet, hpark, hnew, Nat.not_le.2 hfour, any_schedsOverlap_eq_false hover, hw, Option.isSome_none,
      decide_false, Bool.or_self, Bool.not_true, Bool.false_eq_true, if_false]
  · -- UNLOAD_SCHEDULE
    intro h id x s ha hg
    obtain ⟨hx, hj, hb⟩ := hg
    exact execUnloadSchedule_unloads ha hx hj hb
  · -- START_JOB
    intro h id laps mode x map s ha hg
    obtain ⟨hx, hpark, hmode, hsys, hlaps, hpos, hdet, hkind, hmap, hfree⟩ := hg
    exact execStartJob_starts ha hx hpark hmode hsys hlaps hpos hdet hkind hmap hfree
  · -- LAUNCH_LAP
    intro h id count j s ha hg
    obtain ⟨hj, hst, hc, hr, hl⟩ := hg
    exact execLaunchLap_launches ha hj hst hc hr hl
  · -- STOP_JOB
    intro h id j s ha hg
    obtain ⟨hj, hb, hh⟩ := hg
    exact execStopJob_waits ha hj hb hh
  · -- HALT_AT_LAP
    intro h id lap x s ha hg
    obtain ⟨hx, hlap, hf, hb, hj⟩ := hg
    exact execHaltAtLap_kept ha hx hlap hf hb hj
  · -- a lap that is done
    exact fun job t s j hj hr hc hl he hn => execLapDone_goesOn rfl hj hr hc hl he hn

end Sys2Proof.Machine
end

section
/-!
The sequencers of a cluster (R111 to R114, R191, R194, R203, R221 to R223, R246, R323).
-/
namespace Sys2Proof.Machine

/-- What a cluster holds after a change of one cluster. -/
theorem getCluster_modCluster (c : Nat) (g : Cluster → Cluster) (s : State) (e : Nat) :
    getCluster (modCluster c g s) e = if e = c then g (getCluster s c) else getCluster s e :=
  kvGet_kvMod _ _ _ _ _

@[simp] theorem getCluster_modCluster_same (c : Nat) (g : Cluster → Cluster) (s : State) : getCluster (modCluster c g s) c = g (getCluster s c) := by
  rw [getCluster_modCluster, if_pos rfl]

theorem getCluster_modCluster_other {c e : Nat} (h : e ≠ c) (g : Cluster → Cluster) (s : State) : getCluster (modCluster c g s) e = getCluster s e := by
  rw [getCluster_modCluster, if_neg h]

/-! ### Fetches and completions -/

/-- The quill fetches a row for the next runner of its rotation that wants one (R194). -/
theorem execQuillFetch_fetches {c : Fin 64} {s v : State} {j : Job} {sc : Schedule} {i t n : Nat} {x : Stream} (hj : jobOf s c = some j)
    (hsc : schedOf s j = some sc) (hv : turnAhead sc j s = v) (hn : sc.streams.length = n) (ht : (getCluster v c).quillTurn = t)
    (hi : (List.range n).find? (fun i => match sc.streams[(t + 1 + i) % n]? with
      | none => false
      | some x => nth 64 sc.map x.lcluster = c && wantsFetch v (streamRunner sc x)) = some i)
    (hx : sc.streams[(t + 1 + i) % n]? = some x) (hs : x.scratch = false) :
    exec (.quillFetch c) s = .next (settleAll c (modCluster c (fun y => { y with quillTurn := (t + 1 + i) % n }) (fetchRow (streamRunner sc x) x v))) := by
  show execQuillFetch c s = _
  simp only [execQuillFetch, hj, hsc, hv, hn, ht]
  generalize hfound : (List.range n).find? _ = found
  obtain rfl : some i = found := hi.symm.trans hfound
  simp only [hx, hs, Bool.false_eq_true, if_false]

/-- A stroke in flight that can complete does (R191). -/
theorem execStrokeComplete_done {r : RunnerRef} {i : Nat} {s : State} {f : Flight} (hf : (getRunner s (refNo r)).flight[i]? = some f)
    (hc : canComplete s r.cluster f = true) : exec (.strokeComplete r i) s = .next (strokeDone (refNo r) i f s) := by
  show execStrokeComplete r i s = _
  simp only [execStrokeComplete, hf, hc, if_true]

/-! ### Relays -/

/-- A relay with no firing in progress whose stages are all ready fires (R222). -/
theorem execRelayFire_fires {c : Fin 64} {id : Fin 16} {waits : List (List (Fin 8 × Nat))} {s : State} {e : RelayEntry}
    (he : relayOf s c id = some e) (hidle : ∀ f ∈ (getCluster s c).firings, f.id ≠ id.val) (hready : ∀ k ∈ relayRunners c e, stageReady id k s = true) :
    exec (.relayFire c id waits) s = .next (
      let heads := (relayRunners c e).filterMap (fun k => (headOf (getRunner s k)).map (fun w => (k, w)))
      let chans := (heads.flatMap (fun x => strokeChannels s x.1 x.2)).dedup
      let a := heads.foldl (fun s x => popHead x.1 s) (((relayRunners c e).zip waits).foldl (fun s x => noteWaits x.1 x.2 s) s)
      let b := modCluster c (fun x => { x with firings := x.firings ++ [{ id := id, stages := relayRunners c e, channels := chans }] }) a
      let r := fireRounds (heads.length + 1) heads b
      r.1.foldl (fun s x => fireStage x.1 x.2 { s := s, waiting := true }) r.2) := by
  have hno : (getCluster s c).firings.any (fun f => decide (f.id = id.val)) = false :=
    List.any_eq_false.2 fun f hf => by simpa using hidle f hf
  have hall : (relayRunners c e).all (fun k => stageReady id k s) = true := List.all_eq_true.2 hready
  show execRelayFire c id waits s = _
  simp only [execRelayFire, he, hno, hall, Bool.false_eq_true, if_false, if_true]

/-- The rings of a relay that are empty leave nothing to discard or to record (R223). -/
theorem foldl_emptyRings {c : Nat} {s : State} (f : Nat → State → State) :
    ∀ {l : List Nat}, (∀ ch ∈ l, ring s c ch = []) → l.foldl (fun s ch => if (ring s c ch).isEmpty then s else f ch s) s = s
  | [], _ => rfl
  | ch :: l, h => by
    rw [List.foldl_cons, h ch List.mem_cons_self, List.isEmpty_nil, if_pos rfl]
    exact foldl_emptyRings f fun x hx => h x (List.mem_cons_of_mem ch hx)

/-- A firing whose stages have completed and whose rings are empty completes (R223). -/
theorem execRelayComplete_done {c : Fin 64} {id : Fin 16} {s : State} {f : Firing} (hf : (getCluster s c).firings.find? (fun f => f.id = id.val) = some f)
    (hdone : ∀ k ∈ f.stages, ∀ x ∈ (getRunner s k).flight, sRelay x.word = true → sRelayId x.word ≠ id.val)
    (hring : ∀ ch ∈ f.channels, ring s c ch = []) :
    exec (.relayComplete c id) s = .next (modCluster c (fun x => { x with firings := x.firings.filter (fun y => y.id ≠ id.val) }) s) := by
  have hbusy : f.stages.any (fun k => (getRunner s k).flight.any (fun x => sRelay x.word && decide (sRelayId x.word = id.val))) = false := by
    refine List.any_eq_false.2 fun k hk hany => ?_
    obtain ⟨x, hx, hrel⟩ := List.any_eq_true.1 hany
    obtain ⟨hr, hid⟩ := Bool.and_eq_true_iff.1 hrel
    exact hdone k hk x hx hr (of_decide_eq_true hid)
  show execRelayComplete c id s = _
  simp only [execRelayComplete, hf, hbusy, Bool.false_eq_true, if_false, foldl_emptyRings _ hring]

/-! ### Weight rows and transfers -/

/-- The stream unit requests the next weight row while fewer than 8 are buffered or in flight (R246). -/
theorem execWeightRowRequest_requests {c : Fin 64} {core : Fin 16} {s : State} {a : Nat} {l : List Nat} (hl : rowsAhead s c core = a :: l)
    (h8 : (getM s (runnerNo c 0 core 0)).requested.length + (getM s (runnerNo c 0 core 0)).held.length < 8) :
    exec (.weightRowRequest c core) s = .next (modM (runnerNo c 0 core 0) (fun m => { m with requested := m.requested ++ [a] }) s) := by
  show execWeightRowRequest c core s = _
  simp only [execWeightRowRequest, hl, h8, if_true]

section
variable {c : Fin 64} {core : Fin 16} {s t : State} {a : Nat} {rest : List Nat} (hreq : (getM s (runnerNo c 0 core 0)).requested = a :: rest)
  (ht : modM (runnerNo c 0 core 0) (fun m => { m with requested := rest }) s = t)
include hreq ht

/-- A weight row that arrives with no pass streaming waits in the buffer (R246). -/
theorem execWeightRowArrive_held (hn : streaming t c core = none) (stall : Nat) :
    exec (.weightRowArrive c core stall) s = .next (modM (runnerNo c 0 core 0) (fun m => { m with held := m.held ++ [a] }) t) := by
  show execWeightRowArrive c core stall s = _
  simp only [execWeightRowArrive, hreq, ht, hn, Option.filter_none]

/-- A weight row of the streaming pass feeds it; the stall that it ends is counted, and the cluster's trace is marked FREE (log 29, 43). -/
theorem execWeightRowArrive_feeds {k n stall : Nat} {w : StrokeWord} (hs : streaming t c core = some (k, w, n)) (ha : a ∈ weightRows k w t)
    (hst : 0 < stall) :
    exec (.weightRowArrive c core stall) s = .next (
      let u := addReg (cluBlk c + 0x8022C) stall (markFree c t)
      addReg (mcBlk c (physCore u c 0 core) + 12) stall (modRunner k (fun x => { x with flight := feedRow x.flight }) u)) := by
  have hmine : (streaming t c core).filter (fun x => (weightRows x.1 x.2.1 t).contains a) = some (k, w, n) := by
    rw [hs]
    exact Option.filter_some_pos (List.contains_iff_mem.2 ha)
  show execWeightRowArrive c core stall s = _
  simp only [execWeightRowArrive, hreq, ht, hmine, Nat.pos_iff_ne_zero.1 hst, if_false]
end

/-- A moved descriptor whose ARRIVE meets no bus error completes (R323). -/
theorem execTransferComplete_done {c : Fin 64} {s : State} {x : Xfer} {rest : List Xfer} (hx : takeMoved c (moveWaiting c s).xfers = some (x, rest))
    (hok : (descArrive x.runner x.desc { moveWaiting c s with xfers := rest }).2 = false) :
    exec (.transferComplete c) s = .next (modRunner x.runner (fun y => { y with flight := dropTransfer x.word y.flight })
      (descArrive x.runner x.desc { moveWaiting c s with xfers := rest }).1) := by
  show execTransferComplete c s = _
  simp only [execTransferComplete, hx, hok, Bool.false_and, Bool.false_eq_true, if_false]

/-! ### The starting block -/

/-- The first issue of a cluster of a running lap: 32 ns × (c mod 16) after the start line (R111). -/
theorem execClusterFirstIssue_starts {c : Fin 64} {s : State} {j : Job} (hj : jobOf s c = some j) (hr : j.running = true)
    (hst : (getCluster s c).started = false) :
    exec (.clusterFirstIssue c) s = .next (
      let n := max s.now (s.pace.lineAt + 32 * (c.val % 16))
      modCluster c (fun x => { x with started := true, firstIssue := n, lastDone := n, ramp := 8, free := false }) { s with now := n }) := by
  show execClusterFirstIssue c s = _
  simp only [execClusterFirstIssue, hj, hr, hst, Option.map_some, Option.getD_some, Bool.not_true, Bool.or_self, Bool.false_eq_true, if_false]

/-- A ramp interval of a cluster that has started (R112). -/
theorem execRampInterval_started {c : Fin 64} {s : State} (hst : (getCluster s c).started = true) :
    exec (.rampInterval c) s = .next (modCluster c (fun x => { x with ramp := min 32 (x.ramp + 3) }) s) := by
  show execRampInterval c s = _
  simp only [execRampInterval, hst, if_true]

/-- A ramp of a cluster that has started begins again (R114). -/
theorem execRampRestart_started {c : Fin 64} {s : State} (hst : (getCluster s c).started = true) :
    exec (.rampRestart c) s = .next (modCluster c (fun x => { x with ramp := 8 }) s) := by
  show execRampRestart c s = _
  simp only [execRampRestart, hst, if_true]

/-- An outcome that changes one cluster changes it as told, and no other. -/
theorem gives_modCluster {c : Nat} {s : State} {o : Out} {g : Cluster → Cluster} (ho : o = .next (modCluster c g s)) :
    Gives s o Part.clusters (fun t => getCluster t c = g (getCluster s c) ∧ ∀ e : Nat, e ≠ c → getCluster t e = getCluster s e) :=
  ⟨_, ho, modCluster_keeps c g s, getCluster_modCluster_same c g s, fun _ he => getCluster_modCluster_other he g s⟩

/-- Settles O43: each event by its rule above. -/
theorem sequencersAdvance : Obligations.SequencersAdvance := by
  refine ⟨?_, ?_, ?_, ?_, ?_, ?_, ?_, ?_, ?_, ?_⟩
  · -- a row fetch
    exact fun c s j sc i x hj hsc hi hx hs ht => execQuillFetch_fetches hj hsc rfl rfl ht hi hx hs
  · -- a completion
    exact fun r i s f hf hc => execStrokeComplete_done hf hc
  · -- a relay fires
    exact fun c id waits s e he hidle hready => execRelayFire_fires he hidle hready
  · -- a relay completes
    exact fun c id s f hf hdone hring => execRelayComplete_done hf hdone hring
  · -- a weight row is requested
    exact fun c core s a l hl h8 => execWeightRowRequest_requests hl h8
  · -- a weight row arrives
    exact fun c core stall s a rest hreq =>
      ⟨fun hn => execWeightRowArrive_held hreq rfl hn stall, fun k w n hs ha hst => execWeightRowArrive_feeds hreq rfl hs ha hst⟩
  · -- a transfer completes
    exact fun c s x rest hx hok => execTransferComplete_done hx hok
  · -- the first issue
    intro c s j hj hr hst
    have ho := execClusterFirstIssue_starts hj hr hst
    obtain ⟨t, ht, hk⟩ := exec_keeps (.clusterFirstIssue c) s
    obtain rfl := Host.Outcome.next.inj (ho.symm.trans ht)
    refine ⟨_, ho, hk, rfl, ?_, ?_, ?_, ?_, fun e he => getCluster_modCluster_other he _ _⟩ <;> simp only [getCluster_modCluster_same, modCluster_now]
  · -- a ramp interval
    exact fun c s hst => gives_modCluster (execRampInterval_started hst)
  · -- a ramp restart
    exact fun c s hst => gives_modCluster (execRampRestart_started hst)

end Sys2Proof.Machine
end

section
/-!
Packets of the fabric in their order (R98, R546, R567, R568, R572, R582).
-/
namespace Sys2Proof.Machine

/-! ### Taking a packet (R546) -/

/-- A wanted packet that is the next of its neighbour is taken and acts. -/
theorem takeVc0_next {p : Nat} {want : PacketBody → Bool} {act : Packet → State → State} {s : State} {k : Packet} {rest : List Packet} {c : Nat}
    (hk : nextPacket s p k rest c) (hw : want k.body = true) : takeVc0 p want act s = act k (packetTaken p k rest c s) := by
  obtain ⟨hrx, hpeer, hseq⟩ := hk
  simp only [takeVc0, packetTaken, hrx, hpeer, hseq, hw, Bool.not_true, Bool.false_eq_true, if_false, if_true]

/-- A wanted packet that its neighbour has sent before is taken and has no effect. -/
theorem takeVc0_duplicate {p : Nat} {want : PacketBody → Bool} {act : Packet → State → State} {s : State} {k : Packet} {rest : List Packet} {c : Nat}
    (hrx : (getPort s p).rx0 = k :: rest) (hpeer : peerOf s p = some c) (hw : want k.body = true)
    (hold : 32768 ≤ (k.nseq + 65536 - kvGet (fun _ => 0) s.links.nseqRx c) % 65536) :
    takeVc0 p want act s = returnCredit p k (modPort p (fun x => { x with rx0 := rest }) s) := by
  have hnew : (k.nseq + 65536 - kvGet (fun _ => 0) s.links.nseqRx c) % 65536 ≠ 0 := by omega
  simp only [takeVc0, hrx, hpeer, hw, hnew, hold, Bool.not_true, Bool.false_eq_true, if_false, if_true]

/-! ### Each kind of packet -/

section
variable {p : Fin 12} {s : State} {k : Packet} {rest : List Packet} {c : Nat} (hk : nextPacket s p k rest c)
include hk

/-- A tick header (R98). -/
theorem execTickHeaderReceive_next {h : TickHeader} (hb : k.body = .tick h) :
    exec (.tickHeaderReceive p) s = .next (takeHeader p h (packetTaken p k rest c s)) := by
  show execTickHeaderReceive p s = _
  rw [execTickHeaderReceive, takeVc0_next hk (by rw [hb]; rfl)]
  simp only [hb]

/-- An operation on a system-scope hurdle (R572). -/
theorem execHurdlePacket_next {i n org : Nat} {reset : Bool} (hb : k.body = .hurdle i reset n org) (hi : i < 512) :
    exec (.hurdlePacket p) s = .next (mirror (7680 + i) reset n org (some p.val)
      (hurdleCycle (7680 + i) (if reset then [.reset] else [.arrive n]) (packetTaken p k rest c s))) := by
  show execHurdlePacket p s = _
  rw [execHurdlePacket, takeVc0_next hk (by rw [hb])]
  simp only [hb, Nat.not_le.2 hi, if_false]

/-- A TOPO message (R567). -/
theorem execTopo_next {r d : Nat} {f : Bool} (hb : k.body = .topo r d f) :
    exec (.topo p) s = .next (updateTree (modPort p (fun x => { x with topo := some (r, d), follows := f }) (packetTaken p k rest c s))) := by
  show execTopo p s = _
  rw [execTopo, takeVc0_next hk (by rw [hb]; rfl)]
  simp only [hb]

/-- A request of the follower role is granted, or cancelled against the device's own (R568). -/
theorem execRoleReq_next (hb : k.body = .roleReq) :
    exec (.roleReq p) s = .next (
      let t := packetTaken p k rest c s
      if (getPort t p).roleReq && decide (ownCoord t < k.src) then sendPort p .roleCancel t else sendPort p .roleGrant t) := by
  show execRoleReq p s = _
  rw [execRoleReq, takeVc0_next hk (by rw [hb]; rfl)]

/-- A grant of the device's own request is followed while no system job is loaded (R568, R569). -/
theorem execRoleGrant_next (hb : k.body = .roleGrant) (hreq : (getPort (packetTaken p k rest c s) p).roleReq = true)
    (hsys : systemLoaded (modPort p (fun x => { x with roleReq := false }) (packetTaken p k rest c s)) = false) :
    exec (.roleGrant p) s = .next (setFollower (some p.val) (modPort p (fun x => { x with roleReq := false }) (packetTaken p k rest c s))) := by
  show execRoleGrant p s = _
  rw [execRoleGrant, takeVc0_next hk (by rw [hb]; rfl)]
  simp only [hreq, hsys, Bool.not_true, Bool.false_eq_true, if_false]

/-- A cancelled request is counted and recorded at its device (R568; log 25). -/
theorem execRoleCancel_next (hb : k.body = .roleCancel) :
    exec (.roleCancel p) s = .next (report 0x308 (oPort p 15) fnDevice 0 (addReg (fjlBlk p + 0x2C) 1
      (modPort p (fun x => { x with roleReq := false }) (packetTaken p k rest c s)))) := by
  show execRoleCancel p s = _
  rw [execRoleCancel, takeVc0_next hk (by rw [hb]; rfl)]

/-- The news of a departure (R582). -/
theorem execPeerLost_next {d : Nat} (hb : k.body = .peerLost d) :
    exec (.peerLost p) s = .next (learnDeparture d [0xFF] (some p.val) (packetTaken p k rest c s)) := by
  show execPeerLost p s = _
  rw [execPeerLost, takeVc0_next hk (by rw [hb]; rfl)]
  simp only [hb]
end

/-- Settles O49: each kind of packet by its rule above, and a duplicate. -/
theorem fabricPacketsAct : Obligations.FabricPacketsAct := by
  refine ⟨?_, ?_, ?_, ?_, ?_, ?_, ?_, ?_⟩
  · exact fun p s k rest c h hk hb => execTickHeaderReceive_next hk hb
  · exact fun p s k rest c i reset n org hk hb hi => execHurdlePacket_next hk hb hi
  · exact fun p s k rest c r d f hk hb => execTopo_next hk hb
  · exact fun p s k rest c hk hb => execRoleReq_next hk hb
  · exact fun p s k rest c hk hb hreq hsys => execRoleGrant_next hk hb hreq hsys
  · exact fun p s k rest c hk hb => execRoleCancel_next hk hb
  · exact fun p s k rest c d hk hb => execPeerLost_next hk hb
  · -- a duplicate of a tick header
    intro p s k rest c hrx hpeer hw hold
    exact congrArg Host.Outcome.next (takeVc0_duplicate hrx hpeer hw hold)

end Sys2Proof.Machine
end

section
/-!
How a command of Scribe runs (R158, R161): what is turned away replies, what is accepted has its effect.
-/
namespace Sys2Proof.Machine

/-- A command that a check turns away only replies with that check's status. -/
theorem runOp_turnedAway {h : CmdHdr} {op st : Nat} {params : List Nat} {s : State} (eff : State → State) (hr : runsNow s h op params = true)
    (ht : turnedAway s h.fn h.pair op = some st) : runOp h op params eff s = .next (fail h op st s) := by
  simp only [runOp, hr, ht, Bool.not_true, Bool.false_eq_true, if_false]

/-- A command that runs as an opcode is turned away as the checks of that opcode say. -/
theorem TurnsAway.of_runOp {h : CmdHdr} {op : Nat} {params : List Nat} {c : Instr} {eff : State → State}
    (hc : ∀ s, exec c s = runOp h op params eff s) : TurnsAway h op params c :=
  fun s _ hr ht => (hc s).trans (runOp_turnedAway eff hr ht)

/-- A command that runs as an opcode serves, once accepted, what the opcode's effect does under a condition. -/
theorem Serves.of_runOp {h : CmdHdr} {op : Nat} {params : List Nat} {c : Instr} {g : State → Prop} {eff e : State → State}
    (hc : ∀ s, exec c s = runOp h op params eff s) (he : ∀ s, g s → eff s = e s) : Serves h op params c g e :=
  fun s ha hg => (hc s).trans ((runOp_accepted eff ha).trans (congrArg Host.Outcome.next (he s hg)))

/-- Settles O8: the meaning of each of the 46 commands is its opcode, run with its parameters. -/
theorem turnedAwayCommandsOnlyReply : Obligations.TurnedAwayCommandsOnlyReply := by
  and_intros <;> intros <;> exact .of_runOp fun _ => rfl

end Sys2Proof.Machine
end

section
/-!
Doorbells and pair 0's control register (R148, R155, Table 4.13).
-/
namespace Sys2Proof.Machine

section
variable {fn : Fin 65} {q : Fin 8} {d : Word} {s : State} (hf : fnCreated s fn = true) (hr : resetting s fn = false)
include hf hr

/-- A doorbell of another epoch is counted as stale. -/
theorem execSqDoorbell_stale (he : fld d 16 16 ≠ sqEpoch s fn q) : exec (.sqDoorbell fn q d) s = .next (addReg (viPage fn + 0x14) 1 s) := by
  show execSqDoorbell fn q d s = _
  simp only [execSqDoorbell, hf, hr, Bool.not_true, Bool.or_self, Bool.false_eq_true, if_false, if_pos (Or.inl he)]

/-- A doorbell of the pair's own epoch, by whether the slots that it publishes fit the ring. -/
theorem execSqDoorbell_current {p : QPair} (hp : getPair s fn q = some p) (he : fld d 16 16 = sqEpoch s fn q) (h0 : sqEpoch s fn q ≠ 0) :
    exec (.sqDoorbell fn q d) s = .next (
      if p.slots ≤ fld d 0 16 ∨ p.slots - 1 < (fld d 0 16 + p.slots - p.tail) % p.slots + (p.tail + p.slots - p.head) % p.slots
      then addReg (viPage fn + 0x18) 1 s else setPair fn q { p with tail := fld d 0 16 } s) := by
  have hcur : ¬ (fld d 16 16 ≠ sqEpoch s fn q ∨ sqEpoch s fn q = 0) := not_or.2 ⟨not_not.2 he, h0⟩
  show execSqDoorbell fn q d s = _
  simp only [execSqDoorbell, hf, hr, hp, if_neg hcur, Bool.not_true, Bool.or_self, Bool.false_eq_true, if_false]

/-- A head within the entries written frees them (R155). -/
theorem execCqHeadDoorbell_moves {p : QPair} (hp : getPair s fn q = some p) (he : fld d 16 16 = cqEpoch s fn q) (hn : fld d 0 16 < p.entries)
    (hu : (fld d 0 16 + p.entries - p.cqHead) % p.entries ≤ cqUsed p) :
    exec (.cqHeadDoorbell fn q d) s = .next (setPair fn q { p with cqHead := fld d 0 16 } s) := by
  have hmove : fld d 16 16 = cqEpoch s fn q ∧ fld d 0 16 < p.entries ∧ (fld d 0 16 + p.entries - p.cqHead) % p.entries ≤ cqUsed p := ⟨he, hn, hu⟩
  show execCqHeadDoorbell fn q d s = _
  simp only [execCqHeadDoorbell, hf, hr, hp, if_pos hmove, Bool.not_true, Bool.or_self, Bool.false_eq_true, if_false]
end

/-- ENABLE 0 deletes a pair 0 that was enabled (Table 4.13). -/
theorem execViQ0Enable_deletes {fn : Fin 65} {d : Word} {s : State} (hr : resetting s fn = false) (hon : getB s (viPage fn + 0x94) 0 = true)
    (hd : fld d 0 1 = 0) : exec (.viQ0Enable fn d) s = .next (deletePair fn 0 (setReg (viPage fn + 0x94) (d &&& 0xFF01#32) s)) := by
  show execViQ0Enable fn d s = _
  simp only [execViQ0Enable, hr, hon, hd, Nat.zero_ne_one, decide_false, Bool.not_false, false_and, and_self, Bool.false_eq_true, if_false, if_true]

/-- Settles O35: each register by its rule above. -/
theorem doorbellsAnswer : Obligations.DoorbellsAnswer := by
  refine ⟨?_, ?_, ?_, ?_, ?_⟩
  · -- a doorbell that fits
    intro fn q d s p hf hr hp he h0 ht hfit
    rw [execSqDoorbell_current hf hr hp he h0, if_neg (by omega)]
  · -- a stale doorbell
    exact fun fn q d s hf hr he => execSqDoorbell_stale hf hr he
  · -- a doorbell that publishes too much
    intro fn q d s p hf hr hp he h0 hbad
    rw [execSqDoorbell_current hf hr hp he h0, if_pos (Or.inr hbad)]
  · -- a CQ head doorbell
    exact fun fn q d s p hf hr hp he hn hu => execCqHeadDoorbell_moves hf hr hp he hn hu
  · -- pair 0 disabled
    exact fun fn d s hr hon hd => execViQ0Enable_deletes hr hon hd

end Sys2Proof.Machine
end

section
/-!
Commands on queues and hurdles (R150, R151, R161, R214).
-/
namespace Sys2Proof.Machine

/-- Settles O36: each command's effect, with the checks of its parameters passed. -/
theorem queueCommandsComplete : Obligations.QueueCommandsComplete := by
  refine ⟨fun h => ?_, fun h q => ?_, fun h k => ?_, fun h k p => ?_, fun h n k => ?_, fun h k => ?_⟩
  · -- NOP
    exact .of_runOp (fun _ => rfl) fun _ _ => rfl
  · -- CREATE_QUEUE
    refine .of_runOp (fun _ => rfl) fun s hg => ?_
    obtain ⟨h1, h7, hok, hnone⟩ := hg
    have hgood : ¬ (q.pair = 0 ∨ 7 < q.pair ∨ (!queueOk h.fn q) = true) := by
      simp only [hok, Bool.not_true, Bool.false_eq_true, or_false]
      omega
    rw [if_neg hgood, hnone, Option.isSome_none, if_neg Bool.false_ne_true]
  · -- DELETE_QUEUE
    refine .of_runOp (fun _ => rfl) fun s hg => ?_
    obtain ⟨h1, h7, hsome⟩ := hg
    rw [if_neg (by omega), ← Option.not_isSome, hsome, Bool.not_true, if_neg Bool.false_ne_true]
  · -- FLUSH_QUEUE
    refine .of_runOp (fun _ => rfl) fun s hg => ?_
    obtain ⟨h7, hp⟩ := hg
    rw [if_neg (Nat.not_lt.2 h7), hp]
  · -- HURDLE_ARRIVE
    refine .of_runOp (fun _ => rfl) fun s hg => ?_
    rw [hg, Bool.not_true, if_neg Bool.false_ne_true]
  · -- HURDLE_WAIT
    refine .of_runOp (fun _ => rfl) fun s hg => ?_
    rw [hg, Bool.not_true, if_neg Bool.false_ne_true]

end Sys2Proof.Machine
end

section
/-!
Scribe's own events (R155, R168, R169, R172, R214).
-/
namespace Sys2Proof.Machine

/-! ### Dispatch -/

/-- The state with a pair's next command consumed: its head moves past the slots of the command, and the pair was the last one served (R168). -/
def consumed (k : Nat) (p : QPair) (raw : List Byte) (s : State) : State :=
  modScribe (fun x => { x with turn := k }) (setPair (k / 8) (k % 8) { p with head := (p.head + raw.length / 64) % p.slots } s)
/-- What Scribe holds of a command that it consumes: its HURDLE_WAIT expects the GEN in force now (R214). -/
def consumedCmd (k : Nat) (raw : List Byte) (s : State) : Cmd :=
  { h := hdrOf (k / 8) (k % 8) raw, op := field raw 0 1, raw := raw, gen := (getHurdle s (field raw 16 2)).gen }

section
variable {s : State} {k : Nat} {p : QPair} {raw : List Byte} (hc : s.scribe.consuming = true) (hp : pickQueue s = some (k, p, raw))
include hc hp

/-- A command whose header fails a check completes with that check's status (R158). -/
theorem execCommandDispatch_fails {st : Nat} (hk : headerCheck (consumed k p raw s) (k / 8) (k % 8) raw = some st)
    (ha : hurdleAllowed (consumed k p raw s) (k / 8) (field raw 14 2) = true) :
    exec .commandDispatch s = .next (fail (hdrOf (k / 8) (k % 8) raw) (field raw 0 1) st (consumed k p raw s)) := by
  unfold consumed at hk ha
  show execCommandDispatch s = _
  simp only [execCommandDispatch, consumed, hc, hp, hk, ha, Bool.not_true, Bool.false_eq_true, if_false, if_true]

/-- A command without WAIT starts. -/
theorem execCommandDispatch_starts (hk : headerCheck (consumed k p raw s) (k / 8) (k % 8) raw = none) (hw : bit (field raw 1 1) 2 = false) :
    exec .commandDispatch s = .next (startCmd (consumedCmd k raw s) (consumed k p raw s)) := by
  unfold consumed at hk
  show execCommandDispatch s = _
  simp only [execCommandDispatch, consumed, consumedCmd, hc, hp, hk, hw, Bool.not_true, Bool.false_eq_true, if_false]

/-- A command with WAIT waits on its hurdle for the GEN in force to pass (R214). -/
theorem execCommandDispatch_waits (hk : headerCheck (consumed k p raw s) (k / 8) (k % 8) raw = none) (hw : bit (field raw 1 1) 2 = true) :
    exec .commandDispatch s = .next (
      let t := consumed k p raw s
      let n := field raw 12 2
      let e := (getHurdle t n).gen
      let u := modScribe (fun x => { x with waits := x.waits ++ [{ cmd := consumedCmd k raw s, hurdle := n, expect := e }] }) t
      hurdleCycle n [] { u with hwaits := t.hwaits ++
        [{ hurdle := n, who := 0x8000 + k / 8, expect := e, word := 1#128, cmd := some (hdrOf (k / 8) (k % 8) raw) }] }) := by
  unfold consumed at hk
  show execCommandDispatch s = _
  simp only [execCommandDispatch, consumed, consumedCmd, hc, hp, hk, hw, modScribe_hwaits, Bool.not_true, Bool.false_eq_true, if_false, if_true]
end

/-! ### Waits, the inbox, replies and vectors -/

/-- The first waiting command that may start does (R214). -/
theorem execCommandWaitRelease_starts {s : State} {w : CmdWait} {rest : List CmdWait} (hw : takeFirst (mayStart s) s.scribe.waits = some (w, rest)) :
    exec .commandWaitRelease s = .next (startCmd w.cmd (modScribe (fun x => { x with waits := rest }) s)) := by
  show execCommandWaitRelease s = _
  simp only [execCommandWaitRelease, hw]

/-- Hub firmware that serves the inbox takes the oldest entry (R169). -/
theorem execFirmwareInboxServe_takes {s : State} {c : Cmd} {r : List Cmd} (hon : getB s 0x708 25 = true) (hbusy : getB s 0x708 26 = false)
    (hh : s.hub.halted = false) (hi : s.scribe.inbox = c :: r) :
    exec .firmwareInboxServe s = .next (modScribe (fun x => { x with inbox := r, started := x.started ++ [c] }) s) := by
  show execFirmwareInboxServe s = _
  simp only [execFirmwareInboxServe, hon, hbusy, hh, hi, Bool.not_true, Bool.or_self, Bool.false_eq_true, if_false]

/-- The first reply that may be written is (R155). -/
theorem execStatusReplyWrite_writes {s : State} {r : Reply} {rest : List Reply} (hr : takeFirst (writable s) s.scribe.replies = some (r, rest)) :
    exec .statusReplyWrite s = .next (writeReply r (modScribe (fun x => { x with replies := rest }) s)) := by
  show execStatusReplyWrite s = _
  simp only [execStatusReplyWrite, hr]

/-- Time changes no queue pair. -/
theorem getPair_at (n : Nat) (s : State) (f q : Nat) : getPair { s with now := n } f q = getPair s f q := rfl

/-- COAL_TIME after the oldest reply not signalled, its vector is (R172). -/
theorem execCqCoalTimeout_signals {fn : Fin 65} {q : Fin 8} {t : Nat} {s : State} {p : QPair} (hp : getPair s fn q = some p) (hu : 0 < p.unsig)
    (ht : p.unsigSince + 1000 * coalTimeOf p ≤ max s.now t) :
    exec (.cqCoalTimeout fn q t) s = .next (signal fn p.vector (setPair fn q { p with unsig := 0 } { s with now := max s.now t })) := by
  show execCqCoalTimeout fn q t s = _
  simp only [execCqCoalTimeout, getPair_at, hp, hu, ht, and_self, if_true]

/-- Settles O37: each event by its rule above. -/
theorem scribeEventsComplete : Obligations.ScribeEventsComplete := by
  refine ⟨?_, ?_, ?_, ?_, ?_⟩
  · -- dispatch
    intro s k p raw hc hp
    exact ⟨fun st hk ha => execCommandDispatch_fails hc hp hk ha, fun hk hw => execCommandDispatch_starts hc hp hk hw,
      fun hk hw => execCommandDispatch_waits hc hp hk hw⟩
  · -- the release of a WAIT
    exact fun s w rest hw => execCommandWaitRelease_starts hw
  · -- service of the inbox
    exact fun s c r hon hbusy hh hi => ⟨_, execFirmwareInboxServe_takes hon hbusy hh hi, modScribe_keeps _ _, rfl⟩
  · -- a reply
    exact fun s r rest hr => execStatusReplyWrite_writes hr
  · -- coalescing
    exact fun fn q t s p hp hu ht => execCqCoalTimeout_signals hp hu ht

end Sys2Proof.Machine
end

section
/-!
Commands that move or return data (R165, R404, R510, R529, R531, R638, R657, R687, R744, R749).
-/
namespace Sys2Proof.Machine

/-! ### Bytes without blots -/

/-- A piece of a list has only its elements. -/
theorem mem_of_mem_pieces {α : Type} {k n : Nat} {l x : List α} {a : α} (hx : x ∈ pieces k n l) (ha : a ∈ x) : a ∈ l := by
  induction k generalizing l with
  | zero => exact absurd hx List.not_mem_nil
  | succ k ih =>
    by_cases hl : l.isEmpty = true
    · rw [pieces, if_pos hl] at hx
      exact absurd hx List.not_mem_nil
    · rw [pieces, if_neg hl] at hx
      rcases List.mem_cons.1 hx with rfl | hx
      · exact List.mem_of_mem_take ha
      · exact List.mem_of_mem_drop (ih hx)

/-- Bytes that carry no blot make no blotted granule. -/
theorem blottedGrans_plain (l : List Byte) : blottedGrans (l.map (fun b => (b, false))) = 0 := by
  refine List.length_eq_zero_iff.2 (List.filter_eq_nil_iff.2 fun x hx => ?_)
  refine Bool.eq_false_iff.1 (List.any_eq_false.2 fun b hb => ?_)
  obtain ⟨a, -, rfl⟩ := List.mem_map.1 (mem_of_mem_pieces hx hb)
  exact Bool.false_ne_true

theorem tBytes_plain (l : List Byte) : tBytes (l.map (fun b => (b, false))) = l := by
  rw [tBytes, List.map_map]
  exact List.map_id l

/-! ### Telemetry -/

/-- Scribe holds no earlier snapshot of the AF than this command's (R165). -/
theorem no_other_snapshot_first {h : CmdHdr} {l : List Cmd} (hfirst : ∀ c, l.find? (fun c => decide (c.op = 0x60 ∧ c.h.fn.val = 0)) = some c → c.h = h) :
    ((l.find? (fun c => decide (c.op = 0x60 ∧ c.h.fn.val = 0))).map (fun c => decide (c.h ≠ h))).getD false = false := by
  cases hfind : l.find? (fun c => decide (c.op = 0x60 ∧ c.h.fn.val = 0)) with
  | none => rfl
  | some c => exact decide_eq_false (not_not.2 (hfirst c hfind))

/-- Settles O38: each command's effect, with the checks of its parameters passed. -/
theorem dataCommandsComplete : Obligations.DataCommandsComplete := by
  refine ⟨fun h src dst len host => ?_, fun h src dst len host => ?_, fun h src dst len host => ?_, fun h dst len pattern => ?_, fun h dst i c => ?_,
    fun h dst sets => ?_, fun h dst max => ?_, fun h dst max => ?_, fun h dst len => ?_, fun h dst len => ?_, fun h dst n => ?_, fun h seed step => ?_,
    fun h src len tab => ?_, fun h dst len first count s tab ha htab hlen => ?_⟩
  · -- COPY from the bus to the bus
    refine .of_runOp (fun _ => rfl) fun s hg => ?_
    obtain ⟨hlen, h0, h1⟩ := hg
    simp only [if_neg (not_not.2 hlen), h0, h1, if_true, blottedGrans_plain, tBytes_plain]
    rfl
  · -- COPY from the device to the bus
    refine .of_runOp (fun _ => rfl) fun s hg => ?_
    obtain ⟨hlen, h0, h1⟩ := hg
    simp only [if_neg (not_not.2 hlen), h0, h1, Bool.false_eq_true, if_false, if_true]
  · -- COPY within the device
    refine .of_runOp (fun _ => rfl) fun s hg => ?_
    obtain ⟨hlen, h0, h1⟩ := hg
    simp only [if_neg (not_not.2 hlen), h0, h1, Bool.false_eq_true, if_false]
  · -- FILL
    exact .of_runOp (fun _ => rfl) fun s hlen => if_neg (not_not.2 hlen)
  · -- COUNTERS_READ
    refine .of_runOp (fun _ => rfl) fun s hc => ?_
    rw [hc]
  · -- TELEMETRY_SNAPSHOT of the AF
    refine .of_runOp (fun _ => rfl) fun s hg => ?_
    obtain ⟨h0, h128, hdst, hf, hfirst⟩ := hg
    have hgood : ¬ (sets = 0 ∨ 128 ≤ sets ∨ dst % 64 ≠ 0) := by omega
    simp only [if_neg hgood, hf, ne_eq, not_true_eq_false, false_and, no_other_snapshot_first hfirst, Bool.false_eq_true, if_false, if_true]
  · -- BLOTTER_READ
    exact .of_runOp (fun _ => rfl) fun _ _ => rfl
  · -- RETIRED_PAGES_READ
    exact .of_runOp (fun _ => rfl) fun _ _ => rfl
  · -- LIFE_RECORD_READ
    exact .of_runOp (fun _ => rfl) fun _ _ => rfl
  · -- CONFIG_READ
    exact .of_runOp (fun _ => rfl) fun s hlen => if_neg (Nat.not_lt.2 hlen)
  · -- VI_QUERY
    refine .of_runOp (fun _ => rfl) fun s hg => ?_
    obtain ⟨h1, h64, hfn⟩ := hg
    rw [if_neg (by omega), if_neg (by omega)]
  · -- SEED_SET
    exact .of_runOp (fun _ => rfl) fun _ _ => rfl
  · -- SHARD_IMPORT
    refine .of_runOp (fun _ => rfl) fun s htab => ?_
    rw [htab]
  · -- SHARD_EXPORT
    dsimp only
    intro hfit
    show execShardExport h dst len first count s = _
    rw [execShardExport, runOp_accepted _ ha]
    simp only [htab, if_neg (Nat.not_lt.2 hlen), if_neg (Nat.not_lt.2 hfit)]

end Sys2Proof.Machine
end

section
/-!
The issue of a stroke (R198, R199): what a ready stroke of a row leaves, for the strokes common to all cores and for the S-core strokes of flow
and transfers (Tables 5.8 and 7.7). A stroke reads and writes at its issue (log 42).
-/
namespace Sys2Proof.Machine

/-! ### A ready stroke issues -/

theorem mayIssue_iff {unit op : Nat} {r : RunnerRef} {w : StrokeWord} {s : State} :
    mayIssue unit op r w s = true ↔ isOp w unit op = true ∧ myTurn (refNo r) s = true ∧ ready (refNo r) w s = true ∧ sRelay w = false := by
  simp only [mayIssue, Bool.and_eq_true, Bool.not_eq_true', and_assoc]

theorem sMayIssue_iff {op : Nat} {r : RunnerRef} {w : StrokeWord} {s : State} :
    sMayIssue op r w s = true ↔ mayIssue 2 op r w s = true ∧ sHeld (refNo r) w s = false := by
  simp only [sMayIssue, Bool.and_eq_true, Bool.not_eq_true']

section
variable {unit op : Nat} {r : RunnerRef} {w : StrokeWord} {s : State} {o : StrokeOut} {f : Nat → StrokeWord → State → Option StrokeOut}

/-- A ready stroke whose effect is possible issues with it (R198, R221). -/
theorem issueAs_issued (h : mayIssue unit op r w s = true) (he : f (refNo r) w s = some o) : issueAs unit op r w f s = .next (issued r w o) := by
  obtain ⟨hop, hturn, hready, hrelay⟩ := mayIssue_iff.1 h
  simp only [issueAs, issue, issued, hop, hturn, hready, hrelay, he, Bool.not_false, Bool.and_self, if_true]

/-- A ready S-core stroke that nothing holds has its effect on what its register reads leave (R324, R752). -/
theorem issueAs_sEffect {p : Option Nat} (h : sMayIssue op r w s = true) (he : f (refNo r) w (sParity p (refNo r) w s) = some o) :
    issueAs 2 op r w (sEffect p f) s = .next (issued r w o) := by
  obtain ⟨hmay, hfree⟩ := sMayIssue_iff.1 h
  exact issueAs_issued hmay ((if_neg (Bool.eq_false_iff.1 hfree)).trans he)

/-- The same for a stroke that reads no register. -/
theorem issueAs_sPlain (h : sMayIssue op r w s = true) (he : f (refNo r) w s = some o) :
    issueAs 2 op r w (sPlain f) s = .next (issued r w o) := by
  obtain ⟨hmay, hfree⟩ := sMayIssue_iff.1 h
  exact issueAs_issued hmay ((if_neg (Bool.eq_false_iff.1 hfree)).trans he)
end

/-- Settles O18: the effects of Table 5.8 never stall. -/
theorem commonStrokesIssue : Obligations.CommonStrokesIssue :=
  ⟨fun _ _ _ h => issueAs_issued (f := nopEffect) h rfl, fun _ _ _ h => issueAs_issued (f := delayEffect) h rfl,
    fun _ _ _ h => issueAs_issued (f := lapEndEffect) h rfl⟩

/-! ### Rings, skips, loops and transfers -/

/-- Without a blotted operand the latch holds (R229). -/
@[simp] theorem setLatch_false (k : Nat) (s : State) : setLatch k false s = s := rfl

/-- SPUSH with room in its ring pushes its eight registers as one granule (R317). -/
theorem spushEffect_pushes {k : Nat} {w : StrokeWord} {s g : State}
    (hg : pushBytes k ((sFields w).imm % 8) (sRelay w) ((List.range 8).flatMap (fun i =>
      (leBytes 8 (sx s k ((sFields w).sb + i)).toNat).map (fun b =>
        (b, (List.range 8).any (fun i => sxTag s k ((sFields w).sb + i)))))) s = some g) :
    spushEffect k w s = some { s := g, chan := some ((sFields w).imm % 8) } := by
  simp only [spushEffect, List.any_map, List.flatMap_map, Function.comp_def, hg, Option.map_some]

/-- SSKIP without a blotted operand only opens its skip, where its condition holds (R207). -/
theorem sskipEffect_clean {k : Nat} {w : StrokeWord} {s : State} (ha : sxTag s k (sFields w).sa = false) (hb : opBTag s k w = false) :
    sskipEffect k w s = some (plainOut (if skipCond (sFields w).func (sx s k (sFields w).sa) (opB s k w) then
      modRunner k (fun x => { x with skip := (sFields w).imm % 256 }) s else s)) := by
  simp only [sskipEffect, plainOut, ha, hb, Bool.or_self, setLatch_false]
  split <;> rfl

/-- SLOOP with an immediate count of passes and its body queued takes the body from the queue and begins its first pass with SD = 0 (R318). -/
theorem sloopEffect_enters {k : Nat} {w : StrokeWord} {s : State} (hi : (sFields w).immb = true) (hp : 0 < (sFields w).imm % 2 ^ 16)
    (hq : (sFields w).imm / 2 ^ 16 % 32 ≤ ((getRunner s k).queue.drop 1).length) :
    sloopEffect k w s = some (
      let q := (getRunner s k).queue
      let n := (sFields w).imm / 2 ^ 16 % 32
      let l : LoopState := ⟨(q.drop 1).take n, w :: (q.drop 1).take n, (sFields w).imm % 2 ^ 16, (sFields w).sd, 0⟩
      plainOut (modRunner k (fun x => { x with queue := q.drop (1 + n), loop := some l }) (setSx k (sFields w).sd 0#64 false s))) := by
  have hbody : ¬ (((getRunner s k).queue.drop 1).take ((sFields w).imm / 2 ^ 16 % 32)).length < (sFields w).imm / 2 ^ 16 % 32 := by
    rw [List.length_take, Nat.min_eq_left hq]
    exact Nat.lt_irrefl _
  simp only [sloopEffect, loopCount, plainOut, hbody, hi, Nat.pos_iff_ne_zero.1 hp, Bool.not_true, Bool.false_and, setLatch_false, if_true, if_false]

/-- Settles O26: each stroke by its effect above. -/
theorem scalarFlowStrokesIssue : Obligations.ScalarFlowStrokesIssue := by
  refine ⟨?_, ?_, ?_, ?_, ?_, ?_, ?_, ?_⟩
  · -- SPUSH
    exact fun _ _ _ _ _ h he => issueAs_sEffect h he
  · -- SIDX
    exact fun _ _ _ _ _ h he => issueAs_sEffect h he
  · -- SPUSH with its granule
    exact fun _ _ _ _ _ h hg => issueAs_sEffect h (spushEffect_pushes hg)
  · -- SSKIP with operands that are not blotted
    exact fun _ _ _ _ h ha hb => issueAs_sEffect h (sskipEffect_clean ha hb)
  · -- SSKIP
    exact fun _ _ _ _ _ h he => issueAs_sEffect h he
  · -- SLOOP
    exact fun _ _ _ _ _ h he => issueAs_sEffect h he
  · -- SLOOP with an immediate count
    exact fun _ _ _ h hi hp hq => issueAs_sEffect (p := none) h (sloopEffect_enters hi hp hq)
  · -- SXFER
    exact fun _ _ _ _ _ h he => issueAs_sEffect h he

end Sys2Proof.Machine
end

section
/-!
Hurdles (R208 to R217, R316): their operations, the strokes and the register that make them. A stroke acts on its hurdle at its issue (log 42).
-/
namespace Sys2Proof.Machine

/-- RESET changes COUNT alone (R209). -/
theorem applyOps_reset {h : Hurdle} (hg : h.gen < 65536) : h.applyOps [.reset] = { h with count := 0 } := by
  have hzero : h.applyOps [.reset] = ({ h with count := 0 } : Hurdle).eval := rfl
  rw [hzero, Hurdle.eval]
  split
  · simp only [Nat.zero_mod, Nat.zero_div, Nat.add_zero, Nat.mod_eq_of_lt hg]
  · rfl

/-- Settles O16: RESET changes COUNT alone, and TARGET acts as the mode says. -/
theorem hurdleResetKeepsItsSetting : Obligations.HurdleResetKeepsItsSetting := by
  refine ⟨fun h hg => applyOps_reset hg, fun h hm ht => ?_, fun h ht => ?_, fun h hm => if_pos hm⟩
  · -- TARGET 0 in CYCLE and TOKEN mode
    rw [Hurdle.goal, if_neg (by omega), ht]
    rfl
  · -- TARGET above 0
    rw [Hurdle.goal, Nat.max_eq_left ht, ite_self]

/-! ### Effects of the hurdle strokes -/

section
variable {k n : Nat} {w : StrokeWord} {s : State}

/-- An index outside the function's range is a bus error (R213). -/
theorem sarriveEffect_busError (hn : strokeHurdle s k w = none) : sarriveEffect k w s = some (hurdleBusError k w s) := by
  simp only [sarriveEffect, hn]

section
variable (hn : strokeHurdle s k w = some n)
include hn

theorem sarriveEffect_arrives (hb : opBTag s k w = false) :
    sarriveEffect k w s =
      some { s := arrive n (if (sFields w).immb then (sFields w).imm / 2 ^ 32 % 2 ^ 16 else (sx s k (sFields w).sb).toNat % 2 ^ 32) s } := by
  simp only [sarriveEffect, hn, hb, setLatch_false]

/-- SWAIT on a hurdle that releases it at once takes what its mode takes. -/
theorem swaitEffect_released (hm : (getHurdle s n).mode ≠ 1) (hr : (getHurdle s n).released ((sx s k (sFields w).sb).toNat % 2 ^ 16) = true)
    (hf : (sFields w).func % 2 = 0) : swaitEffect k w s = some { s := putHurdle n (getHurdle s n).take s } := by
  simp only [swaitEffect, hn, hm, hr, hf, Nat.zero_ne_one, decide_false, Bool.false_and, setLatch_false, if_true, if_false]

/-- SWAIT on a hurdle that does not release it joins the hurdle's waits. -/
theorem swaitEffect_waits (hm : (getHurdle s n).mode ≠ 1) (hr : (getHurdle s n).released ((sx s k (sFields w).sb).toNat % 2 ^ 16) = false) :
    swaitEffect k w s = some { s := { s with hwaits := s.hwaits ++
      [{ hurdle := n, who := k, expect := (sx s k (sFields w).sb).toNat % 2 ^ 16, word := w, cmd := none }] }, waiting := true } := by
  simp only [swaitEffect, hn, hm, hr, decide_false, Bool.false_and, setLatch_false, Bool.false_eq_true, if_false]

theorem sresetEffect_resets : sresetEffect k w s = some { s := hurdleReset n s } := by
  simp only [sresetEffect, hn]

theorem shreadEffect_reads :
    shreadEffect k w s = some { s := setSx k (sFields w).sd (BitVec.ofNat 64 (if (sFields w).func = 0 then (getHurdle s n).count
      else if (sFields w).func = 1 then (getHurdle s n).gen else (getHurdle s n).target)) false s } := by
  simp only [shreadEffect, hn]

theorem shtargetEffect_sets (hb : sxTag s k (sFields w).sb = false) :
    shtargetEffect k w s = some { s := hurdleCycle n [.setTarget (BitVec.ofNat 32 (sx s k (sFields w).sb).toNat)] s } := by
  simp only [shtargetEffect, hn, hb, setLatch_false]
end
end

/-- Settles O27: each stroke by its effect above. -/
theorem hurdleStrokesIssue : Obligations.HurdleStrokesIssue := by
  refine ⟨?_, ?_, ?_⟩
  · -- strokes that read a register
    intro r w p s n
    dsimp only
    intro hn
    refine ⟨?_, ?_, ?_, ?_⟩
    · -- SARRIVE
      exact fun h hb => issueAs_sEffect h (sarriveEffect_arrives hn hb)
    · -- SWAIT released at once
      exact fun h hm hr hf => issueAs_sEffect h (swaitEffect_released hn hm hr hf)
    · -- SWAIT not released
      exact fun h hm hr => issueAs_sEffect h (swaitEffect_waits hn hm hr)
    · -- SHTARGET
      exact fun h hb => issueAs_sEffect h (shtargetEffect_sets hn hb)
  · -- SRESET and SHREAD
    exact fun r w s n hn => ⟨fun h => issueAs_sPlain h (sresetEffect_resets hn), fun h => issueAs_sPlain h (shreadEffect_reads hn)⟩
  · -- an index outside the range
    exact fun r w p s hn h => issueAs_sEffect h (sarriveEffect_busError hn)

/-! ### HDL_CTRL -/

/-- A write of HDL_CTRL of a hurdle of this device is one cycle of its operations (Table 5.13). -/
theorem hdlCtrlWrite_local {n : Nat} (hn : n < 7680) (d : Word) (s : State) :
    hdlCtrlWrite n d s = hurdleCycle n ((if fld d 31 1 = 1 then [.reset] else []) ++ (if fld d 0 16 ≠ 0 then [.arrive (fld d 0 16)] else [])) s :=
  if_pos hn

section
variable {n : Fin 8192} {d : Word}

/-- A write with RESET does what it says. -/
theorem exec_hdlCtrlReset (hr : fld d 31 1 = 1) (s : State) : exec (.hdlCtrlReset n d) s = .next (hdlCtrlWrite n d s) :=
  congrArg Host.Outcome.next (if_pos hr)

/-- A write with a nonzero ARRIVE does what it says. -/
theorem exec_hdlCtrlArrive (hk : fld d 0 16 ≠ 0) (s : State) : exec (.hdlCtrlArrive n d) s = .next (hdlCtrlWrite n d s) :=
  congrArg Host.Outcome.next (if_pos hk)
end

end Sys2Proof.Machine
end

section
/-!
Towers (R341 to R346, R351, R352, R372, R374): bank accesses, patrols, bank power and marches, and with the hurdles above what each of their
operations does.
-/
namespace Sys2Proof.Machine

/-! ### Bank accesses -/

theorem pickPort_nil (last : Nat) : pickPort last [] = none :=
  List.findSome?_eq_none_iff.2 fun _ _ => rfl

/-- One request alone is in its turn, whichever port was served last. -/
theorem pickPort_singleton (last : Nat) (r : BankReq) : pickPort last [r] = some r := by
  have hport := r.port.isLt
  have hturn : r.port.val = (last + 1 + (r.port.val + 10 * (last + 1)) % 11) % 11 := by omega
  cases hp : pickPort last [r] with
  | none =>
    have hnone := List.findSome?_eq_none_iff.1 hp _ (List.mem_range.2 (Nat.mod_lt (r.port.val + 10 * (last + 1)) (by decide)))
    exact absurd (decide_eq_true hturn) (List.find?_eq_none.1 hnone r (List.mem_singleton_self r))
  | some x =>
    obtain ⟨i, -, hx⟩ := List.exists_of_findSome?_eq_some hp
    rw [List.mem_singleton.1 (List.mem_of_find?_eq_some hx)]

/-- One request alone, of a free bank and with a port that captures, is served (R343). -/
theorem laneServes_singleton {s : State} {t lane cycle : Nat} {r : BankReq} (hl : r.bank.val % 8 = lane)
    (hb : kvGet (fun _ => 0) (getTower s t).busy r.bank ≤ cycle) (hp : portHeld s t r.port = false) : laneServes s t lane cycle [r] = [r] := by
  have hmay : ([r].filter fun x => decide (x.bank.val % 8 = lane ∧ kvGet (fun _ => 0) (getTower s t).busy x.bank ≤ cycle) &&
      !(opOut x.op && portHeld s t x.port && decide (2 ≤ (kvGet (fun _ => []) (getTower s t).transmit (4 * lane + x.port)).length))) = [r] :=
    List.filter_cons_of_pos (by simp only [hl, hb, hp, and_self, decide_true, Bool.and_false, Bool.false_and, Bool.not_false, Bool.and_self])
  have hmine : [r].filter (fun x => decide (x.bank.val = r.bank.val)) = [r] := List.filter_cons_of_pos (decide_eq_true rfl)
  have hturn : ∀ (f : BankReq → Bool) (last : Nat), (!f r || decide (pickPort last ([r].filter f) = some r)) = true := by
    intro f last
    cases hf : f r with
    | false => rfl
    | true => rw [List.filter_cons_of_pos hf, List.filter_nil, pickPort_singleton, decide_eq_true rfl, Bool.or_true]
  simp only [laneServes, hmay, List.map_cons, List.map_nil, (List.nodup_singleton r.bank.val).dedup, List.filterMap_cons, List.filterMap_nil, hmine,
    pickPort_singleton]
  exact List.filter_cons_of_pos (Bool.and_eq_true_iff.2 ⟨hturn (fun x => opOut x.op) _, hturn (fun x => opIn x.op) _⟩)

/-- The requests of a lane, one of which is served: the others count as waiting for their masters (R376). -/
theorem execBankAccess_serves {t : Fin 16} {lane : Fin 8} {cycle : Nat} {reqs : List BankReq} {s : State} {r : BankReq}
    (hl : ∀ x ∈ reqs, x.bank.val % 8 = lane.val) (hr : laneServes s t lane cycle reqs = [r]) :
    exec (.bankAccess t lane cycle reqs) s =
      .next (bankServe t cycle r ((reqs.filter (fun x => x ≠ r)).foldl (fun s x => addReg (masterReg t x + 4) 1 s) s)) := by
  have hall : reqs.filter (fun x => decide (x.bank.val % 8 = lane.val)) = reqs := List.filter_eq_self.2 fun x hx => decide_eq_true (hl x hx)
  have hrest : ∀ x : BankReq, (!([r] : List BankReq).contains x) = decide (x ≠ r) := by
    intro x
    by_cases hx : x = r <;> simp [hx]
  show execBankAccess t lane cycle reqs s = _
  simp only [execBankAccess, hall, hr, hrest, List.foldl_cons, List.foldl_nil]

theorem execBankAccess_alone {t : Fin 16} {lane : Fin 8} {cycle : Nat} {s : State} {r : BankReq} (hl : r.bank.val % 8 = lane.val)
    (hb : kvGet (fun _ => 0) (getTower s t).busy r.bank ≤ cycle) (hp : portHeld s t r.port = false) :
    exec (.bankAccess t lane cycle [r]) s = .next (bankServe t cycle r s) := by
  have hnone : [r].filter (fun x => decide (x ≠ r)) = [] := List.filter_cons_of_neg (by simp)
  have hlane : ∀ x ∈ [r], x.bank.val % 8 = lane.val := fun x hx => List.mem_singleton.1 hx ▸ hl
  rw [execBankAccess_serves hlane (laneServes_singleton hl hb hp), hnone, List.foldl_nil]

/-! ### Patrols and bank power -/

section
variable {t : Fin 16} {s a : State} (hu : s.uncorr = [])
  (ha : addReg (twrBlk t + 0x3028) (1536 - ((getTower s t).power.filter (fun e => decide (e.2 ≠ 0 ∧ e.1 < 1536))).length) s = a)
include hu ha

/-- A patrol of a row that meets no error counts its requests and goes on to the next row (R352). -/
theorem execSramPatrolRow_clean :
    exec (.sramPatrolRow t []) s = .next (modTower t (fun x => { x with patrolRow := ((getTower s t).patrolRow + 1) % 1024 }) a) := by
  have hau : a.uncorr = [] := ha ▸ hu
  show execSramPatrolRow t [] s = _
  simp only [execSramPatrolRow, ha, hau, List.filterMap_nil, List.foldl_nil]

/-- A patrol of a row that meets errors in one granule corrects or reports them (R351). -/
theorem execSramPatrolRow_meets {bank g : Nat} (n : Nat) (line : Option Nat) (hb : bank < 1536) (hg : g < 8) (hon : bankOn a t bank = true) :
    exec (.sramPatrolRow t [(bank, g, n, line)]) s = .next (modTower t (fun x => { x with patrolRow := ((getTower s t).patrolRow + 1) % 1024 })
      (eccRead t bank (getTower s t).patrolRow g n line false a)) := by
  have hau : a.uncorr = [] := ha ▸ hu
  show execSramPatrolRow t [(bank, g, n, line)] s = _
  simp only [execSramPatrolRow, ha, hau, hb, hg, hon, List.filterMap_nil, List.foldl_nil, List.foldl_cons, List.contains_nil, Bool.false_eq_true,
    not_false_eq_true, and_self, if_true]
end

/-- What a tower holds after a change of one tower. -/
theorem getTower_modTower_same (t : Nat) (g : Tower → Tower) (s : State) : getTower (modTower t g s) t = g (getTower s t) :=
  kvGet_kvPut_same _ _ _ _

/-- A bank on its way to ON is ON once it has woken (Table 8.4). -/
theorem execBankWakeDone_wakes {t : Fin 16} {bank : Fin 1536} {s : State} (h : kvGet (fun _ => 0) (getTower s t).target bank = 1) :
    exec (.bankWakeDone t bank) s = .next (modTower t (fun x =>
      { x with target := kvPut (fun _ => 0) x.target bank 0, power := kvPut (fun _ => 0) x.power bank 0 }) s) :=
  congrArg Host.Outcome.next (if_pos h)

/-! ### Marches -/

section
variable {q : Requester} {t : Fin 16} {d : Word} {s : State} (hgo : fld d 31 1 = 1)
include hgo

/-- START in a mode that may run now starts the march of the range that TWR_MARCH_RANGE holds (R372). -/
theorem execMarchStart_starts (hl : (locked s (twrBlk t) && lockBinds q) = false) (hmode : fld d 0 2 ≠ 3) (hm : (getTower s t).march = none)
    (hfree : fld d 0 2 = 2 ∨ marchFree s t = true) :
    exec (.marchStart q t d) s = .next (startMarch t (fld d 0 2) (getF s (twrBlk t + 0x20004) 16 11) (getF s (twrBlk t + 0x20004) 0 12) none s) := by
  have hmay : ¬ (fld d 0 2 ≠ 2 ∧ (!marchFree s t) = true) := by
    rintro ⟨h2, hf⟩
    rw [hfree.resolve_left h2] at hf
    exact Bool.false_ne_true hf
  show execMarchStart q t d s = _
  simp only [execMarchStart, hgo, hl, hmode, hm, hmay, not_true_eq_false, ne_eq, Option.isSome_none, Bool.false_eq_true, or_self, if_false]

/-- START at a locked block is refused (R69). -/
theorem execMarchStart_refused (hl : (locked s (twrBlk t) && lockBinds q) = true) :
    exec (.marchStart q t d) s = .next (setB (twrBlk t + 0xFFC) 1 true s) := by
  show execMarchStart q t d s = _
  simp only [execMarchStart, hgo, hl, not_true_eq_false, ne_eq, if_false, if_true]
end

theorem replaceRows_nil (t : Nat) (s : State) : replaceRows t [] s = (false, s) := rfl

/-- A march that found no failing row ends with its row operations counted and DONE set (R374). -/
theorem execMarchDone_clean {t : Fin 16} {s : State} {m : March} (hm : (getTower s t).march = some m) (hr : m.reply = none) :
    exec (.marchDone t []) s = .next (
      let u := modTower t (fun x => { x with march := none }) (marchLeaves t m (addReg (twrBlk t + 0x3020) (marchOps m) s))
      let v := setReg (twrBlk t + 0x20008) (BitVec.ofNat 32 (2 ^ 30 + m.banks % 2 ^ 11)) u
      setReg (twrBlk t + 0x2000C) 0#32 (setB (twrBlk t) 28 false (setB (twrBlk t) 29 false (setB (twrBlk t + 0x20000) 31 false v)))) := by
  show execMarchDone t [] s = _
  simp only [execMarchDone, hm, hr, List.filter_nil, replaceRows_nil, List.map_nil, List.dedup_nil, List.length_nil, List.head?_nil]
  rfl

/-- Settles O45: each operation by its rule above. -/
theorem hurdlesAndTowersAct : Obligations.HurdlesAndTowersAct := by
  refine ⟨fun _ _ _ => rfl, ?_, ?_, ?_, ?_, ?_, ?_, ?_, ?_, ?_, ?_⟩
  · -- HDL_CTRL with RESET
    intro n d s hn hr hk
    rw [exec_hdlCtrlReset hr, hdlCtrlWrite_local hn, if_pos hr, if_neg (not_not.2 hk)]
    rfl
  · -- HDL_CTRL with ARRIVE
    intro n d s hn hr hk
    rw [exec_hdlCtrlArrive hk, hdlCtrlWrite_local hn, if_neg (by omega), if_pos hk]
    rfl
  · -- HDL_CTRL with both
    intro n d s hr hk hn
    rw [exec_hdlCtrlArrive hk, exec_hdlCtrlReset hr, hdlCtrlWrite_local hn, if_pos hr, if_pos hk]
    exact ⟨rfl, rfl⟩
  · -- requests of a lane
    exact fun t lane cycle reqs s r hl hr => execBankAccess_serves hl hr
  · -- a request alone
    exact fun t lane cycle s r hl hb hp => execBankAccess_alone hl hb hp
  · -- a patrol
    exact fun t s hu => ⟨execSramPatrolRow_clean hu rfl, fun bank g n line hb hg hon => execSramPatrolRow_meets hu rfl n line hb hg hon⟩
  · -- a bank that has woken
    intro t bank s h
    refine ⟨_, execBankWakeDone_wakes h, modTower_keeps _ _ s, ?_⟩
    simp only [getTower_modTower_same, kvGet_kvPut_same, and_self]
  · -- a march starts
    exact fun q t d s hgo hl hmode hm hfree => execMarchStart_starts hgo hl hmode hm hfree
  · -- a march is refused
    exact fun q t d s hgo hl => execMarchStart_refused hgo hl
  · -- a march ends
    exact fun t s m hm hr => execMarchDone_clean hm hr

end Sys2Proof.Machine
end

section
/-!
The counters of a cluster and of a tower (R286, R325, R377, R378, R632, R743): their clear registers.
-/
namespace Sys2Proof.Machine

/-! ### Registers after two changes -/

/-- One register set to a value is the map of `wordsAt` of that word alone. -/
theorem rawReg_setReg_wordsAt (a : Nat) (v : Word) (s : State) (o : Nat) : rawReg (setReg a v s) o = (wordsAt a a v o).getD (rawReg s o) := by
  rw [rawReg_setReg, wordsAt]
  by_cases ho : o = a
  · rw [if_pos ho, if_pos (by omega), Option.getD_some]
  · rw [if_neg ho, if_neg (by omega), Option.getD_none]

/-- A change of registers after another is the map of the later one, and of the earlier one where the later has no value. -/
theorem rawReg_or {f g : Nat → Option Word} {s t u : State} (hf : ∀ o, rawReg t o = (f o).getD (rawReg s o))
    (hg : ∀ o, rawReg u o = (g o).getD (rawReg t o)) (o : Nat) : rawReg u o = ((g o).or (f o)).getD (rawReg s o) := by
  rw [hg, hf]
  cases g o with
  | none => rfl
  | some v => rfl

/-! ### The clears of several parts -/

/-- The protection counters of a tower lie in three ranges (R378). -/
theorem twrProtClear_clears (t : Fin 16) : ClearsOnOne (.twrProtClear t) (fun o => (wordsAt (twrBlk t + 0x2014) (twrBlk t + 0x2018) 0#32 o).or
    ((wordsAt (twrBlk t + 0x2000) (twrBlk t + 0x2008) 0#32 o).or (wordsAt (twrBlk t + 8) (twrBlk t + 8) 0#32 o))) := by
  refine clearsOnOne_of_onOne (fun _ _ => rfl) ?_ ?_
  · exact fun s => (setReg_keeps _ _ s).trans ((clearWords_keeps _ _ _).trans (clearWords_keeps _ _ _))
  · exact fun s => rawReg_or (rawReg_or (rawReg_setReg_wordsAt _ _ s) (rawReg_clearWords_wordsAt (by omega) _)) (rawReg_clearWords_wordsAt (by omega) _)

/-- A change of a cluster leaves the registers. -/
theorem rawReg_modCluster (c : Nat) (g : Cluster → Cluster) (s : State) (o : Nat) : rawReg (modCluster c g s) o = rawReg s o := rfl

/-- A clear of the trace empties the buffers of the cluster and clears its words; the runners hold, and the writers of each granule (R743). -/
theorem cluTrcClear_gives (c : Fin 64) (s : State) : Gives s (exec (.cluTrcClear c 1#32) s) (Part.regs ||| Part.clusters) (fun t =>
    (getCluster t c).traces = [] ∧ t.runners = s.runners ∧ t.written = s.written ∧
    ∀ o, rawReg t o = (wordsAt (cluBlk c + 0x80100) (cluBlk c + 0x80178) 0#32 o).getD (rawReg s o)) := by
  have hclear := clearWords_keeps (cluBlk c + 0x80100) (cluBlk c + 0x80178) s
  refine ⟨_, congrArg Host.Outcome.next (onOne_one _ s), (hclear.mono rfl).trans ((modCluster_keeps _ _ _).mono rfl), ?_, ?_, ?_, ?_⟩
  · rw [getCluster_modCluster_same]
  · rw [modCluster_runners, hclear.sameRunners rfl]
  · rw [modCluster_written, hclear.sameWritten rfl]
  · intro o
    rw [rawReg_modCluster, rawReg_clearWords_wordsAt (by omega)]

/-- Settles O32: each clear register is a range of words, but for the smallest slack of the cluster, the three ranges of a tower's protection, and the trace
buffers. -/
theorem coreCountersClear : Obligations.CoreCountersClear :=
  ⟨fun _ _ => clearsOnOne_clearWords (by omega) fun _ _ => rfl, fun _ _ => clearsOnOne_clearWords (by omega) fun _ _ => rfl,
    fun _ _ => clearsOnOne_clearWords (by omega) fun _ _ => rfl, fun _ => clearsOnOne_clearWords (by omega) fun _ _ => rfl,
    fun _ => clearsOnOne_clearWords (by omega) fun _ _ => rfl, fun _ => clearsOnOne_clearWords_but (by omega) fun _ _ => rfl,
    cluTrcClear_gives, fun _ _ s hd => congrArg Host.Outcome.next (onOne_other hd _ s), twrProtClear_clears,
    fun _ => clearsOnOne_clearWords (by omega) fun _ _ => rfl⟩

end Sys2Proof.Machine
end

section
/-!
The strokes of the M-core (Tables 6.10 to 6.15). A stroke moves its data at its issue (log 42): MLDA, MLDS and MACL read memory, MWB writes it, and a
pass reads its weights (log 43).
-/
namespace Sys2Proof.Machine

theorem mMayIssue_iff {op : Nat} {r : RunnerRef} {w : StrokeWord} {s : State} :
    mMayIssue op r w s = true ↔ mayIssue 0 op r w s = true ∧ mHeld (refNo r) w s = false := by
  simp only [mMayIssue, Bool.and_eq_true, Bool.not_eq_true']

/-- A ready M-core stroke that its core does not hold has its effect (R241, R250, R251). -/
theorem issueAs_mEffect {op : Nat} {r : RunnerRef} {w : StrokeWord} {s : State} {o : StrokeOut} {f : Nat → StrokeWord → State → Option StrokeOut}
    (h : mMayIssue op r w s = true) (he : f (refNo r) w s = some o) : issueAs 0 op r w (mEffect f) s = .next (issued r w o) := by
  obtain ⟨hmay, hfree⟩ := mMayIssue_iff.1 h
  exact issueAs_issued hmay ((if_neg (Bool.eq_false_iff.1 hfree)).trans he)

/-! ### What the strokes leave -/

section
variable {k : Nat} {w : StrokeWord} {s : State}

/-- An MLDA whose source is memory, not a channel, never stalls (R221). -/
theorem mldaEffect_isSome (hmem : sb w 80 = false) : (mldaEffect k w s).isSome := by
  rw [mldaEffect, if_neg (Bool.eq_false_iff.1 hmem)]
  rfl

/-- An MLDS whose source is memory, not a channel, never stalls (R221). -/
theorem mldsEffect_isSome (hmem : sb w 80 = false) : (mldsEffect k w s).isSome := by
  rw [mldsEffect, if_neg (Bool.eq_false_iff.1 hmem)]
  rfl

/-- MACL of zeroes sets the named entries to zero with clear tags. -/
theorem maclEffect_zeroes (hz : sb w 80 = true) : maclEffect k w s = some { s := modM k (fun m =>
      (rowsOf (accArrays w)).foldl (fun m x => m.putAcc x.1 x.2 (accCol w) (List.replicate (accN w) (0#32, false))) m) s } :=
  if_pos hz

/-- MWB of KIND STORE writes its rows and then clears what CLEAR names (R267). -/
theorem mwbEffect_stores (hkind : sf w 80 2 = 0) : mwbEffect k w s = some
    { s := modM k (wbClear w) (wbStore k w s).s, busErr := !(wbStore k w s).ok, blots := (wbStore k w s).blots } := by
  simp only [mwbEffect, hkind, true_or, if_true]
end

/-- Settles O24: each stroke issues by its effect, at once with its data (logs 42 and 43). -/
theorem matrixStrokesIssue : Obligations.MatrixStrokesIssue := by
  refine ⟨?_, ?_, ?_, ?_, ?_, ?_, ?_, ?_, ?_, ?_⟩
  · -- MSETB
    exact fun r w s h => issueAs_issued (f := msetbEffect) h rfl
  · -- MLDA
    exact fun r w s o h he => issueAs_mEffect h he
  · -- MLDS
    exact fun r w s o h he => issueAs_mEffect h he
  · -- loads from memory
    exact fun k w s hmem => ⟨mldaEffect_isSome hmem, mldsEffect_isSome hmem⟩
  · -- MPASS
    exact fun faulty r w s o h he => issueAs_mEffect h he
  · -- a pass never stalls
    exact fun faulty k w s => rfl
  · -- MACL of zeroes
    exact fun r w s h hz => issueAs_mEffect h (maclEffect_zeroes hz)
  · -- MACL
    exact fun r w s o h he => issueAs_mEffect h he
  · -- MWB of KIND STORE
    exact fun r w s h hkind => issueAs_mEffect h (mwbEffect_stores hkind)
  · -- MWB
    exact fun r w s o h he => issueAs_mEffect h he

end Sys2Proof.Machine
end

section
/-!
Lanes of vector registers: what a lane operation writes (R292, R297), and integer lanes, which wrap (R301).
-/
namespace Sys2Proof.Machine

/-- Settles O9: a write of lanes takes the lanes that it is given, holds the others, and names one register. -/
theorem laneOperationsWriteEnabledLanes : Obligations.LaneOperationsWriteEnabledLanes := by
  intro k f srcs g s
  refine ⟨fun i hi hon => ?_, fun i hi hoff => ?_, fun r hr => ?_⟩
  · -- an enabled lane
    rw [laneOp, lane_vWrite _ _ _ _ _ _ _ hi, hon]
    rfl
  · -- a disabled lane
    rw [laneOp, lane_vWrite _ _ _ _ _ _ _ hi, hoff]
    exact Nat.mod_eq_of_lt (lane_lt _ _ _)
  · -- another register
    rw [laneOp, vx_vWrite, if_neg hr]

/-! ### Two's complement: readings and lanes as bit vectors -/

theorem sext_eq_toInt {w : Nat} (hw : 0 < w) (x : Nat) : sext w x = (BitVec.ofNat w x).toInt := by
  have hhalf := Nat.two_pow_pred_mul_two hw
  rw [BitVec.toInt_eq_toNat_cond, BitVec.toNat_ofNat, sext]
  by_cases h : 2 ^ (w - 1) ≤ x % 2 ^ w
  · rw [if_pos h, if_neg (by omega)]
    norm_cast
  · rw [if_neg h, if_pos (by omega)]

/-- The least value of `w` bits. -/
theorem sext_least {w : Nat} (hw : 0 < w) : sext w (2 ^ (w - 1)) = -2 ^ (w - 1) := by
  have hhalf := Nat.two_pow_pred_mul_two hw
  rw [sext, Nat.mod_eq_of_lt (Nat.two_pow_pred_lt_two_pow hw), if_pos le_rfl]
  push_cast
  zify at hhalf
  omega

theorem wrapInt_eq_toNat (w : Nat) (x : Int) : wrapInt w x = (BitVec.ofInt w x).toNat := by
  rw [BitVec.toNat_ofInt, wrapInt]
  norm_cast

/-- A reading wrapped to its width reads the same. -/
theorem sext_wrapInt_sext {w : Nat} (hw : 0 < w) (x : Nat) : sext w (wrapInt w (sext w x)) = sext w x := by
  rw [wrapInt_eq_toNat, sext_eq_toInt hw, sext_eq_toInt hw, BitVec.ofInt_toInt, BitVec.ofNat_toNat, BitVec.setWidth_eq]

/-! ### Lane arithmetic in an integer view -/

/-- Lane arithmetic in an integer view takes the low bits of the integer result. -/
theorem arith_int {ty : Nat} (h : vFloat ty = false) (fl : FV) (x : Int) : arith ty fl x = (BitVec.ofInt (laneBits ty) x).toNat := by
  rw [arith, h, ← wrapInt_eq_toNat]
  rfl

section
variable {ty : Nat} (hint : vFloat ty = false) (hw : 0 < laneBits ty) (a b c : Nat)
include hint hw

theorem vaddLane_wraps : vaddLane ty a b = (a + b) % 2 ^ laneBits ty := by
  rw [vaddLane, arith_int hint, sext_eq_toInt hw, sext_eq_toInt hw, BitVec.ofInt_add, BitVec.ofInt_toInt, BitVec.ofInt_toInt,
    ← BitVec.ofNat_add, BitVec.toNat_ofNat]

theorem vmulLane_wraps : vmulLane ty a b = a * b % 2 ^ laneBits ty := by
  rw [vmulLane, arith_int hint, sext_eq_toInt hw, sext_eq_toInt hw, BitVec.ofInt_mul, BitVec.ofInt_toInt, BitVec.ofInt_toInt,
    ← BitVec.ofNat_mul, BitVec.toNat_ofNat]

theorem vfmaLane_wraps : vfmaLane ty a b c = (a * b + c) % 2 ^ laneBits ty := by
  rw [vfmaLane, arith_int hint, sext_eq_toInt hw, sext_eq_toInt hw, sext_eq_toInt hw, BitVec.ofInt_add, BitVec.ofInt_mul, BitVec.ofInt_toInt,
    BitVec.ofInt_toInt, BitVec.ofInt_toInt, ← BitVec.ofNat_mul, ← BitVec.ofNat_add, BitVec.toNat_ofNat]

theorem vnegLane_wraps (ha : a < 2 ^ laneBits ty) : vnegLane ty a = (2 ^ laneBits ty - a) % 2 ^ laneBits ty := by
  rw [vnegLane, arith_int hint, sext_eq_toInt hw, BitVec.ofInt_neg, BitVec.ofInt_toInt, BitVec.toNat_neg, BitVec.toNat_ofNat, Nat.mod_eq_of_lt ha]

theorem vsubLane_wraps (ha : a < 2 ^ laneBits ty) (hb : b < 2 ^ laneBits ty) :
    vsubLane ty a b = (a + 2 ^ laneBits ty - b) % 2 ^ laneBits ty := by
  rw [vsubLane, arith_int hint, sext_eq_toInt hw, sext_eq_toInt hw, Int.sub_eq_add_neg, BitVec.ofInt_add, BitVec.ofInt_neg, BitVec.ofInt_toInt,
    BitVec.ofInt_toInt, ← BitVec.sub_eq_add_neg, BitVec.toNat_sub, BitVec.toNat_ofNat, BitVec.toNat_ofNat,
    Nat.mod_eq_of_lt ha, Nat.mod_eq_of_lt hb, Nat.add_comm, Nat.add_sub_assoc hb.le]

/-- VMAX compares signed: the greater reading is one of the two, so it is read back. -/
theorem sext_vmaxLane : sext (laneBits ty) (vmaxLane ty a b) = max (sext (laneBits ty) a) (sext (laneBits ty) b) := by
  rw [vmaxLane, arith_int hint, ← wrapInt_eq_toNat]
  rcases max_choice (sext (laneBits ty) a) (sext (laneBits ty) b) with h | h <;> rw [h, sext_wrapInt_sext hw]

/-- VMIN compares signed. -/
theorem sext_vminLane : sext (laneBits ty) (vminLane ty a b) = min (sext (laneBits ty) a) (sext (laneBits ty) b) := by
  rw [vminLane, arith_int hint, ← wrapInt_eq_toNat]
  rcases min_choice (sext (laneBits ty) a) (sext (laneBits ty) b) with h | h <;> rw [h, sext_wrapInt_sext hw]

/-- VABS of the least value returns that value. -/
theorem vabsLane_least : vabsLane ty (2 ^ (laneBits ty - 1)) = 2 ^ (laneBits ty - 1) := by
  rw [vabsLane, arith_int hint, sext_least hw, Int.natAbs_neg, BitVec.ofInt_natCast, BitVec.toNat_ofNat, Int.natAbs_pow]
  exact Nat.mod_eq_of_lt (Nat.two_pow_pred_lt_two_pow hw)
end

/-- Settles O10: INT32 and INT16 by the rule of each operation above. -/
theorem integerLanesWrap : Obligations.IntegerLanesWrap := by
  intro ty a b c hty ha hb _
  have hint : vFloat ty = false := by rcases hty with rfl | rfl <;> decide
  have hw : 0 < laneBits ty := by rcases hty with rfl | rfl <;> decide
  refine ⟨vaddLane_wraps hint hw a b, vsubLane_wraps hint hw a b ha hb, vmulLane_wraps hint hw a b, vfmaLane_wraps hint hw a b c,
    vnegLane_wraps hint hw a ha, vabsLane_least hint hw, ?_, sext_vmaxLane hint hw a b, sext_vminLane hint hw a b⟩
  -- VABS of 1
  rcases hty with rfl | rfl <;> decide

end Sys2Proof.Machine
end

section
/-!
The strokes of the V-core (Table 7.5, chapter 12): a ready stroke that its core does not hold issues with its effect, on the state that the
parity error of its register reads leaves (R324). A stroke reads and writes its registers and memory at its issue (log 42).
-/
namespace Sys2Proof.Machine

theorem vMayIssue_iff {op : Nat} {r : RunnerRef} {w : StrokeWord} {s : State} :
    vMayIssue op r w s = true ↔ mayIssue 1 op r w s = true ∧ vHeld (refNo r) w s = false := by
  simp only [vMayIssue, Bool.and_eq_true, Bool.not_eq_true']

/-! ### How a V-core row issues -/

section
variable {op : Nat} {r : RunnerRef} {w : StrokeWord} {s : State} {o : StrokeOut} {f : Nat → StrokeWord → State → Option StrokeOut}

/-- A ready V-core stroke that nothing holds has its effect on what its register reads leave (R294, R324). -/
theorem issueAs_vEffect {p : Option (Nat × Nat)} (h : vMayIssue op r w s = true) (he : f (refNo r) w (vParity p (refNo r) w s) = some o) :
    issueAs 1 op r w (vEffect p f) s = .next (issued r w o) := by
  obtain ⟨hmay, hfree⟩ := vMayIssue_iff.1 h
  exact issueAs_issued hmay ((if_neg (Bool.eq_false_iff.1 hfree)).trans he)

/-- The same for a stroke that reads no register under parity. -/
theorem issueAs_vPlain (h : vMayIssue op r w s = true) (he : f (refNo r) w s = some o) :
    issueAs 1 op r w (vPlain f) s = .next (issued r w o) := by
  obtain ⟨hmay, hfree⟩ := vMayIssue_iff.1 h
  exact issueAs_issued hmay ((if_neg (Bool.eq_false_iff.1 hfree)).trans he)
end

section
variable {op : Nat} {c : RunnerRef → StrokeWord → Option (Nat × Nat) → Instr} {f : Nat → StrokeWord → State → Option StrokeOut}
  (hc : ∀ r w p s, exec (c r w p) s = issueAs 1 op r w (vEffect p f) s)
include hc

/-- A row whose command issues an effect issues when the effect is possible. -/
theorem vIssuesWhen_of_exec : VIssuesWhen op c f :=
  fun p r w s _ h he => (hc r w p s).trans (issueAs_vEffect h he)

/-- A row whose effect is always possible always issues. -/
theorem vIssuesAs_of_exec {e : Nat → StrokeWord → State → StrokeOut} (he : ∀ k w s, f k w s = some (e k w s)) : VIssuesAs op c e :=
  fun p r w s h => vIssuesWhen_of_exec hc p r w s _ h (he _ _ _)
end

/-! ### Lane strokes (R297, R299 to R301, R304) -/

section
variable (k : Nat) (w : StrokeWord) (s : State)

theorem binEffect_writes (g : Nat → Nat → Nat → Nat) :
    binEffect g k w s = some (laneStroke srcAB (fun s k f i => g f.ty (vA s k f i) (vB s k f i)) k w s) := rfl

theorem unEffect_writes (g : Nat → Nat → Nat) : unEffect g k w s = some (laneStroke srcA (fun s k f i => g f.ty (vA s k f i)) k w s) := rfl

/-- A transcendental stroke applies its function to a, or to a minus b with FUNC[0], in binary32 (R307). -/
theorem vxuEffect_writes (g : Nat → Nat) : vxuEffect g k w s =
    some (laneStroke (fun f => if f.func % 2 = 1 then srcAB f else srcA f) (fun s k f i =>
      let x := enc32 (vVal f.ty (vA s k f i))
      let y := g (if f.func % 2 = 1 then f32sub x (enc32 (vVal f.ty (vB s k f i))) else x)
      if f.ty = 0 then y else fpEnc (vFmt f.ty) .rne false (dec32 y)) k w s) := by
  simp only [vxuEffect, laneStroke, decide_eq_true_eq]
end

/-- Settles O19: each row writes the lanes of its operation. The registers change at issue (log 42). -/
theorem vectorLaneStrokesIssue : Obligations.VectorLaneStrokesIssue := by
  refine ⟨?_, ?_, ?_, ?_, ?_, ?_, ?_, ?_, ?_, ?_, ?_, ?_, ?_⟩
  · -- VADD
    exact vIssuesAs_of_exec (fun _ _ _ _ => rfl) fun k w s => binEffect_writes k w s vaddLane
  · -- VSUB
    exact vIssuesAs_of_exec (fun _ _ _ _ => rfl) fun k w s => binEffect_writes k w s vsubLane
  · -- VMUL
    exact vIssuesAs_of_exec (fun _ _ _ _ => rfl) fun k w s => binEffect_writes k w s vmulLane
  · -- VFMA
    exact vIssuesAs_of_exec (f := vfmaEffect) (fun _ _ _ _ => rfl) fun _ _ _ => rfl
  · -- VMAX
    exact vIssuesAs_of_exec (fun _ _ _ _ => rfl) fun k w s => binEffect_writes k w s vmaxLane
  · -- VMIN
    exact vIssuesAs_of_exec (fun _ _ _ _ => rfl) fun k w s => binEffect_writes k w s vminLane
  · -- VABS
    exact vIssuesAs_of_exec (fun _ _ _ _ => rfl) fun k w s => unEffect_writes k w s vabsLane
  · -- VNEG
    exact vIssuesAs_of_exec (fun _ _ _ _ => rfl) fun k w s => unEffect_writes k w s vnegLane
  · -- VAND
    exact vIssuesAs_of_exec (fun _ _ _ _ => rfl) fun k w s => binEffect_writes k w s fun _ a b => a &&& b
  · -- VOR
    exact vIssuesAs_of_exec (fun _ _ _ _ => rfl) fun k w s => binEffect_writes k w s fun _ a b => a ||| b
  · -- VXOR
    exact vIssuesAs_of_exec (fun _ _ _ _ => rfl) fun k w s => binEffect_writes k w s fun _ a b => a ^^^ b
  · -- VSHIFT
    exact vIssuesAs_of_exec (f := vshiftEffect) (fun _ _ _ _ => rfl) fun _ _ _ => rfl
  · -- VROT
    exact vIssuesAs_of_exec (f := vrotEffect) (fun _ _ _ _ => rfl) fun _ _ _ => rfl

/-- Settles O20: the five rows differ in their function alone. -/
theorem transcendentalStrokesIssue : Obligations.TranscendentalStrokesIssue := by
  simp only [Obligations.TranscendentalStrokesIssue, List.forall_mem_cons]
  refine ⟨?_, ?_, ?_, ?_, ?_, fun _ h => absurd h List.not_mem_nil⟩
  · -- VEXP
    exact vIssuesAs_of_exec (fun _ _ _ _ => rfl) fun k w s => vxuEffect_writes k w s vexp
  · -- VLOG
    exact vIssuesAs_of_exec (fun _ _ _ _ => rfl) fun k w s => vxuEffect_writes k w s vlog
  · -- VRSQ
    exact vIssuesAs_of_exec (fun _ _ _ _ => rfl) fun k w s => vxuEffect_writes k w s vrsq
  · -- VRCP
    exact vIssuesAs_of_exec (fun _ _ _ _ => rfl) fun k w s => vxuEffect_writes k w s vrcp
  · -- VTANH
    exact vIssuesAs_of_exec (fun _ _ _ _ => rfl) fun k w s => vxuEffect_writes k w s vtanh

/-! ### Strokes across lanes (R303, Table 7.5) -/

/-- VRSUM leaves the value of its tree in lane 0: binary32 with −0 for a disabled lane in a float view, 32-bit integers with 0 in another. -/
theorem vrsumEffect_lane_zero (k : Nat) (w : StrokeWord) (s : State) : ∃ o, vrsumEffect k w s = some o ∧
    lane (vx o.s k (vFields w).vd) 32 0 =
      tree (if vFloat (vFields w).ty then f32add else fun x y => (x + y) % 2 ^ 32) ((List.range (laneCount (vFields w).ty)).map (fun i =>
        if vOn s k (vFields w) i then
          (if vFloat (vFields w).ty then enc32 (vVal (vFields w).ty (vA s k (vFields w) i))
           else wrapInt 32 (sext (laneBits (vFields w).ty) (vA s k (vFields w) i)))
        else if vFloat (vFields w).ty then 0x80000000 else 0)) % 2 ^ 32 := by
  refine ⟨_, rfl, (lane_vWrite _ _ _ _ _ _ _ (by decide)).trans ?_⟩
  rw [if_pos (Or.inr rfl), Option.getD_some]

/-- Settles O21: the effects of Table 7.5, and lane 0 of VRSUM. -/
theorem crossLaneStrokesIssue : Obligations.CrossLaneStrokesIssue := by
  refine ⟨?_, ?_, ?_, vrsumEffect_lane_zero, ?_, ?_, ?_⟩
  · -- VRSUM
    exact vIssuesWhen_of_exec fun _ _ _ _ => rfl
  · -- VRMAX
    exact vIssuesWhen_of_exec fun _ _ _ _ => rfl
  · -- VRMIN
    exact vIssuesWhen_of_exec fun _ _ _ _ => rfl
  · -- VBCAST
    exact vIssuesAs_of_exec (f := vbcastEffect) (fun _ _ _ _ => rfl) fun _ _ _ => rfl
  · -- VPERM
    exact vIssuesWhen_of_exec fun _ _ _ _ => rfl
  · -- VSEL
    exact vIssuesAs_of_exec (f := vselEffect) (fun _ _ _ _ => rfl) fun _ _ _ => rfl

/-! ### Setup and random strokes (R309 to R313) -/

/-- VSETK of SRC 0 sets its key to the immediate (R310). -/
theorem vsetkEffect_immediate {k : Nat} {w : StrokeWord} {s : State} (h : sf w 34 2 = 0) :
    vsetkEffect k w s = some { s := setKey k (sf w 32 2) (BitVec.ofNat 64 (sf w 64 64)) s } := by
  simp only [vsetkEffect, h, if_true, OfNat.zero_ne_ofNat, if_false]

/-- VSETK of SRC 1 derives its key from another (R310). -/
theorem vsetkEffect_derives {k : Nat} {w : StrokeWord} {s : State} (h : sf w 34 2 = 1) :
    vsetkEffect k w s = some { s := setKey k (sf w 32 2) (rgen (vKey s k (sf w 36 2)) (BitVec.ofNat 64 (sf w 64 64))) s } := by
  simp only [vsetkEffect, h, one_ne_zero, OfNat.one_ne_ofNat, if_true, if_false]

/-- Settles O22: no effect of these rows stalls. -/
theorem vectorSetupStrokesIssue : Obligations.VectorSetupStrokesIssue := by
  refine ⟨?_, ?_, ?_, ?_, ?_, ?_, ?_, ?_, ?_⟩
  · -- VSETM
    exact fun r w s h => issueAs_vPlain (f := vsetmEffect) h rfl
  · -- VSETB
    exact fun r w s h => issueAs_vPlain (f := vsetbEffect) h rfl
  · -- VSETC
    exact fun r w s h => issueAs_vPlain (f := vsetcEffect) h rfl
  · -- VSETK of an immediate
    exact fun r w s h hsrc => issueAs_vPlain h (vsetkEffect_immediate hsrc)
  · -- VSETK of a derived key
    exact fun r w s h hsrc => issueAs_vPlain h (vsetkEffect_derives hsrc)
  · -- VRGEN
    exact vIssuesAs_of_exec (f := vrgenEffect) (fun _ _ _ _ => rfl) fun _ _ _ => rfl
  · -- VCMP
    exact vIssuesWhen_of_exec fun _ _ _ _ => rfl
  · -- VCVT
    exact vIssuesWhen_of_exec fun _ _ _ _ => rfl
  · -- VCMP and VCVT never stall
    exact fun _ _ _ => ⟨rfl, rfl⟩

/-! ### Memory and optimizer strokes (R305, R306, R519 to R524) -/

section
variable {k : Nat} {w : StrokeWord} {s : State}

/-- VLD from an aligned address reads LEN + 1 granules into its register. -/
theorem vldEffect_loads (hmem : (vMem w).chan = false) (ha : vAddr s k (vMem w) % 64 = 0) :
    vldEffect k w s = some (
      let x := coreRead k (vAddr s k (vMem w)) (64 * ((vMem w).len + 1)) (vAddrTag s k (vMem w)) s
      { s := vLoad k (vMem w) x.data false x.s, busErr := !x.ok }) := by
  simp only [vldEffect, hmem, ha, ne_eq, not_true_eq_false, Bool.false_eq_true, if_false]

/-- VST of AOP 0 to an aligned address writes LEN + 1 granules. -/
theorem vstEffect_stores (hmem : (vMem w).chan = false) (haop : (vMem w).aop = 0) (ha : vAddr s k (vMem w) % 64 = 0) :
    vstEffect k w s = some (
      let x := vstStore k (vMem w) (vAddr s k (vMem w)) s
      { s := x.s, busErr := !x.ok, blots := x.blots }) := by
  simp only [vstEffect, hmem, haop, ha, ne_eq, not_true_eq_false, Bool.false_eq_true, if_false, if_true]

/-- Indices from a register never stall. -/
theorem vIndices_register {m : VMem} (h : m.idxChan = false) :
    vIndices k m s = some ((List.range 64).map (fun i => (lane (vx s k m.vidx) 32 i, vTag s k m.vidx (i / 16))), s) :=
  if_neg (Bool.eq_false_iff.1 h)

/-- A gather and a scatter stall on their index channel alone (R305). -/
theorem vgathEffect_isSome (h : (vMem w).idxChan = false) : (vgathEffect k w s).isSome := by
  simp only [vgathEffect, vIndices_register h, Option.map_some, Option.isSome_some]

theorem vscatEffect_isSome (h : (vMem w).idxChan = false) : (vscatEffect k w s).isSome := by
  simp only [vscatEffect, vIndices_register h, Option.map_some, Option.isSome_some]
end

/-- Settles O23: each stroke moves its data at its issue (log 42). -/
theorem vectorMemoryStrokesIssue : Obligations.VectorMemoryStrokesIssue := by
  refine ⟨?_, ?_, ?_, ?_, ?_, ?_, ?_, ?_, ?_, ?_⟩
  · -- VLD from memory
    exact fun r w p s h hmem ha => issueAs_vEffect h (vldEffect_loads hmem ha)
  · -- VST to memory
    exact fun r w p s h hmem haop ha => issueAs_vEffect h (vstEffect_stores hmem haop ha)
  · -- VLD
    exact vIssuesWhen_of_exec fun _ _ _ _ => rfl
  · -- VST
    exact vIssuesWhen_of_exec fun _ _ _ _ => rfl
  · -- VGATH
    exact vIssuesWhen_of_exec fun _ _ _ _ => rfl
  · -- VSCAT
    exact vIssuesWhen_of_exec fun _ _ _ _ => rfl
  · -- VADAMW
    exact vIssuesWhen_of_exec fun _ _ _ _ => rfl
  · -- VSGDM
    exact vIssuesWhen_of_exec fun _ _ _ _ => rfl
  · -- VGATH and VSCAT with indices from a register
    exact fun k w s h => ⟨vgathEffect_isSome h, vscatEffect_isSome h⟩
  · -- the optimizer strokes never stall
    exact fun _ _ _ _ => rfl

end Sys2Proof.Machine
end

section
/-!
The scalar strokes of Table 7.7 that write SD, memory or a base. They move their data at their issue (log 42); SSETB writes its base when it
completes (R320).
-/
namespace Sys2Proof.Machine

/-- An S-core row whose effect is always possible always issues (R324, R752). -/
theorem sIssuesAs_of_exec {op : Nat} {c : RunnerRef → StrokeWord → Option Nat → Instr} {f : Nat → StrokeWord → State → Option StrokeOut}
    {e : Nat → StrokeWord → State → StrokeOut} (hc : ∀ r w p s, exec (c r w p) s = issueAs 2 op r w (sEffect p f) s)
    (he : ∀ k w s, f k w s = some (e k w s)) : SIssuesAs op c e :=
  fun p r w s h => (hc r w p s).trans (issueAs_sEffect h (he _ _ _))

section
variable {k : Nat} {w : StrokeWord} {s : State}

/-- SLD of FUNC 0 from an aligned address reads 8 bytes into SD. -/
theorem sldEffect_loads (hf : (sFields w).func = 0) (ha : sAddr s k w % 8 = 0) :
    sldEffect k w s = some (
      let x := coreRead k (sAddr s k w) 8 (sxTag s k (sFields w).sa) s
      { s := setSx k (sFields w).sd (BitVec.ofNat 64 (leNat (tBytes x.data))) (tBlot x.data) x.s, busErr := !x.ok }) := by
  simp only [sldEffect, hf, ha, ne_eq, not_true_eq_false, OfNat.zero_ne_ofNat, if_false, if_true]

/-- SST of FUNC 0 to an aligned address writes the 8 bytes of SB. -/
theorem sstEffect_stores (hf : (sFields w).func = 0) (ha : sAddr s k w % 8 = 0) :
    sstEffect k w s = some (
      let x := coreWrite k (sAddr s k w) (leBytes 8 (sx s k (sFields w).sb).toNat) (sxTag s k (sFields w).sb || sxTag s k (sFields w).sa) (.start s)
      { s := x.s, busErr := !x.ok, blots := x.blots }) := by
  simp only [sstEffect, hf, ha, ne_eq, not_true_eq_false, if_false, if_true]
end

/-- Settles O25: each stroke by its effect; SLD and SST reach memory at issue (log 42). -/
theorem scalarStrokesIssue : Obligations.ScalarStrokesIssue := by
  refine ⟨?_, ?_, ?_, ?_, ?_, ?_⟩
  · -- SALU
    exact sIssuesAs_of_exec (f := saluEffect) (fun _ _ _ _ => rfl) fun _ _ _ => rfl
  · -- SLI
    exact fun r w s h => issueAs_sPlain (f := sliEffect) h rfl
  · -- SGET
    exact fun r w s h => issueAs_sPlain (f := sgetEffect) h rfl
  · -- SLD of 8 bytes
    exact fun r w p s h hf ha => issueAs_sEffect h (sldEffect_loads hf ha)
  · -- SST of 8 bytes
    exact fun r w p s h hf ha => issueAs_sEffect h (sstEffect_stores hf ha)
  · -- SSETB
    exact sIssuesAs_of_exec (f := ssetbEffect) (fun _ _ _ _ => rfl) fun _ _ _ => rfl

end Sys2Proof.Machine
end

section
/-!
The banks of a tower's scratch memory (R327).
-/
namespace Sys2Proof.Machine

/-- A byte of a piece lies at its own place in the piece. -/
theorem piece_parts {p q : Nat} (hq : q < 2 ^ 26) : (2 ^ 26 * p + q) / 2 ^ 26 = p ∧ (2 ^ 26 * p + q) % 2 ^ 26 = q :=
  ⟨by omega, by omega⟩

/-- Bank and row of byte q of piece p (R327). -/
theorem bankOf_piece {p q : Nat} (hq : q < 2 ^ 26) : bankOf (2 ^ 26 * p + q) = 128 * p + q / 512 % 128 := by
  obtain ⟨hp, hr⟩ := piece_parts (p := p) hq
  rw [bankOf, hp, hr]

theorem bankRow_piece {p q : Nat} (hq : q < 2 ^ 26) : bankRow (2 ^ 26 * p + q) = q / 512 / 128 := by
  rw [bankRow, (piece_parts hq).2]

/-- The first byte of a granule of bank u of a piece: the piece, then the bank row of 512 bytes, then the granule. -/
theorem bankOffset_piece {p u row g : Nat} (hu : u < 128) : bankOffset (128 * p + u) row g = 2 ^ 26 * p + (row * 128 + u) * 512 + g * 64 := by
  have hpiece : (128 * p + u) / 128 = p := by omega
  have hbank : (128 * p + u) % 128 = u := by omega
  rw [bankOffset, hpiece, hbank]

/-- Settles O13: bank and row by their division of the offset, which the quotients and remainders give back. -/
theorem towerBanksHoldPieces : Obligations.TowerBanksHoldPieces := by
  intro p q hq
  refine ⟨bankOf_piece hq, bankRow_piece hq, ?_⟩
  rw [bankOf_piece hq, bankRow_piece hq, bankOffset_piece (Nat.mod_lt _ (by decide))]
  omega

end Sys2Proof.Machine
end

section
/-!
The home of a line and its towers (Table 8.7, R361, R363 to R368).
-/
namespace Sys2Proof.Machine

/-! ### The arrivals of a cycle -/

theorem flatMap_range_singleton {α : Type} (a : α) (r n : Nat) :
    (List.range n).flatMap (fun i => [a].filter (fun _ => decide (r = i))) = if r < n then [a] else [] := by
  induction n with
  | zero => rfl
  | succ n ih =>
    rw [List.range_succ, List.flatMap_append, ih, List.flatMap_singleton, List.filter_singleton]
    by_cases hlt : r < n
    · simp [hlt, Nat.lt_succ_of_lt hlt, Nat.ne_of_lt hlt]
    · by_cases heq : r = n <;> simp [hlt, heq, Nat.le_iff_lt_or_eq]

theorem arrivalRank_lt (last : Nat) (a : HomeArrival) : arrivalRank last a < 82 := by
  cases a <;> rw [arrivalRank] <;> omega

/-- A home takes a single arrival as it is (R365). -/
theorem homeCycle_singleton (m : Nat) (a : HomeArrival) (s : State) : homeCycle m [a] s = takeArrival m s a := by
  have horder : ∀ last, arrivalOrder last [a] = [a] := fun last =>
    (flatMap_range_singleton a (arrivalRank last a) 82).trans (if_pos (arrivalRank_lt last a))
  rw [homeCycle, horder, List.foldl_cons, List.foldl_nil]

/-! ### What a home holds after a change -/

@[simp] theorem getStack_modStack_same (m : Nat) (g : Stack → Stack) (s : State) : getStack (modStack m g s) m = g (getStack s m) :=
  kvGet_kvPut_same _ _ _ _
theorem getStack_addReg (o n : Nat) (s : State) (m : Nat) : getStack (addReg o n s) m = getStack s m := rfl
theorem getStack_setF (o lo w v : Nat) (s : State) (m : Nat) : getStack (setF o lo w v s) m = getStack s m := rfl

section
variable (m line : Nat) (w : HomeWant) (s : State)

@[simp] theorem getStack_throughHome : getStack (throughHome m line w s) m = { getStack s m with queue := [] } := by
  rw [throughHome, getStack_modStack_same, getStack_modStack_same]
@[simp] theorem queue_throughHome : (getStack (throughHome m line w s) m).queue = [] := by
  rw [getStack_throughHome]
@[simp] theorem dirOf_throughHome (l : Nat) : dirOf (throughHome m line w s) m l = dirOf s m l := by
  rw [dirOf, getStack_throughHome, dirOf]
@[simp] theorem fullSet_throughHome (l : Nat) : fullSet (throughHome m line w s) m l = fullSet s m l := by
  rw [fullSet, getStack_throughHome, fullSet]
@[simp] theorem resetting_throughHome (f : Nat) : resetting (throughHome m line w s) f = resetting s f := rfl
@[simp] theorem resetting_freeDir (f : Nat) : resetting (freeDir m line s) f = resetting s f := rfl
@[simp] theorem resetting_setDir (e : DirEntry) (f : Nat) : resetting (setDir m line e s) f = resetting s f := rfl
@[simp] theorem resetting_touchDir (f : Nat) : resetting (touchDir m line s) f = resetting s f := rfl

@[simp] theorem queue_setDir (e : DirEntry) : (getStack (setDir m line e s) m).queue = (getStack s m).queue := by
  rw [setDir, getStack_modStack_same]
@[simp] theorem queue_touchDir : (getStack (touchDir m line s) m).queue = (getStack s m).queue := by
  rw [touchDir, getStack_modStack_same]
@[simp] theorem queue_grantLine (t st : Nat) (data : Bool) : (getStack (grantLine m t line st data s) m).queue = (getStack s m).queue := by
  rw [grantLine, getStack_setF, getStack_modStack_same]

/-- A request of a tower that is served leaves the queue of its home. -/
theorem queue_serveWant_tower (t : Nat) (excl whole : Bool) (keeps : List Nat) :
    (getStack (serveWant m line (.tower t excl whole) keeps s) m).queue = (getStack s m).queue := by
  simp only [serveWant]
  split
  · rw [queue_grantLine, queue_setDir, queue_touchDir]
  · split <;> rw [queue_grantLine, queue_setDir, queue_touchDir]

/-- A request sent to towers leaves the queue of its home. -/
theorem queue_askTowers {left : List (Nat × Nat)} (keeps : List Nat) (hl : left ≠ []) :
    (getStack (askTowers m line w left keeps s) m).queue = (getStack s m).queue := by
  rw [askTowers, if_neg (fun h => hl (List.isEmpty_iff.1 h)), getStack_addReg, getStack_modStack_same]

theorem queue_askTowers_tower (t : Nat) (excl whole : Bool) (left : List (Nat × Nat)) (keeps : List Nat) :
    (getStack (askTowers m line (.tower t excl whole) left keeps s) m).queue = (getStack s m).queue := by
  by_cases hl : left = []
  · rw [hl, askTowers, if_pos List.isEmpty_nil, queue_serveWant_tower]
  · exact queue_askTowers m line _ s keeps hl
end

/-! ### A request at a home with nothing waiting -/

/-- A home without requests goes on with nothing. -/
theorem serveQueue_nil {n m : Nat} {s : State} (h : (getStack s m).queue = []) : serveQueue n m s = s := by
  cases n with
  | zero => rfl
  | succ n => rw [serveQueue, h, takeReady]

theorem homeFree_iff {s : State} {m line : Nat} :
    homeFree s m line = true ↔ (getStack s m).queue = [] ∧ lineBusy s m line = false ∧ fullSet s m line = [] := by
  simp only [homeFree, Bool.and_eq_true, Bool.not_eq_true', List.isEmpty_iff, and_assoc]

section
variable {m line : Nat} {w : HomeWant} {s : State} (hf : homeFree s m line = true)
include hf

/-- The request is the only one of its queue, and its home begins it at once (R365). -/
theorem homeRequest_begins : homeRequest m line w s = serveQueue 1 m (beginWant m line w (throughHome m line w s)) := by
  obtain ⟨hq, hbusy, hfull⟩ := homeFree_iff.1 hf
  let a := modStack m (fun x => { x with queue := x.queue ++ [(line, w)] }) s
  have ha : (getStack a m).queue = [(line, w)] := by
    rw [getStack_modStack_same, hq, List.nil_append]
  have hmay : mayBegin a m line w = true := by
    have hb : lineBusy a m line = false := by rw [lineBusy, getStack_modStack_same]; exact hbusy
    have hr : fullSet a m line = [] := by rw [fullSet, getStack_modStack_same]; exact hfull
    rw [mayBegin, hb, hr, List.isEmpty_nil, Bool.or_true, Bool.true_or, Bool.not_false, Bool.and_self]
  show homeGoesOn m a = _
  rw [homeGoesOn, ha, List.length_singleton, serveQueue, ha, takeReady, if_pos hmay]
  rfl

/-- After its beginning the home goes on with what then waits. -/
theorem homeRequest_goesOn {t : State} (hb : beginWant m line w (throughHome m line w s) = t) : homeRequest m line w s = serveQueue 1 m t := by
  rw [homeRequest_begins hf, hb]

/-- A request that leaves nothing waiting ends with its beginning. -/
theorem homeRequest_eq {t : State} (hb : beginWant m line w (throughHome m line w s) = t) (ht : (getStack t m).queue = []) :
    homeRequest m line w s = t := by
  rw [homeRequest_goesOn hf hb, serveQueue_nil ht]

/-- A request that is sent to towers ends there. -/
theorem homeRequest_asks {left : List (Nat × Nat)} {keeps : List Nat} (hl : left ≠ [])
    (hb : beginWant m line w (throughHome m line w s) = askTowers m line w left keeps (throughHome m line w s)) :
    homeRequest m line w s = askTowers m line w left keeps (throughHome m line w s) :=
  homeRequest_eq hf hb ((queue_askTowers m line w _ keeps hl).trans (queue_throughHome m line w s))

/-- An Uncached line is served at once, as its directory has room. -/
theorem beginWant_uncached (hd : dirOf s m line = none) :
    beginWant m line w (throughHome m line w s) = serveWant m line w [] (throughHome m line w s) := by
  have hvictim : victimOf (throughHome m line w s) m line = none := by
    rw [victimOf, fullSet_throughHome, (homeFree_iff.1 hf).2.2, List.find?_nil]
  rw [beginWant, dirOf_throughHome, hd, hvictim, ite_self]
end

/-! ### Requests of the towers (Table 8.7) -/

section
variable {m : Fin 8} {t : Fin 16} {line : Nat} {s : State} (hask : mayAsk s m t line = true) (hf : homeFree s m line = true)
include hask

/-- A read miss of a tower that may ask is a request at the home. -/
theorem execGets_requests (hl : lineOf s t line = 0) : exec (.gets m t line []) s = .next (homeRequest m line (.tower t false false) s) := by
  have hmiss : decide (lineOf s t line < if false = true then 2 else 1) = true := by rw [hl]; rfl
  show execGets m t line [] s = _
  rw [execGets, homeCycle_singleton, takeArrival, towerMiss, hask, hmiss, Bool.and_self, if_pos rfl]

/-- A write miss, or a write to a Shared line, is one too. -/
theorem execGetx_requests {whole : Bool} (hl : lineOf s t line < 2) :
    exec (.getx m t line whole []) s = .next (homeRequest m line (.tower t true whole) s) := by
  have hmiss : decide (lineOf s t line < if true = true then 2 else 1) = true := decide_eq_true hl
  show execGetx m t line whole [] s = _
  rw [execGetx, homeCycle_singleton, takeArrival, towerMiss, hask, hmiss, Bool.and_self, if_pos rfl]
end

section
variable {m : Nat} {t line : Nat} {excl whole : Bool} {s : State}

/-- An Uncached line is granted Exclusive to a read, and for the write to a write. -/
theorem serveWant_read_alone : serveWant m line (.tower t false whole) [] s = grantLine m t line 2 true (setDir m line (.owned t) (touchDir m line s)) := rfl
theorem serveWant_write {keeps : List Nat} :
    serveWant m line (.tower t true whole) keeps s = grantLine m t line 3 (!whole) (setDir m line (.owned t) (touchDir m line s)) := rfl

/-- A read of a line that others keep is granted Shared. -/
theorem serveWant_read_shared {keeps : List Nat} (hk : keeps ≠ []) :
    serveWant m line (.tower t false whole) keeps s = grantLine m t line 1 true (setDir m line (.shared (keeps ++ [t])) (touchDir m line s)) := by
  simp only [serveWant, List.isEmpty_iff, hk, Bool.false_eq_true, if_false]

/-- A Shared line: a read joins the other sharers, a write asks them to invalidate. -/
theorem beginWant_shared_read {l : List Nat} (hd : dirOf s m line = some (.shared l)) :
    beginWant m line (.tower t false whole) s = serveWant m line (.tower t false whole) (l.filter (fun u => u ≠ t)) s := by
  rw [beginWant, hd]
  exact if_neg Bool.false_ne_true
theorem beginWant_shared_write {l : List Nat} (hd : dirOf s m line = some (.shared l)) :
    beginWant m line (.tower t true whole) s = askTowers m line (.tower t true whole) ((l.filter (fun u => u ≠ t)).map (fun u => (u, 2))) [] s := by
  rw [beginWant, hd]
  exact if_pos rfl

/-- A line that another tower owns is recalled from it. -/
theorem beginWant_owned {o : Nat} (hd : dirOf s m line = some (.owned o)) (ho : o ≠ t) :
    beginWant m line (.tower t excl whole) s = askTowers m line (.tower t excl whole) [(o, if excl then 1 else 0)] [] s := by
  rw [beginWant, hd]
  exact if_neg ho
end

/-! ### Requests from outside the towers -/

section
variable {m : Fin 8} {fn : Fin 65} {addr line : Nat} {s : State} (hl : homeLine s m fn addr = some line) (hr : resetting s fn = false)
include hl hr

theorem outsideAsk_requests (w : HomeWant) : outsideAsk m fn addr w s = homeRequest m line w s := by
  rw [outsideAsk, hr, if_neg Bool.false_ne_true, hl]

theorem execHomeExternalRead_requests : exec (.homeExternalRead m fn addr []) s = .next (homeRequest m line (.extRead fn addr) s) := by
  show execHomeExternalRead m fn addr [] s = _
  rw [execHomeExternalRead, homeCycle_singleton, takeArrival, outsideAsk_requests hl hr]

theorem execHomeExternalWrite_requests (data : List Byte) (blot : Bool) :
    exec (.homeExternalWrite m fn addr data blot []) s = .next (homeRequest m line (.extWrite fn addr (data.take (64 - addr % 64)) blot) s) := by
  show execHomeExternalWrite m fn addr data blot [] s = _
  rw [execHomeExternalWrite, homeCycle_singleton, takeArrival, outsideAsk_requests hl hr]
end

section
variable {m line fn addr : Nat} {data : List Byte} {blot : Bool} {s : State}

/-- A read that no tower keeps frees the entry, and one that sharers keep holds it. -/
theorem serveWant_extRead_alone (hr : resetting s fn = false) :
    serveWant m line (.extRead fn addr) [] s = outsideRead fn addr (freeDir m line s) := by
  simp only [serveWant, List.isEmpty_nil, resetting_freeDir, hr, Bool.false_eq_true, if_false, if_true]
theorem serveWant_extRead_shared {u : Nat} {l : List Nat} (hr : resetting s fn = false) :
    serveWant m line (.extRead fn addr) (u :: l) s = outsideRead fn addr (setDir m line (.shared (u :: l)) (touchDir m line s)) := by
  simp only [serveWant, List.isEmpty_cons, resetting_setDir, resetting_touchDir, hr, Bool.false_eq_true, if_false]

/-- A write frees the entry and lands. -/
theorem serveWant_extWrite (hr : resetting s fn = false) : serveWant m line (.extWrite fn addr data blot) [] s =
    (writeSpan (hostAcc fn) addr data blot (.start (freeDir m line s))).s := by
  simp only [serveWant, resetting_freeDir, hr, Bool.false_eq_true, if_false]

theorem beginWant_extRead_owned {o : Nat} (hd : dirOf s m line = some (.owned o)) :
    beginWant m line (.extRead fn addr) s = askTowers m line (.extRead fn addr) [(o, 0)] [] s := by
  rw [beginWant, hd]
theorem beginWant_extRead_shared {l : List Nat} (hd : dirOf s m line = some (.shared l)) :
    beginWant m line (.extRead fn addr) s = serveWant m line (.extRead fn addr) l s := by
  rw [beginWant, hd]
theorem beginWant_extWrite_owned {o : Nat} (hd : dirOf s m line = some (.owned o)) :
    beginWant m line (.extWrite fn addr data blot) s = askTowers m line (.extWrite fn addr data blot) [(o, 1)] [] s := by
  rw [beginWant, hd]
theorem beginWant_extWrite_shared {l : List Nat} (hd : dirOf s m line = some (.shared l)) :
    beginWant m line (.extWrite fn addr data blot) s = askTowers m line (.extWrite fn addr data blot) (l.map (fun t => (t, 2))) [] s := by
  rw [beginWant, hd]
end

/-! ### Write-backs, answers and grants -/

section
variable {m : Fin 8} {t : Fin 16} {line : Nat} {s : State}

section
variable (hm : homedAt s m line = true) (hl : lineOf s t line = 3) (hw : writingBack s m t line = false)
include hm hl hw

/-- A write-back that no recall waits for ends the tower's ownership (Table 8.7). -/
theorem execWriteBack_unasked {u : State} (hu : modStack m (fun x => { x with writebacks := x.writebacks ++ [(line, t.val)] }) s = u)
    (hn : (getStack s m).recalls.find? (fun r => r.line = line && (r.left.contains (t.val, 0) || r.left.contains (t.val, 1))) = none) :
    exec (.writeBack m t line []) s = .next (if dirOf u m line = some (.owned t) then homeGoesOn m (freeDir m line u) else u) := by
  show execWriteBack m t line [] s = _
  rw [execWriteBack, homeCycle_singleton, takeArrival]
  simp only [takeBack, hm, hl, hw, hn, hu.symm, getStack_modStack_same, ne_eq, not_true_eq_false, decide_false, Bool.not_true, Bool.or_self,
    Bool.false_eq_true, if_false]

/-- One that a recall of the same tower waits for serves it, and the tower's RECALL_NACK is to come (R368). -/
theorem execWriteBack_asked {r : Recall}
    (hr : (getStack s m).recalls.find? (fun r => r.line = line && (r.left.contains (t.val, 0) || r.left.contains (t.val, 1))) = some r) :
    exec (.writeBack m t line []) s = .next (answer m t line (if r.left.contains (t.val, 0) then 0 else 1) false
      (modStack m (fun x => { x with nacks := x.nacks ++ [(line, t.val)] })
        (freeDir m line (modStack m (fun x => { x with writebacks := x.writebacks ++ [(line, t.val)] }) s)))) := by
  show execWriteBack m t line [] s = _
  rw [execWriteBack, homeCycle_singleton, takeArrival]
  simp only [takeBack, hm, hl, hw, hr, getStack_modStack_same, ne_eq, not_true_eq_false, decide_false, Bool.not_true, Bool.or_self,
    Bool.false_eq_true, if_false]
end

theorem execWbAck_frees (hw : writingBack s m t line = true) : exec (.wbAck m t line) s =
    .next (setLine t line 0 (modStack m (fun x => { x with writebacks := x.writebacks.filter (fun e => e ≠ (line, t.val)) }) s)) := by
  show execWbAck m t line s = _
  rw [execWbAck, hw, Bool.not_true, if_neg Bool.false_ne_true]

theorem execRecallNack_discards (hn : (line, t.val) ∈ (getStack s m).nacks) : exec (.recallNack m t line) s =
    .next (addReg (dirReg m 2) 1 (modStack m (fun x => { x with nacks := x.nacks.erase (line, t.val) }) s)) := by
  show execRecallNack m t line s = _
  rw [execRecallNack, List.contains_iff_mem.2 hn, Bool.not_true, if_neg Bool.false_ne_true]

theorem execRecallS_answers (ha : asked s m t line 0 = true) (hw : writingBack s m t line = false) : exec (.recallS m t line) s =
    .next (answer m t line 0 true (if lineOf s t line = 0 then s else setLine t line 1 s)) := by
  show execRecallS m t line s = _
  rw [execRecallS, ha, hw, Bool.not_true, Bool.or_self, if_neg Bool.false_ne_true]

theorem execRecallInv_answers (ha : asked s m t line 1 = true) (hw : writingBack s m t line = false) :
    exec (.recallInv m t line) s = .next (answer m t line 1 false (setLine t line 0 s)) := by
  show execRecallInv m t line s = _
  rw [execRecallInv, ha, hw, Bool.not_true, Bool.or_self, if_neg Bool.false_ne_true]

theorem execInvLine_answers (ha : asked s m t line 2 = true) : exec (.invLine m t line) s = .next (answer m t line 2 false (setLine t line 0 s)) := by
  show execInvLine m t line s = _
  rw [execInvLine, ha, Bool.not_true, if_neg Bool.false_ne_true]

/-- A grant whose set has a way free is the tower's line at once (R364, R367). -/
theorem execLineGrantArrive_takes {g : Grant} (hg : (getStack s m).grants.find? (fun g => decide (g.line = line ∧ g.tower = t.val)) = some g)
    (hway : (setMates s t line).length < 16) : exec (.lineGrantArrive m t line) s = .next (
      let st := if g.state = 2 && lineWaited t line s then 3 else g.state
      lineComes t line (decide (2 ≤ st)) (setLine t line st (modStack m (fun x => { x with grants := x.grants.filter (fun h => h ≠ g) }) s))) := by
  have hfree : freeWay t line s = some s := if_pos hway
  show execLineGrantArrive m t line s = _
  simp only [execLineGrantArrive, hg, hfree]
end

/-- Settles O46: a request at a free home begins at once, and each other message has its effect by its rule above. -/
theorem coherenceMessagesAct : Obligations.CoherenceMessagesAct := by
  refine ⟨?_, ?_, ?_, ?_, ?_, ?_, ?_, ?_, ?_, ?_, ?_⟩
  · -- GETS
    intro m t line s hask hf hl
    rw [execGets_requests hask hl]
    refine ⟨fun hdir => ?_, fun l u hdir hu hut => ?_, fun o hdir ho => ?_⟩
    · rw [homeRequest_eq hf ((beginWant_uncached hf hdir).trans serveWant_read_alone) (by simp)]
    · have hkeep : l.filter (fun x => x ≠ t.val) ≠ [] := List.ne_nil_of_mem (List.mem_filter.2 ⟨hu, decide_eq_true hut⟩)
      rw [homeRequest_eq hf ((beginWant_shared_read ((dirOf_throughHome ..).trans hdir)).trans (serveWant_read_shared hkeep)) (by simp)]
    · rw [homeRequest_asks hf (List.cons_ne_nil _ _) (beginWant_owned ((dirOf_throughHome ..).trans hdir) ho), if_neg Bool.false_ne_true]
  · -- GETX
    intro m t line whole s hask hf hl
    rw [execGetx_requests hask hl]
    refine ⟨fun hdir => ?_, fun l hdir => ?_, fun o hdir ho => ?_⟩
    · rw [homeRequest_eq hf ((beginWant_uncached hf hdir).trans serveWant_write) (by simp)]
    · rw [homeRequest_eq hf (beginWant_shared_write ((dirOf_throughHome ..).trans hdir)) (by rw [queue_askTowers_tower, queue_throughHome])]
    · rw [homeRequest_asks hf (List.cons_ne_nil _ _) (beginWant_owned ((dirOf_throughHome ..).trans hdir) ho), if_pos rfl]
  · -- WB
    exact fun m t line s hm hl hw => ⟨execWriteBack_unasked hm hl hw rfl, fun r hr => execWriteBack_asked hm hl hw hr⟩
  · -- WB_ACK
    exact fun m t line s hw => execWbAck_frees hw
  · -- RECALL_NACK
    exact fun m t line s hn => execRecallNack_discards hn
  · -- RECALL_S
    exact fun m t line s ha hw => execRecallS_answers ha hw
  · -- RECALL_INV
    exact fun m t line s ha hw => execRecallInv_answers ha hw
  · -- INV
    exact fun m t line s ha => execInvLine_answers ha
  · -- a grant
    exact fun m t line s g hg hway => execLineGrantArrive_takes hg hway
  · -- a read from outside
    intro m fn addr s line hl hf hr
    rw [execHomeExternalRead_requests hl hr]
    refine ⟨fun o hdir => ?_, fun u l hdir => ?_, fun hdir => ?_⟩
    · rw [homeRequest_asks hf (List.cons_ne_nil _ _) (beginWant_extRead_owned ((dirOf_throughHome ..).trans hdir))]
    · rw [homeRequest_goesOn hf ((beginWant_extRead_shared ((dirOf_throughHome ..).trans hdir)).trans
        (serveWant_extRead_shared ((resetting_throughHome ..).trans hr)))]
    · rw [homeRequest_goesOn hf ((beginWant_uncached hf hdir).trans (serveWant_extRead_alone ((resetting_throughHome ..).trans hr)))]
  · -- a write from outside
    intro m fn addr data blot s line hl hf hr
    rw [execHomeExternalWrite_requests hl hr]
    refine ⟨fun o hdir => ?_, fun u l hdir => ?_, fun hdir => ?_⟩
    · rw [homeRequest_asks hf (List.cons_ne_nil _ _) (beginWant_extWrite_owned ((dirOf_throughHome ..).trans hdir))]
    · rw [homeRequest_asks (left := (u :: l).map (fun t => (t, 2))) hf (List.cons_ne_nil _ _) (beginWant_extWrite_shared ((dirOf_throughHome ..).trans hdir))]
    · rw [homeRequest_goesOn hf ((beginWant_uncached hf hdir).trans (serveWant_extWrite ((resetting_throughHome ..).trans hr)))]

end Sys2Proof.Machine
end

section
/-!
Commands on the configuration, power, time, units and firmware (R372, R605, R606, R629, R630, R644 to R647, R653, R654, R683).
-/
namespace Sys2Proof.Machine

/-! ### PARK and UNPARK -/

/-- A command gives, in its frame, what the state that it leaves has. -/
theorem Gives.of_exec {c : Instr} {s t : State} {p : State → Prop} (ht : exec c s = .next t) (hp : p t) : Gives s (exec c s) (frameOf c) p := by
  obtain ⟨u, hu, hk⟩ := exec_keeps c s
  obtain rfl : u = t := Host.Outcome.next.inj (hu.symm.trans ht)
  exact ⟨u, hu, hk, hp⟩

theorem getB_addReg_other {o j : Nat} (n lo : Nat) (s : State) (h : j ≠ o) : getB (addReg o n s) j lo = getB s j lo := by
  rw [getB, getF, rawReg_addReg, if_neg h, getB, getF]

/-- The stall counter of a function's completion queues is no register of the power block. -/
theorem pwrBlk_ne_cqStallCount (f : Fin 65) : pwrBlk ≠ viPage f + 0x1C := by
  unfold viPage pwrBlk scribeBlk
  split <;> omega

/-- Neither a completion nor a sensor's event changes what is parked. -/
@[simp] theorem isParked_fail (h : CmdHdr) (op status : Nat) (s : State) : isParked (fail h op status s) = isParked s := by
  rw [fail, finish]
  split
  · exact getB_addReg_other 1 30 s (pwrBlk_ne_cqStallCount h.fn)
  · rfl

@[simp] theorem isParked_stateEvent (sensor new : Nat) (s : State) : isParked (stateEvent sensor new s) = isParked s := by
  rw [stateEvent, sendEvent]
  split
  · rfl
  · split
    · rfl
    · exact getB_addReg_other 1 30 _ (by decide)

@[simp] theorem isParked_setB (b : Bool) (s : State) : isParked (setB pwrBlk 30 b s) = b := getB_setB_same _ _ _

section
variable {h : CmdHdr} {s : State}

/-- PARK of a device that runs no schedule ends with PARKED set, and UNPARK of a parked one with PARKED clear. -/
theorem execPark_parks (ha : accepted s h 0x72 []) (hs : s.scheds = []) (hp : isParked s = false) :
    ∃ u, exec (.park h) s = .next (fail h 0x72 stOk (stateEvent 2 2 (setB pwrBlk 30 true u))) := by
  show ∃ u, execPark h s = _
  rw [execPark, runOp_accepted _ ha, hs, List.isEmpty_nil, Bool.not_true, if_neg Bool.false_ne_true, hp, if_neg Bool.false_ne_true]
  exact ⟨_, rfl⟩

theorem execUnpark_unparks (ha : accepted s h 0x73 []) (hp : isParked s = true) :
    ∃ u, exec (.unpark h) s = .next (fail h 0x73 stOk (stateEvent 2 0 (setB pwrBlk 30 false u))) := by
  show ∃ u, execUnpark h s = _
  rw [execUnpark, runOp_accepted _ ha, hp, Bool.not_true, if_neg Bool.false_ne_true]
  exact ⟨_, rfl⟩

/-! ### Images, units and time -/

/-- An image that is read, parsed and signed as the life-cycle state asks has its command's effect (R682). -/
theorem withImage_acts {op src len : Nat} {x : CfgImage} (act : CfgImage → State → State)
    (hok : (readT (fwAcc h.fn) src len false s).ok = true) (hx : parseConfig (tBytes (readT (fwAcc h.fn) src len false s).data) = some x)
    (hsig : signatureOk s x = true) :
    withImage h op src len act s = act x (bumpFree (readT (fwAcc h.fn) src len false s).s) := by
  simp only [withImage, hok, hx, hsig, Bool.not_true, Bool.false_eq_true, if_false, if_true]

/-- A unit of Table 15.6 is staged. -/
theorem unitArgs_stages {op target unit a i : Nat} {k : Nat → Nat → StagedKind} (hu : unitOf unit = some (a, i)) :
    unitArgs h op target unit k s = stageChange h target (k a i) s := by
  rw [unitArgs, hu]

/-- TIME_SET moves the calendar's offset, and the event histories of the stacks with it (R644, R662). -/
theorem execTimeSet_sets {utc : Nat} (ha : accepted s h 0x86 [utc]) :
    ∃ t, exec (.timeSet h utc) s = .next (fail h 0x86 stOk t) ∧ Keeps (Part.regs ||| Part.stacks ||| Part.hub) s t ∧
      t.hub.utcOffset = (((utc : Int) - rtcCount s) % 2 ^ 64).toNat ∧ t.hub.calendarStale = false ∧ getB t 0x708 24 = false := by
  show ∃ t, execTimeSet h utc s = _ ∧ _
  rw [execTimeSet, runOp_accepted _ ha]
  refine ⟨_, rfl, ?_, rfl, rfl, getB_setB_same _ _ _⟩
  exact (((Keeps.putStk s _).mono (by decide)).trans ((modHub_keeps _ _).mono (by decide))).trans ((setB_keeps _ _ _ _).mono (by decide))
end

/-- Settles O41: each command's effect, with the checks of its parameters passed. -/
theorem serviceCommandsComplete : Obligations.ServiceCommandsComplete := by
  refine ⟨fun h src len target x => ?_, fun h src len target slot x => ?_, fun h target slot => ?_, fun h target watts => ?_,
    fun h id a b c step => ?_, fun h s ha hs hp => ?_, fun h s ha hp => ?_, fun h target unit a i hu => ⟨?_, ?_⟩, fun h first banks tower mode => ?_,
    fun h port => ?_, fun h src len => ?_, fun h target => ?_, fun h utc s ha => ?_⟩
  · -- CONFIG_BASE_LOAD
    refine .of_runOp (fun _ => rfl) fun s hg => ?_
    obtain ⟨hok, hx, hsig, hkind⟩ := hg
    rw [withImage_acts _ hok hx hsig, if_neg (not_not.2 hkind)]
  · -- OVERLAY_APPLY
    refine .of_runOp (fun _ => rfl) fun s hg => ?_
    obtain ⟨hok, hx, hsig, hkind, hmode⟩ := hg
    rw [withImage_acts _ hok hx hsig, if_neg (not_or.2 ⟨not_not.2 hkind, not_not.2 hmode⟩)]
  · -- OVERLAY_REMOVE
    exact .of_runOp (fun _ => rfl) fun s hslot => if_pos hslot
  · -- POWER_CAP_SET
    exact .of_runOp (fun _ => rfl) fun s hw => if_neg (by omega)
  · -- POWER_PLAN_SET
    refine .of_runOp (fun _ => rfl) fun s hg => ?_
    obtain ⟨hs, hsum, hstep⟩ := hg
    have hplan : ¬ (a + b + c ≠ 1024 ∨ (16 < step ∧ step ≠ 0xFF)) := by omega
    rw [← Option.not_isSome, hs, Bool.not_true, if_neg Bool.false_ne_true, if_neg hplan]
  · -- PARK
    obtain ⟨u, hu⟩ := execPark_parks ha hs hp
    exact .of_exec hu (by simp)
  · -- UNPARK
    obtain ⟨u, hu⟩ := execUnpark_unparks ha hp
    exact .of_exec hu (by simp)
  · -- UNIT_OUT
    exact .of_runOp (fun _ => rfl) fun s _ => unitArgs_stages hu
  · -- UNIT_IN
    exact .of_runOp (fun _ => rfl) fun s _ => unitArgs_stages hu
  · -- MARCH_RUN
    refine .of_runOp (fun _ => rfl) fun s hg => ?_
    obtain ⟨htower, hmode, hbanks, hend, hmarch, hfree⟩ := hg
    have hargs : ¬ (16 ≤ tower ∨ 2 < mode ∨ banks = 0 ∨ 1536 < first + banks) := by omega
    have hidle : ¬ ((getTower s tower).march.isSome = true ∨ (mode ≠ 2 ∧ (!marchFree s tower) = true)) := by
      simpa [hmarch] using fun h2 => hfree.resolve_left h2
    rw [if_neg hargs, if_neg hidle]
  · -- PORT_RETRAIN
    refine .of_runOp (fun _ => rfl) fun s hg => ?_
    obtain ⟨hport, hin, hup, hreply, hspare⟩ := hg
    have hstate : ¬ (portOut s port = true ∨ portState s port = 0 ∨ (getPort s port).reply.isSome = true) := by
      simpa [hin, hreply] using hup
    rw [if_neg (Nat.not_le.2 hport), if_neg hstate, hspare, Bool.not_true, if_neg Bool.false_ne_true]
  · -- FW_STAGE
    refine .of_runOp (fun _ => rfl) fun s hok => ?_
    simp only [hok, Bool.not_true, Bool.false_eq_true, if_false]
  · -- FW_SWITCH
    refine .of_runOp (fun _ => rfl) fun s hg => ?_
    obtain ⟨hstaged, hfree⟩ := hg
    rw [hstaged, Bool.not_true, if_neg Bool.false_ne_true, hfree, if_neg Bool.false_ne_true]
  · -- TIME_SET
    exact execTimeSet_sets ha

end Sys2Proof.Machine
end

section
/-!
Events of stacks, of far memory and of the expansion ports (R380, R382, R393, R405, R408 to R410, R414, R418 to R422, R672).
-/
namespace Sys2Proof.Machine

/-! ### Patrol and refresh -/

section
variable {m : Fin 8} {t : Nat} {s a : State} (ha : { s with now := max s.now t } = a) (hdue : (getStack a m).scrubDue ≤ a.now)
include ha hdue

/-- A pass that comes due while one is in progress is late, and starts when that one ends (R405). -/
theorem execStackPatrolPass_late (hrun : getB a (mscBlk m) 28 = true) : exec (.stackPatrolPass m t) s =
    .next (addReg (mscBlk m + 0x2010) 1 (modStack m (fun x => { x with scrubAgain := true, scrubDue := a.now + scrubInterval a m }) a)) := by
  subst ha
  exact congrArg Host.Outcome.next ((if_neg (Nat.not_lt.2 hdue)).trans (if_pos hrun))

/-- A pass that comes due starts at the first page (R405). -/
theorem execStackPatrolPass_starts (hidle : getB a (mscBlk m) 28 = false) : exec (.stackPatrolPass m t) s =
    .next (setB (mscBlk m) 28 true (modStack m (fun x => { x with scrubPos := 0, scrubWrites := [], scrubDue := a.now + scrubInterval a m }) a)) := by
  subst ha
  exact congrArg Host.Outcome.next ((if_neg (Nat.not_lt.2 hdue)).trans (if_neg (Bool.eq_false_iff.1 hidle)))
end

section
variable {m : Fin 8} {ch : Fin 32} {bank : Fin 16} {t : Nat} {s : State}

/-- A refresh holds its bank at once (R414). -/
theorem execRefresh_begins (hn : inNmuMode { s with now := max s.now t } m ch bank = false) :
    exec (.refresh m ch bank t) s = .next (startRefresh m ch bank { s with now := max s.now t }) := by
  show execRefresh m ch bank t s = _
  rw [execRefresh, hn, if_neg Bool.false_ne_true]

/-- In NMU mode it waits for the bank, noted by time 0 (R414). -/
theorem execRefresh_waits (hn : inNmuMode { s with now := max s.now t } m ch bank = true) : exec (.refresh m ch bank t) s =
    .next (modStack m (fun x => { x with refreshing := kvInsert x.refreshing (ch.val * 16 + bank) 0 }) { s with now := max s.now t }) := by
  show execRefresh m ch bank t s = _
  rw [execRefresh, hn, if_pos rfl]
end

/-! ### Page requests through their queues and the arbiter -/

section
variable {m ch : Nat}

/-- Whether a request that is not the scrubber's stands does not depend on the state. -/
theorem requestStands_of_ordinary {r : PageReq} (hw : r.op ≠ .scrubWrite) (hr : r.op ≠ .scrub) (s t : State) :
    requestStands s m ch r = requestStands t m ch r := by
  unfold requestStands
  cases hop : r.op with
  | read => rfl
  | write l => rfl
  | scrub => exact absurd hop hr
  | scrubWrite => exact absurd hop hw

@[simp] theorem resetting_queuePage (r : PageReq) (s : State) (f : Nat) : resetting (queuePage m ch r s) f = resetting s f := rfl

/-- A request that stands, of a function that is not in reset, enters its queue. -/
theorem arrival_enters {r : PageReq} {s : State} (hs : requestStands s m ch r = true) (hr : r.source.val < 65 → resetting s r.source = false) :
    (if requestStands s m ch r && !(decide (r.source.val < 65) && resetting s r.source) then queuePage m ch r s else s) = queuePage m ch r s := by
  have hfree : (decide (r.source.val < 65) && resetting s r.source) = false := by
    by_cases h : r.source.val < 65
    · rw [hr h, Bool.and_false]
    · rw [decide_eq_false h, Bool.false_and]
  rw [hs, hfree, Bool.not_false, Bool.and_self, if_pos rfl]

/-- Ordinary requests that stand all enter their queues, in their order (R408): none that enters turns a later one away. -/
theorem foldl_arrivals_enter : ∀ {l : List PageReq} {s : State},
    (∀ r ∈ l, requestStands s m ch r = true ∧ r.op ≠ .scrubWrite ∧ r.op ≠ .scrub ∧ (r.source.val < 65 → resetting s r.source = false)) →
    l.foldl (fun s r => if requestStands s m ch r && !(decide (r.source.val < 65) && resetting s r.source) then queuePage m ch r s else s) s =
      l.foldl (fun s r => queuePage m ch r s) s
  | [], _, _ => rfl
  | r :: l, s, h => by
    obtain ⟨hs, -, -, hr⟩ := h r List.mem_cons_self
    rw [List.foldl_cons, List.foldl_cons, arrival_enters hs hr]
    refine foldl_arrivals_enter fun x hx => ?_
    obtain ⟨hsx, hw, hread, hrx⟩ := h x (List.mem_cons_of_mem r hx)
    exact ⟨(requestStands_of_ordinary hw hread _ s).trans hsx, hw, hread, hrx⟩
end

section
variable {m : Fin 8} {ch : Fin 32} {new : List PageReq} {s a q : State} {t : Nat} (ha : { s with now := max s.now t } = a)
  (hnew : ∀ r ∈ new, requestStands a m ch r = true ∧ r.op ≠ .scrubWrite ∧ r.op ≠ .scrub ∧ (r.source.val < 65 → resetting a r.source = false))
  (hq : new.foldl (fun s r => queuePage m ch r s) a = q) (errs : List (Nat × Nat)) (cycles : Nat)
include ha hnew hq

/-- A read of a buffered page is served without the channel (R380, R382). -/
theorem execPageAccess_hit {r : PageReq} (hb : bufferHit q m ch = some r) :
    exec (.pageAccess m ch new errs cycles t) s = .next (servePage m ch r errs (unqueue m ch r q)) := by
  show execPageAccess m ch new errs cycles t s = _
  simp only [execPageAccess, ha, foldl_arrivals_enter hnew, hq, hb]

/-- Otherwise the channel's arbiter grants a request. -/
theorem execPageAccess_miss (hb : bufferHit q m ch = none) :
    exec (.pageAccess m ch new errs cycles t) s = .next (grantNext m ch errs cycles q) := by
  show execPageAccess m ch new errs cycles t s = _
  simp only [execPageAccess, ha, foldl_arrivals_enter hnew, hq, hb]
end

/-- The request that the arbiter chooses moves its page; the others that compete count their wait (R408 to R410). -/
theorem grantNext_grants {m ch cycles : Nat} {errs : List (Nat × Nat)} {q : State} {r : PageReq} {kept : Bool}
    (hr : arbitrate q m ch (competing q m ch) = some (r, kept)) : grantNext m ch errs cycles q =
      let lpi := pageMeant q m ch r
      let b := ((competing q m ch).filter (fun x => x.source ≠ r.source)).foldl (fun s x => addReg (mscBlk m + 0x10004 + 8 * x.source) cycles s) q
      scrubMove m ch r (servePage m ch r errs (unqueue m ch r (grantChannel m ch r kept (accessRows b m lpi (buffered b m ch lpi) r) b))) := by
  simp only [grantNext, hr]

/-! ### Conversion of a region -/

/-- Stacks without uncorrectable pages in a region leave nothing to blot (R394). -/
theorem foldl_noBadPages {r : Nat} {s : State} (f : Nat → State → Nat × Bool → State) :
    ∀ {l : List Nat}, (∀ m ∈ l, (getStack s m).bad.filter (fun e => regionHas r m e.1) = []) →
      l.foldl (fun s m => ((getStack s m).bad.filter (fun e => regionHas r m e.1)).foldl (f m) s) s = s
  | [], _ => rfl
  | m :: l, h => by
    rw [List.foldl_cons, h m List.mem_cons_self, List.foldl_nil]
    exact foldl_noBadPages f fun x hx => h x (List.mem_cons_of_mem m hx)

/-- The lowest waiting region, sound and Extended neither before nor after, takes its strength with the next GEN (R393), in one step (log 45). -/
theorem execRegionConvert_sound {s : State} {x : Nat × Nat × Nat} {rest : List (Nat × Nat × Nat)} (hx : s.hub.convert = x :: rest)
    (hbad : ∀ m < 8, (getStack s m).bad.filter (fun e => regionHas x.1 m e.1) = []) (hold : (getRegion s x.1).strength ≠ 3) (hstr : x.2.1 ≠ 3) :
    exec (.regionConvert []) s = .next (showConvert (modHub (fun h => { h with convert := rest })
      (putRegion x.1 { strength := x.2.1, gen := ((getRegion s x.1).gen + 1) % 16 } s))) := by
  have hall : ∀ m ∈ List.range 8, (getStack s m).bad.filter (fun e => regionHas x.1 m e.1) = [] := fun m hm => hbad m (List.mem_range.1 hm)
  show execRegionConvert [] s = _
  simp only [execRegionConvert, hx, List.map_nil, convertOrder, List.foldl_nil, List.filter_nil, hold, hstr, if_false, foldl_noBadPages _ hall]

/-! ### Far accesses -/

section
variable {fn : Fin 65} {addr p : Nat} {s : State} (hr : resetting s fn = false) (hp : farPort s fn addr = some p) (by_ : Option (Fin 64)) (poison : Bool)
include hr hp

/-- What keeps a far access from being one does not hold. -/
theorem farAccess_open : (resetting s fn || (farPort s fn addr).isNone) = false := by rw [hr, hp]; rfl

section
variable {d : Nat} (hd : reach s (hostAcc fn) false (addr / 64 * 64) allBytes = some d)
include hd

/-- A granule that is read comes with its blot, and with poison is blotted first (R420). -/
theorem execFarAccess_read : exec (.farAccess fn by_ addr none poison false) s = .next (
    let r := readT (hostAcc fn) (addr / 64 * 64) 64 false (if poison then poisonGran d s else s)
    bumpFree (emit (.streamData fn (tBytes r.data) (tBlot r.data)) r.s)) := by
  show execFarAccess fn by_ addr none poison false s = _
  simp only [execFarAccess, farAccess_open hr hp, hd, Bool.false_eq_true, if_false]

/-- A read that the link or the expander fails (R420). -/
theorem execFarAccess_readFails : exec (.farAccess fn by_ addr none poison true) s = .next (farFail fn addr by_ true s) := by
  show execFarAccess fn by_ addr none poison true s = _
  simp only [execFarAccess, farAccess_open hr hp, hd, Bool.false_eq_true, if_false, if_true]
end

/-- A read that its function may not make, or of memory that is not backed, is a bus error. -/
theorem execFarAccess_busError (fail : Bool) (hd : reach s (hostAcc fn) false (addr / 64 * 64) allBytes = none) :
    exec (.farAccess fn by_ addr none poison fail) s = .next (farError fn addr by_ true s) := by
  show execFarAccess fn by_ addr none poison fail s = _
  simp only [execFarAccess, farAccess_open hr hp, hd, Bool.false_eq_true, if_false]

section
variable {l : List (BitVec 8)} {d : Nat}
  (hd : reach s (hostAcc fn) true (addr / 64 * 64) (spanBytes addr (l.take (64 - addr % 64)).length (addr / 64 * 64)) = some d) (blot : Bool)
include hd

/-- A write lands in its granule with its blot bit (R419). -/
theorem execFarAccess_write : exec (.farAccess fn by_ addr (some (l, blot)) poison false) s =
    .next ((writeSpan (hostAcc fn) addr (l.take (64 - addr % 64)) blot (.start s)).s) := by
  show execFarAccess fn by_ addr (some (l, blot)) poison false s = _
  simp only [execFarAccess, farAccess_open hr hp, hd, Bool.false_eq_true, if_false]

/-- A write that the link or the expander fails (R420). -/
theorem execFarAccess_writeFails : exec (.farAccess fn by_ addr (some (l, blot)) poison true) s = .next (farFail fn addr by_ false s) := by
  show execFarAccess fn by_ addr (some (l, blot)) poison true s = _
  simp only [execFarAccess, farAccess_open hr hp, hd, Bool.false_eq_true, if_false, if_true]
end
end

/-! ### The expansion ports -/

/-- A port in service goes down (R422): its clocks stop (log 27), and the expanders that lose power lose their contents. -/
theorem execCxlDown_down {p : Fin 2} {s : State} (lost : List Nat) (hup : getB s (cxlBlk p) 31 = true) :
    exec (.cxlDown p lost) s = .next (lost.foldl (fun s e => if e < 2 then expanderLost p e s else s)
      (report 0x20B (oCxl p 0) fnDevice 0 (driveRefclk p false (setF (cxlBlk p) 28 2 0 (setB (cxlBlk p) 31 false s))))) := by
  show execCxlDown p lost s = _
  rw [execCxlDown, cxlDown, hup, Bool.not_true, if_neg Bool.false_ne_true]

/-- An event record of an expander that is present passes to the blotter (R418). -/
theorem execCxlEvent_reports {p e : Fin 2} {s : State} (kind : Nat) (he : getB s (cxlBlk p) (21 + e) = true) :
    exec (.cxlEvent p e kind) s = .next (report 0x20C (oCxl p e) fnDevice kind s) := by
  show execCxlEvent p e kind s = _
  rw [execCxlEvent, he, if_pos rfl]

/-- The clocks of a port follow the drive, each of its two pairs. -/
theorem cxlClk_driveRefclk (p : Nat) (on : Bool) (s : State) :
    kvGet (fun _ => false) (driveRefclk p on s).pins.cxlClk (2 * p) = on ∧ kvGet (fun _ => false) (driveRefclk p on s).pins.cxlClk (2 * p + 1) = on := by
  simp only [driveRefclk, List.foldl_cons, List.foldl_nil]
  exact ⟨by rw [kvGet_kvPut_other _ _ _ (by omega), kvGet_kvPut_same], kvGet_kvPut_same _ _ _ _⟩

section
variable (p : Nat) (on : Bool) (s : State) (o lo : Nat)

theorem regs_driveRefclk : (driveRefclk p on s).regs = s.regs := rfl
@[simp] theorem rawReg_driveRefclk : rawReg (driveRefclk p on s) o = rawReg s o := by rw [rawReg, regs_driveRefclk, rawReg]
@[simp] theorem getF_driveRefclk (w : Nat) : getF (driveRefclk p on s) o lo w = getF s o lo w := by rw [getF, rawReg_driveRefclk, getF]
@[simp] theorem getB_driveRefclk : getB (driveRefclk p on s) o lo = getB s o lo := by rw [getB, getF_driveRefclk, getB]
end

/-- A link mode fits its fields. -/
theorem linkMode_lt {flit : Bool} {speed width : Nat} (h : linkMode flit speed width = true) : speed < 2 ^ 2 ∧ width < 2 ^ 5 := by
  obtain ⟨hs, hw⟩ := Bool.and_eq_true_iff.1 h
  have hw := of_decide_eq_true hw
  refine ⟨?_, by omega⟩
  cases flit with
  | true => have hs : speed = 3 := of_decide_eq_true hs; omega
  | false => have hs : speed = 1 ∨ speed = 2 := of_decide_eq_true hs; omega

/-- The status of a port whose link has trained: in service, with the mode of its link (Table 9.8). -/
def cxlTrained (b : Nat) (flit : Bool) (speed width : Nat) (s : State) : State :=
  setB b 31 true (setB b 30 flit (setF b 28 2 speed (setF b 23 5 width s)))

section
variable (b : Nat) (flit : Bool) (s : State)

theorem getB_cxlTrained (speed width : Nat) :
    getB (cxlTrained b flit speed width s) b 31 = true ∧ getB (cxlTrained b flit speed width s) b 30 = flit := by
  refine ⟨getB_setB_same _ _ _, ?_⟩
  rw [cxlTrained, getB_setB_other _ _ _ _ (by decide) (.inr (by decide)), getB_setB_same]

theorem getF_cxlTrained {speed width : Nat} (hs : speed < 2 ^ 2) (hw : width < 2 ^ 5) :
    getF (cxlTrained b flit speed width s) b 28 2 = speed ∧ getF (cxlTrained b flit speed width s) b 23 5 = width := by
  constructor
  · rw [cxlTrained, setB, setB, getF_setF_other _ _ _ _ (by decide) (.inr (by decide)), getF_setF_other _ _ _ _ (by decide) (.inr (by decide)),
      getF_setF_same _ _ _ (by decide), Nat.mod_eq_of_lt hs]
  · rw [cxlTrained, setB, setB, getF_setF_other _ _ _ _ (by decide) (.inr (by decide)), getF_setF_other _ _ _ _ (by decide) (.inr (by decide)),
      getF_setF_other _ _ _ _ (by decide) (.inr (by decide)), getF_setF_same _ _ _ (by decide), Nat.mod_eq_of_lt hw]

theorem rawReg_cxlTrained_other (speed width : Nat) {o : Nat} (ho : o ≠ b) : rawReg (cxlTrained b flit speed width s) o = rawReg s o := by
  simp only [cxlTrained, rawReg_setB, rawReg_setF, ho, if_false]
end

/-- A port that is not out of service comes back with a mode of Table 9.8 (R422), and its clocks run (log 27). -/
theorem execCxlLinkTrained_trained {p : Fin 2} {flit : Bool} {speed width : Nat} {s : State} (hout : cxlOut s p = false)
    (hmode : linkMode flit speed width = true) :
    exec (.cxlLinkTrained p flit speed width) s = .next (driveRefclk p true (cxlTrained (cxlBlk p) flit speed width s)) := by
  show execCxlLinkTrained p flit speed width s = _
  rw [execCxlLinkTrained, hout, hmode, Bool.not_true, Bool.or_self, if_neg Bool.false_ne_true, cxlTrained]

/-- A far piece that is backed and not ready is zeros, and ready from then on (R672). -/
theorem execFarScrubDone_readies {p : Fin 2} {piece : Nat} {s : State} (hn : piece < 0x8000) (hb : farBacked s p (2 ^ 26 * piece) = true)
    (hr : kvGet (fun _ => false) s.farReady (0x8000 * p + piece) = false) : exec (.farScrubDone p piece) s = .next (
      let z := zeroRange (farBase p + 2 ^ 26 * piece) (2 ^ 26) s
      { z with farReady := kvPut (fun _ => false) z.farReady (0x8000 * p + piece) true }) := by
  show execFarScrubDone p piece s = _
  rw [execFarScrubDone, if_pos ⟨hn, hb, hr⟩]

/-- Settles O47: each event by its rule above. A port's clocks follow its service (log 27), and a region converts in one step (log 45). -/
theorem stackAndFarEventsAct : Obligations.StackAndFarEventsAct := by
  refine ⟨?_, ?_, ?_, ?_, ?_, ?_, ?_, ?_, ?_, ?_, ?_, ?_, ?_⟩
  · -- a patrol pass
    intro m t s a due hdue
    exact ⟨fun hrun => execStackPatrolPass_late rfl hdue hrun, fun hidle => execStackPatrolPass_starts rfl hdue hidle⟩
  · -- a refresh
    exact fun m ch bank t s hn => execRefresh_begins hn
  · -- a refresh that waits
    exact fun m ch bank t s hn => execRefresh_waits hn
  · -- page requests
    intro m ch new errs cycles t s a hnew q
    refine ⟨fun r hb => execPageAccess_hit rfl hnew rfl errs cycles hb, fun r kept hb hr => ?_⟩
    rw [execPageAccess_miss rfl hnew rfl errs cycles hb, grantNext_grants hr]
  · -- a conversion
    exact fun s x rest hx hbad hold hstr => execRegionConvert_sound hx hbad hold hstr
  · -- a far read
    exact fun fn by_ addr poison s p d hr hp hd => ⟨execFarAccess_read hr hp by_ poison hd, execFarAccess_readFails hr hp by_ poison hd⟩
  · -- a far write
    exact fun fn by_ addr l blot poison s p d hr hp hd =>
      ⟨execFarAccess_write hr hp by_ poison hd blot, execFarAccess_writeFails hr hp by_ poison hd blot⟩
  · -- a far read that is a bus error
    exact fun fn by_ addr poison fail s p hr hp hd => execFarAccess_busError hr hp by_ poison fail hd
  · -- a timeout is a failure of the link or the expander
    exact fun fn by_ addr s => rfl
  · -- a port goes down
    exact fun p lost s hup => execCxlDown_down lost hup
  · -- an event record
    exact fun p e kind s he => execCxlEvent_reports kind he
  · -- a port comes back
    intro p flit speed width s hout hmode
    obtain ⟨hs, hw⟩ := linkMode_lt hmode
    obtain ⟨hup, hflit⟩ := getB_cxlTrained (cxlBlk p) flit s speed width
    obtain ⟨hspeed, hwidth⟩ := getF_cxlTrained (cxlBlk p) flit s hs hw
    refine .of_exec (execCxlLinkTrained_trained hout hmode) ?_
    simp only [getB_driveRefclk, getF_driveRefclk, rawReg_driveRefclk]
    exact ⟨hup, hflit, hspeed, hwidth, fun o hne => rawReg_cxlTrained_other _ flit s speed width hne, cxlClk_driveRefclk p true _⟩
  · -- a scrubbed far piece
    intro p piece s hn hb hr
    refine ⟨_, execFarScrubDone_readies hn hb hr, ?_, rfl⟩
    simp only [kvGet_kvPut_same]

end Sys2Proof.Machine
end

section
/-!
The words of a near-memory unit's program (Tables 10.5 and 10.6): a word that the unit may run has its effect on the run and the state that the
errors and the cycles of the word leave (R435, R438, R458 to R460).
-/
namespace Sys2Proof.Machine

/-! ### How a row runs -/

theorem nmuReady_iff {opc st u : Nat} {w : DWord} {r : NRun} {s : State} : nmuReady opc st u w r s = true ↔
    (getNmu s st u).run = some r ∧ r.ending = false ∧ wordAt s st r = some w ∧ nOpc w = opc ∧
      ¬ (stackLevel s (4 + st) = 4 ∧ computeWord opc = true) ∧ (usesLatch w && decide ((r.latch (nLsel w)).busy ≠ 0)) = false := by
  simp only [nmuReady, Bool.and_eq_true, decide_eq_true_eq, Bool.not_eq_true', Bool.eq_false_iff, ne_eq, and_assoc]

section
variable {opc st u : Nat} {x : NmuErr} {w : DWord} {r : NRun} {s : State} {act : DWord → NRun → State → State}
  (h : nmuReady opc st u w r s = true)
include h

/-- A word that may run, with at most one wrong bit, has its effect (R435, R460). -/
theorem runWord_acts (hx : x.store < 2) :
    runWord opc st u x act s = .next (act w (wordRun opc st u w x r s) (wordState opc st u w x s)) := by
  obtain ⟨hrun, hend, hword, hopc, hfast, hlatch⟩ := nmuReady_iff.1 h
  simp only [runWord, hrun, hend, hword, hopc, hfast, hlatch, Nat.not_le.2 hx, ne_eq, not_true_eq_false, Bool.false_eq_true, if_false,
    wordRun, wordState]

/-- A word that the program store gives with two wrong bits ends the launch in a FAULT (R460). -/
theorem runWord_faults (hx : 2 ≤ x.store) : runWord opc st u x act s = .next (storeFault st u r s) := by
  obtain ⟨hrun, hend, hword, hopc, -, -⟩ := nmuReady_iff.1 h
  simp only [runWord, hrun, hend, hword, hopc, hx, ne_eq, not_true_eq_false, Bool.false_eq_true, if_false, if_true]
end

section
variable {opc : Nat} {c : Fin 4 → Fin 256 → NmuErr → Instr} {act e : Nat → Nat → DWord → NRun → State → State} {eff : NEffect}

/-- A row runs with an effect that its command has everywhere. -/
theorem runsWith_of_exec (hc : ∀ st u x s, exec (c st u x) s = runWord opc st u x (act st u) s)
    (he : ∀ st u w r s, act st u w r s = e st u w r s) : RunsWith opc c e :=
  fun st u x _ _ s h => ⟨fun hx => ((hc st u x s).trans (runWord_acts h hx)).trans (congrArg Host.Outcome.next (he ..)),
    fun hx => (hc st u x s).trans (runWord_faults h hx)⟩

/-- A row runs under a condition with an effect that its command has there. -/
theorem runsWhere_of_exec {g : Nat → Nat → DWord → NRun → State → Prop} (hc : ∀ st u x s, exec (c st u x) s = runWord opc st u x (act st u) s)
    (he : ∀ st u w r s, nOpc w = opc → g st u w r s → act st u w r s = e st u w r s) : RunsWhere opc g c e := by
  intro st u x w r s h hx hg
  obtain ⟨-, -, -, hopc, -, -⟩ := nmuReady_iff.1 h
  rw [hc, runWord_acts h hx, he _ _ _ _ _ hopc hg]

/-- A row whose command goes on with an effect runs as that effect. -/
theorem runsAs_of_exec (hc : ∀ st u x s, exec (c st u x) s = plainWord opc eff st u x s) : RunsAs opc c eff :=
  runsWith_of_exec (act := fun st u w r s => goOn st u (eff st u w r s)) hc fun _ _ _ _ _ => rfl

/-- The same under a condition, where the command's effect has a simpler form. -/
theorem runsWhere_of_plain {g : Nat → Nat → DWord → NRun → State → Prop} {f : NEffect} (hc : ∀ st u x s, exec (c st u x) s = plainWord opc eff st u x s)
    (he : ∀ st u w r s, nOpc w = opc → g st u w r s → eff st u w r s = f st u w r s) :
    RunsWhere opc g c (fun st u w r s => goOn st u (f st u w r s)) :=
  runsWhere_of_exec (act := fun st u w r s => goOn st u (eff st u w r s)) hc fun st u w r s hopc hg =>
    congrArg (goOn st u) (he st u w r s hopc hg)
end

/-! ### Control and scalar words -/

section
variable {st u : Nat} {w : DWord} {r : NRun} {s : State}

/-- A YIELD of a unit without a bank in NMU mode only goes on and is counted (R443). -/
theorem yieldWord_noBank (even odd : Bool) (hend : r.ended = false) (heven : r.even = false) (hodd : r.odd = false) :
    yieldWord st u even odd r s = modNmu st u (fun x => { x with run := some (r.advance r.pc) }) (addReg (nmuArea st u + 0x14) 1 s) := by
  simp only [yieldWord, hend, heven, hodd, Bool.false_and, Bool.or_self, Bool.false_eq_true, if_false]

/-- A YIELD of a program whose function was reset ends it (R457). -/
theorem yieldWord_ended (even odd : Bool) (hend : r.ended = true) :
    yieldWord st u even odd r s = endRun st u false (addReg (nmuArea st u + 0x14) 1 s) := by
  rw [yieldWord, if_pos hend]

/-- A LOOP of an immediate count opens its loop (R435). -/
theorem loopWord_immediate (hn : nImm w ≠ 0) : loopWord st u w r s = modNmu st u (fun x => { x with run := some { r with
    loops := { first := r.pc + 1, last := r.pc + nBody w, left := nImm w } :: r.loops, pc := r.pc + 1 } }) s := by
  simp only [loopWord, hn, decide_false, Bool.not_false, Bool.false_and, Bool.false_eq_true, if_true, if_false]
end

/-- Settles O28: each row by the effect of its word. -/
theorem nmuControlWordsRun : Obligations.NmuControlWordsRun := by
  refine ⟨?_, ?_, fun even odd => ?_, fun even odd => ?_, ?_, ?_, ?_, ?_⟩
  · -- NOP
    exact runsAs_of_exec fun _ _ _ _ => rfl
  · -- END
    exact runsWith_of_exec (act := fun st u _ r s => endWord st u r s) (fun _ _ _ _ => rfl) fun st u w r s => by
      simp only [endWord, List.isEmpty_iff]
  · -- YIELD with no bank in NMU mode
    exact runsWhere_of_exec (act := fun st u _ r s => yieldWord st u even odd r s) (fun _ _ _ _ => rfl)
      fun _ _ _ _ _ _ ⟨hend, heven, hodd⟩ => yieldWord_noBank even odd hend heven hodd
  · -- YIELD after its function's reset
    exact runsWhere_of_exec (act := fun st u _ r s => yieldWord st u even odd r s) (fun _ _ _ _ => rfl)
      fun _ _ _ _ _ _ hend => yieldWord_ended even odd hend
  · -- LOOP
    exact runsWhere_of_exec (act := loopWord) (fun _ _ _ _ => rfl) fun _ _ _ _ _ _ hn => loopWord_immediate hn
  · -- SADDI
    exact runsAs_of_exec fun _ _ _ _ => rfl
  · -- SADD
    exact runsAs_of_exec fun _ _ _ _ => rfl
  · -- SSHL
    exact runsAs_of_exec fun _ _ _ _ => rfl

/-! ### Data words (R437 to R440, R459) -/

section
variable {st u : Nat} {w : DWord} {r : NRun} {s : State}

/-- A NOPEN of a page that its function may use queues the transfer (R438, R440). -/
theorem nopenWord_queues (hp : (lamPage s st u r.launch.fn (lamOf r w)).isSome) (hm : mayEnter s st u (lamOf r w) = true) :
    nopenWord st u w r s = transferQueued st u (lamOf r w) (nLsel w)
      (r.putLatch (nLsel w) { forced := r.srTag (nSa w), lam := lamOf r w, busy := 1 }) s := by
  obtain ⟨p, hp⟩ := Option.isSome_iff_exists.1 hp
  simp only [nopenWord, transferQueued, hp, hm, Bool.not_true, Bool.false_eq_true, if_false]

/-- An NCLR of a page that its function may use leaves its latch as dirty zeros (R440). -/
theorem nclrWord_clears (hp : (lamPage s st u r.launch.fn (lamOf r w)).isSome) (hm : mayEnter s st u (lamOf r w) = true) :
    nclrWord st u w r s = enterBank st u (lamOdd (lamOf r w)) (goOn st u (r.putLatch (nLsel w)
      { valid := true, forced := r.srTag (nSa w), lam := lamOf r w, data := List.replicate 2048 0#8, dirty := true }, s)) := by
  obtain ⟨p, hp⟩ := Option.isSome_iff_exists.1 hp
  simp only [nclrWord, hp, hm, Bool.not_true, Bool.false_eq_true, if_false]

/-- An NWB of a latch with a page that its function may use queues the transfer (R438 to R440). -/
theorem nwbWord_queues (hv : (r.latch (nLsel w)).valid = true) (hp : (lamPage s st u r.launch.fn (r.latch (nLsel w)).lam).isSome)
    (hm : mayEnter s st u (r.latch (nLsel w)).lam = true) :
    nwbWord st u w r s = transferQueued st u (r.latch (nLsel w)).lam (nLsel w) (r.putLatch (nLsel w) { r.latch (nLsel w) with busy := 2 }) s := by
  obtain ⟨p, hp⟩ := Option.isSome_iff_exists.1 hp
  simp only [nwbWord, transferQueued, hv, hp, hm, Bool.not_true, Bool.false_eq_true, if_true, if_false]
end

/-- Settles O29: each row by the effect of its word. The bytes of a latch that held nothing are free values (log 34). -/
theorem nmuDataWordsRun : Obligations.NmuDataWordsRun := by
  refine ⟨?_, ?_, ?_, ?_, ?_, ?_, ?_, ?_⟩
  · -- NOPEN
    exact runsWhere_of_exec (act := nopenWord) (fun _ _ _ _ => rfl) fun _ _ _ _ _ _ ⟨hp, hm⟩ => nopenWord_queues hp hm
  · -- NCLR
    exact runsWhere_of_exec (act := nclrWord) (fun _ _ _ _ => rfl) fun _ _ _ _ _ _ ⟨hp, hm⟩ => nclrWord_clears hp hm
  · -- NWB
    exact runsWhere_of_exec (act := nwbWord) (fun _ _ _ _ => rfl) fun _ _ _ _ _ _ ⟨hv, hp, hm⟩ => nwbWord_queues hv hp hm
  · -- NLD
    exact runsAs_of_exec fun _ _ _ _ => rfl
  · -- NLDI
    exact runsAs_of_exec fun _ _ _ _ => rfl
  · -- NST
    exact runsAs_of_exec fun _ _ _ _ => rfl
  · -- NRES
    exact runsAs_of_exec fun _ _ _ _ => rfl
  · -- NRESS into the first result register
    exact runsWhere_of_plain (eff := nressWord) (fun _ _ _ _ => rfl) fun _ _ _ _ _ _ hn => Prod.ext (if_pos hn) rfl

/-! ### Lane words (R435, R436, R458) -/

section
variable {w : DWord} (hl : nLat w = false)
include hl

/-- Without LAT operand B is a register (R436). -/
theorem operandB_register (r : NRun) (s : State) : operandB s r w = { v := r.vrOf (nVb w), tag := r.vrTag (nVb w) } := by
  rw [operandB, hl, if_neg Bool.false_ne_true]

/-- A lane word with registers as operands notes nothing. -/
theorem operandNote_register (hopc : nOpc w ≠ 0x13) (st u : Nat) (v : NVec) (tag : Bool) (r : NRun) (s : State) :
    operandNote st u w { v := v, tag := tag } r s = (r, s) := by
  simp only [operandNote, hl, hopc, decide_false, Bool.or_self, Bool.false_eq_true, if_false]

/-- A lane word with registers as operands writes the operation on every lane, and the OR of their tags (R435, R458). -/
theorem laneWord_register (hopc : nOpc w ≠ 0x13) (f : Nat → Nat → Nat) (st u : Nat) (r : NRun) (s : State) : laneWord f st u w r s =
    (r.putVr (nVd w) (nvOf ((List.range 32).map (fun i => f (nvGet (r.vrOf (nVa w)) i) (nvGet (r.vrOf (nVb w)) i))))
      (r.vrTag (nVa w) || r.vrTag (nVb w)), s) := by
  simp only [laneWord, operandB_register hl, operandNote_register hl hopc]

/-- VFMA with registers as operands: D is an operand too. -/
theorem vfmaWord_register (hopc : nOpc w ≠ 0x13) (st u : Nat) (r : NRun) (s : State) : vfmaWord st u w r s =
    (r.putVr (nVd w) (nvOf ((List.range 32).map (fun i =>
      f32fma (nvGet (r.vrOf (nVa w)) i) (nvGet (r.vrOf (nVb w)) i) (nvGet (r.vrOf (nVd w)) i))))
      (r.vrTag (nVa w) || r.vrTag (nVb w) || r.vrTag (nVd w)), s) := by
  simp only [vfmaWord, operandB_register hl, operandNote_register hl hopc]
end

/-- A row of a lane operation, with a register and with any operand B. -/
theorem laneWord_runs {opc : Nat} {c : Fin 4 → Fin 256 → NmuErr → Instr} {f : Nat → Nat → Nat} (hopc : opc ≠ 0x13)
    (hc : ∀ st u x s, exec (c st u x) s = plainWord opc (laneWord f) st u x s) :
    RunsWhere opc (fun _ _ w _ _ => nLat w = false) c (fun st u w r s => goOn st u (r.putVr (nVd w)
      (nvOf ((List.range 32).map (fun i => f (nvGet (r.vrOf (nVa w)) i) (nvGet (r.vrOf (nVb w)) i))))
      (r.vrTag (nVa w) || r.vrTag (nVb w)), s)) ∧ RunsAs opc c (laneWord f) :=
  ⟨runsWhere_of_plain hc fun st u _ r s hw hl => laneWord_register hl (hw ▸ hopc) f st u r s, runsAs_of_exec hc⟩

/-- Settles O30: each row by the effect of its word, whose operand B may come from a latch (R437, log 34). -/
theorem nmuLaneWordsRun : Obligations.NmuLaneWordsRun := by
  refine ⟨?_, ?_, ?_, ?_, ?_, ?_, ?_, ?_, ?_, ?_⟩
  · -- VADD, VSUB, VMUL and VMAX
    simp only [List.forall_mem_cons]
    exact ⟨laneWord_runs (by decide) fun _ _ _ _ => rfl, laneWord_runs (by decide) fun _ _ _ _ => rfl,
      laneWord_runs (by decide) fun _ _ _ _ => rfl, laneWord_runs (by decide) fun _ _ _ _ => rfl, List.forall_mem_nil _⟩
  · -- VFMA of registers
    exact runsWhere_of_plain (eff := vfmaWord) (fun _ _ _ _ => rfl) fun st u w r s hw hl =>
      vfmaWord_register hl (hw ▸ by decide) st u r s
  · -- VFMA
    exact runsAs_of_exec fun _ _ _ _ => rfl
  · -- VFMAS
    exact runsAs_of_exec fun _ _ _ _ => rfl
  · -- VMULS
    exact runsAs_of_exec fun _ _ _ _ => rfl
  · -- VIMM
    exact runsAs_of_exec fun _ _ _ _ => rfl
  · -- VTAIL
    exact runsAs_of_exec fun _ _ _ _ => rfl
  · -- HSUM
    exact runsAs_of_exec fun _ _ _ _ => rfl
  · -- HMAX
    exact runsAs_of_exec fun _ _ _ _ => rfl
  · -- HEXP
    exact runsAs_of_exec fun _ _ _ _ => rfl

end Sys2Proof.Machine
end

section
/-!
Launches, background transfers and completions of the near-memory units, and the launches of their controllers (R438, R451, R452, R455, R492).
-/
namespace Sys2Proof.Machine

/-! ### What a unit holds after a change -/

section
variable (st u : Nat) (g : Nmu → Nmu) (s : State)

@[simp] theorem getNmu_modNmu_same : getNmu (modNmu st u g s) st u = g (getNmu s st u) := by
  rw [getNmu, modNmu, kvGet_kvMod, if_pos rfl, getNmu]

theorem getNmu_addReg (o n : Nat) : getNmu (addReg o n s) st u = getNmu s st u := rfl

theorem nmuBad_modNmu (st' u' : Nat) : nmuBad (modNmu st u g s) st' u' = nmuBad s st' u' := rfl
end

/-- A unit that is idle takes a launch with its clean registers (R429). -/
theorem getNmu_startLaunch (st u : Nat) (l : NLaunch) (s : State) :
    getNmu (startLaunch st u l s) st u = { getNmu s st u with run := some (startRun st u l) } := by
  rw [startLaunch, getNmu_addReg, getNmu_modNmu_same]

/-- With no launch queued nothing starts from the queue. -/
theorem startQueued_of_none {st u : Nat} {s : State} (hq : (getNmu s st u).queued = none) : startQueued st u s = s := by
  simp only [startQueued, hq]

/-! ### Arriving launches (R451, R452) -/

section
variable {st : Fin 4} {u : Fin 256} {s : State} {l : NLaunch} {rest : List NLaunch} (hq : (getNmu s st u).queued = none)
  (ha : (getNmu s st u).arriving = l :: rest)
include hq ha

/-- An idle unit with its result buffers free starts the launch that arrives. -/
theorem execNmuLaunch_starts (hr : (getNmu s st u).run = none) (hd : (getNmu s st u).done = []) (hb : nmuBad s st u = false) :
    exec (.nmuLaunch st u) s = .next (startLaunch st u l (modNmu st u (fun x => { x with arriving := rest }) s)) := by
  have hfree : rbFree (getNmu s st u) = true := by rw [rbFree, hd]; rfl
  show execNmuLaunch st u s = _
  simp only [execNmuLaunch, startQueued_of_none hq, ha, nmuBad_modNmu, hb, hq, hr, hfree, Option.isSome_none, Bool.not_true, Bool.or_self,
    Bool.false_eq_true, if_false]

/-- A failed unit answers UNIT_FAILED to the launch that arrives (R451). -/
theorem execNmuLaunch_failed (hb : nmuBad s st u = true) :
    exec (.nmuLaunch st u) s = .next (putDone st u (plainDone l 6) (modNmu st u (fun x => { x with arriving := rest }) s)) := by
  show execNmuLaunch st u s = _
  simp only [execNmuLaunch, startQueued_of_none hq, ha, nmuBad_modNmu, hb, if_true]
end

/-! ### Completions and the launches of a controller (R455, R492) -/

section
variable {st : Fin 4} {u : Fin 256} {s t : State} {dn : NDone} {rest : List NDone} (hd : (getNmu s st u).done = dn :: rest)
  (ht : startQueued st u (modNmu st u (fun x => { x with done := rest }) s) = t)
include hd ht

/-- A completion for which no decode waits is taken and dropped. -/
theorem execNmuCompletion_drops (hf : findFlying t dn.tag = none) : exec (.nmuCompletion st u) s = .next t := by
  subst ht
  show execNmuCompletion st u s = _
  simp only [execNmuCompletion, hd, hf]

/-- A completion gives its decode the partial, with the tags of its query and block (R491). -/
theorem execNmuCompletion_takes {home i key : Nat} {x : Decode} {qblot : Bool} (hf : findFlying t dn.tag = some (home, i, x, key, qblot)) :
    exec (.nmuCompletion st u) s = .next (
      let p := partialOf x.hdim dn (qblot || ((x.blocks[key / 256]?).map (fun b => b.blot)).getD true)
      putDecode home i
        { x with flying := x.flying.filter (fun e => e.1 ≠ dn.tag), partials := kvInsert x.partials key p,
                 busErr := x.busErr || [2, 3, 5].contains dn.status, busy := x.busy || decide (dn.status = 7),
                 wblots := sat32 x.wblots dn.wblots } (bumpFree t)) := by
  subst ht
  show execNmuCompletion st u s = _
  simp only [execNmuCompletion, hd, hf]
end

/-- A controller with room for a partial sends the launch that is due (R492). -/
theorem execAttLaunch_sends {d : Fin 2} {s : State} {home i n : Nat} {x : Decode} (waited : Nat) (hdue : dueLaunch s d = some (home, i, x, n))
    (hroom : partialsHeld s home < 4096) :
    exec (.attLaunch d waited) s = .next (sendLaunch d home i n x (addReg (attBlk d + 0x1C) waited s)) := by
  show execAttLaunch d waited s = _
  simp only [execAttLaunch, hdue, Nat.not_le.2 hroom, if_false]

/-! ### Background transfers (R438 to R440) -/

theorem ending_putLatch (r : NRun) (sel : Bool) (l : Latch) : (r.putLatch sel l).ending = r.ending := by
  cases sel <;> rfl

/-- A page that reaches its latch does not end the run. -/
theorem ending_openDone (st u : Nat) (sel : Bool) (errors : List (Nat × Nat)) (r : NRun) (s : State) :
    (openDone st u sel errors r s).1.ending = r.ending := by
  cases hp : lamLoc st u (r.latch sel).lam with
  | none => simp only [openDone, hp]
  | some p =>
    simp only [openDone, hp]
    split
    · exact ending_putLatch ..
    · exact ending_putLatch ..

/-- A latch that reaches its page does not end the run. -/
theorem ending_backDone (st u : Nat) (sel : Bool) (r : NRun) (s : State) : (backDone st u sel r s).1.ending = r.ending := by
  cases hp : lamLoc st u (r.latch sel).lam with
  | none => simp only [backDone, hp]
  | some p => simp only [backDone, hp, ending_putLatch]

section
variable {st : Fin 4} {u : Fin 256} {s t : State} {r : NRun} {k : Nat} {errors : List (Nat × Nat)} {x : NRun × State}
  (hx : (if (r.latch (decide (k = 1))).busy = 1 then openDone st u (decide (k = 1)) errors r t else backDone st u (decide (k = 1)) r t) = x)
include hx

/-- No transfer ends the run by itself. -/
theorem ending_transfer : x.1.ending = r.ending := by
  rw [← hx]
  split
  · exact ending_openDone ..
  · exact ending_backDone ..

variable (hrun : (getNmu s st u).run = some r)
include hrun

/-- The oldest transfer of a program that goes on finishes (R438). -/
theorem execNmuTransferDone_goesOn {rest : List Nat} (cycles naw : Nat) (ht : addReg (nmuBlk st + 8) naw s = t) (hord : r.order = k :: rest)
    (hend : r.ending = false) :
    exec (.nmuTransferDone st u errors cycles naw) s = .next (modNmu st u (fun y => { y with run := some { x.1 with order := rest } }) x.2) := by
  have hgoes : x.1.ending = false := (ending_transfer hx).trans hend
  show execNmuTransferDone st u errors cycles naw s = _
  simp only [execNmuTransferDone, hrun, hord, hend, Bool.false_eq_true, if_false, ht, hx, hgoes, Bool.false_and]

/-- The last transfer of a program that waits at END ends the launch (R438, R455). -/
theorem execNmuTransferDone_ends {cycles naw : Nat} (ht : addReg (nmuBlk st + 8) naw (addReg (nmuArea st u + 0x10) cycles s) = t)
    (hord : r.order = [k]) (hend : r.ending = true) : exec (.nmuTransferDone st u errors cycles naw) s =
      .next (endRun st u false (modNmu st u (fun y => { y with run := some { x.1 with order := [] } }) x.2)) := by
  have hends : x.1.ending = true := (ending_transfer hx).trans hend
  show execNmuTransferDone st u errors cycles naw s = _
  simp only [execNmuTransferDone, hrun, hord, hend, if_true, ht, hx, hends, List.isEmpty_nil, Bool.and_self]
end

/-- Settles O31: each event by its rule above. The result slots that a program did not write are free values (log 38). -/
theorem nmuLaunchesComplete : Obligations.NmuLaunchesComplete := by
  refine ⟨?_, ?_, ?_, ?_, ?_, ?_⟩
  · -- a launch at an idle unit
    intro st u s l rest hq hr ha hd hb
    refine ⟨_, execNmuLaunch_starts hq ha hr hd hb, ?_, ?_, rfl, rfl⟩ <;> rw [getNmu_startLaunch, getNmu_modNmu_same]
  · -- a launch at a failed unit
    exact fun st u s l rest hq ha hb => execNmuLaunch_failed hq ha hb
  · -- a completion
    exact fun st u s dn rest hd => ⟨execNmuCompletion_drops hd rfl, fun home i x key qblot hf => execNmuCompletion_takes hd rfl hf⟩
  · -- a launch of a controller
    exact fun d waited s home i x n hdue hroom => execAttLaunch_sends waited hdue hroom
  · -- a transfer of a program that goes on
    exact fun st u s r k rest errors cycles naw hrun hord hend => execNmuTransferDone_goesOn rfl hrun cycles naw rfl hord hend
  · -- the last transfer of a program that waits at END
    exact fun st u s r k errors cycles naw hrun hord hend => execNmuTransferDone_ends rfl hrun rfl hord hend

end Sys2Proof.Machine
end

section
/-!
The key-value pool of a function: its control area and its pages, block by block (R467).
-/
namespace Sys2Proof.Machine

/-- The control area is the least number of whole blocks of 256 KiB that holds header, directory, state words and free stacks. -/
theorem kvControl_bounds (pages : Nat) :
    262144 ∣ kvControl pages ∧ 0x81000 + 8 * pages ≤ kvControl pages ∧ kvControl pages < 0x81000 + 8 * pages + 262144 := by
  refine ⟨Nat.dvd_mul_right .., ?_⟩
  rw [kvControl, ceilDiv]
  omega

/-- The page area of a pool has a block for every n pages, n being the pages that one block holds. -/
theorem kvAreaLen_blocks {pages pageBytes : Nat} (hpages : 0 < pages) (hblock : 0 < 262144 / pageBytes) :
    kvAreaLen pages pageBytes = kvControl pages + (pages + 262144 / pageBytes - 1) / (262144 / pageBytes) * 262144 := by
  have hceil : 262144 / pageBytes - 1 + pages = pages + 262144 / pageBytes - 1 := by omega
  rw [kvAreaLen, if_neg hpages.ne', ceilDiv, hceil, Nat.mul_comm]

section
variable {s : State} {f : Nat} (hpos : 0 < kvPageBytes s f) (hle : kvPageBytes s f ≤ 262144)
include hpos hle

/-- A byte of a pool page lies in the page's own block, at the page's place in the block. -/
theorem kvOffset_parts (k : Nat) {j : Nat} (hj : j < kvPageBytes s f) :
    (kvOffset s f k + j) / 262144 = k / (262144 / kvPageBytes s f) ∧
    (kvOffset s f k + j) % 262144 = k % (262144 / kvPageBytes s f) * kvPageBytes s f + j := by
  have hlast : k % (262144 / kvPageBytes s f) + 1 ≤ 262144 / kvPageBytes s f := Nat.mod_lt k (Nat.div_pos hle hpos)
  have hfits : (k % (262144 / kvPageBytes s f) + 1) * kvPageBytes s f ≤ 262144 :=
    (Nat.mul_le_mul_right _ hlast).trans (Nat.div_mul_le_self ..)
  rw [Nat.succ_mul] at hfits
  rw [kvOffset]
  omega

/-- A page does not cross a block: its last byte lies in the block of its first. -/
theorem kvOffset_last_block (k : Nat) : (kvOffset s f k + kvPageBytes s f - 1) / 262144 = kvOffset s f k / 262144 := by
  rw [Nat.add_sub_assoc hpos, (kvOffset_parts hpos hle k (Nat.sub_lt hpos Nat.one_pos)).1]
  exact (kvOffset_parts hpos hle k hpos).1.symm

/-- An offset in a page names the page. -/
theorem kvPageOf_kvOffset (k : Nat) {j : Nat} (hj : j < kvPageBytes s f) : kvPageOf s f (kvOffset s f k + j) = k := by
  obtain ⟨hblock, hplace⟩ := kvOffset_parts hpos hle k hj
  rw [kvPageOf, hblock, hplace, Nat.mul_comm (k % _), Nat.mul_add_div hpos, Nat.div_eq_of_lt hj, Nat.add_zero, Nat.mul_comm]
  exact Nat.div_add_mod ..
end

/-- Settles O17: the control area in whole blocks, then the pages block by block. -/
theorem kvPagesLieInTheirBlocks : Obligations.KvPagesLieInTheirBlocks := by
  intro s f k hpos hle hpages
  obtain ⟨hdvd, hlow, hhigh⟩ := kvControl_bounds (kvPages s f)
  refine ⟨?_, hdvd, hlow, hhigh, kvAreaLen_blocks hpages (Nat.div_pos hle hpos), (kvOffset_last_block hpos hle k).symm,
    fun j hj => kvPageOf_kvOffset hpos hle k hj⟩
  rw [kvPageAt, kvArea, kvOffset]
  omega

end Sys2Proof.Machine
end

section
/-!
Commands on KV pools and sequences (R465 to R475, R500, R503): each accepted one, served as the home walkers are free.
-/
namespace Sys2Proof.Machine

/-- A command whose home walkers are free is served at once (R475). -/
theorem kvServe_free {h : CmdHdr} {op : Nat} {l : List Nat} {eff : State → State} {s : State} (hw : walkersFree s l = true) :
    kvServe h op l eff s = eff s := if_pos hw

/-- Settles O39: each command's effect, with the checks of its parameters passed. -/
theorem kvCommandsComplete : Obligations.KvCommandsComplete := by
  refine ⟨fun h base pages bytes => ?_, fun h seq layers s pages t ha hpool hseq hnew hpos hmax hw hpop => ?_, fun h src dst tokens => ?_,
    fun h seq => ?_, fun h base pages high low => ?_⟩
  · -- KV_POOL_SET
    refine .of_runOp (fun _ => rfl) fun s hg => ?_
    obtain ⟨hunit, hpos, hle, hbase, hone, hmax, harea, hempty⟩ := hg
    have hbusy : (hasPool s h.fn && decide (0 < kvHead s h.fn 24 4)) = false := by
      cases hpool : hasPool s h.fn with
      | false => rfl
      | true => rw [hempty hpool]; rfl
    simp only [hunit, hpos, hle, hbase, hone, hmax, harea, hbusy, and_self, decide_true, Bool.and_self, Bool.not_true, Bool.false_eq_true, if_false]
  · -- KV_SEQ_CREATE
    show execKvSeqCreate h seq layers s = _
    rw [execKvSeqCreate, runOp_accepted _ ha, kvServe_free hw]
    simp only [hpool, Nat.not_le.2 hseq, hnew, hpos.ne', Nat.not_lt.2 hmax, hpop, decide_false, Bool.not_true, Bool.or_self, Bool.false_eq_true, if_false]
  · -- KV_SEQ_FORK
    refine .of_runOp (fun _ => rfl) fun s hg => ?_
    obtain ⟨hsrc, hdst, hlayers, hempty, hw, hhere, hblocks⟩ := hg
    have hfill : ¬ (seqLayers s h.fn src ≠ seqLayers s h.fn dst ∨
        (List.range (seqLayers s h.fn dst)).any (fun l => decide (eFill (layerEnt s h.fn dst l) ≠ 0)) = true) := by
      simpa [hlayers] using hempty
    have hfilled : (forkBlocks s h.fn src tokens).any (fun x => eSpilled (blockEnt s h.fn src x.1 x.2.1)) = false :=
      List.any_eq_false.2 fun x hx => Bool.eq_false_iff.1 (hblocks x hx).1
    have hrefs : (forkBlocks s h.fn src tokens).any
        (fun x => decide (65535 ≤ wRefs (kvWord s h.fn (ePage (blockEnt s h.fn src x.1 x.2.1))))) = false :=
      List.any_eq_false.2 fun x hx => mt of_decide_eq_true (Nat.not_le.2 (hblocks x hx).2)
    simp only [kvServe_free hw, hsrc, hdst, Bool.not_true, Bool.or_self, if_neg hfill, hhere, hfilled, hrefs, Bool.false_eq_true, if_false]
  · -- KV_SEQ_FREE
    refine .of_runOp (fun _ => rfl) fun s hg => ?_
    obtain ⟨hex, hw⟩ := hg
    simp only [kvServe_free hw, hex, Bool.not_true, Bool.false_eq_true, if_false]
  · -- KV_SPILL_POLICY
    refine .of_runOp (fun _ => rfl) fun s hg => ?_
    obtain ⟨hpool, hlow, hhigh, hbase, hpages, hnone, hfar⟩ := hg
    simp only [hpool, hlow, hhigh, hbase, Nat.not_le.2 hpages, hfar, hnone, ne_eq, not_true_eq_false, and_self, decide_true, decide_false, Bool.not_true,
      Bool.or_self, Nat.lt_irrefl, Bool.false_eq_true, if_false]

end Sys2Proof.Machine
end

section
/-!
Clear registers of the links, of power and heat, of the Blotter and of the pins (R587 to R589, R626, R631, R665, R735).
-/
namespace Sys2Proof.Machine

/-- A command that clears one word on a write of 1 is a clear register of that word. -/
theorem clearsOnOne_setReg {c : Word → Instr} {a : Nat} (hc : ∀ d s, exec (c d) s = .next (onOne d (setReg a 0#32) s)) : ClearsOnOne c (wordsAt a a 0#32) :=
  clearsOnOne_of_onOne hc (setReg_keeps a 0#32) (rawReg_setReg_wordsAt a 0#32)

/-- A new baseline of R_th clears the baseline's field and the hours that would form it, and no other register (R626). -/
theorem thmRthReset_gives (s : State) : Gives s (exec (.thmRthReset 1#32) s) (Part.regs ||| Part.sup) (fun t =>
    getF t (pwrBlk + 0x200C) 16 16 = 0 ∧ t.sup.rthHours = [] ∧ (∀ o, o ≠ pwrBlk + 0x200C → rawReg t o = rawReg s o) ∧ t.pins = s.pins) := by
  refine ⟨_, congrArg Host.Outcome.next (if_pos rfl), ((modSup_keeps _ s).mono rfl).trans ((setF_keeps _ _ _ _ _).mono rfl), ?_, rfl, fun o ho => ?_, rfl⟩
  · rw [getF_setF_same _ _ _ (by decide), Nat.zero_mod]
  · rw [rawReg_setF, if_neg ho]
    rfl

/-- Settles O34: each clear register is a range of words or one word; the baseline of R_th is a field with the hours behind it. -/
theorem systemCountersClear : Obligations.SystemCountersClear :=
  ⟨fun _ => clearsOnOne_clearWords (by omega) fun _ _ => rfl, fun _ => clearsOnOne_clearWords (by omega) fun _ _ => rfl,
    clearsOnOne_setReg fun _ _ => rfl, clearsOnOne_clearWords (by omega) fun _ _ => rfl, clearsOnOne_setReg fun _ _ => rfl,
    clearsOnOne_clearWords (by omega) fun _ _ => rfl, clearsOnOne_setReg fun _ _ => rfl, thmRthReset_gives,
    fun _ _ hd => congrArg Host.Outcome.next (if_neg hd)⟩

end Sys2Proof.Machine
end

section
/-!
Ports and collectives: flits, training, the windows of R556 and the firings of the collective engines (R535, R549, R552, R554 to R556, R575 to R578).
-/
namespace Sys2Proof.Machine

/-! ### What the decoders make of a flit without errors (R541) -/

/-- A flit whose symbols all arrive right brings no wrong symbol to a codeword. -/
theorem codewordErrors_of_noErrors {x : FlitIn} (h : x.errors = []) (w : Nat) : codewordErrors x w = [] := by
  rw [codewordErrors, h]
  rfl

/-- A codeword without wrong symbols is decoded as it stands. -/
theorem flitCode_decode_nil : flitCode.decode [] = .good [] [] := rfl

/-- The eight decoders leave a flit without errors as it is. -/
theorem decodeFlit_of_noErrors {x : FlitIn} (h : x.errors = []) : (decodeFlit x).bytes = x.bytes ∧ (decodeFlit x).uncorrectable = 0 := by
  have hword : ∀ w, flitCode.decode (codewordErrors x w) = .good [] [] := fun w => by rw [codewordErrors_of_noErrors h, flitCode_decode_nil]
  simp only [decodeFlit, hword]
  exact ⟨rfl, rfl⟩

/-! ### A flit reaches a port (R549, R550) -/

/-- The state once a good flit is counted: its time is the last at which the port heard one (R552). -/
def flitHeard (p : Nat) (f : FlitOut) (s : State) : State :=
  modPort p (fun x => { x with lastGood := (countFlit p f s).now }) (countFlit p f s)

/-- The state once the acknowledgement, the credits and the NAK of a flit's header h are taken (R545, R548, R550). -/
def headTaken (p h : Nat) (s : State) : State :=
  let c := takeAck p (bits h 12 10) (bits h 33 6) (bits h 39 7) s
  if bit h 22 then takeNak p (bits h 12 10) c else modPort p (fun x => { x with nakRun := 0 }) c

/-- Without its NAK bit a header ends the run of NAKs. -/
theorem headTaken_ack {h : Nat} (hn : bit h 22 = false) (p : Nat) (s : State) : headTaken p h s =
    modPort p (fun x => { x with nakRun := 0 }) (takeAck p (bits h 12 10) (bits h 33 6) (bits h 39 7) s) :=
  if_neg (Bool.eq_false_iff.1 hn)

/-- With its NAK bit a header asks for a replay. -/
theorem headTaken_nak {h : Nat} (hn : bit h 22 = true) (p : Nat) (s : State) : headTaken p h s =
    takeNak p (bits h 12 10) (takeAck p (bits h 12 10) (bits h 33 6) (bits h 39 7) s) :=
  if_pos hn

section
variable {p : Fin 12} {x : FlitIn} {s : State} (hlo : 4 ≤ portState s p) (hhi : portState s p ≤ 6) (t : Nat)
include hlo hhi

/-- In the states that exchange flits (Table 13.5) a flit that is not good only asks for a replay (R549). -/
theorem execFlitReceive_bad (hbad : flitGood (decodeFlit x) = false) :
    exec (.flitReceive p x t) s = .next (askReplay p (countFlit p (decodeFlit x) { s with now := max s.now t })) := by
  have hstate : ¬ (portState s p < 4 ∨ 6 < portState s p) := by omega
  refine congrArg Host.Outcome.next ((if_neg hstate).trans (if_pos ?_))
  rw [hbad, Bool.not_false]

/-- In these states a good flit is heard, and acts by its kind. -/
theorem execFlitReceive_good (hgood : flitGood (decodeFlit x) = true) : exec (.flitReceive p x t) s = .next (
    let f := decodeFlit x
    let h := field f.bytes 0 6
    let b := flitHeard p f { s with now := max s.now t }
    if bits h 0 2 = 3 then b
    else if bits h 0 2 = 0 then headTaken p h b
    else takeData p (bits h 0 2) (bits h 2 10) f.bytes (headTaken p h b)) := by
  have hstate : ¬ (portState s p < 4 ∨ 6 < portState s p) := by omega
  refine congrArg Host.Outcome.next ((if_neg hstate).trans (if_neg ?_))
  rw [hgood, Bool.not_true]
  exact Bool.false_ne_true
end

/-- A port in service that has heard no good flit for 1 µs breaks (R552). -/
theorem execPortNoFlitTimeout_breaks {p : Fin 12} {t : Nat} {s : State} (hup : inService s p = true) (hlate : (getPort s p).lastGood + 1000 ≤ max s.now t) :
    exec (.portNoFlitTimeout p t) s = .next (breakPort p { s with now := max s.now t }) :=
  congrArg Host.Outcome.next (if_pos ((Bool.and_eq_true _ _).mpr ⟨hup, decide_eq_true hlate⟩))

/-! ### Training (R535, R554) -/

/-- DETECT ends when both directions find eight lanes. -/
theorem execPortStateDone_detect {p : Fin 12} {f : PortFindings} {s : State} (hst : portState s p = 1) (htx : 8 ≤ f.detectTx) (hrx : 8 ≤ f.detectRx) :
    exec (.portStateDone p f) s = .next (setPortState p 2 s) := by
  show execPortStateDone p f s = _
  rw [execPortStateDone, hst, if_neg Nat.one_ne_zero, if_pos rfl, if_pos ⟨htx, hrx⟩]

/-- What a port in the IDENT state has received is checked against Table 13.6. -/
theorem execIdent_checks {p : Fin 12} {s : State} {k : Packet} {c q d i x : Nat} (hst : portState s p = 4) (hk : (getPort s p).ident = some k)
    (hb : k.body = .ident c q d i x) : exec (.ident p) s = .next (
      let t := modPort p (fun x => { x with ident := none }) s
      if portPeer t p = some (c, d, i) ∧ portDir (topoKind t) q = some (d, i) then setReg (fjlBlk p + 8) (BitVec.ofNat 32 (2 ^ 31 + 2 ^ 24 * q + c)) t
      else portFailed p 4 (setB (fjlBlk p) 28 true t)) := by
  show execIdent p s = _
  simp only [execIdent, hst, ne_eq, not_true_eq_false, if_false, hk, hb]

/-! ### The window of a port (R556) -/

/-- A window within every bound leaves the port in service: the lanes' counts are shown and start again. -/
theorem execBerWindow_quiet {p : Fin 12} {s : State} (hup : inService s p = true) (hlanes : ∀ i < 9, nth 0 (getPort s p).laneBits i ≤ laneBound)
    (hsym : (getPort s p).symbols ≤ symbolBound) (hbad : (getPort s p).bad ≤ 10) : exec (.berWindow p) s = .next (clearWindow p
      ((List.range 9).foldl (fun s' i => setReg (fjlBlk p + 0x40 + 4 * i) (BitVec.ofNat 32 (nth 0 (getPort s p).laneBits i)) s') s)) := by
  have hcool : (List.range 9).filter (fun i => decide (laneBound < nth 0 (getPort s p).laneBits i) && !(getPort s p).failedRx.contains i) = [] := by
    refine List.filter_eq_nil_iff.2 fun i hi => ?_
    rw [decide_eq_false (Nat.not_lt.2 (hlanes i (List.mem_range.1 hi))), Bool.false_and]
    exact Bool.false_ne_true
  have hlink : ¬ (symbolBound < (getPort s p).symbols ∨ 10 < (getPort s p).bad) := by omega
  show execBerWindow p s = _
  simp only [execBerWindow, hup, Bool.not_true, Bool.false_eq_true, if_false, hcool, hlink]

/-! ### Collectives (R575 to R578) -/

/-- The oldest released trigger starts its firing while fewer than four are in progress (R575, R577). -/
theorem execCollectiveFire_starts {s : State} {i : Nat} {r : List Nat} {e : CollEntry} (hrel : s.coll.released = i :: r) (he : s.coll.entries[i]? = some e)
    (hfour : s.coll.firings.length < 4) : exec .collectiveFire s = .next (beginFiring i e.fired (collParam e.raw) { s with coll := { s.coll with
      released := r, entries := s.coll.entries.set i { e with fired := e.fired + 1 }, firings := s.coll.firings ++ [{ entry := i, n := e.fired }] } }) := by
  show execCollectiveFire s = _
  simp only [execCollectiveFire, hrel, he, Nat.not_le.2 hfour, if_false]

section
variable {p : Fin 12} {s : State} {k : Packet} {r : List Packet} {e n ph c st off dest : Nat} {data : List Byte} {blots : List Bool}
  (hrx : (getPort s p).rx1 = k :: r) (hb : k.body = .coll e n ph c st off dest data blots)
include hrx hb

/-- A COLL packet for another device goes on towards it. -/
theorem execCollPacket_forwards (hdest : dest ≠ ownCoord s) :
    exec (.collPacket p) s = .next (sendColl k dest (returnCredit p k (modPort p (fun x => { x with rx1 := r }) s))) := by
  show execCollPacket p s = _
  simp only [execCollPacket, hrx, hb, ne_eq, hdest, not_false_eq_true, if_true]

/-- A COLL packet of a firing in progress goes to the engine (R576). -/
theorem execCollPacket_takes {en : CollEntry} {f : CollFiring} (hdest : dest = ownCoord s) (he : s.coll.entries[e]? = some en)
    (hf : s.coll.firings.find? (fun f => decide (f.entry = e ∧ f.n % 65536 = n)) = some f) : exec (.collPacket p) s = .next
      (takeColl f (collParam en.raw) ph c st off { data := data, blots := blots } (returnCredit p k (modPort p (fun x => { x with rx1 := r }) s))) := by
  show execCollPacket p s = _
  simp only [execCollPacket, hrx, hb, ne_eq, hdest, not_true_eq_false, if_false, he, hf]
end

/-- The first firing that has done all completes (R578). -/
theorem execCollectiveComplete_ends {s : State} {f : CollFiring} (hf : s.coll.firings.find? (firingDone s) = some f) :
    exec .collectiveComplete s = .next (endFiring f s) := by
  show execCollectiveComplete s = _
  rw [execCollectiveComplete, hf]

/-- Settles O50: each flit by its kind, and each event of training, of the windows and of the engines by its rule above. -/
theorem portAndCollectiveEventsAct : Obligations.PortAndCollectiveEventsAct := by
  refine ⟨?_, fun _ x h => decodeFlit_of_noErrors h, fun p t s hup hlate => execPortNoFlitTimeout_breaks hup hlate,
    fun p f s hst htx hrx => execPortStateDone_detect hst htx hrx, fun p s hlo hhi => congrArg Host.Outcome.next (if_pos ⟨hlo, hhi⟩), ?_,
    fun p s hup hlanes hsym hbad => execBerWindow_quiet hup hlanes hsym hbad, fun s i r e hrel he hfour => execCollectiveFire_starts hrel he hfour,
    fun p s k r e n ph c st off dest data blots hrx hb hdest => execCollPacket_forwards hrx hb hdest,
    fun p s k r e n ph c st off data blots en f hrx hb he hf => execCollPacket_takes hrx hb rfl he hf,
    fun s f hf => execCollectiveComplete_ends hf⟩
  · -- a flit
    intro p x t s hlo hhi f h a b c d
    have hopen : flitGood f = true → exec (.flitReceive p x t) s = .next (if bits h 0 2 = 3 then b else if bits h 0 2 = 0 then headTaken p h b
        else takeData p (bits h 0 2) (bits h 2 10) f.bytes (headTaken p h b)) := execFlitReceive_good hlo hhi t
    refine ⟨execFlitReceive_bad hlo hhi t, fun hgood hkind => ?_, fun hgood hkind hn => ?_, fun hgood hkind hn => ?_, fun kind hgood hkind hpos hlt => ?_⟩
    · -- of KIND 0b11, which Table 13.2 reserves: the model only counts it and takes it as heard
      rw [hopen hgood, if_pos hkind]
    · -- IDLE, without NAK
      rw [hopen hgood, hkind, if_neg (by decide), if_pos rfl, headTaken_ack hn]
    · -- IDLE, with NAK
      rw [hopen hgood, hkind, if_neg (by decide), if_pos rfl, headTaken_nak hn]
    · -- DATA or REPLAY
      rw [hopen hgood, hkind, if_neg hlt.ne, if_neg hpos.ne']
      rfl
  · -- IDENT
    intro p s k c q d i x hst hk hb t
    refine ⟨fun hpeer hdir => ?_, fun hpeer => ?_⟩ <;> rw [execIdent_checks hst hk hb]
    · exact congrArg Host.Outcome.next (if_pos ⟨hpeer, hdir⟩)
    · exact congrArg Host.Outcome.next (if_neg fun h => hpeer h.1)

end Sys2Proof.Machine
end

section
/-!
Fused versions and owner keys over a step (R691, R693), and CONFIG_READ (R687).
-/
namespace Sys2Proof.Machine

/-- Settles O7: what a step keeps of the state with the queue's rest names the fused version, the owner keys and their four slots. -/
theorem securityNeverFallsBack : Obligations.SecurityNeverFallsBack := by
  intro s t ht
  obtain ⟨m, u, hu, hk⟩ := step_keeps s
  obtain rfl : u = t := Host.Outcome.next.inj (hu.symm.trans ht)
  exact ⟨hk.svn, hk.owners, hk.slots⟩

/-- Settles O15: an accepted CONFIG_READ compares the length of the images with the room that LEN gives. -/
theorem configReadReturnsTheImages : Obligations.ConfigReadReturnsTheImages := by
  intro h dst len s ha
  show (_ → execConfigRead h dst len s = _) ∧ (_ → execConfigRead h dst len s = _)
  rw [execConfigRead, runOp_accepted _ ha]
  exact ⟨fun hfits => congrArg Host.Outcome.next (if_neg (Nat.not_lt.2 hfits)), fun hshort => congrArg Host.Outcome.next (if_pos hshort)⟩

end Sys2Proof.Machine
end

section
/-!
The blotter (R635, R636): a report joins its open record or opens one, and a record whose window has ended closes.
-/
namespace Sys2Proof.Machine

/-! ### Acceptance -/

section
variable {s : State} {r : Report} (hr : nextReport s.reports = some r)
include hr

/-- A report of an open record adds its count to that record. -/
theorem execBlotterAccept_merges (hopen : s.recs.any (fun x => !x.closed && decide (x.origin = r.origin ∧ x.cls = r.cls ∧ x.fn = r.fn)) = true) :
    exec .blotterAccept s = .next { addReg (bltBlk + 0xC) 1 { s with reports := dropReport r s.reports } with
      recs := s.recs.map (fun x => if !x.closed && decide (x.origin = r.origin ∧ x.cls = r.cls ∧ x.fn = r.fn) then { x with count := sat32 x.count r.count } else x) } := by
  show execBlotterAccept s = _
  rw [execBlotterAccept, hr]
  exact congrArg Host.Outcome.next (if_pos hopen)

/-- A report without an open record opens one. -/
theorem execBlotterAccept_opens (hnone : s.recs.any (fun x => !x.closed && decide (x.origin = r.origin ∧ x.cls = r.cls ∧ x.fn = r.fn)) = false) :
    exec .blotterAccept s = .next (openRecord r (addReg (bltBlk + 0xC) 1 { s with reports := dropReport r s.reports })) := by
  show execBlotterAccept s = _
  rw [execBlotterAccept, hr]
  exact congrArg Host.Outcome.next (if_neg (Bool.eq_false_iff.1 hnone))
end

/-! ### Closing -/

/-- Is the window of an open record at its end at a time? -/
def windowEnds (now : Nat) (s : State) (r : FaultRec) : Bool := !r.closed && decide (r.opened + windowNs s ≤ now)

/-- The records whose windows have ended are closed, and then what follows from each closing happens. -/
theorem execRecordClose_closes (t : Nat) (s : State) :
    exec (.recordClose t) s = .next ((s.recs.filter (windowEnds (max s.now t) s)).foldl (fun s r => closing r s)
      { s with now := max s.now t, recs := s.recs.map (fun r => if windowEnds (max s.now t) s r then { r with closed := true } else r) }) := rfl

/-- Where no record's window has ended, none is marked. -/
theorem map_closed_of_none_due {p : FaultRec → Bool} {l : List FaultRec} (hnone : l.filter p = []) :
    l.map (fun r => if p r then { r with closed := true } else r) = l := by
  refine (List.map_congr_left fun r hr => ?_).trans (List.map_id l)
  exact if_neg (List.filter_eq_nil_iff.1 hnone r hr)

/-- Settles O53: acceptance by its two rules, and closing with no record due or with the one record there is. -/
theorem blotterActs : Obligations.BlotterActs := by
  refine ⟨fun s hs => ?_, fun s r hr hopen => .of_exec (execBlotterAccept_merges hr hopen) ⟨rfl, rfl⟩,
    fun s r hr hnone => execBlotterAccept_opens hr hnone, fun t s hnone => ?_, fun t s r hs hopen hend => ?_⟩
  · show execBlotterAccept s = _
    rw [execBlotterAccept, hs]
    rfl
  · have hdue : s.recs.filter (windowEnds (max s.now t) s) = [] := hnone
    rw [execRecordClose_closes, map_closed_of_none_due hdue, hdue, List.foldl_nil]
  · have hdue : windowEnds (max s.now t) s r = true := by simp [windowEnds, hopen, hend]
    rw [execRecordClose_closes, hs, List.filter_singleton, hdue, List.map_singleton, if_pos hdue]
    rfl

end Sys2Proof.Machine
end

section
/-!
The power supervisor (R594 to R613): the loops of a control window, steps and transitions, droop, measurement and regulator alerts. A droop crossing
marks its lap's trace as not free (log 29), and a gain without converter power is a free value within its limits (log 33).
-/
namespace Sys2Proof.Machine

/-! ### What the loops of clusters and towers hold after a change -/

@[simp] theorem tow_modClu (c : Nat) (g : CluPower → CluPower) (s : State) : (modClu c g s).sup.tow = s.sup.tow := rfl

theorem getTow_of_tow {s t : State} (h : t.sup.tow = s.sup.tow) (n : Nat) : getTow t n = getTow s n := by rw [getTow, h, getTow]
theorem getClu_of_sup {s t : State} (h : t.sup = s.sup) (c : Nat) : getClu t c = getClu s c := by rw [getClu, h, getClu]

@[simp] theorem getClu_setF (o lo w v : Nat) (s : State) (c : Nat) : getClu (setF o lo w v s) c = getClu s c := getClu_of_sup (setF_sup _ _ _ _ _) c
@[simp] theorem getClu_setB (o lo : Nat) (b : Bool) (s : State) (c : Nat) : getClu (setB o lo b s) c = getClu s c := getClu_of_sup (setB_sup _ _ _ _) c
@[simp] theorem getClu_addReg (o n : Nat) (s : State) (c : Nat) : getClu (addReg o n s) c = getClu s c := getClu_of_sup (addReg_sup _ _ _) c
@[simp] theorem getClu_markFree (d : Nat) (s : State) (c : Nat) : getClu (markFree d s) c = getClu s c := getClu_of_sup ((markFree_keeps d s).sameSup rfl) c
@[simp] theorem getClu_capturePort (d : Nat) (s : State) (c : Nat) : getClu (capturePort d s) c = getClu s c :=
  getClu_of_sup ((capturePort_keeps d s).sameSup rfl) c

@[simp] theorem getTow_modTow_same (t : Nat) (g : TowerPower → TowerPower) (s : State) : getTow (modTow t g s) t = g (getTow s t) :=
  kvGet_kvPut_same _ _ _ _

/-- A report that is counted changes no tower's loop. -/
theorem getTow_reported (cls org fn d o n : Nat) (s : State) (t : Nat) : getTow (report cls org fn d (addReg o n s)) t = getTow s t := getTow_of_tow rfl t

/-- A cluster's body of the loop leaves its tower's loop as it is. -/
theorem tow_clusterLoop (w : PowerWindow) (t c : Nat) (e : Int) (s : State) : (clusterLoop w t c e s).sup.tow = s.sup.tow := by
  rw [clusterLoop]
  split
  · rw [tow_modClu, setF_sup]
  · split
    · rw [tow_modClu, setF_sup]
    · rw [setF_sup]

theorem tow_clusterLoops (w : PowerWindow) (t : Nat) (e : Int) (l : List Nat) (s : State) :
    (l.foldl (fun s j => clusterLoop w t (4 * t + j) e s) s).sup.tow = s.sup.tow := by
  induction l generalizing s with
  | nil => rfl
  | cons j l ih => rw [List.foldl_cons, ih, tow_clusterLoop]

/-- Entry to and end of cap forcing leave a tower's bubbles as they are. -/
theorem b_capForcing (t : Nat) (e : Int) (s : State) : (getTow (capForcing t e s) t).b = (getTow s t).b := by
  unfold capForcing
  extract_lets x hot u
  have hu : (getTow u t).b = (getTow s t).b := by simp only [u, getTow_modTow_same]
  clear_value u
  split
  · split
    · rw [getTow_modTow_same, hu]
    · exact hu
  · split
    · rw [getTow_reported, getTow_modTow_same, hu]
    · exact hu

theorem b_showTower (w : PowerWindow) (t : Nat) (s : State) : (getTow (showTower w t s) t).b = (getTow s t).b :=
  congrArg TowerPower.b (getTow_of_tow (congrArg Supervisor.tow ((showTower_keeps w t s).sameSup rfl)) t)

/-! ### Control windows -/

/-- A tower's bubbles move by d of R607, between 0 and 56. -/
theorem towerLoop_b {w : PowerWindow} {t : Nat} {s : State} (hbt : towerShareOf s w t ≠ 0) :
    ((getTow (towerLoop w t s) t).b : Int) = max 0 (min 56 ((getTow s t).b +
      max (-4) (min 4 (Int.fdiv (128 * towerOver s w t + towerShareOf s w t) (2 * towerShareOf s w t))))) := by
  simp only [towerLoop, b_showTower, b_capForcing, getTow_of_tow (tow_clusterLoops _ _ _ _ _), getTow_modTow_same, if_neg hbt, bubbleDelta]
  exact Int.toNat_of_nonneg (le_max_left _ _)

/-! ### Steps and transitions -/

section
variable {c : Fin 64} {s : State}

section
variable (hmove : (getClu s c).move = none) (hon : domainOn s c = true)
include hmove hon

/-- A fall of the frequency goes at once to the step asked for, the frequency first; in a stretch its voltage waits (R595, R599). -/
theorem execVfTransition_falls (hcur : curStep s c < vfTarget s c) :
    let held := getB s (vfBlk c) 30 && !forcedPf s c
    let m : VfMove := { step := vfTarget s c, rise := false, held := held, back := setMvOf s c }
    let a := changeM c (vfTarget s c) s
    exec (.vfTransition c) s = .next (setB (vfBlk c) 31 true (modClu c (fun x => { x with move := some m })
      (if held then a else setVolt c (setPoint a c (vfTarget s c)) a))) := by
  have hgo : ¬ ((getClu s c).move.isSome = true ∨ vfTarget s c = curStep s c ∨ (!domainOn s c) = true) := by
    simp [hmove, hon, hcur.ne']
  show execVfTransition c s = _
  rw [execVfTransition, if_neg hgo, if_pos hcur]

/-- A rise goes by one step in a control window, the voltage first, and not in a stretch (R596, R599). -/
theorem execVfTransition_rises (hcur : vfTarget s c < curStep s c) (hstretch : getB s (vfBlk c) 30 = false) (hraised : (getClu s c).raised = false) :
    exec (.vfTransition c) s = .next (setB (vfBlk c) 31 true (modClu c (fun x => { x with raised := true, move := some { step := curStep s c - 1, rise := true, back := setMvOf s c } })
      (setVolt c (setPoint s c (curStep s c - 1)) s))) := by
  have hgo : ¬ ((getClu s c).move.isSome = true ∨ vfTarget s c = curStep s c ∨ (!domainOn s c) = true) := by
    simp [hmove, hon, hcur.ne]
  have hmay : ¬ ((getClu s c).raised = true ∨ getB s (vfBlk c) 30 = true) := by simp [hraised, hstretch]
  show execVfTransition c s = _
  rw [execVfTransition, if_neg hgo, if_neg (Nat.lt_asymm hcur), if_neg hmay]
end
end

section
variable {n : Fin 96} {mv : Nat} {s : State} (hon : domainOn s n = true)
include hon

/-- A settled voltage shows, and no more for a domain that is no cluster's. -/
theorem execVoltageSettled_other (hn : 64 ≤ n.val) :
    exec (.voltageSettled n mv) s = .next (setB (domReg n) 30 true (setF (domReg n) 0 10 mv s)) := by
  show execVoltageSettled n mv s = _
  simp only [execVoltageSettled, hon, Bool.not_true, Bool.false_eq_true, if_false, if_neg (Nat.not_lt.2 hn)]

section
variable (hn : n.val < 64)
include hn

/-- Nor does more follow for a cluster without a transition, or with one whose voltage is held. -/
theorem execVoltageSettled_still (hmove : (getClu s n).move = none) :
    exec (.voltageSettled n mv) s = .next (setB (domReg n) 30 true (setF (domReg n) 0 10 mv s)) := by
  show execVoltageSettled n mv s = _
  simp only [execVoltageSettled, hon, Bool.not_true, Bool.false_eq_true, if_false, if_pos hn, getClu_setB, getClu_setF, hmove]

theorem execVoltageSettled_held {m : VfMove} (hmove : (getClu s n).move = some m) (hheld : m.held = true) :
    exec (.voltageSettled n mv) s = .next (setB (domReg n) 30 true (setF (domReg n) 0 10 mv s)) := by
  show execVoltageSettled n mv s = _
  simp only [execVoltageSettled, hon, Bool.not_true, Bool.false_eq_true, if_false, if_pos hn, getClu_setB, getClu_setF, hmove, hheld, if_true]

/-- A transition ends when its voltage has settled: a rise takes its frequency then, and the cluster's ceil is formed anew (R597, R608). -/
theorem execVoltageSettled_ends {m : VfMove} (hmove : (getClu s n).move = some m) (hheld : m.held = false) :
    let a := setB (domReg n) 30 true (setF (domReg n) 0 10 mv s)
    exec (.voltageSettled n mv) s = .next (evalCeil n (addReg (vfBlk n + 0x18) 1 (setB (vfBlk n) 31 false (modClu n (fun x => { x with move := none })
      (if m.rise then changeM n m.step a else a))))) := by
  show execVoltageSettled n mv s = _
  simp only [execVoltageSettled, hon, Bool.not_true, Bool.false_eq_true, if_false, if_pos hn, getClu_setB, getClu_setF, hmove, hheld]
end
end

/-! ### Droop -/

section
variable {c : Fin 64} {s a : State}

section
variable (hfree : getB s (vfBlk c) 30 = false) (hon : domainOn s c = true) (ha : markFree c (addReg (vfBlk c + 0x10) 1 (setB (vfBlk c) 30 true s)) = a)
include hfree hon ha

/-- A crossing begins a stretch: it is counted, and the lap is no longer as without power actions (R598, log 29). -/
theorem execDroopCrossing_still (hmove : (getClu s c).move = none) : exec (.droopCrossing c) s = .next a := by
  subst ha
  show execDroopCrossing c s = _
  simp only [execDroopCrossing, hfree, hon, Bool.not_true, Bool.false_eq_true, or_self, if_false, getClu_markFree, getClu_addReg, getClu_setB, hmove]

section
variable {m : VfMove} (hmove : (getClu s c).move = some m)
include hmove

/-- A rise in progress is aborted (R599). -/
theorem execDroopCrossing_aborts (hrise : m.rise = true) : exec (.droopCrossing c) s = .next (setB (vfBlk c) 31 false
    (modClu c (fun x => { x with move := none, raised := true }) (addReg (pwrBlk + 0x24) 1 (setVolt c m.back a)))) := by
  subst ha
  show execDroopCrossing c s = _
  simp only [execDroopCrossing, hfree, hon, Bool.not_true, Bool.false_eq_true, or_self, if_false, getClu_markFree, getClu_addReg, getClu_setB, hmove, hrise, if_true]

section
variable (hfall : m.rise = false)
include hfall

/-- A fall that a forced PF asks for goes on (R600). -/
theorem execDroopCrossing_forced (hforced : forcedPf a c = true) : exec (.droopCrossing c) s = .next a := by
  subst ha
  show execDroopCrossing c s = _
  simp only [execDroopCrossing, hfree, hon, Bool.not_true, Bool.false_eq_true, or_self, if_false, getClu_markFree, getClu_addReg, getClu_setB, hmove, hfall, hforced, if_true]

/-- The voltage of another fall returns and waits (R599). -/
theorem execDroopCrossing_holds (hforced : forcedPf a c = false) :
    exec (.droopCrossing c) s = .next (setVolt c m.back (modClu c (fun x => { x with move := some { m with held := true } }) a)) := by
  subst ha
  show execDroopCrossing c s = _
  simp only [execDroopCrossing, hfree, hon, Bool.not_true, Bool.false_eq_true, or_self, if_false, getClu_markFree, getClu_addReg, getClu_setB, hmove, hfall, hforced]
end
end
end

section
variable {n : Nat} (hstretch : getB s (vfBlk c) 30 = true) (ha : capturePort c (addReg (vfBlk c + 0x14) n (setB (vfBlk c) 30 false s)) = a)
include hstretch ha

/-- The end of a stretch is counted, and its waiting rows are captured (R341). -/
theorem execDroopRelease_still (hmove : (getClu s c).move = none) : exec (.droopRelease c n) s = .next a := by
  subst ha
  show execDroopRelease c n s = _
  simp only [execDroopRelease, hstretch, Bool.not_true, Bool.false_eq_true, if_false, getClu_capturePort, getClu_addReg, getClu_setB, hmove]

/-- The voltage of a fall that was held moves (R599). -/
theorem execDroopRelease_moves {m : VfMove} (hmove : (getClu s c).move = some m) : exec (.droopRelease c n) s =
    .next (if m.held then setVolt c (setPoint a c m.step) (modClu c (fun x => { x with move := some { m with held := false } }) a) else a) := by
  subst ha
  show execDroopRelease c n s = _
  simp only [execDroopRelease, hstretch, Bool.not_true, Bool.false_eq_true, if_false, getClu_capturePort, getClu_addReg, getClu_setB, hmove]
end
end

/-! ### Measurement -/

section
variable {s : State} (hacts : firmwareActs s = true)
include hacts

section
variable (hthere : bit (paramIn (listsOf s) 0x10 0) 31 = true)
include hthere

/-- A regulator that answers holds its last words (R601). -/
theorem execPmbusPoll_reads (l : List Nat) :
    exec (.pmbusPoll [some l]) s = .next (modSup (fun u => { u with regs := kvPut (fun _ => {}) u.regs 0 { words := l } }) s) := by
  have hlist : ([some l].take 8).zip (List.range 8) = [(some l, 0)] := rfl
  show execPmbusPoll [some l] s = _
  simp only [execPmbusPoll, hacts, hlist, hthere, Bool.not_true, Bool.false_eq_true, if_false, List.foldl_cons, List.foldl_nil, Nat.add_zero]

/-- A third failed read in a row loses a regulator (R602). -/
theorem execPmbusPoll_loses {r : Regulator} (hr : kvGet (fun _ => {}) s.sup.regs 0 = r) (hfails : r.fails = 2) (hlost : r.lost = false) :
    exec (.pmbusPoll [none]) s = .next (report 0x404 (oHub 2 0) fnDevice 0
      (modSup (fun u => { u with regs := kvPut (fun _ => {}) u.regs 0 { r with fails := 3, lost := true } }) s)) := by
  have hlist : (([none] : List (Option (List Nat))).take 8).zip (List.range 8) = [(none, 0)] := rfl
  show execPmbusPoll [none] s = _
  simp only [execPmbusPoll, hacts, hlist, hthere, Bool.not_true, Bool.false_eq_true, if_false, List.foldl_cons, List.foldl_nil, Nat.add_zero,
    hr, hfails, hlost, Bool.not_false, and_self, if_true, Nat.reduceAdd, min_self, Bool.false_or, le_refl, decide_true]
end

/-- The gain is the quotient of the two powers within 0.95 to 1.05, and without converter power a free value within them (R602, log 33). -/
theorem execPmbusGain_gains (hregs : s.sup.regs.any (fun e => e.2.lost) = false) (p c : Nat) : exec (.pmbusGain p c) s =
    .next (setF (pwrBlk + 0x1C) 0 16 (max 31130 (min 34406 (if c = 0 then (Config.freeValue s.frees).toNat else 32768 * p / c))) (if c = 0 then bumpFree s else s)) := by
  show execPmbusGain p c s = _
  simp only [execPmbusGain, hregs, hacts, Bool.not_true, Bool.or_self, Bool.false_eq_true, if_false]

section
variable {n : Fin 96} {e : Nat} (hready : s.hub.readyAt + 1000000000 ≤ s.now)
include hready

/-- An estimate of one quadrant within 1.25 times the model is stored (R603). -/
theorem execRinWindow_sound (hle : 4 * e ≤ 5 * getF s (pwrBlk + 0x1400 + 4 * n) 14 14) :
    let o := pwrBlk + 0x1400 + 4 * n
    let a := setF o 0 14 (min e 0x3FFF) s
    exec (.rinWindow n [some e, none, none, none]) s = .next (if 2 * getF s o 14 14 < e then setB o 30 true a else a) := by
  have hgo : (!firmwareActs s || decide (s.now < s.hub.readyAt + 1000000000)) = false := by simp [hacts, hready]
  have hlist : ((([some e, none, none, none] : List (Option Nat)).take 4).zip (List.range 4)).filterMap (fun (x, q) => x.map (fun e => (e, q))) = [(e, 0)] := rfl
  show execRinWindow n [some e, none, none, none] s = _
  simp only [execRinWindow, hgo, hlist, List.foldl_cons, List.foldl_nil, Nat.not_lt.2 hle, Bool.false_eq_true, if_false]

/-- One above it is stored, marks its quadrant and is reported (R604). -/
theorem execRinWindow_cracked (hlt : 5 * getF s (pwrBlk + 0x1400 + 4 * n) 14 14 < 4 * e) :
    let o := pwrBlk + 0x1400 + 4 * n
    let b := setF o 28 2 0 (setB o 31 true (setF o 0 14 (min e 0x3FFF) s))
    exec (.rinWindow n [some e, none, none, none]) s = .next (report 0x403 (oDomain n 0) fnDevice e (if 2 * getF s o 14 14 < e then setB o 30 true b else b)) := by
  have hgo : (!firmwareActs s || decide (s.now < s.hub.readyAt + 1000000000)) = false := by simp [hacts, hready]
  have hlist : ((([some e, none, none, none] : List (Option Nat)).take 4).zip (List.range 4)).filterMap (fun (x, q) => x.map (fun e => (e, q))) = [(e, 0)] := rfl
  show execRinWindow n [some e, none, none, none] s = _
  simp only [execRinWindow, hgo, hlist, List.foldl_cons, List.foldl_nil, hlt, Bool.false_eq_true, if_false, if_true]
end
end

/-! ### Regulator alerts -/

section
variable {i : Fin 4} {t : Nat} {s u : State} (hu : { s with now := max s.now t } = u)
include hu

/-- An alert that comes forces every cluster to PF, and is counted and recorded (R612). -/
theorem execVrAlert_comes (hwas : getB u pwrBlk (20 + i) = false) : exec (.vrAlert i true t) s =
    .next (applyForce (modHub (fun h => { h with vrAlerts := h.vrAlerts + 1 }) (report 0x401 (oHub 2 i) fnDevice 0 (addReg (pwrBlk + 0x28) 1
      (modSup (fun u => { u with alertEnd := none }) (setB pwrBlk 31 true (setB pwrBlk (20 + i) true u))))))) := by
  subst hu
  show execVrAlert i true t s = _
  simp only [execVrAlert, hwas, Bool.false_eq_true, if_false, if_true]

/-- An alert that stays only forces. -/
theorem execVrAlert_stays (hwas : getB u pwrBlk (20 + i) = true) : exec (.vrAlert i true t) s =
    .next (applyForce (modSup (fun u => { u with alertEnd := none }) (setB pwrBlk 31 true (setB pwrBlk (20 + i) true u)))) := by
  subst hu
  show execVrAlert i true t s = _
  simp only [execVrAlert, hwas, if_true]

/-- When the last alert goes, the time until the forced PF ends begins. -/
theorem execVrAlert_goes (hwas : getB u pwrBlk (20 + i) = true) : exec (.vrAlert i false t) s =
    .next (if getF (setB pwrBlk (20 + i) false u) pwrBlk 20 4 = 0 then modSup (fun x => { x with alertEnd := some (max s.now t) }) (setB pwrBlk (20 + i) false u)
      else setB pwrBlk (20 + i) false u) := by
  subst hu
  show execVrAlert i false t s = _
  simp only [execVrAlert, hwas, Bool.false_eq_true, if_false, true_and, setB_now]

/-- 1 ms after the last alert has gone the forced PF ends. -/
theorem execVrAlertRelease_releases {e : Nat} (hend : s.sup.alertEnd = some e) (hdue : e + 1000000 ≤ max s.now t) (hgone : getF u pwrBlk 20 4 = 0) :
    exec (.vrAlertRelease t) s = .next (setB pwrBlk 31 false (modSup (fun x => { x with alertEnd := none }) u)) := by
  subst hu
  show execVrAlertRelease t s = _
  simp only [execVrAlertRelease, hend, hdue, hgone, and_self, if_true]
end

/-- Settles O51: the loops of a window, and each event by its rule above. -/
theorem powerEventsAct : Obligations.PowerEventsAct := by
  refine ⟨fun _ _ => rfl, fun w t s hbt => ?_, fun _ _ hmove hon hcur => execVfTransition_falls hmove hon hcur,
    fun _ _ hmove hon hcur hstretch hraised => execVfTransition_rises hmove hon hcur hstretch hraised,
    fun _ _ _ hon => ⟨fun hn => execVoltageSettled_other hon hn, fun hn hmove => execVoltageSettled_still hon hn hmove,
      fun _ hn hmove hheld => execVoltageSettled_held hon hn hmove hheld, fun _ hn hmove hheld => execVoltageSettled_ends hon hn hmove hheld⟩,
    fun _ _ hfree hon => ⟨fun hmove => execDroopCrossing_still hfree hon rfl hmove, fun _ hmove hrise => execDroopCrossing_aborts hfree hon rfl hmove hrise,
      fun _ hmove hfall hforced => execDroopCrossing_forced hfree hon rfl hmove hfall hforced,
      fun _ hmove hfall hforced => execDroopCrossing_holds hfree hon rfl hmove hfall hforced⟩,
    fun _ _ _ hstretch => ⟨fun hmove => execDroopRelease_still hstretch rfl hmove, fun _ hmove => execDroopRelease_moves hstretch rfl hmove⟩,
    fun l s hacts hthere => .of_exec (execPmbusPoll_reads hacts hthere l) (kvGet_kvPut_same _ _ _ _), fun s hacts hthere => ?_, fun p c s hacts hregs => ?_,
    fun _ _ _ hacts hready => ⟨fun hle => execRinWindow_sound hacts hready hle, fun hlt => execRinWindow_cracked hacts hready hlt⟩,
    fun _ _ _ => ⟨fun hwas => execVrAlert_comes rfl hwas, fun hwas => execVrAlert_stays rfl hwas⟩, fun _ _ _ hwas => execVrAlert_goes rfl hwas,
    fun _ _ _ hend hdue hgone => execVrAlertRelease_releases rfl hend hdue hgone⟩
  · -- a tower's loop
    have hk := towerLoop_keeps w t s
    exact ⟨towerLoop_b hbt, hk.sameMem rfl, hk.sameJobs rfl⟩
  · -- a regulator that is lost
    intro r hfails hlost
    obtain ⟨t, ht, hk, hp⟩ := Gives.of_exec (execPmbusPoll_loses hacts hthere rfl hfails hlost)
      (p := fun t => (kvGet (fun _ => ({} : Regulator)) t.sup.regs 0).lost = true) (congrArg Regulator.lost (kvGet_kvPut_same _ _ _ _))
    exact ⟨t, ht, hk.mono (by decide), hp⟩
  · -- the gain
    have hreg (o : Nat) : rawReg (if c = 0 then bumpFree s else s) o = rawReg s o := by
      split
      · rw [rawReg, bumpFree_regs, rawReg]
      · rfl
    generalize hq : (if c = 0 then (Config.freeValue s.frees).toNat else 32768 * p / c) = q
    have hfit : max 31130 (min 34406 q) < 2 ^ 16 := by omega
    refine .of_exec (execPmbusGain_gains hacts hregs p c) ?_
    rw [hq, getF_setF_same _ _ _ (by decide), Nat.mod_eq_of_lt hfit]
    refine ⟨fun o ho => ?_, le_max_left _ _, by omega, fun hc => ?_⟩
    · rw [rawReg_setF, if_neg ho, hreg]
    · rw [← hq, if_neg hc]

end Sys2Proof.Machine
end

section
/-!
Hub firmware: life counters, the watchdog, switches, unit tests, leaving service, and life-cycle tokens (R647 to R650, R654, R656, R659, R661, R693).
A token's check is one command (log 30), and a port that returns drives its reference clocks (log 27).
-/
namespace Sys2Proof.Machine

/-! ### Life counters and leaving service -/

section
variable {s : State}

/-- A day that meets no threshold of life used only renews the two measures (R659). -/
theorem execLifeDay_unmet (hused : max (min 65535 (lifeT s.hub.tjHours)) (min 65535 (lifeC s)) < 5000) : exec .lifeDay s =
    .next (modHub (fun h => { h with lifeT := min 65535 (lifeT s.hub.tjHours), lifeC := min 65535 (lifeC s), thresholds := h.thresholds }) s) := by
  have hnone : ([5000, 8000, 10000] : List Nat).filter (fun x => decide (x ≤ max (min 65535 (lifeT s.hub.tjHours)) (min 65535 (lifeC s)))) = [] := by
    rw [List.filter_eq_nil_iff]
    simp only [List.mem_cons, List.not_mem_nil, or_false, decide_eq_true_eq]
    omega
  show execLifeDay s = _
  simp only [execLifeDay, hnone, List.length_nil, Nat.zero_sub, Nat.max_zero, List.range_zero, List.foldl_nil]

/-- A device that leaves service ends its jobs, switches its clusters off and shows it (R648). -/
theorem execOutOfService_leaves (hout : s.hub.outPending = true) : exec .outOfService s = .next (
    let u := pinDrive 25 false (setB 0x200 29 false (setB 0x200 30 false (setB 0x200 31 true ((List.range 64).foldl (fun s c => clusterOff c s)
      (endAllJobs (modPace (fun p => { p with leave := true }) (modHub (fun h => { h with outPending := false }) s)))))))
    stateEvent 2 1 (report 0x506 oDevice fnDevice u.hub.outCause u)) := by
  show execOutOfService s = _
  simp only [execOutOfService, hout, Bool.not_true, Bool.false_eq_true, if_false]

theorem execOutOfService_idle (hout : s.hub.outPending = false) : exec .outOfService s = .next s := by
  show execOutOfService s = _
  simp only [execOutOfService, hout, Bool.not_false, if_true]

/-! ### The watchdog -/

/-- Within 10 ms of a kick the watchdog does not expire (R649). -/
theorem execWatchdog_kicked {t : Nat} (hrun : s.hub.running = true) (hhalt : s.hub.halted = false) (hkick : max s.now t < s.hub.lastKick + 10000000) :
    exec (.watchdog t) s = .next { s with now := max s.now t } := by
  show execWatchdog t s = _
  simp only [execWatchdog, hrun, hhalt, hkick, Bool.not_true, Bool.false_or, decide_true, if_true]

/-! ### Firmware images -/

/-- FW_READY of an image that nobody waits for does nothing. -/
theorem execFwReady_idle (hboot : s.hub.booting = none) : exec .fwReady s = .next s := by
  show execFwReady s = _
  simp only [execFwReady, hboot]

section
variable {k : Nat} (hboot : s.hub.booting = some k)
include hboot

/-- The new image of a switch takes over and replies (R654). -/
theorem execFwReady_switched {h : CmdHdr} (hby : s.hub.switchBy = some h) : exec .fwReady s = .next (
    let a := modHub (fun x => { x with switchBy := none, switches := x.switches + 1 }) (setB 0x708 28 false (fwRuns s))
    let b := noteFw k 1 (report 0x502 (oHub 0 0) fnDevice (slotOf a k).build a)
    finish h 0x85 stOk 0 b.hub.switchAt 0 (raiseSvn (showFw b))) := by
  show execFwReady s = _
  simp only [execFwReady, hboot, hby]

/-- After a watchdog's expiry the restarted image ends every job (R650). -/
theorem execFwReady_restarted (hby : s.hub.switchBy = none) : exec .fwReady s = .next (endAllJobs (noteFw k 3 (showFw (fwRuns s)))) := by
  show execFwReady s = _
  simp only [execFwReady, hboot, hby]

/-- A switch that fails goes back to the previous image, with the staged slot invalid and the failure recorded (R656). -/
theorem revertSwitch_reverts {h : CmdHdr} (hby : s.hub.switchBy = some h) : revertSwitch s = (
    let a := setSlot k FwSlot.none (modHub (fun x => { x with active := x.previous, switchBy := none }) s)
    let b := showFw (setB 0x708 28 false (fwRuns a))
    fail h 0x85 stFwError (noteFw b.hub.active 2 (report 0x503 (oHub 0 0) fnDevice (slotOf s k).build b))) := by
  simp only [revertSwitch, hboot, hby]
end

/-- Without a switch there is nothing to revert. -/
theorem revertSwitch_idle (hby : s.hub.switchBy = none) : revertSwitch s = s := by
  cases hboot : s.hub.booting with
  | none => simp only [revertSwitch, hboot]
  | some k => simp only [revertSwitch, hboot, hby]

/-! ### Unit tests -/

/-- A test that is not in progress does not end. -/
theorem execUnitTestDone_idle {k i : Nat} {l : List Nat} {sw : List (Nat × Nat)} (hnone : s.hub.testing.find? (fun e => decide (e.1 = k ∧ e.2.1 = i)) = none) :
    exec (.unitTestDone k i l sw) s = .next s := by
  show execUnitTestDone k i l sw s = _
  simp only [execUnitTestDone, hnone]

section
variable {i : Nat} {sw : List (Nat × Nat)} {e : Nat × Nat × Nat × CmdHdr} (he : s.hub.testing.find? (fun e => decide (e.1 = 4 ∧ e.2.1 = i)) = some e)
include he

/-- A far-memory port whose expanders pass is in service again, with its clocks running (R647). -/
theorem execUnitTestDone_port_passes : exec (.unitTestDone 4 i [] sw) s = .next (finish e.2.2.2 0x81 stOk 0 e.2.2.1 0 (driveRefclk i true
    (setB (cxlBlk i) 31 true (setUnitOut 4 i false (modHub (fun h => { h with testing := h.testing.filter (fun x => !decide (x.1 = 4 ∧ x.2.1 = i)) }) s))))) := by
  show execUnitTestDone 4 i [] sw s = _
  rw [execUnitTestDone, he]
  simp

/-- A far-memory port whose expanders fail stays out, and the failure is recorded. -/
theorem execUnitTestDone_port_fails (x : Nat) (l : List Nat) : exec (.unitTestDone 4 i (x :: l) sw) s = .next (fail e.2.2.2 0x81 stFwError
    (report 0x505 (oCxl i 0) fnDevice (x :: l).length (modHub (fun h => { h with testing := h.testing.filter (fun x => !decide (x.1 = 4 ∧ x.2.1 = i)) }) s))) := by
  show execUnitTestDone 4 i (x :: l) sw s = _
  rw [execUnitTestDone, he]
  simp
end

/-! ### Life-cycle tokens -/

section
variable (hok : (readSpan s { fn := 0, org := oHub 0 0 } (reg64 s (secBlk + 4)) 320).ok = true)
include hok

/-- A token off its boundary is refused as bad (R693). -/
theorem execSecLcCtrl_unaligned (hoff : reg64 s (secBlk + 4) % 64 ≠ 0) :
    exec (.secLcCtrl 1#32) s = .next (freshNonce (setF secBlk 28 3 2 (bumpFree s))) := by
  show execSecLcCtrl 1#32 s = _
  simp only [execSecLcCtrl, hok, hoff, ne_eq, not_true_eq_false, not_false_eq_true, true_or, if_true, if_false, show ¬ (2 : Nat) = 1 by decide]

/-- A token that can be read has its result, and an accepted one its change of state, with the owner key that it brings. -/
theorem execSecLcCtrl_checks (hat : reg64 s (secBlk + 4) % 64 = 0) :
    let l := (readSpan s { fn := 0, org := oHub 0 0 } (reg64 s (secBlk + 4)) 320).data
    let key := (l.drop 48).take 96
    let a := setF secBlk 28 3 (tokenResult s l) (bumpFree s)
    exec (.secLcCtrl 1#32) s = .next (freshNonce (if tokenResult s l = 1 then changeState (field l 7 1) (if zeroBytes key then a else addOwner key a) else a)) := by
  dsimp only
  show execSecLcCtrl 1#32 s = _
  simp only [execSecLcCtrl, hok, hat, ne_eq, not_true_eq_false, Bool.true_eq_false, or_self, if_true, if_false, ite_not]
end
end

/-- Settles O54: each event by its rule above. -/
theorem hubEventsAct : Obligations.HubEventsAct :=
  ⟨fun _ _ _ _ => .of_exec rfl ⟨rfl, rfl, rfl, rfl⟩, fun _ hused => execLifeDay_unmet hused, fun _ hout => execOutOfService_idle hout,
    fun _ hout => execOutOfService_leaves hout, fun _ _ _ hd => congrArg Host.Outcome.next (if_neg hd), fun _ _ => .of_exec rfl ⟨rfl, rfl⟩,
    fun _ _ hrun hhalt hkick => execWatchdog_kicked hrun hhalt hkick, fun _ hboot => execFwReady_idle hboot,
    fun _ _ _ hboot hby => execFwReady_switched hboot hby, fun _ _ hboot hby => execFwReady_restarted hboot hby,
    fun _ hby => ⟨congrArg Host.Outcome.next (revertSwitch_idle hby), congrArg Host.Outcome.next (revertSwitch_idle hby)⟩,
    fun _ _ _ hboot hby => ⟨congrArg Host.Outcome.next (revertSwitch_reverts hboot hby), congrArg Host.Outcome.next (revertSwitch_reverts hboot hby)⟩,
    fun _ _ _ _ _ hnone => execUnitTestDone_idle hnone, fun _ _ _ _ he => ⟨execUnitTestDone_port_passes he, execUnitTestDone_port_fails he⟩,
    fun _ _ hd => congrArg Host.Outcome.next (if_pos hd), fun _ hoff hok => execSecLcCtrl_unaligned hok hoff, fun _ hat hok => execSecLcCtrl_checks hok hat⟩

end Sys2Proof.Machine
end

section
/-!
Bring-up, warm reset and recovery (R667 to R679, R690).
-/
namespace Sys2Proof.Machine

/-! ### Starts -/

section
variable {s : State}

/-- A cold bring-up starts when the supplies return to a device that does nothing (R667). -/
theorem execColdBringup_starts (hlost : s.hub.vauxLost = true) (hstage : s.hub.stage = none) (hrec : s.hub.recovery = false) (hrun : s.hub.running = false) :
    exec .coldBringup s = .next (coldStart s) := by
  show execColdBringup s = _
  rw [execColdBringup, hlost, hstage, hrec, hrun]
  rfl

/-- A device whose firmware runs starts no cold bring-up. -/
theorem execColdBringup_running (hrun : s.hub.running = true) : exec .coldBringup s = .next s := by
  show execColdBringup s = _
  rw [execColdBringup, hrun, Bool.not_true, Bool.and_false, if_neg Bool.false_ne_true]

/-- A warm reset starts at stage 1 and puts configuration requests off (R676). -/
theorem execWarmReset_starts (hrun : s.hub.running = true) (hstage : s.hub.stage ≠ some 0) (hrec : s.hub.recovery = false) : exec .warmReset s =
    .next (emit (.configRetry true) (modHub (fun h => { h with stage := some 1, fast := true }) (showStage 1 (resetState true s)))) := by
  have hgo : ¬ (s.hub.stage = some 0 ∨ s.hub.recovery = true) := not_or.2 ⟨hstage, Bool.eq_false_iff.1 hrec⟩
  show execWarmReset s = _
  rw [execWarmReset, hrun, Bool.not_true, Bool.and_false, if_neg Bool.false_ne_true, if_neg hgo]
end

/-! ### Stages -/

/-- No stage ends in recovery or outside bring-up. -/
theorem execBringupStage_idle (f : StageFindings) {s : State} (h : s.hub.recovery = true ∨ s.hub.stage = none) : exec (.bringupStage f) s = .next s := by
  show execBringupStage f s = _
  rcases h with h | h
  · rw [execBringupStage, if_pos h]
  · rw [execBringupStage, h, ite_self]

section
variable {f : StageFindings} {s t : State} (hrec : s.hub.recovery = false)
include hrec

/-- A stage that may end leads to the next one, on the state that its time and its findings leave (R667). -/
theorem execBringupStage_stage0 (hk : s.hub.stage = some 0) (h : stage0 f (stageTime f s) = some t) : exec (.bringupStage f) s = .next (stageTurn 0 t) := by
  show execBringupStage f s = _
  simp [execBringupStage, hrec, hk, h]

/-- Stage 0 goes on without the rails that it waits for. -/
theorem execBringupStage_stage0_waits (hk : s.hub.stage = some 0) (h : f.rails % 8 ≠ 7) :
    exec (.bringupStage f) s = .next (setRails f.rails (stageTime f s)) := by
  have hnone : stage0 f (stageTime f s) = none := if_pos h
  show execBringupStage f s = _
  simp [execBringupStage, hrec, hk, hnone]

theorem execBringupStage_stage1 (hk : s.hub.stage = some 1) (h : (stage1 f (stageTime f s)).hub.recovery = false) :
    exec (.bringupStage f) s = .next (stageTurn 1 (stage1 f (stageTime f s))) := by
  show execBringupStage f s = _
  simp [execBringupStage, hrec, hk, h]

theorem execBringupStage_stage2 (hk : s.hub.stage = some 2) (h : stage2 f (stageTime f s) = some t) : exec (.bringupStage f) s = .next (stageTurn 2 t) := by
  show execBringupStage f s = _
  simp [execBringupStage, hrec, hk, h]

theorem execBringupStage_stage3 (hk : s.hub.stage = some 3) : exec (.bringupStage f) s = .next (stageTurn 3 (stage3 f (stageTime f s))) := by
  show execBringupStage f s = _
  simp [execBringupStage, hrec, hk]

theorem execBringupStage_stage4 (hk : s.hub.stage = some 4) : exec (.bringupStage f) s = .next (stageTurn 4 (stage4 f (stageTime f s))) := by
  show execBringupStage f s = _
  simp [execBringupStage, hrec, hk]

theorem execBringupStage_stage5 (hk : s.hub.stage = some 5) : exec (.bringupStage f) s = .next (stageTurn 5 (stage5 f (stageTime f s))) := by
  show execBringupStage f s = _
  simp [execBringupStage, hrec, hk]

/-- Stage 6 ends bring-up. -/
theorem execBringupStage_stage6 (hk : s.hub.stage = some 6) : exec (.bringupStage f) s = .next (stage6 (stageTime f s)) := by
  show execBringupStage f s = _
  simp [execBringupStage, hrec, hk]
end

/-- The stage that follows is in progress, and BRG_STATUS shows it. -/
theorem stageTurn_shows (k : Nat) (s : State) : (stageTurn k s).hub.stage = some (k + 1) ∧ getF (stageTurn k s) fuseBlk 20 4 = (k + 1) % 16 :=
  ⟨rfl, getF_setF_same _ _ _ (by decide)⟩

/-! ### Recovery -/

/-- BRG_REC_GO acts on a write of 1 in recovery alone. -/
theorem execBrgRecGo_idle {d : Word} {s : State} (h : d ≠ 1#32 ∨ s.hub.recovery = false) : exec (.brgRecGo d) s = .next s :=
  congrArg Host.Outcome.next (if_pos (by simpa [or_comm] using h))

/-- In recovery an image that verifies becomes slot A's, and the cold bring-up restarts; another changes nothing (R690). -/
theorem execBrgRecGo_starts {s : State} (hrec : s.hub.recovery = true) (hfits : 64 + field (recoveryBytes s 20) 16 4 + 96 ≤ 2 ^ 24) :
    let l := recoveryBytes s (64 + field (recoveryBytes s 20) 16 4 + 96)
    exec (.brgRecGo 1#32) s = .next (if fwVerifies s l then coldStart (modHub (fun h => { h with active := 0 }) (setSlot 0 (fwSlotOf l) s)) else s) := by
  have hgo : ¬ ((!s.hub.recovery || decide (1#32 ≠ 1#32)) = true) := by simp [hrec]
  show execBrgRecGo 1#32 s = _
  rw [execBrgRecGo, if_neg hgo]
  exact congrArg Host.Outcome.next (if_neg (Nat.not_lt.2 hfits))

/-- Settles O55: the starts, the stages in their order, and recovery, each by its rule above. -/
theorem bringupProceeds : Obligations.BringupProceeds :=
  ⟨fun _ hlost hstage hrec hrun => execColdBringup_starts hlost hstage hrec hrun, fun _ hrun _ _ => execColdBringup_running hrun,
    fun _ hrun hstage hrec => execWarmReset_starts hrun hstage hrec, fun f _ h => execBringupStage_idle f h,
    fun _ _ hrec hk h => execBringupStage_stage0_waits hrec hk h, fun _ _ _ hrec hk h => execBringupStage_stage0 hrec hk h,
    fun _ _ hrec hk h => execBringupStage_stage1 hrec hk h, fun _ _ _ hrec hk h => execBringupStage_stage2 hrec hk h,
    fun _ _ hrec hk => execBringupStage_stage3 hrec hk, fun _ _ hrec hk => execBringupStage_stage4 hrec hk,
    fun _ _ hrec hk => execBringupStage_stage5 hrec hk, fun _ _ hrec hk => execBringupStage_stage6 hrec hk,
    stageTurn_shows, fun _ _ h => execBrgRecGo_idle h, fun _ hrec hfits => execBrgRecGo_starts hrec hfits⟩

end Sys2Proof.Machine
end

section
/-!
Supplies, the outputs that read themselves back, and the tamper input (R696, R717, R718, R726).
-/
namespace Sys2Proof.Machine

/-! ### Supplies -/

section
variable {s : State}

/-- VPKG fails while VPKG_EN asks for it, and no failure is in progress (R717). -/
theorem execVpkgUndervoltage_down (hon : getB s 0x800 24 = true) (hoff : s.pins.offAt = none) : exec .vpkgUndervoltage s = .next (vpkgDown s) :=
  congrArg Host.Outcome.next (if_pos (by rw [hon, hoff]; rfl))

/-- A rail that VPKG_EN does not ask for does not fail. -/
theorem execVpkgUndervoltage_unasked (hon : getB s 0x800 24 = false) : exec .vpkgUndervoltage s = .next s :=
  congrArg Host.Outcome.next (if_neg (by rw [hon]; exact Bool.false_ne_true))

/-- 100 ms after VPKG fell, VPKG_EN asks for it again and bring-up goes on from stage 2 (R717). -/
theorem execVpkgRestart_restarts {t a : Nat} (hoff : s.pins.offAt = some a) (hdue : a + 100000000 ≤ max s.now t) (hrun : s.hub.running = true) :
    exec (.vpkgRestart t) s = .next (showStage 2 (modHub (fun h => { h with stage := some 2, fast := false })
      (modScribe (fun x => { x with consuming := false }) (setB fuseBlk 30 false (setB fuseBlk 31 false
        (modPins (fun p => { p with offAt := none }) (pinDrive 24 true { s with now := max s.now t }))))))) := by
  have hgo : ¬ (max s.now t < a + 100000000 ∨ s.hub.running = false) := not_or.2 ⟨Nat.not_lt.2 hdue, by rw [hrun]; decide⟩
  show execVpkgRestart t s = _
  simp only [execVpkgRestart, hoff, if_neg hgo]
end

/-! ### Outputs -/

section
variable {s : State}

/-- An output that is three-stated has no readback to compare (R726). -/
theorem execPinReadback_off {o : Fin 2} {l : Bool} (hoff : getB (setB 0x800 (26 + offBit o) l s) 0x800 (offBit o) = true) : exec (.pinReadback o l) s =
    .next (modPins (fun p => if o = 0 then { p with readyBad := 0 } else { p with enBad := 0 }) (setB 0x800 (26 + offBit o) l s)) := by
  show execPinReadback o l s = _
  simp [execPinReadback, hoff]

/-- The third readback of READY in a row that differs three-states it, and is counted (R726). -/
theorem execPinReadback_third {l : Bool} {t : State} (ht : setB 0x800 (26 + offBit 0) l s = t) (hbad : t.pins.readyBad = 2)
    (hdiff : (!getB t 0x800 (offBit 0) && (l != getB t 0x800 (24 + offBit 0))) = true) : exec (.pinReadback 0 l) s =
    .next (threeState 0 (addReg 0x804 1 (modPins (fun p => { p with readyBad := 0 }) t))) := by
  subst ht
  show execPinReadback 0 l s = _
  simp only [execPinReadback, Fin.val_zero, hdiff, if_true, hbad, Nat.reduceAdd]

section
variable {d : Word}

/-- OFF bits written 0 drive both outputs again (Table 17.12). -/
theorem execPinOffWrite_drives (h0 : d.getLsbD (offBit 0) = false) (h1 : d.getLsbD (offBit 1) = false) :
    exec (.pinOffWrite d) s = .next (setB 0x800 (offBit 1) false (setB 0x800 (offBit 0) false s)) := by
  show execPinOffWrite d s = _
  simp only [execPinOffWrite, List.foldl_cons, List.foldl_nil, h0, h1, Bool.false_eq_true, if_false]

/-- OFF bits written 1 three-state the outputs that are driven. -/
theorem execPinOffWrite_threeStates (h0 : d.getLsbD (offBit 0) = true) (hon0 : getB s 0x800 (offBit 0) = false) (h1 : d.getLsbD (offBit 1) = true)
    (hon1 : getB (threeState 0 s) 0x800 (offBit 1) = false) : exec (.pinOffWrite d) s = .next (threeState 1 (threeState 0 s)) := by
  show execPinOffWrite d s = _
  simp only [execPinOffWrite, List.foldl_cons, List.foldl_nil, h0, h1, hon0, hon1, Bool.false_eq_true, if_false, if_true]
end
end

/-! ### Tamper -/

section
variable {s : State}

/-- An input that is still asserted is no new event. -/
theorem execTamper_again (hset : getB s (secBlk + 0x30) 31 = true) : exec (.tamper true) s = .next s := by
  show execTamper true s = _
  rw [execTamper, tamperLevel, Bool.not_true, if_neg Bool.false_ne_true, if_pos hset]

/-- A tamper event of a deployed device is counted and suspends it (R696). -/
theorem execTamper_suspends (hclear : getB s (secBlk + 0x30) 31 = false) (hdep : lifeState s = 2) : exec (.tamper true) s =
    .next (changeState 3 (setB (secBlk + 0x30) 31 true (setF (secBlk + 0x30) 0 16 (min 0xFFFF (getF s (secBlk + 0x30) 0 16 + 1)) s))) := by
  have hstate : lifeState (setB (secBlk + 0x30) 31 true (setF (secBlk + 0x30) 0 16 (min 0xFFFF (getF s (secBlk + 0x30) 0 16 + 1)) s)) = 2 := by
    rw [← hdep]
    exact (getF_setF_other _ _ _ _ (by decide) (.inl (by decide))).trans (getF_setF_other _ _ _ _ (by decide) (.inl (by decide)))
  show execTamper true s = _
  simp only [execTamper, tamperLevel, hclear, hstate, Bool.not_true, Bool.false_eq_true, if_false, if_true]
end

/-- Settles O56: each event by its rule above. -/
theorem pinsAndSuppliesAct : Obligations.PinsAndSuppliesAct :=
  ⟨fun _ hon hoff => execVpkgUndervoltage_down hon hoff, fun _ hon => execVpkgUndervoltage_unasked hon,
    fun _ _ _ hoff hdue hrun => execVpkgRestart_restarts hoff hdue hrun, fun _ => ⟨rfl, rfl, rfl, rfl, rfl, rfl⟩, fun _ _ _ hoff => execPinReadback_off hoff,
    fun s hoff hlow hbad => execPinReadback_third rfl (by rw [setB_pins, hbad]) (by rw [hoff, hlow]; rfl), fun _ _ h0 h1 => execPinOffWrite_drives h0 h1,
    fun _ _ h0 hon0 h1 hon1 => execPinOffWrite_threeStates h0 hon0 h1 hon1, fun _ => rfl, fun _ hset => execTamper_again hset,
    fun _ hclear hdep => execTamper_suspends hclear hdep⟩

end Sys2Proof.Machine
end

section
/-!
Management requests (R698 to R702). The layouts of SPDM, MCTP and PLDM messages are the model's presumption (log 20).
-/
namespace Sys2Proof.Machine

/-! ### SPDM -/

/-- A request that is taken has its row's effect. -/
theorem spdmAsk_taken {code least : Nat} {b : List Byte} {s : State} (h : spdmTaken code least b s) (act : State → State) :
    spdmAsk code least b act s = .next (act s) := by
  obtain ⟨hlen, hcode, hstate, hver⟩ := h
  have hver' : ¬ (s.sec.spdmVersion ≠ 0 ∧ field b 0 1 ≠ s.sec.spdmVersion) := fun ⟨h0, hne⟩ => hver.elim h0 hne
  rw [spdmAsk, if_neg (not_or.2 ⟨Nat.not_lt.2 hlen, not_not.2 hcode⟩), if_neg (Nat.not_lt.2 hstate), if_neg hver']

section
variable {b : List Byte} {s : State}

/-- GET_VERSION names versions 1.2 and 1.3, and the connection starts again. -/
theorem execGetVersion_answers (hlen : 4 ≤ b.length) (hcode : field b 1 1 = 0x84) (hver : field b 0 1 = 0x10) : exec (.getVersion b) s =
    .next (sendSpdm [0x10#8, 0x04#8, 0#8, 0#8, 0#8, 2#8, 0#8, 0x12#8, 0#8, 0x13#8] (modSec (fun x => { x with spdmState := 1, spdmVersion := 0 }) s)) := by
  show execGetVersion b s = _
  rw [execGetVersion, if_neg (not_or.2 ⟨Nat.not_lt.2 hlen, not_not.2 hcode⟩), if_neg (not_not.2 hver)]

/-- GET_CAPABILITIES fixes the version that it names. -/
theorem execGetCapabilities_answers (h : spdmTaken 0xE1 1 b s) (hver : field b 0 1 = 0x12 ∨ field b 0 1 = 0x13) : ∃ l, exec (.getCapabilities b) s =
    .next (bumpFree (sendSpdm (leBytes 1 (field b 0 1) ++ [0x61#8] ++ l) (modSec (fun x => { x with spdmState := 2, spdmVersion := field b 0 1 }) s))) := by
  have hagreed : ¬ (field b 0 1 ≠ 0x12 ∧ field b 0 1 ≠ 0x13) := fun ⟨h2, h3⟩ => hver.elim h2 h3
  show ∃ l, execGetCapabilities b s = _
  simp only [execGetCapabilities, spdmAsk_taken h, if_neg hagreed, List.append_assoc, List.cons_append, List.nil_append]
  exact ⟨_, rfl⟩

/-- GET_CERTIFICATE of slot 0 gives the part of its chain that the request names. -/
theorem execGetCertificate_answers (h : spdmTaken 0x82 3 b s) (hslot : field b 2 1 % 16 = 0) : exec (.getCertificate b) s =
    .next (sendSpdm (leBytes 1 s.sec.spdmVersion ++ [0x02#8, 0#8, 0#8] ++ leBytes 2 ((Config.certChain.drop (field b 4 2)).take (field b 6 2)).length ++
      leBytes 2 (Config.certChain.length - field b 4 2 - ((Config.certChain.drop (field b 4 2)).take (field b 6 2)).length) ++
      (Config.certChain.drop (field b 4 2)).take (field b 6 2)) s) := by
  show execGetCertificate b s = _
  rw [execGetCertificate, spdmAsk_taken h, if_neg (not_not.2 hslot)]

/-- CHALLENGE of slot 0 is answered with the chain's digest and a fresh nonce. -/
theorem execChallenge_answers (h : spdmTaken 0x83 3 b s) (hslot : field b 2 1 = 0) : ∃ l, exec (.challenge b) s =
    .next (bumpFree (sendSpdm (leBytes 1 s.sec.spdmVersion ++ [0x03#8, 0#8, 1#8] ++ sha384 Config.certChain ++ l)
      (modSec (fun x => { x with draws := x.draws + 1 }) s))) := by
  show ∃ l, execChallenge b s = _
  simp only [execChallenge, spdmAsk_taken h, if_neg (not_not.2 hslot), List.append_assoc]
  exact ⟨_, rfl⟩

/-- GET_MEASUREMENTS of a block, of all or of their number is answered with a fresh nonce. -/
theorem execGetMeasurements_answers (h : spdmTaken 0xE0 3 b s) (hix : field b 3 1 ≤ 8 ∨ field b 3 1 = 0xFF) : ∃ l, exec (.getMeasurements b) s =
    .next (bumpFree (sendSpdm (leBytes 1 s.sec.spdmVersion ++ [0x60#8] ++ l) (modSec (fun x => { x with draws := x.draws + 1 }) s))) := by
  have hgood : ¬ (8 < field b 3 1 ∧ field b 3 1 ≠ 0xFF) := by omega
  show ∃ l, execGetMeasurements b s = _
  simp only [execGetMeasurements, spdmAsk_taken h, if_neg hgood, List.append_assoc]
  exact ⟨_, rfl⟩

/-! ### MCTP and PLDM -/

/-- An endpoint ID that may be given is taken. -/
theorem execMctpControl_sets (hlen : 2 ≤ b.length) (hcmd : field b 1 1 = 1) (hlo : 8 ≤ field b 3 1) (hhi : field b 3 1 < 0xFF) : exec (.mctpControl b) s =
    .next (emit (.management 0 (leBytes 1 (field b 0 1 % 32) ++ leBytes 1 1 ++ ([0#8, 0#8] ++ leBytes 1 (field b 3 1) ++ [0#8]))) (modSec (fun x => { x with eid := field b 3 1 }) s)) := by
  show execMctpControl b s = _
  simp only [execMctpControl, if_neg (Nat.not_lt.2 hlen), hcmd, if_true, if_pos (And.intro hlo hhi)]

/-- The endpoint ID is read back. -/
theorem execMctpControl_reads (hlen : 2 ≤ b.length) (hcmd : field b 1 1 = 2) : exec (.mctpControl b) s =
    .next (emit (.management 0 (leBytes 1 (field b 0 1 % 32) ++ leBytes 1 2 ++ ([0#8] ++ leBytes 1 s.sec.eid ++ [0#8, 0#8]))) s) := by
  show execMctpControl b s = _
  simp only [execMctpControl, if_neg (Nat.not_lt.2 hlen), hcmd, show ¬ (2 : Nat) = 1 by decide, if_false, if_true]
end

/-- Messages that leave one after another stand in the log in their order. -/
theorem out_foldl_emit {α : Type} (f : α → Output) (l : List α) (s : State) : (l.foldl (fun s p => emit (f p) s) s).out = s.out ++ l.map f := by
  induction l generalizing s with
  | nil => exact (List.append_nil _).symm
  | cons p l ih => rw [List.foldl_cons, ih, emit_out, List.append_assoc, List.map_cons, List.singleton_append]

theorem sec_foldl_emit {α : Type} (f : α → Output) (l : List α) (s : State) : (l.foldl (fun s p => emit (f p) s) s).sec = s.sec :=
  (Keeps.foldl_via (fun s p => emit_keeps (f p) s) (Keeps.refl Part.log s)).sameSec rfl

/-- Settles O57: each request by its rule above. -/
theorem managementRequestsAnswered : Obligations.ManagementRequestsAnswered := by
  refine ⟨fun b s hlen hcode hver => execGetVersion_answers hlen hcode hver, fun b s h hver => ?_, fun b s h => ?_, fun b s h => ?_,
    fun b s h hslot => execGetCertificate_answers h hslot, fun b s h hslot => ?_, fun b s h hix => ?_,
    fun b s hlen hcmd hlo hhi => execMctpControl_sets hlen hcmd hlo hhi, fun b s hlen hcmd => execMctpControl_reads hlen hcmd,
    fun n s => .of_exec rfl ⟨sec_foldl_emit _ _ _, out_foldl_emit _ _ _⟩, fun n s => .of_exec rfl rfl⟩
  · -- GET_CAPABILITIES
    obtain ⟨l, hl⟩ := execGetCapabilities_answers h hver
    exact .of_exec hl ⟨rfl, l, rfl⟩
  · -- NEGOTIATE_ALGORITHMS
    show execNegotiateAlgorithms b s = _
    rw [execNegotiateAlgorithms, spdmAsk_taken h]
  · -- GET_DIGESTS
    show execGetDigests b s = _
    rw [execGetDigests, spdmAsk_taken h]
  · -- CHALLENGE
    obtain ⟨l, hl⟩ := execChallenge_answers h hslot
    exact .of_exec hl ⟨rfl, l, rfl⟩
  · -- GET_MEASUREMENTS
    obtain ⟨l, hl⟩ := execGetMeasurements_answers h hix
    exact .of_exec hl ⟨rfl, l, rfl⟩

end Sys2Proof.Machine
end

section
/-!
The debug port (R736 to R740): tokens, the access register, halt and resume, and the boundary scan.
-/
namespace Sys2Proof.Machine

/-! ### Tokens -/

/-- Words put into registers change no other part. -/
theorem foldl_setReg_keeps {α : Type} (o : α → Nat) (v : α → Word) (l : List α) (s : State) :
    Keeps Part.regs s (l.foldl (fun s x => setReg (o x) (v x) s) s) :=
  Keeps.foldl_via (fun s x => setReg_keeps (o x) (v x) s) (Keeps.refl _ s)

/-- A fresh nonce takes one draw. -/
theorem sec_freshNonce (s : State) : (freshNonce s).sec = { s.sec with draws := s.sec.draws + 1 } := by
  rw [freshNonce, modSec_sec, (foldl_setReg_keeps _ _ _ s).sameSec rfl]

theorem dbg_freshNonce (s : State) : (freshNonce s).dbg = s.dbg := by
  rw [freshNonce, modSec_dbg, (foldl_setReg_keeps _ _ _ s).sameDbg rfl]

/-! ### The access register -/

/-- An update starts an access while none is in progress, where its OP reads or writes (R737). -/
theorem execDbgAccess_starts {u : BitVec 96} {s : State} (hfree : s.dbg.busy = false)
    (hop : (u.extractLsb' 12 4).toNat = 1 ∨ (u.extractLsb' 12 4).toNat = 2) : exec (.dbgAccess u) s = .next (modDbg (fun d => { d with
      addr := (u.extractLsb' 48 48).toNat, data := (u.extractLsb' 16 32).toNat, op := (u.extractLsb' 12 4).toNat, busy := true, status := 4 }) s) := by
  have hgo : ¬ (s.dbg.busy = true ∨ ((u.extractLsb' 12 4).toNat ≠ 1 ∧ (u.extractLsb' 12 4).toNat ≠ 2)) :=
    fun hno => hno.elim (by simp [hfree]) fun hnone => hop.elim hnone.1 hnone.2
  exact congrArg Host.Outcome.next (if_neg hgo)

section
variable {s : State} (hbusy : s.dbg.busy = true)
include hbusy

/-- An access outside the scope ends with status 3 (R738). -/
theorem execDbgAccessDone_unscoped (hscope : bit (debugScope s) (s.dbg.op - 1) = false) : exec .dbgAccessDone s = .next (dbgEnd 3 none s) := by
  show execDbgAccessDone s = _
  simp only [execDbgAccessDone, hbusy, hscope, Bool.not_true, Bool.not_false, Bool.false_eq_true, if_false, if_true]

section
variable (hscope : bit (debugScope s) (s.dbg.op - 1) = true)
include hscope

/-- An access off a word's boundary ends with status 1. -/
theorem execDbgAccessDone_unaligned (hoff : s.dbg.addr % 4 ≠ 0) : exec .dbgAccessDone s = .next (dbgEnd 1 none s) := by
  show execDbgAccessDone s = _
  simp only [execDbgAccessDone, hbusy, hscope, Bool.not_true, Bool.false_eq_true, if_false, if_pos hoff]

/-- An access to the window goes to a register. -/
theorem execDbgAccessDone_register {o : Nat} (hword : o % 4 = 0) (ho : o < 2 ^ 32) (haddr : s.dbg.addr = windowBase + o) :
    exec .dbgAccessDone s = .next (dbgRegister o s) := by
  have haligned : ¬ (windowBase + o) % 4 ≠ 0 := by unfold windowBase; omega
  have hwindow : windowBase ≤ windowBase + o ∧ windowBase + o < windowBase + 2 ^ 32 := by omega
  show execDbgAccessDone s = _
  simp only [execDbgAccessDone, hbusy, hscope, haddr, Bool.not_true, Bool.false_eq_true, if_false, if_neg haligned, if_pos hwindow, Nat.add_sub_cancel_left]

/-- An access outside the window goes to memory. -/
theorem execDbgAccessDone_memory (hword : s.dbg.addr % 4 = 0) (hout : ¬ (windowBase ≤ s.dbg.addr ∧ s.dbg.addr < windowBase + 2 ^ 32)) :
    exec .dbgAccessDone s = .next (dbgMemory s.dbg.addr s) := by
  show execDbgAccessDone s = _
  simp only [execDbgAccessDone, hbusy, hscope, Bool.not_true, Bool.false_eq_true, if_false, if_neg (not_not.2 hword), if_neg hout]
end
end

section
variable {s : State} {o b : Nat} (hb : blockOf o = some b)
include hb

/-- A read of a register gives its value. -/
theorem dbgRegister_reads (hop : s.dbg.op = 1) : dbgRegister o s = dbgEnd 0 (some (readBy .jtag o s).1.toNat) (readBy .jtag o s).2 := by
  simp only [dbgRegister, hb, hop, if_true]

/-- A write of a register is refused where its block is locked. -/
theorem dbgRegister_writes (hop : s.dbg.op = 2) : dbgRegister o s =
    dbgEnd (if locked s b && decide ((regRow o).rwl ≠ 0) then 2 else 0) none (writeWord .jtag o (BitVec.ofNat 32 s.dbg.data) s) := by
  simp only [dbgRegister, hb, hop, show ¬ (2 : Nat) = 1 by decide, if_false]
end

/-! ### Halt and resume -/

section
variable {s : State}

/-- HALT acts within the hub scope while no system job is loaded (R740). -/
theorem execDbgHalt_halts (hscope : bit (debugScope s) 2 = true) (hfree : systemLoaded s = false) :
    exec .dbgHalt s = .next (modHub (fun h => { h with halted := true }) s) := by
  show execDbgHalt s = _
  simp only [execDbgHalt, hscope, hfree, Bool.not_false, Bool.and_true, if_true]

/-- Outside the hub scope neither HALT nor RESUME acts. -/
theorem execDbgHalt_unscoped (hscope : bit (debugScope s) 2 = false) : exec .dbgHalt s = .next s := by
  show execDbgHalt s = _
  simp only [execDbgHalt, hscope, Bool.false_and, Bool.false_eq_true, if_false]

theorem execDbgResume_unscoped (hscope : bit (debugScope s) 2 = false) : exec .dbgResume s = .next s := by
  show execDbgResume s = _
  simp only [execDbgResume, hscope, Bool.false_and, Bool.false_eq_true, if_false]

/-- RESUME lets the hub controller and its watchdog run again. -/
theorem execDbgResume_resumes (hscope : bit (debugScope s) 2 = true) (hhalted : s.hub.halted = true) :
    exec .dbgResume s = .next (actOnHeld (modHub (fun h => { h with halted := false, lastKick := s.now }) s)) := by
  show execDbgResume s = _
  simp only [execDbgResume, hscope, hhalted, Bool.and_self, if_true]
end

/-- Settles O58: each command by its rule above. -/
theorem debugCommandsAct : Obligations.DebugCommandsAct := by
  refine ⟨fun l s => .of_exec rfl ⟨dbg_freshNonce _, sec_freshNonce _⟩, fun u s hfree hop => execDbgAccess_starts hfree hop,
    fun u s hbusy => congrArg Host.Outcome.next (if_pos (.inl hbusy)),
    fun s hbusy hscope => ⟨_, execDbgAccessDone_unscoped hbusy hscope, modDbg_keeps _ s, rfl⟩,
    fun s hbusy hscope hoff => ⟨_, execDbgAccessDone_unaligned hbusy hscope hoff, modDbg_keeps _ s, rfl⟩,
    fun s o b hbusy hop hscope hword ho haddr hb => ?_, fun s o b hbusy hop hscope hword ho haddr hb => ?_,
    fun s hscope hfree => .of_exec (execDbgHalt_halts hscope hfree) rfl, fun s hscope => ⟨execDbgHalt_unscoped hscope, execDbgResume_unscoped hscope⟩,
    fun s hscope hhalted => execDbgResume_resumes hscope hhalted, fun s hbusy hop hscope hword hout => ?_, fun s hbusy hop hscope hword hout => ?_,
    fun c s => .of_exec rfl rfl, fun c s => .of_exec rfl rfl⟩
  · rw [execDbgAccessDone_register hbusy (by rwa [hop]) hword ho haddr, dbgRegister_reads hb hop]
  · rw [execDbgAccessDone_register hbusy (by rwa [hop]) hword ho haddr, dbgRegister_writes hb hop]
  · rw [execDbgAccessDone_memory hbusy (by rwa [hop]) hword hout, dbgMemory, if_pos hop]
  · rw [execDbgAccessDone_memory hbusy (by rwa [hop]) hword hout, dbgMemory, if_neg (by rw [hop]; decide)]

end Sys2Proof.Machine
end
